-- ==== Sys2Proof/Word.lean ====
section
/-!
DEFINITION. Sys2Proof/Word.lean: the machine words and their plainest arithmetic (spec/00_scope.md R4, spec/02 R40).
-/
namespace Sys2Proof

/-- A byte. -/
abbrev Byte := BitVec 8
/-- One lane of a vector register, and one instruction word (spec/02 R29, R40). -/
abbrev W32 := BitVec 32
/-- A scalar register (spec/02 R40). -/
abbrev W64 := BitVec 64
/-- An address register: an 80-bit virtual address (spec/02 R40). -/
abbrev W80 := BitVec 80
/-- A tile register (spec/02 R40). -/
abbrev W128 := BitVec 128
/-- One bit for each logical lane 0 to 1,023 (spec/12 R202); lanes at or beyond the team width are 0. -/
abbrev Mask := BitVec 1024

end Sys2Proof
end

