-- ==== Sys2Proof/Config.lean ====
section
/-!
DEFINITION. Sys2Proof/Config.lean: what one part fixes and the spec leaves open. Every constant here has no body:
nothing can evaluate it, so a claim holds whatever it is.
-/
namespace Sys2Proof.Config

/-- A fresh free value, `freeNat n` being the n-th drawn; `State.fresh` counts the draws (log 4). -/
opaque freeNat : Nat → Nat

/-- The fused physical position of a cluster, 0 to 8 (spec/01 R11, spec/22 R328): chosen at manufacture (log 12). -/
opaque ninth : Nat → Fin 9

/-- The device's ML-DSA-44 signature of a 32-byte message, with the 32 random bytes of hedged signing (spec/19 R295; log 14). -/
opaque mldsaSign : (rnd msg : BitVec 256) → BitVec 19360

/-- Whether some signature that the device did not make verifies under its public key (spec/19 R295, R297; log 14). -/
opaque mldsaForged : (msg : BitVec 256) → (sig : BitVec 19360) → Bool

/-- Whether a firmware image's signature verifies under Virold's public key (spec/23 R342; log 14). -/
opaque firmwareVerify : Nat → Nat → Bool

/-- The 1,312 bytes of the device's public key (spec/19 R295; log 14). -/
opaque publicKey : Vector Byte 1312

/-- Virold's certificate that binds the public key to the module's serial number (spec/19 R295; log 14). -/
opaque certificate : List Byte

/-- What a NaN converted into an integer element of 8 or 4 bits leaves, by format code (spec/04 R82 and R85 give none; log 16). -/
opaque nanElem : Nat → Nat

/-- The fused MAC address of the time port (spec/01 R19; log 25). -/
opaque mac : BitVec 48

/-- The walk id that an agent assigns to its n-th walk, before it is made non-zero and unique (spec/13 R224; log 4). -/
opaque walkId : Nat → BitVec 32

/-- The Floe port through which a device of the domain is reached (spec/18 R287; log 3). -/
opaque portOf : Nat → Fin 32

/-- The chunk number that `ring.swait` reports with the end mark, for the number of the slot's last chunk (spec/10 R196 gives the
field no value there; log 4). -/
opaque endChunk : Nat → BitVec 16

/-- The rounded result of a special function, by function code and operand pattern, should the enclosure that the model
computes ever straddle a rounding boundary (spec/07 R125; log 15). -/
opaque closeCall : Nat → Nat → Nat

end Sys2Proof.Config
end

