-- ==== Sys2Proof/Syntax.lean ====
section
/-!
DEFINITION. Sys2Proof/Syntax.lean: every row of spec/opcode_table.json as one constructor of `Instr`. The first 214 rows
are instruction words (spec/02 R43 to R47; spec/06, 07, 10, 15, 20); the last 74 rows are events of the other agents of
the machine (spec/95), whose operands are what the event brings from outside or which object it concerns.
-/
namespace Sys2Proof

/-- v0 to v63 (spec/02 R40). -/
abbrev VReg := Fin 64
/-- s0 to s63 (spec/02 R40). -/
abbrev SReg := Fin 64
/-- a0 to a15 (spec/02 R40). -/
abbrev AReg := Fin 16
/-- p0 to p7 (spec/02 R40). -/
abbrev PReg := Fin 8
/-- t0 to t15 (spec/02 R40). -/
abbrev TReg := Fin 16
/-- h0 to h3 (spec/02 R40). -/
abbrev HReg := Fin 4

/-- The guard field G: predicate `p`, complemented when `neg` (spec/02 R42). -/
structure Guard where
  neg : Bool
  p   : PReg
  deriving DecidableEq, Repr

/-- The floating types of FADD to FCUN and FUNA: `f32`; `h2` or `h`; `b2` or `b` (spec/07 R120, R123). -/
inductive FType where
  | f32 | half | bf
  deriving DecidableEq, Repr

/-- The element types of the VXLN reductions (spec/06 R114). -/
inductive RType where
  | i32 | f32
  deriving DecidableEq, Repr

/-- Rounding selections (spec/04 R82). -/
inductive Rnd where
  | rne | rtz | sat | sr
  deriving DecidableEq, Repr

/-- Element formats of `xfrm.mxq` and `xfrm.mxdq` (spec/07 R134). -/
inductive MxFmt where
  | e4m3 | e5m2 | e2m1
  deriving DecidableEq, Repr

/-- Scopes, narrow to wide (spec/08 R144, spec/10 R174). -/
inductive Scope where
  | team | core | clu | dev | dom | sys
  deriving DecidableEq, Repr

/-- The ordering fields ORD and ORD3: plain, or ordered at a scope (spec/10 R174). -/
inductive Ordering3 where
  | plain
  | at_ (s : Scope)
  deriving DecidableEq, Repr

/-- Sizes of VLD (spec/10 R177). -/
inductive LdSize where
  | u8 | s8 | u16 | s16 | w32 | w64 | w128
  deriving DecidableEq, Repr

/-- Sizes of VST (spec/10 R177). -/
inductive StSize where
  | b8 | b16 | w32 | w64 | w128
  deriving DecidableEq, Repr

/-- Sizes of SLD and SST (spec/10 R180). -/
inductive SSize where
  | b8 | b16 | w32 | w64
  deriving DecidableEq, Repr

/-- Widths of SATM (spec/10 R181). -/
inductive AtWidth where
  | w64 | w32
  deriving DecidableEq, Repr

/-- Classes of long-running operations, in counter order (spec/09 R160). -/
inductive OpClass where
  | ld | st | at_ | cp | sg
  deriving DecidableEq, Repr

/-- Statuses of `hctl.hret` (spec/15 R259). -/
inductive HretStatus where
  | ok | skip | fail
  deriving DecidableEq, Repr

/-- The operations of an atomic that a remote device asks for (spec/10 R178, R179, R181). -/
inductive RemoteOp where
  | add | addF | sub | min | max | minn | maxn | maxF | and | or | xor | xchg | cas
  deriving DecidableEq, Repr

/-- What a remote device asks over Floe (spec/18 R287, spec/08 R157, spec/10 R179): a load of some bytes; a store; an atomic on 4 or 8 bytes
with its operand and, for `cas`, its new value. -/
inductive RemoteKind where
  | load (n : Nat)
  | store (bytes : List Byte)
  | atomic (op : RemoteOp) (w : AtWidth) (x y : W64)
  deriving DecidableEq, Repr

/-- A register that an error meets (spec/22 R324): a lane of a v register, or an s register, of a team. -/
inductive RegPlace where
  | v (tid r lane : Nat)
  | s (tid r : Nat)
  deriving DecidableEq, Repr

/-- One unit's measurement of a millisecond (spec/19 R289, R290): energy and static estimate in nanojoules and the bytes
that each partition moved through the unit. -/
structure Reading where
  unit   : Nat
  index  : Nat
  energy : Nat
  static : Nat
  bytes  : List (Nat × Nat)
  deriving DecidableEq, Repr

/-- What the power arbiter measures (spec/19 R298): the demand of each island, and that of the ports, in milliwatts. -/
structure PowerDemand where
  islands : List Nat
  ports   : Nat
  deriving DecidableEq, Repr

/-- The times of a Sync (spec/01 R20): the master's when it was sent, and how many nanoseconds of TIMEB ago it was received. -/
structure SyncTimes where
  master : Int
  age    : Nat
  deriving DecidableEq, Repr

/-- The quality that a clock announces of itself (spec/01 R19): class, accuracy and variance. -/
structure ClockQuality where
  cls : Nat
  acc : Nat
  var : Nat
  deriving DecidableEq, Repr

/-- A PTP message's transport (spec/01 R19). -/
inductive PtpTransport where
  | ipv4 | ipv6 | ethernet
  deriving DecidableEq, Repr

/-- The instructions and events of the Z9: one constructor for each row of spec/opcode_table.json, in its order. -/
inductive Instr where
  -- MISC (spec/06 R103)
  | miscNop
  | miscExit
  | miscYield
  | miscBrk
  | miscTrap (k : BitVec 12)
  -- SOP (spec/06 R104)
  | sopAdd (d a b : SReg)
  | sopSub (d a b : SReg)
  | sopMul (d a b : SReg)
  | sopMulh (d a b : SReg)
  | sopMulhn (d a b : SReg)
  | sopDiv (d a b : SReg)
  | sopDivn (d a b : SReg)
  | sopRem (d a b : SReg)
  | sopAnd (d a b : SReg)
  | sopOr (d a b : SReg)
  | sopXor (d a b : SReg)
  | sopAndn (d a b : SReg)
  | sopShl (d a b : SReg)
  | sopShr (d a b : SReg)
  | sopSar (d a b : SReg)
  | sopMin (d a b : SReg)
  | sopMax (d a b : SReg)
  | sopMinn (d a b : SReg)
  | sopMaxn (d a b : SReg)
  | sopSlt (d a b : SReg)
  | sopSltn (d a b : SReg)
  | sopSeq (d a b : SReg)
  | sopPopc (d a : SReg)
  | sopClz (d a : SReg)
  | sopCtz (d a : SReg)
  -- SOPI, SSHI (spec/06 R105)
  | sopiAddi (d a : SReg) (i : BitVec 10)
  | sopiAndi (d a : SReg) (i : BitVec 10)
  | sopiOri (d a : SReg) (i : BitVec 10)
  | sopiXori (d a : SReg) (i : BitVec 10)
  | sshiShli (d a : SReg) (i : BitVec 6)
  | sshiShri (d a : SReg) (i : BitVec 6)
  | sshiSari (d a : SReg) (i : BitVec 6)
  | sshiSlti (d a : SReg) (i : BitVec 10)
  -- SINS (spec/06 R106)
  | sinsInsert (d : SReg) (q : Fin 4) (i : BitVec 16)
  -- AOP (spec/06 R107)
  | aopAadd (d a : AReg) (b : SReg) (h : BitVec 3)
  | aopAset (d a : AReg) (b : SReg) (h : Bool)
  | aopAget (a : AReg) (b : SReg) (h : Bool)
  | aopAmov (d a : AReg)
  -- CREG (spec/20 R300)
  | cregCrd (d : SReg) (n : BitVec 16)
  | cregCwr (d : SReg) (n : BitVec 16)
  -- VARI, VLOG, VSFT, VMNX (spec/06 R108)
  | variIadd (d a b : VReg) (g : Guard)
  | variIsub (d a b : VReg) (g : Guard)
  | variImul (d a b : VReg) (g : Guard)
  | variImulh (d a b : VReg) (g : Guard)
  | vlogAnd (d a b : VReg) (g : Guard)
  | vlogOr (d a b : VReg) (g : Guard)
  | vlogXor (d a b : VReg) (g : Guard)
  | vlogAndn (d a b : VReg) (g : Guard)
  | vsftShl (d a b : VReg) (g : Guard)
  | vsftShr (d a b : VReg) (g : Guard)
  | vsftSar (d a b : VReg) (g : Guard)
  | vsftRol (d a b : VReg) (g : Guard)
  | vmnxImin (d a b : VReg) (g : Guard)
  | vmnxImax (d a b : VReg) (g : Guard)
  | vmnxNmin (d a b : VReg) (g : Guard)
  | vmnxNmax (d a b : VReg) (g : Guard)
  -- VCMP (spec/06 R111)
  | vcmpEq (p q : PReg) (a b : VReg) (g : Guard)
  | vcmpLt (p q : PReg) (a b : VReg) (g : Guard)
  | vcmpLe (p q : PReg) (a b : VReg) (g : Guard)
  | vcmpLtn (p q : PReg) (a b : VReg) (g : Guard)
  -- VADI, VIMM (spec/06 R109, R110)
  | vadi (d a : VReg) (g : Guard) (i : BitVec 8)
  | vimmSx (d : VReg) (g : Guard) (i : BitVec 13)
  | vimmHi (d : VReg) (g : Guard) (i : BitVec 13)
  -- FADD to FMAX (spec/07 R121, R122)
  | fadd (d a b : VReg) (g : Guard) (t : FType)
  | fsub (d a b : VReg) (g : Guard) (t : FType)
  | fmul (d a b : VReg) (g : Guard) (t : FType)
  | fma (d a b : VReg) (g : Guard) (t : FType)
  | fmin (d a b : VReg) (g : Guard) (t : FType)
  | fmax (d a b : VReg) (g : Guard) (t : FType)
  -- FCEQ to FCUN (spec/07 R123)
  | fceq (p q : PReg) (a b : VReg) (g : Guard) (t : FType)
  | fclt (p q : PReg) (a b : VReg) (g : Guard) (t : FType)
  | fcle (p q : PReg) (a b : VReg) (g : Guard) (t : FType)
  | fcun (p q : PReg) (a b : VReg) (g : Guard) (t : FType)
  -- FUNA (spec/07 R125)
  | funaExp2 (d a : VReg) (g : Guard) (t : FType)
  | funaLog2 (d a : VReg) (g : Guard) (t : FType)
  | funaRcp (d a : VReg) (g : Guard) (t : FType)
  | funaRsqrt (d a : VReg) (g : Guard) (t : FType)
  | funaSqrt (d a : VReg) (g : Guard) (t : FType)
  | funaTanh (d a : VReg) (g : Guard) (t : FType)
  | funaSigm (d a : VReg) (g : Guard) (t : FType)
  | funaGelu (d a : VReg) (g : Guard) (t : FType)
  | funaAbs (d a : VReg) (g : Guard) (t : FType)
  | funaNeg (d a : VReg) (g : Guard) (t : FType)
  | funaFloor (d a : VReg) (g : Guard) (t : FType)
  | funaCeil (d a : VReg) (g : Guard) (t : FType)
  | funaRint (d a : VReg) (g : Guard) (t : FType)
  | funaFrac (d a : VReg) (g : Guard) (t : FType)
  -- FCVT (spec/07 R127)
  | fcvtConvert (d a : VReg) (n : Fin 40) (g : Guard) (r : Rnd)
  | fcvtI32 (d a : VReg) (g : Guard) (r : Rnd)
  | fcvtWi32 (d a : VReg) (g : Guard) (r : Rnd)
  -- VSEL, VMOV, VXLN (spec/06 R112 to R115)
  | vsel (d a b : VReg) (g : Guard)
  | vmovMov (d a : VReg) (g : Guard)
  | vmovBcast (d : VReg) (a : SReg) (g : Guard)
  | vmovRdlane (d : SReg) (a : VReg) (g : Guard)
  | vmovWrlane (d : VReg) (a : SReg) (g : Guard)
  | vmovLaneid (d : VReg) (g : Guard)
  | vxlnShfl (d a : VReg) (g : Guard)
  | vxlnBcl (d a : VReg) (g : Guard)
  | vxlnRedadd (d a : VReg) (g : Guard) (t : RType)
  | vxlnRedmax (d a : VReg) (g : Guard) (t : RType)
  | vxlnScan (d a : VReg) (g : Guard) (t : RType)
  -- PLOG (spec/06 R116 to R119)
  | plogPand (d a : PReg) (n : Bool) (b : PReg)
  | plogPor (d a : PReg) (n : Bool) (b : PReg)
  | plogPxor (d a : PReg) (n : Bool) (b : PReg)
  | plogPmovs (d : SReg) (a : PReg) (w : Fin 64)
  | plogPbal (d : SReg) (a : PReg)
  | plogEmw (a : PReg)
  | plogEmr (d : SReg) (w : Fin 64)
  -- XFRM (spec/07 R134 to R140)
  | xfrmHfwd (d a : VReg) (k : Fin 8)
  | xfrmHinv (d a : VReg)
  | xfrmHthr (d a : VReg) (h : HReg)
  | xfrmHpack (d a : VReg) (p : PReg)
  | xfrmHunpk (d a : VReg) (k : Fin 8) (p : PReg)
  | xfrmXpose (d a : VReg)
  | xfrmMxq (d a : VReg) (m : MxFmt) (r : Rnd)
  | xfrmMxdq (d a : VReg) (m : MxFmt)
  | xfrmI4dq (d a : VReg)
  -- DOMN (spec/07 R141)
  | domnDtag (d : VReg) (t : Fin 8)
  | domnDget (d : SReg) (a : VReg)
  | domnHscl (d a : VReg) (b : SReg)
  | domnHbia (d a : VReg) (b : SReg)
  -- VLD, VST, VATM (spec/10 R177, R178)
  | vld (d : VReg) (a : AReg) (o : VReg) (g : Guard) (sc : Bool) (z : LdSize)
  | vst (d : VReg) (a : AReg) (o : VReg) (g : Guard) (sc : Bool) (z : StSize)
  | vatmAddI (d : VReg) (a : AReg) (o : VReg) (g : Guard)
  | vatmAddF (d : VReg) (a : AReg) (o : VReg) (g : Guard)
  | vatmMinI (d : VReg) (a : AReg) (o : VReg) (g : Guard)
  | vatmMaxI (d : VReg) (a : AReg) (o : VReg) (g : Guard)
  | vatmMaxF (d : VReg) (a : AReg) (o : VReg) (g : Guard)
  | vatmAnd (d : VReg) (a : AReg) (o : VReg) (g : Guard)
  | vatmOr (d : VReg) (a : AReg) (o : VReg) (g : Guard)
  | vatmXor (d : VReg) (a : AReg) (o : VReg) (g : Guard)
  | vatmXchg (d : VReg) (a : AReg) (o : VReg) (g : Guard)
  | vatmCas (d : VReg) (a : AReg) (o : VReg) (g : Guard)
  -- SLD, SST (spec/10 R180)
  | sld (d : SReg) (a : AReg) (r : Ordering3) (z : SSize) (i : BitVec 9)
  | sst (d : SReg) (a : AReg) (r : Ordering3) (z : SSize) (i : BitVec 9)
  -- SATM (spec/10 R181)
  | satmAdd (d : SReg) (a : AReg) (b : SReg) (r : Ordering3) (w : AtWidth)
  | satmSub (d : SReg) (a : AReg) (b : SReg) (r : Ordering3) (w : AtWidth)
  | satmAnd (d : SReg) (a : AReg) (b : SReg) (r : Ordering3) (w : AtWidth)
  | satmOr (d : SReg) (a : AReg) (b : SReg) (r : Ordering3) (w : AtWidth)
  | satmXor (d : SReg) (a : AReg) (b : SReg) (r : Ordering3) (w : AtWidth)
  | satmMin (d : SReg) (a : AReg) (b : SReg) (r : Ordering3) (w : AtWidth)
  | satmMax (d : SReg) (a : AReg) (b : SReg) (r : Ordering3) (w : AtWidth)
  | satmMinn (d : SReg) (a : AReg) (b : SReg) (r : Ordering3) (w : AtWidth)
  | satmMaxn (d : SReg) (a : AReg) (b : SReg) (r : Ordering3) (w : AtWidth)
  | satmXchg (d : SReg) (a : AReg) (b : SReg) (r : Ordering3) (w : AtWidth)
  | satmCas (d : SReg) (a : AReg) (b : SReg) (r : Ordering3) (w : AtWidth)
  -- FENCE, WAIT (spec/10 R182, R183)
  | fenceAcq (o : Scope)
  | fenceRel (o : Scope) (k : BitVec 5)
  | fenceAr (o : Scope) (k : BitVec 5)
  | fenceSc (o : Scope) (k : BitVec 5)
  | wait (k : OpClass) (n : Fin 64)
  -- TSL, TSS (spec/10 R186)
  | tsl (d : VReg) (t : TReg) (r : Bool) (i : BitVec 9) (g : Guard)
  | tss (d : VReg) (t : TReg) (r : Bool) (i : BitVec 9) (g : Guard)
  -- TBND (spec/10 R185)
  | tbndBind (t : TReg) (a : SReg)
  | tbndUnbind (t : TReg)
  | tbndQuery (d : SReg) (t : TReg) (h : Bool)
  -- XCPY (spec/10 R191)
  | xcpyIn (t : TReg) (a : SReg)
  | xcpyOut (t : TReg) (a : SReg)
  | xcpyMcin (t : TReg) (a : SReg)
  -- RING (spec/10 R195, R196)
  | ringRbind (d a : SReg)
  | ringRunbind (a : SReg)
  | ringSpub (a : SReg) (k : Fin 64)
  | ringSrel (a : SReg) (k : Fin 64)
  | ringSwait (d a : SReg) (k : Fin 64)
  -- TBAR (spec/10 R197)
  | tbarTbinit (d a : SReg)
  | tbarTbarr (a : SReg) (o : Scope)
  | tbarTbwait (d a : SReg) (o : Fin 64)
  | tbarTbtest (d a : SReg)
  -- SIG (spec/10 R198)
  | sigSigadd (d : SReg) (a : AReg) (b : SReg) (r : Ordering3)
  | sigSigwait (d : SReg) (a : AReg) (b : SReg) (r : Ordering3)
  | sigSigrd (d : SReg) (a : AReg) (r : Ordering3)
  | sigWatch (d : SReg) (a : AReg) (b : SReg) (r : Ordering3)
  -- SGRP (spec/15 R262)
  | sgrpFork (d : SReg) (a : AReg) (r : Ordering3)
  | sgrpArr (d : SReg) (a : AReg) (b : SReg) (r : Ordering3)
  | sgrpCan (d : SReg) (a : AReg) (r : Ordering3)
  | sgrpWait (d : SReg) (a : AReg) (r : Ordering3)
  | sgrpFree (d : SReg) (a : AReg) (r : Ordering3)
  | sgrpInfo (d : SReg) (a : AReg) (r : Ordering3)
  -- HCTL (spec/15 R259 to R261)
  | hctlHret (t : HretStatus)
  | hctlHtaint
  | hctlWstat (d : SReg) (e : Fin 8)
  | hctlWpos (d : SReg) (k w : Fin 64)
  -- branches (spec/15 R253 to R258)
  | brv (g : Guard) (o : BitVec 20)
  | rcv (o : BitVec 22)
  | join
  | brsBeqz (k : SReg) (o : BitVec 16)
  | brsBnez (k : SReg) (o : BitVec 16)
  | brsBltz (k : SReg) (o : BitVec 16)
  | brsBgez (k : SReg) (o : BitVec 16)
  | jmpJmp (o : BitVec 22)
  | jmpCall (o : BitVec 22)
  | jmpJmpr (a : SReg)
  | jmpRet
  -- SYNC (spec/15 R266 to R268)
  | syncGbar (o : Scope)
  | syncEnq (d : SReg) (q p : AReg)
  | syncQctlCreate (d : SReg) (q : AReg)
  | syncQctlStop (d : SReg) (q : AReg)
  | syncQctlResume (d : SReg) (q : AReg) (a : SReg)
  | syncQctlDestroy (d : SReg) (q : AReg)
  -- PRIV (spec/20 R306)
  | privTretRetry
  | privTretSkip
  | privTretKill
  | privPgcow (d : SReg)
  | privPgref (d : SReg) (a : AReg)
  | privTlbinv (a : AReg) (b k : SReg)
  | privEseal (d : SReg) (a : AReg) (b : SReg)
  | privPreemptSave (d : SReg) (q : AReg)
  | privPreemptRsm (d : SReg) (q : AReg)
  | privHalt
  -- events of teams and their operations
  | trapEntry (tid : Nat)
  | transformPipeReply (core : Nat)
  | loadComplete (tid op : Nat)
  | storePerformed (tid op : Nat)
  | atomicPerformed (tid op : Nat)
  | teamSlotRelease (tid : Nat)
  | regather (tid : Nat)
  | teamAged (tid : Nat)
  | l1Writeback (core sector : Nat)
  | signalWaitSatisfied (w : Nat)
  | evictedTeamRestore (tid : Nat)
  -- events of stream engines
  | copyStart (c : Nat)
  | copySectorPerformed (c job : Nat)
  | ringFillChunk (cluster ring : Nat)
  | ringDrainChunk (cluster ring : Nat)
  | ringUnbindComplete (cluster ring : Nat)
  -- events of the translation units, the host and remote devices
  | pageAnswer
  | hostStore (pa : Nat) (bytes : List Byte)
  | hostLoad (pa n : Nat)
  | remoteRequest (dev pa : Nat) (k : RemoteKind)
  -- events of agents and queues
  | ticketClaim (q core : Nat)
  | packetDispatch (q : Nat)
  | placementRetry (q : Nat)
  | placementPressurePreempt (q : Nat)
  | waitSignalsDispatch (q : Nat)
  | signalPacketPerform (q : Nat)
  | bundleStart (b : Nat)
  | queueStallCheck
  -- events of walks and groups
  | kstepBegin (core : Nat)
  | kstepBoundary (core : Nat)
  | splitkArrival (core slot : Nat)
  | upcallDelivery (core pool : Nat)
  | streamFillComplete (core : Nat) (isB : Bool) (slot : Nat)
  | streamDrainComplete (core slot : Nat)
  | walkStallReport (core : Nat)
  | groupDeadline (g : Nat)
  -- events of pre-emption and the debugger
  | preemptSaveComplete (q : Nat)
  | drainLimitExpiry (q : Nat)
  | queueAutoResume (q : Nat)
  | dbgctlHaltreq (core : Nat)
  | dbgctlResume (core : Nat)
  | debugHaltQuiet (core : Nat)
  -- events of energy, power and time
  | energyTick (rs : List Reading)
  | sealedIntervalClose
  | powerBudgetTick (d : PowerDemand)
  | ptpSyncReceive (src : Nat) (t : PtpTransport) (domain : BitVec 8) (logInterval : Int) (times : SyncTimes)
  | ptpFrameDrop (isPtp : Bool) (t : PtpTransport)
  | ptpSyncTimeout
  | ppsEdge
  -- events of errors and links
  | correctableError (unit index addr : Nat)
  | uncorrectableError (unit index addr : Nat) (reg : Option RegPlace)
  | linkCrcError (port : Nat) (again : Bool)
  | linkRetrainEnd (port : Nat) (ok : Bool)
  -- register writes of the host
  | pwrlimWrite (x : W64)
  | prqheadWrite (x : W64)
  | prawrWrite (x : W64)
  | logheadWrite (x : W64)
  | ringBaseWrite (n : BitVec 16) (x : W64)
  | registerWrite (n : BitVec 16) (core : Nat) (x : W64)
  -- power, reset and firmware requests
  | powerGood (trains : Bool)
  | firmwareImageVerify (digest sig : Nat) (ports : BitVec 32) (failing : List (Nat × Nat)) (boot : BitVec 128)
  | warmReset
  | fwSetPtpAddress (v4 : BitVec 32) (v6 : BitVec 128)
  | fwReadPublicKey
  | fwSupplyLastRecord (part : Nat) (bytes : List Byte)
  | fwContextKill (ctx : Nat)
  | fwPartitionAssign (cluster : Nat) (part : Option (Fin 32))
  | powerLoss
  | fwContextCreate (ctx root part ffl fflen pool poolLen : Nat)
  | frameExport (frame dev : Nat)
  | sgOperationPerformed (tid op : Nat)
  | ptpAnnounceReceive (src prio1 : Nat) (quality : ClockQuality) (prio2 : Nat) (t : PtpTransport) (domain : BitVec 8)
  | ptpDelayRespReceive (src : Nat) (t : PtpTransport) (domain : BitVec 8) (delay : Int)
  | linkCompressorSwitch (port fill : Nat)
  deriving DecidableEq, Repr

end Sys2Proof
end

