-- ==== Sys2Proof/WellFormed.lean ====
section
/-!
DEFINITION. Sys2Proof/WellFormed.lean: which terms of `Instr` have a word or can happen. Most operand limits are carried
by the operand types; the checks here are those that the types do not carry.
-/
namespace Sys2Proof

/-- The control-register numbers of the table of spec/20 R301. -/
def cregKnown (n : Nat) : Bool :=
  n ≤ 0x000A || (0x0100 ≤ n && n ≤ 0x0107) || (0x0120 ≤ n && n ≤ 0x013F) || n == 0x0140 ||
  (0x0200 ≤ n && n ≤ 0x0202) || (0x0300 ≤ n && n ≤ 0x030B) || (0x0310 ≤ n && n ≤ 0x031F)

/-- The slot and word of `hctl.wpos` (spec/15 R261). -/
def wposKnown (k w : Nat) : Bool := (k ≤ 3 && w ≤ 4) || (k == 4 && w == 0)

/-- Scopes that `sync.gbar` takes (spec/15 R266). -/
def gbarScope : Scope → Bool
  | .team => false
  | .core => false
  | _ => true

/-- The ring base registers (spec/20 R305): PRQBASE, PRABASE, LOGBASE. -/
def ringBaseReg (n : Nat) : Bool := n == 0x0302 || n == 0x0305 || n == 0x0308

/-- Registers that the host may write and that have no event of their own (spec/20 R301): DBGCTL's held bits, PRQLOG,
PRALOG, LOGSIZE and PTPCFG; AGEIVL and STALLIVL are written at agent level. -/
def plainReg (n : Nat) : Bool :=
  n == 0x0200 || n == 0x0201 || n == 0x0300 || n == 0x0303 || n == 0x0306 || n == 0x0309 || n == 0x030B

/-- A term that the encodings and the machine's numbering admit. -/
def WellFormed : Instr → Bool
  | .cregCrd _ n => cregKnown n.toNat
  | .cregCwr _ n => cregKnown n.toNat
  | .hctlWpos _ k w => wposKnown k.val w.val
  | .syncGbar o => gbarScope o
  | .hostStore pa bs => pa + bs.length ≤ 2 ^ 41
  | .hostLoad pa n => pa + n ≤ 2 ^ 41
  | .remoteRequest dev pa _ => dev < 1024 && pa < 2 ^ 41
  | .fwContextKill c => c < 4096
  | .fwContextCreate c _ part _ _ _ _ => c < 4096 && part < 32
  | .fwPartitionAssign c _ => c < 32
  | .frameExport _ dev => dev < 1024
  | .ringBaseWrite n _ => ringBaseReg n.toNat
  | .registerWrite n core _ => plainReg n.toNat && core < 256
  | .dbgctlHaltreq core => core < 256
  | .dbgctlResume core => core < 256
  | .debugHaltQuiet core => core < 256
  | .linkCrcError port _ => port < 33
  | .linkRetrainEnd port _ => port < 33
  | .linkCompressorSwitch port _ => port < 32
  | _ => true

end Sys2Proof
end

