-- ==== Sys2Proof/Decode.lean ====
section
/-!
DEFINITION. Sys2Proof/Decode.lean: from a 32-bit word to an instruction or the detail code that rejects it (spec/02 R29,
R43 to R47), and the encoder. Both are written from the encoding tables of spec/02, 06, 07, 10, 15 and 20.
-/
namespace Sys2Proof

/-- The reasons of the illegal-instruction trap, in code order (spec/02 R47). -/
inductive Detail where
  | rsvmaj | rsvfn | rsvbit | chain | pipe | hazard | pktend | regalloc | privlvl | operand
  deriving DecidableEq, Repr

/-- The code in TCAUSE.detail (spec/02 R47). -/
def Detail.code : Detail → Nat
  | .rsvmaj => 0x01
  | .rsvfn => 0x02
  | .rsvbit => 0x03
  | .chain => 0x04
  | .pipe => 0x05
  | .hazard => 0x06
  | .pktend => 0x07
  | .regalloc => 0x08
  | .privlvl => 0x09
  | .operand => 0x0A

/-- Why a word is rejected, and the form whose reserved bits it sets (spec/02 R48: the group checks still count the registers
of that form). -/
structure Reject where
  detail : Detail
  form   : Option Instr
  deriving DecidableEq, Repr

/-- A decoded word: its chain bit, its switch bit and its instruction (spec/02 R29). -/
structure Slot where
  chain : Bool
  switch : Bool
  instr : Instr
  deriving DecidableEq, Repr

/-- `n` bits of the word `w` from bit `lo` up. -/
def bits (w lo n : Nat) : Nat := w / 2 ^ lo % 2 ^ n

/-- A 6-bit register field at bit `lo`. -/
def reg6 (w lo : Nat) : Fin 64 := Fin.ofNat 64 (w / 2 ^ lo)

/-- A 4-bit register field at bit `lo`. -/
def reg4 (w lo : Nat) : Fin 16 := Fin.ofNat 16 (w / 2 ^ lo)

/-- A 3-bit field at bit `lo`. -/
def reg3 (w lo : Nat) : Fin 8 := Fin.ofNat 8 (w / 2 ^ lo)

/-- One bit. -/
def flag (w lo : Nat) : Bool := w / 2 ^ lo % 2 == 1

/-- The guard field at bit `lo` (spec/02 R42). -/
def guardAt (w lo : Nat) : Guard := ⟨flag w (lo + 3), reg3 w lo⟩

/-- The type field of FADD to FCUN and FUNA (spec/02 R44, spec/07 R120). -/
def ftypeOf : Nat → Option FType
  | 0 => some .f32
  | 1 => some .half
  | 2 => some .bf
  | _ => none

/-- The type field of the VXLN reductions (spec/06 R114). -/
def rtypeOf : Nat → Option RType
  | 0 => some .i32
  | 1 => some .f32
  | _ => none

/-- The rounding field (spec/04 R82). -/
def rndOf : Nat → Rnd
  | 0 => .rne
  | 1 => .rtz
  | 2 => .sat
  | _ => .sr

/-- The format field of mxq and mxdq (spec/07 R134). -/
def mxfmtOf : Nat → Option MxFmt
  | 0 => some .e4m3
  | 1 => some .e5m2
  | 2 => some .e2m1
  | _ => none

/-- Scope codes (spec/10 R174). -/
def scopeOf : Nat → Option Scope
  | 0 => some .team
  | 1 => some .core
  | 2 => some .clu
  | 3 => some .dev
  | 4 => some .dom
  | 5 => some .sys
  | _ => none

/-- The fields ORD and ORD3 (spec/10 R174). -/
def orderingOf : Nat → Option Ordering3
  | 0 => some .plain
  | 1 => some (.at_ .team)
  | 2 => some (.at_ .core)
  | 3 => some (.at_ .clu)
  | 4 => some (.at_ .dev)
  | 5 => some (.at_ .dom)
  | 6 => some (.at_ .sys)
  | _ => none

/-- SZOP[2:0] of VLD (spec/10 R177). -/
def ldSizeOf : Nat → Option LdSize
  | 0 => some .u8
  | 1 => some .s8
  | 2 => some .u16
  | 3 => some .s16
  | 4 => some .w32
  | 5 => some .w64
  | 6 => some .w128
  | _ => none

/-- SZOP[2:0] of VST (spec/10 R177). -/
def stSizeOf : Nat → Option StSize
  | 0 => some .b8
  | 2 => some .b16
  | 4 => some .w32
  | 5 => some .w64
  | 6 => some .w128
  | _ => none

/-- SZ of SLD and SST (spec/10 R180). -/
def ssizeOf : Nat → SSize
  | 0 => .b8
  | 1 => .b16
  | 2 => .w32
  | _ => .w64

/-- OP5[4] of SATM (spec/10 R181). -/
def atWidthOf (b : Bool) : AtWidth := if b then .w32 else .w64

/-- Class numbers of WAIT (spec/10 R183). -/
def classOf : Nat → Option OpClass
  | 0 => some .ld
  | 1 => some .st
  | 2 => some .at_
  | 3 => some .cp
  | 4 => some .sg
  | _ => none

/-- Statuses of hret (spec/15 R259). -/
def hretOf : Nat → Option HretStatus
  | 0 => some .ok
  | 1 => some .skip
  | 2 => some .fail
  | _ => none

/-- The instruction `i`, unless a bit that must be 0 is set: then RSVBIT. -/
def zeroThen (rsv : Nat) (i : Instr) : Except Reject Instr :=
  if rsv = 0 then .ok i else .error ⟨.rsvbit, some i⟩

/-- A function code that the major does not define. -/
def noForm : Except Reject Instr := .error ⟨.rsvfn, none⟩

/-- The form that a decoding names, whether or not its checks pass. -/
def formIn : Except Reject Instr → Option Instr
  | .ok i => some i
  | .error e => e.form

/-- RSVFN for a field other than the form code; the word still encodes the form that `x` shows (spec/02 R48). -/
def badField (x : Except Reject Instr) : Except Reject Instr := .error ⟨.rsvfn, formIn x⟩

/-- `f` of the field's meaning, or RSVFN where the field has none; the form is then that of `f` at `dflt`. -/
def withField {α : Type} (o : Option α) (dflt : α) (f : α → Except Reject Instr) : Except Reject Instr :=
  match o with
  | some x => f x
  | none => badField (f dflt)

/-- MISC (spec/06 R103). -/
def decMisc (w : Nat) : Except Reject Instr :=
  match bits w 18 6 with
  | 0 => zeroThen (bits w 0 18) .miscNop
  | 1 => zeroThen (bits w 0 18) .miscExit
  | 2 => zeroThen (bits w 0 18) .miscYield
  | 3 => zeroThen (bits w 0 18) .miscBrk
  | 4 => zeroThen (bits w 12 6) (.miscTrap (BitVec.ofNat 12 w))
  | _ => noForm

/-- SOP (spec/06 R104). -/
def decSop (w : Nat) : Except Reject Instr :=
  match bits w 0 6 with
  | 0 => .ok (.sopAdd (reg6 w 18) (reg6 w 12) (reg6 w 6))
  | 1 => .ok (.sopSub (reg6 w 18) (reg6 w 12) (reg6 w 6))
  | 2 => .ok (.sopMul (reg6 w 18) (reg6 w 12) (reg6 w 6))
  | 3 => .ok (.sopMulh (reg6 w 18) (reg6 w 12) (reg6 w 6))
  | 4 => .ok (.sopMulhn (reg6 w 18) (reg6 w 12) (reg6 w 6))
  | 5 => .ok (.sopDiv (reg6 w 18) (reg6 w 12) (reg6 w 6))
  | 6 => .ok (.sopDivn (reg6 w 18) (reg6 w 12) (reg6 w 6))
  | 7 => .ok (.sopRem (reg6 w 18) (reg6 w 12) (reg6 w 6))
  | 8 => .ok (.sopAnd (reg6 w 18) (reg6 w 12) (reg6 w 6))
  | 9 => .ok (.sopOr (reg6 w 18) (reg6 w 12) (reg6 w 6))
  | 10 => .ok (.sopXor (reg6 w 18) (reg6 w 12) (reg6 w 6))
  | 11 => .ok (.sopAndn (reg6 w 18) (reg6 w 12) (reg6 w 6))
  | 12 => .ok (.sopShl (reg6 w 18) (reg6 w 12) (reg6 w 6))
  | 13 => .ok (.sopShr (reg6 w 18) (reg6 w 12) (reg6 w 6))
  | 14 => .ok (.sopSar (reg6 w 18) (reg6 w 12) (reg6 w 6))
  | 15 => .ok (.sopMin (reg6 w 18) (reg6 w 12) (reg6 w 6))
  | 16 => .ok (.sopMax (reg6 w 18) (reg6 w 12) (reg6 w 6))
  | 17 => .ok (.sopMinn (reg6 w 18) (reg6 w 12) (reg6 w 6))
  | 18 => .ok (.sopMaxn (reg6 w 18) (reg6 w 12) (reg6 w 6))
  | 19 => .ok (.sopSlt (reg6 w 18) (reg6 w 12) (reg6 w 6))
  | 20 => .ok (.sopSltn (reg6 w 18) (reg6 w 12) (reg6 w 6))
  | 21 => .ok (.sopSeq (reg6 w 18) (reg6 w 12) (reg6 w 6))
  | 22 => zeroThen (bits w 6 6) (.sopPopc (reg6 w 18) (reg6 w 12))
  | 23 => zeroThen (bits w 6 6) (.sopClz (reg6 w 18) (reg6 w 12))
  | 24 => zeroThen (bits w 6 6) (.sopCtz (reg6 w 18) (reg6 w 12))
  | _ => noForm

/-- SOPI (spec/06 R105). -/
def decSopi (w : Nat) : Except Reject Instr :=
  match bits w 10 2 with
  | 0 => .ok (.sopiAddi (reg6 w 18) (reg6 w 12) (BitVec.ofNat 10 w))
  | 1 => .ok (.sopiAndi (reg6 w 18) (reg6 w 12) (BitVec.ofNat 10 w))
  | 2 => .ok (.sopiOri (reg6 w 18) (reg6 w 12) (BitVec.ofNat 10 w))
  | _ => .ok (.sopiXori (reg6 w 18) (reg6 w 12) (BitVec.ofNat 10 w))

/-- SSHI (spec/06 R105). -/
def decSshi (w : Nat) : Except Reject Instr :=
  match bits w 10 2 with
  | 0 => zeroThen (bits w 6 4) (.sshiShli (reg6 w 18) (reg6 w 12) (BitVec.ofNat 6 w))
  | 1 => zeroThen (bits w 6 4) (.sshiShri (reg6 w 18) (reg6 w 12) (BitVec.ofNat 6 w))
  | 2 => zeroThen (bits w 6 4) (.sshiSari (reg6 w 18) (reg6 w 12) (BitVec.ofNat 6 w))
  | _ => .ok (.sshiSlti (reg6 w 18) (reg6 w 12) (BitVec.ofNat 10 w))

/-- SINS (spec/06 R106). -/
def decSins (w : Nat) : Except Reject Instr :=
  .ok (.sinsInsert (reg6 w 18) (Fin.ofNat 4 (w / 2 ^ 16)) (BitVec.ofNat 16 w))

/-- AOP (spec/06 R107). -/
def decAop (w : Nat) : Except Reject Instr :=
  match bits w 5 2 with
  | 0 => zeroThen (bits w 0 5) (.aopAadd (reg4 w 20) (reg4 w 16) (reg6 w 10) (BitVec.ofNat 3 (w / 2 ^ 7)))
  | 1 => if bits w 8 2 = 0 then zeroThen (bits w 0 5) (.aopAset (reg4 w 20) (reg4 w 16) (reg6 w 10) (flag w 7)) else badField (.ok (.aopAset (reg4 w 20) (reg4 w 16) (reg6 w 10) (flag w 7)))
  | 2 => if bits w 8 2 = 0 then zeroThen (bits w 0 5 + bits w 20 4) (.aopAget (reg4 w 16) (reg6 w 10) (flag w 7))
    else badField (.ok (.aopAget (reg4 w 16) (reg6 w 10) (flag w 7)))
  | _ => zeroThen (bits w 0 5 + bits w 7 9) (.aopAmov (reg4 w 20) (reg4 w 16))

/-- CREG (spec/20 R300, R301). -/
def decCreg (w : Nat) : Except Reject Instr :=
  match bits w 16 2 with
  | 0 => if cregKnown (bits w 0 16) then .ok (.cregCrd (reg6 w 18) (BitVec.ofNat 16 w)) else badField (.ok (.cregCrd (reg6 w 18) (BitVec.ofNat 16 w)))
  | 1 => if cregKnown (bits w 0 16) then .ok (.cregCwr (reg6 w 18) (BitVec.ofNat 16 w)) else badField (.ok (.cregCwr (reg6 w 18) (BitVec.ofNat 16 w)))
  | _ => noForm

/-- VARI (spec/06 R108). -/
def decVari (w : Nat) : Except Reject Instr :=
  match bits w 0 2 with
  | 0 => .ok (.variIadd (reg6 w 18) (reg6 w 12) (reg6 w 6) (guardAt w 2))
  | 1 => .ok (.variIsub (reg6 w 18) (reg6 w 12) (reg6 w 6) (guardAt w 2))
  | 2 => .ok (.variImul (reg6 w 18) (reg6 w 12) (reg6 w 6) (guardAt w 2))
  | _ => .ok (.variImulh (reg6 w 18) (reg6 w 12) (reg6 w 6) (guardAt w 2))

/-- VLOG (spec/06 R108). -/
def decVlog (w : Nat) : Except Reject Instr :=
  match bits w 0 2 with
  | 0 => .ok (.vlogAnd (reg6 w 18) (reg6 w 12) (reg6 w 6) (guardAt w 2))
  | 1 => .ok (.vlogOr (reg6 w 18) (reg6 w 12) (reg6 w 6) (guardAt w 2))
  | 2 => .ok (.vlogXor (reg6 w 18) (reg6 w 12) (reg6 w 6) (guardAt w 2))
  | _ => .ok (.vlogAndn (reg6 w 18) (reg6 w 12) (reg6 w 6) (guardAt w 2))

/-- VSFT (spec/06 R108). -/
def decVsft (w : Nat) : Except Reject Instr :=
  match bits w 0 2 with
  | 0 => .ok (.vsftShl (reg6 w 18) (reg6 w 12) (reg6 w 6) (guardAt w 2))
  | 1 => .ok (.vsftShr (reg6 w 18) (reg6 w 12) (reg6 w 6) (guardAt w 2))
  | 2 => .ok (.vsftSar (reg6 w 18) (reg6 w 12) (reg6 w 6) (guardAt w 2))
  | _ => .ok (.vsftRol (reg6 w 18) (reg6 w 12) (reg6 w 6) (guardAt w 2))

/-- VMNX (spec/06 R108). -/
def decVmnx (w : Nat) : Except Reject Instr :=
  match bits w 0 2 with
  | 0 => .ok (.vmnxImin (reg6 w 18) (reg6 w 12) (reg6 w 6) (guardAt w 2))
  | 1 => .ok (.vmnxImax (reg6 w 18) (reg6 w 12) (reg6 w 6) (guardAt w 2))
  | 2 => .ok (.vmnxNmin (reg6 w 18) (reg6 w 12) (reg6 w 6) (guardAt w 2))
  | _ => .ok (.vmnxNmax (reg6 w 18) (reg6 w 12) (reg6 w 6) (guardAt w 2))

/-- VCMP (spec/06 R111). -/
def decVcmp (w : Nat) : Except Reject Instr :=
  match bits w 0 2 with
  | 0 => .ok (.vcmpEq (reg3 w 21) (reg3 w 18) (reg6 w 12) (reg6 w 6) (guardAt w 2))
  | 1 => .ok (.vcmpLt (reg3 w 21) (reg3 w 18) (reg6 w 12) (reg6 w 6) (guardAt w 2))
  | 2 => .ok (.vcmpLe (reg3 w 21) (reg3 w 18) (reg6 w 12) (reg6 w 6) (guardAt w 2))
  | _ => .ok (.vcmpLtn (reg3 w 21) (reg3 w 18) (reg6 w 12) (reg6 w 6) (guardAt w 2))

/-- VADI (spec/06 R109). -/
def decVadi (w : Nat) : Except Reject Instr :=
  .ok (.vadi (reg6 w 18) (reg6 w 12) (guardAt w 8) (BitVec.ofNat 8 w))

/-- VIMM (spec/06 R110). -/
def decVimm (w : Nat) : Except Reject Instr :=
  if flag w 13 then .ok (.vimmHi (reg6 w 18) (guardAt w 14) (BitVec.ofNat 13 w))
  else .ok (.vimmSx (reg6 w 18) (guardAt w 14) (BitVec.ofNat 13 w))

/-- FADD (spec/07 R121, R122). -/
def decFadd (w : Nat) : Except Reject Instr :=
  withField (ftypeOf (bits w 0 2)) .f32 fun t => .ok (.fadd (reg6 w 18) (reg6 w 12) (reg6 w 6) (guardAt w 2) t)

/-- FSUB (spec/07 R121, R122). -/
def decFsub (w : Nat) : Except Reject Instr :=
  withField (ftypeOf (bits w 0 2)) .f32 fun t => .ok (.fsub (reg6 w 18) (reg6 w 12) (reg6 w 6) (guardAt w 2) t)

/-- FMUL (spec/07 R121, R122). -/
def decFmul (w : Nat) : Except Reject Instr :=
  withField (ftypeOf (bits w 0 2)) .f32 fun t => .ok (.fmul (reg6 w 18) (reg6 w 12) (reg6 w 6) (guardAt w 2) t)

/-- FMA (spec/07 R121, R122). -/
def decFma (w : Nat) : Except Reject Instr :=
  withField (ftypeOf (bits w 0 2)) .f32 fun t => .ok (.fma (reg6 w 18) (reg6 w 12) (reg6 w 6) (guardAt w 2) t)

/-- FMIN (spec/07 R121, R122). -/
def decFmin (w : Nat) : Except Reject Instr :=
  withField (ftypeOf (bits w 0 2)) .f32 fun t => .ok (.fmin (reg6 w 18) (reg6 w 12) (reg6 w 6) (guardAt w 2) t)

/-- FMAX (spec/07 R121, R122). -/
def decFmax (w : Nat) : Except Reject Instr :=
  withField (ftypeOf (bits w 0 2)) .f32 fun t => .ok (.fmax (reg6 w 18) (reg6 w 12) (reg6 w 6) (guardAt w 2) t)

/-- FCEQ (spec/07 R123). -/
def decFceq (w : Nat) : Except Reject Instr :=
  withField (ftypeOf (bits w 0 2)) .f32 fun t => .ok (.fceq (reg3 w 21) (reg3 w 18) (reg6 w 12) (reg6 w 6) (guardAt w 2) t)

/-- FCLT (spec/07 R123). -/
def decFclt (w : Nat) : Except Reject Instr :=
  withField (ftypeOf (bits w 0 2)) .f32 fun t => .ok (.fclt (reg3 w 21) (reg3 w 18) (reg6 w 12) (reg6 w 6) (guardAt w 2) t)

/-- FCLE (spec/07 R123). -/
def decFcle (w : Nat) : Except Reject Instr :=
  withField (ftypeOf (bits w 0 2)) .f32 fun t => .ok (.fcle (reg3 w 21) (reg3 w 18) (reg6 w 12) (reg6 w 6) (guardAt w 2) t)

/-- FCUN (spec/07 R123). -/
def decFcun (w : Nat) : Except Reject Instr :=
  withField (ftypeOf (bits w 0 2)) .f32 fun t => .ok (.fcun (reg3 w 21) (reg3 w 18) (reg6 w 12) (reg6 w 6) (guardAt w 2) t)

/-- FUNA (spec/07 R125). -/
def decFuna (w : Nat) : Except Reject Instr :=
  withField (ftypeOf (bits w 0 2)) .f32 fun t =>
  match bits w 6 6 with
  | 0 => .ok (.funaExp2 (reg6 w 18) (reg6 w 12) (guardAt w 2) t)
  | 1 => .ok (.funaLog2 (reg6 w 18) (reg6 w 12) (guardAt w 2) t)
  | 2 => .ok (.funaRcp (reg6 w 18) (reg6 w 12) (guardAt w 2) t)
  | 3 => .ok (.funaRsqrt (reg6 w 18) (reg6 w 12) (guardAt w 2) t)
  | 4 => .ok (.funaSqrt (reg6 w 18) (reg6 w 12) (guardAt w 2) t)
  | 5 => .ok (.funaTanh (reg6 w 18) (reg6 w 12) (guardAt w 2) t)
  | 6 => .ok (.funaSigm (reg6 w 18) (reg6 w 12) (guardAt w 2) t)
  | 7 => .ok (.funaGelu (reg6 w 18) (reg6 w 12) (guardAt w 2) t)
  | 8 => .ok (.funaAbs (reg6 w 18) (reg6 w 12) (guardAt w 2) t)
  | 9 => .ok (.funaNeg (reg6 w 18) (reg6 w 12) (guardAt w 2) t)
  | 10 => .ok (.funaFloor (reg6 w 18) (reg6 w 12) (guardAt w 2) t)
  | 11 => .ok (.funaCeil (reg6 w 18) (reg6 w 12) (guardAt w 2) t)
  | 12 => .ok (.funaRint (reg6 w 18) (reg6 w 12) (guardAt w 2) t)
  | 13 => .ok (.funaFrac (reg6 w 18) (reg6 w 12) (guardAt w 2) t)
  | _ => noForm

/-- FCVT (spec/07 R127). -/
def decFcvt (w : Nat) : Except Reject Instr :=
  if h : bits w 6 6 < 40 then .ok (.fcvtConvert (reg6 w 18) (reg6 w 12) ⟨bits w 6 6, h⟩ (guardAt w 2) (rndOf (bits w 0 2)))
  else if bits w 6 6 = 40 then .ok (.fcvtI32 (reg6 w 18) (reg6 w 12) (guardAt w 2) (rndOf (bits w 0 2)))
  else if bits w 6 6 = 41 then .ok (.fcvtWi32 (reg6 w 18) (reg6 w 12) (guardAt w 2) (rndOf (bits w 0 2)))
  else noForm

/-- VSEL (spec/06 R112). -/
def decVsel (w : Nat) : Except Reject Instr :=
  match bits w 0 2 with
  | 0 => .ok (.vsel (reg6 w 18) (reg6 w 12) (reg6 w 6) (guardAt w 2))
  | _ => badField (.ok (.vsel (reg6 w 18) (reg6 w 12) (reg6 w 6) (guardAt w 2)))

/-- VMOV (spec/06 R113). -/
def decVmov (w : Nat) : Except Reject Instr :=
  (if bits w 0 2 = 0 then id else badField)
  (match bits w 6 6 with
  | 0 => .ok (.vmovMov (reg6 w 18) (reg6 w 12) (guardAt w 2))
  | 1 => .ok (.vmovBcast (reg6 w 18) (reg6 w 12) (guardAt w 2))
  | 2 => .ok (.vmovRdlane (reg6 w 18) (reg6 w 12) (guardAt w 2))
  | 3 => .ok (.vmovWrlane (reg6 w 18) (reg6 w 12) (guardAt w 2))
  | 4 => zeroThen (bits w 12 6) (.vmovLaneid (reg6 w 18) (guardAt w 2))
  | _ => noForm)

/-- VXLN (spec/06 R114). -/
def decVxln (w : Nat) : Except Reject Instr :=
  match bits w 6 6 with
  | 0 => (if bits w 0 2 = 0 then id else badField) (.ok (.vxlnShfl (reg6 w 18) (reg6 w 12) (guardAt w 2)))
  | 1 => (if bits w 0 2 = 0 then id else badField) (.ok (.vxlnBcl (reg6 w 18) (reg6 w 12) (guardAt w 2)))
  | 2 => withField (rtypeOf (bits w 0 2)) .i32 fun t => .ok (.vxlnRedadd (reg6 w 18) (reg6 w 12) (guardAt w 2) t)
  | 3 => withField (rtypeOf (bits w 0 2)) .i32 fun t => .ok (.vxlnRedmax (reg6 w 18) (reg6 w 12) (guardAt w 2) t)
  | 4 => withField (rtypeOf (bits w 0 2)) .i32 fun t => .ok (.vxlnScan (reg6 w 18) (reg6 w 12) (guardAt w 2) t)
  | _ => noForm

/-- PLOG (spec/06 R116 to R119). -/
def decPlog (w : Nat) : Except Reject Instr :=
  match bits w 6 6 with
  | 0 => zeroThen (bits w 21 3 + bits w 15 3 + bits w 4 2) (.plogPand (reg3 w 18) (reg3 w 12) (flag w 3) (reg3 w 0))
  | 1 => zeroThen (bits w 21 3 + bits w 15 3 + bits w 4 2) (.plogPor (reg3 w 18) (reg3 w 12) (flag w 3) (reg3 w 0))
  | 2 => zeroThen (bits w 21 3 + bits w 15 3 + bits w 4 2) (.plogPxor (reg3 w 18) (reg3 w 12) (flag w 3) (reg3 w 0))
  | 3 => zeroThen (bits w 15 3) (.plogPmovs (reg6 w 18) (reg3 w 12) (reg6 w 0))
  | 4 => zeroThen (bits w 15 3 + bits w 0 6) (.plogPbal (reg6 w 18) (reg3 w 12))
  | 5 => zeroThen (bits w 18 6 + bits w 15 3 + bits w 0 6) (.plogEmw (reg3 w 12))
  | 6 => zeroThen (bits w 12 6) (.plogEmr (reg6 w 18) (reg6 w 0))
  | _ => noForm

/-- XFRM (spec/07 R134). -/
def decXfrm (w : Nat) : Except Reject Instr :=
  match bits w 6 6 with
  | 0 => zeroThen (bits w 3 3) (.xfrmHfwd (reg6 w 18) (reg6 w 12) (reg3 w 0))
  | 1 => zeroThen (bits w 0 6) (.xfrmHinv (reg6 w 18) (reg6 w 12))
  | 2 => zeroThen (bits w 2 4) (.xfrmHthr (reg6 w 18) (reg6 w 12) (Fin.ofNat 4 w))
  | 3 => zeroThen (bits w 3 3) (.xfrmHpack (reg6 w 18) (reg6 w 12) (reg3 w 0))
  | 4 => .ok (.xfrmHunpk (reg6 w 18) (reg6 w 12) (reg3 w 3) (reg3 w 0))
  | 5 => zeroThen (bits w 0 6) (.xfrmXpose (reg6 w 18) (reg6 w 12))
  | 6 => withField (mxfmtOf (bits w 2 2)) .e4m3 fun m => zeroThen (bits w 4 2) (.xfrmMxq (reg6 w 18) (reg6 w 12) m (rndOf (bits w 0 2)))
  | 7 => withField (mxfmtOf (bits w 2 2)) .e4m3 fun m => zeroThen (bits w 4 2 + bits w 0 2) (.xfrmMxdq (reg6 w 18) (reg6 w 12) m)
  | 8 => zeroThen (bits w 0 6) (.xfrmI4dq (reg6 w 18) (reg6 w 12))
  | _ => noForm

/-- DOMN (spec/07 R141). -/
def decDomn (w : Nat) : Except Reject Instr :=
  match bits w 6 6 with
  | 0 => zeroThen (bits w 12 6 + bits w 3 3) (.domnDtag (reg6 w 18) (reg3 w 0))
  | 1 => zeroThen (bits w 0 6) (.domnDget (reg6 w 18) (reg6 w 12))
  | 2 => .ok (.domnHscl (reg6 w 18) (reg6 w 12) (reg6 w 0))
  | 3 => .ok (.domnHbia (reg6 w 18) (reg6 w 12) (reg6 w 0))
  | _ => noForm

/-- VLD (spec/10 R177). -/
def decVld (w : Nat) : Except Reject Instr :=
  withField (ldSizeOf (bits w 0 3)) .w32 fun z => .ok (.vld (reg6 w 18) (reg4 w 14) (reg6 w 8) (guardAt w 4) (flag w 3) z)

/-- VST (spec/10 R177). -/
def decVst (w : Nat) : Except Reject Instr :=
  withField (stSizeOf (bits w 0 3)) .w32 fun z => .ok (.vst (reg6 w 18) (reg4 w 14) (reg6 w 8) (guardAt w 4) (flag w 3) z)

/-- VATM (spec/10 R178). -/
def decVatm (w : Nat) : Except Reject Instr :=
  match bits w 0 4 with
  | 0 => .ok (.vatmAddI (reg6 w 18) (reg4 w 14) (reg6 w 8) (guardAt w 4))
  | 1 => .ok (.vatmAddF (reg6 w 18) (reg4 w 14) (reg6 w 8) (guardAt w 4))
  | 2 => .ok (.vatmMinI (reg6 w 18) (reg4 w 14) (reg6 w 8) (guardAt w 4))
  | 3 => .ok (.vatmMaxI (reg6 w 18) (reg4 w 14) (reg6 w 8) (guardAt w 4))
  | 4 => .ok (.vatmMaxF (reg6 w 18) (reg4 w 14) (reg6 w 8) (guardAt w 4))
  | 5 => .ok (.vatmAnd (reg6 w 18) (reg4 w 14) (reg6 w 8) (guardAt w 4))
  | 6 => .ok (.vatmOr (reg6 w 18) (reg4 w 14) (reg6 w 8) (guardAt w 4))
  | 7 => .ok (.vatmXor (reg6 w 18) (reg4 w 14) (reg6 w 8) (guardAt w 4))
  | 8 => .ok (.vatmXchg (reg6 w 18) (reg4 w 14) (reg6 w 8) (guardAt w 4))
  | 9 => .ok (.vatmCas (reg6 w 18) (reg4 w 14) (reg6 w 8) (guardAt w 4))
  | _ => noForm

/-- SLD (spec/10 R180). -/
def decSld (w : Nat) : Except Reject Instr :=
  withField (orderingOf (bits w 11 3)) .plain fun r => .ok (.sld (reg6 w 18) (reg4 w 14) r (ssizeOf (bits w 9 2)) (BitVec.ofNat 9 w))

/-- SST (spec/10 R180). -/
def decSst (w : Nat) : Except Reject Instr :=
  withField (orderingOf (bits w 11 3)) .plain fun r => .ok (.sst (reg6 w 18) (reg4 w 14) r (ssizeOf (bits w 9 2)) (BitVec.ofNat 9 w))

/-- SATM (spec/10 R181). -/
def decSatm (w : Nat) : Except Reject Instr :=
  withField (orderingOf (bits w 5 3)) .plain fun r =>
  match bits w 0 4 with
  | 0 => .ok (.satmAdd (reg6 w 18) (reg4 w 14) (reg6 w 8) r (atWidthOf (flag w 4)))
  | 1 => .ok (.satmSub (reg6 w 18) (reg4 w 14) (reg6 w 8) r (atWidthOf (flag w 4)))
  | 2 => .ok (.satmAnd (reg6 w 18) (reg4 w 14) (reg6 w 8) r (atWidthOf (flag w 4)))
  | 3 => .ok (.satmOr (reg6 w 18) (reg4 w 14) (reg6 w 8) r (atWidthOf (flag w 4)))
  | 4 => .ok (.satmXor (reg6 w 18) (reg4 w 14) (reg6 w 8) r (atWidthOf (flag w 4)))
  | 5 => .ok (.satmMin (reg6 w 18) (reg4 w 14) (reg6 w 8) r (atWidthOf (flag w 4)))
  | 6 => .ok (.satmMax (reg6 w 18) (reg4 w 14) (reg6 w 8) r (atWidthOf (flag w 4)))
  | 7 => .ok (.satmMinn (reg6 w 18) (reg4 w 14) (reg6 w 8) r (atWidthOf (flag w 4)))
  | 8 => .ok (.satmMaxn (reg6 w 18) (reg4 w 14) (reg6 w 8) r (atWidthOf (flag w 4)))
  | 9 => .ok (.satmXchg (reg6 w 18) (reg4 w 14) (reg6 w 8) r (atWidthOf (flag w 4)))
  | 10 => .ok (.satmCas (reg6 w 18) (reg4 w 14) (reg6 w 8) r (atWidthOf (flag w 4)))
  | _ => noForm

/-- FENCE (spec/10 R182). -/
def decFence (w : Nat) : Except Reject Instr :=
  withField (scopeOf (bits w 12 6)) .team fun o =>
  match bits w 18 6 with
  | 0 => zeroThen (bits w 0 12) (.fenceAcq o)
  | 1 => zeroThen (bits w 11 1 + bits w 0 6) (.fenceRel o (BitVec.ofNat 5 (w / 2 ^ 6)))
  | 2 => zeroThen (bits w 11 1 + bits w 0 6) (.fenceAr o (BitVec.ofNat 5 (w / 2 ^ 6)))
  | 3 => zeroThen (bits w 11 1 + bits w 0 6) (.fenceSc o (BitVec.ofNat 5 (w / 2 ^ 6)))
  | _ => noForm

/-- WAIT (spec/10 R183). -/
def decWait (w : Nat) : Except Reject Instr :=
  withField (classOf (bits w 18 6)) .ld fun k => zeroThen (bits w 0 12) (.wait k (reg6 w 12))

/-- TSL (spec/10 R186). -/
def decTsl (w : Nat) : Except Reject Instr :=
  .ok (.tsl (reg6 w 18) (reg4 w 14) (flag w 13) (BitVec.ofNat 9 (bits w 4 3 * 64 + bits w 7 6)) (guardAt w 0))

/-- TSS (spec/10 R186). -/
def decTss (w : Nat) : Except Reject Instr :=
  .ok (.tss (reg6 w 18) (reg4 w 14) (flag w 13) (BitVec.ofNat 9 (bits w 4 3 * 64 + bits w 7 6)) (guardAt w 0))

/-- TBND (spec/10 R185). -/
def decTbnd (w : Nat) : Except Reject Instr :=
  match bits w 6 6 with
  | 0 => zeroThen (bits w 22 2 + bits w 0 6) (.tbndBind (reg4 w 18) (reg6 w 12))
  | 1 => zeroThen (bits w 22 2 + bits w 12 6 + bits w 0 6) (.tbndUnbind (reg4 w 18))
  | 2 => zeroThen (bits w 16 2 + bits w 1 5) (.tbndQuery (reg6 w 18) (reg4 w 12) (flag w 0))
  | _ => noForm

/-- XCPY (spec/10 R191). -/
def decXcpy (w : Nat) : Except Reject Instr :=
  match bits w 6 6 with
  | 0 => zeroThen (bits w 22 2 + bits w 0 6) (.xcpyIn (reg4 w 18) (reg6 w 12))
  | 1 => zeroThen (bits w 22 2 + bits w 0 6) (.xcpyOut (reg4 w 18) (reg6 w 12))
  | 2 => zeroThen (bits w 22 2 + bits w 0 6) (.xcpyMcin (reg4 w 18) (reg6 w 12))
  | _ => noForm

/-- RING (spec/10 R195, R196). -/
def decRing (w : Nat) : Except Reject Instr :=
  match bits w 6 6 with
  | 0 => zeroThen (bits w 0 6) (.ringRbind (reg6 w 18) (reg6 w 12))
  | 1 => zeroThen (bits w 18 6 + bits w 0 6) (.ringRunbind (reg6 w 12))
  | 2 => zeroThen (bits w 18 6) (.ringSpub (reg6 w 12) (reg6 w 0))
  | 3 => zeroThen (bits w 18 6) (.ringSrel (reg6 w 12) (reg6 w 0))
  | 4 => .ok (.ringSwait (reg6 w 18) (reg6 w 12) (reg6 w 0))
  | _ => noForm

/-- TBAR (spec/10 R197). -/
def decTbar (w : Nat) : Except Reject Instr :=
  match bits w 6 6 with
  | 0 => zeroThen (bits w 0 6) (.tbarTbinit (reg6 w 18) (reg6 w 12))
  | 1 => withField (scopeOf (bits w 0 6)) .team fun o => zeroThen (bits w 18 6) (.tbarTbarr (reg6 w 12) o)
  | 2 => .ok (.tbarTbwait (reg6 w 18) (reg6 w 12) (reg6 w 0))
  | 3 => zeroThen (bits w 0 6) (.tbarTbtest (reg6 w 18) (reg6 w 12))
  | _ => noForm

/-- SIG (spec/10 R198). -/
def decSig (w : Nat) : Except Reject Instr :=
  withField (orderingOf (bits w 5 3)) .plain fun r =>
  match bits w 0 5 with
  | 0 => .ok (.sigSigadd (reg6 w 18) (reg4 w 14) (reg6 w 8) r)
  | 1 => .ok (.sigSigwait (reg6 w 18) (reg4 w 14) (reg6 w 8) r)
  | 2 => zeroThen (bits w 8 6) (.sigSigrd (reg6 w 18) (reg4 w 14) r)
  | 3 => .ok (.sigWatch (reg6 w 18) (reg4 w 14) (reg6 w 8) r)
  | _ => noForm

/-- SGRP (spec/15 R262). -/
def decSgrp (w : Nat) : Except Reject Instr :=
  withField (orderingOf (bits w 5 3)) .plain fun r =>
  match bits w 0 5 with
  | 0 => zeroThen (bits w 8 6) (.sgrpFork (reg6 w 18) (reg4 w 14) r)
  | 1 => .ok (.sgrpArr (reg6 w 18) (reg4 w 14) (reg6 w 8) r)
  | 2 => zeroThen (bits w 8 6) (.sgrpCan (reg6 w 18) (reg4 w 14) r)
  | 3 => zeroThen (bits w 8 6) (.sgrpWait (reg6 w 18) (reg4 w 14) r)
  | 4 => zeroThen (bits w 8 6) (.sgrpFree (reg6 w 18) (reg4 w 14) r)
  | 5 => zeroThen (bits w 8 6) (.sgrpInfo (reg6 w 18) (reg4 w 14) r)
  | _ => noForm

/-- HCTL (spec/15 R259 to R261). -/
def decHctl (w : Nat) : Except Reject Instr :=
  match bits w 18 6 with
  | 0 => withField (hretOf (bits w 12 6)) .ok fun t => zeroThen (bits w 0 12) (.hctlHret t)
  | 1 => zeroThen (bits w 0 18) .hctlHtaint
  | 2 => if h : bits w 6 6 < 8 then zeroThen (bits w 0 6) (.hctlWstat (reg6 w 12) ⟨bits w 6 6, h⟩) else badField (.ok (.hctlWstat (reg6 w 12) 0))
  | 3 => (if wposKnown (bits w 6 6) (bits w 0 6) then id else badField) (.ok (.hctlWpos (reg6 w 12) (reg6 w 6) (reg6 w 0)))
  | _ => noForm

/-- BRV (spec/15 R254). -/
def decBrv (w : Nat) : Except Reject Instr :=
  .ok (.brv (guardAt w 20) (BitVec.ofNat 20 w))

/-- RCV (spec/15 R255). -/
def decRcv (w : Nat) : Except Reject Instr :=
  (if bits w 22 2 = 0 then id else badField) (.ok (.rcv (BitVec.ofNat 22 w)))

/-- JOIN (spec/15 R256). -/
def decJoin (w : Nat) : Except Reject Instr :=
  zeroThen (bits w 0 24) .join

/-- BRS (spec/15 R257). -/
def decBrs (w : Nat) : Except Reject Instr :=
  match bits w 16 2 with
  | 0 => .ok (.brsBeqz (reg6 w 18) (BitVec.ofNat 16 w))
  | 1 => .ok (.brsBnez (reg6 w 18) (BitVec.ofNat 16 w))
  | 2 => .ok (.brsBltz (reg6 w 18) (BitVec.ofNat 16 w))
  | _ => .ok (.brsBgez (reg6 w 18) (BitVec.ofNat 16 w))

/-- JMP (spec/15 R258). -/
def decJmp (w : Nat) : Except Reject Instr :=
  match bits w 22 2 with
  | 0 => .ok (.jmpJmp (BitVec.ofNat 22 w))
  | 1 => .ok (.jmpCall (BitVec.ofNat 22 w))
  | 2 => zeroThen (bits w 0 16) (.jmpJmpr (reg6 w 16))
  | _ => zeroThen (bits w 0 22) .jmpRet

/-- SYNC (spec/15 R266 to R268). -/
def decSync (w : Nat) : Except Reject Instr :=
  match bits w 18 6 with
  | 0 => withField (scopeOf (bits w 12 6)) .team fun o => (if gbarScope o then id else badField) (zeroThen (bits w 0 12) (.syncGbar o))
  | 1 => zeroThen (bits w 10 2 + bits w 4 2) (.syncEnq (reg6 w 12) (reg4 w 6) (reg4 w 0))
  | 2 => zeroThen (bits w 10 2 + bits w 0 6) (.syncQctlCreate (reg6 w 12) (reg4 w 6))
  | 3 => zeroThen (bits w 10 2 + bits w 0 6) (.syncQctlStop (reg6 w 12) (reg4 w 6))
  | 4 => zeroThen (bits w 10 2) (.syncQctlResume (reg6 w 12) (reg4 w 6) (reg6 w 0))
  | 5 => zeroThen (bits w 10 2 + bits w 0 6) (.syncQctlDestroy (reg6 w 12) (reg4 w 6))
  | _ => noForm

/-- tret (spec/20 R306). -/
def decTret (w : Nat) : Except Reject Instr :=
  match bits w 12 6 with
  | 0 => zeroThen (bits w 0 12) .privTretRetry
  | 1 => zeroThen (bits w 0 12) .privTretSkip
  | 2 => zeroThen (bits w 0 12) .privTretKill
  | _ => badField (.ok .privTretRetry)

/-- preempt (spec/20 R306). -/
def decPreempt (w : Nat) : Except Reject Instr :=
  match bits w 0 6 with
  | 0 => zeroThen (bits w 10 2) (.privPreemptSave (reg6 w 12) (reg4 w 6))
  | 1 => zeroThen (bits w 10 2) (.privPreemptRsm (reg6 w 12) (reg4 w 6))
  | _ => badField (.ok (.privPreemptSave (reg6 w 12) (reg4 w 6)))

/-- PRIV (spec/20 R306). -/
def decPriv (w : Nat) : Except Reject Instr :=
  match bits w 18 6 with
  | 0 => decTret w
  | 1 => zeroThen (bits w 0 12) (.privPgcow (reg6 w 12))
  | 2 => zeroThen (bits w 10 2 + bits w 0 6) (.privPgref (reg6 w 12) (reg4 w 6))
  | 3 => zeroThen (bits w 16 2) (.privTlbinv (reg4 w 12) (reg6 w 6) (reg6 w 0))
  | 4 => zeroThen (bits w 10 2) (.privEseal (reg6 w 12) (reg4 w 6) (reg6 w 0))
  | 5 => decPreempt w
  | 6 => zeroThen (bits w 0 18) .privHalt
  | _ => noForm

/-- The instruction of a word, by its major (spec/02 R45); a reserved major ignores its body (R47). -/
def decodeBody (w : Nat) : Except Reject Instr :=
  match bits w 24 6 with
  | 0x00 => decMisc w
  | 0x01 => decSop w
  | 0x02 => decSopi w
  | 0x03 => decSshi w
  | 0x04 => decSins w
  | 0x05 => decAop w
  | 0x07 => decCreg w
  | 0x08 => decVari w
  | 0x09 => decVlog w
  | 0x0A => decVsft w
  | 0x0B => decVmnx w
  | 0x0C => decVcmp w
  | 0x0D => decVadi w
  | 0x0E => decVimm w
  | 0x10 => decFadd w
  | 0x11 => decFsub w
  | 0x12 => decFmul w
  | 0x13 => decFma w
  | 0x14 => decFmin w
  | 0x15 => decFmax w
  | 0x16 => decFceq w
  | 0x17 => decFclt w
  | 0x18 => decFcle w
  | 0x19 => decFcun w
  | 0x1A => decFuna w
  | 0x1B => decFcvt w
  | 0x1C => decVsel w
  | 0x1D => decVmov w
  | 0x1E => decVxln w
  | 0x1F => decPlog w
  | 0x20 => decXfrm w
  | 0x21 => decDomn w
  | 0x24 => decVld w
  | 0x25 => decVst w
  | 0x27 => decVatm w
  | 0x28 => decSld w
  | 0x29 => decSst w
  | 0x2A => decSatm w
  | 0x2B => decFence w
  | 0x2C => decWait w
  | 0x2D => decTsl w
  | 0x2E => decTss w
  | 0x2F => decTbnd w
  | 0x30 => decXcpy w
  | 0x31 => decRing w
  | 0x32 => decTbar w
  | 0x35 => decSig w
  | 0x36 => decSgrp w
  | 0x37 => decHctl w
  | 0x38 => decBrv w
  | 0x39 => decRcv w
  | 0x3A => decJoin w
  | 0x3B => decBrs w
  | 0x3C => decJmp w
  | 0x3E => decSync w
  | 0x3F => decPriv w
  | _ => .error ⟨.rsvmaj, none⟩

/-- The whole word (spec/02 R29): total on every word, rejecting by detail code. -/
def decode (w : W32) : Except Reject Slot :=
  match decodeBody w.toNat with
  | .ok i => .ok ⟨flag w.toNat 31, flag w.toNat 30, i⟩
  | .error e => .error e

/-- The word that four bytes of memory make, lowest address first (spec/00 R4). -/
def wordOfBytes : List Byte → W32
  | b0 :: b1 :: b2 :: b3 :: _ => b3 ++ b2 ++ b1 ++ b0
  | _ => 0

/-- The bytes of a word, lowest address first (spec/00 R4). -/
def bytesOfWord (w : W32) : List Byte :=
  [w.extractLsb' 0 8, w.extractLsb' 8 8, w.extractLsb' 16 8, w.extractLsb' 24 8]

/-- The decoder on bytes: the first four make the word, the rest is returned. -/
def decodeBytes (bs : List Byte) : Except Reject (Slot × List Byte) :=
  match decode (wordOfBytes bs) with
  | .ok i => .ok (i, bs.drop 4)
  | .error e => .error e

/-- The instruction that the decoder reads from a word of the opcode table; the chain and switch bits are no part of it. -/
def decodeTableWord (_nbits w : Nat) : Option Instr :=
  match decodeBytes (bytesOfWord (BitVec.ofNat 32 w)) with
  | .ok (i, _) => some i.instr
  | .error _ => none

/-! The encoder, from the same tables. -/

/-- The guard field (spec/02 R42). -/
def Guard.code (g : Guard) : Nat := g.neg.toNat * 8 + g.p.val

def FType.code : FType → Nat
  | .f32 => 0
  | .half => 1
  | .bf => 2

def RType.code : RType → Nat
  | .i32 => 0
  | .f32 => 1

def Rnd.code : Rnd → Nat
  | .rne => 0
  | .rtz => 1
  | .sat => 2
  | .sr => 3

def MxFmt.code : MxFmt → Nat
  | .e4m3 => 0
  | .e5m2 => 1
  | .e2m1 => 2

def Scope.code : Scope → Nat
  | .team => 0
  | .core => 1
  | .clu => 2
  | .dev => 3
  | .dom => 4
  | .sys => 5

def Ordering3.code : Ordering3 → Nat
  | .plain => 0
  | .at_ s => s.code + 1

def LdSize.code : LdSize → Nat
  | .u8 => 0
  | .s8 => 1
  | .u16 => 2
  | .s16 => 3
  | .w32 => 4
  | .w64 => 5
  | .w128 => 6

def StSize.code : StSize → Nat
  | .b8 => 0
  | .b16 => 2
  | .w32 => 4
  | .w64 => 5
  | .w128 => 6

def SSize.code : SSize → Nat
  | .b8 => 0
  | .b16 => 1
  | .w32 => 2
  | .w64 => 3

def AtWidth.code : AtWidth → Nat
  | .w64 => 0
  | .w32 => 1

def OpClass.code : OpClass → Nat
  | .ld => 0
  | .st => 1
  | .at_ => 2
  | .cp => 3
  | .sg => 4

def HretStatus.code : HretStatus → Nat
  | .ok => 0
  | .skip => 1
  | .fail => 2

/-- Format VR (spec/02 R43). -/
def fVR (maj : Nat) (d a b : Fin 64) (g : Guard) (f : Nat) : Nat :=
  maj * 2 ^ 24 + d.val * 2 ^ 18 + a.val * 2 ^ 12 + b.val * 2 ^ 6 + g.code * 4 + f

/-- Format VC. -/
def fVC (maj : Nat) (p q : PReg) (a b : Fin 64) (g : Guard) (f : Nat) : Nat :=
  maj * 2 ^ 24 + p.val * 2 ^ 21 + q.val * 2 ^ 18 + a.val * 2 ^ 12 + b.val * 2 ^ 6 + g.code * 4 + f

/-- Format VU. -/
def fVU (maj : Nat) (d a : Fin 64) (fn : Nat) (g : Guard) (f : Nat) : Nat :=
  maj * 2 ^ 24 + d.val * 2 ^ 18 + a.val * 2 ^ 12 + fn * 2 ^ 6 + g.code * 4 + f

/-- Formats SR, X and SYS: three 6-bit fields and a 6-bit code. -/
def fSR (maj x y z c : Nat) : Nat := maj * 2 ^ 24 + x * 2 ^ 18 + y * 2 ^ 12 + z * 2 ^ 6 + c

/-- Format SI. -/
def fSI (maj : Nat) (d a : Fin 64) (f2 imm : Nat) : Nat :=
  maj * 2 ^ 24 + d.val * 2 ^ 18 + a.val * 2 ^ 12 + f2 * 2 ^ 10 + imm

/-- Formats SQ and BS. -/
def fSQ (maj : Nat) (d : Fin 64) (f2 imm : Nat) : Nat :=
  maj * 2 ^ 24 + d.val * 2 ^ 18 + f2 * 2 ^ 16 + imm

/-- Format AR. -/
def fAR (d a b sh f2 : Nat) : Nat := 5 * 2 ^ 24 + d * 2 ^ 20 + a * 2 ^ 16 + b * 2 ^ 10 + sh * 2 ^ 7 + f2 * 2 ^ 5

/-- Format MV. -/
def fMV (maj : Nat) (d : VReg) (a : AReg) (o : VReg) (g : Guard) (z : Nat) : Nat :=
  maj * 2 ^ 24 + d.val * 2 ^ 18 + a.val * 2 ^ 14 + o.val * 2 ^ 8 + g.code * 2 ^ 4 + z

/-- Format MS. -/
def fMS (maj : Nat) (d : SReg) (a : AReg) (r : Ordering3) (z : SSize) (i : BitVec 9) : Nat :=
  maj * 2 ^ 24 + d.val * 2 ^ 18 + a.val * 2 ^ 14 + r.code * 2 ^ 11 + z.code * 2 ^ 9 + i.toNat

/-- Format MA. -/
def fMA (maj : Nat) (d : SReg) (a : AReg) (b : Nat) (r : Ordering3) (op : Nat) : Nat :=
  maj * 2 ^ 24 + d.val * 2 ^ 18 + a.val * 2 ^ 14 + b * 2 ^ 8 + r.code * 2 ^ 5 + op

/-- Format TS: the slice number i is IMM3 × 64 + IX (spec/10 R186). -/
def fTS (maj : Nat) (d : VReg) (t : TReg) (rc : Bool) (i : BitVec 9) (g : Guard) : Nat :=
  maj * 2 ^ 24 + d.val * 2 ^ 18 + t.val * 2 ^ 14 + rc.toNat * 2 ^ 13 + (i.toNat % 64) * 2 ^ 7 + (i.toNat / 64) * 2 ^ 4
    + g.code

/-- Format J. -/
def fJ (maj f2 off : Nat) : Nat := maj * 2 ^ 24 + f2 * 2 ^ 22 + off

/-- Bits [29:0] of the word of an instruction; an event has no word and gives 0. -/
def encodeBody : Instr → Nat
  | .miscNop => fSR 0 0 0 0 0
  | .miscExit => fSR 0 1 0 0 0
  | .miscYield => fSR 0 2 0 0 0
  | .miscBrk => fSR 0 3 0 0 0
  | .miscTrap k => fSR 0 4 0 0 0 + k.toNat
  | .sopAdd d a b => fSR 1 d.val a.val b.val 0
  | .sopSub d a b => fSR 1 d.val a.val b.val 1
  | .sopMul d a b => fSR 1 d.val a.val b.val 2
  | .sopMulh d a b => fSR 1 d.val a.val b.val 3
  | .sopMulhn d a b => fSR 1 d.val a.val b.val 4
  | .sopDiv d a b => fSR 1 d.val a.val b.val 5
  | .sopDivn d a b => fSR 1 d.val a.val b.val 6
  | .sopRem d a b => fSR 1 d.val a.val b.val 7
  | .sopAnd d a b => fSR 1 d.val a.val b.val 8
  | .sopOr d a b => fSR 1 d.val a.val b.val 9
  | .sopXor d a b => fSR 1 d.val a.val b.val 10
  | .sopAndn d a b => fSR 1 d.val a.val b.val 11
  | .sopShl d a b => fSR 1 d.val a.val b.val 12
  | .sopShr d a b => fSR 1 d.val a.val b.val 13
  | .sopSar d a b => fSR 1 d.val a.val b.val 14
  | .sopMin d a b => fSR 1 d.val a.val b.val 15
  | .sopMax d a b => fSR 1 d.val a.val b.val 16
  | .sopMinn d a b => fSR 1 d.val a.val b.val 17
  | .sopMaxn d a b => fSR 1 d.val a.val b.val 18
  | .sopSlt d a b => fSR 1 d.val a.val b.val 19
  | .sopSltn d a b => fSR 1 d.val a.val b.val 20
  | .sopSeq d a b => fSR 1 d.val a.val b.val 21
  | .sopPopc d a => fSR 1 d.val a.val 0 22
  | .sopClz d a => fSR 1 d.val a.val 0 23
  | .sopCtz d a => fSR 1 d.val a.val 0 24
  | .sopiAddi d a i => fSI 2 d a 0 i.toNat
  | .sopiAndi d a i => fSI 2 d a 1 i.toNat
  | .sopiOri d a i => fSI 2 d a 2 i.toNat
  | .sopiXori d a i => fSI 2 d a 3 i.toNat
  | .sshiShli d a i => fSI 3 d a 0 i.toNat
  | .sshiShri d a i => fSI 3 d a 1 i.toNat
  | .sshiSari d a i => fSI 3 d a 2 i.toNat
  | .sshiSlti d a i => fSI 3 d a 3 i.toNat
  | .sinsInsert d q i => fSQ 4 d q.val i.toNat
  | .aopAadd d a b h => fAR d.val a.val b.val h.toNat 0
  | .aopAset d a b h => fAR d.val a.val b.val h.toNat 1
  | .aopAget a b h => fAR 0 a.val b.val h.toNat 2
  | .aopAmov d a => fAR d.val a.val 0 0 3
  | .cregCrd d n => fSQ 7 d 0 n.toNat
  | .cregCwr d n => fSQ 7 d 1 n.toNat
  | .variIadd d a b g => fVR 8 d a b g 0
  | .variIsub d a b g => fVR 8 d a b g 1
  | .variImul d a b g => fVR 8 d a b g 2
  | .variImulh d a b g => fVR 8 d a b g 3
  | .vlogAnd d a b g => fVR 9 d a b g 0
  | .vlogOr d a b g => fVR 9 d a b g 1
  | .vlogXor d a b g => fVR 9 d a b g 2
  | .vlogAndn d a b g => fVR 9 d a b g 3
  | .vsftShl d a b g => fVR 10 d a b g 0
  | .vsftShr d a b g => fVR 10 d a b g 1
  | .vsftSar d a b g => fVR 10 d a b g 2
  | .vsftRol d a b g => fVR 10 d a b g 3
  | .vmnxImin d a b g => fVR 11 d a b g 0
  | .vmnxImax d a b g => fVR 11 d a b g 1
  | .vmnxNmin d a b g => fVR 11 d a b g 2
  | .vmnxNmax d a b g => fVR 11 d a b g 3
  | .vcmpEq p q a b g => fVC 12 p q a b g 0
  | .vcmpLt p q a b g => fVC 12 p q a b g 1
  | .vcmpLe p q a b g => fVC 12 p q a b g 2
  | .vcmpLtn p q a b g => fVC 12 p q a b g 3
  | .vadi d a g i => 13 * 2 ^ 24 + d.val * 2 ^ 18 + a.val * 2 ^ 12 + g.code * 2 ^ 8 + i.toNat
  | .vimmSx d g i => 14 * 2 ^ 24 + d.val * 2 ^ 18 + g.code * 2 ^ 14 + i.toNat
  | .vimmHi d g i => 14 * 2 ^ 24 + d.val * 2 ^ 18 + g.code * 2 ^ 14 + 2 ^ 13 + i.toNat
  | .fadd d a b g t => fVR 16 d a b g t.code
  | .fsub d a b g t => fVR 17 d a b g t.code
  | .fmul d a b g t => fVR 18 d a b g t.code
  | .fma d a b g t => fVR 19 d a b g t.code
  | .fmin d a b g t => fVR 20 d a b g t.code
  | .fmax d a b g t => fVR 21 d a b g t.code
  | .fceq p q a b g t => fVC 22 p q a b g t.code
  | .fclt p q a b g t => fVC 23 p q a b g t.code
  | .fcle p q a b g t => fVC 24 p q a b g t.code
  | .fcun p q a b g t => fVC 25 p q a b g t.code
  | .funaExp2 d a g t => fVU 26 d a 0 g t.code
  | .funaLog2 d a g t => fVU 26 d a 1 g t.code
  | .funaRcp d a g t => fVU 26 d a 2 g t.code
  | .funaRsqrt d a g t => fVU 26 d a 3 g t.code
  | .funaSqrt d a g t => fVU 26 d a 4 g t.code
  | .funaTanh d a g t => fVU 26 d a 5 g t.code
  | .funaSigm d a g t => fVU 26 d a 6 g t.code
  | .funaGelu d a g t => fVU 26 d a 7 g t.code
  | .funaAbs d a g t => fVU 26 d a 8 g t.code
  | .funaNeg d a g t => fVU 26 d a 9 g t.code
  | .funaFloor d a g t => fVU 26 d a 10 g t.code
  | .funaCeil d a g t => fVU 26 d a 11 g t.code
  | .funaRint d a g t => fVU 26 d a 12 g t.code
  | .funaFrac d a g t => fVU 26 d a 13 g t.code
  | .fcvtConvert d a n g r => fVU 27 d a n.val g r.code
  | .fcvtI32 d a g r => fVU 27 d a 40 g r.code
  | .fcvtWi32 d a g r => fVU 27 d a 41 g r.code
  | .vsel d a b g => fVR 28 d a b g 0
  | .vmovMov d a g => fVU 29 d a 0 g 0
  | .vmovBcast d a g => fVU 29 d a 1 g 0
  | .vmovRdlane d a g => fVU 29 d a 2 g 0
  | .vmovWrlane d a g => fVU 29 d a 3 g 0
  | .vmovLaneid d g => fVU 29 d 0 4 g 0
  | .vxlnShfl d a g => fVU 30 d a 0 g 0
  | .vxlnBcl d a g => fVU 30 d a 1 g 0
  | .vxlnRedadd d a g t => fVU 30 d a 2 g t.code
  | .vxlnRedmax d a g t => fVU 30 d a 3 g t.code
  | .vxlnScan d a g t => fVU 30 d a 4 g t.code
  | .plogPand d a n b => fSR 31 d.val a.val 0 (n.toNat * 8 + b.val)
  | .plogPor d a n b => fSR 31 d.val a.val 1 (n.toNat * 8 + b.val)
  | .plogPxor d a n b => fSR 31 d.val a.val 2 (n.toNat * 8 + b.val)
  | .plogPmovs d a w => fSR 31 d.val a.val 3 w.val
  | .plogPbal d a => fSR 31 d.val a.val 4 0
  | .plogEmw a => fSR 31 0 a.val 5 0
  | .plogEmr d w => fSR 31 d.val 0 6 w.val
  | .xfrmHfwd d a k => fSR 32 d.val a.val 0 k.val
  | .xfrmHinv d a => fSR 32 d.val a.val 1 0
  | .xfrmHthr d a h => fSR 32 d.val a.val 2 h.val
  | .xfrmHpack d a p => fSR 32 d.val a.val 3 p.val
  | .xfrmHunpk d a k p => fSR 32 d.val a.val 4 (k.val * 8 + p.val)
  | .xfrmXpose d a => fSR 32 d.val a.val 5 0
  | .xfrmMxq d a m r => fSR 32 d.val a.val 6 (m.code * 4 + r.code)
  | .xfrmMxdq d a m => fSR 32 d.val a.val 7 (m.code * 4)
  | .xfrmI4dq d a => fSR 32 d.val a.val 8 0
  | .domnDtag d t => fSR 33 d.val 0 0 t.val
  | .domnDget d a => fSR 33 d.val a.val 1 0
  | .domnHscl d a b => fSR 33 d.val a.val 2 b.val
  | .domnHbia d a b => fSR 33 d.val a.val 3 b.val
  | .vld d a o g sc z => fMV 36 d a o g (sc.toNat * 8 + z.code)
  | .vst d a o g sc z => fMV 37 d a o g (sc.toNat * 8 + z.code)
  | .vatmAddI d a o g => fMV 39 d a o g 0
  | .vatmAddF d a o g => fMV 39 d a o g 1
  | .vatmMinI d a o g => fMV 39 d a o g 2
  | .vatmMaxI d a o g => fMV 39 d a o g 3
  | .vatmMaxF d a o g => fMV 39 d a o g 4
  | .vatmAnd d a o g => fMV 39 d a o g 5
  | .vatmOr d a o g => fMV 39 d a o g 6
  | .vatmXor d a o g => fMV 39 d a o g 7
  | .vatmXchg d a o g => fMV 39 d a o g 8
  | .vatmCas d a o g => fMV 39 d a o g 9
  | .sld d a r z i => fMS 40 d a r z i
  | .sst d a r z i => fMS 41 d a r z i
  | .satmAdd d a b r w => fMA 42 d a b.val r (w.code * 16 + 0)
  | .satmSub d a b r w => fMA 42 d a b.val r (w.code * 16 + 1)
  | .satmAnd d a b r w => fMA 42 d a b.val r (w.code * 16 + 2)
  | .satmOr d a b r w => fMA 42 d a b.val r (w.code * 16 + 3)
  | .satmXor d a b r w => fMA 42 d a b.val r (w.code * 16 + 4)
  | .satmMin d a b r w => fMA 42 d a b.val r (w.code * 16 + 5)
  | .satmMax d a b r w => fMA 42 d a b.val r (w.code * 16 + 6)
  | .satmMinn d a b r w => fMA 42 d a b.val r (w.code * 16 + 7)
  | .satmMaxn d a b r w => fMA 42 d a b.val r (w.code * 16 + 8)
  | .satmXchg d a b r w => fMA 42 d a b.val r (w.code * 16 + 9)
  | .satmCas d a b r w => fMA 42 d a b.val r (w.code * 16 + 10)
  | .fenceAcq o => fSR 43 0 o.code 0 0
  | .fenceRel o k => fSR 43 1 o.code k.toNat 0
  | .fenceAr o k => fSR 43 2 o.code k.toNat 0
  | .fenceSc o k => fSR 43 3 o.code k.toNat 0
  | .wait k n => fSR 44 k.code n.val 0 0
  | .tsl d t r i g => fTS 45 d t r i g
  | .tss d t r i g => fTS 46 d t r i g
  | .tbndBind t a => fSR 47 t.val a.val 0 0
  | .tbndUnbind t => fSR 47 t.val 0 1 0
  | .tbndQuery d t h => fSR 47 d.val t.val 2 h.toNat
  | .xcpyIn t a => fSR 48 t.val a.val 0 0
  | .xcpyOut t a => fSR 48 t.val a.val 1 0
  | .xcpyMcin t a => fSR 48 t.val a.val 2 0
  | .ringRbind d a => fSR 49 d.val a.val 0 0
  | .ringRunbind a => fSR 49 0 a.val 1 0
  | .ringSpub a k => fSR 49 0 a.val 2 k.val
  | .ringSrel a k => fSR 49 0 a.val 3 k.val
  | .ringSwait d a k => fSR 49 d.val a.val 4 k.val
  | .tbarTbinit d a => fSR 50 d.val a.val 0 0
  | .tbarTbarr a o => fSR 50 0 a.val 1 o.code
  | .tbarTbwait d a o => fSR 50 d.val a.val 2 o.val
  | .tbarTbtest d a => fSR 50 d.val a.val 3 0
  | .sigSigadd d a b r => fMA 53 d a b.val r 0
  | .sigSigwait d a b r => fMA 53 d a b.val r 1
  | .sigSigrd d a r => fMA 53 d a 0 r 2
  | .sigWatch d a b r => fMA 53 d a b.val r 3
  | .sgrpFork d a r => fMA 54 d a 0 r 0
  | .sgrpArr d a b r => fMA 54 d a b.val r 1
  | .sgrpCan d a r => fMA 54 d a 0 r 2
  | .sgrpWait d a r => fMA 54 d a 0 r 3
  | .sgrpFree d a r => fMA 54 d a 0 r 4
  | .sgrpInfo d a r => fMA 54 d a 0 r 5
  | .hctlHret t => fSR 55 0 t.code 0 0
  | .hctlHtaint => fSR 55 1 0 0 0
  | .hctlWstat d e => fSR 55 2 d.val e.val 0
  | .hctlWpos d k w => fSR 55 3 d.val k.val w.val
  | .brv g o => 56 * 2 ^ 24 + g.code * 2 ^ 20 + o.toNat
  | .rcv o => fJ 57 0 o.toNat
  | .join => 58 * 2 ^ 24
  | .brsBeqz k o => fSQ 59 k 0 o.toNat
  | .brsBnez k o => fSQ 59 k 1 o.toNat
  | .brsBltz k o => fSQ 59 k 2 o.toNat
  | .brsBgez k o => fSQ 59 k 3 o.toNat
  | .jmpJmp o => fJ 60 0 o.toNat
  | .jmpCall o => fJ 60 1 o.toNat
  | .jmpJmpr a => fJ 60 2 (a.val * 2 ^ 16)
  | .jmpRet => fJ 60 3 0
  | .syncGbar o => fSR 62 0 o.code 0 0
  | .syncEnq d q p => fSR 62 1 d.val q.val p.val
  | .syncQctlCreate d q => fSR 62 2 d.val q.val 0
  | .syncQctlStop d q => fSR 62 3 d.val q.val 0
  | .syncQctlResume d q a => fSR 62 4 d.val q.val a.val
  | .syncQctlDestroy d q => fSR 62 5 d.val q.val 0
  | .privTretRetry => fSR 63 0 0 0 0
  | .privTretSkip => fSR 63 0 1 0 0
  | .privTretKill => fSR 63 0 2 0 0
  | .privPgcow d => fSR 63 1 d.val 0 0
  | .privPgref d a => fSR 63 2 d.val a.val 0
  | .privTlbinv a b k => fSR 63 3 a.val b.val k.val
  | .privEseal d a b => fSR 63 4 d.val a.val b.val
  | .privPreemptSave d q => fSR 63 5 d.val q.val 0
  | .privPreemptRsm d q => fSR 63 5 d.val q.val 1
  | .privHalt => fSR 63 6 0 0 0
  | .trapEntry _ => 0
  | .transformPipeReply _ => 0
  | .loadComplete _ _ => 0
  | .storePerformed _ _ => 0
  | .atomicPerformed _ _ => 0
  | .teamSlotRelease _ => 0
  | .regather _ => 0
  | .teamAged _ => 0
  | .l1Writeback _ _ => 0
  | .signalWaitSatisfied _ => 0
  | .evictedTeamRestore _ => 0
  | .copyStart _ => 0
  | .copySectorPerformed _ _ => 0
  | .ringFillChunk _ _ => 0
  | .ringDrainChunk _ _ => 0
  | .ringUnbindComplete _ _ => 0
  | .pageAnswer => 0
  | .hostStore _ _ => 0
  | .hostLoad _ _ => 0
  | .remoteRequest _ _ _ => 0
  | .ticketClaim _ _ => 0
  | .packetDispatch _ => 0
  | .placementRetry _ => 0
  | .placementPressurePreempt _ => 0
  | .waitSignalsDispatch _ => 0
  | .signalPacketPerform _ => 0
  | .bundleStart _ => 0
  | .queueStallCheck => 0
  | .kstepBegin _ => 0
  | .kstepBoundary _ => 0
  | .splitkArrival _ _ => 0
  | .upcallDelivery _ _ => 0
  | .streamFillComplete _ _ _ => 0
  | .streamDrainComplete _ _ => 0
  | .walkStallReport _ => 0
  | .groupDeadline _ => 0
  | .preemptSaveComplete _ => 0
  | .drainLimitExpiry _ => 0
  | .queueAutoResume _ => 0
  | .dbgctlHaltreq _ => 0
  | .dbgctlResume _ => 0
  | .debugHaltQuiet _ => 0
  | .energyTick _ => 0
  | .sealedIntervalClose => 0
  | .powerBudgetTick _ => 0
  | .ptpSyncReceive _ _ _ _ _ => 0
  | .ptpFrameDrop _ _ => 0
  | .ptpSyncTimeout => 0
  | .ppsEdge => 0
  | .correctableError _ _ _ => 0
  | .uncorrectableError _ _ _ _ => 0
  | .linkCrcError _ _ => 0
  | .linkRetrainEnd _ _ => 0
  | .pwrlimWrite _ => 0
  | .prqheadWrite _ => 0
  | .prawrWrite _ => 0
  | .logheadWrite _ => 0
  | .ringBaseWrite _ _ => 0
  | .registerWrite _ _ _ => 0
  | .powerGood _ => 0
  | .firmwareImageVerify _ _ _ _ _ => 0
  | .warmReset => 0
  | .fwSetPtpAddress _ _ => 0
  | .fwReadPublicKey => 0
  | .fwSupplyLastRecord _ _ => 0
  | .fwContextKill _ => 0
  | .fwPartitionAssign _ _ => 0
  | .powerLoss => 0
  | .fwContextCreate _ _ _ _ _ _ _ => 0
  | .frameExport _ _ => 0
  | .sgOperationPerformed _ _ => 0
  | .ptpAnnounceReceive _ _ _ _ _ _ => 0
  | .ptpDelayRespReceive _ _ _ _ => 0
  | .linkCompressorSwitch _ _ => 0

/-- Whether the row has a word: it is an instruction and no event (spec/opcode_table.json). -/
def hasWord : Instr → Bool
  | .trapEntry _ => false
  | .transformPipeReply _ => false
  | .loadComplete _ _ => false
  | .storePerformed _ _ => false
  | .atomicPerformed _ _ => false
  | .teamSlotRelease _ => false
  | .regather _ => false
  | .teamAged _ => false
  | .l1Writeback _ _ => false
  | .signalWaitSatisfied _ => false
  | .evictedTeamRestore _ => false
  | .copyStart _ => false
  | .copySectorPerformed _ _ => false
  | .ringFillChunk _ _ => false
  | .ringDrainChunk _ _ => false
  | .ringUnbindComplete _ _ => false
  | .pageAnswer => false
  | .hostStore _ _ => false
  | .hostLoad _ _ => false
  | .remoteRequest _ _ _ => false
  | .ticketClaim _ _ => false
  | .packetDispatch _ => false
  | .placementRetry _ => false
  | .placementPressurePreempt _ => false
  | .waitSignalsDispatch _ => false
  | .signalPacketPerform _ => false
  | .bundleStart _ => false
  | .queueStallCheck => false
  | .kstepBegin _ => false
  | .kstepBoundary _ => false
  | .splitkArrival _ _ => false
  | .upcallDelivery _ _ => false
  | .streamFillComplete _ _ _ => false
  | .streamDrainComplete _ _ => false
  | .walkStallReport _ => false
  | .groupDeadline _ => false
  | .preemptSaveComplete _ => false
  | .drainLimitExpiry _ => false
  | .queueAutoResume _ => false
  | .dbgctlHaltreq _ => false
  | .dbgctlResume _ => false
  | .debugHaltQuiet _ => false
  | .energyTick _ => false
  | .sealedIntervalClose => false
  | .powerBudgetTick _ => false
  | .ptpSyncReceive _ _ _ _ _ => false
  | .ptpFrameDrop _ _ => false
  | .ptpSyncTimeout => false
  | .ppsEdge => false
  | .correctableError _ _ _ => false
  | .uncorrectableError _ _ _ _ => false
  | .linkCrcError _ _ => false
  | .linkRetrainEnd _ _ => false
  | .pwrlimWrite _ => false
  | .prqheadWrite _ => false
  | .prawrWrite _ => false
  | .logheadWrite _ => false
  | .ringBaseWrite _ _ => false
  | .registerWrite _ _ _ => false
  | .powerGood _ => false
  | .firmwareImageVerify _ _ _ _ _ => false
  | .warmReset => false
  | .fwSetPtpAddress _ _ => false
  | .fwReadPublicKey => false
  | .fwSupplyLastRecord _ _ => false
  | .fwContextKill _ => false
  | .fwPartitionAssign _ _ => false
  | .powerLoss => false
  | .fwContextCreate _ _ _ _ _ _ _ => false
  | .frameExport _ _ => false
  | .sgOperationPerformed _ _ => false
  | .ptpAnnounceReceive _ _ _ _ _ _ => false
  | .ptpDelayRespReceive _ _ _ _ => false
  | .linkCompressorSwitch _ _ => false
  | _ => true

/-- The word of an instruction with its chain and switch bits (spec/02 R29). -/
def encode (chain switch : Bool) (i : Instr) : W32 :=
  BitVec.ofNat 32 (chain.toNat * 2 ^ 31 + switch.toNat * 2 ^ 30 + encodeBody i)

end Sys2Proof
end

