-- ==== Sys2Proof/Machine/State.lean ====
section
/-!
DEFINITION. Sys2Proof/Machine/State.lean: everything the spec gives the machine, as plain data, and the machine right
after reset. Counts, identifiers and memory keys are natural numbers; what software sees as a word is a bit vector.
-/
namespace Sys2Proof.Machine
open Sys2Proof

/-! ## Teams -/

/-- A frame of the reconvergence stack (spec/12 R204). -/
structure Frame where
  sibling : Bool
  pc      : W64
  mask    : Mask
  deriving DecidableEq, Repr

/-- The levels, lowest first (spec/20 R299). -/
inductive Level where
  | user | trap | agent
  deriving DecidableEq, Repr

/-- Where a team is: not placed yet, in a slot of a scheduler, in the agent slot, saved by pre-emption or eviction, or
ended with its slot not yet freed or freed (spec/12 R200, R201, R213, R215). -/
inductive Place where
  | none
  | on (core sched slot : Nat)
  | agent (core : Nat)
  | saved
  | evicted
  | ended
  deriving DecidableEq, Repr

/-- One write of a long-latency result: a lane of a v register, or an s register (spec/02 R36). -/
inductive RegWrite where
  | v (r : VReg) (lane : Nat) (x : W32)
  | s (r : SReg) (x : W64)
  deriving DecidableEq, Repr

/-- Where an operation's destination lies, for the table of spec/09 R162. -/
inductive Dest where
  | near | device | remote | host
  deriving DecidableEq, Repr

/-- One lane of a memory access that has translated: the lane, its virtual address, its key and its location class. A team-uniform
access is its lane 0. -/
structure LaneAt where
  lane : Nat
  va   : W80
  key  : Nat
  loc  : Nat
  deriving DecidableEq, Repr

/-- The registers that a team names (spec/02 R40), with the domain tags and the pending bits (R37). -/
structure Regs where
  v     : Vector (List W32) 64
  tag   : Vector (BitVec 4) 64
  s     : Vector W64 64
  a     : Vector W80 16
  p     : Vector Mask 8
  t     : Vector W128 16
  h     : Vector W32 4
  pendV : W64
  pendS : W64
  deriving DecidableEq, Repr

/-- An access that has issued and translated and waits to be performed, by the ordering rules or the range scoreboard (spec/08 R151 to
R153; spec/09 R162, R168; spec/10 R176): its word, the registers as it read them, its lanes. -/
structure HeldAcc where
  instr : Instr
  regs  : Regs
  lanes : List LaneAt
  deriving DecidableEq, Repr

/-- An outstanding operation (spec/09 R160, R161): its class; whether it has been performed, so that its values are fixed; whether it has
reached its completion point; the results still to be written; the pending bits they hold; where its destinations lie; the scopes at
which it acquires and releases, as widened (spec/08 R145); the access that is still to be performed. -/
structure Op where
  id     : Nat
  cls    : OpClass
  ready  : Bool
  done   : Bool
  writes : List RegWrite
  pv     : List VReg
  ps     : List SReg
  dests  : List Dest
  acq    : Option Scope
  rel    : Option Scope
  held   : Option HeldAcc
  deriving DecidableEq, Repr

/-- The trap registers (spec/20 R301 to R303): TCAUSE, TPC, TADDR with TADDRH, TWORDS with TWORDSH, TBMASK with TBMASKH,
TLANEM0 to TLANEM31. -/
structure TrapRegs where
  tcause : W64
  tpc    : W64
  taddr  : W80
  twords : BitVec 96
  tbmask : W128
  tlanem : Mask
  deriving DecidableEq, Repr

/-- What a fault reports (spec/22 R315): class, detail, address, hostfail, TBMASK. -/
structure FaultInfo where
  cls      : Nat
  detail   : Nat
  addr     : W80
  hostfail : Bool
  bmask    : W128
  deriving DecidableEq, Repr

/-- A trap that waits for pending bits to clear (spec/02 R39): its fault, position, lanes and whether it is lane-wise. -/
structure PendTrap where
  info     : FaultInfo
  pc       : W64
  word     : Nat
  lanes    : Mask
  laneWise : Bool
  deriving DecidableEq, Repr

/-- A memory access that has not finished (spec/22 R316, R317): lanes parked with their addresses on merge entries (an entry of
`none` waits for a free entry, spec/18 R283), lanes with a fault that waits for the others, lanes to try at the next issue, the results of
lanes already performed, lanes that have translated and are still to be performed, and whether the access is team-uniform or a fetch. -/
structure Park where
  waits   : List (Nat × W80 × Option Nat)
  faults  : List (Nat × FaultInfo)
  replay  : Mask
  writes  : List RegWrite
  late    : List LaneAt
  uniform : Bool
  deriving DecidableEq, Repr

/-- What holds a team beside its pending bits (spec/12 R209, R215; spec/15 R266; spec/07 R133). A group with `tbar.tbwait` is held by
`tbwait`, and may issue once that has become `tbpass` (spec/09 R167). -/
inductive Hold where
  | none
  | xfrm
  | tbwait (key : Nat) (phase : Nat) (since : Nat)
  | tbpass
  | gbar (scope : Scope)
  | poolIdle
  | agentIdle
  | unstarted
  deriving DecidableEq, Repr

/-- The implicit state that every word of one chain group sees (spec/02 R33). -/
structure View where
  em      : Mask
  srstate : W32
  ctrs    : List Nat
  brken   : Bool
  attach  : Bool
  deriving DecidableEq, Repr

/-- The chain group in issue: its view, the switch bits met so far, and whether words of it are still to run (spec/02 R31, R33,
R37). -/
structure Group where
  view : Option View
  sw   : Bool
  open_ : Bool
  deriving DecidableEq, Repr

/-- The chain and switch bits of the word in issue (spec/02 R29). -/
structure Cur where
  chain  : Bool
  switch : Bool
  deriving DecidableEq, Repr

/-- The kernel metadata that the Z9 reads (spec/03 R65). -/
structure Kernel where
  meta_ : W80
  entry : W64
  regs  : Nat
  sregs : Nat
  idem  : Bool
  drain : Bool
  traptab : Nat
  deriving DecidableEq, Repr

/-- A handler team's pool: walk and kind, 0 A producer, 1 B producer, 2 consumer (spec/13 R224). -/
structure Pool where
  walk : Nat
  kind : Nat
  deriving DecidableEq, Repr

/-- The upcall that a handler runs (spec/13 R224, R225): the slot, the C slot and K-step it serves, and its taint. -/
structure Upcall where
  kind  : Nat
  slot  : Nat
  cslot : Nat
  k     : Nat
  taint : Bool
  deriving DecidableEq, Repr

/-- A deferred write-back fault (spec/08 R159, spec/22 R323): the address of the 128-byte line whose sectors are pinned,
whether a release started the write-back, and whether the trap has been taken. -/
structure Pinned where
  line  : W80
  byRel : Bool
  taken : Bool
  deriving DecidableEq, Repr

/-- A fence that still orders later accesses (spec/08 R151 to R153, spec/09 R162): the engine classes that it names, its scope, the
operation identifier from which operations are later than it, its release and acquire parts. -/
structure FenceHold where
  classes : List OpClass
  scope   : Scope
  before  : Nat
  rel     : Bool
  acq     : Bool
  deriving DecidableEq, Repr

/-- Who a team is and where it came from (spec/12 R200, spec/14 R243, spec/20 R301). -/
structure Ident where
  tid    : Nat
  teamid : W64
  m      : Nat
  ctx    : Nat
  gen    : Nat
  kernel : Kernel
  queue  : Option Nat
  bundle : Option Nat
  sub    : Nat
  gang   : Option Nat
  prio   : Nat
  args   : List W64
  live   : Mask
  pool   : Option Pool
  deriving DecidableEq, Repr

/-- The control state of a team: position, masks, stacks, level and trap registers (spec/02 R26; spec/12 R202, R204;
spec/20 R299). -/
structure Ctl where
  pc      : W64
  word    : Nat
  em      : Mask
  stack   : List Frame
  asideEm : Mask
  aside   : List Frame
  level   : Level
  srstate : W32
  trap    : TrapRegs
  trapbase : W64
  deriving DecidableEq, Repr

/-- What a team waits for and has under way, and whether it has ended with its slot not yet freed (spec/12 R201). `packet` holds the words of its packet as they were fetched (spec/02 R27), and
`fetched` tells that the group at its position has been fetched and has passed its group checks and has not issued; `rebuild` lists the
registers that the group still reconstructs before its first word (spec/07 R132); `regath` gives the level and the depth of the frame at
which the lanes of a regathered team return (spec/12 R208). -/
structure Flow where
  cur     : Cur
  packet  : BitVec 96
  fetched : Bool
  rebuild : List VReg
  group   : Group
  ops     : List Op
  hold    : Hold
  sw      : Bool
  park    : Option Park
  trapPend : Option PendTrap
  pinned  : Option Pinned
  fences  : List FenceHold
  upcall  : Option Upcall
  arrived : Bool
  regath  : Option (Level × Nat)
  ended   : Bool
  walkerr : Bool
  deriving DecidableEq, Repr

/-- What the scheduler keeps of a team (spec/12 R210, R211): last issue, age count, the time it became aged, and the time at
which the wait of an evicted team completed (R215). -/
structure Sched where
  last  : Nat
  age   : Nat
  aged  : Option Nat
  ready : Option Nat
  deriving DecidableEq, Repr

/-- A team with everything the spec gives it. -/
structure Team where
  id    : Ident
  place : Place
  regs  : Regs
  ctl   : Ctl
  flow  : Flow
  sch   : Sched
  deriving DecidableEq, Repr

/-! ## Cores -/

/-- DBGST.state (spec/20 R304). -/
inductive DbgState where
  | running | haltedBusy | haltedQuiet
  deriving DecidableEq, Repr

/-- A request to the transform pipe (spec/07 R133): of a team, with the registers it will write; or of the core's fill path,
with the copy and the tile that the A-store takes (spec/10 R193). `at_` is the core cycle in which it reached the pipe, `from_` the
scheduler, or 4 for the fill path. -/
structure PipeReq where
  tid    : Option Nat
  regs   : List (VReg × List W32 × BitVec 4)
  copy   : Nat
  job    : Nat
  at_    : Nat
  from_  : Nat
  deriving DecidableEq, Repr

/-- The clock of an island (spec/19 R289, R298): its frequency in MHz, and its cycle count `base`, with `frac` twelve-thousandths of a
cycle, at the moment `since`, counted in twelfths of a nanosecond. -/
structure Clock where
  mhz   : Nat
  base  : Nat
  frac  : Nat
  since : Nat
  deriving DecidableEq, Repr

/-- What a stream engine waits for: merge entries with the page that each serves, and the pages that the host has failed
(spec/09 R346). -/
structure EngWait where
  waits  : List (Nat × Nat)
  failed : List Nat
  deriving DecidableEq, Repr

/-- An operand slot of the A-store or B-store (spec/13 R221). -/
structure OpSlot where
  taken : Bool
  cslot : Nat
  k     : Nat
  ready : Bool
  taint : Bool
  fill  : Bool
  deriving DecidableEq, Repr

/-- A C slot with the fields of its header (spec/13 R222); `state` is the header's state code, `order` the start order of
its item, `resume` the bound below which raises carry the re-raise flag (R235), `pair` whether it
spans two slots, `arrived` whether its part has been counted at the split-K buffer (R226), `drained` the destination sectors that its drain has
written (R227). -/
structure CSlot where
  item   : Nat
  trow   : Nat
  tcol   : Nat
  part   : Nat
  state  : Nat
  dtag   : Nat
  taint  : Bool
  finish : Bool
  kprog  : Nat
  ksteps : Nat
  surv   : W128
  order  : Nat
  raised : Nat
  resume : Nat
  pair   : Bool
  arrived : Bool
  drained : List Nat
  deriving DecidableEq, Repr

/-- An upcall waiting in a pool's FIFO: operand or C slot, C slot, K-step, raised again (spec/13 R224, R235). -/
structure Raise where
  slot  : Nat
  cslot : Nat
  k     : Nat
  again : Bool
  deriving DecidableEq, Repr

/-- The walk engine of a core while a walk holds it (spec/13 R220 to R232, spec/15 R261). -/
structure WalkCore where
  walk   : Nat
  idx    : Nat
  items  : List (Nat × Nat)
  cursor : Nat
  array  : Option Nat
  aslots : List OpSlot
  bslots : List OpSlot
  cslots : List CSlot
  fifoA  : List Raise
  fifoB  : List Raise
  fifoC  : List Raise
  stopReq : Bool
  stopped : Bool
  starve : Nat
  upwait : Nat
  stalls : Nat
  gcomp  : Nat
  gskip  : Nat
  ksteps : Nat
  tiles  : Nat
  lastAdv : Nat
  stalled : Bool
  eng    : EngWait
  deriving DecidableEq, Repr

/-- A core (spec/01, spec/12 R203, R210 to R212, spec/20 R304). `clk` is the clock of its SIMT island, `mclk` that of its matrix
island (spec/19 R298). `schedFree` gives for each scheduler the first cycle in which it may issue again, `pipeFree` for pipe p of scheduler k,
at 5k + p, the first cycle in which that pipe is free, `agentIss` the cycles in which the agent slot issued lately. `fillq` holds the
tiles that the fill path has still to send to the pipe (spec/07 R133). `issued` counts the issue cycles, and `held` the engine cycles, of each
(context, generation) in this tick, which began at cycle `tickClk` of the SIMT island and `tickMat` of the matrix island (spec/19 R290,
R292). -/
structure Core where
  attach  : Bool
  brken   : Bool
  dbg     : DbgState
  ageivl  : BitVec 32
  clk     : Clock
  mclk    : Clock
  schedFree : Vector Nat 4
  pipeFree : Vector Nat 20
  agentIss : List Nat
  pipe    : List PipeReq
  fillq   : List (Nat × Nat)
  walk    : Option WalkCore
  issued  : List ((Nat × Nat) × Nat)
  held    : List ((Nat × Nat) × Nat)
  tickClk : Nat
  tickMat : Nat
  deriving DecidableEq, Repr

/-! ## Memory -/

/-- A dirty sector of an L1 (spec/08 R148): the core, the physical sector key, the team that wrote it with its queue (R159), the
virtual address of the sector, its context and generation, the bytes written, and the bytes pinned by a deferred write-back. -/
structure Dirty where
  core   : Nat
  key    : Nat
  tid    : Nat
  queue  : Option Nat
  ctx    : Nat
  gen    : Nat
  va     : W80
  bytes  : List (Nat × Byte)
  pinned : Bool
  deriving DecidableEq, Repr

/-- A clean sector of an L1 as it was read (spec/08 R155). -/
structure Clean where
  core  : Nat
  key   : Nat
  ctx   : Nat
  gen   : Nat
  va    : W80
  bytes : List Byte
  deriving DecidableEq, Repr

/-- The fields of a leaf entry that an access needs (spec/18 R275, R276). -/
structure Leaf where
  frame : Nat
  size  : Nat
  loc   : Nat
  mig   : Nat
  cow   : Bool
  x     : Bool
  w     : Bool
  r     : Bool
  sr    : Bool
  devid : Nat
  frec  : Nat
  entry : Nat
  deriving DecidableEq, Repr

/-- A cached translation (spec/18 R282): of the TLB of a cluster, or of the translation unit of a die, `unit` being its number; tagged by
context, generation, virtual page and size code, `page` being the virtual address in pages of that size. -/
structure TlbEntry where
  unit    : Nat
  ctx     : Nat
  gen     : Nat
  page    : Nat
  size    : Nat
  leaf    : Leaf
  deriving DecidableEq, Repr

/-- A fetched word as an instruction cache holds it (spec/02 R28): core, context, generation, byte address. -/
structure ICell where
  core : Nat
  ctx  : Nat
  gen  : Nat
  va   : Nat
  word : W32
  deriving DecidableEq, Repr

/-- A merge table entry (spec/18 R283); `engine` tells that a stream engine's request waits on it (spec/09 R346). -/
structure Merge where
  uid    : Nat
  die    : Nat
  mte    : Nat
  ctx    : Nat
  gen    : Nat
  page   : Nat
  engine : Bool
  deriving DecidableEq, Repr

/-- A page request record not yet written (spec/18 R284). -/
structure PrqRec where
  seq   : Nat
  bytes : List Byte
  deriving DecidableEq, Repr

/-- A context descriptor (spec/18 R273) with the account of spec/19 R293 and the save pool of spec/23 R333. -/
structure Ctx where
  id     : Nat
  root   : Nat
  gen    : Nat
  part   : Nat
  cstate : Nat
  ffl    : Nat
  fflen  : Nat
  lateans : Nat
  energy : Nat
  pool   : Nat
  poolLen : Nat
  poolUsed : List (Nat × Nat)
  deriving DecidableEq, Repr

/-! ## Engines -/

/-- Bytes that an engine has read, by 32-byte sector of virtual space (spec/09 R163): each byte with 0 good, 1 poisoned, 2 not readable. -/
abbrev Memo := List (Nat × List (Byte × Nat))

/-- A slice of a copy (spec/10 R192): its index, team, operation, core, window, snapshot, threshold, sectors on its barrier,
and its range on the scoreboard in 32-byte sectors of virtual space or cluster store (spec/09 R168). `src` holds the source sectors read so
far, `made` the destination sectors whose jobs exist or are done; `read` tells that every one is, `retired` that its last sector has been
counted off. -/
structure CopySlice where
  idx    : Nat
  tid    : Nat
  op     : Nat
  core   : Nat
  window : W128
  snap   : List Byte
  thr    : W32
  sectors : Nat
  range  : List Nat
  src    : Memo
  made   : List Nat
  read   : Bool
  retired : Bool
  deriving DecidableEq, Repr

/-- How a destination sector is finished (spec/09 R160, R167, R170, R171, R346): bytes written at keys; bytes and bit masks
written at virtual addresses; poison, at keys or at virtual addresses; or left unwritten, by a failure or because nothing was to be written. -/
inductive JobKind where
  | near (bytes : List (Nat × Byte))
  | far (bytes : List (Nat × Byte × Byte))
  | poison (far : Bool) (places : List Nat)
  | unwritten (failed : Bool)
  deriving DecidableEq, Repr

/-- One destination sector of a slice still to be performed: its slice, its 128-row tile, the core whose typed store it lies in, and whether
it waits for the transform pipe (spec/10 R193). -/
structure Job where
  slice : Nat
  kind  : JobKind
  tile  : Nat
  core  : Nat
  piped : Bool
  deriving DecidableEq, Repr

/-- A copy (spec/10 R192 to R194): form 0 in, 1 out, 2 mcin; `mask` its targets. -/
structure Copy where
  id      : Nat
  form    : Nat
  issuer  : Nat
  gang    : Option Nat
  ctx     : Nat
  gen     : Nat
  cluster : Nat
  bundle  : Option Nat
  tlr     : Nat
  bar     : Nat
  n       : Nat
  mask    : Nat
  rec_    : Nat
  slices  : List CopySlice
  started : Bool
  dead    : Bool
  jobs    : List Job
  delivered : Nat
  refusedM  : Nat
  reasons   : Nat
  fail    : Option Nat
  eng     : EngWait
  deriving DecidableEq, Repr

/-- The states of a ring's slot (spec/09 R169). -/
inductive RingSlot where
  | empty | filling | full | draining
  deriving DecidableEq, Repr

/-- A slot of a ring with its chunk, valid bytes and poison mark (spec/10 R196); for the chunk under way the sectors read so far, the
destination sectors made into jobs, and those still to be performed (spec/09 R163, R346). `last` is the chunk that the slot held last, with its
poison mark. -/
structure RSlot where
  state  : RingSlot
  chunk  : Nat
  valid  : Nat
  poison : Bool
  src    : Memo
  made   : List Nat
  jobs   : List Job
  last   : Option (Nat × Bool)
  deriving DecidableEq, Repr

/-- A bound ring (spec/10 R195). `acc` holds what a Haar drain ring has drained of its stream so far, in order; `whole` is the number of its
tiles that have been written. -/
structure Ring where
  cluster : Nat
  id      : Nat
  tid     : Nat
  op      : Nat
  core    : Nat
  ctx     : Nat
  gen     : Nat
  bundle  : Nat
  snap    : List Byte
  thr     : W32
  base    : Nat
  slotLen : Nat
  drain   : Bool
  pool    : Nat
  used    : Nat
  next    : Nat
  slots   : List RSlot
  acc     : List (Byte × Nat)
  whole   : Nat
  error   : Bool
  unbind  : Bool
  fail    : Option Nat
  eng     : EngWait
  deriving DecidableEq, Repr

/-- A team waiting in `ring.swait` (spec/10 R196). -/
structure RingWait where
  cluster : Nat
  ring    : Nat
  slot    : Nat
  tid     : Nat
  op      : Nat
  dest    : SReg
  deriving DecidableEq, Repr

/-- A registered wait (spec/10 R198, spec/15 R262): kind 0 sigwait, 1 watch, 2 group wait; `hit` is the first satisfying
value. -/
structure Wait where
  id    : Nat
  kind  : Nat
  tid   : Nat
  op    : Nat
  dest  : SReg
  key   : Nat
  arg   : W64
  scope : Option Scope
  hit   : Option W64
  deriving DecidableEq, Repr

/-! ## Walks, queues, bundles -/

/-- A walk record (spec/13 R217). -/
structure WalkRec where
  m : Nat
  n : Nat
  k : Nat
  afmt : Nat
  bfmt : Nat
  order : Nat
  band : Nat
  tileM : Nat
  tileN : Nat
  assign : Nat
  splitk : Nat
  finish : Nat
  look : Nat
  inflight : Nat
  prio : Nat
  flags : Nat
  taint : Nat
  asrc : Nat
  bsrc : Nat
  csink : Nat
  aentry : W64
  bentry : W64
  centry : W64
  apool : Nat
  bpool : Nat
  cpool : Nat
  atlr : W80
  btlr : W80
  ctlr : W80
  htab : W80
  signal : W80
  crec : W80
  kbuf : W80
  stall : Nat
  asnap : List Byte
  bsnap : List Byte
  csnap : List Byte
  deriving DecidableEq, Repr

/-- A live walk and the counters of its completion record (spec/13 R233). `tTiles` are its tainted tiles, `flushed` those
whose split-K region holds a part (R226). -/
structure Walk where
  id     : Nat
  wid    : BitVec 32
  ctx    : Nat
  gen    : Nat
  queue  : Nat
  bundle : Nat
  sub    : Nat
  rec_   : WalkRec
  kernel : Kernel
  cores  : List Nat
  tiles  : Nat
  tainted : Nat
  ftaint : Option Nat
  tTiles : List Nat
  flushed : List Nat
  upa    : Nat
  upb    : Nat
  upc    : Nat
  reraise : Nat
  gcomp  : Nat
  gskip  : Nat
  stalls : Nat
  starve : Nat
  upwait : Nat
  err    : Option (Nat × Nat)
  ended  : Bool
  deriving DecidableEq, Repr

/-- A gang (spec/12 R214, spec/15 R266): its barrier generation; its teams carry their arrival. -/
structure Gang where
  id  : Nat
  gen : Nat
  deriving DecidableEq, Repr

/-- A sub-launch record (spec/14 R241). -/
structure SubRec where
  kind    : Nat
  tpc     : Nat
  cores   : Nat
  cstore  : Nat
  obj     : W80
  live    : Nat
  cluster : Nat
  arg     : W64
  deriving DecidableEq, Repr

/-- What placement gave a sub-launch (spec/14 R242; `cores` are a gang's cores), and whether it has started and retired (R244). -/
structure Sub where
  rec_    : SubRec
  kernel  : Option Kernel
  width   : Nat
  walk    : Option WalkRec
  gang    : Nat
  walkId  : Option Nat
  engines : List (Nat × Nat)
  cores   : List Nat
  started : Bool
  done    : Bool
  aborted : Bool
  deriving DecidableEq, Repr

/-- A bundle from the reading of its packet to its retirement (spec/14 R241 to R244, spec/01 R23). `phase`: 0 unplaced,
1 placed, 2 started. `late` tells that the queue has been resumed while it was being placed, so that no ticket is held for it (spec/16 R269). `cstores`: cluster, offset in the cluster store, size. `code` and `started` are memory as it was when the header was read and
when the bundle started (spec/02 R28; log 8). -/
structure Bundle where
  id      : Nat
  queue   : Nat
  ticket  : Nat
  start   : W64
  signal  : W80
  arg     : W64
  subs    : List Sub
  phase   : Nat
  late    : Bool
  startAt : Nat
  since   : Nat
  nextTry : Nat
  backoff : Nat
  cstores : List (Nat × Nat × Nat)
  placedAt : Nat
  aborted : Bool
  victims : List Nat
  code    : List Host.Cell
  started : List Host.Cell
  deriving DecidableEq, Repr

/-- A queue that the agents know (spec/14 R236, R239, R247, R248), with the parameters they read last. -/
structure Queue where
  id      : Nat
  ctx     : Nat
  gen     : Nat
  desc    : W80
  base    : W80
  lsize   : Nat
  prio    : Nat
  spolicy : Nat
  errsig  : W80
  cmask   : BitVec 256
  resident : Bool
  saving  : Bool
  drainBy : Option Nat
  tickets : List (Nat × Nat)
  next    : Nat
  dying   : Bool
  served  : Bool
  progress : Bool
  reported : Bool
  victimOf : Option Nat
  saveOps : List (Nat × Nat × SReg)
  rsmOps  : List (Nat × Nat × SReg)
  deriving DecidableEq, Repr

/-- A group whose clock runs (spec/14 R252): the record's physical key, context, queue. -/
structure ActGroup where
  id    : Nat
  key   : Nat
  ctx   : Nat
  gen   : Nat
  queue : Nat
  deriving DecidableEq, Repr

/-- A saved image (spec/23 R333, R334): where it lies in the save pool, its queue, the core it was saved from, the teams it
holds in the order of their records, the teams that are rerun from their entries and have none (R331), and the walk core; kind 0 pre-emption, 1 eviction. -/
structure Image where
  kind  : Nat
  ctx   : Nat
  gen   : Nat
  queue : Nat
  core  : Nat
  addr  : Nat
  len   : Nat
  tids  : List Nat
  fresh_ : List Nat
  walk  : Option WalkCore
  deriving DecidableEq, Repr

/-! ## Device services -/

/-- An error report (spec/22 R327) before it is written. -/
structure Report where
  kind   : Nat
  unit   : Nat
  seq    : Nat
  time   : Nat
  index  : Nat
  part   : Nat
  ctx    : Nat
  gen    : Nat
  detail : Nat
  addr   : Nat
  count  : Nat
  deriving DecidableEq, Repr

/-- A record held for the host log ring (spec/19 R296, spec/22 R327): a sealed reading of a partition, or an error report. -/
inductive Held where
  | reading (part : Nat) (bytes : List Byte)
  | report (r : Report)
  deriving DecidableEq, Repr

/-- The three rings of spec/20 R305 and what is held for them, oldest first; `lastCE` gives for each unit the second of its last correctable
report and the events that came later in that second (spec/22 R327). -/
structure Rings where
  prqbase : W64
  prqlog  : W64
  prqhead : W64
  seq     : Nat
  heldReq : List PrqRec
  prabase : W64
  pralog  : W64
  prawr   : W64
  taken   : Nat
  logbase : W64
  logsize : W64
  loghead : W64
  logwr   : Nat
  held    : List Held
  repSeq  : Nat
  lost    : Nat
  lastCE  : List ((Nat × Nat) × Nat × Option Report)
  deriving DecidableEq, Repr

/-- One chain of sealed readings: a partition's, or that of the overhead account (spec/19 R294 to R297). -/
structure Chain where
  part   : Nat
  boot   : W128
  seq    : Nat
  cum    : Nat
  t0     : Nat
  prev   : List Byte
  last   : List Byte
  core   : Nat
  l2     : Nat
  mem    : Nat
  floe   : Nat
  ocile  : Nat
  residue : Nat
  lines  : List ((Nat × Nat) × Nat)
  warm   : Bool
  gap    : Bool
  unsync : Bool
  held   : Bool
  account : Nat
  deriving DecidableEq, Repr

/-- Energy state (spec/19): the fractions of each unit, the chains, each with its boot identifier, the last tick, the last whole second at
which intervals were closed; `budgets` are the arbiter's budgets of the 1,024 islands, in the order of spec/01 R21 (R298). -/
structure Energy where
  frac   : List ((Nat × Nat) × Nat)
  chains : List Chain
  budgets : List Nat
  lastTick : Nat
  lastSec : Nat
  deriving DecidableEq, Repr

/-- A clock as it announces itself (spec/01 R19): identity, priority 1, class, accuracy, variance, priority 2. -/
structure Gm where
  src   : Nat
  prio1 : Nat
  cls   : Nat
  acc   : Nat
  var   : Nat
  prio2 : Nat
  deriving DecidableEq, Repr

/-- The time port (spec/01 R19, R20): `rate` is TIMEB's rate above nominal in parts in 10^9; `master` is the selected master; `interval` is the
Sync interval in nanoseconds; `epochSet` tells that EPOCHOFF has been set, `pps` is the last whole second of TIMEB + EPOCHOFF that the 1PPS
output has passed. -/
structure TimePort where
  timeb    : W64
  frac     : Nat
  epochoff : W64
  timest   : Nat
  rate     : Int
  good     : Nat
  bad      : Nat
  pathDelay : Int
  master   : Option Gm
  lastSync : Nat
  interval : Nat
  epochSet : Bool
  everLocked : Bool
  pps      : Nat
  ipv4     : BitVec 32
  ipv6     : W128
  dropped  : Nat
  deriving DecidableEq, Repr

/-- A Floe port, or the Ocile link (spec/22 R324, spec/09 R173): state 0 down, 1 up, 2 retraining. -/
structure Link where
  state   : Nat
  retries : Nat
  retrains : Nat
  comp    : Bool
  deriving DecidableEq, Repr

/-- The fuse map (spec/22 R328). -/
structure Fuses where
  ninth  : BitVec 128
  coren  : BitVec 256
  chpair : BitVec 256
  floe   : BitVec 32
  ocile  : Bool
  deriving DecidableEq, Repr

/-- Bring-up (spec/23 R342): waiting for power, waiting for a firmware image, up; or failed at the Ocile link. -/
inductive Boot where
  | off | linkDown | waitImage | badImage | up
  deriving DecidableEq, Repr

/-- A cluster store sector before a team's store to it (spec/09 R164): its key, its old bytes, the team; whether a release fence, or any
release, of that team has followed, and the cores that have acquired since. -/
structure Edit where
  key    : Nat
  old    : List Byte
  tid    : Nat
  fenced : Bool
  released : Bool
  seen   : List Nat
  deriving DecidableEq, Repr

/-- A signal operation of an agent or engine that waits for a link that retrains (spec/22 R324). -/
structure SigOp where
  ctx  : Nat
  gen  : Nat
  va   : W80
  x    : W64
  mark : Bool
  deriving DecidableEq, Repr

/-- What the outside last received: the bytes of a host load, a Floe answer, the public key (spec/08 R156, spec/18 R287,
spec/19 R295). -/
structure Outside where
  hostData : List Byte
  remoteData : List Byte
  remoteOk : Bool
  key : List Byte
  acked : Nat
  deriving DecidableEq, Repr

/-- Who moves next (log 1): an event after `dt` nanoseconds; the team that a scheduler issues; a team, if its scheduler issues it. -/
inductive Turn where
  | event (dt : Nat) (i : Instr)
  | issue (core sched : Nat)
  | pick (tid : Nat)
  deriving DecidableEq, Repr

/-- The Z9. `now` counts twelfths of a nanosecond, so that a cycle of 2.4 GHz is 5 of them. `l2clk` and `chclk` are the clocks of the L2 slices and
of the memory channel pairs. `unpowered` lists the cores (0) and channel pairs (3) that failed at bring-up (spec/23 R342); `stuck` lists the transaction barriers whose sector total has overflowed (spec/09 R167). `me` is the team in issue; the other teams are in `teams`. -/
structure State where
  me       : Team
  teams    : List Team
  cores    : Vector Core 256
  mem      : List Host.Cell
  poison   : List Nat
  dirty    : List Dirty
  clean    : List Clean
  edits    : List Edit
  sigq     : List SigOp
  tlb      : List TlbEntry
  dtlb     : List TlbEntry
  icache   : List ICell
  merges   : List Merge
  ctxs     : List Ctx
  parts    : Vector (Option (Fin 32)) 32
  copies   : List Copy
  stuck    : List Nat
  rings    : List Ring
  ringWaits : List RingWait
  waits    : List Wait
  walks    : List Walk
  gangs    : List Gang
  queues   : List Queue
  bundles  : List Bundle
  groups   : List ActGroup
  images   : List Image
  io       : Rings
  energy   : Energy
  time     : TimePort
  stallivl : W64
  pwrlim   : W64
  ptpcfg   : W64
  links    : Vector Link 33
  fuses    : Fuses
  unpowered : List (Nat × Nat)
  exports  : List (Nat × Nat)
  remotes  : List (Nat × Nat)
  members  : List Nat
  boot     : Boot
  outside  : Outside
  l2clk    : Vector Clock 256
  chclk    : Vector Clock 256
  now      : Nat
  fresh    : Nat
  nextId   : Nat
  lastStall : Nat
  lastDrain : Nat
  agenda   : List Turn
  deriving DecidableEq, Repr

/-- Cycles of 2.4 GHz since reset. -/
def State.cyc (s : State) : Nat := s.now / 5

/-- Why a step stops. Nothing that the spec describes stops the Z9: its faults are traps, which are next states. -/
inductive Fault where
  /-- Raised by `step` when the agenda, the model's own list of turns, names an instruction word where an event must
  stand. Safe: such a state is no state of the hardware. -/
  | agendaWord
  deriving DecidableEq, Repr

/-- Why a step has no meaning. -/
inductive Refusal where
  /-- Raised by `exec` for an instruction that has no meaning yet, by its mnemonic. Safe: the model stops. -/
  | notModelled (mnemonic : String)
  deriving DecidableEq, Repr

/-! ## Reset -/

/-- Registers as spec/02 R41 gives them at the start of a team of 32 × m lanes. -/
def Regs.start (m : Nat) : Regs where
  v := Vector.replicate 64 (List.replicate (32 * m) 0)
  tag := Vector.replicate 64 0
  s := Vector.replicate 64 0
  a := Vector.replicate 16 0
  p := (Vector.replicate 8 0).set 7 (BitVec.allOnes 1024)
  t := Vector.replicate 16 0
  h := Vector.replicate 4 0
  pendV := 0
  pendS := 0

/-- Trap registers before any trap (log 2). -/
def TrapRegs.zero : TrapRegs := ⟨0, 0, 0, 0, 0, 0⟩

/-- SRSTATE of a new team (spec/04 R83). -/
def srInit (teamid : W64) : W32 :=
  let x := 0x9E3779B9#32 ^^^ teamid.truncate 32
  if x = 0 then 1 else x

/-- Nothing under way. -/
def Flow.start : Flow where
  cur := ⟨false, false⟩
  packet := 0
  fetched := false
  rebuild := []
  group := ⟨none, false, false⟩
  ops := []
  hold := .none
  sw := false
  park := none
  trapPend := none
  pinned := none
  fences := []
  upcall := none
  arrived := false
  regath := none
  ended := false
  walkerr := false

/-- A kernel with no code (log 2). -/
def Kernel.zero : Kernel := ⟨0, 0, 64, 64, false, false, 64⟩

/-- The stand-in for `me` while no team has issued (log 2): it holds no place and issues nothing. -/
def Team.absent : Team where
  id := { tid := 0, teamid := 0, m := 1, ctx := 0, gen := 0, kernel := .zero, queue := none, bundle := none, sub := 0,
          gang := none, prio := 0, args := [], live := 0, pool := none }
  place := .none
  regs := .start 1
  ctl := { pc := 0, word := 0, em := 0, stack := [], asideEm := 0, aside := [], level := .user, srstate := srInit 0,
           trap := .zero, trapbase := 0 }
  flow := .start
  sch := ⟨0, 0, none, none⟩

/-- An island's clock after reset: 2.4 GHz (spec/01 R22). -/
def Clock.reset : Clock := ⟨2400, 0, 0, 0⟩

/-- A core after reset: DBGCTL 0, RUNNING, AGEIVL 65,536, no walk (spec/12 R211, spec/20 R301, R304). -/
def Core.reset : Core where
  attach := false
  brken := false
  dbg := .running
  ageivl := 65536
  clk := .reset
  mclk := .reset
  schedFree := Vector.replicate 4 0
  pipeFree := Vector.replicate 20 0
  agentIss := []
  pipe := []
  fillq := []
  walk := none
  issued := []
  held := []
  tickClk := 0
  tickMat := 0

/-- The ring registers after reset (spec/20 R301). -/
def Rings.reset : Rings where
  prqbase := 0
  prqlog := 0
  prqhead := 0
  seq := 0
  heldReq := []
  prabase := 0
  pralog := 0
  prawr := 0
  taken := 0
  logbase := 0
  logsize := 0
  loghead := 0
  logwr := 0
  held := []
  repSeq := 0
  lost := 0
  lastCE := []

/-- The time port at cold reset (spec/01 R20). -/
def TimePort.reset : TimePort where
  timeb := 0
  frac := 0
  epochoff := 0
  timest := 0
  rate := 0
  good := 0
  bad := 0
  pathDelay := 0
  master := none
  lastSync := 0
  interval := 1000000000
  epochSet := false
  everLocked := false
  pps := 0
  ipv4 := 0
  ipv6 := 0
  dropped := 0

/-- The ninth field of the fuse map, four bits for each cluster (spec/22 R328; log 12). -/
def ninthFuses : List Nat → Nat
  | [] => 0
  | c :: cs => (Config.ninth c).val * 2 ^ (4 * c) + ninthFuses cs

/-- The fuse map of a VXZ9-256 with every enabled unit present (spec/01 R3, spec/22 R328; log 12). -/
def Fuses.reset : Fuses where
  ninth := BitVec.ofNat 128 (ninthFuses (List.range 32))
  coren := BitVec.allOnes 256
  chpair := BitVec.allOnes 256
  floe := BitVec.allOnes 32
  ocile := true

/-- The chains of sealed readings at cold reset: partitions 0 to 31 and the overhead account (spec/19 R297). -/
def Chain.reset (part : Nat) : Chain where
  part := part
  boot := 0
  seq := 0
  cum := 0
  t0 := 0
  prev := List.replicate 32 0
  last := []
  core := 0
  l2 := 0
  mem := 0
  floe := 0
  ocile := 0
  residue := 0
  lines := []
  warm := false
  gap := false
  unsync := true
  held := false
  account := 0

/-- The machine right after power-good or cold reset: nothing placed, device memory zero, every register at the value of
spec/20 R301 or of log 2. -/
def State.reset : State where
  me := .absent
  teams := []
  cores := Vector.replicate 256 .reset
  mem := []
  poison := []
  dirty := []
  clean := []
  edits := []
  sigq := []
  tlb := []
  dtlb := []
  icache := []
  merges := []
  ctxs := []
  parts := Vector.replicate 32 none
  copies := []
  stuck := []
  rings := []
  ringWaits := []
  waits := []
  walks := []
  gangs := []
  queues := []
  bundles := []
  groups := []
  images := []
  io := .reset
  energy := ⟨[], (List.range 32).map Chain.reset ++ [Chain.reset 0xFFFF], [], 0, 0⟩
  time := .reset
  stallivl := 1000000000
  pwrlim := 2700
  ptpcfg := 0x700
  links := Vector.replicate 33 ⟨0, 0, 0, false⟩
  fuses := .reset
  unpowered := []
  exports := []
  remotes := []
  members := []
  boot := .off
  outside := ⟨[], [], false, [], 0⟩
  l2clk := Vector.replicate 256 .reset
  chclk := Vector.replicate 256 .reset
  now := 0
  fresh := 0
  nextId := 1
  lastStall := 0
  lastDrain := 0
  agenda := []

end Sys2Proof.Machine
end

