-- ==== Sys2Proof/Machine/Mem.lean ====
section
/-!
DEFINITION. Sys2Proof/Machine/Mem.lean: memory as cells in one canonical form, the key spaces, sectors and poison, stores
at the point of visibility with the waits that watch them, error reports and the host log ring (spec/01 R14 to R16;
spec/08 R143, R147; spec/10 R198; spec/20 R305; spec/22 R325, R327).
-/
namespace Sys2Proof.Machine
open Sys2Proof

/-! ### Keys

Every byte that the spec gives the machine has one key: device memory its physical address, the other spaces a base above
it (log 3). -/

/-- Host memory: the host physical address above 2^64. -/
def hostKey (pa : Nat) : Nat := 2 ^ 64 + pa
/-- Remote device memory: device id and physical address there. -/
def remoteKey (dev pa : Nat) : Nat := 2 ^ 65 + dev * 2 ^ 52 + pa
/-- The cluster store of a cluster (spec/01: 8 MiB). -/
def cstoreKey (cluster off : Nat) : Nat := 2 ^ 66 + cluster * 2 ^ 23 + off
/-- A typed store of a core: space 1 A-store, 2 B-store, 3 C-store, by byte offset (spec/10 R184). -/
def typedKey (core space off : Nat) : Nat := 2 ^ 67 + core * 2 ^ 22 + space * 2 ^ 20 + off

/-- Whether a key is of device memory. -/
def isDevKey (k : Nat) : Bool := k < 2 ^ 64

/-- The 32-byte sector of a key (spec/08 R149). -/
def sectorOf (k : Nat) : Nat := k / 32 * 32

/-- The home slice of a physical address (spec/01 R14). -/
def homeSlice (pa : Nat) : Nat :=
  ((pa / 2 ^ 12 % 256) ^^^ (pa / 2 ^ 20 % 256)) ^^^ ((pa / 2 ^ 28 % 256) ^^^ (pa / 2 ^ 36 % 256))

/-- The memory channel that serves a device address (spec/01 R15). -/
def channelOf (pa : Nat) : Nat := 2 * homeSlice pa + pa / 2 ^ 11 % 2

/-- The byte's offset within its channel (spec/01 R16). -/
def channelOffset (pa : Nat) : Nat := pa / 2 ^ 20 % 2 ^ 21 * 2 ^ 11 + pa % 2 ^ 11

/-! ### Cells

What an unlisted key reads as is 0: device memory is written with zeros at bring-up (spec/23 R342); for the other spaces it
is the choice of log 3. -/

/-- The canonical form: keys strictly rising, no cell equal to what an unlisted key reads as. -/
def cellsWf : List Host.Cell → Bool
  | [] => true
  | [(_, b)] => b ≠ 0
  | (k, b) :: (k', b') :: t => b ≠ 0 && k < k' && cellsWf ((k', b') :: t)

/-- The memory of a state is in canonical form. -/
def Memory.wf (m : List Host.Cell) : Bool := cellsWf m

/-- The number that the `n` bytes from key `a` make, lowest address first (spec/00 R4). -/
def readCells : List Host.Cell → Nat → Nat → Nat
  | [], _, _ => 0
  | (k, b) :: t, a, n =>
    if k < a then readCells t a n
    else if k < a + n then b.toNat * 256 ^ (k - a) + readCells t a n
    else 0

/-- The byte at a key. -/
def readCell : List Host.Cell → Nat → Byte
  | [], _ => 0
  | (k, b) :: t, a => if k = a then b else readCell t a

/-- One byte written, the canonical form kept. -/
def writeCell : List Host.Cell → Nat → Byte → List Host.Cell
  | [], a, x => if x = 0 then [] else [(a, x)]
  | (k, b) :: t, a, x =>
    if k < a then (k, b) :: writeCell t a x
    else if k = a then (if x = 0 then t else (a, x) :: t)
    else if x = 0 then (k, b) :: t
    else (a, x) :: (k, b) :: t

/-- Bytes written at their keys, in order. -/
def writePairs (m : List Host.Cell) : List (Nat × Byte) → List Host.Cell
  | [] => m
  | (a, x) :: t => writePairs (writeCell m a x) t

/-- Consecutive keys for a list of bytes. -/
def keyed (a : Nat) : List Byte → List (Nat × Byte)
  | [] => []
  | x :: t => (a, x) :: keyed (a + 1) t

/-- The `n` low bytes of a number, lowest first (spec/00 R4). -/
def leBytes : Nat → Nat → List Byte
  | 0, _ => []
  | n + 1, x => BitVec.ofNat 8 x :: leBytes n (x / 256)

/-- The number of a list of bytes, lowest first. -/
def leNat : List Byte → Nat
  | [] => 0
  | b :: t => b.toNat + 256 * leNat t

/-- A field of a record: `n` bytes at an offset. -/
def fieldAt (b : List Byte) (off n : Nat) : Nat := leNat ((b.drop off).take n)

/-- The number at a key of a state's memory, as its point of visibility holds it. -/
def State.homeNat (s : State) (a n : Nat) : Nat := readCells s.mem a n

/-- The byte at a key of a state's memory. -/
def State.homeByte (s : State) (a : Nat) : Byte := readCell s.mem a

/-- The link that an access of a key crosses: a Floe port for remote memory, the Ocile link, number 32, for host memory. -/
def linkOf (a : Nat) : Option (Fin 33) :=
  if a < 2 ^ 64 ∨ 2 ^ 66 ≤ a then none
  else if a < 2 ^ 65 then some 32
  else some ((Config.portOf ((a - 2 ^ 65) / 2 ^ 52)).castLE (by decide))

/-- The link of a key, if it is DOWN (spec/22 R324). -/
def State.linkDown (s : State) (a : Nat) : Option (Fin 33) :=
  match linkOf a with
  | some p => if s.links[p].state = 0 then some p else none
  | none => none

/-- Whether the link that a key crosses retrains, so that a request for it waits (spec/22 R324). -/
def State.linkWaits (s : State) (a : Nat) : Bool :=
  match linkOf a with
  | some p => s.links[p].state == 2
  | none => false

/-- Whether a read of a key returns poison: its sector is marked (spec/22 R325), or its link is DOWN (R324). -/
def State.poisoned (s : State) (a : Nat) : Bool := s.poison.contains (sectorOf a) || (s.linkDown a).isSome

/-- The unit of a key, for reports: kind and number (spec/22 R327). -/
def unitOf (a : Nat) : Nat × Nat :=
  if a < 2 ^ 64 then (2, homeSlice a)
  else if a < 2 ^ 66 then (match linkOf a with | some p => (if p = 32 then (5, 0) else (4, p.val)) | none => (2, 0))
  else if a < 2 ^ 67 then (1, (a - 2 ^ 66) / 2 ^ 23)
  else (0, (a - 2 ^ 67) / 2 ^ 22)

/-- The address that a report gives for a key reached by no virtual address: a physical address, a place of the cluster store,
or 0 for the typed stores. -/
def keyVa (a : Nat) : Nat := if 2 ^ 67 ≤ a then 0 else if 2 ^ 66 ≤ a then 0xFFFF * 2 ^ 64 + a % 2 ^ 23 else a

/-- The bytes that a read of `n` bytes at a key returns: all-ones in a poisoned sector (spec/22 R325). -/
def State.homeBytes (s : State) : Nat → Nat → List Byte
  | _, 0 => []
  | a, n + 1 => (if s.poisoned a then 0xFF else s.homeByte a) :: s.homeBytes (a + 1) n

/-- The number that a read of `n` bytes at a key returns (spec/22 R325), whoever reads. -/
def State.readNat (s : State) (a n : Nat) : Nat :=
  if s.poison.isEmpty ∧ (s.linkDown a).isNone then s.homeNat a n else leNat (s.homeBytes a n)

/-! ### Free values -/

/-- A fresh free value (log 4). -/
def State.draw (s : State) : Nat × State := (Config.freeNat s.fresh, { s with fresh := s.fresh + 1 })

/-- A fresh identifier: a count, not a free value. -/
def State.newId (s : State) : Nat × State := (s.nextId, { s with nextId := s.nextId + 1 })

/-! ### Waits (spec/10 R198) -/

/-- The value that a registered wait sees, if it meets the wait's condition. -/
def Wait.sees (w : Wait) (m : List Host.Cell) : Option W64 :=
  match w.kind with
  | 0 => let x := BitVec.ofNat 64 (readCells m w.key 8); if x.toInt ≤ w.arg.toInt then some x else none
  | 1 => let x := BitVec.ofNat 64 (readCells m w.key 8); if x ≠ w.arg then some x else none
  | _ =>
    let st := readCells m w.key 1
    if st = 2 ∨ st = 3 then some (BitVec.ofNat 64 (st + readCells m (w.key + 4) 4 * 2 ^ 32)) else none

/-- A wait after a store: the first satisfying value stays (spec/10 R198). -/
def Wait.look (m : List Host.Cell) (w : Wait) : Wait :=
  match w.hit with
  | some _ => w
  | none => { w with hit := w.sees m }

/-- Bytes performed at their point of visibility, seen by every wait. -/
def State.perform (s : State) (bs : List (Nat × Byte)) : State :=
  let m := writePairs s.mem bs
  { s with mem := m, waits := s.waits.map (Wait.look m) }

/-! ### The host log ring and error reports (spec/20 R305, spec/22 R327) -/

/-- The partition of a context, 0xFFFF if there is none. -/
def State.partOf (s : State) (ctx : Nat) : Nat :=
  match s.ctxs.find? (·.id == ctx) with
  | some c => c.part
  | none => 0xFFFF

/-- The 64 bytes of a report. -/
def Report.bytes (r : Report) (lost : Nat) : List Byte :=
  leBytes 4 0x45525A56 ++ leBytes 2 1 ++ leBytes 1 r.kind ++ leBytes 1 r.unit ++ leBytes 8 r.seq ++ leBytes 8 r.time ++
    leBytes 2 r.index ++ leBytes 2 r.part ++ leBytes 4 r.ctx ++ leBytes 4 r.gen ++ leBytes 4 r.detail ++
    leBytes 10 r.addr ++ leBytes 6 0 ++ leBytes 4 r.count ++ leBytes 4 lost

/-- Where a record of `n` bytes goes in the log ring and what it skips, if there is room (spec/20 R305): a record that would
cross the end starts at offset 0; one slot of 64 bytes stays free, so that a full ring differs from an empty one. -/
def Rings.logPlace (r : Rings) (n : Nat) : Option (Nat × Nat) :=
  let size := r.logsize.toNat
  let len := (n + 63) / 64 * 64
  if r.logbase = 0 ∨ size = 0 then none
  else
    let skip := if size < r.logwr + len then size - r.logwr else 0
    let used := (r.logwr + size - r.loghead.toNat % size) % size
    if used + skip + len < size then some ((r.logwr + skip) % size, skip) else none

/-- A record written into the log ring as a release at system scope, if there is room and the Ocile link is up. -/
def State.logWrite (s : State) (bs : List Byte) : Option State :=
  match (if s.links[32].state = 1 then s.io.logPlace bs.length else none) with
  | none => none
  | some (off, skip) =>
    let base := hostKey s.io.logbase.toNat
    let s1 := s.perform (keyed (base + s.io.logwr) (List.replicate skip 0) ++ keyed (base + off) bs)
    let len := (bs.length + 63) / 64 * 64
    some { s1 with io := { s1.io with logwr := (off + len) % s.io.logsize.toNat } }

/-- The bytes of a held record, with the count of reports that a report carries as lost. -/
def Held.bytes (lost : Nat) : Held → List Byte
  | .reading _ bs => bs
  | .report r => r.bytes lost

/-- Whether a held record is a report. -/
def Held.isReport : Held → Bool
  | .reading _ _ => false
  | .report _ => true

/-- Held records written while there is room, oldest first (spec/23 R341). -/
def State.flushLogN : Nat → State → State
  | 0, s => s
  | n + 1, s =>
    match s.io.held with
    | r :: rs =>
      match s.logWrite (r.bytes s.io.lost) with
      | some s1 => State.flushLogN n { s1 with io := { s1.io with held := rs, lost := if r.isReport then 0 else s1.io.lost } }
      | none => s
    | [] => s

/-- Every record that the ring has room for is written. -/
def State.flushLog (s : State) : State := s.flushLogN s.io.held.length

/-- Reports held. -/
def Rings.heldReports (r : Rings) : Nat := (r.held.filter Held.isReport).length

/-- A report taken up, with its number: held, at most 256, later ones counted as lost, and written as room allows (spec/22 R327). -/
def State.post (s : State) (r : Report) : State :=
  let io := { s.io with repSeq := s.io.repSeq + 1 }
  if s.io.heldReports < 256 then
    State.flushLog { s with io := { io with held := io.held ++ [.report { r with seq := s.io.repSeq }] } }
  else { s with io := { io with lost := io.lost + 1 } }

/-- The report of an event that is detected now. -/
def State.mkReport (s : State) (kind unit index ctx gen detail addr : Nat) : Report :=
  ⟨kind, unit, 0, s.time.timeb.toNat, index, (if ctx = 0xFFFFFFFF then 0xFFFF else s.partOf ctx), ctx, gen, detail, addr, 1⟩

/-- An error report (spec/22 R327). -/
def State.report (s : State) (kind unit index ctx gen detail addr : Nat) : State := s.post (s.mkReport kind unit index ctx gen detail addr)

/-- Correctable events that a unit has waiting, with one more. -/
def Report.more (r : Report) : Option Report → Report
  | some x => { x with count := x.count + 1 }
  | none => r

/-- A correctable report: at most one of a unit in each second (spec/22 R327). Later events of the second are merged into one report, which
follows at the next whole second. -/
def State.reportCE (s : State) (unit index addr : Nat) : State :=
  let sec := s.time.timeb.toNat / 1000000000
  let r := s.mkReport 1 unit index 0xFFFFFFFF 0 0 addr
  let rest := s.io.lastCE.filter (·.1 != (unit, index))
  match s.io.lastCE.find? (·.1 == (unit, index)) with
  | some (_, t, waiting) =>
    if t = sec then { s with io := { s.io with lastCE := ((unit, index), sec, some (r.more waiting)) :: rest } }
    else State.post { s with io := { s.io with lastCE := ((unit, index), sec, none) :: rest } } (match waiting with | some _ => r.more waiting | none => r)
  | none => State.post { s with io := { s.io with lastCE := ((unit, index), sec, none) :: rest } } r

/-- The correctable reports that earlier seconds have left waiting, or all that wait. -/
def State.flushCE (s : State) (all : Bool) : State :=
  let sec := s.time.timeb.toNat / 1000000000
  (s.io.lastCE.filter fun x => (all || x.2.1 != sec) && x.2.2.isSome).foldl (fun s x =>
    let s1 : State := { s with io := { s.io with lastCE := s.io.lastCE.map fun y => if y.1 = x.1 then (x.1, sec, none) else y } }
    match x.2.2 with
    | some r => s1.post r
    | none => s1) s

/-! ### Stores, loads and atomics at home -/

/-- The report of an access that meets poison, or a link that is DOWN, at a virtual address (spec/22 R324, R325, R327). -/
def State.poisonReport (s : State) (ctx gen va a : Nat) : State :=
  match s.linkDown a with
  | some _ => s.report 3 (unitOf a).1 (unitOf a).2 ctx gen 0 va
  | none => s.report 4 (unitOf a).1 (unitOf a).2 ctx gen 0 va

/-- Bytes of one sector stored at home, at a virtual address (spec/22 R324, R325): over a link that is DOWN they are dropped and
reported; a whole sector clears the poison; a part of a poisoned sector is dropped and reported. -/
def State.storeSector (s : State) (ctx gen va : Nat) (bs : List (Nat × Byte)) : State :=
  match bs with
  | [] => s
  | (a, _) :: _ =>
    if (s.linkDown a).isSome then s.poisonReport ctx gen va a
    else if s.poisoned a then
      if bs.length = 32 then ({ s with poison := s.poison.filter (· != sectorOf a) }).perform bs
      else s.poisonReport ctx gen va a
    else s.perform bs

/-- Bytes split at sector boundaries (spec/08 R149), in ascending keys. -/
def splitSectors : List (Nat × Byte) → List (List (Nat × Byte))
  | [] => []
  | (a, x) :: t =>
    match splitSectors t with
    | [] => [[(a, x)]]
    | [] :: gs => [(a, x)] :: gs
    | ((a', x') :: g) :: gs =>
      if sectorOf a = sectorOf a' then ((a, x) :: (a', x') :: g) :: gs else [(a, x)] :: ((a', x') :: g) :: gs

/-- A store at home, sector by sector; `va` is the virtual address of its first byte. -/
def State.homeStore (s : State) (ctx gen va : Nat) (bs : List (Nat × Byte)) : State :=
  match bs with
  | [] => s
  | (a, _) :: _ => (splitSectors bs).foldl (fun s g => s.storeSector ctx gen (va + ((g.headD (a, 0)).1 - a)) g) s

/-- A number stored at home by an agent, engine or the device. -/
def State.homePut (s : State) (a n x : Nat) : State := s.homeStore 0xFFFFFFFF 0 a (keyed a (leBytes n x))

/-- A load report of poison (spec/22 R325): one POISON report. -/
def State.loadPoison (s : State) (ctx gen va a n : Nat) : State :=
  if s.poisoned a ∨ s.poisoned (a + n - 1) then s.poisonReport ctx gen va a else s

/-- An atomic at home: old value, and the new one performed; a poisoned location is not written, returns all-ones and is
reported (spec/08 R150, spec/22 R325). -/
def State.homeAtomic (s : State) (ctx gen va a n : Nat) (f : Nat → Nat) : Nat × State :=
  if s.poisoned a then (2 ^ (8 * n) - 1, s.poisonReport ctx gen va a)
  else
    let old := s.homeNat a n
    (old, s.perform (keyed a (leBytes n (f old))))

end Sys2Proof.Machine
end

