-- ==== Sys2Proof/Machine/Trans.lean ====
section
/-!
DEFINITION. Sys2Proof/Machine/Trans.lean: contexts, page tables, access decisions, cached translations and the merge table
with its page requests (spec/18 R273 to R287, spec/01 R16, spec/20 R305).
-/
namespace Sys2Proof.Machine
open Sys2Proof

/-- The kinds of access that a leaf decides (spec/18 R277). -/
inductive Access where
  | load | store | atomic | fetch
  deriving DecidableEq, Repr

/-- What a walk of the tables finds: a valid leaf; a leaf that is ABSENT; a host-serviced fault with its cause of spec/18 R284; a malformed entry. -/
inductive WalkRes where
  | leaf (l : Leaf)
  | away (l : Leaf)
  | host (cause : Nat)
  | bad
  deriving DecidableEq, Repr

/-- What an access comes to (spec/18 R277, R287): a key; a host-serviced fault with its cause; a fault's class and detail. -/
inductive Trans where
  | ok (key : Nat) (loc : Nat)
  | host (cause : Nat)
  | fault (cls detail : Nat)
  deriving DecidableEq, Repr

/-! ### The walk (spec/18 R274 to R277) -/

/-- Bytes that a page of a size code maps (spec/18 R276). -/
def pageBytes : Nat → Nat
  | 0 => 2 ^ 12
  | 1 => 2 ^ 16
  | 2 => 2 ^ 21
  | _ => 2 ^ 30

/-- The leaf of a 64-byte entry `e` at physical address `pa`. -/
def leafOf (e pa : Nat) : Leaf where
  frame := e / 2 ^ 64 % 2 ^ 64
  size := e / 4 % 8
  loc := e / 2 ^ 9 % 4
  mig := e / 2 ^ 11 % 4
  cow := flag e 8
  x := flag e 7
  w := flag e 6
  r := flag e 5
  sr := flag e 13
  devid := e / 2 ^ 128 % 2 ^ 16
  frec := e / 2 ^ 192 % 2 ^ 64
  entry := pa

/-- Whether a leaf keeps what spec/18 R275 to R277 require of it at its level. -/
def leafLegal (e : Nat) (level : Nat) (l : Leaf) : Bool :=
  e % 2 ^ 64 / 2 ^ 14 == 0 && l.loc != 3 && l.mig != 3 &&
  l.frame % 2 ^ 12 == 0 && l.frame < 2 ^ 52 &&
  e / 2 ^ 144 % 2 ^ 48 == 0 && e / 2 ^ 320 == 0 &&
  (l.sr || l.frec == 0) && (l.loc == 2 || l.devid == 0) && l.devid < 1024 &&
  (match level with
    | 0 => l.size == 0 || l.size == 1
    | 1 => l.size == 2
    | 2 => l.size == 3
    | _ => false)

/-- The walk from a node, given how 64 bytes are read and the levels that remain with the bit at which each index starts
(spec/18 R274). -/
def walkFrom (rd : Nat → Nat) (va : Nat) : List (Nat × Nat × Nat) → Nat → WalkRes
  | [], _ => .bad
  | (level, lo, width) :: rest, node =>
    let pa := node + va / 2 ^ lo % 2 ^ width * 64
    let e := rd pa
    if e % 2 = 0 then .host 0
    else if flag e 1 then
      let l := leafOf e pa
      if l.mig = 2 then .away l
      else if leafLegal e level l then .leaf l else .bad
    else if e % 2 ^ 64 / 4 = 0 ∧ e / 2 ^ 128 = 0 ∧ e / 2 ^ 64 % 2 ^ 64 < 2 ^ 52 ∧ e / 2 ^ 64 % 2 ^ 15 = 0 then walkFrom rd va rest (e / 2 ^ 64 % 2 ^ 64)
    else .bad

/-- The seven levels: number, lowest index bit, index width. -/
def levels : List (Nat × Nat × Nat) :=
  [(6, 66, 14), (5, 57, 9), (4, 48, 9), (3, 39, 9), (2, 30, 9), (1, 21, 9), (0, 12, 9)]

/-- An entry as the walker reads it: a poisoned half reads as all-ones (spec/22 R325). -/
def State.entry (s : State) (pa : Nat) : Nat := s.readNat pa 64

/-- The walk of a virtual address from a context's root. -/
def State.walkTables (s : State) (root va : Nat) : WalkRes := walkFrom s.entry va levels root

/-! ### Contexts -/

/-- A context's descriptor. -/
def State.ctx? (s : State) (c : Nat) : Option Ctx := s.ctxs.find? (·.id == c)

/-- A live context of a generation. -/
def State.liveCtx? (s : State) (c g : Nat) : Option Ctx := s.ctxs.find? fun x => x.id == c && x.gen == g && x.cstate == 1

/-- A context's descriptor changed. -/
def State.updCtx (s : State) (c : Nat) (f : Ctx → Ctx) : State :=
  { s with ctxs := s.ctxs.map fun x => if x.id = c then f x else x }

/-! ### The decision (spec/18 R277, R287; spec/01 R16) -/

/-- Whether a physical address is device memory (spec/01 R16, spec/22 R329). -/
def State.isDevice (s : State) (pa : Nat) : Bool :=
  pa < 2 ^ 41 && s.fuses.chpair.getLsbD (homeSlice pa) && !s.unpowered.contains (3, homeSlice pa)

/-- The physical address of a virtual address within a leaf's frame. -/
def Leaf.pa (l : Leaf) (va : Nat) : Nat := l.frame + va % pageBytes l.size

/-- An access of a kind through a leaf, by the first row of the table that applies. -/
def State.permit (s : State) (l : Leaf) (k : Access) (va : Nat) : Trans :=
  let pa := l.pa va
  if l.loc = 0 ∧ ¬ s.isDevice pa then .fault 3 4
  else if (k = .load ∨ k = .atomic) ∧ ¬ l.r then .fault 4 0
  else if k = .fetch ∧ ¬ l.x then .fault 4 0
  else if (k = .store ∨ k = .atomic) ∧ l.cow then .fault 5 0
  else if (k = .store ∨ k = .atomic) ∧ ¬ l.w then .fault 4 0
  else if (k = .store ∨ k = .atomic) ∧ l.mig = 1 then .host 2
  else if l.loc = 0 then .ok pa 0
  else if l.loc = 1 then (if k = .atomic then .fault 4 1 else .ok (hostKey pa) 1)
  else if ¬ s.members.contains l.devid then .fault 3 2
  else if ¬ s.remotes.contains (l.devid, pa / 2 ^ 12) then .fault 4 4
  else .ok (remoteKey l.devid pa) 2

/-! ### Cached translations (spec/18 R282) -/

/-- Whether an entry of the TLB of a unit translates an address of a context's generation. -/
def TlbEntry.hits (e : TlbEntry) (unit ctx gen va : Nat) : Bool :=
  e.unit == unit && e.ctx == ctx && e.gen == gen && e.page == va / pageBytes e.size

/-- Whether an entry of a context translates an address of a range. -/
def TlbEntry.inRange (e : TlbEntry) (ctx lo n : Nat) : Bool :=
  e.ctx == ctx && decide (lo < (e.page + 1) * pageBytes e.size) && decide (e.page * pageBytes e.size < lo + n)

/-- An entry put into a TLB of a unit that holds at most `cap`, in the place of those that translate its address; in a full one, in the place
of an entry that a free value selects (log 7). -/
def tlbPut (cap x : Nat) (e : TlbEntry) (va : Nat) (l : List TlbEntry) : List TlbEntry :=
  let rest := l.filter fun y => !y.hits e.unit e.ctx e.gen va
  let mine := rest.filter (·.unit == e.unit)
  if mine.length < cap then e :: rest else e :: rest.filter (· != mine.getD (x % cap) e)

/-- The entries for an address dropped from the TLBs of a cluster and of its die. -/
def State.dropLeaf (s : State) (cl ctx gen va : Nat) : State :=
  { s with
    tlb := s.tlb.filter fun e => !e.hits cl ctx gen va
    dtlb := s.dtlb.filter fun e => !e.hits (cl / 4) ctx gen va }

/-- Whether a TLB of a unit is full. -/
def tlbFull (cap unit : Nat) (l : List TlbEntry) : Bool := decide (cap ≤ (l.filter (·.unit == unit)).length)

/-- A leaf put into the TLB of a cluster, 4,096 entries, and, where a walk found it, into that of its die, 32,768 entries (spec/18 R282). -/
def State.cacheLeaf (s : State) (cl ctx gen va : Nat) (l : Leaf) (walked : Bool) : State :=
  let e : TlbEntry := ⟨cl, ctx, gen, va / pageBytes l.size, l.size, l⟩
  let (x, s1) := if tlbFull 4096 cl s.tlb ∨ (walked ∧ tlbFull 32768 (cl / 4) s.dtlb) then s.draw else (0, s)
  { s1 with
    tlb := tlbPut 4096 x e va s1.tlb
    dtlb := if walked then tlbPut 32768 x { e with unit := cl / 4 } va s1.dtlb else s1.dtlb }

/-- The leaf that the TLBs of a cluster and of its die hold for an address, the cluster's first (spec/18 R282). -/
def State.cached (s : State) (cl ctx gen va : Nat) : Option (Leaf × Bool) :=
  match s.tlb.find? (·.hits cl ctx gen va) with
  | some e => some (e.leaf, true)
  | none =>
    match s.dtlb.find? (·.hits (cl / 4) ctx gen va) with
    | some e => some (e.leaf, false)
    | none => none

/-- The walk's result as the access sees it: of the cluster's TLB, of the die's TLB, or of the tables. Where a cached leaf differs from what the
tables hold now, which of the two serves the access is a free value until a shootdown removes it (spec/18 R282, R286; log 7). -/
def State.lookup (s : State) (cl ctx gen va : Nat) : WalkRes × State :=
  match s.liveCtx? ctx gen with
  | none => (.host 0, s)
  | some c =>
    let now := s.walkTables c.root va
    let walk (s : State) : WalkRes × State :=
      match now with
      | .leaf l => (now, s.cacheLeaf cl ctx gen va l true)
      | _ => (now, s)
    match s.cached cl ctx gen va with
    | none => walk s
    | some (l, near) =>
      let keep (s : State) : State := if near then s else s.cacheLeaf cl ctx gen va l false
      if now = .leaf l then (now, keep s)
      else
        let (x, s1) := s.draw
        if x % 2 = 0 then (.leaf l, keep s1) else walk (s1.dropLeaf cl ctx gen va)

/-- An access of a context from a cluster (spec/18 R277). -/
def State.translate (s : State) (cl ctx gen : Nat) (k : Access) (va : Nat) : Trans × State :=
  match s.lookup cl ctx gen va with
  | (.host c, s1) => (.host c, s1)
  | (.away _, s1) => (.host 1, s1)
  | (.bad, s1) => (.fault 3 0, s1)
  | (.leaf l, s1) => (s1.permit l k va, s1)

/-- Every byte range in one page of a virtual address range: start and length, for ranges of at most `fuel` pages. -/
def pages : Nat → Nat → Nat → List (Nat × Nat)
  | 0, _, _ => []
  | f + 1, va, n =>
    if n = 0 then []
    else
      let k := min n (2 ^ 12 - va % 2 ^ 12)
      (va, k) :: pages f (va + k) (n - k)

/-! ### The merge table and page requests (spec/18 R283, R284; spec/20 R305) -/

/-- The access kind of a page request record. -/
def Access.code : Access → Nat
  | .load => 1
  | .store => 2
  | .fetch => 4
  | .atomic => 8

/-- The lowest merge table entry of a die that is free. -/
def State.freeMte (s : State) (die : Nat) : Option Nat :=
  (List.range 1024).find? fun m => !s.merges.any fun e => e.die == die && e.mte == m

/-- The 64 bytes of a page request record. -/
def prqBytes (ctx gen page mte : Nat) (k : Access) (cause seq die : Nat) : List Byte :=
  leBytes 4 ctx ++ leBytes 4 gen ++ leBytes 10 (page * 2 ^ 12) ++ leBytes 6 0 ++ leBytes 2 mte ++ leBytes 1 k.code ++
    leBytes 1 cause ++ leBytes 4 seq ++ leBytes 1 die ++ leBytes 31 0

/-- Held page request records written in seq order while the ring has room (spec/20 R305). -/
def State.flushPrqN : Nat → State → State
  | 0, s => s
  | n + 1, s =>
    match s.io.heldReq with
    | [] => s
    | r :: rs =>
      let size := 2 ^ s.io.prqlog.toNat
      if s.io.prqbase ≠ 0 ∧ s.links[32].state = 1 ∧ (r.seq + 2 ^ 32 - s.io.prqhead.toNat % 2 ^ 32) % 2 ^ 32 < size then
        let s1 := s.perform (keyed (hostKey (s.io.prqbase.toNat + 64 * (r.seq % size))) r.bytes)
        State.flushPrqN n { s1 with io := { s1.io with heldReq := rs } }
      else s

/-- Every held record that the ring has room for is written. -/
def State.flushPrq (s : State) : State := s.flushPrqN s.io.heldReq.length

/-- A host-serviced fault on a page: the merge entry that it joins or allocates, with its page request; none when the table
is full (spec/18 R283). -/
def State.merge (s : State) (die ctx gen page : Nat) (k : Access) (cause : Nat) (engine : Bool) : Option Nat × State :=
  match s.merges.find? fun e => e.die == die && e.ctx == ctx && e.gen == gen && e.page == page with
  | some e =>
    (some e.uid, { s with merges := s.merges.map fun x => if x.uid = e.uid then { x with engine := x.engine || engine } else x })
  | none =>
    match s.freeMte die with
    | none => (none, s)
    | some m =>
      let (uid, s1) := s.newId
      let rec_ : PrqRec := ⟨s1.io.seq, prqBytes ctx gen page m k cause s1.io.seq die⟩
      (some uid, State.flushPrq { s1 with
        merges := s1.merges ++ [⟨uid, die, m, ctx, gen, page, engine⟩],
        io := { s1.io with seq := (s1.io.seq + 1) % 2 ^ 32, heldReq := s1.io.heldReq ++ [rec_] } })

/-! ### Accesses of agents and engines -/

/-- A virtual address as an agent or engine reaches it, with no cluster store (spec/09 R346, spec/14 R240). -/
def State.agentKey (s : State) (ctx gen : Nat) (k : Access) (va : W80) : Option Nat :=
  match s.liveCtx? ctx gen with
  | none => none
  | some c =>
    match s.walkTables c.root va.toNat with
    | .leaf l =>
      match s.permit l k va.toNat with
      | .ok key _ => some key
      | _ => none
    | _ => none

/-- The leaf of a page in a context, if valid. -/
def State.leafAt (s : State) (ctx gen : Nat) (va : Nat) : Option Leaf :=
  match s.liveCtx? ctx gen with
  | none => none
  | some c =>
    match s.walkTables c.root va with
    | .leaf l => some l
    | _ => none

/-- The leaf of a page in a context, valid or ABSENT. -/
def State.leafEntry (s : State) (ctx gen : Nat) (va : Nat) : Option Leaf :=
  match s.liveCtx? ctx gen with
  | none => none
  | some c =>
    match s.walkTables c.root va with
    | .leaf l => some l
    | .away l => some l
    | _ => none

/-- Whether a signal address passes the check of spec/14 R240: a writable leaf of location class device or remote. -/
def State.signalOk (s : State) (ctx gen : Nat) (va : W80) : Bool :=
  match s.leafAt ctx gen va.toNat with
  | none => false
  | some l => l.w && !l.cow && l.mig == 0 && ((l.loc == 0 && s.isDevice (l.pa va.toNat)) || l.loc == 2)

/-- A number read by an agent in a context; none where it does not translate. A read may cross pages. -/
def State.agentRead (s : State) (ctx gen : Nat) (va : W80) (n : Nat) : Option Nat :=
  (pages 64 va.toNat n).foldr (fun (a, k) acc =>
    match acc, s.agentKey ctx gen .load (BitVec.ofNat 80 a) with
    | some hi, some key => some (s.readNat key k + 256 ^ k * hi)
    | _, _ => none) (some 0)

/-- A number stored by an agent in a context; unchanged where it does not translate. -/
def State.agentWrite (s : State) (ctx gen : Nat) (va : W80) (n x : Nat) : State :=
  match s.agentKey ctx gen .store va with
  | some key => s.homeStore ctx gen va.toNat (keyed key (leBytes n x))
  | none => s

/-- A signal operation of an agent or engine: x added, bit 63 set in the same atomic when `mark` (spec/01 R23); refused or
foreign signals are reported as SIGLOST (spec/14 R240); over a link that retrains it waits (spec/22 R324). -/
def State.signalAdd (s : State) (ctx gen : Nat) (va : W80) (x : W64) (mark : Bool) : State :=
  match s.agentKey ctx gen .atomic va with
  | some key =>
    if s.linkWaits key then { s with sigq := s.sigq ++ [⟨ctx, gen, va, x, mark⟩] }
    else
    (s.homeAtomic ctx gen va.toNat key 8 fun old =>
      let y := BitVec.ofNat 64 old + x
      (if mark then y ||| (1#64 <<< 63) else y).toNat).2
  | none => s.report 10 2 0 ctx gen 0 va.toNat

/-- The signal operations that waited for a link, made again. -/
def State.retrySignals (s : State) : State := s.sigq.foldl (fun s o => s.signalAdd o.ctx o.gen o.va o.x o.mark) { s with sigq := [] }

/-- A signal decremented by 1 (spec/01 R23). -/
def State.signalDec (s : State) (ctx gen : Nat) (va : W80) (mark : Bool) : State := s.signalAdd ctx gen va (-1) mark

end Sys2Proof.Machine
end

