-- ==== Sys2Proof/Machine/Cache.lean ====
section
/-!
DEFINITION. Sys2Proof/Machine/Cache.lean: teams by identifier, and the L1 of each core: dirty sectors with their owner,
clean sectors, write-backs and their deferred faults, loads, stores and atomics of a team, releases and acquires
(spec/08 R143 to R159, spec/18 R282, R286).
-/
namespace Sys2Proof.Machine
open Sys2Proof

/-! ### Teams by identifier -/

/-- The core that a team is on; core 0 for a team that is on none. -/
def Team.core (t : Team) : Nat :=
  match t.place with
  | .on c _ _ => c
  | .agent c => c
  | _ => 0

/-- The scheduler that a team is on. -/
def Team.sched (t : Team) : Nat :=
  match t.place with
  | .on _ s _ => s
  | _ => 0

/-- The cluster of a team's core (spec/01 R11). -/
def Team.cluster (t : Team) : Nat := t.core / 8

/-- The die of a cluster (spec/01 R10). -/
def dieOf (cluster : Nat) : Nat := cluster / 4

/-- Whether a team holds a slot. -/
def Team.placed (t : Team) : Bool :=
  match t.place with
  | .on _ _ _ => true
  | .agent _ => true
  | _ => false

/-- Whether a team has ended. -/
def Team.ended (t : Team) : Bool := t.flow.ended || t.place == .ended

/-- A team whose wait has completed: if it is evicted, it is ready for restore (spec/12 R215). -/
def Team.waitOver (t : Team) (cyc : Nat) : Team :=
  if t.place = .evicted then { t with sch := { t.sch with ready := some (t.sch.ready.getD cyc) } } else t

/-- Lanes of a team (spec/12 R200). -/
def Team.width (t : Team) : Nat := 32 * t.id.m

/-- Every team, the one in issue first. -/
def State.all (s : State) : List Team := s.me :: s.teams

/-- A team by identifier. -/
def State.team? (s : State) (tid : Nat) : Option Team := s.all.find? (·.id.tid == tid)

/-- A team changed, wherever it is held. -/
def State.updTeam (s : State) (tid : Nat) (f : Team → Team) : State :=
  { s with
    me := if s.me.id.tid = tid then f s.me else s.me
    teams := s.teams.map fun t => if t.id.tid = tid then f t else t }

/-- A core's record. -/
def State.core (s : State) (c : Nat) : Core := s.cores[c % 256]'(Nat.mod_lt _ (by decide))

/-- The cycle of an island at a moment. -/
def Clock.at_ (k : Clock) (now : Nat) : Nat := k.base + (k.frac + (now - k.since) * k.mhz) / 12000

/-- An island's frequency set at a moment (spec/19 R298). -/
def Clock.set (k : Clock) (now mhz : Nat) : Clock := ⟨mhz, k.at_ now, (k.frac + (now - k.since) * k.mhz) % 12000, now⟩

/-- The cycle of a core's SIMT island, in which its schedulers issue. -/
def State.coreCyc (s : State) (c : Nat) : Nat := (s.core c).clk.at_ s.now

/-- The cycle of a core's matrix island. -/
def State.matCyc (s : State) (c : Nat) : Nat := (s.core c).mclk.at_ s.now

/-- A core's record changed. -/
def State.updCore (s : State) (c : Nat) (f : Core → Core) : State :=
  { s with cores := s.cores.set (c % 256) (f (s.core c)) (Nat.mod_lt _ (by decide)) }

/-- A known queue. -/
def State.queue? (s : State) (q : Nat) : Option Queue := s.queues.find? (·.id == q)

/-- A queue changed. -/
def State.updQueue (s : State) (q : Nat) (f : Queue → Queue) : State :=
  { s with queues := s.queues.map fun x => if x.id = q then f x else x }

/-- A bundle that is not yet retired. -/
def State.bundle? (s : State) (b : Nat) : Option Bundle := s.bundles.find? (·.id == b)

/-- A bundle changed. -/
def State.updBundle (s : State) (b : Nat) (f : Bundle → Bundle) : State :=
  { s with bundles := s.bundles.map fun x => if x.id = b then f x else x }

/-- A queue's error signal decremented (spec/14 R245, R248). -/
def State.errsig (s : State) (q : Nat) : State :=
  match s.queue? q with
  | some x => s.signalDec x.ctx x.gen x.errsig false
  | none => s

/-! ### Write-backs (spec/08 R159) -/

/-- The bit of a byte within its 128-byte line. -/
def lineMask (va : W80) (bs : List (Nat × Byte)) : W128 :=
  bs.foldl (fun m (k, _) => m ||| (1#128 <<< ((va.toNat + k % 32) % 128))) 0

/-- The sector of a core that holds a key dirty. -/
def State.dirtyAt (s : State) (core key : Nat) : Option Dirty :=
  s.dirty.find? fun d => d.core == core && d.key == sectorOf key

/-- A core's copies of a sector dropped. -/
def State.dropClean (s : State) (core key : Nat) : State :=
  { s with clean := s.clean.filter fun c => !(c.core == core && c.key == sectorOf key) }

/-- A dirty sector removed. -/
def State.dropDirty (s : State) (d : Dirty) : State :=
  { s with dirty := s.dirty.filter fun x => !(x.core == d.core && x.key == d.key) }

/-- A sector pinned: its team takes the deferred write-back fault, and no clean copy of it stays in the core (spec/08 R159,
spec/22 R323). -/
def State.pin (s : State) (d : Dirty) (byRel : Bool) : State :=
  let mark (x : Dirty) : Dirty := if x.core = d.core ∧ x.key = d.key then { x with pinned := true } else x
  let s1 : State := ({ s with dirty := s.dirty.map mark }).dropClean d.core d.key
  s1.updTeam d.tid fun t => { t with flow := { t.flow with
    pinned :=
      match t.flow.pinned with
      | some p => some p
      | none => some ⟨BitVec.ofNat 80 (d.va.toNat / 128 * 128), byRel, false⟩ } }

/-- The pinned sectors of a team. -/
def State.pinnedOf (s : State) (tid : Nat) : List Dirty := s.dirty.filter fun d => d.tid == tid && d.pinned

/-- The byte mask of a team's pinned line (spec/22 R323). -/
def State.pinMask (s : State) (tid : Nat) (line : W80) : W128 :=
  ((s.pinnedOf tid).filter fun d => d.va.toNat / 128 == line.toNat / 128).foldl (fun m d => m ||| lineMask d.va d.bytes) 0

/-- A pinned or dirty sector whose team has ended: dropped, on the queue's error signal, and reported (spec/22 R323). -/
def State.lose (s : State) (d : Dirty) : State :=
  let s1 := s.dropDirty d
  let s2 :=
    match d.queue with
    | some q => s1.errsig q
    | none => s1
  s2.report 9 0 d.core d.ctx d.gen 0 d.va.toNat

/-- Whether a team's later faults can reach it: it is known and has not ended. -/
def State.alive (s : State) (tid : Nat) : Bool :=
  match s.team? tid with
  | some t => !t.ended && t.place != .none
  | none => false

/-- A dirty sector written back under the permission it was written with (spec/18 R286). -/
def State.writeBackOld (s : State) (d : Dirty) : State :=
  ((s.dropDirty d).dropClean d.core d.key).homeStore d.ctx d.gen (d.va.toNat + (d.bytes.headD (0, 0)).1 % 32) d.bytes

/-- The context number of the agent slot, which has no context. -/
def noCtx : Nat := 0xFFFF

/-- One dirty sector written back, translated when it is made, to the sector that its address then names; on a page that is not
writable it is pinned and false is returned (spec/08 R155, R159). The agent slot's stores have physical addresses (log 10). -/
def State.writeBack (s : State) (d : Dirty) (byRel : Bool) : State × Bool :=
  if d.ctx = noCtx then (s.writeBackOld d, true)
  else
    match s.translate (d.core / 8) d.ctx d.gen .store d.va.toNat with
    | (.ok key _, s1) =>
      (((s1.dropDirty d).dropClean d.core d.key).homeStore d.ctx d.gen
        (d.va.toNat + (d.bytes.headD (0, 0)).1 % 32) (d.bytes.map fun (k, b) => (key + k % 32, b)), true)
    | (_, s1) => (if s1.alive d.tid then s1.pin d byRel else s1.lose d, false)

/-- Every dirty sector that a test selects written back; false if any is pinned. -/
def State.writeBackAll (s : State) (byRel : Bool) : List Dirty → State × Bool
  | [] => (s, true)
  | d :: ds =>
    let (s1, ok) := s.writeBack d byRel
    let (s2, ok2) := s1.writeBackAll byRel ds
    (s2, ok && ok2)

/-- The sector of a key, if it is dirty for another team of the core, written back first (spec/08 R148); a pinned sector is
left (R159). -/
def State.touch (s : State) (core tid key : Nat) : State :=
  match s.dirtyAt core key with
  | some d => if d.tid = tid ∨ d.pinned then s else (s.writeBack d false).1
  | none => s

/-- Copies of a physical line held in the cluster under another tag: written back if dirty, then invalidated (spec/18
R282). -/
def State.retag (s : State) (core key ctx gen : Nat) (va : W80) : State :=
  let other (c g : Nat) (v : W80) : Bool := !(c == ctx && g == gen && v.toNat / 128 == va.toNat / 128)
  let ds := s.dirty.filter fun d =>
    d.core / 8 == core / 8 && d.key / 128 == key / 128 && !d.pinned && other d.ctx d.gen d.va
  let s1 := (s.writeBackAll false ds).1
  { s1 with clean := s1.clean.filter fun c =>
      !(c.core / 8 == core / 8 && c.key / 128 == key / 128 && other c.ctx c.gen c.va) }

/-! ### A team's bytes -/

/-- Bytes laid over a sector's bytes, which start at key `base`. -/
def overlay (base : Nat) (bs : List Byte) (new : List (Nat × Byte)) : List Byte :=
  new.foldl (fun acc (k, x) => acc.set (k - base) x) bs

/-- The bytes that the core's clean copy or the home slice gives for a sector. Where they differ, which of them serves the
load is a free value (spec/08 R155; log 6); a load that reads the home slice keeps what it read. -/
def State.fillSector (s : State) (core ctx gen : Nat) (va : W80) (sec : Nat) : List Byte × State :=
  let now := s.homeBytes sec 32
  match s.clean.find? fun c => c.core == core && c.key == sec with
  | some c =>
    if c.bytes = now then (now, s)
    else
      let (x, s1) := s.draw
      if x % 2 = 0 then (c.bytes, s1)
      else (now, { s1 with clean := s1.clean.map fun y => if y.core = core ∧ y.key = sec then { y with bytes := now } else y })
  | none => (now, { s with clean := ⟨core, sec, ctx, gen, va, now⟩ :: s.clean })

/-- The sector of a key as a team of a core loads it (spec/08 R146 to R149): its own bytes over what the core or the home slice gives;
the home slice alone where another team's data is pinned (R159). `loc` is the location class, 3 for cluster store, which is not cached. -/
def State.loadSector (s : State) (core tid ctx gen : Nat) (va : W80) (key loc : Nat) : List Byte × State :=
  let sec := sectorOf key
  if loc = 3 then (s.homeBytes sec 32, s)
  else
    let s1 := (s.touch core tid key).retag core key ctx gen va
    let sva := BitVec.ofNat 80 (va.toNat - key % 32)
    match s1.dirtyAt core key with
    | some d =>
      if d.tid = tid then
        let (bs, s2) := s1.fillSector core ctx gen sva sec
        (overlay sec bs d.bytes, s2)
      else (s1.homeBytes sec 32, s1)
    | none => s1.fillSector core ctx gen sva sec

/-- `n` bytes in one sector at a key, as a team of a core loads them. -/
def State.loadBytes (s : State) (core tid ctx gen : Nat) (va : W80) (key loc n : Nat) : List Byte × State :=
  let (bs, s1) := s.loadSector core tid ctx gen va key loc
  ((bs.drop (key % 32)).take n, s1)

/-- Keys of a dirty sector after more bytes: the later byte of a key stays. -/
def mergeBytes (old new : List (Nat × Byte)) : List (Nat × Byte) :=
  old.filter (fun x => !new.any (·.1 == x.1)) ++ new

/-- A sector of a cluster store as it was before a store of a team to it, for what a copy's snapshot may still see (spec/09 R164). -/
def State.noteEdit (s : State) (tid key : Nat) : State :=
  { s with edits := ⟨sectorOf key, s.homeBytes (sectorOf key) 32, tid, false, false, []⟩ :: s.edits }

/-- Bytes in the sector of a key stored by a team of a core (spec/08 R143): into its L1 for device memory, at home
otherwise; `va` is the virtual address of the key. -/
def State.storeBytes (s : State) (core tid ctx gen : Nat) (va : W80) (key loc : Nat) (new : List (Nat × Byte)) : State :=
  if loc = 3 then (s.noteEdit tid key).homeStore ctx gen va.toNat new
  else if loc = 0 then
    let s1 := (s.touch core tid key).retag core key ctx gen va
    let sec := sectorOf key
    match s1.dirtyAt core key with
    | some d =>
      if d.tid = tid then
        { s1 with dirty := s1.dirty.map fun x =>
            if x.core = core ∧ x.key = sec then { x with bytes := mergeBytes x.bytes new } else x }
      else (s1.dropClean core key).homeStore ctx gen va.toNat new
    | none =>
      { s1 with dirty := ⟨core, sec, tid, (s.team? tid).bind (·.id.queue), ctx, gen, BitVec.ofNat 80 (va.toNat - key % 32), new, false⟩ :: s1.dirty }
  else (s.dropClean core key).homeStore ctx gen va.toNat new

/-- An atomic of a team at a key (spec/08 R146, R148, R150): the core's dirty bytes of the sector are written back first, and
no clean copy of it stays in the core. -/
def State.atomicAt (s : State) (core tid ctx gen : Nat) (va : W80) (key loc n : Nat) (f : Nat → Nat) : Nat × State :=
  if loc = 3 then s.homeAtomic ctx gen va.toNat key n f
  else
    let s1 :=
      match s.dirtyAt core key with
      | some d => if d.pinned ∧ d.tid ≠ tid then s else (s.writeBack d false).1
      | none => s
    (s1.dropClean core key).homeAtomic ctx gen va.toNat key n f

/-! ### Releases and acquires (spec/08 R145, R151, R152) -/

/-- The dirty sectors of a team in its L1; a pinned one counts until its fault has been taken. -/
def State.dirtyOf (s : State) (tid : Nat) : List Dirty :=
  let taken := match (s.team? tid).bind (·.flow.pinned) with | some p => p.taken | none => false
  s.dirty.filter fun d => d.tid == tid && !(d.pinned && taken)

/-- The sectors that a release of a team at a scope writes back (spec/08 R151): from cluster scope on, every dirty one. -/
def State.relDirty (s : State) (tid : Nat) (sc : Scope) : List Dirty := if 2 ≤ sc.code then s.dirtyOf tid else []

/-- A release of a team at a scope: false if a sector meets a page that is not writable (spec/08 R159). -/
def State.release (s : State) (tid : Nat) (sc : Scope) : State × Bool :=
  State.writeBackAll (if sc = .team then s else { s with edits := s.edits.map fun e => if e.tid = tid then { e with released := true } else e })
    true (s.relDirty tid sc)

/-- Whether an acquire at a scope invalidates a clean copy of a key (spec/08 R152): device memory from cluster scope, remote
memory from domain scope, host memory at system scope. -/
def acquires (sc : Scope) (key : Nat) : Bool :=
  if key < 2 ^ 64 then 2 ≤ sc.code
  else if key < 2 ^ 65 then sc.code == 5
  else 4 ≤ sc.code

/-- An acquire of a team at a scope (spec/08 R152). -/
def State.acquire (s : State) (core : Nat) (sc : Scope) : State :=
  { s with
    clean := s.clean.filter fun c => !(c.core == core && acquires sc c.key)
    edits := s.edits.map fun e => if e.released ∧ ¬ e.seen.contains core then { e with seen := core :: e.seen } else e }

/-! ### Shootdown (spec/18 R286) -/

/-- Whether a virtual address lies in a range. -/
def inRange (va lo n : Nat) : Bool := lo ≤ va && va < lo + n

/-- A shootdown of a range in one context: cached translations go, dirty sectors are written back under their old
permission, or dropped when `drop`, and clean sectors are invalidated. -/
def State.shootdown (s : State) (ctx : Nat) (lo n : Nat) (drop : Bool) : State :=
  let s1 := { s with tlb := s.tlb.filter (!·.inRange ctx lo n), dtlb := s.dtlb.filter (!·.inRange ctx lo n) }
  let ds := s1.dirty.filter fun d => d.ctx == ctx && inRange d.va.toNat lo n && !d.pinned
  let s2 := if drop then ds.foldl State.dropDirty s1 else ds.foldl State.writeBackOld s1
  { s2 with clean := s2.clean.filter fun c => !(c.ctx == ctx && inRange c.va.toNat lo n) }

end Sys2Proof.Machine
end

