-- ==== Sys2Proof/Machine/Float.lean ====
section
/-!
DEFINITION. Sys2Proof/Machine/Float.lean: number formats to the bit, exact values, rounding, and the sums and special
functions built from them (spec/04 R67 to R85, spec/05 R87, R88, R94, spec/07 R121 to R126). Values are exact: a sign, a
natural mantissa and an integer exponent; every result is rounded once.
-/
namespace Sys2Proof.Machine
open Sys2Proof

/-- A floating format (spec/04 R68): exponent and fraction widths, bias, the pattern of the largest finite magnitude, the
pattern of ∞ if there is one, the canonical NaN if there is one. -/
structure Fmt where
  e   : Nat
  m   : Nat
  bias : Nat
  top : Nat
  inf : Option Nat
  nan : Option Nat
  deriving DecidableEq, Repr

def fmtF32 : Fmt := ⟨8, 23, 127, 0x7F7FFFFF, some 0x7F800000, some 0x7FC00000⟩
def fmtF16 : Fmt := ⟨5, 10, 15, 0x7BFF, some 0x7C00, some 0x7E00⟩
def fmtBf16 : Fmt := ⟨8, 7, 127, 0x7F7F, some 0x7F80, some 0x7FC0⟩
def fmtE4m3 : Fmt := ⟨4, 3, 7, 0x7E, none, some 0x7F⟩
def fmtE5m2 : Fmt := ⟨5, 2, 15, 0x7B, some 0x7C, some 0x7E⟩
def fmtE2m1 : Fmt := ⟨2, 1, 1, 0x7, none, none⟩

/-- The sign bit's weight in a format. -/
def Fmt.signBit (F : Fmt) : Nat := 2 ^ (F.e + F.m)

/-- An exact value: `fin neg n e` is ±n × 2^e, with both signed zeros (spec/04 R67). -/
inductive Val where
  | nan
  | inf (neg : Bool)
  | fin (neg : Bool) (n : Nat) (e : Int)
  deriving DecidableEq, Repr

/-- The value of a pattern (spec/04 R67, R68). -/
def Fmt.value (F : Fmt) (x : Nat) : Val :=
  let neg := x / F.signBit % 2 == 1
  let mag := x % F.signBit
  if mag ≤ F.top then
    let ex := mag / 2 ^ F.m
    let fr := mag % 2 ^ F.m
    if ex = 0 then .fin neg fr (1 - (F.bias : Int) - F.m)
    else .fin neg (2 ^ F.m + fr) ((ex : Int) - F.bias - F.m)
  else if some mag = F.inf then .inf neg
  else .nan

/-- Whether a pattern is a NaN. -/
def Fmt.isNaN (F : Fmt) (x : Nat) : Bool := F.value x == .nan

/-! ### Rounding (spec/04 R82 to R85) -/

/-- floor(log2 (n / d × 2^e)) for positive n and d. -/
def floorLog (n d : Nat) (e : Int) : Int :=
  let l : Int := (Nat.log2 n : Int) - Nat.log2 d
  if d * 2 ^ l.toNat ≤ n * 2 ^ (-l).toNat then l + e else l - 1 + e

/-- How a magnitude rounds: the pattern below it, whether it lies above that pattern, whether it is at least half-way to
the next, and whether it is exactly half-way; and the fraction f of spec/04 R83 as numerator and denominator. -/
structure Steps where
  lo    : Nat
  above : Bool
  half  : Bool
  tie   : Bool
  fn    : Nat
  fd    : Nat
  deriving DecidableEq, Repr

/-- The steps of n / d × 2^e in a format, its exponent taken as unbounded above (spec/04 R82). -/
def steps (F : Fmt) (n d : Nat) (e : Int) : Steps :=
  let q0 : Int := 1 - (F.bias : Int) - F.m
  let q := max (floorLog n d e - F.m) q0
  let num := n * 2 ^ (e - q).toNat
  let den := d * 2 ^ (q - e).toNat
  let s := num / den
  let r := num % den
  ⟨(q - q0).toNat * 2 ^ F.m + s, r ≠ 0, den ≤ 2 * r, 2 * r == den, r, den⟩

/-- The state of stochastic rounding after one element (spec/04 R83). -/
def xorshift (st : W32) : W32 :=
  let a := st ^^^ (st <<< 13)
  let b := a ^^^ (a >>> 17)
  b ^^^ (b <<< 5)

/-- The pattern that a selection takes of a magnitude, before the overflow rule; `st` is the state after its step. -/
def pick (F : Fmt) (sel : Rnd) (st : W32) (x : Steps) : Nat :=
  match sel with
  | .rtz => x.lo
  | .sr => if x.above && decide (x.fd * (st.toNat / 256) < x.fn * 2 ^ 24) then x.lo + 1 else x.lo
  | _ =>
    if x.tie then (if x.lo = F.top then x.lo + 1 else x.lo + x.lo % 2)
    else if x.half then x.lo + 1 else x.lo

/-- Finite overflow under a selection (spec/04 R82, R85). -/
def overflow (F : Fmt) (sel : Rnd) : Nat :=
  match sel with
  | .rne =>
    match F.inf with
    | some i => i
    | none =>
      match F.nan with
      | some c => c
      | none => F.top
  | _ => F.top

/-- An infinity under a selection (spec/04 R82, R85). -/
def infinity (F : Fmt) (sel : Rnd) : Nat :=
  match sel with
  | .sat => F.top
  | .sr => F.top
  | _ =>
    match F.inf with
    | some i => i
    | none =>
      match F.nan with
      | some c => c
      | none => F.top

/-- A magnitude with its sign; the canonical NaN of E4M3 carries sign 0 (spec/04 R71). -/
def Fmt.signed (F : Fmt) (neg : Bool) (mag : Nat) : Nat :=
  if neg && some mag ≠ F.nan then mag + F.signBit else mag

/-- ±n / d × 2^e rounded once (spec/04 R73, R82). -/
def roundQ (F : Fmt) (sel : Rnd) (st : W32) (neg : Bool) (n d : Nat) (e : Int) : Nat :=
  if n = 0 then F.signed neg 0
  else
    let p := pick F sel st (steps F n d e)
    F.signed neg (if p ≤ F.top then p else overflow F sel)

/-- A value rounded once into a format (spec/04 R82, R85). -/
def Fmt.round (F : Fmt) (sel : Rnd) (st : W32) : Val → Nat
  | .nan => F.nan.getD 0
  | .inf neg => F.signed neg (infinity F sel)
  | .fin neg n e => roundQ F sel st neg n 1 e

/-- Arithmetic rounding: nearest even, no saturation (spec/04 R82). -/
def Fmt.rne (F : Fmt) (x : Val) : Nat := F.round .rne 0 x

/-- A value rounded to a 32-bit integer (spec/04 R85). -/
def roundI32 (sel : Rnd) (st : W32) : Val → W32
  | .nan => if sel = .sat ∨ sel = .sr then 0 else 0x80000000
  | .inf neg =>
    if sel = .sat ∨ sel = .sr then (if neg then 0x80000000 else 0x7FFFFFFF) else 0x80000000
  | .fin neg n e =>
    let num := n * 2 ^ e.toNat
    let den := 2 ^ (-e).toNat
    let lo := num / den
    let r := num % den
    let mag :=
      match sel with
      | .rtz => lo
      | .sr => if r ≠ 0 ∧ den * (st.toNat / 256) < r * 2 ^ 24 then lo + 1 else lo
      | _ => if 2 * r = den then lo + lo % 2 else if den < 2 * r then lo + 1 else lo
    let x : Int := if neg then -(mag : Int) else mag
    if x < -2 ^ 31 then (if sel = .sat ∨ sel = .sr then 0x80000000 else 0x80000000)
    else if 2 ^ 31 ≤ x then (if sel = .sat ∨ sel = .sr then 0x7FFFFFFF else 0x80000000)
    else BitVec.ofInt 32 x

/-! ### Exact arithmetic -/

/-- The signed mantissa of ±n × 2^e at exponent `q ≤ e`. -/
def mant (neg : Bool) (n : Nat) (e q : Int) : Int :=
  let x : Int := (n * 2 ^ (e - q).toNat : Nat)
  if neg then -x else x

/-- x + y, exact; an exact zero is +0 unless both addends are −0 (spec/04 R73). -/
def Val.add : Val → Val → Val
  | .nan, _ => .nan
  | _, .nan => .nan
  | .inf a, .inf b => if a = b then .inf a else .nan
  | .inf a, .fin _ _ _ => .inf a
  | .fin _ _ _, .inf b => .inf b
  | .fin sa na ea, .fin sb nb eb =>
    let q := min ea eb
    let s := mant sa na ea q + mant sb nb eb q
    if s = 0 then .fin (sa && sb && na == 0 && nb == 0) 0 q
    else .fin (decide (s < 0)) s.natAbs q

/-- −x, NaN kept. -/
def Val.neg : Val → Val
  | .nan => .nan
  | .inf a => .inf (!a)
  | .fin s n e => .fin (!s) n e

/-- x − y, exact. -/
def Val.sub (x y : Val) : Val := x.add y.neg

/-- x × y, exact; ∞ × 0 is NaN (spec/05 R88, spec/07 R121). -/
def Val.mul : Val → Val → Val
  | .nan, _ => .nan
  | _, .nan => .nan
  | .inf a, .inf b => .inf (a != b)
  | .inf a, .fin s n _ => if n = 0 then .nan else .inf (a != s)
  | .fin s n _, .inf b => if n = 0 then .nan else .inf (s != b)
  | .fin sa na ea, .fin sb nb eb => .fin (sa != sb) (na * nb) (ea + eb)

/-- x × 2^k, exact. -/
def Val.scale (k : Int) : Val → Val
  | .nan => .nan
  | .inf a => .inf a
  | .fin s n e => .fin s n (e + k)

/-- An integer as a value. -/
def Val.ofInt (x : Int) : Val := .fin (decide (x < 0)) x.natAbs 0

/-- x < y for numbers; −0 = +0; false if either is NaN. -/
def Val.lt : Val → Val → Bool
  | .nan, _ => false
  | _, .nan => false
  | .inf a, .inf b => a && !b
  | .inf a, .fin _ _ _ => a
  | .fin _ _ _, .inf b => !b
  | .fin sa na ea, .fin sb nb eb =>
    let q := min ea eb
    decide (mant sa na ea q < mant sb nb eb q)

/-- x = y for numbers; −0 = +0; false if either is NaN. -/
def Val.eqv (x y : Val) : Bool :=
  match x, y with
  | .nan, _ => false
  | _, .nan => false
  | _, _ => !x.lt y && !y.lt x

/-- The sign of a value; a NaN has none. -/
def Val.isNeg : Val → Bool
  | .nan => false
  | .inf a => a
  | .fin s _ _ => s

/-- Whether a value is ±0. -/
def Val.isZero : Val → Bool
  | .fin _ n _ => n == 0
  | _ => false

/-- Whether a value is finite. -/
def Val.isFin : Val → Bool
  | .fin _ _ _ => true
  | _ => false

/-- |x|. -/
def Val.abs : Val → Val
  | .nan => .nan
  | .inf _ => .inf false
  | .fin _ n e => .fin false n e

/-- x below y in the order of FMIN and FMAX, where −0 < +0 (spec/07 R122). -/
def Val.below (x y : Val) : Bool :=
  x.lt y || (x.isZero && y.isZero && x.isNeg && !y.isNeg)

/-- FMIN and FMAX on patterns (spec/07 R122): `up` for the maximum. -/
def Fmt.minmax (F : Fmt) (up : Bool) (x y : Nat) : Nat :=
  match F.isNaN x, F.isNaN y with
  | true, true => F.nan.getD 0
  | true, false => y
  | false, true => x
  | false, false =>
    if (F.value x).below (F.value y) then (if up then y else x) else (if up then x else y)

def Fmt.add (F : Fmt) (x y : Nat) : Nat := F.rne ((F.value x).add (F.value y))
def Fmt.sub (F : Fmt) (x y : Nat) : Nat := F.rne ((F.value x).sub (F.value y))
def Fmt.mul (F : Fmt) (x y : Nat) : Nat := F.rne ((F.value x).mul (F.value y))

/-- x × y + z with one rounding (spec/07 R121). -/
def Fmt.fma (F : Fmt) (x y z : Nat) : Nat := F.rne (((F.value x).mul (F.value y)).add (F.value z))

/-- FP32 addition on lanes: near-cache adders, reductions (spec/05 R93, spec/06 R115). -/
def addF32 (x y : W32) : W32 := BitVec.ofNat 32 (fmtF32.add x.toNat y.toNat)

/-- FMAX.f32 on lanes (spec/07 R122). -/
def maxF32 (x y : W32) : W32 := BitVec.ofNat 32 (fmtF32.minmax true x.toNat y.toNat)

/-! ### Special functions (spec/07 R125, R126) -/

/-- floor(√n), bit by bit from bit `k`. -/
def isqrtFrom (n : Nat) : Nat → Nat → Nat
  | 0, acc => if (acc + 1) * (acc + 1) ≤ n then acc + 1 else acc
  | k + 1, acc => isqrtFrom n k (if (acc + 2 ^ (k + 1)) * (acc + 2 ^ (k + 1)) ≤ n then acc + 2 ^ (k + 1) else acc)

/-- floor(√n). -/
def isqrt (n : Nat) : Nat := isqrtFrom n (Nat.log2 n / 2 + 1) 0

/-- The unit of the fixed-point series below: 2^320. -/
def one320 : Nat := 2 ^ 320

/-- ln 2 × 2^320, rounded down. -/
def ln2Fix : Nat :=
  1480553391661173448385607439722553250922680800745876974795605978609098082859138712941075737848984

/-- 1 / √(2π) × 2^320, rounded down. -/
def invSqrt2piFix : Nat :=
  852135539018184763820396513245673747463731821652439675318870577517399952981679869195813084020151

/-- Σ terms of a series whose i-th term is the one before times `x` over `den i`, all in units of 2^-320. -/
def series (x : Nat) (den : Nat → Nat) : Nat → Nat → Nat → Nat → Nat
  | 0, _, _, acc => acc
  | k + 1, i, t, acc => series x den k (i + 1) (t * x / one320 / den i) (acc + t)

/-- e^r × 2^320 for 0 ≤ r < 1 in units of 2^-320. -/
def expFix (r : Nat) : Nat := series r (fun i => i + 1) 96 0 one320 0

/-- e^y for y ≥ 0 in units of 2^-320: mantissa m and exponent k with e^y near m × 2^(k − 320). -/
def expPos (y : Nat) : Nat × Nat := (expFix (y % ln2Fix), y / ln2Fix)

/-- n × 2^e in units of 2^-320, rounded down. -/
def toFix (n : Nat) (e : Int) : Nat := n * 2 ^ (e + 320).toNat / 2 ^ (-(e + 320)).toNat

/-- What a special function gives before rounding: a value, or an enclosure ±[lo, hi] × 2^e of a value that is no
rounding boundary. -/
inductive Encl where
  | exact (x : Val)
  | near (neg : Bool) (lo hi : Nat) (e : Int)
  deriving DecidableEq, Repr

/-- An enclosure with the slack that covers every truncation of the series: 2^32 units. -/
def nearBy (neg : Bool) (x : Nat) (e : Int) : Encl := .near neg (x - 2 ^ 32) (x + 2 ^ 32) e

/-- The rounded result of an enclosure (log 15). -/
def Fmt.roundEncl (F : Fmt) (fn pat : Nat) : Encl → Nat
  | .exact x => F.rne x
  | .near neg lo hi e =>
    let a := roundQ F .rne 0 neg lo 1 e
    let b := roundQ F .rne 0 neg hi 1 e
    if a = b then a else Config.closeCall fn pat

/-- 2^x for finite x. -/
def exp2Encl (neg : Bool) (n : Nat) (e : Int) : Encl :=
  if n = 0 then .exact (.fin false 1 0)
  else if 10 ≤ (Nat.log2 n : Int) + e then .exact (.fin false 1 (if neg then -4096 else 4096))
  else
    let sh := (-e).toNat
    let x : Int := if neg then -(n * 2 ^ e.toNat : Nat) else (n * 2 ^ e.toNat : Nat)
    let k := x / 2 ^ sh
    let f := (x % 2 ^ sh).toNat
    if f = 0 then .exact (.fin false 1 k)
    else nearBy false (expFix (f * ln2Fix / 2 ^ sh)) (k - 320)

/-- log₂ of n × 2^e, n > 0. -/
def log2Encl (n : Nat) (e : Int) : Encl :=
  let l := Nat.log2 n
  if n = 2 ^ l then .exact (Val.ofInt (l + e))
  else
    let big := decide (3 * 2 ^ l ≤ 2 * n)
    let k : Int := if big then l + e + 1 else l + e
    let u := if big then 2 ^ (l + 1) else 2 ^ l
    let z := (if big then u - n else n - u) * one320 / (n + u)
    let at_ := logSeries (z * z / one320) 100 0 z 0
    let lg : Int := (2 * at_ * one320 / ln2Fix : Nat)
    let v : Int := k * one320 + (if big then -lg else lg)
    nearBy (decide (v < 0)) v.natAbs (-320)
where
  /-- Σ z^(2i+1) / (2i+1). -/
  logSeries (z2 : Nat) : Nat → Nat → Nat → Nat → Nat
    | 0, _, _, acc => acc
    | k + 1, i, t, acc => logSeries z2 k (i + 1) (t * z2 / one320) (acc + t / (2 * i + 1))

/-- √(n × 2^e), n > 0. -/
def sqrtEncl (n : Nat) (e : Int) : Encl :=
  let n' := if e % 2 = 0 then n else 2 * n
  let e' := if e % 2 = 0 then e else e - 1
  let x := n' * 2 ^ 320
  let t := isqrt x
  if t * t = x then .exact (.fin false t (e' / 2 - 160)) else .near false t (t + 1) (e' / 2 - 160)

/-- 1 / √(n × 2^e), n > 0. -/
def rsqrtEncl (n : Nat) (e : Int) : Encl :=
  let n' := if e % 2 = 0 then n else 2 * n
  let e' := if e % 2 = 0 then e else e - 1
  let t := isqrt (2 ^ 640 / n')
  if t * t * n' = 2 ^ 640 then .exact (.fin false t (-(e' / 2) - 320)) else .near false t (t + 1) (-(e' / 2) - 320)

/-- tanh of ±n × 2^e, n > 0. -/
def tanhEncl (neg : Bool) (n : Nat) (e : Int) : Encl :=
  if 5 ≤ (Nat.log2 n : Int) + e then .near neg (2 ^ 80 - 1) (2 ^ 80) (-80)
  else if (Nat.log2 n : Int) + e < 0 then
    let x := toFix n e
    let x2 := x * x / one320
    let s := series x2 (fun i => (2 * i + 2) * (2 * i + 3)) 60 0 one320 0
    let c := series x2 (fun i => (2 * i + 1) * (2 * i + 2)) 60 0 one320 0
    let q := s * one320 / c
    .near neg (n * (q - 2 ^ 32)) (n * (q + 2 ^ 32)) (e - 320)
  else
    let (m, k) := expPos (2 * toFix n e)
    nearBy neg ((m * 2 ^ k - one320) * one320 / (m * 2 ^ k + one320)) (-320)

/-- 1 / (1 + e^-x) for x = ±n × 2^e, n > 0. -/
def sigmEncl (neg : Bool) (n : Nat) (e : Int) : Encl :=
  if 8 ≤ (Nat.log2 n : Int) + e then
    (if neg then .near false 1 2 (-330) else .near false (2 ^ 80 - 1) (2 ^ 80) (-80))
  else
    let (m, k) := expPos (toFix n e)
    if neg then nearBy false (2 ^ (640 + k) / (m * 2 ^ k + one320)) (-320 - k)
    else nearBy false (m * 2 ^ k * one320 / (m * 2 ^ k + one320)) (-320)

/-- x × Φ(x) for x = ±n × 2^e, n > 0. -/
def geluEncl (neg : Bool) (n : Nat) (e : Int) : Encl :=
  if 4 ≤ (Nat.log2 n : Int) + e then
    (if neg then .near true 1 2 (-170) else .near false (n * 2 ^ 90 - n) (n * 2 ^ 90) (e - 90))
  else
    let x := toFix n e
    let x2 := x * x / one320
    let u := series x2 (fun i => 2 * i + 3) 900 0 x 0
    let (m, k) := expPos (x2 / 2)
    let d := invSqrt2piFix * u / m / 2 ^ k
    let h := if neg then one320 / 2 - d else one320 / 2 + d
    .near neg (n * (h - 2 ^ 32)) (n * (h + 2 ^ 32)) (e - 320)

/-- floor (`dir` 0), ceil (1) or nearest even (2) of ±n × 2^e, keeping the operand's sign on zero (spec/07 R126). -/
def toIntegral (dir : Nat) (neg : Bool) (n : Nat) (e : Int) : Val :=
  let num := n * 2 ^ e.toNat
  let den := 2 ^ (-e).toNat
  let lo := num / den
  let r := num % den
  let up :=
    match dir with
    | 0 => neg && r != 0
    | 1 => !neg && r != 0
    | _ => decide (den < 2 * r) || (2 * r == den && lo % 2 == 1)
  .fin neg (if up then lo + 1 else lo) 0

/-- x − trunc(x); an exact zero is +0 (spec/07 R125, R126). -/
def fracPart (neg : Bool) (n : Nat) (e : Int) : Val :=
  let r := n * 2 ^ e.toNat % 2 ^ (-e).toNat
  if r = 0 then .fin false 0 0 else .fin neg r (min e 0)

/-- The functions of FUNA, in code order (spec/07 R125). -/
inductive Fn where
  | exp2 | log2 | rcp | rsqrt | sqrt | tanh | sigm | gelu | abs | neg | floor | ceil | rint | frac
  deriving DecidableEq, Repr

/-- The code of a function (spec/07 R125). -/
def Fn.code : Fn → Nat
  | .exp2 => 0
  | .log2 => 1
  | .rcp => 2
  | .rsqrt => 3
  | .sqrt => 4
  | .tanh => 5
  | .sigm => 6
  | .gelu => 7
  | .abs => 8
  | .neg => 9
  | .floor => 10
  | .ceil => 11
  | .rint => 12
  | .frac => 13

/-- The special operands of spec/07 R126: −∞, +∞, ±0 and negative numbers. -/
def Fn.special : Fn → Val → Option Val
  | _, .nan => some .nan
  | .exp2, .inf sg => some (if sg then .fin false 0 0 else .inf false)
  | .log2, .inf sg => some (if sg then .nan else .inf false)
  | .rcp, .inf sg => some (.fin sg 0 0)
  | .rsqrt, .inf sg => some (if sg then .nan else .fin false 0 0)
  | .sqrt, .inf sg => some (if sg then .nan else .inf false)
  | .tanh, .inf sg => some (.fin sg 1 0)
  | .sigm, .inf sg => some (.fin false (if sg then 0 else 1) 0)
  | .gelu, .inf sg => some (if sg then .fin true 0 0 else .inf false)
  | .abs, .inf _ => some (.inf false)
  | .neg, .inf sg => some (.inf (!sg))
  | .frac, .inf _ => some .nan
  | _, .inf sg => some (.inf sg)
  | .exp2, .fin _ n _ => if n = 0 then some (.fin false 1 0) else none
  | .log2, .fin sg n _ => if n = 0 then some (.inf true) else if sg then some .nan else none
  | .rcp, .fin sg n _ => if n = 0 then some (.inf sg) else none
  | .rsqrt, .fin sg n _ => if n = 0 then some (.inf sg) else if sg then some .nan else none
  | .sqrt, .fin sg n _ => if n = 0 then some (.fin sg 0 0) else if sg then some .nan else none
  | .tanh, .fin sg n _ => if n = 0 then some (.fin sg 0 0) else none
  | .sigm, .fin _ n _ => if n = 0 then some (.fin false 1 (-1)) else none
  | .gelu, .fin sg n _ => if n = 0 then some (.fin sg 0 0) else none
  | .abs, .fin _ n e => some (.fin false n e)
  | .neg, .fin sg n e => some (.fin (!sg) n e)
  | .floor, .fin sg n e => some (toIntegral 0 sg n e)
  | .ceil, .fin sg n e => some (toIntegral 1 sg n e)
  | .rint, .fin sg n e => some (toIntegral 2 sg n e)
  | .frac, .fin sg n e => some (fracPart sg n e)

/-- The general case of a function on ±n × 2^e, n > 0, as an enclosure; rcp is a quotient and is rounded apart. -/
def Fn.encl (f : Fn) (neg : Bool) (n : Nat) (e : Int) : Encl :=
  match f with
  | .exp2 => exp2Encl neg n e
  | .log2 => log2Encl n e
  | .rsqrt => rsqrtEncl n e
  | .sqrt => sqrtEncl n e
  | .tanh => tanhEncl neg n e
  | .sigm => sigmEncl neg n e
  | .gelu => geluEncl neg n e
  | _ => .exact (.fin neg n e)

/-- A function of a pattern, correctly rounded (spec/07 R125, R126). -/
def Fmt.fn (F : Fmt) (f : Fn) (x : Nat) : Nat :=
  match f.special (F.value x) with
  | some v => F.rne v
  | none =>
    match F.value x with
    | .fin neg n e => if f = .rcp then roundQ F .rne 0 neg 1 n (-e) else F.roundEncl f.code x (f.encl neg n e)
    | _ => F.nan.getD 0

/-! ### Haar lifting (spec/05 R94, R95) -/

/-- RNE((a + b) / 2) and RNE((a − b) / 2). -/
def haarFwd (a b : W32) : W32 × W32 :=
  let x := fmtF32.value a.toNat
  let y := fmtF32.value b.toNat
  (BitVec.ofNat 32 (fmtF32.rne ((x.add y).scale (-1))), BitVec.ofNat 32 (fmtF32.rne ((x.sub y).scale (-1))))

/-- RNE(s + d) and RNE(s − d). -/
def haarInv (s d : W32) : W32 × W32 :=
  (addF32 s d, BitVec.ofNat 32 (fmtF32.sub s.toNat d.toNat))

/-- One forward level: approximations and details of consecutive pairs. -/
def haarLevel : List W32 → List W32 × List W32
  | a :: b :: xs =>
    let (s, d) := haarFwd a b
    let (ss, ds) := haarLevel xs
    (s :: ss, d :: ds)
  | _ => ([], [])

/-- The forward transform to a depth, in coefficient-tree order (spec/05 R95). -/
def haarForward : Nat → List W32 → List W32
  | 0, xs => xs
  | d + 1, xs =>
    let (s, t) := haarLevel xs
    haarForward d s ++ t

/-- One inverse level. -/
def haarUnlevel : List W32 → List W32 → List W32
  | s :: ss, d :: ds =>
    let (a, b) := haarInv s d
    a :: b :: haarUnlevel ss ds
  | _, _ => []

/-- The inverse transform from a depth (spec/05 R95). -/
def haarInverse : Nat → List W32 → List W32
  | 0, xs => xs
  | d + 1, xs =>
    let h := xs.length / 2
    haarUnlevel (haarInverse d (xs.take h)) (xs.drop h)

/-- Whether a coefficient row survives a threshold (spec/05 R96). -/
def survives (h : W32) (row : List W32) : Bool :=
  let vs := row.map fun x => fmtF32.value x.toNat
  let t := fmtF32.value h.toNat
  if vs.any (· == .nan) then true
  else if t == .nan then true
  else if t.isZero then vs.any fun x => !x.isZero
  else if t.isNeg then true
  else vs.any fun x => !x.abs.lt t

/-! ### Element formats of records (spec/04 R74 to R80) -/

/-- The floating format of an element format code. -/
def elemFmt : Nat → Option Fmt
  | 0 => some fmtF32
  | 1 => some fmtF16
  | 2 => some fmtBf16
  | 3 => some fmtE4m3
  | 4 => some fmtE5m2
  | 5 => some fmtE2m1
  | _ => none

/-- Bits of an element (spec/04 R74). A reserved code, 9 to 15, in a window's fmt, which `tbnd.bind` does not reject (spec/10 R185),
counts as 32 bits, and `elemValue` reads its pattern as a signed integer (DESIGN CHOICE: the spec does not say what a copy out of such
a window reads; log 16). -/
def elemBits : Nat → Nat
  | 0 => 32
  | 1 => 16
  | 2 => 16
  | 3 => 8
  | 4 => 8
  | 5 => 4
  | 6 => 8
  | 7 => 4
  | _ => 32

/-- A two's-complement reading of the low `n` bits. -/
def signedOf (n x : Nat) : Int :=
  let y := x % 2 ^ n
  if 2 ^ (n - 1) ≤ y then (y : Int) - 2 ^ n else y

/-- The plain value of an element pattern (spec/04 R67, R75). -/
def elemValue (fmt x : Nat) : Val :=
  match elemFmt fmt with
  | some F => F.value x
  | none => Val.ofInt (signedOf (elemBits fmt) x)

/-- An element of a microscaling block (spec/04 R77). -/
def mxValue (fmt scale x : Nat) : Val :=
  if scale = 0xFF then .nan else (elemValue fmt x).scale ((scale : Int) - 127)

/-- An element of an asymmetric group: EXACT(c × (q − z)) (spec/04 R79, R80). -/
def asymValue (fmt entry x : Nat) : Val :=
  let q := signedOf (elemBits fmt) x
  let z := signedOf (elemBits fmt) (entry / 2 ^ 16)
  (fmtF16.value (entry % 2 ^ 16)).mul (Val.ofInt (q - z))

/-- Legal pairs of format and scale mode (spec/04 R74). -/
def legalPair (fmt mode : Nat) : Bool :=
  if mode = 0 then fmt ≤ 8 && fmt != 5
  else if mode = 1 then fmt == 3 || fmt == 4 || fmt == 5
  else if mode ≤ 4 then fmt == 6 || fmt == 7
  else false

/-- Elements that one scale entry covers along K (spec/04 R74). -/
def groupSize (mode : Nat) : Nat :=
  match mode with
  | 1 => 32
  | 2 => 32
  | 3 => 64
  | 4 => 128
  | _ => 1

/-- A value converted into an element format with `sat` (spec/04 R82, R85; spec/10 R193). A NaN into int8 or int4, for which R85 gives
no value, leaves a free one (log 16). -/
def elemSat (fmt : Nat) (v : Val) : Nat :=
  match elemFmt fmt with
  | some F => F.round .sat 0 v
  | none =>
    if fmt = 8 then (roundI32 .sat 0 v).toNat
    else if v = .nan then Config.nanElem fmt % 2 ^ elemBits fmt
    else
      let n := elemBits fmt
      let x := (roundI32 .sat 0 v).toInt
      let c := max (-(2 ^ (n - 1) : Int)) (min (2 ^ (n - 1) - 1) x)
      (c % 2 ^ n).toNat

/-- The exact sum of products of one K-step, with the special values of spec/05 R88; the first product starts it. -/
def stepSum : List (Val × Val) → Val
  | [] => .fin false 0 0
  | (a, b) :: ps => ps.foldl (fun acc (x, y) => acc.add (x.mul y)) (a.mul b)

end Sys2Proof.Machine
end

