-- ==== Sys2Proof/Machine/Operands.lean ====
section
/-!
DEFINITION. Sys2Proof/Machine/Operands.lean: the registers that a word names, its pipe, its level, its guard; the accessors of
a team's registers; masks, effective masks and addresses; domain tags and implicit reconstruction (spec/02 R30 to R42;
spec/06 R100 to R102; spec/07 R129 to R132; spec/10 R174, R177; spec/20 R301, R306).
-/
namespace Sys2Proof

/-- A register name; numbers of v may exceed 63 in the implicit ranges of wide accesses (spec/02 R38, R40). -/
inductive Reg where
  | v (n : Nat)
  | s (n : Nat)
  | a (n : Nat)
  | p (n : Nat)
  | t (n : Nat)
  deriving DecidableEq, Repr

/-- `n` consecutive v registers from `d`. -/
def vRange (d : VReg) (n : Nat) : List Reg := (List.range n).map fun i => .v (d.val + i)

/-- `n` consecutive s registers from `d`, those that exist. -/
def sRange (d : SReg) (n : Nat) : List Reg := ((List.range n).filter (d.val + · < 64)).map fun i => .s (d.val + i)

/-- Bytes that each lane of VLD reads (spec/10 R177). -/
def LdSize.bytes : LdSize → Nat
  | .u8 => 1
  | .s8 => 1
  | .u16 => 2
  | .s16 => 2
  | .w32 => 4
  | .w64 => 8
  | .w128 => 16

/-- Bytes that each lane of VST writes (spec/10 R177). -/
def StSize.bytes : StSize → Nat
  | .b8 => 1
  | .b16 => 2
  | .w32 => 4
  | .w64 => 8
  | .w128 => 16

/-- Data registers of VLD (spec/10 R177). -/
def LdSize.regs (z : LdSize) : Nat := max 1 (z.bytes / 4)

/-- Data registers of VST (spec/10 R177). -/
def StSize.regs (z : StSize) : Nat := max 1 (z.bytes / 4)

/-- Bytes of SLD and SST (spec/10 R180). -/
def SSize.bytes : SSize → Nat
  | .b8 => 1
  | .b16 => 2
  | .w32 => 4
  | .w64 => 8

/-- Bytes of SATM (spec/10 R181). -/
def AtWidth.bytes : AtWidth → Nat
  | .w64 => 8
  | .w32 => 4

/-- Registers that a word reads, its guard predicate and every implicit source included (spec/02 R32, R38). -/
def Instr.reads : Instr → List Reg
  | .sopAdd _ a b => [.s a, .s b]
  | .sopSub _ a b => [.s a, .s b]
  | .sopMul _ a b => [.s a, .s b]
  | .sopMulh _ a b => [.s a, .s b]
  | .sopMulhn _ a b => [.s a, .s b]
  | .sopDiv _ a b => [.s a, .s b]
  | .sopDivn _ a b => [.s a, .s b]
  | .sopRem _ a b => [.s a, .s b]
  | .sopAnd _ a b => [.s a, .s b]
  | .sopOr _ a b => [.s a, .s b]
  | .sopXor _ a b => [.s a, .s b]
  | .sopAndn _ a b => [.s a, .s b]
  | .sopShl _ a b => [.s a, .s b]
  | .sopShr _ a b => [.s a, .s b]
  | .sopSar _ a b => [.s a, .s b]
  | .sopMin _ a b => [.s a, .s b]
  | .sopMax _ a b => [.s a, .s b]
  | .sopMinn _ a b => [.s a, .s b]
  | .sopMaxn _ a b => [.s a, .s b]
  | .sopSlt _ a b => [.s a, .s b]
  | .sopSltn _ a b => [.s a, .s b]
  | .sopSeq _ a b => [.s a, .s b]
  | .sopPopc _ a => [.s a]
  | .sopClz _ a => [.s a]
  | .sopCtz _ a => [.s a]
  | .sopiAddi _ a _ => [.s a]
  | .sopiAndi _ a _ => [.s a]
  | .sopiOri _ a _ => [.s a]
  | .sopiXori _ a _ => [.s a]
  | .sshiShli _ a _ => [.s a]
  | .sshiShri _ a _ => [.s a]
  | .sshiSari _ a _ => [.s a]
  | .sshiSlti _ a _ => [.s a]
  | .sinsInsert d _ _ => [.s d]
  | .aopAadd _ a b _ => [.a a, .s b]
  | .aopAset _ a b _ => [.a a, .s b]
  | .aopAget a _ _ => [.a a]
  | .aopAmov _ a => [.a a]
  | .cregCwr d _ => [.s d]
  | .variIadd _ a b g => [.v a, .v b, .p g.p]
  | .variIsub _ a b g => [.v a, .v b, .p g.p]
  | .variImul _ a b g => [.v a, .v b, .p g.p]
  | .variImulh _ a b g => [.v a, .v b, .p g.p]
  | .vlogAnd _ a b g => [.v a, .v b, .p g.p]
  | .vlogOr _ a b g => [.v a, .v b, .p g.p]
  | .vlogXor _ a b g => [.v a, .v b, .p g.p]
  | .vlogAndn _ a b g => [.v a, .v b, .p g.p]
  | .vsftShl _ a b g => [.v a, .v b, .p g.p]
  | .vsftShr _ a b g => [.v a, .v b, .p g.p]
  | .vsftSar _ a b g => [.v a, .v b, .p g.p]
  | .vsftRol _ a b g => [.v a, .v b, .p g.p]
  | .vmnxImin _ a b g => [.v a, .v b, .p g.p]
  | .vmnxImax _ a b g => [.v a, .v b, .p g.p]
  | .vmnxNmin _ a b g => [.v a, .v b, .p g.p]
  | .vmnxNmax _ a b g => [.v a, .v b, .p g.p]
  | .vcmpEq _ _ a b g => [.v a, .v b, .p g.p]
  | .vcmpLt _ _ a b g => [.v a, .v b, .p g.p]
  | .vcmpLe _ _ a b g => [.v a, .v b, .p g.p]
  | .vcmpLtn _ _ a b g => [.v a, .v b, .p g.p]
  | .vadi _ a g _ => [.v a, .p g.p]
  | .vimmSx _ g _ => [.p g.p]
  | .vimmHi _ g _ => [.p g.p]
  | .fadd _ a b g _ => [.v a, .v b, .p g.p]
  | .fsub _ a b g _ => [.v a, .v b, .p g.p]
  | .fmul _ a b g _ => [.v a, .v b, .p g.p]
  | .fma d a b g _ => [.v d, .v a, .v b, .p g.p]
  | .fmin _ a b g _ => [.v a, .v b, .p g.p]
  | .fmax _ a b g _ => [.v a, .v b, .p g.p]
  | .fceq _ _ a b g _ => [.v a, .v b, .p g.p]
  | .fclt _ _ a b g _ => [.v a, .v b, .p g.p]
  | .fcle _ _ a b g _ => [.v a, .v b, .p g.p]
  | .fcun _ _ a b g _ => [.v a, .v b, .p g.p]
  | .funaExp2 _ a g _ => [.v a, .p g.p]
  | .funaLog2 _ a g _ => [.v a, .p g.p]
  | .funaRcp _ a g _ => [.v a, .p g.p]
  | .funaRsqrt _ a g _ => [.v a, .p g.p]
  | .funaSqrt _ a g _ => [.v a, .p g.p]
  | .funaTanh _ a g _ => [.v a, .p g.p]
  | .funaSigm _ a g _ => [.v a, .p g.p]
  | .funaGelu _ a g _ => [.v a, .p g.p]
  | .funaAbs _ a g _ => [.v a, .p g.p]
  | .funaNeg _ a g _ => [.v a, .p g.p]
  | .funaFloor _ a g _ => [.v a, .p g.p]
  | .funaCeil _ a g _ => [.v a, .p g.p]
  | .funaRint _ a g _ => [.v a, .p g.p]
  | .funaFrac _ a g _ => [.v a, .p g.p]
  | .fcvtConvert d a n g _ => if n.val < 20 then [.v d, .v a, .p g.p] else [.v a, .p g.p]
  | .fcvtI32 _ a g _ => [.v a, .p g.p]
  | .fcvtWi32 _ a g _ => [.v a, .p g.p]
  | .vsel _ a b g => [.v a, .v b, .p g.p]
  | .vmovMov _ a g => [.v a, .p g.p]
  | .vmovBcast _ a g => [.s a, .p g.p]
  | .vmovRdlane _ a g => [.v a, .p g.p]
  | .vmovWrlane _ a g => [.s a, .p g.p]
  | .vmovLaneid _ g => [.p g.p]
  | .vxlnShfl d a g => [.v d, .v a, .p g.p]
  | .vxlnBcl _ a g => [.v a, .p g.p]
  | .vxlnRedadd _ a g _ => [.v a, .p g.p]
  | .vxlnRedmax _ a g _ => [.v a, .p g.p]
  | .vxlnScan _ a g _ => [.v a, .p g.p]
  | .plogPand _ a _ b => [.p a, .p b]
  | .plogPor _ a _ b => [.p a, .p b]
  | .plogPxor _ a _ b => [.p a, .p b]
  | .plogPmovs _ a _ => [.p a]
  | .plogPbal _ a => [.p a]
  | .plogEmw a => [.p a]
  | .xfrmHfwd _ a _ => [.v a]
  | .xfrmHinv _ a => [.v a]
  | .xfrmHthr _ a _ => [.v a]
  | .xfrmHpack _ a p => [.v a, .p p]
  | .xfrmHunpk _ a _ p => [.v a, .p p]
  | .xfrmXpose _ a => vRange a 32
  | .xfrmMxq _ a _ _ => [.v a]
  | .xfrmMxdq _ a _ => [.v a]
  | .xfrmI4dq _ a => [.v a]
  | .domnDget _ a => [.v a]
  | .domnHscl _ a b => [.v a, .s b]
  | .domnHbia _ a b => [.v a, .s b]
  | .vld _ a o g _ _ => [.a a, .v o, .p g.p]
  | .vst d a o g _ z => vRange d z.regs ++ [.a a, .v o, .p g.p]
  | .vatmAddI d a o g => [.v d, .a a, .v o, .p g.p]
  | .vatmAddF d a o g => [.v d, .a a, .v o, .p g.p]
  | .vatmMinI d a o g => [.v d, .a a, .v o, .p g.p]
  | .vatmMaxI d a o g => [.v d, .a a, .v o, .p g.p]
  | .vatmMaxF d a o g => [.v d, .a a, .v o, .p g.p]
  | .vatmAnd d a o g => [.v d, .a a, .v o, .p g.p]
  | .vatmOr d a o g => [.v d, .a a, .v o, .p g.p]
  | .vatmXor d a o g => [.v d, .a a, .v o, .p g.p]
  | .vatmXchg d a o g => [.v d, .a a, .v o, .p g.p]
  | .vatmCas d a o g => vRange d 2 ++ [.a a, .v o, .p g.p]
  | .sld _ a _ _ _ => [.a a]
  | .sst d a _ _ _ => [.s d, .a a]
  | .satmAdd _ a b _ _ => [.a a, .s b]
  | .satmSub _ a b _ _ => [.a a, .s b]
  | .satmAnd _ a b _ _ => [.a a, .s b]
  | .satmOr _ a b _ _ => [.a a, .s b]
  | .satmXor _ a b _ _ => [.a a, .s b]
  | .satmMin _ a b _ _ => [.a a, .s b]
  | .satmMax _ a b _ _ => [.a a, .s b]
  | .satmMinn _ a b _ _ => [.a a, .s b]
  | .satmMaxn _ a b _ _ => [.a a, .s b]
  | .satmXchg _ a b _ _ => [.a a, .s b]
  | .satmCas d a b _ _ => [.s d, .a a, .s b]
  | .tsl _ t _ _ g => [.t t, .p g.p]
  | .tss d t _ _ g => [.v d, .t t, .p g.p]
  | .tbndBind _ a => sRange a 2
  | .tbndUnbind t => [.t t]
  | .tbndQuery _ t _ => [.t t]
  | .xcpyIn t a => .t t :: sRange a 2
  | .xcpyOut t a => .t t :: sRange a 2
  | .xcpyMcin t a => .t t :: sRange a 3
  | .ringRbind _ a => sRange a 3
  | .ringRunbind a => [.s a]
  | .ringSpub a _ => [.s a]
  | .ringSrel a _ => [.s a]
  | .ringSwait _ a _ => [.s a]
  | .tbarTbinit d a => [.s d, .s a]
  | .tbarTbarr a _ => [.s a]
  | .tbarTbwait d a _ => [.s d, .s a]
  | .tbarTbtest _ a => [.s a]
  | .sigSigadd _ a b _ => [.a a, .s b]
  | .sigSigwait _ a b _ => [.a a, .s b]
  | .sigSigrd _ a _ => [.a a]
  | .sigWatch _ a b _ => [.a a, .s b]
  | .sgrpFork _ a _ => [.a a]
  | .sgrpArr _ a b _ => [.a a, .s b]
  | .sgrpCan _ a _ => [.a a]
  | .sgrpWait _ a _ => [.a a]
  | .sgrpFree _ a _ => [.a a]
  | .sgrpInfo _ a _ => [.a a]
  | .brv g _ => [.p g.p]
  | .brsBeqz k _ => [.s k]
  | .brsBnez k _ => [.s k]
  | .brsBltz k _ => [.s k]
  | .brsBgez k _ => [.s k]
  | .jmpJmpr a => [.s a]
  | .jmpRet => [.s 63]
  | .syncEnq _ q p => [.a q, .a p]
  | .syncQctlCreate _ q => [.a q]
  | .syncQctlStop _ q => [.a q]
  | .syncQctlResume _ q a => [.a q, .s a]
  | .syncQctlDestroy _ q => [.a q]
  | .privPgref _ a => [.a a]
  | .privTlbinv a b k => [.a a, .s b, .s k]
  | .privEseal _ a b => [.a a, .s b]
  | .privPreemptSave _ q => [.a q]
  | .privPreemptRsm _ q => [.a q]
  | _ => []

/-- Registers that a word names as destinations (spec/02 R32, R38). -/
def Instr.writes : Instr → List Reg
  | .sopAdd d _ _ => [.s d]
  | .sopSub d _ _ => [.s d]
  | .sopMul d _ _ => [.s d]
  | .sopMulh d _ _ => [.s d]
  | .sopMulhn d _ _ => [.s d]
  | .sopDiv d _ _ => [.s d]
  | .sopDivn d _ _ => [.s d]
  | .sopRem d _ _ => [.s d]
  | .sopAnd d _ _ => [.s d]
  | .sopOr d _ _ => [.s d]
  | .sopXor d _ _ => [.s d]
  | .sopAndn d _ _ => [.s d]
  | .sopShl d _ _ => [.s d]
  | .sopShr d _ _ => [.s d]
  | .sopSar d _ _ => [.s d]
  | .sopMin d _ _ => [.s d]
  | .sopMax d _ _ => [.s d]
  | .sopMinn d _ _ => [.s d]
  | .sopMaxn d _ _ => [.s d]
  | .sopSlt d _ _ => [.s d]
  | .sopSltn d _ _ => [.s d]
  | .sopSeq d _ _ => [.s d]
  | .sopPopc d _ => [.s d]
  | .sopClz d _ => [.s d]
  | .sopCtz d _ => [.s d]
  | .sopiAddi d _ _ => [.s d]
  | .sopiAndi d _ _ => [.s d]
  | .sopiOri d _ _ => [.s d]
  | .sopiXori d _ _ => [.s d]
  | .sshiShli d _ _ => [.s d]
  | .sshiShri d _ _ => [.s d]
  | .sshiSari d _ _ => [.s d]
  | .sshiSlti d _ _ => [.s d]
  | .sinsInsert d _ _ => [.s d]
  | .aopAadd d _ _ _ => [.a d]
  | .aopAset d _ _ _ => [.a d]
  | .aopAget _ b _ => [.s b]
  | .aopAmov d _ => [.a d]
  | .cregCrd d _ => [.s d]
  | .variIadd d _ _ _ => [.v d]
  | .variIsub d _ _ _ => [.v d]
  | .variImul d _ _ _ => [.v d]
  | .variImulh d _ _ _ => [.v d]
  | .vlogAnd d _ _ _ => [.v d]
  | .vlogOr d _ _ _ => [.v d]
  | .vlogXor d _ _ _ => [.v d]
  | .vlogAndn d _ _ _ => [.v d]
  | .vsftShl d _ _ _ => [.v d]
  | .vsftShr d _ _ _ => [.v d]
  | .vsftSar d _ _ _ => [.v d]
  | .vsftRol d _ _ _ => [.v d]
  | .vmnxImin d _ _ _ => [.v d]
  | .vmnxImax d _ _ _ => [.v d]
  | .vmnxNmin d _ _ _ => [.v d]
  | .vmnxNmax d _ _ _ => [.v d]
  | .vcmpEq p q _ _ _ => [.p p, .p q]
  | .vcmpLt p q _ _ _ => [.p p, .p q]
  | .vcmpLe p q _ _ _ => [.p p, .p q]
  | .vcmpLtn p q _ _ _ => [.p p, .p q]
  | .vadi d _ _ _ => [.v d]
  | .vimmSx d _ _ => [.v d]
  | .vimmHi d _ _ => [.v d]
  | .fadd d _ _ _ _ => [.v d]
  | .fsub d _ _ _ _ => [.v d]
  | .fmul d _ _ _ _ => [.v d]
  | .fma d _ _ _ _ => [.v d]
  | .fmin d _ _ _ _ => [.v d]
  | .fmax d _ _ _ _ => [.v d]
  | .fceq p q _ _ _ _ => [.p p, .p q]
  | .fclt p q _ _ _ _ => [.p p, .p q]
  | .fcle p q _ _ _ _ => [.p p, .p q]
  | .fcun p q _ _ _ _ => [.p p, .p q]
  | .funaExp2 d _ _ _ => [.v d]
  | .funaLog2 d _ _ _ => [.v d]
  | .funaRcp d _ _ _ => [.v d]
  | .funaRsqrt d _ _ _ => [.v d]
  | .funaSqrt d _ _ _ => [.v d]
  | .funaTanh d _ _ _ => [.v d]
  | .funaSigm d _ _ _ => [.v d]
  | .funaGelu d _ _ _ => [.v d]
  | .funaAbs d _ _ _ => [.v d]
  | .funaNeg d _ _ _ => [.v d]
  | .funaFloor d _ _ _ => [.v d]
  | .funaCeil d _ _ _ => [.v d]
  | .funaRint d _ _ _ => [.v d]
  | .funaFrac d _ _ _ => [.v d]
  | .fcvtConvert d _ _ _ _ => [.v d]
  | .fcvtI32 d _ _ _ => [.v d]
  | .fcvtWi32 d _ _ _ => [.v d]
  | .vsel d _ _ _ => [.v d]
  | .vmovMov d _ _ => [.v d]
  | .vmovBcast d _ _ => [.v d]
  | .vmovRdlane d _ _ => [.s d]
  | .vmovWrlane d _ _ => [.v d]
  | .vmovLaneid d _ => [.v d]
  | .vxlnShfl d _ _ => [.v d]
  | .vxlnBcl d _ _ => [.v d]
  | .vxlnRedadd d _ _ _ => [.v d]
  | .vxlnRedmax d _ _ _ => [.v d]
  | .vxlnScan d _ _ _ => [.v d]
  | .plogPand d _ _ _ => [.p d]
  | .plogPor d _ _ _ => [.p d]
  | .plogPxor d _ _ _ => [.p d]
  | .plogPmovs d _ _ => [.s d]
  | .plogPbal d _ => [.s d]
  | .plogEmr d _ => [.s d]
  | .xfrmHfwd d _ _ => [.v d]
  | .xfrmHinv d _ => [.v d]
  | .xfrmHthr d _ _ => [.v d]
  | .xfrmHpack d _ _ => [.v d]
  | .xfrmHunpk d _ _ _ => [.v d]
  | .xfrmXpose d _ => vRange d 32
  | .xfrmMxq d _ _ _ => [.v d]
  | .xfrmMxdq d _ _ => [.v d]
  | .xfrmI4dq d _ => [.v d]
  | .domnDtag d _ => [.v d]
  | .domnDget d _ => [.s d]
  | .domnHscl d _ _ => [.v d]
  | .domnHbia d _ _ => [.v d]
  | .vld d _ _ _ _ z => vRange d z.regs
  | .vatmAddI d _ _ _ => [.v d]
  | .vatmAddF d _ _ _ => [.v d]
  | .vatmMinI d _ _ _ => [.v d]
  | .vatmMaxI d _ _ _ => [.v d]
  | .vatmMaxF d _ _ _ => [.v d]
  | .vatmAnd d _ _ _ => [.v d]
  | .vatmOr d _ _ _ => [.v d]
  | .vatmXor d _ _ _ => [.v d]
  | .vatmXchg d _ _ _ => [.v d]
  | .vatmCas d _ _ _ => [.v d]
  | .sld d _ _ _ _ => [.s d]
  | .satmAdd d _ _ _ _ => [.s d]
  | .satmSub d _ _ _ _ => [.s d]
  | .satmAnd d _ _ _ _ => [.s d]
  | .satmOr d _ _ _ _ => [.s d]
  | .satmXor d _ _ _ _ => [.s d]
  | .satmMin d _ _ _ _ => [.s d]
  | .satmMax d _ _ _ _ => [.s d]
  | .satmMinn d _ _ _ _ => [.s d]
  | .satmMaxn d _ _ _ _ => [.s d]
  | .satmXchg d _ _ _ _ => [.s d]
  | .satmCas d _ _ _ _ => [.s d]
  | .tsl d _ _ _ _ => [.v d]
  | .tbndBind t _ => [.t t]
  | .tbndUnbind t => [.t t]
  | .tbndQuery d _ _ => [.s d]
  | .ringRbind d _ => [.s d]
  | .ringSwait d _ _ => [.s d]
  | .tbarTbtest d _ => [.s d]
  | .sigSigadd d _ _ _ => [.s d]
  | .sigSigwait d _ _ _ => [.s d]
  | .sigSigrd d _ _ => [.s d]
  | .sigWatch d _ _ _ => [.s d]
  | .sgrpFork d _ _ => [.s d]
  | .sgrpArr d _ _ _ => [.s d]
  | .sgrpCan d _ _ => [.s d]
  | .sgrpWait d _ _ => [.s d]
  | .sgrpFree d _ _ => [.s d]
  | .sgrpInfo d _ _ => [.s d]
  | .hctlWstat d _ => [.s d]
  | .hctlWpos d _ _ => [.s d]
  | .jmpCall _ => [.s 63]
  | .syncEnq d _ _ => [.s d]
  | .syncQctlCreate d _ => [.s d]
  | .syncQctlStop d _ => [.s d]
  | .syncQctlResume d _ _ => [.s d]
  | .syncQctlDestroy d _ => [.s d]
  | .privPgcow d => [.s d]
  | .privPgref d _ => [.s d]
  | .privEseal d _ _ => [.s d]
  | .privPreemptSave d _ => [.s d]
  | .privPreemptRsm d _ => [.s d]
  | _ => []

/-- The registers that a word names (spec/02 R38). -/
def Instr.names (i : Instr) : List Reg := i.reads ++ i.writes

/-- The pipes (spec/02 R30). -/
inductive Pipe where
  | S | V | Q | M | B
  deriving DecidableEq, Repr

/-- The pipe of a major; a reserved major belongs to none (spec/02 R45, R48). -/
def pipeOf (major : Nat) : Option Pipe :=
  if major = 0x06 ∨ major = 0x0F ∨ major = 0x22 ∨ major = 0x23 ∨ major = 0x26 ∨ major = 0x33 ∨ major = 0x34 ∨ major = 0x3D then none
  else if major = 0x00 ∨ 0x37 ≤ major then some .B
  else if major ≤ 0x07 then some .S
  else if major = 0x1A ∨ major = 0x1B ∨ major = 0x1E ∨ major = 0x20 ∨ major = 0x21 then some .Q
  else if major ≤ 0x1F then some .V
  else some .M

/-- The words that end their packet (spec/02 R34). -/
def Instr.endsPacket : Instr → Bool
  | .brv _ _ => true
  | .join => true
  | .brsBeqz _ _ => true
  | .brsBnez _ _ => true
  | .brsBltz _ _ => true
  | .brsBgez _ _ => true
  | .jmpJmp _ => true
  | .jmpCall _ => true
  | .jmpJmpr _ => true
  | .jmpRet => true
  | .miscExit => true
  | .hctlHret _ => true
  | .privTretRetry => true
  | .privTretSkip => true
  | .privTretKill => true
  | .privHalt => true
  | _ => false

/-- The lowest level at which a register may be read: 0 user, 1 trap, 2 agent (spec/20 R301). -/
def cregReadLevel (n : Nat) : Nat :=
  if 0x0100 ≤ n ∧ n < 0x0200 then 1
  else if n = 0x0201 ∨ n = 0x0202 then 1
  else if n = 0x0300 ∨ (0x0302 ≤ n ∧ n ≤ 0x030B) then 2
  else 0

/-- Registers that `creg.cwr` may write (spec/20 R301). -/
def cregWritable (n : Nat) : Bool :=
  n == 0x0005 || n == 0x0140 || n == 0x0200 || n == 0x0201 || (0x0300 ≤ n && n ≤ 0x030B)

/-- The lowest level at which a register may be written; a write of an RO register has no effect at every level (spec/20
R300). -/
def cregWriteLevel (n : Nat) : Nat := if cregWritable n ∧ n ≠ 0x0005 then 2 else 0

/-- Registers served at the device, whose reads are long latency (spec/20 R300, R301). -/
def cregDevice (n : Nat) : Bool := 0x0300 ≤ n

/-- Whether a form may run at a level: 0 user, 1 trap, 2 agent (spec/02 R46, spec/20 R306). -/
def Instr.levelOk (lv : Nat) : Instr → Bool
  | .cregCrd _ n => cregReadLevel n.toNat ≤ lv
  | .cregCwr _ n => cregWriteLevel n.toNat ≤ lv
  | .privTretRetry => lv == 1
  | .privTretSkip => lv == 1
  | .privTretKill => lv == 1
  | .privPgcow _ => 1 ≤ lv
  | .privPgref _ _ => 1 ≤ lv
  | .privTlbinv _ _ _ => 1 ≤ lv
  | .privEseal _ _ _ => lv == 2
  | .privPreemptSave _ _ => lv == 2
  | .privPreemptRsm _ _ => lv == 2
  | .privHalt => 1 ≤ lv
  | _ => true

/-- The guard that restricts a word's lanes; VSEL's guard does not (spec/02 R42). -/
def Instr.guard? : Instr → Option Guard
  | .variIadd _ _ _ g => some g
  | .variIsub _ _ _ g => some g
  | .variImul _ _ _ g => some g
  | .variImulh _ _ _ g => some g
  | .vlogAnd _ _ _ g => some g
  | .vlogOr _ _ _ g => some g
  | .vlogXor _ _ _ g => some g
  | .vlogAndn _ _ _ g => some g
  | .vsftShl _ _ _ g => some g
  | .vsftShr _ _ _ g => some g
  | .vsftSar _ _ _ g => some g
  | .vsftRol _ _ _ g => some g
  | .vmnxImin _ _ _ g => some g
  | .vmnxImax _ _ _ g => some g
  | .vmnxNmin _ _ _ g => some g
  | .vmnxNmax _ _ _ g => some g
  | .vcmpEq _ _ _ _ g => some g
  | .vcmpLt _ _ _ _ g => some g
  | .vcmpLe _ _ _ _ g => some g
  | .vcmpLtn _ _ _ _ g => some g
  | .vadi _ _ g _ => some g
  | .vimmSx _ g _ => some g
  | .vimmHi _ g _ => some g
  | .fadd _ _ _ g _ => some g
  | .fsub _ _ _ g _ => some g
  | .fmul _ _ _ g _ => some g
  | .fma _ _ _ g _ => some g
  | .fmin _ _ _ g _ => some g
  | .fmax _ _ _ g _ => some g
  | .fceq _ _ _ _ g _ => some g
  | .fclt _ _ _ _ g _ => some g
  | .fcle _ _ _ _ g _ => some g
  | .fcun _ _ _ _ g _ => some g
  | .funaExp2 _ _ g _ => some g
  | .funaLog2 _ _ g _ => some g
  | .funaRcp _ _ g _ => some g
  | .funaRsqrt _ _ g _ => some g
  | .funaSqrt _ _ g _ => some g
  | .funaTanh _ _ g _ => some g
  | .funaSigm _ _ g _ => some g
  | .funaGelu _ _ g _ => some g
  | .funaAbs _ _ g _ => some g
  | .funaNeg _ _ g _ => some g
  | .funaFloor _ _ g _ => some g
  | .funaCeil _ _ g _ => some g
  | .funaRint _ _ g _ => some g
  | .funaFrac _ _ g _ => some g
  | .fcvtConvert _ _ _ g _ => some g
  | .fcvtI32 _ _ g _ => some g
  | .fcvtWi32 _ _ g _ => some g
  | .vmovMov _ _ g => some g
  | .vmovBcast _ _ g => some g
  | .vmovRdlane _ _ g => some g
  | .vmovWrlane _ _ g => some g
  | .vmovLaneid _ g => some g
  | .vxlnShfl _ _ g => some g
  | .vxlnBcl _ _ g => some g
  | .vxlnRedadd _ _ g _ => some g
  | .vxlnRedmax _ _ g _ => some g
  | .vxlnScan _ _ g _ => some g
  | .vld _ _ _ g _ _ => some g
  | .vst _ _ _ g _ _ => some g
  | .vatmAddI _ _ _ g => some g
  | .vatmAddF _ _ _ g => some g
  | .vatmMinI _ _ _ g => some g
  | .vatmMaxI _ _ _ g => some g
  | .vatmMaxF _ _ _ g => some g
  | .vatmAnd _ _ _ g => some g
  | .vatmOr _ _ _ g => some g
  | .vatmXor _ _ _ g => some g
  | .vatmXchg _ _ _ g => some g
  | .vatmCas _ _ _ g => some g
  | .tsl _ _ _ _ g => some g
  | .tss _ _ _ _ g => some g
  | _ => none

/-- The v registers that a word reads, ascending, each once. -/
def Instr.vReads (i : Instr) : List VReg :=
  (List.finRange 64).filter fun r => i.reads.contains (.v r.val)

/-! ### What a word issues and orders -/

/-- The scope of an ordering. -/
def scope? : Ordering3 → Option Scope
  | .plain => none
  | .at_ sc => some sc

/-- The scope at which a word acquires. -/
def Instr.acqScope : Instr → Option Scope
  | .sld _ _ r _ _ => scope? r
  | .satmAdd _ _ _ r _ => scope? r
  | .satmSub _ _ _ r _ => scope? r
  | .satmAnd _ _ _ r _ => scope? r
  | .satmOr _ _ _ r _ => scope? r
  | .satmXor _ _ _ r _ => scope? r
  | .satmMin _ _ _ r _ => scope? r
  | .satmMax _ _ _ r _ => scope? r
  | .satmMinn _ _ _ r _ => scope? r
  | .satmMaxn _ _ _ r _ => scope? r
  | .satmXchg _ _ _ r _ => scope? r
  | .satmCas _ _ _ r _ => scope? r
  | .sigSigwait _ _ _ r => scope? r
  | .sigSigrd _ _ r => scope? r
  | .sigWatch _ _ _ r => scope? r
  | .ringSwait _ _ _ => some .clu
  | _ => none

/-- The scope at which a word releases. -/
def Instr.relScope : Instr → Option Scope
  | .sst _ _ r _ _ => scope? r
  | .satmAdd _ _ _ r _ => scope? r
  | .satmSub _ _ _ r _ => scope? r
  | .satmAnd _ _ _ r _ => scope? r
  | .satmOr _ _ _ r _ => scope? r
  | .satmXor _ _ _ r _ => scope? r
  | .satmMin _ _ _ r _ => scope? r
  | .satmMax _ _ _ r _ => scope? r
  | .satmMinn _ _ _ r _ => scope? r
  | .satmMaxn _ _ _ r _ => scope? r
  | .satmXchg _ _ _ r _ => scope? r
  | .satmCas _ _ _ r _ => scope? r
  | .sigSigadd _ _ _ r => scope? r
  | .tbarTbarr _ o => some o
  | .ringSpub _ _ => some .clu
  | .ringSrel _ _ => some .clu
  | _ => none

/-- Whether a word only reads memory, so that a release fence does not hold it. -/
def Instr.readsOnly : Instr → Bool
  | .vld _ _ _ _ _ _ => true
  | .sld _ _ _ _ _ => true
  | .tsl _ _ _ _ _ => true
  | .tbarTbtest _ _ => true
  | .sigSigwait _ _ _ _ => true
  | .sigSigrd _ _ _ => true
  | .sigWatch _ _ _ _ => true
  | .ringSwait _ _ _ => true
  | _ => false

/-- The class of the operation that a word issues (spec/09 R160, spec/10 R176; a device register is read as a load, spec/20 R300). -/
def Instr.opClass : Instr → Option OpClass
  | .cregCrd _ n => if cregDevice n.toNat then some .ld else none
  | .vld _ _ _ _ _ _ => some .ld
  | .vst _ _ _ _ _ _ => some .st
  | .vatmAddI _ _ _ _ => some .at_
  | .vatmAddF _ _ _ _ => some .at_
  | .vatmMinI _ _ _ _ => some .at_
  | .vatmMaxI _ _ _ _ => some .at_
  | .vatmMaxF _ _ _ _ => some .at_
  | .vatmAnd _ _ _ _ => some .at_
  | .vatmOr _ _ _ _ => some .at_
  | .vatmXor _ _ _ _ => some .at_
  | .vatmXchg _ _ _ _ => some .at_
  | .vatmCas _ _ _ _ => some .at_
  | .sld _ _ _ _ _ => some .ld
  | .sst _ _ _ _ _ => some .st
  | .satmAdd _ _ _ _ _ => some .at_
  | .satmSub _ _ _ _ _ => some .at_
  | .satmAnd _ _ _ _ _ => some .at_
  | .satmOr _ _ _ _ _ => some .at_
  | .satmXor _ _ _ _ _ => some .at_
  | .satmMin _ _ _ _ _ => some .at_
  | .satmMax _ _ _ _ _ => some .at_
  | .satmMinn _ _ _ _ _ => some .at_
  | .satmMaxn _ _ _ _ _ => some .at_
  | .satmXchg _ _ _ _ _ => some .at_
  | .satmCas _ _ _ _ _ => some .at_
  | .tsl _ _ _ _ _ => some .ld
  | .tss _ _ _ _ _ => some .st
  | .xcpyIn _ _ => some .cp
  | .xcpyOut _ _ => some .cp
  | .xcpyMcin _ _ => some .cp
  | .ringRbind _ _ => some .sg
  | .ringRunbind _ => some .sg
  | .ringSpub _ _ => some .sg
  | .ringSrel _ _ => some .sg
  | .ringSwait _ _ _ => some .sg
  | .tbarTbinit _ _ => some .st
  | .tbarTbarr _ _ => some .sg
  | .tbarTbtest _ _ => some .ld
  | .sigSigadd _ _ _ _ => some .sg
  | .sigSigwait _ _ _ _ => some .sg
  | .sigSigrd _ _ _ => some .sg
  | .sigWatch _ _ _ _ => some .sg
  | .sgrpFork _ _ _ => some .sg
  | .sgrpArr _ _ _ _ => some .sg
  | .sgrpCan _ _ _ => some .sg
  | .sgrpWait _ _ _ => some .sg
  | .sgrpFree _ _ _ => some .sg
  | .sgrpInfo _ _ _ => some .sg
  | .syncEnq _ _ _ => some .sg
  | .syncQctlCreate _ _ => some .sg
  | .syncQctlStop _ _ => some .sg
  | .syncQctlResume _ _ _ => some .sg
  | .syncQctlDestroy _ _ => some .sg
  | .privPgcow _ => some .sg
  | .privPgref _ _ => some .sg
  | .privEseal _ _ _ => some .sg
  | .privPreemptSave _ _ => some .sg
  | .privPreemptRsm _ _ => some .sg
  | _ => none

/-- For a word that reads or writes records as it issues, the scope of its release, team scope where it has none (spec/15 R262, R266 to
R268; spec/20 R308 to R312). -/
def Instr.recordRel : Instr → Option Scope
  | .sgrpFork _ _ r => some ((scope? r).getD .team)
  | .sgrpArr _ _ _ r => some ((scope? r).getD .team)
  | .sgrpCan _ _ r => some ((scope? r).getD .team)
  | .sgrpWait _ _ r => some ((scope? r).getD .team)
  | .sgrpFree _ _ r => some ((scope? r).getD .team)
  | .sgrpInfo _ _ r => some ((scope? r).getD .team)
  | .syncGbar o => some o
  | .syncEnq _ _ _ => some .dev
  | .syncQctlCreate _ _ => some .dev
  | .syncQctlStop _ _ => some .dev
  | .syncQctlResume _ _ _ => some .dev
  | .syncQctlDestroy _ _ => some .dev
  | .privPgcow _ => some .team
  | .privPgref _ _ => some .team
  | .privTlbinv _ _ _ => some .team
  | .privEseal _ _ _ => some .team
  | .privPreemptSave _ _ => some .team
  | .privPreemptRsm _ _ => some .team
  | _ => none

/-- The address registers that such a word reads or writes memory at, with the bytes that it needs there. -/
def Instr.recordVas : Instr → List (AReg × Nat)
  | .sgrpFork _ a _ => [(a, 512)]
  | .sgrpArr _ a _ _ => [(a, 128)]
  | .sgrpCan _ a _ => [(a, 128)]
  | .sgrpWait _ a _ => [(a, 512)]
  | .sgrpFree _ a _ => [(a, 128)]
  | .sgrpInfo _ a _ => [(a, 512)]
  | .syncEnq _ q p => [(q, 128), (p, 64)]
  | .syncQctlCreate _ q => [(q, 128)]
  | .syncQctlStop _ q => [(q, 128)]
  | .syncQctlResume _ q _ => [(q, 128)]
  | .syncQctlDestroy _ q => [(q, 128)]
  | _ => []

/-- Whether a word makes a release. -/
def Instr.releases (i : Instr) : Bool :=
  i.relScope.isSome ||
  (match i with
    | .fenceRel _ _ => true
    | .fenceAr _ _ => true
    | .fenceSc _ _ => true
    | .hctlHret _ => true
    | _ => (match i.recordRel with | some sc => sc != .team | none => false))

/-- Whether a word goes to the transform pipe. -/
def Instr.isXfrm : Instr → Bool
  | .xfrmHfwd _ _ _ => true
  | .xfrmHinv _ _ => true
  | .xfrmHthr _ _ _ => true
  | .xfrmHpack _ _ _ => true
  | .xfrmHunpk _ _ _ _ => true
  | .xfrmXpose _ _ => true
  | .xfrmMxq _ _ _ _ => true
  | .xfrmMxdq _ _ _ => true
  | .xfrmI4dq _ _ => true
  | _ => false

/-- A scope widened for the location class that its access orders (spec/08 R145). -/
def Scope.widen (sc : Scope) (loc : Nat) : Scope :=
  match loc with
  | 1 => .sys
  | 2 => (match sc with | .sys => .sys | _ => .dom)
  | _ => sc

end Sys2Proof

namespace Sys2Proof.Machine
open Sys2Proof

/-- Levels in order (spec/20 R299). -/
def Level.code : Level → Nat
  | .user => 0
  | .trap => 1
  | .agent => 2

/-! ### A team's registers (spec/02 R40) -/

/-- The team in issue changed. -/
def State.setMe (s : State) (f : Team → Team) : State := { s with me := f s.me }

/-- The lanes of a v register. -/
def Team.v (t : Team) (r : VReg) : List W32 := t.regs.v[r]
/-- The domain tag of a v register. -/
def Team.tag (t : Team) (r : VReg) : BitVec 4 := t.regs.tag[r]
/-- A scalar register. -/
def Team.s (t : Team) (r : SReg) : W64 := t.regs.s[r]
/-- An address register. -/
def Team.a (t : Team) (r : AReg) : W80 := t.regs.a[r]
/-- A predicate; p7 reads 1 in every lane. -/
def Team.p (t : Team) (r : PReg) : Mask := if r = 7 then BitVec.allOnes 1024 else t.regs.p[r]
/-- A tile register. -/
def Team.t (t : Team) (r : TReg) : W128 := t.regs.t[r]
/-- A threshold register. -/
def Team.h (t : Team) (r : HReg) : W32 := t.regs.h[r]

/-- Registers changed. -/
def Team.updRegs (t : Team) (f : Regs → Regs) : Team := { t with regs := f t.regs }
/-- A scalar register written. -/
def Team.setS (t : Team) (r : SReg) (x : W64) : Team := t.updRegs fun g => { g with s := g.s.set r x }
/-- An address register written. -/
def Team.setA (t : Team) (r : AReg) (x : W80) : Team := t.updRegs fun g => { g with a := g.a.set r x }
/-- A tile register written. -/
def Team.setT (t : Team) (r : TReg) (x : W128) : Team := t.updRegs fun g => { g with t := g.t.set r x }
/-- A domain tag written. -/
def Team.setTag (t : Team) (r : VReg) (x : BitVec 4) : Team := t.updRegs fun g => { g with tag := g.tag.set r x }
/-- A predicate written in the lanes of a mask; p7 is not written. -/
def Team.setP (t : Team) (r : PReg) (m x : Mask) : Team :=
  if r = 7 then t else t.updRegs fun g => { g with p := g.p.set r ((g.p[r] &&& ~~~m) ||| (x &&& m)) }

/-- Lanes `l` and up: those in the mask from `ys`, the others kept. -/
def blend (m : Mask) : Nat → List W32 → List W32 → List W32
  | l, x :: xs, y :: ys => (if m.getLsbD l then y else x) :: blend m (l + 1) xs ys
  | _, xs, _ => xs

/-- The lanes of a v register written. -/
def Team.setV (t : Team) (r : VReg) (xs : List W32) : Team := t.updRegs fun g => { g with v := g.v.set r xs }
/-- A v register written in the lanes of a mask; with a non-empty mask its tag becomes `tag` (spec/06 R100). -/
def Team.writeV (t : Team) (r : VReg) (m : Mask) (ys : List W32) (tag : BitVec 4) : Team :=
  if m = 0 then t else (t.setV r (blend m 0 (t.v r) ys)).setTag r tag

/-- Control state changed. -/
def Team.updCtl (t : Team) (f : Ctl → Ctl) : Team := { t with ctl := f t.ctl }
/-- What is under way changed. -/
def Team.updFlow (t : Team) (f : Flow → Flow) : Team := { t with flow := f t.flow }

/-! ### What the words of a group see (spec/02 R33) -/

/-- The execute mask that a word sees. -/
def Team.em (t : Team) : Mask :=
  match t.flow.group.view with
  | some v => v.em
  | none => t.ctl.em

/-- The rounding state that a word sees. -/
def Team.sr (t : Team) : W32 :=
  match t.flow.group.view with
  | some v => v.srstate
  | none => t.ctl.srstate

/-- Operations of a class that have not retired (spec/09 R161). -/
def Team.outstanding (t : Team) (c : OpClass) : Nat := (t.flow.ops.filter (·.cls == c)).length

/-- The counter of a class that a word sees: not what earlier words of its group have issued, less what has retired since. -/
def Team.counter (t : Team) (c : OpClass) : Nat :=
  match t.flow.group.view with
  | some v => min (v.ctrs.getD c.code 0) (t.outstanding c)
  | none => t.outstanding c

/-- The limit of a class (spec/09 R161). -/
def opLimit : OpClass → Nat
  | .ld => 63
  | .st => 63
  | .at_ => 63
  | .cp => 15
  | .sg => 15

/-! ### Masks (spec/02 R42, spec/12 R202) -/

/-- The lanes of a team. -/
def Team.lanes (t : Team) : Mask := BitVec.ofNat 1024 (2 ^ t.width - 1)

/-- The lanes whose guard is 1. -/
def Team.guardMask (t : Team) (g : Guard) : Mask := if g.neg then ~~~(t.p g.p) else t.p g.p

/-- The effective mask of a guard. -/
def Team.eff (t : Team) (g : Guard) : Mask := t.em &&& t.guardMask g

/-- Mask word w (spec/12 R202). -/
def maskWord (m : Mask) (w : Nat) : W32 := m.extractLsb' (32 * w) 32

/-- Mask words w - 1 down to 0, as bits that tell which are non-zero. -/
def summaryN (m : Mask) : Nat → Nat
  | 0 => 0
  | w + 1 => (if maskWord m w = 0 then 0 else 2 ^ w) + summaryN m w

/-- The summary word (spec/12 R202). -/
def Team.summary (t : Team) (m : Mask) : W32 := BitVec.ofNat 32 (summaryN m t.id.m)

/-- Number of set bits below n. -/
def popN (x : Nat) : Nat → Nat
  | 0 => 0
  | n + 1 => (x / 2 ^ n % 2) + popN x n

/-- The lanes of a mask below n, ascending: the order of spec/00 R7. -/
def lanesOf (m : Mask) (n : Nat) : List Nat := (List.range n).filter (m.getLsbD ·)

/-- The mask of a list of lanes. -/
def maskOf (ls : List Nat) : Mask := ls.foldl (fun m l => m ||| (1#1024 <<< l)) 0

/-- The lowest lane of a mask. -/
def lowestLane (m : Mask) (n : Nat) : Option Nat := (lanesOf m n).head?

/-! ### Effective addresses -/

/-- The address of each lane of a vector access (spec/10 R177). -/
def Team.laneAddr (t : Team) (a : AReg) (o : VReg) (scale : Nat) (l : Nat) : W80 :=
  t.a a + ((t.v o).getD l 0).signExtend 80 * BitVec.ofNat 80 scale

/-- The address of SLD and SST (spec/10 R180). -/
def Team.scalarAddr (t : Team) (a : AReg) (i : BitVec 9) (sz : Nat) : W80 := t.a a + i.signExtend 80 * BitVec.ofNat 80 sz

/-! ### Domain tags and reconstruction (spec/07 R129 to R132) -/

/-- Lanes of a block. -/
def Team.blockLen (t : Team) : Nat := min t.width 128

/-- A list cut into blocks of n. -/
def blocksOf (n : Nat) : Nat → List W32 → List (List W32)
  | 0, _ => []
  | k + 1, xs => xs.take n :: blocksOf n k (xs.drop n)

/-- A transform made in each block of a register's lanes. -/
def Team.inBlocks (t : Team) (f : List W32 → List W32) (xs : List W32) : List W32 :=
  ((blocksOf t.blockLen (t.width / t.blockLen) xs).map f).flatten

/-- The plain values of a tagged register. -/
def Team.plain (t : Team) (r : VReg) : List W32 :=
  if t.tag r = 0 then t.v r else t.inBlocks (fun xs => haarInverse (t.tag r).toNat xs) (t.v r)

/-- One register reconstructed (spec/07 R131). -/
def Team.rebuild (t : Team) (r : VReg) : Team := if t.tag r = 0 then t else (t.setV r (t.plain r)).setTag r 0

/-- The effective mask of a word. -/
def Team.effOf (t : Team) (i : Instr) : Mask :=
  match i.guard? with
  | some g => t.eff g
  | none => t.em

/-- Whether a word reads its tagged sources as coefficients (spec/07 R130). -/
def Team.readsCoeffs (t : Team) : Instr → Bool
  | .fadd _ a b _ .f32 => t.tag a != 0 && t.tag a == t.tag b
  | .fsub _ a b _ .f32 => t.tag a != 0 && t.tag a == t.tag b
  | .domnDtag _ _ => true
  | .domnDget _ _ => true
  | .domnHscl _ _ _ => true
  | .domnHbia _ _ _ => true
  | .xfrmHinv _ _ => true
  | .xfrmHthr _ _ _ => true
  | .xfrmHpack _ _ _ => true
  | _ => false

/-- A team after the reconstructions that a word needs (spec/07 R131, R132). -/
def Team.prepare (t : Team) (i : Instr) : Team :=
  if t.effOf i = 0 ∨ t.readsCoeffs i then t else i.vReads.foldl Team.rebuild t

end Sys2Proof.Machine
end

