-- ==== Sys2Proof/Machine/Retire.lean ====
section
/-!
DEFINITION. Sys2Proof/Machine/Retire.lean: outstanding operations and their retirement, addresses as a team or agent reaches
them, entry to a trap handler, and every end: of a team, a walk, a sub-launch, a bundle and a queue (spec/01 R23; spec/09
R161; spec/10 R175; spec/12 R201; spec/13 R231, R233; spec/14 R244, R246; spec/15 R266; spec/20 R299; spec/22 R318 to R322).
-/
namespace Sys2Proof.Machine
open Sys2Proof

/-! ### Outstanding operations (spec/09 R160, R161; spec/02 R36, R37) -/

/-- One bit for each register of a list. -/
def bitsOf (rs : List (Fin 64)) : W64 := rs.foldl (fun m r => m ||| (1#64 <<< r.val)) 0

/-- Operations after the done ones with no older operation of their class before them have retired. -/
def retired (seen : List OpClass) : List Op → List Op
  | [] => []
  | o :: os => if o.done && !seen.contains o.cls then retired seen os else o :: retired (o.cls :: seen) os

/-- An operation that orders nothing and is not held back. -/
def Op.new (id : Nat) (cls : OpClass) (ready : Bool) (ws : List RegWrite) (pv : List VReg) (ps : List SReg) (dests : List Dest) : Op :=
  ⟨id, cls, ready, false, ws, pv, ps, dests, none, none, none⟩

/-- One long-latency result written. -/
def Team.apply (t : Team) : RegWrite → Team
  | .v r l x => t.setV r ((t.v r).set l x)
  | .s r x => t.setS r x

/-- Whether no register is pending. -/
def Team.quiet (t : Team) : Bool := t.regs.pendV == 0 && t.regs.pendS == 0

/-- An operation issued: its counter rises and its destinations become pending. -/
def Team.addOp (t : Team) (o : Op) : Team :=
  { t with
    regs := { t.regs with pendV := t.regs.pendV ||| bitsOf o.pv, pendS := t.regs.pendS ||| bitsOf o.ps }
    flow := { t.flow with ops := t.flow.ops ++ [o] } }

/-- An operation complete: its results are written, its pending bits clear, and it retires when it is the oldest of its
class. -/
def Team.complete (t : Team) (id : Nat) : Team :=
  match t.flow.ops.find? (·.id == id) with
  | none => t
  | some o =>
    let t1 := if o.done then t else o.writes.foldl Team.apply t
    { t1 with
      regs := { t1.regs with pendV := t1.regs.pendV &&& ~~~(bitsOf o.pv), pendS := t1.regs.pendS &&& ~~~(bitsOf o.ps) }
      flow := { t1.flow with ops := retired [] (t1.flow.ops.map fun x => if x.id = id then { x with done := true } else x) } }

/-- The results of an operation fixed. -/
def Team.fixOp (t : Team) (id : Nat) (ws : List RegWrite) : Team :=
  t.updFlow fun f => { f with ops := f.ops.map fun x => if x.id = id then { x with ready := true, writes := ws, held := none } else x }

/-- An operation that ends with its result never written (spec/12 R201). -/
def Team.dropOp (t : Team) (id : Nat) : Team := (t.fixOp id []).complete id

/-! ### Addresses (spec/10 R175, spec/18 R277) -/

/-- A bundle's allocation in a cluster: offset in the cluster store and bytes. -/
def State.alloc? (s : State) (bundle : Option Nat) (cluster : Nat) : Option (Nat × Nat) :=
  match bundle with
  | none => none
  | some b =>
    match s.bundle? b with
    | none => none
    | some x =>
      match x.cstores.find? (·.1 == cluster) with
      | some (_, off, n) => some (off, n)
      | none => none

/-- The key of `n` bytes at an offset of a bundle's allocation. -/
def State.cstoreAt (s : State) (bundle : Option Nat) (cluster off n : Nat) : Option Nat :=
  match s.alloc? bundle cluster with
  | some (base, len) => if off + n ≤ len then some (cstoreKey cluster (base + off)) else none
  | none => none

/-- Where `n` bytes at an address lead for an access of a context's team: the cluster store aperture, or translation;
location class 3 is the cluster store. -/
def State.reach (s : State) (ctx gen : Nat) (bundle : Option Nat) (cluster : Nat) (k : Access) (va : W80) (n : Nat) :
    Trans × State :=
  if va.toNat / 2 ^ 64 = 0xFFFF then
    if va.toNat % 2 ^ 64 / 2 ^ 23 ≠ 0 then (.fault 4 2, s)
    else
      match s.cstoreAt bundle cluster (va.toNat % 2 ^ 23) n with
      | some key => (.ok key 3, s)
      | none => (.fault 4 2, s)
  else s.translate cluster ctx gen k va.toNat

/-- Where an access of a team leads. The agent slot, which has no context, names physical device addresses (log 10). -/
def State.teamReach (s : State) (t : Team) (k : Access) (va : W80) (n : Nat) : Trans × State :=
  if t.id.ctx = noCtx then
    (if s.isDevice va.toNat then .ok va.toNat 0 else .fault 3 4, s)
  else s.reach t.id.ctx t.id.gen t.id.bundle t.cluster k va n

/-- Where an access of an agent for a bundle leads, with no fault. -/
def State.agentReach (s : State) (ctx gen : Nat) (bundle : Option Nat) (cluster : Nat) (k : Access) (va : W80) (n : Nat) :
    Option Nat :=
  if va.toNat / 2 ^ 64 = 0xFFFF then
    if va.toNat % 2 ^ 64 / 2 ^ 23 ≠ 0 then none else s.cstoreAt bundle cluster (va.toNat % 2 ^ 23) n
  else s.agentKey ctx gen k va

/-! ### Entry to a trap handler (spec/22 R318) -/

/-- TCAUSE of a fault (spec/20 R302). -/
def FaultInfo.tcause (f : FaultInfo) : W64 := BitVec.ofNat 64 (f.cls + f.detail * 2 ^ 8 + f.hostfail.toNat * 2 ^ 21)

/-- The virtual address of a team's trap table: TRAPBASE (spec/20 R301) below the upper bits of the `.kmeta` record's address plus traptab
(spec/03 R65). -/
def Team.trapTable (t : Team) : W80 := (t.id.kernel.meta_ + BitVec.ofNat 80 t.id.kernel.traptab).extractLsb' 64 16 ++ t.ctl.trapbase

/-- The handler entry of a class; all-ones where the table does not translate (log 9). -/
def State.trapEntry (s : State) (t : Team) (cls : Nat) : W64 :=
  match s.agentRead t.id.ctx t.id.gen (t.trapTable + BitVec.ofNat 80 (8 * cls)) 8 with
  | some x => BitVec.ofNat 64 x
  | none => BitVec.allOnes 64

/-- What a trap at a position reports. -/
def FaultInfo.regs (f : FaultInfo) (pc : W64) (word : Nat) (packet : BitVec 96) (lanes : Mask) : TrapRegs where
  tcause := f.tcause
  tpc := pc <<< 2 ||| BitVec.ofNat 64 word
  taddr := f.addr
  twords := packet
  tbmask := f.bmask
  tlanem := lanes

/-- No group under way. -/
def Group.none : Group := ⟨Option.none, false, false⟩

/-- A team in its handler (spec/22 R318): trap registers, mask and stack set aside, handler mask, level, PC. -/
def Team.enter (t : Team) (p : PendTrap) (entry : W64) : Team :=
  { t with
    ctl := { t.ctl with
      pc := entry
      word := 0
      em := if p.laneWise then p.lanes else t.ctl.em
      stack := []
      asideEm := t.ctl.em
      aside := t.ctl.stack
      level := .trap
      trap := p.info.regs p.pc p.word t.flow.packet (if p.laneWise then p.lanes else 0) }
    flow := { t.flow with
      group := .none
      fetched := false
      rebuild := []
      park := none
      trapPend := none
      sw := false
      hold := .none
      pinned := if p.info.cls = 7 then t.flow.pinned.map (fun x => { x with taken := true }) else t.flow.pinned } }

/-! ### Gang barriers (spec/15 R266) -/

/-- The teams of a gang that have not ended. -/
def State.gangLive (s : State) (g : Nat) : List Team := s.all.filter fun t => t.id.gang == some g && !t.ended

/-- A team released from its gang's barrier. -/
def Team.passBarrier (t : Team) : Team := t.updFlow fun f => { f with arrived := false, hold := .none }

/-- Every waiting team of a gang acquires at the scope it named. -/
def State.acquireAll (s : State) (ts : List Team) : State :=
  ts.foldl (fun s t =>
    match t.flow.hold with
    | .gbar sc => if t.placed then s.acquire t.core sc else s
    | _ => s) s

/-- The barrier of a gang, tested after an arrival or an end: when every live team has arrived the generation advances. -/
def State.gangCheck (s : State) (g : Nat) : State :=
  let live := s.gangLive g
  if live.all (·.flow.arrived) ∧ live ≠ [] then
    let s1 := s.acquireAll live
    let pass (t : Team) : Team := if t.id.gang = some g ∧ ¬ t.ended then t.passBarrier else t
    { s1 with
      me := pass s1.me
      teams := s1.teams.map pass
      gangs := s1.gangs.map fun x => if x.id = g then { x with gen := x.gen + 1 } else x }
  else s

/-! ### Bundles and queues (spec/01 R23; spec/14 R244, R246) -/

/-- A field of a queue's descriptor written by an agent. -/
def State.descPut (s : State) (q : Queue) (off n x : Nat) : State :=
  s.agentWrite q.ctx q.gen (q.desc + BitVec.ofNat 80 off) n x

/-- A DYING queue with no live bundle left: drained, DESTROYED, errsig, and no longer known. -/
def State.drainCheck (s : State) (q : Nat) : State :=
  match s.queue? q with
  | none => s
  | some x =>
    if x.dying ∧ ¬ s.bundles.any (·.queue == q) then
      let s1 := ((s.descPut x 97 1 1).descPut x 96 1 4).signalDec x.ctx x.gen x.errsig false
      { s1 with queues := s1.queues.filter (·.id != q) }
    else s

/-- Whether every sub-launch of a bundle has retired; a stream one has when no ring of the bundle is bound. -/
def State.subsDone (s : State) (b : Bundle) : Bool :=
  b.subs.all fun x => if x.rec_.kind = 2 then !s.rings.any (·.bundle == b.id) else x.done

/-- What a bundle holds let go: the bundle itself, its gangs, its share of the save pool. -/
def State.dropBundle (s : State) (b : Bundle) : State :=
  { s with
    bundles := s.bundles.filter (·.id != b.id)
    edits := s.edits.filter fun e => !b.cstores.any fun (c, off, n) => decide (cstoreKey c off ≤ e.key) && decide (e.key < cstoreKey c (off + n))
    gangs := s.gangs.filter fun g => !b.subs.any fun x => x.rec_.kind == 0 && x.gang == g.id
    ctxs := s.ctxs.map fun c => { c with poolUsed := c.poolUsed.filter (·.1 != b.id) } }

/-- The dirty sectors that ended teams of a context left, written back: what the release of a bundle's retirement performs. -/
def State.flushEnded (s : State) (ctx gen : Nat) : State :=
  (s.writeBackAll true (s.dirty.filter fun d => !d.pinned && d.ctx == ctx && d.gen == gen && !s.alive d.tid)).1

/-- A bundle retires: after the stores of its teams, its signal is decremented once, with bit 63 set if a sub-launch ended by
abort. -/
def State.retireBundle (s : State) (b : Bundle) : State :=
  match s.queue? b.queue with
  | none => s.dropBundle b
  | some q =>
    let ab := b.aborted || b.subs.any (·.aborted)
    (((s.flushEnded q.ctx q.gen).signalDec q.ctx q.gen b.signal ab).dropBundle b).drainCheck q.id

/-- A bundle tested for retirement. -/
def State.bundleCheck (s : State) (id : Nat) : State :=
  match s.bundle? id with
  | none => s
  | some b => if b.phase = 2 ∧ s.subsDone b then s.retireBundle b else s

/-- A sub-launch retired, by abort or not, and its bundle tested. -/
def State.subDone (s : State) (bundle sub : Nat) (abort : Bool) : State :=
  (s.updBundle bundle fun b => { b with
    subs := b.subs.zipIdx.map fun (x, i) => if i = sub then { x with done := true, aborted := x.aborted || abort } else x }).bundleCheck
    bundle

/-- A sub-launch marked as ending by abort, not yet retired. -/
def State.subAbort (s : State) (bundle sub : Nat) : State :=
  s.updBundle bundle fun b => { b with
    subs := b.subs.zipIdx.map fun (x, i) => if i = sub then { x with aborted := true } else x }

/-! ### The end of a team (spec/12 R201, spec/06 R103) -/

/-- The waits of a team cancelled: removed from their homes, their operations retired with nothing written. -/
def State.cancelWaits (s : State) (tid : Nat) : State :=
  let ids := (s.waits.filter (·.tid == tid)).map (·.op)
  let s1 := { s with waits := s.waits.filter (·.tid != tid) }
  s1.updTeam tid fun t => ids.foldl Team.dropOp t

/-- Rings of a team unbound as by `ring.runbind` (spec/10 R195). -/
def State.unbindRings (s : State) (tid : Nat) : State :=
  { s with rings := s.rings.map fun r => if r.tid = tid then { r with unbind := true } else r }

/-- A team that has ended issues nothing more; its slot waits for TEAM_SLOT_RELEASE. -/
def Team.stop (t : Team) : Team :=
  t.updFlow fun f => { f with
    ended := true
    group := .none
    fetched := false
    rebuild := []
    hold := .none
    park := none
    trapPend := none
    pinned := none
    arrived := false
    upcall := none
    sw := false }

/-- The pinned data of a team dropped: a kill or a skip (spec/22 R323). -/
def State.dropPinnedOf (s : State) (tid : Nat) : State := { s with dirty := s.dirty.filter fun d => !(d.tid == tid && d.pinned) }

/-- A team ends; write-backs of it that are pinned are lost (spec/22 R323). With `cancel` its waits are cancelled: a kill, a termination with
discard or a discard for rerun. -/
def State.endTeam (s : State) (tid : Nat) (cancel : Bool) : State :=
  let s0 := if cancel then s.cancelWaits tid else s
  let s1 := (s0.pinnedOf tid).foldl State.lose s0
  let s2 := (s1.unbindRings tid).updTeam tid Team.stop
  match s.team? tid with
  | some t =>
    match t.id.gang with
    | some g => s2.gangCheck g
    | none => s2
  | none => s2

/-! ### The end of a walk (spec/13 R231, R233; spec/22 R322) -/

/-- A live walk. -/
def State.walk? (s : State) (id : Nat) : Option Walk := s.walks.find? (·.id == id)

/-- A walk changed. -/
def State.updWalk (s : State) (id : Nat) (f : Walk → Walk) : State :=
  { s with walks := s.walks.map fun w => if w.id = id then f w else w }

/-- The walk engine of a core changed. -/
def State.updWalkCore (s : State) (c : Nat) (f : WalkCore → WalkCore) : State :=
  s.updCore c fun x => { x with walk := x.walk.map f }

/-- The pool teams of a walk. -/
def State.poolTeams (s : State) (w : Nat) : List Team :=
  s.all.filter fun t => !t.ended && (match t.id.pool with | some p => p.walk == w | none => false)

/-- The 64 bytes of a completion record. -/
def Walk.record (w : Walk) (status detail : Nat) : List Byte :=
  leBytes 4 status ++ leBytes 4 detail ++ leBytes 4 w.tiles ++ leBytes 4 w.tainted ++
    leBytes 4 (w.ftaint.getD 0xFFFFFFFF) ++ leBytes 4 w.upa ++ leBytes 4 w.upb ++ leBytes 4 w.upc ++ leBytes 4 w.reraise ++
    leBytes 4 w.gcomp ++ leBytes 4 w.gskip ++ leBytes 4 w.stalls ++ leBytes 8 w.starve ++ leBytes 8 w.upwait

/-- The cluster whose store a walk's addresses name: that of its first core. -/
def Walk.cluster (w : Walk) : Nat := w.cores.headD 0 / 8

/-- Bytes of a walk's record stored. -/
def State.walkStore (s : State) (w : Walk) (va : W80) (bs : List Byte) : State :=
  match s.agentReach w.ctx w.gen (some w.bundle) w.cluster .store va bs.length with
  | some key => s.homeStore w.ctx w.gen va.toNat (keyed key bs)
  | none => s

/-- A walk's signal decremented. -/
def State.walkSignal (s : State) (w : Walk) (mark : Bool) : State := s.signalDec w.ctx w.gen w.rec_.signal mark

/-- The counters of a core's engine added to its walk's. -/
def Walk.absorb (w : Walk) (c : WalkCore) : Walk :=
  { w with gcomp := w.gcomp + c.gcomp, gskip := w.gskip + c.gskip, stalls := w.stalls + c.stalls,
           starve := w.starve + c.starve, upwait := w.upwait + c.upwait }

/-- A core's engine let go, its counters kept in the walk's. -/
def State.freeWalkCore (s : State) (id c : Nat) : State :=
  match (s.core c).walk with
  | some wc =>
    if wc.walk = id then (s.updWalk id (·.absorb wc)).updCore c fun x => { x with walk := none } else s
  | none => s

/-- A walk over: engines and pool teams let go, the record written, the signal decremented, its sub-launch retired. -/
def State.finishWalk (s : State) (id status detail : Nat) (mark : Bool) : State :=
  match s.walk? id with
  | none => s
  | some w0 =>
    let s1 := w0.cores.foldl (fun s c => s.freeWalkCore id c) s
    let s2 := ((s1.poolTeams id).map (·.id.tid)).foldl (fun s t => s.endTeam t true) s1
    match s2.walk? id with
    | none => s2
    | some w =>
      let s3 := (s2.walkStore w w.rec_.crec (w.record status detail)).walkSignal w mark
      ({ s3 with walks := s3.walks.filter (·.id != id) }).subDone w.bundle w.sub mark

/-- The idle team with the lowest TEAMID of the pool of a kind on a core. -/
def State.idleTeam (s : State) (w core kind : Nat) : Option Team :=
  ((s.poolTeams w).filter fun t => t.core == core && t.placed && t.flow.upcall.isNone && t.flow.hold == .poolIdle &&
      (match t.id.pool with | some p => p.kind == kind | none => false)).foldl
    (fun b t => match b with
      | none => some t
      | some u => if t.id.teamid.toNat < u.id.teamid.toNat then some t else some u) none

/-- The pool that receives class walkerr: the consumer pool, or else the lowest-kind producer pool. -/
def Walk.errorPool (w : Walk) : Option Nat :=
  if w.rec_.csink = 0 then some 2 else if w.rec_.asrc = 0 then some 0 else if w.rec_.bsrc = 0 then some 1 else none

/-- Class walkerr delivered on one core, if an idle team and a handler are there. No word traps: TPC and TWORDS are written as zero (spec/22
R318). -/
def State.deliverWalkerr (s : State) (w : Walk) (cause core : Nat) : State :=
  match w.errorPool with
  | none => s
  | some kind =>
    match s.idleTeam w.id core kind with
    | none => s
    | some t =>
      let entry := s.trapEntry t 10
      if entry = BitVec.allOnes 64 then s
      else
        let p : PendTrap := ⟨⟨10, cause, 0, false, 0⟩, 0, 0, 0, false⟩
        s.updTeam t.id.tid fun u =>
          ((((u.updFlow fun f => { f with packet := 0 }).enter p entry).setS 5 (w.wid.setWidth 64))).updFlow
            fun f => { f with walkerr := true }

/-- Whether a team still runs a walkerr handler of a walk. -/
def State.walkerrBusy (s : State) (id : Nat) : Bool := (s.poolTeams id).any (·.flow.walkerr)

/-- Whether a stream operation of an operand slot is under way. -/
def OpSlot.pending (o : OpSlot) : Bool := o.taken && o.fill && !o.ready

/-- Whether stream operations of a core's engine are under way: fills, or drains, of C slots in state 5. -/
def WalkCore.streams (w : WalkCore) : Bool :=
  w.aslots.any OpSlot.pending || w.bslots.any OpSlot.pending || w.cslots.any (·.state == 5)

/-- A core's engine after a walk error: it holds only the stream operations that have issued (spec/13 R231). -/
def WalkCore.errStop (w : WalkCore) : WalkCore :=
  let op (o : OpSlot) : OpSlot := if o.pending then o else ⟨false, 0, 0, false, false, false⟩
  { w with
    array := none
    aslots := w.aslots.map op
    bslots := w.bslots.map op
    cslots := w.cslots.map fun c => if c.state = 5 then c else ⟨0, 0, 0, 0, 0, 0, false, false, 0, 0, 0, 0, 0, 0, false, false, []⟩
    fifoA := []
    fifoB := []
    fifoC := [] }

/-- Whether stream operations of a walk are under way on any core. -/
def State.walkStreams (s : State) (w : Walk) : Bool :=
  w.cores.any fun c => match (s.core c).walk with | some x => x.walk == w.id && x.streams | none => false

/-- A walk in error whose walkerr handlers have all ended and whose issued stream operations are complete: the record is ERROR and the
signal falls with bit 63 set. -/
def State.walkErrCheck (s : State) (id : Nat) : State :=
  match s.walk? id with
  | some w =>
    match w.err with
    | some (tile, _) => if s.walkerrBusy id ∨ s.walkStreams w then s else s.finishWalk id 2 tile true
    | none => s
  | none => s

/-- A walk error (spec/13 R231): the walk stops on every core, class walkerr is delivered once on each core, and running
handlers are terminated with discard. -/
def State.walkError (s : State) (id tile cause : Nat) : State :=
  match s.walk? id with
  | none => s
  | some w =>
    match w.err with
    | some _ => s
    | none =>
      let s1 := s.updWalk id fun x => { x with err := some (tile, cause) }
      let s2 := w.cores.foldl (fun s c => s.deliverWalkerr w cause c) s1
      let s3 := w.cores.foldl (fun s c => s.updWalkCore c fun x => if x.walk = id then x.errStop else x) s2
      let gone := (s3.poolTeams id).filter fun t => !t.flow.walkerr
      ((gone.map (·.id.tid)).foldl (fun s t => s.endTeam t true) s3).walkErrCheck id

/-- The tile of the upcall that a team runs: its sequence number, or all-ones (spec/13 R231). -/
def State.upcallTile (s : State) (t : Team) : Nat :=
  match t.flow.upcall, (s.core t.core).walk with
  | some u, some wc =>
    match wc.cslots[u.cslot]?, s.walk? wc.walk with
    | some c, some w => c.item / max 1 w.rec_.splitk
    | _, _ => 0xFFFFFFFF
  | _, _ => 0xFFFFFFFF

/-! ### Kills and traps (spec/20 R307; spec/22 R319, R320) -/

/-- A team killed: it ends, its bundle's signal gets bit 63, and in a handler team the walk error follows. A team that runs a
walkerr handler only ends (spec/22 R322). -/
def State.kill (s : State) (tid : Nat) : State :=
  match s.team? tid with
  | none => s
  | some t =>
    let tile := s.upcallTile t
    let s1 := (s.dropPinnedOf tid).endTeam tid true
    match t.id.pool with
    | some p => if t.flow.walkerr then s1.walkErrCheck p.walk else s1.walkError p.walk tile 1
    | none =>
      match t.id.bundle with
      | some b => s1.subAbort b t.id.sub
      | none => s1

/-- Whether a trap of a team may be entered: no register is pending, and the transform pipe has replied (spec/02 R39, spec/07 R133). -/
def Team.trappable (t : Team) : Bool := t.quiet && t.flow.hold != .xfrm

/-- A trap of a team (spec/22 R318 to R320): nested or with no handler it kills; with a register pending, or a request to the transform
pipe outstanding, it waits for TRAP_ENTRY. -/
def State.raise (s : State) (tid : Nat) (p : PendTrap) : State :=
  match s.team? tid with
  | none => s
  | some t =>
    let code := p.info.tcause.toNat % 2 ^ 32
    if t.ctl.level = .trap then
      (s.kill tid).report 8 0 t.core t.id.ctx t.id.gen code p.info.addr.toNat
    else if ¬ t.trappable then
      s.updTeam tid fun u => u.updFlow fun f => { f with trapPend := some p, group := .none, fetched := false, park := none }
    else
      let entry := s.trapEntry t p.info.cls
      if t.ctl.level = .agent ∨ entry = BitVec.allOnes 64 then
        (s.kill tid).report 7 0 t.core t.id.ctx t.id.gen code p.info.addr.toNat
      else s.updTeam tid fun u => u.enter p entry

/-- A team's slot freed, once it has ended and nothing of it is outstanding (spec/06 R103). -/
def State.releaseSlot (s : State) (tid : Nat) : State :=
  match s.team? tid with
  | none => s
  | some t =>
    if t.ended ∧ t.quiet ∧ t.flow.ops = [] then
      let s1 := { s with me := (if s.me.id.tid = tid then .absent else s.me), teams := s.teams.filter (·.id.tid != tid) }
      match t.id.bundle, t.id.pool with
      | some b, none =>
        if s1.all.any fun u => u.id.bundle == some b && u.id.sub == t.id.sub && u.id.pool.isNone then s1
        else s1.subDone b t.id.sub false
      | _, _ => s1
    else s

end Sys2Proof.Machine
end

