-- ==== Sys2Proof/Machine/Ops.lean ====
section
/-!
DEFINITION. Sys2Proof/Machine/Ops.lean: what every instruction shares: the checks of a word and its trap, position and chain
groups, what orders an access and holds it back, the lanes of a vector access, a team-uniform access, releases and acquires of a word,
windows of tile registers (spec/02 R31 to R39, R48; spec/08 R145 to R153; spec/09 R161, R162, R168; spec/10 R176, R184 to R187;
spec/22 R316 to R318).
-/
namespace Sys2Proof.Machine
open Sys2Proof

/-! ### Tile registers (spec/10 R184) -/

/-- Fields of a tile register. -/
def tSpace (x : W128) : Nat := (x.extractLsb' 0 4).toNat
def tFmt (x : W128) : Nat := (x.extractLsb' 4 4).toNat
def tDtag (x : W128) : Nat := (x.extractLsb' 8 3).toNat
def tUpc (x : W128) : Bool := x.getLsbD 11
def tBase (x : W128) : Nat := (x.extractLsb' 16 24).toNat
def tRows (x : W128) : Nat := (x.extractLsb' 40 12).toNat
def tCols (x : W128) : Nat := (x.extractLsb' 52 12).toNat
def tPitch (x : W128) : Nat := (x.extractLsb' 64 20).toNat
def tSlot (x : W128) : Nat := (x.extractLsb' 84 2).toNat

/-- A tile register built from its fields. -/
def tMake (space fmt dtag : Nat) (upc : Bool) (base rows cols pitch slot : Nat) : W128 :=
  BitVec.ofNat 128 (space + fmt * 2 ^ 4 + dtag * 2 ^ 8 + upc.toNat * 2 ^ 11 + base * 2 ^ 16 + rows * 2 ^ 40 + cols * 2 ^ 52 +
    pitch * 2 ^ 64 + slot * 2 ^ 84)

/-- Whether a core is in HALTED_QUIET (spec/23 R340). -/
def State.halted (s : State) (core : Nat) : Bool := (s.core core).dbg == .haltedQuiet

/-- The walk engine of a team's core. -/
def State.myWalk (s : State) : Option WalkCore := (s.core s.me.core).walk

/-- Whether a core's walk engine holds a walk: one that runs on it, or one placed on it that has not started. -/
def State.walkHeld (s : State) (core : Nat) : Bool :=
  (s.core core).walk.isSome ||
  s.walks.any fun w => !w.ended && w.cores.contains core && s.queues.any fun q => q.id == w.queue && q.resident

/-- A window onto A-, B- or C-store that `tbnd.bind` created, unbound; any other tile register as it is. -/
def unbound (x : W128) : W128 :=
  if (tSpace x = 1 ∨ tSpace x = 2 ∨ tSpace x = 3) ∧ ¬ tUpc x then x &&& ~~~(15 : W128) else x

/-- Every such window of the teams of a core unbound, as a walk is placed on the core (spec/10 R184). -/
def State.unbindWindows (s : State) (core : Nat) : State :=
  let go (t : Team) : Team := if t.placed ∧ t.core = core then { t with regs := { t.regs with t := t.regs.t.map unbound } } else t
  { s with me := go s.me, teams := s.teams.map go }

/-- The domain tag of a window: for a C window, that of the slot's header when the slice is read (spec/10 R184). -/
def State.windowTag (s : State) (x : W128) : Nat :=
  if tSpace x = 3 then
    match s.myWalk with
    | some w =>
      match w.cslots[tSlot x]? with
      | some c => c.dtag
      | none => 0
    | none => 0
  else tDtag x

/-- Whether the team may reach a window (spec/10 R187). -/
def State.windowOk (s : State) (r : TReg) : Bool :=
  let x := s.me.t r
  match tSpace x with
  | 4 => true
  | 3 =>
    match s.me.flow.upcall with
    | some u => r == 0 && tUpc x && u.kind == 2
    | none => false
  | _ =>
    if tUpc x then
      match s.me.flow.upcall with
      | some u => r == 0 && u.kind + 1 == tSpace x
      | none => false
    else !s.walkHeld s.me.core

/-- Words of the space of a window (spec/10 R185). -/
def State.spaceWords (s : State) (space : Nat) : Nat :=
  if space = 4 then
    match s.alloc? s.me.id.bundle s.me.cluster with
    | some (_, n) => n / 4
    | none => 0
  else 131072

/-- Whether `tbnd.bind` takes a descriptor (spec/10 R185). -/
def State.bindOk (s : State) (x : W128) : Bool :=
  let space := tSpace x
  (space == 1 || space == 2 || space == 4) &&
  x.extractLsb' 86 42 == 0 && x.extractLsb' 84 2 == 0 && x.extractLsb' 11 5 == 0 &&
  tRows x != 0 && tCols x != 0 && tCols x ≤ tPitch x &&
  tBase x + (tRows x - 1) * tPitch x + tCols x ≤ s.spaceWords space &&
  (space == 4 || !s.walkHeld s.me.core)

/-! ### Operand checks made at issue (spec/02 R47, R48) -/

/-- A bound ring of a team's cluster that its bundle holds. -/
def State.ring? (s : State) (id : Nat) : Option Ring :=
  s.rings.find? fun r => r.cluster == s.me.cluster && r.id == id && some r.bundle == s.me.id.bundle

/-- A ring and slot that a slot operation may name (spec/10 R196). -/
def State.ringSlotOk (s : State) (x : W64) (k : Nat) : Bool :=
  match s.ring? x.toNat with
  | some r => decide (k < r.slots.length)
  | none => false

/-- An s register by number, with its 64 bits; 0 beyond s63. -/
def Team.sNat (t : Team) (n : Nat) : Nat := if h : n < 64 then (t.regs.s[n]'h).toNat else 0

/-- The arguments of an `xcpy` word that are checked at issue (spec/10 R191). -/
def State.xcpyOk (s : State) (form : Nat) (r : TReg) (a : SReg) : Bool :=
  let x1 := s.me.sNat (a.val + 1)
  let x2 := s.me.sNat (a.val + 2)
  let n := x1 / 2 ^ 16 % 2 ^ 16
  let space := tSpace (s.me.t r)
  decide (a.val + (if form = 2 then 2 else 1) ≤ 63) && n != 0 && decide (n ≤ 1024) && decide (x1 % 2 ^ 16 < n) && x1 / 2 ^ 32 == 0 &&
  (match form with
    | 0 => space == 1 || space == 2 || space == 4
    | 1 => space == 1 || space == 2 || space == 3 || space == 4
    | _ => space == 2 && x2 % 2 ^ 32 / 2 ^ 8 == 0 && x2 % 2 ^ 8 != 0) &&
  s.windowOk r

/-- The range that `priv.tlbinv` takes (spec/20 R310). -/
def State.tlbinvOk (s : State) (a : AReg) (b k : SReg) : Bool :=
  let va := (s.me.a a).toNat
  let n := (s.me.s b).toNat
  let c := (s.me.s k).toNat
  va % 4096 == 0 && n != 0 && n % 4096 == 0 && decide (va + n ≤ 2 ^ 80) && decide (c < 4096) &&
  s.ctxs.any (fun x => x.id == c && x.cstate == 1) && (s.me.ctl.level == .agent || c == s.me.id.ctx)

/-- The OPERAND checks of a word, true where none fails. -/
def State.operandOk (s : State) : Instr → Bool
  | .vcmpEq p q _ _ _ => p != q || p == 7
  | .vcmpLt p q _ _ _ => p != q || p == 7
  | .vcmpLe p q _ _ _ => p != q || p == 7
  | .vcmpLtn p q _ _ _ => p != q || p == 7
  | .fceq p q _ _ _ _ => p != q || p == 7
  | .fclt p q _ _ _ _ => p != q || p == 7
  | .fcle p q _ _ _ _ => p != q || p == 7
  | .fcun p q _ _ _ _ => p != q || p == 7
  | .plogPmovs _ _ w => w.val < s.me.id.m
  | .plogEmr _ w => w.val < s.me.id.m || w == 63
  | .xfrmHfwd _ _ k => k != 0 && 2 ^ k.val ≤ s.me.blockLen
  | .xfrmHunpk _ _ k _ => 2 ^ k.val ≤ s.me.blockLen
  | .xfrmXpose d a => (d == 0 || d == 32) && (a == 0 || a == 32)
  | .domnDtag _ t => 2 ^ t.val ≤ s.me.blockLen
  | .tsl _ t r _ _ =>
    let x := s.me.t t
    tSpace x != 0 && (s.windowTag x == 0 || (r && 128 ≤ s.me.width && tRows x == 128))
  | .tss _ t _ _ _ => tSpace (s.me.t t) != 0 && s.windowTag (s.me.t t) == 0
  | .tbndBind _ a => a != 63 && s.bindOk (BitVec.ofNat 128 (s.me.sNat (a.val + 1) * 2 ^ 64 + s.me.sNat a.val))
  | .xcpyIn t a => s.xcpyOk 0 t a
  | .xcpyOut t a => s.xcpyOk 1 t a
  | .xcpyMcin t a => s.xcpyOk 2 t a
  | .ringRbind _ a =>
    let x1 := s.me.sNat (a.val + 1)
    let x2 := s.me.sNat (a.val + 2)
    a.val ≤ 61 && x1 % 2 ^ 16 != 0 && x1 % 2 ^ 16 ≤ 64 && x1 % 2 ^ 32 / 2 ^ 17 == 0 && x1 / 2 ^ 32 != 0 &&
      x1 / 2 ^ 32 % 32 == 0 && x2 / 2 ^ 32 == 0
  | .ringRunbind a => (s.ring? (s.me.s a).toNat).isSome
  | .ringSpub a k => s.ringSlotOk (s.me.s a) k.val
  | .ringSrel a k => s.ringSlotOk (s.me.s a) k.val
  | .ringSwait _ a k => s.ringSlotOk (s.me.s a) k.val
  | .tbarTbinit d _ => s.me.s d != 0 && (s.me.s d).toNat < 2 ^ 20
  | .tbarTbwait _ _ o => 2 ≤ o.val && o.val ≤ 5
  | .hctlHret _ => s.me.flow.upcall.isSome && s.me.ctl.level != .trap
  | .hctlHtaint => s.me.flow.upcall.isSome && s.me.ctl.level != .trap
  | .syncGbar _ => s.me.id.gang.isSome
  | .privPgcow _ => s.me.ctl.level != .agent
  | .privPgref _ _ => s.me.ctl.level != .agent
  | .privTlbinv a b k => s.tlbinvOk a b k
  | .privEseal _ _ b => (s.me.s b).toNat % 8 == 0 && 8 ≤ (s.me.s b).toNat && (s.me.s b).toNat ≤ 65688
  | _ => true

/-! ### The checks of a word (spec/02 R38, R47, R48) -/

/-- The illegal-instruction trap with a detail. -/
def illegal (d : Detail) : FaultInfo := ⟨0, d.code, 0, false, 0⟩

/-- The lowest pending v register among names, or else the lowest pending s register, as TCAUSE.detail reports it. -/
def Team.unmarked (t : Team) (names : List Reg) : Option Nat :=
  match (List.range 64).find? fun n => names.contains (.v n) && t.regs.pendV.getLsbD n with
  | some n => some n
  | none =>
    match (List.range 64).find? fun n => names.contains (.s n) && t.regs.pendS.getLsbD n with
    | some n => some (64 + n)
    | none => none

/-- Whether every v register that a word names is allocated; the agent slot has none (spec/02 R40, spec/12 R213). -/
def Team.allocOk (t : Team) (names : List Reg) : Bool :=
  names.all fun r => match r with
    | .v n => decide (n < t.id.kernel.regs)
    | _ => true

/-- The first check of a word that fails, the decode checks before the unmarked-dependence check. -/
def State.check (s : State) (i : Instr) : Option FaultInfo :=
  if ¬ WellFormed i then some (illegal .rsvfn)
  else if ¬ s.me.allocOk i.names then some (illegal .regalloc)
  else if ¬ i.levelOk s.me.ctl.level.code then some (illegal .privlvl)
  else if ¬ s.operandOk i then some (illegal .operand)
  else
    match s.me.unmarked i.names with
    | some n => some ⟨1, n, 0, false, 0⟩
    | none => none

/-- A trap of the word in issue that is not lane-wise. -/
def State.trapHere (s : State) (f : FaultInfo) : State :=
  s.raise s.me.id.tid ⟨f, s.me.ctl.pc, s.me.ctl.word, 0, false⟩

/-- A trap of the word in issue on the unfinished lanes of a vector form (spec/22 R317, R318). -/
def State.trapLanes (s : State) (f : FaultInfo) (m : Mask) : State :=
  s.raise s.me.id.tid ⟨f, s.me.ctl.pc, s.me.ctl.word, m, true⟩

/-- A word: its checks, the reconstruction of its tagged sources, its effect. -/
def run (i : Instr) (s : State) (body : State → State) : Host.Outcome State Fault Refusal :=
  .next (match s.check i with
    | some f => s.trapHere f
    | none => body (s.setMe (·.prepare i)))

/-! ### Position (spec/02 R26, R31, R37) -/

/-- A team whose group ends at a position: the switch bits met hold it while a register is pending. -/
def Team.endGroup (t : Team) (pc : W64) (word : Nat) : Team :=
  { t with
    ctl := { t.ctl with pc := pc, word := word }
    flow := { t.flow with sw := t.flow.group.sw || t.flow.cur.switch, group := .none, fetched := false, park := none } }

/-- A team after the word in issue: at the next word of its group, or past the group. -/
def Team.advance (t : Team) : Team :=
  if t.flow.cur.chain then
    { t with
      ctl := { t.ctl with word := t.ctl.word + 1 }
      flow := { t.flow with
        group := { t.flow.group with sw := t.flow.group.sw || t.flow.cur.switch, open_ := true }
        park := none } }
  else if t.ctl.word < 2 then t.endGroup t.ctl.pc (t.ctl.word + 1)
  else t.endGroup (t.ctl.pc + 1) 0

/-- A team at word 0 of a packet after a word that ends its packet. -/
def Team.goto (t : Team) (pc : W64) : Team := t.endGroup pc 0

/-- The word in issue is done. -/
def State.advance (s : State) : State := s.setMe Team.advance

/-- A scalar result written; the team goes on. -/
def State.putS (s : State) (d : SReg) (x : W64) : State := (s.setMe (·.setS d x)).advance

/-- An address result written; the team goes on. -/
def State.putA (s : State) (d : AReg) (x : W80) : State := (s.setMe (·.setA d x)).advance

/-- A vector result written in the lanes of a mask, with its tag; the team goes on. -/
def State.putV (s : State) (d : VReg) (m : Mask) (ys : List W32) (tag : BitVec 4) : State :=
  (s.setMe (·.writeV d m ys tag)).advance

/-! ### The transform pipe (spec/07 R131, R133) -/

/-- A request put into the transform pipe of a core, in the order of arrival; in one cycle in ascending scheduler number, the fill path
last (spec/07 R133). -/
def Core.request (c : Core) (r : PipeReq) : Core :=
  let early (x : PipeReq) : Bool := decide (x.at_ < r.at_) || (x.at_ == r.at_ && decide (x.from_ ≤ r.from_))
  { c with pipe := c.pipe.filter early ++ r :: c.pipe.filter fun x => !early x }

/-- A request of a team put into its core's pipe. -/
def State.pipeSend (s : State) (t : Team) (regs : List (VReg × List W32 × BitVec 4)) : State :=
  s.updCore t.core (·.request ⟨some t.id.tid, regs, 0, 0, s.coreCyc t.core, t.sched⟩)

/-- The first of the registers that a team still reconstructs sent to the pipe (spec/07 R131). -/
def State.sendRebuild (s : State) (tid : Nat) : State :=
  match s.team? tid with
  | some t => (match t.flow.rebuild with | r :: _ => s.pipeSend t [(r, t.plain r, 0)] | [] => s)
  | none => s

/-! ### What an access orders (spec/08 R145, R151 to R153; spec/09 R162) -/

/-- The destination of a location class. -/
def destOf : Nat → Dest
  | 0 => .device
  | 1 => .host
  | 2 => .remote
  | _ => .near

/-- Whether a release fence's scope counts an engine operation with such a destination (spec/09 R162). -/
def scopeCounts (sc : Scope) (d : Dest) : Bool :=
  match sc, d with
  | .team, _ => false
  | .core, _ => false
  | .clu, .near => true
  | .clu, _ => false
  | .dev, .near => true
  | .dev, .device => true
  | .dev, _ => false
  | .dom, .host => false
  | .dom, _ => true
  | .sys, _ => true

/-- Whether a release at a scope waits for an earlier access that is still to be performed (spec/08 R151): at core scope for stores,
atomics and accesses of the cluster store; from cluster scope on for every access. -/
def Op.waitedAt (sc : Scope) (o : Op) : Bool :=
  !o.ready && o.cls != .cp &&
  (match sc with
    | .team => false
    | .core => o.cls == .st || o.cls == .at_ || o.dests.contains .near
    | _ => true)

/-- Whether an operation is an access with acquire or release ordering that is still to be performed. -/
def Op.ordering (o : Op) : Bool := !o.ready && (o.acq.isSome || o.rel.isSome)

/-- Whether a fence no longer orders anything, among the operations of its team: its release part when the accesses and engine
operations before it are done, its acquire part when the loads before it are, both in order with the accesses that order. -/
def FenceHold.over (ops : List Op) (f : FenceHold) : Bool :=
  (ops.filter fun o => decide (o.id < f.before)).all fun o =>
    !o.ordering &&
    !(f.rel && (Op.waitedAt f.scope o || (f.classes.contains o.cls && o.dests.any (scopeCounts f.scope)))) &&
    !(f.acq && !o.ready && (o.cls == .ld || o.cls == .at_ || o.cls == .sg))

/-- The fences of a team that still order an operation with identifier `id`; fences are performed in team order (spec/08 R153). -/
def Team.fencesOn (t : Team) (id : Nat) : List FenceHold :=
  (t.flow.fences.dropWhile fun f => f.over t.flow.ops).filter fun f => decide (f.before ≤ id)

/-- Whether an acquire that has not been performed holds an access with identifier `id`. -/
def Team.acquiring (t : Team) (id : Nat) : Bool :=
  (t.flow.ops.any fun o => decide (o.id < id) && o.acq.isSome && !o.ready) || (t.fencesOn id).any (·.acq)

/-- Whether two accesses touch one sector. -/
def meets (xs ys : List LaneAt) : Bool := xs.any fun x => ys.any fun y => sectorOf x.key == sectorOf y.key

/-- Whether the ordering rules hold an access back, given its identifier in the team's order: an acquire or fence before it; for an
ordered one, the ordered accesses before it; for a release at `rel`, the accesses before it; an access of the team before it to one of its
sectors, still to be performed (spec/08 R146, R151 to R153; spec/09 R162). -/
def Team.orderHeld (t : Team) (i : Instr) (acq rel : Option Scope) (id : Nat) (lanes : List LaneAt) : Bool :=
  let before := t.flow.ops.filter fun o => decide (o.id < id)
  t.acquiring id ||
  (!i.readsOnly && (t.fencesOn id).any (·.rel)) ||
  ((acq.isSome || rel.isSome) && (before.any Op.ordering || t.fencesOn id != [])) ||
  (match rel with | some sc => before.any (Op.waitedAt sc) | none => false) ||
  before.any fun o => match o.held with | some h => meets h.lanes lanes | none => false

/-! ### The range scoreboard and links (spec/09 R168, spec/22 R324) -/

/-- The scoreboard sector of a lane's access: of the virtual space, or of the cluster store; none for a typed store. -/
def boardSector (cluster : Nat) (x : LaneAt) : Option Nat :=
  if 2 ^ 67 ≤ x.key then none
  else if x.loc = 3 then some ((2 ^ 80 + (x.key - cstoreKey cluster 0)) / 32)
  else some (x.va.toNat / 32)

/-- Whether a lane's access lies in a recorded range of its cluster and context. -/
def State.recorded (s : State) (cluster ctx : Nat) (x : LaneAt) : Bool :=
  match boardSector cluster x with
  | none => false
  | some n => s.copies.any fun c => c.cluster == cluster && (x.loc == 3 || c.ctx == ctx) && c.slices.any fun y => y.range.contains n

/-- Whether an access of a team waits for a copy or a link. -/
def State.stalled (s : State) (t : Team) (lanes : List LaneAt) : Bool :=
  lanes.any fun x => s.linkWaits x.key || s.recorded t.cluster t.id.ctx x

/-! ### Releases and acquires of a word (spec/08 R151, R152, R159) -/

/-- A deferred write-back fault that is not taken any more: the write-back has been made. -/
def Team.unpinned (t : Team) : Team :=
  match t.flow.pinned with
  | some p => if p.taken then t else t.updFlow fun f => { f with pinned := none }
  | none => t

/-- The release of a word at a scope before `k`: from cluster scope on, the write-backs that it starts, one operation of class ST
(spec/09 R160; log 29). A deferred write-back fault is taken at the word instead. -/
def State.releaseThen (s : State) (sc : Scope) (k : State → State) : State :=
  let dirty := s.relDirty s.me.id.tid sc
  let (s1, ok) := s.release s.me.id.tid sc
  if ok then
    if dirty = [] then k s1
    else
      let (id, s2) := (s1.setMe Team.unpinned).newId
      k (s2.setMe (·.addOp (.new id .st true [] [] [] [.device])))
  else
    match s1.me.flow.pinned with
    | some p => s1.trapHere ⟨7, 0, p.line, false, s1.pinMask s1.me.id.tid p.line⟩
    | none => k s1

/-- The release part of a word, where it has one. -/
def State.relThen (s : State) (sc : Option Scope) (k : State → State) : State :=
  match sc with
  | none => k s
  | some sc => s.releaseThen sc k

/-- The acquire part of an access of a team. -/
def State.acqBy (s : State) (t : Team) (sc : Option Scope) : State :=
  match sc with
  | none => s
  | some sc => if t.placed then s.acquire t.core sc else s

/-- A release fence of a team at core scope or wider is over: its stores to the cluster store are in every later snapshot of its own (spec/09
R164). -/
def State.fencedEdits (s : State) (tid : Nat) : State :=
  { s with edits := s.edits.map fun e => if e.tid = tid then { e with fenced := true } else e }

/-- Acquire fences of a team that are over before an operation: their acquires are performed, and fences that order nothing any more are
dropped. -/
def State.settleFences (s : State) (tid : Nat) : State :=
  match s.team? tid with
  | none => s
  | some t =>
    if t.flow.fences = [] then s
    else
      let done := t.flow.fences.takeWhile fun f => f.over t.flow.ops
      let s := if done.any fun f => f.rel && f.scope != .team then s.fencedEdits tid else s
      (done.foldl (fun s f => s.acqBy t (if f.acq then some f.scope else none)) s).updTeam
        tid fun t => t.updFlow fun x => { x with fences := x.fences.dropWhile fun f => f.over t.flow.ops }

/-! ### Accesses (spec/10 R176) -/

/-- What an access comes to when it is performed: the state after it, its results, the poison that it met first, as a virtual address and
a key; and whether its value is still to come, as a registered wait's is. -/
structure Done where
  s      : State
  writes : List RegWrite
  poison : Option (Nat × Nat)
  waits  : Bool

/-- What a word does at its lanes' locations, with the registers of a team as the word read them, and the identifier of its operation. -/
abbrev Effect := Team → List LaneAt → Nat → State → Done

/-- Nothing done yet. -/
def Done.start (s : State) : Done := ⟨s, [], none, false⟩

/-- The poison met first. -/
def Done.seen (d : Done) (x : LaneAt) : Done :=
  { d with poison := if d.poison.isNone ∧ d.s.poisoned x.key then some (x.va.toNat, x.key) else d.poison }

/-- The poison report of an instruction (spec/22 R325). -/
def Done.report (d : Done) (t : Team) : State :=
  match d.poison with
  | some (va, key) => d.s.poisonReport t.id.ctx t.id.gen va key
  | none => d.s

/-- Tags of loaded registers set (spec/06 R100). -/
def Team.setTags (t : Team) (rs : List VReg) (tag : BitVec 4) : Team := rs.foldl (fun t r => t.setTag r tag) t

/-- An access issued at lanes that have translated: one operation of its class, performed at once unless the ordering rules, the
scoreboard or a link hold it back; `ws` are the results of lanes performed before. -/
def State.issueAcc (s : State) (i : Instr) (cls : OpClass) (acq rel : Option Scope) (lanes : List LaneAt) (ws : List RegWrite)
    (pv : List VReg) (ps : List SReg) (eff : Effect) : State :=
  let s := s.settleFences s.me.id.tid
  let (id, s1) := s.newId
  let dests := (lanes.map fun x => destOf x.loc).dedup
  if s1.me.orderHeld i acq rel id lanes ∨ s1.stalled s1.me lanes then
    s1.setMe (·.addOp ⟨id, cls, false, false, ws, pv, ps, dests, acq, rel, some ⟨i, s1.me.regs, lanes⟩⟩)
  else
    let d := eff s1.me lanes id s1
    (d.report s1.me).setMe (·.addOp ⟨id, cls, !d.waits, false, ws ++ d.writes, pv, ps, dests, (if d.waits then acq else none), none, none⟩)

/-- What the lanes of a vector access come to on their way to memory (spec/22 R317). -/
structure LaneAcc where
  s      : State
  waits  : List (Nat × W80 × Option Nat)
  faults : List (Nat × FaultInfo)
  lanes  : List LaneAt

/-- One lane: translated, parked, or faulted. -/
def laneStep (k : Access) (n : Nat) (ea : Nat → W80) (acc : LaneAcc) (l : Nat) : LaneAcc :=
  let t := acc.s.me
  let va := ea l
  match acc.s.teamReach t k va n with
  | (.ok key loc, s1) => { acc with s := s1, lanes := acc.lanes ++ [⟨l, va, key, loc⟩] }
  | (.host cause, s1) =>
    let (uid, s2) := s1.merge (dieOf t.cluster) t.id.ctx t.id.gen (va.toNat / 2 ^ 12) k cause false
    { acc with s := s2, waits := acc.waits ++ [(l, va, uid)] }
  | (.fault c d, s1) => { acc with s := s1, faults := acc.faults ++ [(l, ⟨c, d, va, false, 0⟩)] }

/-- The unfinished lane that comes first. -/
def firstFault : List (Nat × FaultInfo) → Option (Nat × FaultInfo)
  | [] => none
  | x :: xs =>
    match firstFault xs with
    | some y => if y.1 < x.1 then some y else some x
    | none => some x

/-- The lanes that have translated performed while others wait, unless something holds them back; they stay performed. -/
def State.tryLanes (s : State) (i : Instr) (lanes : List LaneAt) (ws : List RegWrite) (eff : Effect) : State × List LaneAt × List RegWrite :=
  let s := s.settleFences s.me.id.tid
  if s.me.orderHeld i none none s.nextId lanes ∨ s.stalled s.me lanes then (s, lanes, ws)
  else
    let d := eff s.me lanes s.nextId s
    (d.report s.me, [], ws ++ d.writes)

/-- The end of a try of a vector access: parked while a lane waits; trapped when a lane has a fault, with the other lanes performed or
outstanding; otherwise an operation of its class, and the team goes on. -/
def LaneAcc.finish (a : LaneAcc) (i : Instr) (cls : OpClass) (late : List LaneAt) (ws : List RegWrite) (rs : List VReg) (tag : BitVec 4)
    (eff : Effect) : State :=
  let s := a.s
  let lanes := late ++ a.lanes
  if a.waits ≠ [] then
    let (s1, late1, ws1) := s.tryLanes i lanes ws eff
    s1.setMe fun t => t.updFlow fun f => { f with park := some ⟨a.waits, a.faults, 0, ws1, late1, false⟩, group := { f.group with open_ := true } }
  else
    match firstFault a.faults with
    | some (_, f) =>
      let (s1, late1, ws1) := s.tryLanes i lanes ws eff
      let m := maskOf (a.faults.map (·.1))
      if late1 = [] then (s1.setMe fun t => (ws1.foldl Team.apply t).setTags rs tag).trapLanes f m
      else ((s1.setMe (·.setTags rs tag)).issueAcc i cls none none late1 ws1 rs [] eff).trapLanes f m
    | none => ((s.setMe (·.setTags rs tag)).issueAcc i cls none none lanes ws rs [] eff).advance

/-- A vector access: nothing for an empty mask; alignment over every lane; then the lanes in order. A parked access tries its answered
lanes again (spec/10 R176, spec/22 R317). -/
def State.vectorAccess (s : State) (i : Instr) (cls : OpClass) (k : Access) (n : Nat) (ea : Nat → W80) (rs : List VReg) (tag : BitVec 4)
    (eff : Effect) : State :=
  match s.me.flow.park with
  | some p =>
    ((lanesOf p.replay s.me.width).foldl (laneStep k n ea) ⟨s, p.waits, p.faults, []⟩).finish i cls p.late p.writes rs tag eff
  | none =>
    match lanesOf (s.me.effOf i) s.me.width with
    | [] => s.advance
    | ls =>
      match ls.find? fun l => (ea l).toNat % n != 0 with
      | some l => s.trapHere ⟨6, n, ea l, false, 0⟩
      | none => (ls.foldl (laneStep k n ea) ⟨s, [], [], []⟩).finish i cls [] [] rs tag eff

/-! ### Team-uniform accesses (spec/10 R176) -/

/-- The team parked on an access of `n` bytes. -/
def State.parkUniform (s : State) (k : Access) (va : W80) (cause : Nat) : State :=
  let t := s.me
  let (uid, s1) := s.merge (dieOf t.cluster) t.id.ctx t.id.gen (va.toNat / 2 ^ 12) k cause false
  s1.setMe fun u => u.updFlow fun f => { f with
    park := some ⟨[(0, va, uid)], [], 0, [], [], true⟩, group := { f.group with open_ := true } }

/-- One access of the team, made once: parked, trapped, or given to `act` with its key and location class. -/
def State.access (s : State) (k : Access) (va : W80) (n : Nat) (act : State → Nat → Nat → State) : State :=
  match s.teamReach s.me k va n with
  | (.ok key loc, s1) => act s1 key loc
  | (.host cause, s1) => s1.parkUniform k va cause
  | (.fault c d, s1) => s1.trapHere ⟨c, d, va, false, 0⟩

/-- A fault that a host answer left on a parked uniform access is taken; otherwise the word is tried whole (spec/22 R316). -/
def State.unparked (s : State) (k : State → State) : State :=
  match s.me.flow.park with
  | some p =>
    match p.faults with
    | (_, f) :: _ => s.trapHere f
    | [] => k (s.setMe fun t => t.updFlow fun f => { f with park := none })
  | none => k s

/-- A team-uniform access of a word: misaligned, or made. -/
def State.uniform (s : State) (va : W80) (align : Nat) (go : State → State) : State :=
  s.unparked fun s => if va.toNat % align ≠ 0 then s.trapHere ⟨6, align, va, false, 0⟩ else go s

/-- A word that is one access at a location: its scopes widened by the location (spec/08 R145), its release, then the access issued. -/
def State.accessAt (s : State) (i : Instr) (cls : OpClass) (x : LaneAt) (ps : List SReg) (eff : Effect) : State :=
  let acq := i.acqScope.map (·.widen x.loc)
  let rel := i.relScope.map (·.widen x.loc)
  s.relThen rel fun s => (s.issueAcc i cls acq rel [x] [] [] ps eff).advance

/-- A team-uniform access of a word at its address. -/
def State.uniformAcc (s : State) (i : Instr) (cls : OpClass) (k : Access) (va : W80) (n : Nat) (ps : List SReg) (eff : Effect) : State :=
  s.uniform va n fun s => s.access k va n fun s key loc => s.accessAt i cls ⟨0, va, key, loc⟩ ps eff

/-- A long-latency operation issued with results already fixed or still to come; the team goes on. -/
def State.issueOp (s : State) (cls : OpClass) (ready : Bool) (ws : List RegWrite) (ps : List SReg) (dests : List Dest)
    (acq : Option Scope) : Nat × State :=
  let (id, s1) := s.newId
  (id, (s1.setMe fun t => t.addOp ⟨id, cls, ready, false, ws, [], ps, dests, acq, none, none⟩).advance)

end Sys2Proof.Machine
end

