-- ==== Sys2Proof/Machine/Control.lean ====
section
/-!
DEFINITION. Sys2Proof/Machine/Control.lean: MISC and the branches (spec/06 R103; spec/12 R204 to R208; spec/15 R253 to R258).
-/
namespace Sys2Proof.Machine
open Sys2Proof

/-! ### MISC (spec/06 R103) -/

/-- `misc.nop`. -/
def execMiscNop (s : State) : Host.Outcome State Fault Refusal := run .miscNop s State.advance

/-- Loads still outstanding whose results are discarded. -/
def Team.discardLoads (t : Team) : Team :=
  t.updFlow fun f => { f with ops := f.ops.map fun o => if o.cls = .ld then { o with writes := [] } else o }

/-- `misc.exit`: the team ends; in a handler team it is a kill of the handler (spec/13 R225, spec/22 R322). -/
def execMiscExit (s : State) : Host.Outcome State Fault Refusal :=
  run .miscExit s fun s =>
    let s1 := s.setMe Team.discardLoads
    if s1.me.id.pool.isSome then s1.kill s1.me.id.tid else s1.endTeam s1.me.id.tid false

/-- `misc.yield`: the most recent issue of its priority. -/
def execMiscYield (s : State) : Host.Outcome State Fault Refusal :=
  run .miscYield s fun s => (s.setMe fun t => { t with sch := { t.sch with last := s.coreCyc t.core } }).advance

/-- DBGCTL.BRKEN and DBGCTL.ATTACH as the word in issue sees them (spec/02 R33). -/
def State.brken (s : State) : Bool :=
  match s.me.flow.group.view with
  | some v => v.brken
  | none => (s.core s.me.core).brken

def State.attached (s : State) : Bool :=
  match s.me.flow.group.view with
  | some v => v.attach
  | none => (s.core s.me.core).attach

/-- A running core halts: HALTED_BUSY (spec/23 R340). -/
def State.haltCore (s : State) (c : Nat) : State :=
  s.updCore c fun x => if x.dbg = .running then { x with dbg := .haltedBusy } else x

/-- `misc.brk`. -/
def execMiscBrk (s : State) : Host.Outcome State Fault Refusal :=
  run .miscBrk s fun s => if s.brken then s.advance.haltCore s.me.core else s.advance

/-- `misc.trap`: class swtrap with CODE as its detail. -/
def execMiscTrap (k : BitVec 12) (s : State) : Host.Outcome State Fault Refusal :=
  run (.miscTrap k) s fun s => s.trapHere ⟨9, k.toNat, 0, false, 0⟩

/-! ### The reconvergence stack (spec/12 R204, R205) -/

/-- A branch target (spec/02 R35). -/
def Team.target (t : Team) (off : W64) : W64 := t.ctl.pc + off

/-- The word in issue ends its packet and the team goes to a packet. -/
def State.goto (s : State) (pc : W64) : State := s.setMe (·.goto pc)

/-- The stack trap: detail 0 overflow, 1 underflow (spec/22 R315). -/
def State.stackTrap (s : State) (detail : Nat) : State := s.trapHere ⟨8, detail, 0, false, 0⟩

/-- The stack with a frame pushed. -/
def Team.push (t : Team) (f : Frame) : Team := t.updCtl fun c => { c with stack := f :: c.stack }

/-- `brv`. In one group with a `plog.emw` before it, the mask that `brv` writes is computed from the view's mask and, as the later
write in word order, stands: the spec does not say which of the two masks results (DESIGN CHOICE, log 28). -/
def execBrv (g : Guard) (o : BitVec 20) (s : State) : Host.Outcome State Fault Refusal :=
  run (.brv g o) s fun s =>
    let t := s.me
    let taken := t.em &&& t.guardMask g
    let rest := t.em &&& ~~~(t.guardMask g)
    let next := t.ctl.pc + 1
    if taken = 0 then s.goto next
    else if rest = 0 then s.goto (t.target (o.signExtend 64))
    else if 32 ≤ t.ctl.stack.length then s.stackTrap 0
    else
      (s.setMe fun t => (t.push ⟨true, next, rest⟩).updCtl fun c => { c with em := taken }).goto (t.target (o.signExtend 64))

/-- `rcv`. -/
def execRcv (o : BitVec 22) (s : State) : Host.Outcome State Fault Refusal :=
  run (.rcv o) s fun s =>
    let t := s.me
    if 32 ≤ t.ctl.stack.length then s.stackTrap 0
    else (s.setMe fun t => t.push ⟨false, t.target (o.signExtend 64), t.em⟩).advance

/-- The depth at which a stack's innermost RECONV frame lies, counting it; 0 if there is none. -/
def reconvDepth : List Frame → Nat
  | [] => 0
  | f :: fs => if f.sibling then reconvDepth fs else fs.length + 1

/-- Lanes back at home when the frame popped was the innermost RECONV frame at the regather (spec/12 R208). -/
def Team.home (t : Team) (depth : Nat) : Team :=
  t.updFlow fun f => if f.regath = some (t.ctl.level, depth) then { f with regath := none } else f

/-- `join`. -/
def execJoin (s : State) : Host.Outcome State Fault Refusal :=
  run .join s fun s =>
    match s.me.ctl.stack with
    | [] => s.stackTrap 1
    | f :: rest =>
      let next := if f.sibling then f.pc else s.me.ctl.pc + 1
      (s.setMe fun t => (t.home (rest.length + 1)).updCtl fun c => { c with stack := rest, em := f.mask }).goto next

/-! ### BRS (spec/15 R257) -/

/-- A scalar branch. -/
def scalarBranch (i : Instr) (k : SReg) (o : BitVec 16) (test : W64 → Bool) (s : State) : Host.Outcome State Fault Refusal :=
  run i s fun s => s.goto (if test (s.me.s k) then s.me.target (o.signExtend 64) else s.me.ctl.pc + 1)

/-- `brs.beqz`. -/
def execBrsBeqz (k : SReg) (o : BitVec 16) (s : State) : Host.Outcome State Fault Refusal :=
  scalarBranch (.brsBeqz k o) k o (fun x => x == 0) s

/-- `brs.bnez`. -/
def execBrsBnez (k : SReg) (o : BitVec 16) (s : State) : Host.Outcome State Fault Refusal :=
  scalarBranch (.brsBnez k o) k o (fun x => x != 0) s

/-- `brs.bltz`. -/
def execBrsBltz (k : SReg) (o : BitVec 16) (s : State) : Host.Outcome State Fault Refusal :=
  scalarBranch (.brsBltz k o) k o (fun x => x.msb) s

/-- `brs.bgez`. -/
def execBrsBgez (k : SReg) (o : BitVec 16) (s : State) : Host.Outcome State Fault Refusal :=
  scalarBranch (.brsBgez k o) k o (fun x => !x.msb) s

/-! ### JMP (spec/15 R258) -/

/-- `jmp`. -/
def execJmpJmp (o : BitVec 22) (s : State) : Host.Outcome State Fault Refusal :=
  run (.jmpJmp o) s fun s => s.goto (s.me.target (o.signExtend 64))

/-- `jmp.call`: s63 takes the return packet. -/
def execJmpCall (o : BitVec 22) (s : State) : Host.Outcome State Fault Refusal :=
  run (.jmpCall o) s fun s =>
    let dest := s.me.target (o.signExtend 64)
    (s.setMe fun t => t.setS 63 (t.ctl.pc + 1)).goto dest

/-- `jmp.jmpr`. -/
def execJmpJmpr (a : SReg) (s : State) : Host.Outcome State Fault Refusal :=
  run (.jmpJmpr a) s fun s => s.goto (s.me.s a)

/-- `jmp.ret`. -/
def execJmpRet (s : State) : Host.Outcome State Fault Refusal :=
  run .jmpRet s fun s => s.goto (s.me.s 63)

end Sys2Proof.Machine
end

