-- ==== Sys2Proof/Machine/Record.lean ====
section
/-!
DEFINITION. Sys2Proof/Machine/Record.lean: the records of teams in context images and Firn, which packs them: what an image holds of a team,
how it is read back, how it follows a team that is away (spec/22 R316; spec/23 R330, R332 to R338).
-/
namespace Sys2Proof.Machine
open Sys2Proof

/-! ### CRC-32C and Firn (spec/23 R337) -/

/-- One byte's eight steps of the reflected CRC. -/
def crcBits : Nat → W32 → W32
  | 0, c => c
  | n + 1, c => crcBits n (if c.getLsbD 0 then (c >>> 1) ^^^ 0x82F63B78 else c >>> 1)

/-- CRC-32C of some bytes. -/
def crc32c (bs : List Byte) : W32 := ~~~(bs.foldl (fun c b => crcBits 8 (c ^^^ b.setWidth 32)) 0xFFFFFFFF)

/-- A chunk in the making: its runs, newest first, each a repeat or literal words, newest first; payload bytes, words, last
word. -/
structure Firn where
  runs  : List (Bool × List W32)
  size  : Nat
  count : Nat
  last  : W32
  deriving DecidableEq, Repr

/-- An empty chunk. -/
def Firn.start : Firn := ⟨[], 0, 0, 0⟩

/-- A word appended: a repeat of the last word, or a literal. -/
def Firn.add (f : Firn) (w : W32) : Firn :=
  let rep := w == f.last
  let cost := if rep then 0 else 4
  match f.runs with
  | (r, ws) :: rs =>
    if r = rep ∧ ws.length < 128 then ⟨(r, w :: ws) :: rs, f.size + cost, f.count + 1, w⟩
    else ⟨(rep, [w]) :: f.runs, f.size + 1 + cost, f.count + 1, w⟩
  | [] => ⟨[(rep, [w])], f.size + 1 + cost, f.count + 1, w⟩

/-- The payload of a chunk. -/
def Firn.payload (f : Firn) : List Byte :=
  f.runs.reverse.flatMap fun (rep, ws) =>
    if rep then [BitVec.ofNat 8 (0x7F + ws.length)]
    else BitVec.ofNat 8 (ws.length - 1) :: ws.reverse.flatMap fun w => leBytes 4 w.toNat

/-- Words cut into chunks. -/
def firnChunks : List W32 → Firn → List Firn
  | [], f => if f.count = 0 then [] else [f]
  | w :: ws, f => if (f.add w).size ≤ 4076 then firnChunks ws (f.add w) else f :: firnChunks ws (Firn.start.add w)

/-- The 4,096 bytes of each chunk, from an offset on. -/
def firnBytes : List Firn → Nat → List Byte
  | [], _ => []
  | f :: fs, off =>
    let p := f.payload
    let body := leBytes 8 off ++ leBytes 4 (4 * f.count) ++ leBytes 2 p.length ++ leBytes 2 0 ++ p ++ List.replicate (4076 - p.length) 0
    body ++ leBytes 4 (crc32c body).toNat ++ firnBytes fs (off + 4 * f.count)

/-- Words that a payload decodes to; none where a literal run reads past its end. -/
def firnLen : Nat → List Byte → Option Nat
  | 0, _ => some 0
  | _ + 1, [] => some 0
  | n + 1, c :: rest =>
    if c.toNat < 0x80 then
      if rest.length < 4 * (c.toNat + 1) then none
      else (firnLen n (rest.drop (4 * (c.toNat + 1)))).map (· + (c.toNat + 1))
    else (firnLen n rest).map (· + (c.toNat - 0x7F))

/-- Whether a chunk at a raw offset fails. -/
def chunkFails (bs : List Byte) (poisoned : Bool) (off : Nat) : Bool :=
  let plen := fieldAt bs 12 2
  poisoned || decide ((crc32c (bs.take 4092)).toNat ≠ fieldAt bs 4092 4) || fieldAt bs 14 2 != 0 || fieldAt bs 0 8 != off ||
  decide (4076 < plen) || ((bs.drop (16 + plen)).take (4076 - plen)).any (· != 0) ||
  decide (firnLen plen ((bs.drop 16).take plen) ≠ some (fieldAt bs 8 4 / 4)) || fieldAt bs 8 4 % 4 != 0

/-! ### Team records (spec/23 R335, R336) -/

/-- The operations of a team that are registered waits. -/
def State.waitOps (s : State) (t : Team) : List Op := t.flow.ops.filter fun o => s.waits.any fun w => w.tid == t.id.tid && w.op == o.id

/-- Bytes of a 128-byte line as a team has pinned them. -/
def State.pinnedLine (s : State) (t : Team) : List Byte :=
  match t.flow.pinned with
  | none => List.replicate 128 0
  | some p =>
    ((s.pinnedOf t.id.tid).filter fun d => d.va.toNat / 128 == p.line.toNat / 128).foldl (fun acc d =>
      d.bytes.foldl (fun acc (k, b) => acc.set ((d.va.toNat + k % 32) % 128) b) acc) (List.replicate 128 0)

/-- The lanes of a team that are not finished: those of a parked vector access, or else the TLANEM registers. -/
def Team.unfinished (t : Team) : Mask :=
  match t.flow.park with
  | some p => if p.uniform then 0 else maskOf (p.waits.map (·.1)) ||| maskOf (p.faults.map (·.1)) ||| p.replay
  | none => t.ctl.trap.tlanem

/-- Whether a record has the trap extension. -/
def Team.hasTrapExt (t : Team) : Bool := t.flow.pinned.isSome || t.ctl.level == .trap

/-- Whether a host answer has marked a parked access for replay (spec/23 R330). -/
def Park.replayMarked (p : Park) : Bool := p.replay != 0 || (p.uniform && p.waits == [] && p.faults == [])

/-- The flags of a state record. -/
def State.recFlags (s : State) (t : Team) : Nat :=
  let parked (f : Park → Bool) : Nat := (match t.flow.park with | some p => f p | none => false).toNat
  (t.flow.hold == .poolIdle).toNat + 2 * t.flow.upcall.isSome.toNat + 4 * parked (fun p => p.waits != []) +
    8 * (s.waitOps t != [] || (match t.flow.hold with | .tbwait _ _ _ => true | .tbpass => true | _ => false)).toNat +
    16 * (match t.flow.hold with | .gbar _ => true | _ => false).toNat + 32 * t.flow.pinned.isSome.toNat +
    64 * parked Park.replayMarked + 128 * parked (fun p => p.faults.any (·.2.hostfail))

/-- TCAUSE as an image holds it: class code 2 for a team that is parked at user level (spec/22 R316, R321). -/
def Team.imageCause (t : Team) : W64 := if t.flow.park.isSome ∧ t.ctl.level ≠ .trap then 2 else t.ctl.trap.tcause

/-- 32 frames' words. -/
def framePcs (fs : List Frame) : List Byte :=
  (List.range 32).flatMap fun i => match fs.reverse[i]? with
    | some f => leBytes 8 (f.pc.toNat % 2 ^ 62 + (if f.sibling then 2 ^ 63 else 0))
    | none => leBytes 8 0
def frameMasks (fs : List Frame) (w : Nat) : List Byte :=
  (List.range 32).flatMap fun i => match fs.reverse[i]? with
    | some f => leBytes 4 (maskWord f.mask w).toNat
    | none => leBytes 4 0

/-- The 512-byte state record. -/
def State.stateRecord (s : State) (t : Team) : List Byte :=
  let c := t.ctl
  let gen := match t.id.gang with
    | some g => match s.gangs.find? (·.id == g) with | some x => x.gen | none => 0
    | none => 0
  let upc := match t.id.pool, t.flow.upcall with
    | some p, u =>
      (match s.walk? p.walk with | some w => w.wid.toNat | none => 0) + 2 ^ 32 * p.kind + 2 ^ 40 * (match u with | some x => x.slot | none => 0)
    | none, _ => 0
  leBytes 8 (c.pc.toNat % 2 ^ 62 + 2 ^ 62 * c.word) ++ leBytes 1 (Nat.log2 t.id.m) ++ leBytes 1 t.id.kernel.regs ++
    leBytes 1 t.id.kernel.sregs ++ leBytes 1 (if c.level = .trap then 1 else 0) ++ leBytes 1 c.stack.length ++
    leBytes 1 c.aside.length ++ leBytes 2 (s.recFlags t) ++
    ([OpClass.ld, .st, .at_, .cp, .sg].flatMap fun k => leBytes 1 (t.outstanding k)) ++ leBytes 3 0 ++ leBytes 4 c.srstate.toNat ++
    leBytes 4 gen ++ leBytes 32 ((List.range 64).foldl (fun n i => n + (t.tag (Fin.ofNat 64 i)).toNat * 2 ^ (4 * i)) 0) ++
    ((List.range 4).flatMap fun i => leBytes 4 (t.h (Fin.ofNat 4 i)).toNat) ++ leBytes 8 upc ++ leBytes 8 t.id.teamid.toNat ++
    leBytes 8 t.imageCause.toNat ++ leBytes 8 c.trap.tpc.toNat ++ leBytes 16 c.trap.taddr.toNat ++ leBytes 16 c.trap.twords.toNat ++
    leBytes 16 c.trap.tbmask.toNat ++ leBytes 96 0 ++ framePcs c.stack

/-- The scalar section. -/
def Team.scalarSection (t : Team) : List Byte :=
  ((List.range t.id.kernel.sregs).flatMap fun i => leBytes 8 (t.s (Fin.ofNat 64 i)).toNat) ++ leBytes 8 (t.s 63).toNat ++
    ((List.range 16).flatMap fun i => leBytes 16 (t.a (Fin.ofNat 16 i)).toNat) ++
    ((List.range 16).flatMap fun i => leBytes 16 (t.t (Fin.ofNat 16 i)).toNat)

/-- The lane section of a mask word. -/
def Team.laneSection (t : Team) (w : Nat) : List Byte :=
  leBytes 4 (maskWord t.ctl.em w).toNat ++ ((List.range 7).flatMap fun i => leBytes 4 (maskWord (t.p (Fin.ofNat 8 i)) w).toNat) ++
    frameMasks t.ctl.stack w ++ leBytes 4 (maskWord t.unfinished w).toNat ++ leBytes 4 (maskWord t.ctl.asideEm w).toNat ++
    frameMasks t.ctl.aside w ++ leBytes 216 0

/-- A team record. -/
def State.teamRecord (s : State) (t : Team) : List Byte :=
  s.stateRecord t ++ t.scalarSection ++ (List.range t.id.m).flatMap t.laneSection ++
    ((List.range t.id.kernel.regs).flatMap fun r => (t.v (Fin.ofNat 64 r)).flatMap fun x => leBytes 4 x.toNat) ++
    (if t.hasTrapExt then
      framePcs t.ctl.aside ++ leBytes 16 (match t.flow.pinned with | some p => p.line.toNat | none => 0) ++ s.pinnedLine t ++ leBytes 112 0
    else [])

/-- The words of some bytes. -/
def bytesWords : List Byte → List W32
  | a :: b :: c :: d :: rest => BitVec.ofNat 32 (leNat [a, b, c, d]) :: bytesWords rest
  | _ => []

/-- The first place of a save pool at which `len` bytes meet no other image of the context; past the last image if none. -/
def State.imagePlace (s : State) (c : Ctx) (len : Nat) : Nat :=
  let ims := s.images.filter fun i => i.ctx == c.id && i.gen == c.gen
  let ends := ims.map fun i => i.addr + i.len
  let clear (a : Nat) : Bool := decide (a + len ≤ c.pool + c.poolLen) && ims.all fun i => decide (a + len ≤ i.addr) || decide (i.addr + i.len ≤ a)
  match (c.pool :: ends).find? clear with
  | some a => a
  | none => ends.foldl max c.pool

/-! ### Images as bytes (spec/23 R334, R337, R338) -/

/-- The bytes of an image: its header, given what stands before rawlen and between ffail and the reserved bytes, and its chunks. -/
def contextBytes (top mid raw : List Byte) : List Byte :=
  let chunks := firnChunks (bytesWords raw) .start
  let head := top ++ leBytes 8 raw.length ++ leBytes 4 chunks.length ++ leBytes 4 0xFFFFFFFF ++ mid ++ leBytes 180 0
  head ++ leBytes 4 (crc32c head).toNat ++ firnBytes chunks 0

/-- Whether an image's header fails: its magic, or its hcrc, which is that of status 0 and ffail all-ones. -/
def State.headerFails (s : State) (im : Image) : Bool :=
  let h := s.homeBytes im.addr 256
  fieldAt h 0 4 != 0x4E524946 || (crc32c (h.take 7 ++ [0] ++ (h.drop 8).take 36 ++ leBytes 4 0xFFFFFFFF ++ (h.drop 48).take 204)).toNat != fieldAt h 252 4

/-- The words that a payload decodes to. -/
def firnWords : Nat → List Byte → W32 → List W32
  | 0, _, _ => []
  | _ + 1, [], _ => []
  | n + 1, c :: rest, last =>
    if c.toNat < 0x80 then
      let ws := bytesWords (rest.take (4 * (c.toNat + 1)))
      ws ++ firnWords n (rest.drop (4 * (c.toNat + 1))) (ws.getLastD last)
    else List.replicate (c.toNat - 0x7F) last ++ firnWords n rest last

/-- The raw bytes of each chunk of an image from a chunk and raw offset on, and whether it fails: then they are all-ones, over its rawlen, or,
where that cannot be read, up to the next chunk or the end. -/
def State.chunksFrom (s : State) (addr rawlen : Nat) : Nat → Nat → Nat → List (List Byte × Bool)
  | 0, _, _ => []
  | n + 1, i, off =>
    let a := addr + 256 + 4096 * i
    let bs := s.homeBytes a 4096
    let bad := (List.range 128).any fun j => s.poisoned (a + 32 * j)
    let len := if ¬ s.poisoned a then fieldAt bs 8 4 else if n = 0 then rawlen - off else fieldAt (s.homeBytes (a + 4096) 8) 0 8 - off
    let plen := fieldAt bs 12 2
    if chunkFails bs bad off then (List.replicate (min len (rawlen - off)) 0xFF, true) :: s.chunksFrom addr rawlen n (i + 1) (off + len)
    else ((firnWords plen ((bs.drop 16).take plen) 0).flatMap (fun w => leBytes 4 w.toNat), false) :: s.chunksFrom addr rawlen n (i + 1) (off + len)

/-- The chunks of an image. -/
def State.imageChunks (s : State) (im : Image) : List (List Byte × Bool) :=
  let h := s.homeBytes im.addr 256
  s.chunksFrom im.addr (fieldAt h 32 8) (fieldAt h 40 4) 0 0

/-- The raw bytes of an image, each with whether a failing chunk has written it. -/
def State.imageRaw (s : State) (im : Image) : List (Byte × Bool) := (s.imageChunks im).flatMap fun c => c.1.map fun b => (b, c.2)

/-! ### A team read back from its record (spec/03 R58; spec/23 R335, R338) -/

/-- The size of a team's record. -/
def Team.recordLen (t : Team) : Nat :=
  512 + 8 * (t.id.kernel.sregs + 1) + 512 + t.id.m * (512 + 128 * t.id.kernel.regs) + (if t.hasTrapExt then 512 else 0)

/-- A mask of a lane section, gathered over the mask words: `off` is its place in the section, `lanes` the place of the sections. -/
def recMask (b : List Byte) (lanes m off : Nat) : Mask :=
  BitVec.ofNat 1024 ((List.range m).foldl (fun x w => x + fieldAt b (lanes + 512 * w + off) 4 * 2 ^ (32 * w)) 0)

/-- Frames of a stack, the top first: `pcs` is the place of their pcs, `off` that of their masks in a lane section. -/
def recFrames (b : List Byte) (lanes m depth pcs off : Nat) : List Frame :=
  ((List.range depth).map fun i =>
    ⟨fieldAt b (pcs + 8 * i) 8 / 2 ^ 63 == 1, BitVec.ofNat 64 (fieldAt b (pcs + 8 * i) 8 % 2 ^ 62), recMask b lanes m (off + 4 * i)⟩).reverse

/-- The scalar registers that a save keeps, from a place of a record; every other one is zero (spec/03 R58). -/
def recScalars (b : List Byte) (at_ sregs : Nat) : Vector W64 64 :=
  Vector.ofFn fun i : Fin 64 =>
    if i.val < sregs then BitVec.ofNat 64 (fieldAt b (at_ + 8 * i.val) 8)
    else if i.val = 63 then BitVec.ofNat 64 (fieldAt b (at_ + 8 * sregs) 8) else 0

/-- The registers of a record. -/
def Team.loadRegs (t : Team) (b : List Byte) : Regs :=
  let sr := t.id.kernel.sregs
  let m := t.id.m
  let a0 := 512 + 8 * (sr + 1)
  let lanes := a0 + 512
  let rows := lanes + 512 * m
  let tags := fieldAt b 32 32
  { t.regs with
    s := recScalars b 512 sr
    a := Vector.ofFn fun i : Fin 16 => BitVec.ofNat 80 (fieldAt b (a0 + 16 * i.val) 10)
    t := Vector.ofFn fun i : Fin 16 => BitVec.ofNat 128 (fieldAt b (a0 + 256 + 16 * i.val) 16)
    h := Vector.ofFn fun i : Fin 4 => BitVec.ofNat 32 (fieldAt b (64 + 4 * i.val) 4)
    p := Vector.ofFn fun i : Fin 8 => if i.val = 7 then t.p 7 else recMask b lanes m (4 + 4 * i.val)
    tag := Vector.ofFn fun i : Fin 64 => BitVec.ofNat 4 (tags / 2 ^ (4 * i.val))
    v := Vector.ofFn fun i : Fin 64 =>
      if i.val < t.id.kernel.regs then
        (List.range (32 * m)).map fun l => BitVec.ofNat 32 (fieldAt b (rows + 128 * m * i.val + 4 * l) 4)
      else t.v i }

/-- The trap registers of a record; those of a team parked at user level are not in it. -/
def Team.loadTrap (t : Team) (b : List Byte) : TrapRegs :=
  let lanes := 512 + 8 * (t.id.kernel.sregs + 1) + 512
  if t.flow.park.isSome ∧ t.ctl.level ≠ .trap then t.ctl.trap
  else
    { tcause := BitVec.ofNat 64 (fieldAt b 96 8)
      tpc := BitVec.ofNat 64 (fieldAt b 104 8)
      taddr := BitVec.ofNat 80 (fieldAt b 112 16)
      twords := BitVec.ofNat 96 (fieldAt b 128 16)
      tbmask := BitVec.ofNat 128 (fieldAt b 144 16)
      tlanem := if t.flow.park.isSome then t.ctl.trap.tlanem else recMask b lanes t.id.m 160 }

/-- A team with what its record holds: registers, position, masks, stacks, trap registers (spec/23 R338). What the device keeps of it
elsewhere, its operations, its waits, its lanes on merge entries, stays. -/
def Team.load (t : Team) (b : List Byte) : Team :=
  let m := t.id.m
  let lanes := 512 + 8 * (t.id.kernel.sregs + 1) + 512
  let ext := lanes + 512 * m + 128 * m * t.id.kernel.regs
  { t with
    regs := t.loadRegs b
    ctl := { t.ctl with
      pc := BitVec.ofNat 64 (fieldAt b 0 8 % 2 ^ 62)
      word := fieldAt b 0 8 / 2 ^ 62
      em := recMask b lanes m 0
      stack := recFrames b lanes m (fieldAt b 12 1) 256 32
      asideEm := recMask b lanes m 164
      aside := if t.ctl.level = .trap then recFrames b lanes m (fieldAt b 13 1) ext 168 else []
      srstate := BitVec.ofNat 32 (fieldAt b 24 4)
      trap := t.loadTrap b } }

/-! ### An image follows its teams (spec/23 R330, R332) -/

/-- Where the record of a team lies in a raw stream that holds `n` records, from an offset on. -/
def recordAt (b : List Byte) (teamid : Nat) : Nat → Nat → Option Nat
  | 0, _ => none
  | n + 1, off =>
    if fieldAt b (off + 88) 8 = teamid then some off
    else
      recordAt b teamid n (off + 512 + 8 * (fieldAt b (off + 10) 1 + 1) + 512 + 2 ^ fieldAt b (off + 8) 1 * (512 + 128 * fieldAt b (off + 9) 1) +
        (if fieldAt b (off + 11) 1 = 1 ∨ flag (fieldAt b (off + 14) 2) 5 then 512 else 0))

/-- The image of a team that is away written again with the team as it stands, in the image's place where it still fits; an image that fails is
left as it is. -/
def State.refreshImage (s : State) (tid : Nat) : State :=
  match s.team? tid, s.images.find? fun i => i.tids.contains tid with
  | some t, some im =>
    match s.ctx? im.ctx with
    | none => s
    | some c =>
      let h := s.homeBytes im.addr 256
      let raw := s.imageRaw im
      if t.placed ∨ s.headerFails im ∨ raw.any (·.2) then s
      else
        let b := raw.map (·.1)
        match recordAt b t.id.teamid.toNat (fieldAt h 48 4) 0 with
        | none => s
        | some off =>
          let new := b.take off ++ s.teamRecord t ++ b.drop (off + t.recordLen)
          let bs := contextBytes (h.take 32) ((h.drop 48).take 24) new
          let a := State.imagePlace { s with images := s.images.filter fun i => !(i.ctx == im.ctx && i.addr == im.addr) } c bs.length
          let s1 := s.homeStore 0xFFFFFFFF 0 a (keyed a bs)
          { s1 with images := s1.images.map fun i => if i.ctx = im.ctx ∧ i.addr = im.addr then { i with addr := a, len := bs.length } else i }
  | _, _ => s

/-- An operation of a team reaches its completion point: its results are written, also into the saved context of a team that is away (spec/23
R332), and fences that waited for it go on. -/
def State.finishOp (s : State) (tid op : Nat) : State := ((s.updTeam tid (·.complete op)).settleFences tid).refreshImage tid

end Sys2Proof.Machine
end

