-- ==== Sys2Proof/Machine/Flags.lean ====
section
/-!
DEFINITION. Sys2Proof/Machine/Flags.lean: the conditions that words leave in predicates: the Z9 has no flag register, its compares write
predicates (spec/06 R111, R116; spec/07 R123, R124).
-/
namespace Sys2Proof.Machine
open Sys2Proof

/-- The number whose bit l is the l-th truth value. -/
def bitNum : List Bool → Nat
  | [] => 0
  | b :: bs => b.toNat + 2 * bitNum bs

/-- A truth value for each lane, as a mask. -/
def bitMask (bs : List Bool) : Mask := BitVec.ofNat 1024 (bitNum bs)

/-- A compare's two destinations written in the lanes of a mask: c and its complement (spec/06 R111). -/
def State.putCmp (s : State) (p q : PReg) (m c : Mask) : State :=
  (s.setMe fun t => (t.setP p m c).setP q m (~~~c)).advance

/-- A compare word: lane by lane, c := rel of the lanes of A and B. -/
def compare2 (i : Instr) (p q : PReg) (a b : VReg) (g : Guard) (rel : W32 → W32 → Bool) (s : State) : Host.Outcome State Fault Refusal :=
  run i s fun s => s.putCmp p q (s.me.eff g) (bitMask (List.zipWith rel (s.me.v a) (s.me.v b)))

/-- The value that a floating compare reads of a lane: `h` and `b` compare bits [15:0] (spec/07 R123). -/
def cmpValue (t : FType) (x : W32) : Val :=
  match t with
  | .f32 => fmtF32.value x.toNat
  | .half => fmtF16.value (x.toNat % 2 ^ 16)
  | .bf => fmtBf16.value (x.toNat % 2 ^ 16)

/-- fceq, fclt, fcle and fcun on two values (spec/07 R123). -/
def cmpEq (x y : Val) : Bool := x.eqv y
def cmpLt (x y : Val) : Bool := x.lt y
def cmpLe (x y : Val) : Bool := x.lt y || x.eqv y
def cmpUn (x y : Val) : Bool := x == .nan || y == .nan

/-- A floating compare of two lanes. -/
def floatRel (t : FType) (rel : Val → Val → Bool) (x y : W32) : Bool := rel (cmpValue t x) (cmpValue t y)

/-- `vcmp.eq` (spec/06 R111). -/
def execVcmpEq (p q : PReg) (a b : VReg) (g : Guard) (s : State) : Host.Outcome State Fault Refusal :=
  compare2 (.vcmpEq p q a b g) p q a b g (fun x y => x == y) s

/-- `vcmp.lt` (spec/06 R111). -/
def execVcmpLt (p q : PReg) (a b : VReg) (g : Guard) (s : State) : Host.Outcome State Fault Refusal :=
  compare2 (.vcmpLt p q a b g) p q a b g (fun x y => x.ult y) s

/-- `vcmp.le` (spec/06 R111). -/
def execVcmpLe (p q : PReg) (a b : VReg) (g : Guard) (s : State) : Host.Outcome State Fault Refusal :=
  compare2 (.vcmpLe p q a b g) p q a b g (fun x y => x.ule y) s

/-- `vcmp.ltn` (spec/06 R111). -/
def execVcmpLtn (p q : PReg) (a b : VReg) (g : Guard) (s : State) : Host.Outcome State Fault Refusal :=
  compare2 (.vcmpLtn p q a b g) p q a b g (fun x y => x.slt y) s

/-- FCEQ (spec/07 R123, R124). -/
def execFceq (p q : PReg) (a b : VReg) (g : Guard) (t : FType) (s : State) : Host.Outcome State Fault Refusal :=
  compare2 (.fceq p q a b g t) p q a b g (floatRel t cmpEq) s

/-- FCLT (spec/07 R123, R124). -/
def execFclt (p q : PReg) (a b : VReg) (g : Guard) (t : FType) (s : State) : Host.Outcome State Fault Refusal :=
  compare2 (.fclt p q a b g t) p q a b g (floatRel t cmpLt) s

/-- FCLE (spec/07 R123, R124). -/
def execFcle (p q : PReg) (a b : VReg) (g : Guard) (t : FType) (s : State) : Host.Outcome State Fault Refusal :=
  compare2 (.fcle p q a b g t) p q a b g (floatRel t cmpLe) s

/-- FCUN (spec/07 R123, R124). -/
def execFcun (p q : PReg) (a b : VReg) (g : Guard) (t : FType) (s : State) : Host.Outcome State Fault Refusal :=
  compare2 (.fcun p q a b g t) p q a b g (floatRel t cmpUn) s

/-- pand, por and pxor (spec/06 R116): in the lanes of the execute mask. -/
def predicate2 (i : Instr) (d a : PReg) (n : Bool) (b : PReg) (f : Mask → Mask → Mask) (s : State) : Host.Outcome State Fault Refusal :=
  run i s fun s => (s.setMe fun t => t.setP d t.em (f (t.p a) (if n then ~~~(t.p b) else t.p b))).advance

/-- `plog.pand` (spec/06 R116, R117). -/
def execPlogPand (d a : PReg) (n : Bool) (b : PReg) (s : State) : Host.Outcome State Fault Refusal :=
  predicate2 (.plogPand d a n b) d a n b (fun x y => x &&& y) s

/-- `plog.por` (spec/06 R116, R117). -/
def execPlogPor (d a : PReg) (n : Bool) (b : PReg) (s : State) : Host.Outcome State Fault Refusal :=
  predicate2 (.plogPor d a n b) d a n b (fun x y => x ||| y) s

/-- `plog.pxor` (spec/06 R116, R117). -/
def execPlogPxor (d a : PReg) (n : Bool) (b : PReg) (s : State) : Host.Outcome State Fault Refusal :=
  predicate2 (.plogPxor d a n b) d a n b (fun x y => x ^^^ y) s

/-- `plog.pmovs` (spec/06 R119). -/
def execPlogPmovs (d : SReg) (a : PReg) (w : Fin 64) (s : State) : Host.Outcome State Fault Refusal :=
  run (.plogPmovs d a w) s fun s => s.putS d ((maskWord (s.me.p a &&& s.me.em) w.val).setWidth 64)

/-- `plog.pbal` (spec/06 R119). -/
def execPlogPbal (d : SReg) (a : PReg) (s : State) : Host.Outcome State Fault Refusal :=
  run (.plogPbal d a) s fun s => s.putS d (BitVec.ofNat 64 (popN (s.me.p a &&& s.me.em).toNat 1024))

/-- `plog.emw` (spec/06 R118): EM := EM AND p(A). -/
def execPlogEmw (a : PReg) (s : State) : Host.Outcome State Fault Refusal :=
  run (.plogEmw a) s fun s => (s.setMe fun t => t.updCtl fun c => { c with em := t.em &&& t.p a }).advance

/-- `plog.emr` (spec/06 R119): EM word w, or the summary word. -/
def execPlogEmr (d : SReg) (w : Fin 64) (s : State) : Host.Outcome State Fault Refusal :=
  run (.plogEmr d w) s fun s =>
    s.putS d (if w = 63 then (s.me.summary s.me.em).setWidth 64 else (maskWord s.me.em w.val).setWidth 64)

end Sys2Proof.Machine
end

