-- ==== Sys2Proof/Machine/Vector.lean ====
section
/-!
DEFINITION. Sys2Proof/Machine/Vector.lean: the integer lane words, moves and cross-lane words (spec/06 R108 to R110, R112 to R115).
-/
namespace Sys2Proof.Machine
open Sys2Proof

/-- A lane word with two sources: v(D)[l] := f of v(A)[l] and v(B)[l] in the effective mask; D's tag becomes 0. -/
def vector2 (i : Instr) (d a b : VReg) (g : Guard) (f : W32 → W32 → W32) (s : State) : Host.Outcome State Fault Refusal :=
  run i s fun s => s.putV d (s.me.eff g) (List.zipWith f (s.me.v a) (s.me.v b)) 0

/-- A lane word with one source. -/
def vector1 (i : Instr) (d a : VReg) (g : Guard) (f : W32 → W32) (s : State) : Host.Outcome State Fault Refusal :=
  run i s fun s => s.putV d (s.me.eff g) ((s.me.v a).map f) 0

/-- The same value in every lane of a team. -/
def Team.splat (t : Team) (x : W32) : List W32 := List.replicate t.width x

/-- The low five bits of a shift count. -/
def count5 (y : W32) : Nat := y.toNat % 32

/-- `vari.iadd` (spec/06 R108). -/
def execVariIadd (d a b : VReg) (g : Guard) (s : State) : Host.Outcome State Fault Refusal :=
  vector2 (.variIadd d a b g) d a b g (fun x y => x + y) s

/-- `vari.isub` (spec/06 R108). -/
def execVariIsub (d a b : VReg) (g : Guard) (s : State) : Host.Outcome State Fault Refusal :=
  vector2 (.variIsub d a b g) d a b g (fun x y => x - y) s

/-- `vari.imul` (spec/06 R108). -/
def execVariImul (d a b : VReg) (g : Guard) (s : State) : Host.Outcome State Fault Refusal :=
  vector2 (.variImul d a b g) d a b g (fun x y => x * y) s

/-- `vari.imulh` (spec/06 R108). -/
def execVariImulh (d a b : VReg) (g : Guard) (s : State) : Host.Outcome State Fault Refusal :=
  vector2 (.variImulh d a b g) d a b g (fun x y => BitVec.ofNat 32 (x.toNat * y.toNat / 2 ^ 32)) s

/-- `vlog.and` (spec/06 R108). -/
def execVlogAnd (d a b : VReg) (g : Guard) (s : State) : Host.Outcome State Fault Refusal :=
  vector2 (.vlogAnd d a b g) d a b g (fun x y => x &&& y) s

/-- `vlog.or` (spec/06 R108). -/
def execVlogOr (d a b : VReg) (g : Guard) (s : State) : Host.Outcome State Fault Refusal :=
  vector2 (.vlogOr d a b g) d a b g (fun x y => x ||| y) s

/-- `vlog.xor` (spec/06 R108). -/
def execVlogXor (d a b : VReg) (g : Guard) (s : State) : Host.Outcome State Fault Refusal :=
  vector2 (.vlogXor d a b g) d a b g (fun x y => x ^^^ y) s

/-- `vlog.andn` (spec/06 R108). -/
def execVlogAndn (d a b : VReg) (g : Guard) (s : State) : Host.Outcome State Fault Refusal :=
  vector2 (.vlogAndn d a b g) d a b g (fun x y => x &&& ~~~y) s

/-- `vsft.shl` (spec/06 R108). -/
def execVsftShl (d a b : VReg) (g : Guard) (s : State) : Host.Outcome State Fault Refusal :=
  vector2 (.vsftShl d a b g) d a b g (fun x y => x <<< count5 y) s

/-- `vsft.shr` (spec/06 R108). -/
def execVsftShr (d a b : VReg) (g : Guard) (s : State) : Host.Outcome State Fault Refusal :=
  vector2 (.vsftShr d a b g) d a b g (fun x y => x >>> count5 y) s

/-- `vsft.sar` (spec/06 R108). -/
def execVsftSar (d a b : VReg) (g : Guard) (s : State) : Host.Outcome State Fault Refusal :=
  vector2 (.vsftSar d a b g) d a b g (fun x y => x.sshiftRight (count5 y)) s

/-- `vsft.rol` (spec/06 R108). -/
def execVsftRol (d a b : VReg) (g : Guard) (s : State) : Host.Outcome State Fault Refusal :=
  vector2 (.vsftRol d a b g) d a b g (fun x y => x.rotateLeft (count5 y)) s

/-- `vmnx.imin` (spec/06 R108). -/
def execVmnxImin (d a b : VReg) (g : Guard) (s : State) : Host.Outcome State Fault Refusal :=
  vector2 (.vmnxImin d a b g) d a b g (fun x y => if x.toNat ≤ y.toNat then x else y) s

/-- `vmnx.imax` (spec/06 R108). -/
def execVmnxImax (d a b : VReg) (g : Guard) (s : State) : Host.Outcome State Fault Refusal :=
  vector2 (.vmnxImax d a b g) d a b g (fun x y => if x.toNat ≤ y.toNat then y else x) s

/-- `vmnx.nmin` (spec/06 R108). -/
def execVmnxNmin (d a b : VReg) (g : Guard) (s : State) : Host.Outcome State Fault Refusal :=
  vector2 (.vmnxNmin d a b g) d a b g (fun x y => if x.toInt ≤ y.toInt then x else y) s

/-- `vmnx.nmax` (spec/06 R108). -/
def execVmnxNmax (d a b : VReg) (g : Guard) (s : State) : Host.Outcome State Fault Refusal :=
  vector2 (.vmnxNmax d a b g) d a b g (fun x y => if x.toInt ≤ y.toInt then y else x) s

/-- VADI (spec/06 R109). -/
def execVadi (d a : VReg) (g : Guard) (i : BitVec 8) (s : State) : Host.Outcome State Fault Refusal :=
  vector1 (.vadi d a g i) d a g (fun x => x + i.signExtend 32) s

/-- `vimm.sx` (spec/06 R110). -/
def execVimmSx (d : VReg) (g : Guard) (i : BitVec 13) (s : State) : Host.Outcome State Fault Refusal :=
  run (.vimmSx d g i) s fun s => s.putV d (s.me.eff g) (s.me.splat (i.signExtend 32)) 0

/-- `vimm.hi` (spec/06 R110): IMM13 << 19. -/
def execVimmHi (d : VReg) (g : Guard) (i : BitVec 13) (s : State) : Host.Outcome State Fault Refusal :=
  run (.vimmHi d g i) s fun s => s.putV d (s.me.eff g) (s.me.splat (i.setWidth 32 <<< 19)) 0

/-- VSEL (spec/06 R112): in the execute mask, A where the guard is 1 and B elsewhere. -/
def execVsel (d a b : VReg) (g : Guard) (s : State) : Host.Outcome State Fault Refusal :=
  run (.vsel d a b g) s fun s => s.putV d s.me.em (blend (s.me.guardMask g) 0 (s.me.v b) (s.me.v a)) 0

/-- `vmov.mov` (spec/06 R113). -/
def execVmovMov (d a : VReg) (g : Guard) (s : State) : Host.Outcome State Fault Refusal :=
  vector1 (.vmovMov d a g) d a g (fun x => x) s

/-- `vmov.bcast` (spec/06 R113). -/
def execVmovBcast (d : VReg) (a : SReg) (g : Guard) (s : State) : Host.Outcome State Fault Refusal :=
  run (.vmovBcast d a g) s fun s => s.putV d (s.me.eff g) (s.me.splat ((s.me.s a).setWidth 32)) 0

/-- `vmov.rdlane` (spec/06 R113): the lowest lane of the effective mask; unchanged if it is empty. -/
def execVmovRdlane (d : SReg) (a : VReg) (g : Guard) (s : State) : Host.Outcome State Fault Refusal :=
  run (.vmovRdlane d a g) s fun s =>
    match lowestLane (s.me.eff g) s.me.width with
    | some k => s.putS d (((s.me.v a).getD k 0).setWidth 64)
    | none => s.advance

/-- `vmov.wrlane` (spec/06 R113): that lane only. -/
def execVmovWrlane (d : VReg) (a : SReg) (g : Guard) (s : State) : Host.Outcome State Fault Refusal :=
  run (.vmovWrlane d a g) s fun s =>
    match lowestLane (s.me.eff g) s.me.width with
    | some k => s.putV d (1#1024 <<< k) (s.me.splat ((s.me.s a).setWidth 32)) 0
    | none => s.advance

/-- `vmov.laneid` (spec/06 R113): the logical id of each lane. -/
def execVmovLaneid (d : VReg) (g : Guard) (s : State) : Host.Outcome State Fault Refusal :=
  run (.vmovLaneid d g) s fun s => s.putV d (s.me.eff g) ((List.range s.me.width).map (BitVec.ofNat 32)) 0

/-- `vxln.shfl` (spec/06 R114): lane v(D)[l] mod W of A, whatever the masks hold. -/
def execVxlnShfl (d a : VReg) (g : Guard) (s : State) : Host.Outcome State Fault Refusal :=
  run (.vxlnShfl d a g) s fun s =>
    s.putV d (s.me.eff g) ((s.me.v d).map fun j => (s.me.v a).getD (j.toNat % s.me.width) 0) 0

/-- `vxln.bcl` (spec/06 R114): the lowest lane of the effective mask. -/
def execVxlnBcl (d a : VReg) (g : Guard) (s : State) : Host.Outcome State Fault Refusal :=
  run (.vxlnBcl d a g) s fun s =>
    match lowestLane (s.me.eff g) s.me.width with
    | some k => s.putV d (s.me.eff g) (s.me.splat ((s.me.v a).getD k 0)) 0
    | none => s.advance

/-- A NaN made canonical (spec/04 R71). -/
def canonF32 (x : W32) : W32 := if fmtF32.isNaN x.toNat then 0x7FC00000 else x

/-- The values of a register in the lanes of a mask, ascending. -/
def Team.active (t : Team) (a : VReg) (m : Mask) : List W32 := (lanesOf m t.width).map fun l => (t.v a).getD l 0

/-- One lane at a time, in ascending lanes (spec/06 R115). -/
def reduce (f : W32 → W32 → W32) : List W32 → W32
  | [] => 0
  | x :: xs => xs.foldl f x

/-- The addition of a reduction's type. -/
def addOf (t : RType) (x y : W32) : W32 :=
  match t with
  | .i32 => x + y
  | .f32 => addF32 x y

/-- The maximum of a reduction's type. -/
def maxOf (t : RType) (x y : W32) : W32 :=
  match t with
  | .i32 => if x.toInt ≤ y.toInt then y else x
  | .f32 => maxF32 x y

/-- A result of a reduction's type, canonical if it is NaN. -/
def resultOf (t : RType) (x : W32) : W32 :=
  match t with
  | .i32 => x
  | .f32 => canonF32 x

/-- `vxln.redadd` (spec/06 R114, R115). -/
def execVxlnRedadd (d a : VReg) (g : Guard) (t : RType) (s : State) : Host.Outcome State Fault Refusal :=
  run (.vxlnRedadd d a g t) s fun s =>
    s.putV d (s.me.eff g) (s.me.splat (resultOf t (reduce (addOf t) (s.me.active a (s.me.eff g))))) 0

/-- `vxln.redmax` (spec/06 R114, R115). -/
def execVxlnRedmax (d a : VReg) (g : Guard) (t : RType) (s : State) : Host.Outcome State Fault Refusal :=
  run (.vxlnRedmax d a g t) s fun s =>
    s.putV d (s.me.eff g) (s.me.splat (resultOf t (reduce (maxOf t) (s.me.active a (s.me.eff g))))) 0

/-- Running sums over the lanes of a mask from lane l up; `acc` is none before the first lane. -/
def scanLanes (t : RType) (m : Mask) : Nat → Option W32 → List W32 → List W32
  | _, _, [] => []
  | l, acc, x :: xs =>
    if m.getLsbD l then
      let y := match acc with
        | some z => addOf t z x
        | none => x
      resultOf t y :: scanLanes t m (l + 1) (some y) xs
    else x :: scanLanes t m (l + 1) acc xs

/-- `vxln.scan` (spec/06 R114, R115). -/
def execVxlnScan (d a : VReg) (g : Guard) (t : RType) (s : State) : Host.Outcome State Fault Refusal :=
  run (.vxlnScan d a g t) s fun s => s.putV d (s.me.eff g) (scanLanes t (s.me.eff g) 0 none (s.me.v a)) 0

end Sys2Proof.Machine
end

