-- ==== Sys2Proof/Machine/Memory.lean ====
section
/-!
DEFINITION. Sys2Proof/Machine/Memory.lean: vector and scalar loads, stores and atomics, fences and counter waits (spec/10 R176 to R183).
-/
namespace Sys2Proof.Machine
open Sys2Proof

/-! ### Vector loads and stores (spec/10 R177) -/

/-- The register words of a lane's bytes. -/
def ldWords (z : LdSize) (bs : List Byte) : List W32 :=
  let x := leNat bs
  match z with
  | .u8 => [BitVec.ofNat 32 x]
  | .s8 => [(BitVec.ofNat 8 x).signExtend 32]
  | .u16 => [BitVec.ofNat 32 x]
  | .s16 => [(BitVec.ofNat 16 x).signExtend 32]
  | .w32 => [BitVec.ofNat 32 x]
  | .w64 => [BitVec.ofNat 32 x, BitVec.ofNat 32 (x / 2 ^ 32)]
  | .w128 => [BitVec.ofNat 32 x, BitVec.ofNat 32 (x / 2 ^ 32), BitVec.ofNat 32 (x / 2 ^ 64), BitVec.ofNat 32 (x / 2 ^ 96)]

/-- Consecutive v registers from d, modulo 64. -/
def regsFrom (d : VReg) (n : Nat) : List VReg := (List.range n).map fun i => Fin.ofNat 64 (d.val + i)

/-- A lane's words for consecutive registers. -/
def laneWrites (d : VReg) (l : Nat) (ws : List W32) : List RegWrite :=
  ws.zipIdx.map fun (w, j) => .v (Fin.ofNat 64 (d.val + j)) l w

/-- The lanes of each pass: mask words 0 up (spec/12 R203). -/
def passes (xs : List LaneAt) (m : Nat) : List (List LaneAt) := (List.range m).map fun w => xs.filter fun x => x.lane / 32 == w

/-- One lane of a load performed, given the sectors that its pass has read: lanes of one pass that touch one sector form one access
(spec/08 R149). -/
def ldLane (t : Team) (d : VReg) (z : LdSize) (acc : Done × List (Nat × List Byte)) (x : LaneAt) : Done × List (Nat × List Byte) :=
  let (a, seen) := acc
  let a := a.seen x
  let sec := sectorOf x.key
  match seen.find? (·.1 == sec) with
  | some (_, bs) => ({ a with writes := a.writes ++ laneWrites d x.lane (ldWords z ((bs.drop (x.key % 32)).take z.bytes)) }, seen)
  | none =>
    let (bs, s1) := a.s.loadSector t.core t.id.tid t.id.ctx t.id.gen x.va x.key x.loc
    ({ a with s := s1, writes := a.writes ++ laneWrites d x.lane (ldWords z ((bs.drop (x.key % 32)).take z.bytes)) }, (sec, bs) :: seen)

/-- VLD at its lanes' locations. -/
def vldEffect (d : VReg) (z : LdSize) : Effect := fun t xs _ s =>
  (passes xs t.id.m).foldl (fun a p => (p.foldl (ldLane t d z) (a, [])).1) (.start s)

/-- The scale of a vector address. -/
def scaleOf (sc : Bool) (n : Nat) : Nat := if sc then n else 1

/-- VLD (spec/10 R177). -/
def execVld (d : VReg) (a : AReg) (o : VReg) (g : Guard) (sc : Bool) (z : LdSize) (s : State) : Host.Outcome State Fault Refusal :=
  run (.vld d a o g sc z) s fun s =>
    s.vectorAccess (.vld d a o g sc z) .ld .load z.bytes (s.me.laneAddr a o (scaleOf sc z.bytes)) (regsFrom d z.regs) 0 (vldEffect d z)

/-- Bytes gathered into the sector accesses of a pass (spec/08 R149). -/
def gather (x : LaneAt) (bs : List (Nat × Byte)) : List (LaneAt × List (Nat × Byte)) → List (LaneAt × List (Nat × Byte))
  | [] => [(x, bs)]
  | (y, old) :: rest => if sectorOf y.key = sectorOf x.key then (y, mergeBytes old bs) :: rest else (y, old) :: gather x bs rest

/-- The sector accesses of one pass of a store: the lanes in order, so that the higher lane of a byte wins (spec/08 R146). -/
def gatherPass (f : LaneAt → List Byte) (p : List LaneAt) : List (LaneAt × List (Nat × Byte)) :=
  p.foldl (fun acc x => gather x (keyed x.key (f x)) acc) []

/-- The bytes that a lane of a store writes. -/
def stBytes (t : Team) (d : VReg) (z : StSize) (l : Nat) : List Byte :=
  leBytes z.bytes ((regsFrom d z.regs).foldr (fun r x => ((t.v r).getD l 0).toNat + 2 ^ 32 * x) 0)

/-- Stores of the lanes of some passes, sector by sector within each. -/
def storeEffect (f : Team → LaneAt → List Byte) : Effect := fun t xs _ s =>
  { Done.start s with
    s := (passes xs t.id.m).foldl (fun s p => (gatherPass (f t) p).foldl (fun s (x, bs) =>
      s.storeBytes t.core t.id.tid t.id.ctx t.id.gen x.va x.key x.loc bs) s) s }

/-- VST at its lanes' locations. -/
def vstEffect (d : VReg) (z : StSize) : Effect := storeEffect fun t x => stBytes t d z x.lane

/-- VST (spec/10 R177). -/
def execVst (d : VReg) (a : AReg) (o : VReg) (g : Guard) (sc : Bool) (z : StSize) (s : State) : Host.Outcome State Fault Refusal :=
  run (.vst d a o g sc z) s fun s =>
    s.vectorAccess (.vst d a o g sc z) .st .store z.bytes (s.me.laneAddr a o (scaleOf sc z.bytes)) [] 0 (vstEffect d z)

/-! ### Vector atomics (spec/10 R178) -/

/-- The new word of each VATM form, from the lane, its x and the old word; for `cas`, v(D) is expected and v(D+1) is new. -/
def vatmNew (t : Team) (l : Nat) (x old : W32) : Instr → W32
  | .vatmAddI _ _ _ _ => old + x
  | .vatmAddF _ _ _ _ => addF32 old x
  | .vatmMinI _ _ _ _ => if old.toInt ≤ x.toInt then old else x
  | .vatmMaxI _ _ _ _ => if old.toInt ≤ x.toInt then x else old
  | .vatmMaxF _ _ _ _ => maxF32 old x
  | .vatmAnd _ _ _ _ => old &&& x
  | .vatmOr _ _ _ _ => old ||| x
  | .vatmXor _ _ _ _ => old ^^^ x
  | .vatmXchg _ _ _ _ => x
  | .vatmCas d _ _ _ => if old = x then (t.v (Fin.ofNat 64 (d.val + 1))).getD l 0 else old
  | _ => old

/-- One lane of an atomic performed: its new value from the old one. -/
def atLane (i : Instr) (d : VReg) (t : Team) (a : Done) (x : LaneAt) : Done :=
  let (old, s1) := a.s.atomicAt t.core t.id.tid t.id.ctx t.id.gen x.va x.key x.loc 4 fun old =>
    (vatmNew t x.lane ((t.v d).getD x.lane 0) (BitVec.ofNat 32 old) i).toNat
  { a with s := s1, writes := a.writes ++ [.v d x.lane (BitVec.ofNat 32 old)] }

/-- VATM at its lanes' locations, lower lanes first (spec/08 R146). -/
def vatmEffect (i : Instr) (d : VReg) : Effect := fun t xs _ s => xs.foldl (atLane i d t) (.start s)

/-- VATM: one 32-bit atomic for each lane. -/
def vectorAtomic (i : Instr) (d : VReg) (a : AReg) (o : VReg) (s : State) : Host.Outcome State Fault Refusal :=
  run i s fun s => s.vectorAccess i .at_ .atomic 4 (s.me.laneAddr a o 1) [d] 0 (vatmEffect i d)

/-- `vatm.add.i` (spec/10 R178). -/
def execVatmAddI (d : VReg) (a : AReg) (o : VReg) (g : Guard) (s : State) : Host.Outcome State Fault Refusal :=
  vectorAtomic (.vatmAddI d a o g) d a o s

/-- `vatm.add.f` (spec/10 R178). -/
def execVatmAddF (d : VReg) (a : AReg) (o : VReg) (g : Guard) (s : State) : Host.Outcome State Fault Refusal :=
  vectorAtomic (.vatmAddF d a o g) d a o s

/-- `vatm.min.i` (spec/10 R178). -/
def execVatmMinI (d : VReg) (a : AReg) (o : VReg) (g : Guard) (s : State) : Host.Outcome State Fault Refusal :=
  vectorAtomic (.vatmMinI d a o g) d a o s

/-- `vatm.max.i` (spec/10 R178). -/
def execVatmMaxI (d : VReg) (a : AReg) (o : VReg) (g : Guard) (s : State) : Host.Outcome State Fault Refusal :=
  vectorAtomic (.vatmMaxI d a o g) d a o s

/-- `vatm.max.f` (spec/10 R178). -/
def execVatmMaxF (d : VReg) (a : AReg) (o : VReg) (g : Guard) (s : State) : Host.Outcome State Fault Refusal :=
  vectorAtomic (.vatmMaxF d a o g) d a o s

/-- `vatm.and` (spec/10 R178). -/
def execVatmAnd (d : VReg) (a : AReg) (o : VReg) (g : Guard) (s : State) : Host.Outcome State Fault Refusal :=
  vectorAtomic (.vatmAnd d a o g) d a o s

/-- `vatm.or` (spec/10 R178). -/
def execVatmOr (d : VReg) (a : AReg) (o : VReg) (g : Guard) (s : State) : Host.Outcome State Fault Refusal :=
  vectorAtomic (.vatmOr d a o g) d a o s

/-- `vatm.xor` (spec/10 R178). -/
def execVatmXor (d : VReg) (a : AReg) (o : VReg) (g : Guard) (s : State) : Host.Outcome State Fault Refusal :=
  vectorAtomic (.vatmXor d a o g) d a o s

/-- `vatm.xchg` (spec/10 R178). -/
def execVatmXchg (d : VReg) (a : AReg) (o : VReg) (g : Guard) (s : State) : Host.Outcome State Fault Refusal :=
  vectorAtomic (.vatmXchg d a o g) d a o s

/-- `vatm.cas` (spec/10 R178). -/
def execVatmCas (d : VReg) (a : AReg) (o : VReg) (g : Guard) (s : State) : Host.Outcome State Fault Refusal :=
  vectorAtomic (.vatmCas d a o g) d a o s

/-! ### Scalar loads and stores (spec/10 R180) -/

/-- Whether an ordering is performed at the point of visibility: cluster scope and wider (spec/08 R151, R152). -/
def atHome : Option Scope → Bool
  | none => false
  | some sc => decide (2 ≤ sc.code)

/-- SLD at its location: an acquiring one does not use a clean copy that the core still holds (spec/08 R152, R155), and then acquires. -/
def sldEffect (i : Instr) (d : SReg) (n : Nat) : Effect := fun t xs _ s =>
  xs.foldl (fun a x =>
    let acq := i.acqScope.map (·.widen x.loc)
    let a := a.seen x
    let s1 := if atHome acq then a.s.dropClean t.core x.key else a.s
    let (bs, s2) := s1.loadBytes t.core t.id.tid t.id.ctx t.id.gen x.va x.key x.loc n
    { a with s := s2.acqBy t acq, writes := a.writes ++ [.s d (BitVec.ofNat 64 (leNat bs))] }) (.start s)

/-- SLD (spec/10 R180). -/
def execSld (d : SReg) (a : AReg) (r : Ordering3) (z : SSize) (i : BitVec 9) (s : State) : Host.Outcome State Fault Refusal :=
  run (.sld d a r z i) s fun s =>
    s.uniformAcc (.sld d a r z i) .ld .load (s.me.scalarAddr a i z.bytes) z.bytes [d] (sldEffect (.sld d a r z i) d z.bytes)

/-- SST at its location: an ordered one of cluster scope or wider at its point of visibility, a plain one in L1. -/
def sstEffect (i : Instr) (d : SReg) (n : Nat) : Effect := fun t xs _ s =>
  { Done.start s with
    s := xs.foldl (fun s x =>
      let bs := keyed x.key (leBytes n (t.s d).toNat)
      if atHome (i.relScope.map (·.widen x.loc)) ∧ x.loc ≠ 3 then
        (((s.touch t.core t.id.tid x.key).retag t.core x.key t.id.ctx t.id.gen x.va).dropClean t.core x.key).homeStore
          t.id.ctx t.id.gen x.va.toNat bs
      else s.storeBytes t.core t.id.tid t.id.ctx t.id.gen x.va x.key x.loc bs) s }

/-- SST (spec/10 R180). -/
def execSst (d : SReg) (a : AReg) (r : Ordering3) (z : SSize) (i : BitVec 9) (s : State) : Host.Outcome State Fault Refusal :=
  run (.sst d a r z i) s fun s =>
    s.uniformAcc (.sst d a r z i) .st .store (s.me.scalarAddr a i z.bytes) z.bytes [] (sstEffect (.sst d a r z i) d z.bytes)

/-! ### Scalar atomics (spec/10 R181) -/

/-- The new value of each SATM form, from the width in bits, x and the old value; for `cas`, s(D) is expected. -/
def satmNew (t : Team) (w x old : Nat) : Instr → Nat
  | .satmAdd _ _ _ _ _ => old + x
  | .satmSub _ _ _ _ _ => old + (2 ^ w - x)
  | .satmAnd _ _ _ _ _ => old &&& x
  | .satmOr _ _ _ _ _ => old ||| x
  | .satmXor _ _ _ _ _ => old ^^^ x
  | .satmMin _ _ _ _ _ => min old x
  | .satmMax _ _ _ _ _ => max old x
  | .satmMinn _ _ _ _ _ => if signedOf w old ≤ signedOf w x then old else x
  | .satmMaxn _ _ _ _ _ => if signedOf w old ≤ signedOf w x then x else old
  | .satmXchg _ _ _ _ _ => x
  | .satmCas d _ _ _ _ => if old = (t.s d).toNat % 2 ^ w then x else old
  | _ => old

/-- SATM at its location: s(D) := zext(old); then its acquire. -/
def satmEffect (i : Instr) (d b : SReg) (n : Nat) : Effect := fun t xs _ s =>
  xs.foldl (fun a x =>
    let (old, s1) := a.s.atomicAt t.core t.id.tid t.id.ctx t.id.gen x.va x.key x.loc n fun old =>
      satmNew t (8 * n) ((t.s b).toNat % 2 ^ (8 * n)) old i % 2 ^ (8 * n)
    { a with s := s1.acqBy t (i.acqScope.map (·.widen x.loc)), writes := a.writes ++ [.s d (BitVec.ofNat 64 old)] }) (.start s)

/-- SATM: one atomic of the team. -/
def scalarAtomic (i : Instr) (d : SReg) (a : AReg) (b : SReg) (w : AtWidth) (s : State) : Host.Outcome State Fault Refusal :=
  run i s fun s => s.uniformAcc i .at_ .atomic (s.me.a a) w.bytes [d] (satmEffect i d b w.bytes)

/-- `satm.add` (spec/10 R181). -/
def execSatmAdd (d : SReg) (a : AReg) (b : SReg) (r : Ordering3) (w : AtWidth) (s : State) : Host.Outcome State Fault Refusal :=
  scalarAtomic (.satmAdd d a b r w) d a b w s

/-- `satm.sub` (spec/10 R181). -/
def execSatmSub (d : SReg) (a : AReg) (b : SReg) (r : Ordering3) (w : AtWidth) (s : State) : Host.Outcome State Fault Refusal :=
  scalarAtomic (.satmSub d a b r w) d a b w s

/-- `satm.and` (spec/10 R181). -/
def execSatmAnd (d : SReg) (a : AReg) (b : SReg) (r : Ordering3) (w : AtWidth) (s : State) : Host.Outcome State Fault Refusal :=
  scalarAtomic (.satmAnd d a b r w) d a b w s

/-- `satm.or` (spec/10 R181). -/
def execSatmOr (d : SReg) (a : AReg) (b : SReg) (r : Ordering3) (w : AtWidth) (s : State) : Host.Outcome State Fault Refusal :=
  scalarAtomic (.satmOr d a b r w) d a b w s

/-- `satm.xor` (spec/10 R181). -/
def execSatmXor (d : SReg) (a : AReg) (b : SReg) (r : Ordering3) (w : AtWidth) (s : State) : Host.Outcome State Fault Refusal :=
  scalarAtomic (.satmXor d a b r w) d a b w s

/-- `satm.min` (spec/10 R181). -/
def execSatmMin (d : SReg) (a : AReg) (b : SReg) (r : Ordering3) (w : AtWidth) (s : State) : Host.Outcome State Fault Refusal :=
  scalarAtomic (.satmMin d a b r w) d a b w s

/-- `satm.max` (spec/10 R181). -/
def execSatmMax (d : SReg) (a : AReg) (b : SReg) (r : Ordering3) (w : AtWidth) (s : State) : Host.Outcome State Fault Refusal :=
  scalarAtomic (.satmMax d a b r w) d a b w s

/-- `satm.minn` (spec/10 R181). -/
def execSatmMinn (d : SReg) (a : AReg) (b : SReg) (r : Ordering3) (w : AtWidth) (s : State) : Host.Outcome State Fault Refusal :=
  scalarAtomic (.satmMinn d a b r w) d a b w s

/-- `satm.maxn` (spec/10 R181). -/
def execSatmMaxn (d : SReg) (a : AReg) (b : SReg) (r : Ordering3) (w : AtWidth) (s : State) : Host.Outcome State Fault Refusal :=
  scalarAtomic (.satmMaxn d a b r w) d a b w s

/-- `satm.xchg` (spec/10 R181). -/
def execSatmXchg (d : SReg) (a : AReg) (b : SReg) (r : Ordering3) (w : AtWidth) (s : State) : Host.Outcome State Fault Refusal :=
  scalarAtomic (.satmXchg d a b r w) d a b w s

/-- `satm.cas` (spec/10 R181). -/
def execSatmCas (d : SReg) (a : AReg) (b : SReg) (r : Ordering3) (w : AtWidth) (s : State) : Host.Outcome State Fault Refusal :=
  scalarAtomic (.satmCas d a b r w) d a b w s

/-! ### Fences and waits (spec/10 R182, R183) -/

/-- The engine classes of a fence, bit 0 LD to bit 4 SG. -/
def fenceClasses (k : BitVec 5) : List OpClass :=
  [OpClass.ld, .st, .at_, .cp, .sg].filter fun c => k.getLsbD c.code

/-- A fence in the team's order, as the parts that order later accesses until each is over (spec/08 R151 to R153, spec/09 R162): one with a
release part starts its write-backs at once; the team goes on. -/
def State.fence (s : State) (o : Scope) (parts : Nat → List FenceHold) : State :=
  let fs := parts s.nextId
  let note (s : State) : State :=
    ((s.setMe fun t => t.updFlow fun f => { f with fences := f.fences ++ fs }).settleFences s.me.id.tid).advance
  if fs.any (·.rel) then s.releaseThen o note else note s

/-- The acquire part and the release part of a fence. -/
def acqPart (o : Scope) (n : Nat) : FenceHold := ⟨[], o, n, false, true⟩
def relPart (o : Scope) (k : BitVec 5) (n : Nat) : FenceHold := ⟨fenceClasses k, o, n, true, false⟩

/-- `fence.acq` (spec/08 R152). -/
def execFenceAcq (o : Scope) (s : State) : Host.Outcome State Fault Refusal :=
  run (.fenceAcq o) s fun s => s.fence o fun n => [acqPart o n]

/-- `fence.rel` (spec/08 R151, spec/09 R162). -/
def execFenceRel (o : Scope) (k : BitVec 5) (s : State) : Host.Outcome State Fault Refusal :=
  run (.fenceRel o k) s fun s => s.fence o fun n => [relPart o k n]

/-- `fence.ar`: both parts. -/
def execFenceAr (o : Scope) (k : BitVec 5) (s : State) : Host.Outcome State Fault Refusal :=
  run (.fenceAr o k) s fun s => s.fence o fun n => [acqPart o n, relPart o k n]

/-- `fence.sc` (spec/08 R153): every earlier access before every later one, loads included; its classes hold later stores. -/
def execFenceSc (o : Scope) (k : BitVec 5) (s : State) : Host.Outcome State Fault Refusal :=
  run (.fenceSc o k) s fun s => s.fence o fun n => [⟨[], o, n, true, true⟩, relPart o k n]

/-- WAIT (spec/10 R183): the group that holds it issues once the class counter is at most n (`State.gateOpen`), so the word has nothing
left to do. -/
def execWait (k : OpClass) (n : Fin 64) (s : State) : Host.Outcome State Fault Refusal :=
  run (.wait k n) s State.advance

end Sys2Proof.Machine
end

