-- ==== Sys2Proof/Machine/Tiles.lean ====
section
/-!
DEFINITION. Sys2Proof/Machine/Tiles.lean: tile registers and tile slices (spec/10 R184 to R187).
-/
namespace Sys2Proof.Machine
open Sys2Proof

/-- `tbnd.bind` (spec/10 R185): t(D) := s(A+1) ‖ s(A). -/
def execTbndBind (t : TReg) (a : SReg) (s : State) : Host.Outcome State Fault Refusal :=
  run (.tbndBind t a) s fun s =>
    (s.setMe fun u => u.setT t (BitVec.ofNat 128 (u.sNat (a.val + 1) * 2 ^ 64 + u.sNat a.val))).advance

/-- `tbnd.unbind` (spec/10 R185): t(D).space := 0. -/
def execTbndUnbind (t : TReg) (s : State) : Host.Outcome State Fault Refusal :=
  run (.tbndUnbind t) s fun s => (s.setMe fun u => u.setT t (u.t t &&& ~~~0xF#128)).advance

/-- `tbnd.query` (spec/10 R185). -/
def execTbndQuery (d : SReg) (t : TReg) (h : Bool) (s : State) : Host.Outcome State Fault Refusal :=
  run (.tbndQuery d t h) s fun s => s.putS d ((s.me.t t).extractLsb' (if h then 64 else 0) 64)

/-- The word of a window that a lane of slice i names, if it lies in the window (spec/10 R186). -/
def sliceWord (x : W128) (r : Bool) (i l : Nat) : Option Nat :=
  let rows := tRows x
  let cols := tCols x
  let e := i * (if r then rows else cols) + l
  let row := if r then e % rows else e / cols
  let col := if r then e / rows else e % cols
  if row < rows ∧ col < cols then some (tBase x + row * tPitch x + col) else none

/-- The key of a word of a space, for a team. -/
def State.wordKey (s : State) (space w : Nat) : Option Nat :=
  if space = 4 then s.cstoreAt s.me.id.bundle s.me.cluster (4 * w) 4
  else some (typedKey s.me.core space (4 * w))

/-- The virtual address of a key of a cluster store in a bundle's allocation (spec/10 R175), for reports; 0 for a typed store. -/
def State.slotVa (s : State) (t : Team) (key : Nat) : W80 :=
  if 2 ^ 67 ≤ key then 0
  else
    match s.alloc? t.id.bundle t.cluster with
    | some (base, _) => BitVec.ofNat 80 (0xFFFF * 2 ^ 64 + (key - cstoreKey t.cluster base))
    | none => 0

/-- The lanes that a slice accesses, with their locations. -/
def State.sliceLanes (s : State) (x : W128) (r : Bool) (i : Nat) (m : Mask) : List LaneAt :=
  (lanesOf m s.me.width).filterMap fun l =>
    match sliceWord x r i l with
    | some w =>
      match s.wordKey (tSpace x) w with
      | some k => some ⟨l, s.slotVa s.me k, k, 3⟩
      | none => none
    | none => none

/-- A slice: nothing for an empty mask; the protection fault of a window that the team may not reach; then its lanes' accesses. -/
def State.slice (s : State) (i : Instr) (cls : OpClass) (t : TReg) (r : Bool) (n : Nat) (rs : List VReg) (tag : BitVec 4) (eff : Effect) : State :=
  let m := s.me.effOf i
  if lanesOf m s.me.width = [] then s.advance
  else if ¬ s.windowOk t then s.trapHere ⟨4, 3, 0, false, 0⟩
  else ((s.setMe (·.setTags rs tag)).issueAcc i cls none none (s.sliceLanes (s.me.t t) r n m) [] rs [] eff).advance

/-- TSL at its lanes' locations. -/
def tslEffect (d : VReg) : Effect := fun _ xs _ s =>
  xs.foldl (fun a x => { a.seen x with writes := a.writes ++ [.v d x.lane (BitVec.ofNat 32 (leNat (a.s.homeBytes x.key 4)))] }) (.start s)

/-- TSL (spec/10 R186, R187). -/
def execTsl (d : VReg) (t : TReg) (r : Bool) (i : BitVec 9) (g : Guard) (s : State) : Host.Outcome State Fault Refusal :=
  run (.tsl d t r i g) s fun s =>
    s.slice (.tsl d t r i g) .ld t r i.toNat [d] (BitVec.ofNat 4 (s.windowTag (s.me.t t))) (tslEffect d)

/-- TSS at its lanes' locations, sector by sector within each pass (spec/08 R149). -/
def tssEffect (d : VReg) : Effect := storeEffect fun t x => leBytes 4 ((t.v d).getD x.lane 0).toNat

/-- TSS (spec/10 R186, R187). -/
def execTss (d : VReg) (t : TReg) (r : Bool) (i : BitVec 9) (g : Guard) (s : State) : Host.Outcome State Fault Refusal :=
  run (.tss d t r i g) s fun s => s.slice (.tss d t r i g) .st t r i.toNat [] 0 (tssEffect d)

end Sys2Proof.Machine
end

