-- ==== Sys2Proof/Machine/Layout.lean ====
section
/-!
DEFINITION. Sys2Proof/Machine/Layout.lean: tensor layout records and sidecars, the canonical layout, windows as copies see
them, what a stream engine reads, and Haar tiles (spec/04 R74, R75; spec/05 R94 to R96; spec/09 R165, R346; spec/10 R188 to
R190, R193).
-/
namespace Sys2Proof.Machine
open Sys2Proof

/-! ### Tensor layout records (spec/10 R188) -/

/-- A tensor layout record. -/
structure Tlr where
  base    : Nat
  fmt     : Nat
  mode    : Nat
  ndim    : Nat
  depth   : Nat
  axis    : Bool
  thr     : Nat
  recon   : Bool
  reblock : Nat
  eoff    : Nat
  ext     : List Nat
  stride  : List Int
  scpitch : Nat
  scale   : Nat
  sidecar : Nat
  thrval  : W32
  deriving DecidableEq, Repr

/-- The fields of 128 bytes. -/
def parseTlr (b : List Byte) : Tlr where
  base := fieldAt b 0 10
  fmt := fieldAt b 16 1 % 2 ^ 4
  mode := fieldAt b 16 1 / 2 ^ 4 % 2 ^ 3
  ndim := fieldAt b 17 1
  depth := fieldAt b 18 1 % 2 ^ 3
  axis := flag (fieldAt b 18 1) 3
  thr := fieldAt b 18 1 / 2 ^ 4 % 2 ^ 2
  recon := flag (fieldAt b 18 1) 6
  reblock := fieldAt b 19 1
  eoff := fieldAt b 20 4
  ext := (List.range 5).map fun i => fieldAt b (24 + 4 * i) 4
  stride := (List.range 4).map fun i => signedOf 64 (fieldAt b (44 + 8 * i) 8)
  scpitch := fieldAt b 76 4
  scale := fieldAt b 80 10
  sidecar := fieldAt b 96 10
  thrval := BitVec.ofNat 32 (fieldAt b 112 4)

/-- Extent i of a record. -/
def Tlr.extent (t : Tlr) (i : Nat) : Nat := t.ext.getD i 1
/-- The stride of dimension i, 1 to 4. -/
def Tlr.strideOf (t : Tlr) (i : Nat) : Int := t.stride.getD (i - 1) 0

/-- Whether a snapshot is malformed (spec/09 R165; spec/10 R188). -/
def tlrBad (b : List Byte) : Bool :=
  let t := parseTlr b
  !legalPair t.fmt t.mode || flag (fieldAt b 16 1) 7 || flag (fieldAt b 18 1) 7 || t.axis ||
  t.ndim == 0 || decide (5 < t.ndim) || t.ext.contains 0 || (t.ext.drop t.ndim).any (· != 1) ||
  decide (1 < t.reblock) || fieldAt b 10 6 != 0 || fieldAt b 90 6 != 0 || fieldAt b 106 6 != 0 || fieldAt b 116 12 != 0 ||
  t.extent 0 % groupSize t.mode != 0 || (t.strideOf 1 * elemBits t.fmt) % 8 != 0 ||
  (t.depth != 0 && (t.extent 1 % 128 != 0 || decide (6 ≤ t.fmt)))

/-- Rows of a copy: the positions of dimensions 1 to 4. -/
def Tlr.rows (t : Tlr) : Nat := t.extent 1 * t.extent 2 * t.extent 3 * t.extent 4

/-- The element position of row r, dimension 1 varying fastest. -/
def Tlr.rowPos (t : Tlr) (r : Nat) : Int :=
  let i1 := r % t.extent 1
  let r2 := r / t.extent 1
  let i2 := r2 % t.extent 2
  let r3 := r2 / t.extent 2
  let i3 := r3 % t.extent 3
  let i4 := r3 / t.extent 3
  (t.eoff : Int) + i1 * t.strideOf 1 + i2 * t.strideOf 2 + i3 * t.strideOf 3 + i4 * t.strideOf 4

/-- The first bit of elements k and up of row r, counted from base. -/
def Tlr.bitPos (t : Tlr) (r k : Nat) : Int := (t.rowPos r + k) * elemBits t.fmt

/-- The virtual address of a byte offset from base. -/
def Tlr.va (t : Tlr) (off : Int) : Nat := (((t.base : Int) + off) % 2 ^ 80).toNat

/-- Bytes that n elements of a format fill. -/
def packedBytes (fmt n : Nat) : Nat := (n * elemBits fmt + 7) / 8

/-- The bytes that elements k to k + n - 1 of row r touch: first virtual address and count. -/
def Tlr.span (t : Tlr) (r k n : Nat) : Nat × Nat :=
  let bit := t.bitPos r k
  (t.va (bit / 8), ((bit % 8).toNat + n * elemBits t.fmt + 7) / 8)

/-- The address of tile n's sidecar entry (spec/10 R190). -/
def Tlr.sidecarVa (t : Tlr) (n : Nat) : Nat := (t.sidecar + 32 * n) % 2 ^ 80

/-! ### Sidecars (spec/10 R190) -/

/-- Number of set bits of a 128-bit mask. -/
def pop128 (x : Nat) : Nat := popN x 128

/-- Whether an entry is malformed, or disagrees with the record through which its tile is read (spec/09 R171). -/
def sidecarBad (t : Tlr) (b : List Byte) : Bool :=
  fieldAt b 16 1 != t.depth || fieldAt b 17 1 != 0 || fieldAt b 18 1 != t.fmt || decide (4 ≤ fieldAt b 19 1) ||
  fieldAt b 20 2 != pop128 (fieldAt b 0 16) || fieldAt b 22 10 != 0

/-- The 32 bytes of an entry. -/
def sidecarBytes (t : Tlr) (surv : Nat) : List Byte :=
  leBytes 16 surv ++ leBytes 1 t.depth ++ leBytes 1 0 ++ leBytes 1 t.fmt ++ leBytes 1 t.thr ++ leBytes 2 (pop128 surv) ++
    leBytes 10 0

/-- The coefficient rows that survive, ascending. -/
def survivors (surv : Nat) : List Nat := (List.range 128).filter fun j => surv / 2 ^ j % 2 == 1

/-! ### Windows and the canonical layout (spec/10 R184, R189) -/

/-- The key of a byte of a space for an engine that works for a core and bundle. -/
def State.spaceKey (s : State) (core : Nat) (bundle : Option Nat) (space off : Nat) : Option Nat :=
  if space = 4 then s.cstoreAt bundle (core / 8) off 1 else some (typedKey core space off)

/-- The offset in its space of byte o of a window read in row-major order. -/
def windowByte (x : W128) (o : Nat) : Nat :=
  let w := o / 4
  4 * (tBase x + w / tCols x * tPitch x + w % tCols x) + o % 4

/-- Bytes of a window. -/
def windowLen (x : W128) : Nat := 4 * tRows x * tCols x

/-- Where byte b of row r lies in the image of a copy of R rows. -/
def imageAt (reblock R rb r b : Nat) : Nat :=
  if reblock = 1 then ((b / 64) * ((R + 15) / 16) + r / 16) * 1024 + r % 16 * 64 + b % 64 else r * rb + b

/-- Bytes of a row in the image: whole 64-byte chunks in the canonical layout. -/
def imageRow (reblock rb : Nat) : Nat := if reblock = 1 then (rb + 63) / 64 * 64 else rb

/-- Bytes of the image of R rows of rb bytes. -/
def imageLen (reblock R rb : Nat) : Nat := if reblock = 1 then (rb + 63) / 64 * ((R + 15) / 16) * 1024 else R * rb

/-! ### What an engine reads (spec/09 R163, R346) -/

/-- For whom an engine works. -/
structure Client where
  ctx     : Nat
  gen     : Nat
  bundle  : Option Nat
  cluster : Nat
  deriving DecidableEq, Repr

/-- What an engine finds at an address: a key; a page to wait for; a failure. -/
inductive Reach where
  | key (k : Nat)
  | wait
  | fail
  deriving DecidableEq, Repr

/-- An address translated for an engine. A host-serviced page raises a page request and is waited for; a page that the host
has failed, or any other fault, fails (spec/09 R346); a link that retrains is waited for (spec/22 R324). -/
def State.engineReach (s : State) (c : Client) (e : EngWait) (k : Access) (va n : Nat) : Reach × State × EngWait :=
  let page := va / 2 ^ 12
  if e.failed.contains page then (.fail, s, e)
  else if e.waits.any (·.2 == page) then (.wait, s, e)
  else
    match s.reach c.ctx c.gen c.bundle c.cluster k (BitVec.ofNat 80 va) n with
    | (.ok key _, s1) => ((if s1.linkWaits key then .wait else .key key), s1, e)
    | (.host cause, s1) =>
      match s1.merge (dieOf c.cluster) c.ctx c.gen page k cause true with
      | (some uid, s2) => (.wait, s2, { e with waits := e.waits ++ [(uid, page)] })
      | (none, s2) => (.wait, s2, e)
    | (.fault _ _, s1) => (.fail, s1, e)

/-- Bytes as an engine has read them: each with 0 good, 1 poisoned, 2 failed, 3 not read yet. -/
abbrev Raw := List (Byte × Nat)

/-- The bytes of a key range with their poison. -/
def State.rawAt (s : State) (key n : Nat) : Raw :=
  (List.range n).map fun i => if s.poisoned (key + i) then (0xFF, 1) else (s.homeByte (key + i), 0)

/-- A 32-byte sector of virtual space, by number, read for an engine unless it has been read; one on a page that is waited for stays unread. -/
def State.fetchSec (c : Client) (x : Memo × State × EngWait) (sec : Nat) : Memo × State × EngWait :=
  let (m, s, e) := x
  if m.any (·.1 == sec) then x
  else
    match s.engineReach c e .load (sec * 32) 1 with
    | (.key key, s1, e1) => ((sec, s1.rawAt (sectorOf key) 32) :: m, s1, e1)
    | (.wait, s1, e1) => (m, s1, e1)
    | (.fail, s1, e1) => ((sec, List.replicate 32 (0, 2)) :: m, s1, e1)

/-- Sectors read for an engine; every page is tried (spec/09 R163, R346). -/
def State.fetchSecs (s : State) (c : Client) (e : EngWait) (m : Memo) (secs : List Nat) : Memo × State × EngWait :=
  secs.foldl (State.fetchSec c) (m, s, e)

/-- The sectors of a virtual range. -/
def spanSecs (va n : Nat) : List Nat := (List.range ((va % 32 + n + 31) / 32)).map fun i => (va / 32 + i) % 2 ^ 75

/-- A sector as it has been read. -/
def Memo.sector (m : Memo) (sec : Nat) : Raw :=
  match m.find? (·.1 == sec) with
  | some x => x.2
  | none => List.replicate 32 (0, 3)

/-- Bytes of a virtual range as they have been read, sector by sector. -/
def Memo.pieces (m : Memo) : Nat → Nat → Nat → Raw
  | 0, _, _ => []
  | f + 1, va, n =>
    if n = 0 then []
    else
      let k := min n (32 - va % 32)
      ((m.sector (va / 32)).drop (va % 32)).take k ++ m.pieces f ((va + k) % 2 ^ 80) (n - k)

/-- A range of bytes as it has been read. -/
def Memo.range (m : Memo) (va n : Nat) : Raw := m.pieces (n / 32 + 2) va n

/-- Bytes moved down by one nibble (spec/09 R165). -/
def nibbleDown : Raw → Raw
  | [] => []
  | [(b, f)] => [(b >>> 4, f)]
  | (b, f) :: (b', f') :: t => ((b >>> 4) ||| (b' <<< 4), max f f') :: nibbleDown ((b', f') :: t)

/-- Realigned elements: `n` elements of a format that start at a nibble or byte; unused bits of the last byte are 0. -/
def realign (fmt n : Nat) (odd : Bool) (bs : Raw) : Raw :=
  let ys := ((if odd then nibbleDown bs else bs).take (packedBytes fmt n))
  if (n * elemBits fmt) % 8 = 0 then ys
  else ys.zipIdx.map fun ((b, f), i) => if i + 1 = ys.length then (b &&& 0x0F, f) else (b, f)

/-- The sectors of elements k to k + n - 1 of some rows. -/
def Tlr.rowSecs (t : Tlr) (k n : Nat) (rows : List Nat) : List Nat := rows.flatMap fun r => let (va, len) := t.span r k n; spanSecs va len

/-- Elements k to k + n - 1 of row r as an engine has read them. -/
def Memo.row (m : Memo) (t : Tlr) (r k n : Nat) : Raw :=
  let (va, len) := t.span r k n
  realign t.fmt n ((t.bitPos r k) % 8 != 0) (m.range va len)

/-! ### Elements and Haar tiles (spec/04 R75; spec/05 R94 to R96) -/

/-- The number of some bytes. -/
def rawNat : Raw → Nat
  | [] => 0
  | (b, _) :: t => b.toNat + 256 * rawNat t

/-- The worst mark of some bytes. -/
def rawMark (bs : Raw) : Nat := bs.foldl (fun m x => max m x.2) 0

/-- The first n elements of a format. -/
def unpackElems (fmt n : Nat) (bs : Raw) : List Nat :=
  let x := rawNat bs
  (List.range n).map fun i => x / 2 ^ (i * elemBits fmt) % 2 ^ elemBits fmt

/-- The number that elements of a format make, the first in the low bits. -/
def elemsNat (fmt : Nat) : List Nat → Nat
  | [] => 0
  | x :: xs => x + 2 ^ elemBits fmt * elemsNat fmt xs

/-- The bytes of elements of a format. -/
def packElems (fmt : Nat) (xs : List Nat) : List Byte := leBytes (packedBytes fmt xs.length) (elemsNat fmt xs)

/-- An element widened to FP32 (spec/04 R84). -/
def widen (fmt x : Nat) : W32 := BitVec.ofNat 32 (fmtF32.rne (elemValue fmt x))

/-- An FP32 value converted with `sat` into a format. -/
def narrow (fmt : Nat) (x : W32) : Nat := if fmt = 0 then x.toNat else elemSat fmt (fmtF32.value x.toNat)

/-- A function of columns applied to rows of n values. -/
def byColumns (n : Nat) (f : List W32 → List W32) (rows : List (List W32)) : List (List W32) :=
  let cols := (List.range n).map fun k => f (rows.map (·.getD k 0))
  (List.range rows.length).map fun r => cols.map (·.getD r 0)

/-- A packed tile as rows: the surviving rows given, the others +0. -/
def spreadRows (surv n : Nat) (rows : List (List Nat)) : List (List Nat) :=
  (List.range 128).map fun j =>
    match (survivors surv).findIdx? (· == j) with
    | some i => rows.getD i (List.replicate n 0)
    | none => List.replicate n 0

/-- A tile of coefficients of a format reconstructed and converted back (spec/10 R193). -/
def reconTile (fmt depth n : Nat) (rows : List (List Nat)) : List (List Nat) :=
  (byColumns n (haarInverse depth) (rows.map (·.map (widen fmt)))).map (·.map (narrow fmt))

/-- The mask of the rows of a tile that survive a threshold (spec/05 R96). -/
def survivorMask (h : W32) (rows : List (List W32)) : Nat :=
  (rows.zipIdx.map fun (row, j) => if survives h row then 2 ^ j else 0).foldl (· + ·) 0

/-- The sidecar entry of tile n as it has been read. -/
def Memo.sidecar (m : Memo) (t : Tlr) (n : Nat) : Raw := m.range (t.sidecarVa n) 32

/-- The rows of memory that hold tile n, once its sidecar entry has been read and is well-formed. -/
def Memo.tileRows (m : Memo) (t : Tlr) (n : Nat) : List Nat :=
  let sb := m.sidecar t n
  if rawMark sb = 0 ∧ ¬ sidecarBad t (sb.map (·.1)) then
    (List.range (survivors (fieldAt (sb.map (·.1)) 0 16)).length).map (128 * n + ·)
  else []

/-- Elements k to k + len - 1 of some packed tiles read for an engine: their sidecar entries, then their surviving rows (spec/10 R193). -/
def State.fetchTiles (s : State) (c : Client) (e : EngWait) (m : Memo) (t : Tlr) (k len : Nat) (ns : List Nat) : Memo × State × EngWait :=
  let (m1, s1, e1) := s.fetchSecs c e m (ns.flatMap fun n => spanSecs (t.sidecarVa n) 32)
  s1.fetchSecs c e1 m1 (ns.flatMap fun n => t.rowSecs k len (m1.tileRows t n))

/-- A packed tile as it has been read: its survivors, and its rows in coefficient order, or reconstructed, as bytes with marks; poison where
the tile fails (spec/09 R171, spec/10 R193). -/
def Memo.tile (m : Memo) (t : Tlr) (n k len : Nat) : Nat × List Raw :=
  let rb := packedBytes t.fmt len
  let all (x : Byte) (f : Nat) : List Raw := List.replicate 128 (List.replicate rb (x, f))
  let sb := m.sidecar t n
  let surv := fieldAt (sb.map (·.1)) 0 16
  if 2 ≤ rawMark sb then (0, all 0 (rawMark sb))
  else if rawMark sb = 1 ∨ sidecarBad t (sb.map (·.1)) then (surv, all 0xFF 1)
  else
    let rs := (m.tileRows t n).map fun r => m.row t r k len
    match (rs.map rawMark).foldl max 0 with
    | 0 =>
      let rows := spreadRows surv len (rs.map (unpackElems t.fmt len))
      let out := if t.recon then reconTile t.fmt t.depth len rows else rows
      (surv, out.map fun r => (packElems t.fmt r).map fun b => (b, 0))
    | 1 => (surv, all 0xFF 1)
    | f => (surv, all 0 f)

end Sys2Proof.Machine
end

