-- ==== Sys2Proof/Machine/Barrier.lean ====
section
/-!
DEFINITION. Sys2Proof/Machine/Barrier.lean: transaction barriers (spec/09 R166, R167; spec/10 R197).
-/
namespace Sys2Proof.Machine
open Sys2Proof

/-! ### Fields (spec/09 R166) -/

/-- The fields of a barrier's 16 bytes. -/
def barPhase (b : Nat) : Nat := b % 2 ^ 4
def barArrivals (b : Nat) : Nat := b / 2 ^ 4 % 2 ^ 20
def barSectors (b : Nat) : Nat := b / 2 ^ 24 % 2 ^ 32
def barStatus (b : Nat) : Nat := b / 2 ^ 56 % 2 ^ 3
def barReload (b : Nat) : Nat := b / 2 ^ 64 % 2 ^ 20

/-- A barrier's 16 bytes from its fields. -/
def barMake (phase arrivals sectors status reload : Nat) : Nat :=
  phase + arrivals * 2 ^ 4 + sectors * 2 ^ 24 + status * 2 ^ 56 + reload * 2 ^ 64

/-- The phase advances when both counts are 0 and no overflow holds it (spec/09 R167). -/
def barNext (stuck : Bool) (b : Nat) : Nat :=
  if barArrivals b = 0 ∧ barSectors b = 0 ∧ ¬ stuck then
    barMake ((barPhase b + 1) % 16) (barReload b) 0 (barStatus b) (barReload b)
  else b

/-- The status bits: error, poison, refused. -/
def barError : Nat := 1
def barPoison : Nat := 2
def barRefused : Nat := 4

/-- Status bits set. -/
def barMark (st b : Nat) : Nat := barMake (barPhase b) (barArrivals b) (barSectors b) (barStatus b ||| st) (barReload b)

/-- An arrival; one too many is discarded and marked. -/
def barArrive (stuck : Bool) (b : Nat) : Nat :=
  if barArrivals b = 0 then barMark barError b
  else barNext stuck (barMake (barPhase b) (barArrivals b - 1) (barSectors b) (barStatus b) (barReload b))

/-- Sectors added; a total above 2^32 − 1 is marked and kept at that value. -/
def barAdd (n b : Nat) : Nat :=
  if 2 ^ 32 ≤ barSectors b + n then barMark barError (barMake (barPhase b) (barArrivals b) (2 ^ 32 - 1) (barStatus b) (barReload b))
  else barMake (barPhase b) (barArrivals b) (barSectors b + n) (barStatus b) (barReload b)

/-- One sector counted off, with status bits. A count that is already 0 stays 0, and the phase may advance (DESIGN CHOICE: the spec does
not say what a copy in flight does to a barrier that was initialised again under it; log 16). -/
def barOff (stuck : Bool) (st b : Nat) : Nat :=
  barNext stuck (barMake (barPhase b) (barArrivals b) (barSectors b - 1) (barStatus b ||| st) (barReload b))

/-! ### Updates at the cluster store bank -/

/-- Waiters of a barrier whose phase now differs from theirs may issue their `tbar.tbwait` (spec/09 R167). -/
def State.barRelease (s : State) (key : Nat) : State :=
  let now := barPhase (s.readNat key 1)
  let free (t : Team) : Team :=
    match t.flow.hold with
    | .tbwait k q _ => if k = key ∧ q ≠ now then (t.updFlow fun f => { f with hold := .tbpass }).waitOver s.cyc else t
    | _ => t
  { s with me := free s.me, teams := s.teams.map free }

/-- Whether a barrier's phase is held by an overflow. -/
def State.barStuck (s : State) (key : Nat) : Bool := s.stuck.contains key

/-- A barrier updated in one operation, on the bytes that stand there: after a plain store to a live barrier, whose later results
spec/09 R166 leaves open, the stored bytes count as its fields (DESIGN CHOICE, log 16). -/
def State.barUpdate (s : State) (ctx gen key : Nat) (f : Nat → Nat) : State :=
  (s.homeAtomic ctx gen (keyVa key) key 16 f).2.barRelease key

/-- Sectors added to a barrier. -/
def State.barAddSectors (s : State) (ctx gen key n : Nat) : State :=
  let s1 := if 2 ^ 32 ≤ barSectors (s.homeNat key 16) + n then { s with stuck := key :: s.stuck } else s
  s1.barUpdate ctx gen key (barAdd n)

/-! ### TBAR (spec/10 R197) -/

/-- A plain offset into the bundle's allocation, as an aperture address (spec/10 R175). -/
def apertureVa (off : Nat) : W80 := BitVec.ofNat 80 (0xFFFF * 2 ^ 64 + off % 2 ^ 64)

/-- `n` bytes at a plain offset, or the alignment or protection fault (spec/10 R175, R191). -/
def State.local (s : State) (off n align : Nat) (k : Nat → State) : State :=
  if off % align ≠ 0 then s.trapHere ⟨6, align, apertureVa off, false, 0⟩
  else
    match s.cstoreAt s.me.id.bundle s.me.cluster off n with
    | some key => k key
    | none => s.trapHere ⟨4, 2, apertureVa off, false, 0⟩

/-- A barrier's word as one access of the team at its location. -/
def State.barAccess (s : State) (i : Instr) (cls : OpClass) (a : SReg) (ps : List SReg) (eff : Effect) : State :=
  s.local (s.me.s a).toNat 16 16 fun key => s.accessAt i cls ⟨0, apertureVa (s.me.s a).toNat, key, 3⟩ ps eff

/-- `tbar.tbinit` at its barrier: the whole barrier in one store. -/
def tbinitEffect (d : SReg) : Effect := fun t xs _ s =>
  let r := (t.s d).toNat % 2 ^ 20
  { Done.start s with
    s := xs.foldl (fun s x => (({ s with stuck := s.stuck.filter (· != x.key) }).homeStore t.id.ctx t.id.gen x.va.toNat
      (keyed x.key (leBytes 16 (barMake 0 r 0 0 r)))).barRelease x.key) s }

/-- `tbar.tbinit`. -/
def execTbarTbinit (d a : SReg) (s : State) : Host.Outcome State Fault Refusal :=
  run (.tbarTbinit d a) s fun s => s.barAccess (.tbarTbinit d a) .st a [] (tbinitEffect d)

/-- `tbar.tbarr` at its barrier: one arrival. -/
def tbarrEffect : Effect := fun t xs _ s =>
  { Done.start s with s := xs.foldl (fun s x => s.barUpdate t.id.ctx t.id.gen x.key (barArrive (s.barStuck x.key))) s }

/-- `tbar.tbarr`: a release, then one arrival. -/
def execTbarTbarr (a : SReg) (o : Scope) (s : State) : Host.Outcome State Fault Refusal :=
  run (.tbarTbarr a o) s fun s => s.barAccess (.tbarTbarr a o) .sg a [] tbarrEffect

/-- The scope of a code. -/
def scopeAt (n : Nat) : Scope := (scopeOf n).getD .sys

/-- The phase that a `tbar.tbwait` reads; a poisoned barrier reads as all-ones (spec/22 R325). -/
def State.phaseAt (s : State) (key : Nat) : Nat := barPhase (s.readNat key 1)

/-- `tbar.tbwait`: the group that holds it issues once the phase differs (`State.gateOpen`); then an acquire, which from device scope on
invalidates (spec/09 R167). -/
def execTbarTbwait (d a : SReg) (o : Fin 64) (s : State) : Host.Outcome State Fault Refusal :=
  run (.tbarTbwait d a o) s fun s =>
    s.local (s.me.s a).toNat 16 16 fun key =>
      let s1 := s.loadPoison s.me.id.ctx s.me.id.gen (apertureVa (s.me.s a).toNat).toNat key 8
      let s2 := if 3 ≤ o.val then s1.acqBy s1.me (some (scopeAt o.val)) else s1
      (s2.setMe fun t => t.updFlow fun f => { f with hold := .none }).advance

/-- `tbar.tbtest` at its barrier: the low 64 bits. -/
def tbtestEffect (d : SReg) : Effect := fun _ xs _ s =>
  xs.foldl (fun a x => { a.seen x with writes := a.writes ++ [.s d (BitVec.ofNat 64 (leNat (a.s.homeBytes x.key 8)))] }) (.start s)

/-- `tbar.tbtest`: read plain. -/
def execTbarTbtest (d a : SReg) (s : State) : Host.Outcome State Fault Refusal :=
  run (.tbarTbtest d a) s fun s => s.barAccess (.tbarTbtest d a) .ld a [d] (tbtestEffect d)

end Sys2Proof.Machine
end

