-- ==== Sys2Proof/Machine/Copies.lean ====
section
/-!
DEFINITION. Sys2Proof/Machine/Copies.lean: XCPY, the start of a copy, its destination sectors, multicast, and the outstanding
operations that the pipes and homes complete (spec/07 R133; spec/09 R160 to R171, R346; spec/10 R191 to R194).
-/
namespace Sys2Proof.Machine
open Sys2Proof

/-! ### The shape of a slice (spec/10 R189, R192, R193) -/

/-- Rows of a copy that count as units of its slices: 128-row tiles for a Haar record. -/
def Tlr.unit (t : Tlr) : Nat := if t.depth = 0 then 1 else 128

/-- The rows of slice i of n: first row and the row after the last. -/
def sliceRows (t : Tlr) (i n : Nat) : Nat × Nat :=
  let units := t.rows / t.unit
  (i * units / n * t.unit, (i + 1) * units / n * t.unit)

/-- Element format of the bytes in the window: the record's for a copy in, the tile register's for a copy out. -/
def copyFmt (form : Nat) (t : Tlr) (x : W128) : Nat := if form = 1 then tFmt x else t.fmt

/-- The image bytes of rows: offset in the image and row. -/
def imageBytes (t : Tlr) (rb : Nat) (rows : List Nat) : List (Nat × Nat) :=
  rows.flatMap fun r => (List.range (imageRow t.reblock rb)).map fun b => (imageAt t.reblock t.rows rb r b, r)

/-- Rows from lo to hi - 1. -/
def rowsFrom (lo hi : Nat) : List Nat := (List.range (hi - lo)).map (lo + ·)

/-- A list with each element once, the first kept. -/
def distinct : List Nat → List Nat
  | [] => []
  | x :: xs => x :: (distinct xs).filter (· != x)

/-- Bytes of virtual space that a record's rows fill: address of each. -/
def rowVas (t : Tlr) (rows : List Nat) : List Nat :=
  rows.flatMap fun r =>
    let (va, n) := t.span r 0 (t.extent 0)
    (List.range n).map fun i => (va + i) % 2 ^ 80

/-- The sidecar bytes of the tiles of some rows. -/
def sidecarVas (t : Tlr) (rows : List Nat) : List Nat :=
  if t.depth = 0 then []
  else (distinct (rows.map (· / 128))).flatMap fun n => (List.range 32).map fun i => (t.sidecarVa n + i) % 2 ^ 80

/-- A sector number of virtual space. -/
def vaSectors (vas : List Nat) : List Nat := distinct (vas.map (· / 32))

/-- Sectors of a slice's destination within its window: keys (a copy in). -/
def State.nearSectors (s : State) (core : Nat) (bundle : Option Nat) (t : Tlr) (x : W128) (rows : List Nat) : List Nat :=
  let rb := packedBytes t.fmt (t.extent 0)
  distinct ((imageBytes t rb rows).filterMap fun (o, _) =>
    match s.spaceKey core bundle (tSpace x) (windowByte x o) with
    | some key => some (sectorOf key)
    | none => none)

/-- Number of set bits of a target mask. -/
def targets (mask : Nat) : List Nat := (List.range 8).filter fun c => mask / 2 ^ c % 2 == 1

/-- The destination sectors that a slice adds to its barrier. -/
def State.sliceSectors (s : State) (form core : Nat) (bundle : Option Nat) (mask : Nat) (t : Tlr) (x : W128) (rows : List Nat) :
    Nat :=
  match form with
  | 1 => (vaSectors (rowVas t rows ++ sidecarVas t rows)).length
  | 2 => (s.nearSectors core bundle t x rows).length * (targets mask).length
  | _ => (s.nearSectors core bundle t x rows).length

/-- The scoreboard sector of a cluster store key, beyond virtual space. -/
def boardOf (key : Nat) : Nat := (2 ^ 80 + (key - cstoreKey 0 0) % 2 ^ 23) / 32

/-- The scoreboard sector of a virtual address for a bundle of a cluster: that of the cluster store where the address lies in the aperture. -/
def State.boardVa (s : State) (bundle : Option Nat) (cluster va : Nat) : Nat :=
  if va / 2 ^ 64 = 0xFFFF then
    match s.cstoreAt bundle cluster (va % 2 ^ 64) 1 with
    | some key => boardOf key
    | none => va / 32
  else va / 32

/-- The scoreboard sectors of some virtual addresses. -/
def State.boardVas (s : State) (bundle : Option Nat) (cluster : Nat) (vas : List Nat) : List Nat :=
  distinct ((vaSectors vas).map fun n => s.boardVa bundle cluster (32 * n))

/-- The sectors that a slice records on the scoreboard (spec/09 R168). -/
def State.sliceRange (s : State) (form core : Nat) (bundle : Option Nat) (t : Tlr) (x : W128) (rows : List Nat) : List Nat :=
  if form = 1 then s.boardVas bundle (core / 8) (rowVas t rows ++ sidecarVas t rows)
  else if tSpace x = 4 then (s.nearSectors core bundle t x rows).map boardOf
  else []

/-- The sectors that a copy reads. -/
def State.sourceRange (s : State) (form core : Nat) (bundle : Option Nat) (t : Tlr) (x : W128) (rows : List Nat) : List Nat :=
  if form ≠ 1 then s.boardVas bundle (core / 8) (rowVas t rows ++ sidecarVas t rows)
  else if tSpace x = 4 then
    let rb := packedBytes (tFmt x) (t.extent 0)
    distinct ((imageBytes t rb rows).filterMap fun (o, _) =>
      match s.spaceKey core bundle 4 (windowByte x o) with
      | some key => some (boardOf key)
      | none => none)
  else []

/-- Where virtual addresses lie, page by page, for the fences that count an engine's writes (spec/09 R162): in the cluster store aperture, or
as the page's entry says; a page with no valid entry counts as device memory (log 27). -/
def State.vaDests (s : State) (ctx gen : Nat) (vas : List Nat) : List Dest :=
  ((distinct (vas.map (· / 4096))).map fun p =>
    if p / 2 ^ 52 = 0xFFFF then .near
    else
      match s.leafAt ctx gen (4096 * p) with
      | some l => destOf l.loc
      | none => .device).dedup

/-! ### XCPY (spec/10 R191, R192) -/

/-- Dirty sectors of a cluster in a range of virtual sectors written back, their clean copies dropped (spec/09 R168). -/
def State.flushRange (s : State) (cluster ctx : Nat) (range : List Nat) : State :=
  let s1 := (s.writeBackAll false (s.dirty.filter fun d =>
    d.core / 8 == cluster && d.ctx == ctx && !d.pinned && range.contains (d.va.toNat / 32))).1
  { s1 with clean := s1.clean.filter fun c => !(c.core / 8 == cluster && c.ctx == ctx && range.contains (c.va.toNat / 32)) }

/-- Entries of a cluster's scoreboard in use. -/
def State.boardUsed (s : State) (cluster : Nat) : Nat :=
  ((s.copies.filter (·.cluster == cluster)).map (·.slices.length)).foldl (· + ·) 0

/-- The copy that a slice of the team in issue joins: one that still waits for slices, with the same form, record, barrier and
count, of the team or of its gang (spec/10 R192). -/
def State.joinCopy (s : State) (form tlr bar n : Nat) : Option Copy :=
  s.copies.find? fun c =>
    c.form == form && c.tlr == tlr && c.bar == bar && c.n == n && decide (c.slices.length < n) && c.cluster == s.me.cluster &&
    c.ctx == s.me.id.ctx && c.gen == s.me.id.gen && c.bundle == s.me.id.bundle &&
    (c.issuer == s.me.id.tid || (c.gang.isSome && c.gang == s.me.id.gang))

/-- A slice issued: its operation, its sectors, its range; the team goes on. -/
def State.issueSlice (s : State) (form bar n i mask rec_ tlr : Nat) (x : W128) (snap : List Byte) : State :=
  let t := parseTlr snap
  let me := s.me
  let (lo, hi) := sliceRows t i n
  let rows := rowsFrom lo hi
  let sectors := s.sliceSectors form me.core me.id.bundle mask t x rows
  let range := s.sliceRange form me.core me.id.bundle t x rows
  let dests := if form = 1 then s.vaDests me.id.ctx me.id.gen (rowVas t rows ++ sidecarVas t rows) else [.near]
  let (op, s1) := (s.flushRange me.cluster me.id.ctx range).issueOp .cp false [] [] dests none
  let sl : CopySlice := ⟨i, me.id.tid, op, me.core, x, snap, me.h (Fin.ofNat 4 t.thr), sectors, range, [], [], false, false⟩
  let s2 := s1.barAddSectors me.id.ctx me.id.gen bar sectors
  match s.joinCopy form tlr bar n with
  | some c => { s2 with copies := s2.copies.map fun y => if y.id = c.id then { y with slices := y.slices ++ [sl] } else y }
  | none =>
    let (id, s3) := s2.newId
    { s3 with copies := s3.copies ++ [⟨id, form, me.id.tid, me.id.gang, me.id.ctx, me.id.gen, me.cluster, me.id.bundle, tlr, bar,
        n, mask, rec_, [sl], false, false, [], 0, 0, 0, none, ⟨[], []⟩⟩] }

/-- Whether a team's snapshot may still miss a store to the cluster store (spec/09 R164): its own without a release fence after it; another
team's whose release no acquire of its core has followed. -/
def Edit.unseen (t : Team) (e : Edit) : Bool := if e.tid = t.id.tid then !e.fenced else !e.seen.contains t.core

/-- A sector of a record as a snapshot of the team in issue takes it: as it is, or as it was before stores that the snapshot may miss, by a
free value (spec/09 R164; log 16). -/
def State.snapSector (s : State) (key : Nat) : List Byte × State :=
  let now := s.homeBytes key 32
  let olds := ((s.edits.filter (·.key == key)).takeWhile (Edit.unseen s.me)).map (·.old)
  if olds.all (· == now) then (now, s)
  else
    let (x, s1) := s.draw
    ((now :: olds).getD (x % (olds.length + 1)) now, s1)

/-- Sectors of a record in turn. -/
def State.snapSectors (s : State) : List Nat → List Byte × State
  | [] => ([], s)
  | key :: rest =>
    let (bs, s1) := s.snapSector key
    let (cs, s2) := s1.snapSectors rest
    (bs ++ cs, s2)

/-- A snapshot of the layout record at an offset of the cluster store and its key, with the report of a poisoned one (spec/09 R164, spec/22
R325). -/
def State.snapshot (s : State) (off key : Nat) : List Byte × State :=
  let secs := (List.range 4).map fun i => key + 32 * i
  let (bs, s1) := s.snapSectors secs
  match secs.find? s.poisoned with
  | some k => (bs, s1.poisonReport s.me.id.ctx s.me.id.gen ((apertureVa off).toNat + (k - key)) k)
  | none => (bs, s1)

/-- XCPY: form 0 in, 1 out, 2 mcin. -/
def State.xcpy (s : State) (form : Nat) (r : TReg) (a : SReg) : State :=
  let x0 := s.me.sNat a.val
  let x1 := s.me.sNat (a.val + 1)
  let x2 := s.me.sNat (a.val + 2)
  let tlr := x0 % 2 ^ 32
  let bar := x0 / 2 ^ 32
  let i := x1 % 2 ^ 16
  let n := x1 / 2 ^ 16 % 2 ^ 16
  let withRec (k : Nat → State) : State := if form = 2 then s.local (x2 / 2 ^ 32) 8 8 k else k 0
  s.local tlr 128 128 fun tkey => s.local bar 16 16 fun bkey => withRec fun rkey =>
      let (snap, s) := s.snapshot tlr tkey
      if tlrBad snap then s.trapHere (illegal .operand)
      else
        match s.joinCopy form tlr bkey n with
        | some c =>
          if c.slices.any (·.idx == i) then
            (s.barUpdate s.me.id.ctx s.me.id.gen bkey (barMark barError)).advance
          else s.issueSlice form bkey n i (x2 % 2 ^ 8) rkey tlr (s.me.t r) snap
        | none => s.issueSlice form bkey n i (x2 % 2 ^ 8) rkey tlr (s.me.t r) snap

/-- `xcpy.in` (spec/10 R191 to R193). -/
def execXcpyIn (t : TReg) (a : SReg) (s : State) : Host.Outcome State Fault Refusal :=
  run (.xcpyIn t a) s fun s => s.xcpy 0 t a

/-- `xcpy.out` (spec/10 R191 to R193). -/
def execXcpyOut (t : TReg) (a : SReg) (s : State) : Host.Outcome State Fault Refusal :=
  run (.xcpyOut t a) s fun s => s.xcpy 1 t a

/-- `xcpy.mcin` (spec/10 R191, R194). -/
def execXcpyMcin (t : TReg) (a : SReg) (s : State) : Host.Outcome State Fault Refusal :=
  run (.xcpyMcin t a) s fun s => s.xcpy 2 t a

/-! ### The data of a slice -/

/-- One image byte: its offset, its value, its mark, its tile. -/
abbrev ImageByte := Nat × Byte × Nat × Nat

/-- The image bytes of a row; the padding of the canonical layout is 0. -/
def rowImage (t : Tlr) (rb r : Nat) (bs : Raw) : List ImageByte :=
  (List.range (imageRow t.reblock rb)).map fun b =>
    let (x, f) := if b < rb then bs.getD b (0, 0) else (0, 0)
    (imageAt t.reblock t.rows rb r b, x, f, r / 128)

/-- The image of plain rows as they have been read. -/
def plainImage (t : Tlr) (m : Memo) (rows : List Nat) : List ImageByte :=
  rows.flatMap fun r => rowImage t (packedBytes t.fmt (t.extent 0)) r (m.row t r 0 (t.extent 0))

/-- The image of packed tiles as they have been read. -/
def haarImage (t : Tlr) (m : Memo) (ns : List Nat) : List ImageByte :=
  ns.flatMap fun n => (m.tile t n 0 (t.extent 0)).2.zipIdx.flatMap fun (bs, j) =>
    rowImage t (packedBytes t.fmt (t.extent 0)) (128 * n + j) bs

/-- The tiles of some rows. -/
def tilesOf (rows : List Nat) : List Nat := distinct (rows.map (· / 128))

/-- The source sectors of some rows read for an engine as far as their pages allow (spec/09 R163, R346). -/
def State.fetchImage (s : State) (c : Client) (e : EngWait) (m : Memo) (t : Tlr) (rows : List Nat) : Memo × State × EngWait :=
  if t.depth = 0 then s.fetchSecs c e m (t.rowSecs 0 (t.extent 0) rows) else s.fetchTiles c e m t 0 (t.extent 0) (tilesOf rows)

/-- The image of some rows as far as it has been read. -/
def imageOf (t : Tlr) (m : Memo) (rows : List Nat) : List ImageByte :=
  if t.depth = 0 then plainImage t m rows else haarImage t m (tilesOf rows)

/-- Bytes put with those of their sector: sector, worst mark, first tile, bytes. -/
def putByte {α : Type} (sec : Nat) (b : α) (mark tile : Nat) : List (Nat × Nat × Nat × List α) → List (Nat × Nat × Nat × List α)
  | [] => [(sec, mark, tile, [b])]
  | (c, m, t, bs) :: rest =>
    if c = sec then (c, max m mark, min t tile, bs ++ [b]) :: rest else (c, m, t, bs) :: putByte sec b mark tile rest

/-- The destination sectors of an image at a core, with their worst mark, first tile and bytes. -/
def State.nearGroups (s : State) (core : Nat) (bundle : Option Nat) (x : W128) (img : List ImageByte) :
    List (Nat × Nat × Nat × List (Nat × Byte)) :=
  img.foldl (fun gs (o, b, f, tile) =>
    match s.spaceKey core bundle (tSpace x) (windowByte x o) with
    | some key => putByte (sectorOf key) (key, b) f tile gs
    | none => gs) []

/-- The destination sectors whose source has been read, and that are not among those made. -/
def freshGroups (made : List Nat) (gs : List (Nat × Nat × Nat × List (Nat × Byte))) : List (Nat × Nat × Nat × List (Nat × Byte)) :=
  gs.filter fun (sec, f, _, _) => decide (f < 3) && !made.contains sec

/-- The job of a destination sector of a copy in, at a core. -/
def nearJob (slice core : Nat) (piped : Bool) (g : Nat × Nat × Nat × List (Nat × Byte)) : Job :=
  let (sec, f, tile, bs) := g
  ⟨slice, (match f with | 0 => .near bs | 1 => .poison false [sec] | _ => .unwritten true), tile, core, piped && f == 0⟩

/-- The bytes of a window's row as a copy out reads them. -/
def State.windowRow (s : State) (core : Nat) (bundle : Option Nat) (x : W128) (t : Tlr) (rb r : Nat) : Raw :=
  (List.range rb).map fun b =>
    match s.spaceKey core bundle (tSpace x) (windowByte x (imageAt t.reblock t.rows rb r b)) with
    | some key => if s.poisoned key then (0xFF, 1) else (s.homeByte key, 0)
    | none => (0, 0)

/-- Elements k and up of row r as bytes and bit masks at virtual addresses (spec/04 R75). -/
def elemWrites (t : Tlr) (r k : Nat) (xs : List Nat) : List (Nat × Byte × Byte) :=
  if elemBits t.fmt = 4 then
    (xs.zipIdx.map fun (x, i) =>
      let bit := t.bitPos r (k + i)
      let sh := (bit % 8).toNat
      (t.va (bit / 8), BitVec.ofNat 8 (x * 2 ^ sh), BitVec.ofNat 8 (15 * 2 ^ sh))).foldr (fun w acc =>
        match acc with
        | (a, y, m) :: rest => if a = w.1 then (a, w.2.1 ||| y, w.2.2 ||| m) :: rest else w :: acc
        | [] => [w]) []
  else
    let va := t.va (t.bitPos r k / 8)
    (packElems t.fmt xs).zipIdx.map fun (b, i) => ((va + i) % 2 ^ 80, b, 0xFF)

/-- A byte of a copy out: address, value, bit mask, mark, tile. -/
abbrev FarByte := Nat × Byte × Byte × Nat × Nat

/-- Columns k to k + len - 1 of a plain row written in the record's format (spec/10 R193). -/
def plainOut (t : Tlr) (wfmt r k len : Nat) (bs : Raw) : List FarByte :=
  let xs := (unpackElems wfmt len bs).map fun x => if wfmt = t.fmt then x else elemSat t.fmt (elemValue wfmt x)
  (elemWrites t r k xs).map fun (a, b, m) => (a, b, m, rawMark bs, r / 128)

/-- Columns k to k + len - 1 of a tile written as surviving coefficient rows with its sidecar entry (spec/10 R190, R193); `tag`
is the source's tag. Coefficients that are neither transformed nor converted keep their bits (spec/04 R71). -/
def haarOut (t : Tlr) (wfmt tag : Nat) (thr : W32) (n k len : Nat) (rows : List Raw) : List FarByte :=
  let mark := (rows.map rawMark).foldl max 0
  let elems := rows.map (unpackElems wfmt len)
  let vals := elems.map (·.map (widen wfmt))
  let coef := if tag = t.depth then vals else byColumns len (haarForward t.depth) vals
  let surv := survivorMask thr coef
  let keep := (survivors surv).map fun j =>
    if tag = t.depth ∧ wfmt = t.fmt then elems.getD j [] else (coef.getD j []).map (narrow t.fmt)
  (keep.zipIdx.flatMap fun (xs, i) => (elemWrites t (128 * n + i) k xs).map fun (a, b, m) => (a, b, m, mark, n)) ++
    ((sidecarBytes t surv).zipIdx.map fun (b, i) => ((t.sidecarVa n + i) % 2 ^ 80, b, 0xFF#8, mark, n))

/-- The bytes that a slice of a copy out writes. -/
def State.outBytes (s : State) (c : Copy) (sl : CopySlice) (t : Tlr) (tag : Nat) (rows : List Nat) : List FarByte :=
  let wfmt := tFmt sl.window
  let rb := packedBytes wfmt (t.extent 0)
  if t.depth = 0 then rows.flatMap fun r => plainOut t wfmt r 0 (t.extent 0) (s.windowRow sl.core c.bundle sl.window t rb r)
  else (distinct (rows.map (· / 128))).flatMap fun n =>
    haarOut t wfmt tag sl.thr n 0 (t.extent 0) ((List.range 128).map fun j => s.windowRow sl.core c.bundle sl.window t rb (128 * n + j))

/-- The jobs of a copy out: one for each destination sector, those with no byte to write left unwritten. -/
def farJobs (slice : Nat) (sectors : List Nat) (bs : List FarByte) : List Job :=
  let groups := bs.foldl (fun gs (a, b, m, f, tile) => putByte (a / 32) (a, b, m) f tile gs)
    ([] : List (Nat × Nat × Nat × List (Nat × Byte × Byte)))
  sectors.map fun sec =>
    match groups.find? (·.1 == sec) with
    | some (_, f, tile, ws) => ⟨slice, (if f = 0 then .far ws else .poison true (ws.map (·.1))), tile, 0, false⟩
    | none => ⟨slice, .unwritten false, 0, 0, false⟩

/-! ### The start of a copy (spec/09 R163, R164, R168, R170; spec/10 R192) -/

/-- The sectors that a slice of a copy reads. -/
def State.sliceSource (s : State) (c : Copy) (sl : CopySlice) : List Nat :=
  let t := parseTlr sl.snap
  let (lo, hi) := sliceRows t sl.idx c.n
  s.sourceRange c.form sl.core c.bundle t sl.window (rowsFrom lo hi)

/-- The issue of the first slice of copy d that holds a range which a later slice of copy c reads or writes. -/
def State.heldBy (s : State) (d c : Copy) : Option Nat :=
  (d.slices.flatMap fun x => (c.slices.filter fun y =>
    decide (x.op < y.op) && x.range.any (y.range ++ s.sliceSource c y).contains).map fun _ => x.op).foldl
      (fun b n => some (match b with | some m => min m n | none => n)) none

/-- Whether another copy of the cluster and context must retire before a copy starts: it recorded a range first (spec/09 R168). Of two
copies that each hold a range of the other, the one that recorded its range first goes first (log 16). -/
def State.copyBlocked (s : State) (c : Copy) : Bool :=
  s.copies.any fun d => d.id != c.id && d.cluster == c.cluster && d.ctx == c.ctx &&
    (match s.heldBy d c, s.heldBy c d with
      | some _, none => true
      | some n, some m => decide (n < m)
      | none, _ => false)

/-- Whether a copy writes nothing: its slices' snapshots or windows differ, its window is too small, or its source carries
another tag than the record's depth (spec/09 R164; spec/10 R189, R192, R193). -/
def copyWrong (c : Copy) (tag : Nat) : Bool :=
  match c.slices.getLast? with
  | none => true
  | some l =>
    let t := parseTlr l.snap
    let rb := packedBytes (copyFmt c.form t l.window) (t.extent 0)
    c.slices.any (fun sl => sl.snap != l.snap || sl.window != l.window) ||
    decide (windowLen l.window < imageLen t.reblock t.rows rb) ||
    (c.form == 1 && t.depth != 0 && tag != 0 && tag != t.depth)

/-- The tag of a window of a core (spec/10 R184). -/
def State.tagOf (s : State) (core : Nat) (x : W128) : Nat :=
  if tSpace x = 3 then
    match (s.core core).walk with
    | some w => (match w.cslots[tSlot x]? with | some c => c.dtag | none => 0)
    | none => 0
  else tDtag x

/-- Why a target refuses a tile, 0 if it accepts (spec/09 R170, spec/10 R194; log 16): the gangs of the bundle that placement gave the core. -/
def State.refusal (s : State) (c : Copy) (core : Nat) : Nat :=
  let gangs :=
    match c.bundle.bind s.bundle? with
    | some x => x.subs.filter fun y => y.rec_.kind == 0 && y.cores.contains core
    | none => []
  if s.walkHeld core then 1
  else if gangs = [] then 3
  else if gangs.any fun y => y.started && !y.done then 0
  else 2

/-- The client of a copy. -/
def Copy.client (c : Copy) : Client := ⟨c.ctx, c.gen, c.bundle, c.cluster⟩

/-- A copy changed. -/
def State.updCopy (s : State) (id : Nat) (f : Copy → Copy) : State :=
  { s with copies := s.copies.map fun c => if c.id = id then f c else c }

/-- Jobs of a slice made, of its destination sectors in a list; the slice is read once `all` of its sectors have jobs. -/
def Copy.withJobs (c : Copy) (idx : Nat) (js : List Job) (secs : List Nat) (m : Memo) (all : Bool) : Copy :=
  { c with
    jobs := c.jobs ++ js
    slices := c.slices.map fun sl =>
      if sl.idx = idx then { sl with src := if all then [] else m, made := if all then [] else sl.made ++ secs, read := all } else sl }

/-- The cores in whose typed stores, or on whose behalf, a slice of a copy in is written. -/
def Copy.inCores (c : Copy) (sl : CopySlice) : List Nat := if c.form = 2 then (targets c.mask).map (8 * c.cluster + ·) else [sl.core]

/-- The next tile of a core's fill path sent to the pipe, where none of it is there: the fill path has one request outstanding (spec/07
R133). -/
def State.fillNext (s : State) (core : Nat) : State :=
  s.updCore core fun x =>
    match x.fillq with
    | (copy, n) :: rest =>
      if x.pipe.any (·.tid.isNone) then x
      else { x with fillq := rest }.request ⟨none, [], copy, n, s.coreCyc core, 4⟩
    | [] => x

/-- The tiles that a core's A-store takes reconstructed sent to its transform pipe, one after another (spec/10 R193). -/
def State.pipeTiles (s : State) (core copy : Nat) (tiles : List Nat) : State :=
  State.fillNext (s.updCore core fun x => { x with fillq := x.fillq ++ tiles.map fun n => (copy, n) }) core

/-- A slice of a copy in read as far as its pages allow: a job for every destination sector whose source has been read (spec/09 R346). -/
def State.readIn (s : State) (c : Copy) (sl : CopySlice) (t : Tlr) (rows : List Nat) : State :=
  let (m, s1, e1) := s.fetchImage c.client c.eng sl.src t rows
  let img := imageOf t m rows
  let gss := (c.inCores sl).map fun k => (k, s1.nearGroups k c.bundle sl.window img)
  let piped := c.form == 0 && t.depth != 0 && t.recon && tSpace sl.window == 1
  let js := gss.flatMap fun (k, gs) => (freshGroups sl.made gs).map (nearJob sl.idx k piped)
  let secs := gss.flatMap fun (_, gs) => (freshGroups sl.made gs).map (·.1)
  let s2 := s1.updCopy c.id fun x => { x.withJobs sl.idx js secs m (gss.all fun g => g.2.all fun x => decide (x.2.1 < 3)) with eng := e1 }
  if piped then s2.pipeTiles sl.core c.id (distinct ((js.filter (·.piped)).map (·.tile))) else s2

/-- One slice read. -/
def State.readSlice (s : State) (id idx : Nat) : State :=
  match s.copies.find? (·.id == id) with
  | none => s
  | some c =>
    match c.slices.find? (·.idx == idx) with
    | none => s
    | some sl =>
      let t := parseTlr sl.snap
      let (lo, hi) := sliceRows t idx c.n
      let rows := rowsFrom lo hi
      if c.dead then s.updCopy id (·.withJobs idx (List.replicate sl.sectors ⟨idx, .unwritten false, 0, 0, false⟩) [] [] true)
      else if c.form = 1 then
        let bs := s.outBytes c sl t (s.tagOf sl.core sl.window) rows
        s.updCopy id (·.withJobs idx (farJobs idx (vaSectors (rowVas t rows ++ sidecarVas t rows)) bs) [] [] true)
      else s.readIn c sl t rows

/-- The clean lines of the ranges of a copy invalidated in its cluster (spec/09 R168). -/
def State.dropRange (s : State) (c : Copy) : State :=
  { s with clean := s.clean.filter fun x =>
      !(x.core / 8 == c.cluster && x.ctx == c.ctx && c.slices.any fun sl => sl.range.contains (x.va.toNat / 32)) }

/-- A slice whose last sector is counted off has completed; with every slice complete the copy retires: its range is
released, and a failure is reported by its lowest tile. -/
def State.sliceCheck (s : State) (id idx : Nat) : State :=
  match s.copies.find? (·.id == id) with
  | none => s
  | some c =>
    match c.slices.find? (·.idx == idx) with
    | none => s
    | some sl =>
      if ¬ sl.read ∨ sl.retired ∨ c.jobs.any (·.slice == idx) then s
      else
        let s1 := (s.finishOp sl.tid sl.op).updCopy id fun x => { x with
          slices := x.slices.map fun y => if y.idx = idx then { y with retired := true } else y }
        match s1.copies.find? (·.id == id) with
        | none => s1
        | some c1 =>
          if c1.slices.length = c1.n ∧ c1.slices.all (·.retired) then
            let s2 := (s1.dropRange c1)
            let s3 := { s2 with copies := s2.copies.filter (·.id != id) }
            match c1.fail with
            | some tile => s3.report 5 1 c1.cluster c1.ctx c1.gen tile (parseTlr (sl.snap)).base
            | none => s3
          else s1

/-- The cores that a copy reads or writes: its slices' and the targets of a multicast. -/
def Copy.cores (c : Copy) : List Nat :=
  c.slices.map (·.core) ++ (if c.form = 2 then ((List.range 8).filter fun i => flag c.mask i).map (8 * c.cluster + ·) else [])

/-- COPY_START (spec/09 R163, R168; spec/10 R192): all slices have arrived and no earlier range blocks the copy; on a core in
HALTED_QUIET no engine writes (spec/23 R340). -/
def execCopyStart (id : Nat) (s : State) : Host.Outcome State Fault Refusal :=
  .next (match s.copies.find? (·.id == id) with
    | none => s
    | some c =>
      if c.slices.length < c.n ∨ (¬ c.started ∧ s.copyBlocked c) ∨ c.cores.any s.halted then s
      else
        let s1 :=
          if c.started then s
          else
            let src := if c.form = 1 then [] else c.slices.flatMap (s.sliceSource c)
            let tids := c.slices.map (·.tid)
            let s0 := (s.writeBackAll false (s.dirty.filter fun d =>
              tids.contains d.tid && d.ctx == c.ctx && !d.pinned && src.contains (d.va.toNat / 32))).1
            let wrong := copyWrong c (match c.slices.getLast? with | some l => s.tagOf l.core l.window | none => 0)
            let s1 := s0.updCopy id fun x => { x with started := true, dead := wrong }
            if wrong then s1.barUpdate c.ctx c.gen c.bar (barMark barError) else s1
        let s2 := ((c.slices.filter (!·.read)).map (·.idx)).foldl (fun s i => s.readSlice id i) s1
        (c.slices.map (·.idx)).foldl (fun s i => s.sliceCheck id i) s2)

/-! ### Destination sectors (spec/09 R160, R167, R170, R171, R346) -/

/-- Sectors marked as poison (spec/22 R325). -/
def State.addPoison (s : State) (keys : List Nat) : State :=
  { s with poison := (keys.map sectorOf).foldl (fun p k => if p.contains k then p else k :: p) s.poison }

/-- The key of a destination byte of a copy out. -/
def State.destKey (s : State) (c : Copy) (va : Nat) : Reach × State × EngWait := s.engineReach c.client c.eng .store va 1

/-- A target of a multicast accepts or refuses the tile, as its first sector reaches it (spec/09 R170): the copy with the decision noted. -/
def State.settle (s : State) (c : Copy) (core : Nat) : Copy :=
  let k := core % 8
  if c.form ≠ 2 ∨ flag c.delivered k ∨ flag c.refusedM k then c
  else
    match s.refusal c core with
    | 0 => { c with delivered := c.delivered + 2 ^ k }
    | n => { c with refusedM := c.refusedM + 2 ^ k, reasons := c.reasons + n * 2 ^ (4 * k) }

/-- The completion record of a multicast (spec/09 R170). -/
def Copy.record (c : Copy) : Nat := c.refusedM + c.reasons * 2 ^ 8 + c.delivered * 2 ^ 40

/-- A job counted off: its record first where it is the last of a multicast, its barrier, its slice. A multicast that writes nothing
writes its record too, of zeros (DESIGN CHOICE: spec/09 R170 does not say; log 16). -/
def State.countOff (s : State) (c : Copy) (job : Nat) (slice st : Nat) (fail : Option Nat) : State :=
  let s1 :=
    if c.form = 2 ∧ c.jobs.length = 1 ∧ c.slices.all (·.read) ∧ c.slices.length = c.n then
      s.homeStore c.ctx c.gen (keyVa c.rec_) (keyed c.rec_ (leBytes 8 c.record))
    else s
  let s2 := s1.barUpdate c.ctx c.gen c.bar (barOff (s.barStuck c.bar) st)
  let s3 := s2.updCopy c.id fun x => { x with
    jobs := x.jobs.eraseIdx job
    fail :=
      match fail, x.fail with
      | some a, some b => some (min a b)
      | some a, none => some a
      | none, b => b }
  s3.sliceCheck c.id slice

/-- The masked bytes of a job, each over the byte that its place holds. -/
def State.laid (s : State) (key va : Nat) (bs : List (Nat × Byte × Byte)) : List (Nat × Byte) :=
  bs.map fun (a, b, m) =>
    let k := key + (a - va)
    (k, if m = 0xFF then b else (s.homeByte k &&& ~~~m) ||| (b &&& m))

/-- One sector of a copy out performed at its home; held while its page is waited for; unwritten where it fails. -/
def State.performFar (s : State) (c : Copy) (job : Nat) (j : Job) (va : Nat) (go : State → Nat → State) (st : Nat)
    (fail : Option Nat) : State :=
  match s.destKey c va with
  | (.key key, s1, _) => (go s1 key).countOff c job j.slice st fail
  | (.wait, s1, e1) => s1.updCopy c.id fun x => { x with eng := e1 }
  | (.fail, s1, _) => s1.countOff c job j.slice barError (some j.tile)

/-- A sector at its core: where a multicast's target refuses the tile it is counted off unwritten (spec/09 R170). -/
def State.reachTarget (s : State) (c : Copy) (job : Nat) (j : Job) (go : State → Copy → State) : State :=
  let c1 := s.settle c j.core
  let s1 := s.updCopy c.id fun _ => c1
  if c.form = 2 ∧ flag c1.refusedM (j.core % 8) then s1.countOff c1 job j.slice barRefused none else go s1 c1

/-- COPY_SECTOR_PERFORMED: one destination sector performed, poisoned, refused or left unwritten, and counted off. -/
def execCopySectorPerformed (id job : Nat) (s : State) : Host.Outcome State Fault Refusal :=
  .next (match s.copies.find? (·.id == id) with
    | none => s
    | some c =>
      match c.jobs[job]? with
      | none => s
      | some j =>
        if j.piped then s
        else
          match j.kind with
          | .near bs => s.reachTarget c job j fun s c =>
            (s.homeStore c.ctx c.gen (keyVa (bs.headD (0, 0)).1) bs).countOff c job j.slice 0 none
          | .poison false ks => s.reachTarget c job j fun s c => (s.addPoison ks).countOff c job j.slice barPoison (some j.tile)
          | .far bs =>
            let va := (bs.headD (0, 0, 0)).1
            s.performFar c job j va (fun s key => s.homeStore c.ctx c.gen va (s.laid key va bs)) 0 none
          | .poison true vas => s.performFar c job j (vas.headD 0) (fun s key => s.addPoison [key]) barPoison (some j.tile)
          | .unwritten failed =>
            if failed then s.countOff c job j.slice barError (some j.tile) else s.countOff c job j.slice 0 none)

/-! ### The transform pipe (spec/07 R133, spec/10 R193) -/

/-- TRANSFORM_PIPE_REPLY: the oldest request of a core's pipe is served: a team's registers are written and the team goes on;
or a reconstructed tile may be written into the A-store. -/
def execTransformPipeReply (core : Nat) (s : State) : Host.Outcome State Fault Refusal :=
  .next (match (s.core core).pipe with
    | [] => s
    | q :: rest =>
      let s1 := s.updCore core fun x => { x with pipe := rest }
      match q.tid with
      | some tid =>
        (s1.updTeam tid fun t =>
          let u := q.regs.foldl (fun t (r, xs, tag) => (t.setV r xs).setTag r tag) t
          if t.flow.rebuild ≠ [] then u.updFlow fun f => { f with rebuild := f.rebuild.tail }
          else if t.flow.hold = .xfrm then u.updFlow fun f => { f with hold := .none }
          else t).sendRebuild tid
      | none =>
        (s1.updCopy q.copy fun c => { c with
          jobs := c.jobs.map fun j => if j.tile = q.job then { j with piped := false } else j }).fillNext core)

end Sys2Proof.Machine
end

