-- ==== Sys2Proof/Machine/Rings.lean ====
section
/-!
DEFINITION. Sys2Proof/Machine/Rings.lean: rings, their slots, fills, drains and waits (spec/09 R169, R346; spec/10 R195, R196).
-/
namespace Sys2Proof.Machine
open Sys2Proof

/-! ### Streams and slots -/

/-- The client of a ring. -/
def Ring.client (r : Ring) : Client := ⟨r.ctx, r.gen, some r.bundle, r.cluster⟩

/-- Bytes of a row of a ring's stream. -/
def Ring.rowBytes (r : Ring) : Nat := let t := parseTlr r.snap; packedBytes t.fmt (t.extent 0)

/-- Bytes of a ring's stream. -/
def Ring.total (r : Ring) : Nat := let t := parseTlr r.snap; imageLen t.reblock t.rows r.rowBytes

/-- Chunks of a ring's stream. -/
def Ring.chunks (r : Ring) : Nat := (r.total + r.slotLen - 1) / r.slotLen

/-- The permit that a fill of the ring reserves; 0 for a plain source (spec/09 R169). -/
def Ring.permit (r : Ring) : Nat := let t := parseTlr r.snap; if t.depth ≠ 0 ∧ ¬ r.drain then t.rows * r.rowBytes else 0

/-- A ring of a cluster by number. -/
def State.ringAt? (s : State) (cluster id : Nat) : Option Ring := s.rings.find? fun r => r.cluster == cluster && r.id == id

/-- A ring changed. -/
def State.updRing (s : State) (cluster id : Nat) (f : Ring → Ring) : State :=
  { s with rings := s.rings.map fun r => if r.cluster = cluster ∧ r.id = id then f r else r }

/-- A slot of a ring changed. -/
def Ring.updSlot (r : Ring) (k : Nat) (f : RSlot → RSlot) : Ring :=
  { r with slots := r.slots.zipIdx.map fun (x, i) => if i = k then f x else x }

/-- Whether a slot has no chunk left: the chunk that it would take next is beyond the stream. -/
def Ring.slotDone (r : Ring) (k : Nat) : Bool :=
  match r.slots[k]? with
  | some x =>
    if r.drain then decide (r.chunks ≤ x.chunk)
    else x.state == .empty && decide (r.chunks ≤ r.next + (k + r.slots.length - r.next % r.slots.length) % r.slots.length)
  | none => true

/-- What `ring.swait` writes for a slot, if its condition holds (spec/10 R196). A drain slot that is empty reports the chunk that it held last,
with that chunk's poison; before any, the chunk that it takes first (log 17). -/
def Ring.waitValue (r : Ring) (k : Nat) : Option W64 :=
  match r.slots[k]? with
  | none => none
  | some x =>
    let value (valid chunk : Nat) (poison : Bool) : Option W64 :=
      some (BitVec.ofNat 64 (valid + chunk % 2 ^ 16 * 2 ^ 32 + poison.toNat * 2 ^ 48 + r.error.toNat * 2 ^ 49 +
        (r.slotDone k && x.state == .empty).toNat * 2 ^ 50))
    if r.drain then
      (if x.state = .empty then (match x.last with | some (n, p) => value 0 n p | none => value 0 x.chunk false) else none)
    else if x.state = .full then value x.valid x.chunk x.poison
    else if r.slotDone k then value 0 (Config.endChunk x.chunk).toNat false
    else none

/-! ### Waits -/

/-- A wait's value fixed; it acquires at cluster scope. -/
def State.fixWait (s : State) (w : RingWait) (x : W64) : State :=
  let s1 :=
    match s.team? w.tid with
    | some t => if t.placed then s.acquire t.core .clu else s
    | none => s
  { s1 with ringWaits := s1.ringWaits.filter (·.op != w.op) }.updTeam w.tid (·.fixOp w.op [.s w.dest x])

/-- Waits of a ring tested. -/
def State.ringCheck (s : State) (cluster id : Nat) : State :=
  match s.ringAt? cluster id with
  | none => s
  | some r =>
    (s.ringWaits.filter fun w => w.cluster == cluster && w.ring == id).foldl (fun s w =>
      match r.waitValue w.slot with
      | some x => s.fixWait w x
      | none => s) s

/-! ### RING (spec/10 R195, R196) -/

/-- Staging bytes that the rings of an engine hold. -/
def State.staging (s : State) (cluster engine : Nat) : Nat :=
  ((s.rings.filter fun r => r.cluster == cluster && r.id / 4 == engine).map (·.pool)).foldl (· + ·) 0

/-- Whether a stream engine of a cluster serves the rings of a bundle: one that the bundle's streams reserve there; where they reserve none,
one that no bundle has reserved (spec/14 R242, R243; log 17). -/
def State.engineServes (s : State) (bundle : Option Nat) (cluster e : Nat) : Bool :=
  let mine := match bundle.bind s.bundle? with
    | some b => ((b.subs.filter (·.rec_.kind == 2)).flatMap (·.engines)).filter (·.1 == cluster)
    | none => []
  if mine = [] then !s.bundles.any fun b => b.subs.any (·.engines.contains (cluster, e)) else mine.contains (cluster, e)

/-- The lowest free ring of a cluster whose engine serves a bundle and can hold a pool (log 17). -/
def State.freeRing (s : State) (bundle : Option Nat) (cluster pool : Nat) : Option Nat :=
  (List.range 16).find? fun q =>
    (s.ringAt? cluster q).isNone && s.engineServes bundle cluster (q / 4) && decide (s.staging cluster (q / 4) + pool ≤ 2 ^ 21)

/-- A ring as it is bound. -/
def newRing (me : Team) (q op : Nat) (snap : List Byte) (base count slotLen pool : Nat) (drain : Bool) : Ring where
  cluster := me.cluster
  id := q
  tid := me.id.tid
  op := op
  core := me.core
  ctx := me.id.ctx
  gen := me.id.gen
  bundle := me.id.bundle.getD 0
  snap := snap
  thr := me.h (Fin.ofNat 4 (parseTlr snap).thr)
  base := base
  slotLen := slotLen
  drain := drain
  pool := pool
  used := 0
  next := 0
  slots := (List.range count).map fun k => ⟨.empty, k, 0, false, [], [], [], none⟩
  acc := []
  whole := 0
  error := false
  unbind := false
  fail := none
  eng := ⟨[], []⟩

/-- `ring.rbind`. -/
def execRingRbind (d a : SReg) (s : State) : Host.Outcome State Fault Refusal :=
  run (.ringRbind d a) s fun s =>
    let x0 := s.me.sNat a.val
    let x1 := s.me.sNat (a.val + 1)
    let count := x1 % 2 ^ 16
    let drain := flag x1 16
    let slotLen := x1 / 2 ^ 32
    let pool := s.me.sNat (a.val + 2) % 2 ^ 32
    s.local (x0 % 2 ^ 32) 128 128 fun tkey => s.local (x0 / 2 ^ 32) (count * slotLen) 1 fun _ =>
        let (snap, s) := s.snapshot (x0 % 2 ^ 32) tkey
        let r := newRing s.me 0 0 snap (x0 / 2 ^ 32) count slotLen pool drain
        if tlrBad snap ∨ (r.permit ≠ 0 ∧ (slotLen < r.permit ∨ pool < r.permit)) then s.trapHere (illegal .operand)
        else
          match s.freeRing s.me.id.bundle s.me.cluster pool with
          | none => (s.issueOp .sg true [.s d (BitVec.allOnes 64)] [d] [.near] none).2
          | some q =>
            let (op, s1) := s.newId
            let s2 := { s1 with rings := s1.rings ++ [{ r with id := q, op := op }] }
            let t := parseTlr snap
            let rows := List.range t.rows
            let dests := if drain then s.vaDests s.me.id.ctx s.me.id.gen (rowVas t rows ++ sidecarVas t rows) else [.near]
            let s3 := s2.setMe fun t => t.addOp (.new op .cp false [] [] [] dests)
            (s3.issueOp .sg true [.s d (BitVec.ofNat 64 q)] [d] [.near] none).2

/-- `ring.runbind`: no new chunk starts. -/
def execRingRunbind (a : SReg) (s : State) : Host.Outcome State Fault Refusal :=
  run (.ringRunbind a) s fun s =>
      ((s.updRing s.me.cluster (s.me.s a).toNat fun r => { r with unbind := true }).issueOp .sg true [] [] [.near] none).2

/-- A slot operation where it is performed: the change, where the ring's direction and the slot's state allow it; else the ring's error
bit (spec/10 R196). -/
def slotEffect (a : SReg) (k : Nat) (ok : Ring → RSlot → Bool) (f : Ring → Ring) : Effect := fun t _ _ s =>
  let c := t.cluster
  let id := (t.s a).toNat
  Done.start (match s.ringAt? c id with
    | none => s
    | some r =>
      match r.slots[k]? with
      | none => s
      | some x => if ok r x then (s.updRing c id f).ringCheck c id else s.updRing c id fun r => { r with error := true })

/-- A slot operation of the team: a release at cluster scope, then the change. -/
def State.slotOp (s : State) (i : Instr) (eff : Effect) : State :=
  s.relThen i.relScope fun s => (s.issueAcc i .sg none i.relScope [] [] [] [] eff).advance

/-- `ring.spub` at its slot: a drain ring's empty slot becomes full. -/
def spubEffect (a : SReg) (k : Nat) : Effect :=
  slotEffect a k (fun r x => r.drain && x.state == .empty) fun r => r.updSlot k fun x => { x with state := .full }

/-- `ring.spub`. -/
def execRingSpub (a : SReg) (k : Fin 64) (s : State) : Host.Outcome State Fault Refusal :=
  run (.ringSpub a k) s fun s => s.slotOp (.ringSpub a k) (spubEffect a k.val)

/-- `ring.srel` at its slot: a fill ring's full slot becomes empty and gives its permit back. -/
def srelEffect (a : SReg) (k : Nat) : Effect :=
  slotEffect a k (fun r x => !r.drain && x.state == .full) fun r =>
    { r.updSlot k fun x => { x with state := .empty } with used := r.used - r.permit }

/-- `ring.srel`. -/
def execRingSrel (a : SReg) (k : Fin 64) (s : State) : Host.Outcome State Fault Refusal :=
  run (.ringSrel a k) s fun s => s.slotOp (.ringSrel a k) (srelEffect a k.val)

/-- `ring.swait` at its ring: the wait registered. -/
def swaitEffect (d a : SReg) (k : Nat) : Effect := fun t _ op s =>
  { Done.start { s with ringWaits := s.ringWaits ++ [⟨t.cluster, (t.s a).toNat, k, t.id.tid, op, d⟩] } with waits := true }

/-- `ring.swait`: waits for full or empty, then acquires at cluster scope. -/
def execRingSwait (d a : SReg) (k : Fin 64) (s : State) : Host.Outcome State Fault Refusal :=
  run (.ringSwait d a k) s fun s =>
    ((s.issueAcc (.ringSwait d a k) .sg (some .clu) none [] [] [] [d] (swaitEffect d a k.val)).ringCheck s.me.cluster
      (s.me.s a).toNat).advance

/-! ### Fills and drains (spec/09 R163, R169, R171, R346; spec/10 R195) -/

/-- The rows of a record that have bytes among some image bytes. -/
def rowsOfImage (t : Tlr) (rb lo hi : Nat) : List Nat :=
  if t.reblock = 1 then List.range t.rows
  else rowsFrom (lo / rb) (min t.rows ((hi + rb - 1) / rb))

/-- The first and the last byte but one of chunk j in the stream's image. -/
def Ring.chunkSpan (r : Ring) (j : Nat) : Nat × Nat := (j * r.slotLen, min r.total (j * r.slotLen + r.slotLen))

/-- A ring with losses and poison of chunk j noted: the error bit for a sector left unwritten, the lowest failing chunk (spec/09 R346). -/
def Ring.noted (r : Ring) (j : Nat) (lost bad : Bool) : Ring :=
  { r with error := r.error || lost, fail := if bad then some (min j (r.fail.getD j)) else r.fail }

/-- A sector of a slot filled. -/
def State.fillGroup (s : State) (r : Ring) (g : Nat × Nat × Nat × List (Nat × Byte)) : State :=
  match g.2.1 with
  | 0 => s.homeStore r.ctx r.gen (keyVa g.1) g.2.2.2
  | 1 => s.addPoison [g.1]
  | _ => s

/-- Whether a fill may begin its next chunk in a slot: the slot is empty, and its permit is to be had. -/
def Ring.fillBegins (r : Ring) (x : RSlot) : Bool :=
  x.state == .empty && !r.unbind && (r.permit == 0 || decide (r.used + r.permit ≤ r.pool))

/-- RING_FILL_CHUNK: the next chunk moved into its slot, as far as its pages allow; each destination sector is written once. -/
def execRingFillChunk (cluster id : Nat) (s : State) : Host.Outcome State Fault Refusal :=
  .next (match s.ringAt? cluster id with
    | none => s
    | some r =>
      let k := r.next % r.slots.length
      match r.slots[k]? with
      | none => s
      | some x =>
        if r.drain ∨ r.chunks ≤ r.next ∨ s.halted r.core ∨ ¬ (x.state = .filling ∨ r.fillBegins x) then s
        else
          let t := parseTlr r.snap
          let (lo, hi) := r.chunkSpan r.next
          let rows := rowsOfImage t r.rowBytes lo hi
          let x1 : RSlot := if x.state = .filling then x else { x with state := .filling, chunk := r.next, poison := false, src := [], made := [] }
          let (m, s1, e1) := s.fetchImage r.client r.eng x1.src t rows
          let img := (imageOf t m rows).filter fun y => decide (lo ≤ y.1) && decide (y.1 < hi)
          let groups := img.foldl (fun gs (o, b, f, tile) =>
            match s1.cstoreAt (some r.bundle) cluster (r.base + k * r.slotLen + (o - lo)) 1 with
            | some key => putByte (sectorOf key) (key, b) f tile gs
            | none => gs) ([] : List (Nat × Nat × Nat × List (Nat × Byte)))
          let fresh := freshGroups x1.made groups
          let s2 := fresh.foldl (fun s g => s.fillGroup r g) s1
          let whole := groups.all fun g => decide (g.2.1 < 3)
          let x2 : RSlot := { x1 with
            poison := x1.poison || fresh.any (·.2.1 == 1)
            src := if whole then [] else m
            made := if whole then [] else x1.made ++ fresh.map (·.1)
            state := if whole then .full else .filling
            valid := hi - lo }
          let s3 := s2.updRing cluster id fun y =>
            { ((y.updSlot k fun _ => x2).noted r.next (fresh.any (·.2.1 == 2)) (fresh.any (·.2.1 != 0))) with
              eng := e1
              used := if x.state = .filling then r.used else r.used + r.permit
              next := if whole then r.next + 1 else r.next }
          s3.ringCheck cluster id)

/-- The bytes of a slot as they are drained. -/
def State.slotRaw (s : State) (r : Ring) (k n : Nat) : Raw :=
  (List.range n).map fun i =>
    match s.cstoreAt (some r.bundle) r.cluster (r.base + k * r.slotLen + i) 1 with
    | some key => if s.poisoned key then (0xFF, 1) else (s.homeByte key, 0)
    | none => (0, 0)

/-- A byte of the image of a plain drain at its place in virtual space, as one or two elements (spec/04 R75, spec/10 R188). -/
def drainByte (t : Tlr) (rb r b : Nat) (x : Byte) (f : Nat) : List FarByte :=
  if rb ≤ b then []
  else if elemBits t.fmt = 4 then
    let xs := if 2 * b + 1 < t.extent 0 then [x.toNat % 16, x.toNat / 16] else [x.toNat % 16]
    (elemWrites t r (2 * b) xs).map fun (a, y, m) => (a, y, m, f, r / 128)
  else [(t.va (t.bitPos r 0 / 8 + b), x, 0xFF, f, r / 128)]

/-- What the drain of some bytes from offset `lo` of a plain record's image writes. -/
def plainDrained (t : Tlr) (rb lo : Nat) (raw : Raw) : List FarByte :=
  let hi := lo + raw.length
  (rowsOfImage t rb lo hi).flatMap fun row => (List.range rb).flatMap fun b =>
    let o := imageAt t.reblock t.rows rb row b
    if lo ≤ o ∧ o < hi then (match raw[o - lo]? with | some (x, f) => drainByte t rb row b x f | none => []) else []

/-- The length of a stream's image up to which all bytes of tile n lie. -/
def tileEnd (t : Tlr) (rb n : Nat) : Nat := imageAt t.reblock t.rows rb (128 * n + 127) (rb - 1) + 1

/-- The tiles of a Haar drain that the stream has completed, from tile `n` on, given what it has drained (spec/10 R193, R195; log 17). -/
def tilesDone (t : Tlr) (rb len : Nat) : Nat → Nat → List Nat
  | 0, _ => []
  | f + 1, n => if n < t.rows / 128 ∧ tileEnd t rb n ≤ len then n :: tilesDone t rb len f (n + 1) else []

/-- What a drained chunk writes, and the ring with its stream so far: the chunk itself, or the Haar tiles that it completes. -/
def Ring.drained (r : Ring) (lo : Nat) (raw : Raw) : List FarByte × Ring :=
  let t := parseTlr r.snap
  let rb := r.rowBytes
  if t.depth = 0 then (plainDrained t rb lo raw, r)
  else
    let acc := r.acc ++ raw
    let ns := tilesDone t rb acc.length (t.rows / 128) r.whole
    (ns.flatMap fun n => haarOut t t.fmt 0 r.thr n 0 (t.extent 0) ((List.range 128).map fun j =>
        (List.range rb).map fun b => acc.getD (imageAt t.reblock t.rows rb (128 * n + j) b) (0, 0)),
      { r with acc := acc, whole := r.whole + ns.length })

/-- The drain of a full slot begun: its bytes are read, and every destination sector that they make becomes a job. -/
def State.beginDrain (s : State) (r : Ring) (k : Nat) (x : RSlot) : Ring :=
  let (lo, hi) := r.chunkSpan r.next
  let raw := s.slotRaw r k (hi - lo)
  let (bs, r1) := r.drained lo raw
  let js := (bs.foldl (fun gs (a, b, m, f, tile) => putByte (a / 32) (a, b, m) f tile gs)
    ([] : List (Nat × Nat × Nat × List (Nat × Byte × Byte)))).map fun (_, f, tile, ws) =>
      (⟨0, (if f = 0 then .far ws else .poison true (ws.map (·.1))), tile, 0, false⟩ : Job)
  (r1.updSlot k fun _ => { x with state := .draining, chunk := r.next, poison := rawMark raw == 1, jobs := js }).noted r.next false
    (js.any fun j => match j.kind with | .poison _ _ => true | _ => false)

/-- The sectors of a drained chunk written in turn: those still waiting for a page, and whether any was lost. -/
def State.drainJobs (s : State) (r : Ring) (e : EngWait) : List Job → List Job × Bool × State × EngWait
  | [] => ([], false, s, e)
  | j :: rest =>
    let va := match j.kind with
      | .far bs => (bs.headD (0, 0, 0)).1
      | .poison _ vas => vas.headD 0
      | _ => 0
    match s.engineReach r.client e .store va 1 with
    | (.key key, s1, e1) =>
      let s2 := match j.kind with
        | .far bs => s1.homeStore r.ctx r.gen va (s1.laid key va bs)
        | .poison _ _ => s1.addPoison [key]
        | _ => s1
      s2.drainJobs r e1 rest
    | (.wait, s1, e1) =>
      let (js, lost, s2, e2) := s1.drainJobs r e1 rest
      (j :: js, lost, s2, e2)
    | (.fail, s1, e1) =>
      let (js, _, s2, e2) := s1.drainJobs r e1 rest
      (js, true, s2, e2)

/-- RING_DRAIN_CHUNK: the next full slot written out, each destination sector once, as far as its pages allow; it is then empty. -/
def execRingDrainChunk (cluster id : Nat) (s : State) : Host.Outcome State Fault Refusal :=
  .next (match s.ringAt? cluster id with
    | none => s
    | some r =>
      let k := r.next % r.slots.length
      match r.slots[k]? with
      | none => s
      | some x =>
        if ¬ r.drain ∨ s.halted r.core ∨ ¬ (x.state = .draining ∨ (x.state = .full ∧ ¬ r.unbind)) then s
        else
          let r1 := if x.state = .draining then r else s.beginDrain r k x
          match r1.slots[k]? with
          | none => s
          | some y =>
            let (js, lost, s1, e1) := s.drainJobs r1 r1.eng y.jobs
            let r2 : Ring := { r1.noted r1.next lost lost with eng := e1 }
            let r3 : Ring :=
              if js = [] then
                { r2.updSlot k fun z => { z with state := .empty, chunk := r1.next + r1.slots.length, last := some (r1.next, y.poison), jobs := [] } with
                  next := r1.next + 1 }
              else r2.updSlot k fun z => { z with jobs := js }
            (s1.updRing cluster id fun _ => r3).ringCheck cluster id)

/-- RING_UNBIND_COMPLETE: nothing is under way; waits end, the binding's CP operation completes, and a failure is reported. -/
def execRingUnbindComplete (cluster id : Nat) (s : State) : Host.Outcome State Fault Refusal :=
  .next (match s.ringAt? cluster id with
    | none => s
    | some r =>
      if ¬ r.unbind ∨ r.slots.any (fun x => x.state == .filling || x.state == .draining) then s
      else
        let ws := s.ringWaits.filter fun w => w.cluster == cluster && w.ring == id
        let s1 := ws.foldl (fun s w => s.fixWait w (BitVec.ofNat 64 ((Config.endChunk w.slot).toNat * 2 ^ 32 + r.error.toNat * 2 ^ 49 + 2 ^ 50))) s
        let s2 := { s1 with rings := s1.rings.filter fun x => !(x.cluster == cluster && x.id == id) }
        let s3 := s2.finishOp r.tid r.op
        let s4 :=
          match r.fail with
          | some chunk => s3.report 5 1 cluster r.ctx r.gen chunk (parseTlr r.snap).base
          | none => s3
        s4.bundleCheck r.bundle)

end Sys2Proof.Machine
end

