-- ==== Sys2Proof/Machine/Signals.lean ====
section
/-!
DEFINITION. Sys2Proof/Machine/Signals.lean: SIG, registered waits and their end (spec/10 R179, R198; spec/09 R172).
-/
namespace Sys2Proof.Machine
open Sys2Proof

/-- A wait registered at a key, its first satisfying value looked for at once (spec/10 R198); a poisoned location reads as
all-ones (spec/22 R325). -/
def State.register (s : State) (kind tid op : Nat) (d : SReg) (key : Nat) (arg : W64) (sc : Option Scope) : State :=
  let (id, s1) := s.newId
  let w : Wait := ⟨id, kind, tid, op, d, key, arg, sc, none⟩
  let w1 := if s.poisoned key then { w with hit := w.sees (writePairs [] (keyed key (leBytes 8 (2 ^ 64 - 1)))) } else w.look s.mem
  { s1 with waits := s1.waits ++ [w1] }

/-- `sig.sigadd` at its signal. -/
def sigaddEffect (d b : SReg) : Effect := fun t xs _ s =>
  xs.foldl (fun a x =>
    let (old, s1) := a.s.atomicAt t.core t.id.tid t.id.ctx t.id.gen x.va x.key x.loc 8 fun old => (old + (t.s b).toNat) % 2 ^ 64
    { a with s := s1, writes := a.writes ++ [.s d (BitVec.ofNat 64 old)] }) (.start s)

/-- `sig.sigadd`. -/
def execSigSigadd (d : SReg) (a : AReg) (b : SReg) (r : Ordering3) (s : State) : Host.Outcome State Fault Refusal :=
  run (.sigSigadd d a b r) s fun s => s.uniformAcc (.sigSigadd d a b r) .sg .atomic (s.me.a a) 8 [d] (sigaddEffect d b)

/-- `sig.sigrd` at its signal: an atomic read, then its acquire. -/
def sigrdEffect (i : Instr) (d : SReg) : Effect := fun t xs _ s =>
  xs.foldl (fun a x =>
    let (old, s1) := a.s.atomicAt t.core t.id.tid t.id.ctx t.id.gen x.va x.key x.loc 8 fun old => old
    { a with s := s1.acqBy t (i.acqScope.map (·.widen x.loc)), writes := a.writes ++ [.s d (BitVec.ofNat 64 old)] }) (.start s)

/-- `sig.sigrd`. -/
def execSigSigrd (d : SReg) (a : AReg) (r : Ordering3) (s : State) : Host.Outcome State Fault Refusal :=
  run (.sigSigrd d a r) s fun s => s.uniformAcc (.sigSigrd d a r) .sg .atomic (s.me.a a) 8 [d] (sigrdEffect (.sigSigrd d a r) d)

/-- A wait of a kind at its location: the core's own dirty bytes of the word are written back, then the wait is registered at its home. -/
def waitEffect (i : Instr) (kind : Nat) (d b : SReg) : Effect := fun t xs op s =>
  { Done.start s with
    s := xs.foldl (fun s x =>
      let (_, s1) := s.atomicAt t.core t.id.tid t.id.ctx t.id.gen x.va x.key x.loc 8 fun old => old
      s1.register kind t.id.tid op d x.key (t.s b) (i.acqScope.map (·.widen x.loc))) s
    waits := true }

/-- `sig.sigwait`. -/
def execSigSigwait (d : SReg) (a : AReg) (b : SReg) (r : Ordering3) (s : State) : Host.Outcome State Fault Refusal :=
  run (.sigSigwait d a b r) s fun s =>
    s.uniformAcc (.sigSigwait d a b r) .sg .atomic (s.me.a a) 8 [d] (waitEffect (.sigSigwait d a b r) 0 d b)

/-- `sig.watch`. -/
def execSigWatch (d : SReg) (a : AReg) (b : SReg) (r : Ordering3) (s : State) : Host.Outcome State Fault Refusal :=
  run (.sigWatch d a b r) s fun s => s.uniformAcc (.sigWatch d a b r) .sg .atomic (s.me.a a) 8 [d] (waitEffect (.sigWatch d a b r) 1 d b)

/-- SIGNAL_WAIT_SATISFIED: a registered wait that has met its condition writes its value, acquires at its scope and completes; the team
has read that value, so its core keeps no older copy of the word (spec/08 R147, spec/10 R198). -/
def execSignalWaitSatisfied (w : Nat) (s : State) : Host.Outcome State Fault Refusal :=
  .next (match s.waits.find? (·.id == w) with
    | none => s
    | some x =>
      match x.hit with
      | none => s
      | some v =>
        let s1 : State := { s with waits := s.waits.filter (·.id != w) }
        let s2 :=
          match s.team? x.tid with
          | some t => if t.placed then (s1.dropClean t.core x.key).acqBy t x.scope else s1
          | none => s1
        (s2.updTeam x.tid fun t => (t.fixOp x.op [.s x.dest v]).waitOver s.cyc).finishOp x.tid x.op)

end Sys2Proof.Machine
end

