-- ==== Sys2Proof/Machine/Groups.lean ====
section
/-!
DEFINITION. Sys2Proof/Machine/Groups.lean: frame records, the copy-on-write break, sample groups: SGRP, the group clock and
its deadline, normalisation (spec/05 R98; spec/14 R249 to R252; spec/15 R262 to R265; spec/18 R278 to R281).
-/
namespace Sys2Proof.Machine
open Sys2Proof

/-! ### Frame records (spec/18 R278) -/

/-- A frame record pushed on a context's free frame list. -/
def State.pushFrame (s : State) (ctx frec : Nat) : State :=
  match s.ctx? ctx with
  | none => s
  | some c => (s.homePut (frec + 16) 8 c.ffl).updCtx ctx fun x => { x with ffl := frec, fflen := (x.fflen + 1) % 2 ^ 32 }

/-- The head of a context's free frame list popped, if there is one. -/
def State.popFrame (s : State) (ctx : Nat) : Option Nat × State :=
  match s.ctx? ctx with
  | none => (none, s)
  | some c =>
    if c.ffl = 0 then (none, s)
    else (some c.ffl, s.updCtx ctx fun x => { x with ffl := s.readNat (c.ffl + 16) 8, fflen := x.fflen - 1 })

/-- A record's count lowered by 1; at 0 the record is pushed. -/
def State.dropFrame (s : State) (ctx frec : Nat) : State :=
  let n := (s.readNat frec 4 + (2 ^ 32 - 1)) % 2 ^ 32
  let s1 := s.homePut frec 4 n
  if n = 0 then s1.pushFrame ctx frec else s1

/-- The physical address of the level-0 entry of a virtual address, if the tables reach level 0. -/
def entryAt (rd : Nat → Nat) (va : Nat) : List (Nat × Nat × Nat) → Nat → Option Nat
  | [], _ => none
  | (level, lo, width) :: rest, node =>
    let pa := node + va / 2 ^ lo % 2 ^ width * 64
    if level = 0 then some pa
    else
      let e := rd pa
      if e % 4 = 1 ∧ e % 2 ^ 64 / 4 = 0 ∧ e / 2 ^ 128 = 0 ∧ e / 2 ^ 64 % 2 ^ 64 < 2 ^ 52 ∧ e / 2 ^ 64 % 2 ^ 15 = 0 then entryAt rd va rest (e / 2 ^ 64 % 2 ^ 64) else none

/-- The level-0 entry of a page in a context. -/
def State.entryPa (s : State) (ctx gen va : Nat) : Option Nat :=
  match s.liveCtx? ctx gen with
  | none => none
  | some c => entryAt s.entry va levels c.root

/-- A valid 4 KiB leaf with SR = 1 at a virtual address, whatever its migration. -/
def State.srLeaf (s : State) (ctx gen va : Nat) : Option Leaf :=
  match s.leafEntry ctx gen va with
  | some l => if l.sr ∧ l.size = 0 then some l else none
  | none => none

/-- The control bits W and COW. -/
def ctlW : Nat := 2 ^ 6
def ctlCow : Nat := 2 ^ 8

/-- A control word made read-only with COW set, if it is writable. -/
def downgrade (ctl : Nat) : Nat := if flag ctl 6 then (if flag ctl 8 then ctl - ctlW else ctl - ctlW + ctlCow) else ctl

/-- A control word made writable with COW clear. -/
def writable (ctl : Nat) : Nat :=
  let c := if flag ctl 8 then ctl - ctlCow else ctl
  if flag c 6 then c else c + ctlW

/-- The copy-on-write break of a page (spec/18 R281): 0 COPIED, 1 KEPT, 2 NOFRAME, 3 NOTCOW (spec/20 R308). -/
def State.cowBreak (s : State) (ctx gen va : Nat) : Nat × State :=
  match s.leafEntry ctx gen va with
  | none => (3, s)
  | some l =>
    if ¬ l.cow ∨ ¬ l.sr then (3, s)
    else
      let page := va / 4096 * 4096
      let ctl := s.readNat l.entry 8
      if s.readNat l.frec 4 = 1 then (1, (s.homePut l.entry 8 (writable ctl)).shootdown ctx page 4096 false)
      else
        match s.popFrame ctx with
        | (none, _) => (2, s)
        | (some g, s1) =>
          let s2 := s1.shootdown ctx page 4096 false
          let src := s2.readNat (l.frec + 8) 8
          let dst := s2.readNat (g + 8) 8
          let s3 := s2.homeStore 0xFFFFFFFF 0 dst (keyed dst (s2.homeBytes src 4096))
          let s4 := (s3.homePut g 4 1).homePut l.frec 4 ((s3.readNat l.frec 4 + (2 ^ 32 - 1)) % 2 ^ 32)
          let s5 := ((s4.homePut (l.entry + 8) 8 dst).homePut (l.entry + 24) 8 g).homePut l.entry 8 (writable ctl)
          (0, s5.shootdown ctx page 4096 false)

/-! ### Records (spec/14 R249, R250; spec/18 R279) -/

/-- Bytes of a context at a virtual address as a record operation reads them, page by page; none where they do not translate. -/
def State.recBytes (s : State) (ctx gen va n : Nat) : Option (List Byte) :=
  (pages (n / 4096 + 2) va n).foldr (fun (a, k) acc =>
    match acc, s.agentKey ctx gen .load (BitVec.ofNat 80 a) with
    | some t, some key => some (s.homeBytes key k ++ t)
    | _, _ => none) (some [])

/-- Bytes of a context stored, page by page; unchanged where a page does not translate for a store. -/
def State.recStore (s : State) (ctx gen va : Nat) (bs : List Byte) : State :=
  (pages (bs.length / 4096 + 2) va bs.length).foldl (fun s (a, k) =>
    match s.agentKey ctx gen .store (BitVec.ofNat 80 a) with
    | some key => s.homeStore ctx gen a (keyed key ((bs.drop (a - va)).take k))
    | none => s) s

/-- Whether a group record is malformed (spec/14 R249, spec/15 R263). -/
def groupBad (g : List Byte) : Bool :=
  let n := fieldAt g 1 1
  let q := fieldAt g 2 1
  fieldAt g 3 1 != 0 || n == 0 || decide (64 < n) || q == 0 || decide (n < q) ||
  decide (64 ≤ fieldAt g 4 4) || fieldAt g 52 4 != 0 || fieldAt g 66 6 != 0 || fieldAt g 82 6 != 0 || fieldAt g 98 6 != 0 ||
  fieldAt g 114 6 != 0 || fieldAt g 376 136 != 0

/-- Whether a continuation record's reserved fields are non-zero (spec/14 R250). -/
def contBad (c : List Byte) : Bool := fieldAt c 18 6 != 0 || fieldAt c 42 6 != 0 || fieldAt c 50 78 != 0

/-- Whether a sample region descriptor is malformed (spec/18 R279). -/
def regionBad (r : List Byte) : Bool :=
  let rsz := fieldAt r 16 8
  fieldAt r 0 10 % 4096 != 0 || fieldAt r 10 6 != 0 || rsz == 0 || rsz % 4096 != 0 || fieldAt r 24 4 == 0 ||
  decide (4096 < fieldAt r 24 4) || fieldAt r 42 6 != 0 || fieldAt r 48 16 != 0

/-- The code returned when several apply: BADREC first, then the lowest; 0 for none (spec/15 R263). -/
def firstCode (badrec : Bool) : List (Bool × Nat) → Nat
  | [] => if badrec then 5 else 0
  | (p, c) :: rest => if badrec then 5 else if p then c else firstCode false rest

/-! ### Normalisation (spec/05 R98) -/

/-- The exact quotient of a finite value by a positive count, rounded to FP32. -/
def divRne (x : Val) (m : Nat) : Nat :=
  match x with
  | .fin neg n e => roundQ fmtF32 .rne 0 neg n m e
  | v => fmtF32.rne v

/-- x / sqrt(y) rounded once to FP32, for finite x and positive finite y: the square root of x^2 / y, with a sticky bit below
96 or more of its bits. -/
def quotSqrt (x y : Val) : Nat :=
  match x, y with
  | .fin neg n e, .fin _ d f =>
    if n = 0 then 0
    else
      let k : Int := 2 * e - f
      let odd := (k % 2).toNat
      let t := 128 + Nat.log2 d
      let num := n * n * 2 ^ odd * 2 ^ (2 * t)
      let q := num / d
      let r := isqrt q
      let sticky := if r * r = q ∧ num % d = 0 then 0 else 1
      roundQ fmtF32 .rne 0 neg (2 * r + sticky) 1 ((k - odd) / 2 - t - 1)
  | _, _ => 0

/-- An advantage: +0 in place of an exact zero. -/
def advantage (r mu : Val) (v : Nat) (den2 : Val) : Nat :=
  let d := r.sub mu
  if d.isZero then 0
  else if v = 0x7F800000 then (if d.isNeg then 0x80000000 else 0)
  else quotSqrt d den2

/-- The advantages and status bits of rewards, or none for an invalid ε (spec/05 R98): bit 0 ZEROVAR, bit 1 NOVALID. -/
def normalise (rewards : List Nat) (valid : List Bool) (eps : Nat) : Option (List Nat × Nat) :=
  let ev := fmtF32.value eps
  if !ev.isFin || (ev.isNeg && !ev.isZero) then none
  else
    let rs := rewards.map fmtF32.value
    let vs := ((rs.zip valid).filter (·.2)).map (·.1)
    let m := vs.length
    if m = 0 then some (rewards.map fun _ => 0, 2)
    else
      let zero : Val := .fin false 0 0
      let mu := fmtF32.value (divRne (vs.foldl Val.add zero) m)
      let v := divRne ((vs.map fun r => (r.sub mu).mul (r.sub mu)).foldl Val.add zero) m
      let den2 := (fmtF32.value v).add (if ev.isZero then zero else ev)
      if den2.isZero then some (rewards.map fun _ => 0, 1)
      else some ((rs.zip valid).map fun (r, ok) => if ok then advantage r mu v den2 else 0, 0)

/-! ### The conditions of a group (spec/14 R252) -/

/-- Number of set bits of a 64-bit mask. -/
def pop64 (x : Nat) : Nat := popN x 64

/-- Whether every byte of an advantage array lies on a valid, writable device page (spec/05 R98). -/
def State.advOk (s : State) (ctx gen va n : Nat) : Bool :=
  (pages (n / 4096 + 2) va n).all fun (a, _) =>
    match s.leafAt ctx gen a with
    | some l => l.w && !l.cow && l.mig == 0 && l.loc == 0 && s.isDevice (l.pa a)
    | none => false

/-- A group's final status and state written, in that order. -/
def State.closeGroup (s : State) (key status state : Nat) : State := (s.homePut (key + 4) 4 status).homePut key 1 state

/-- A DUE group normalised once. -/
def State.normaliseGroup (s : State) (ctx gen key status : Nat) : State :=
  let g := s.homeBytes key 512
  let n := fieldAt g 1 1
  let arr := fieldAt g 8 8
  let can := fieldAt g 16 8
  let inv := fieldAt g 24 8
  let rewards := (List.range n).map fun i => fieldAt g (120 + 4 * i) 4
  let valid := (List.range n).map fun i => flag arr i && !flag can i && !flag inv i && (fmtF32.value (fieldAt g (120 + 4 * i) 4)).isFin
  let adv := fieldAt g 56 10
  match normalise rewards valid (fieldAt g 48 4) with
  | none => s.closeGroup key (status ||| 16) 3
  | some (as, st) =>
    if s.advOk ctx gen adv (4 * n) then
      (s.recStore ctx gen adv (as.flatMap (leBytes 4))).closeGroup key (status ||| st) 2
    else s.closeGroup key (status ||| 32) 3

/-- The conditions of a group tested after an event performed at its home. -/
def State.groupTest (s : State) (ctx gen key : Nat) : State :=
  let g := s.homeBytes key 512
  let n := fieldAt g 1 1
  let full := 2 ^ n - 1
  let arr := fieldAt g 8 8
  let can := fieldAt g 16 8
  let dl := fieldAt g 32 8
  let status := fieldAt g 4 4
  if fieldAt g 0 1 ≠ 0 then s
  else if (arr ||| can) &&& full = full then (s.homePut key 1 1).normaliseGroup ctx gen key status
  else if dl ≠ 0 ∧ dl ≤ fieldAt g 40 8 then
    if fieldAt g 2 1 ≤ pop64 (arr &&& (full - (can &&& full))) then
      (s.homePut key 1 1).normaliseGroup ctx gen key (status ||| 4)
    else s.closeGroup key (status ||| 8) 3
  else s

/-- GROUP_DEADLINE: the conditions of a group whose clock runs. -/
def execGroupDeadline (id : Nat) (s : State) : Host.Outcome State Fault Refusal :=
  .next (match s.groups.find? (·.id == id) with
    | none => s
    | some g => s.groupTest g.ctx g.gen g.key)

/-! ### Release of a range (spec/18 R279) -/

/-- One page of a range released: its frame record's count lowered, its entry cleared. -/
def State.releasePage (s : State) (ctx gen va : Nat) : State :=
  match s.leafEntry ctx gen va with
  | none => (match s.entryPa ctx gen va with | some e => s.homePut e 64 0 | none => s)
  | some l =>
    if l.size ≠ 0 then s
    else
      let s1 := if l.sr then s.dropFrame ctx l.frec else s
      s1.homePut l.entry 64 0

/-- The pages that hold the bytes of a range. -/
def rangePages (kvbase kvlen : Nat) : List Nat :=
  let lo := kvbase / 4096
  if kvlen = 0 then [] else (List.range ((kvbase % 4096 + kvlen + 4095) / 4096)).map fun i => (lo + i) * 4096

/-- A member's range released: pages ascending, then the bitmap bit, nfree, and the shootdown. A range outside the region has
no bit (log 18). -/
def State.releaseRange (s : State) (ctx gen : Nat) (g c : List Byte) : State :=
  let kvbase := fieldAt c 8 10
  let kvlen := fieldAt c 24 8
  let ps := rangePages kvbase kvlen
  let s1 := ps.foldl (fun s p => s.releasePage ctx gen p) s
  let rva := fieldAt g 72 10
  let whole := s1.shootdown ctx (kvbase / 4096 * 4096) (4096 * ps.length) true
  match s1.recBytes ctx gen rva 64 with
  | none => whole
  | some r =>
    let base := fieldAt r 0 10
    let rsz := fieldAt r 16 8
    let idx := (kvbase - base) / rsz
    if regionBad r ∨ kvbase < base ∨ fieldAt r 24 4 ≤ idx then whole
    else
      let bva := fieldAt r 32 10 + idx / 8
      match s1.recBytes ctx gen bva 1 with
      | none => whole
      | some b =>
        let x := leNat b
        let s2 := s1.recStore ctx gen bva (leBytes 1 (if flag x (idx % 8) then x - 2 ^ (idx % 8) else x))
        let s3 := s2.recStore ctx gen (rva + 28) (leBytes 4 (fieldAt r 28 4 + 1))
        s3.shootdown ctx (base + idx * rsz) rsz true

/-! ### SGRP (spec/15 R262 to R264) -/

/-- A record's page for a group operation: an atomic access whose page must be of location class device. -/
def State.groupReach (s : State) (va : W80) (n : Nat) (k : State → Nat → State) : State :=
  match s.teamReach s.me .atomic va n with
  | (.ok key 0, s1) => k s1 key
  | (.ok _ _, s1) => s1.trapHere ⟨4, 5, va, false, 0⟩
  | (.host cause, s1) => s1.parkUniform .atomic va cause
  | (.fault c d, s1) => s1.trapHere ⟨c, if c = 4 ∧ d ≤ 2 ∧ d ≠ 0 then 5 else d, va, false, 0⟩

/-- The core's dirty bytes of a record written back and its clean copies dropped, as for an atomic (spec/08 R146, R148). -/
def State.settleAt (s : State) (core key n : Nat) : State :=
  let s1 := (s.writeBackAll false (s.dirty.filter fun d =>
    d.core == core && decide (key < d.key + 32) && decide (d.key < key + n) && !d.pinned)).1
  { s1 with clean := s1.clean.filter fun c => !(c.core == core && decide (key < c.key + 32) && decide (c.key < key + n)) }

/-- The records at some virtual addresses settled so, where they translate. -/
def State.settleVas (s : State) (vas : List (Nat × Nat)) : State :=
  (vas.flatMap fun (va, n) => pages (n / 4096 + 2) va n).foldl (fun s (a, k) =>
    match s.agentKey s.me.id.ctx s.me.id.gen .load (BitVec.ofNat 80 a) with
    | some key => s.settleAt s.me.core key k
    | none => s) s

/-- The sample region's descriptor and bitmap as a group operation of the team finds them, after the team's own stores to them. -/
def State.settleRegion (s : State) (g : List Byte) : State :=
  let s1 := s.settleVas [(fieldAt g 72 10, 64)]
  match s1.recBytes s1.me.id.ctx s1.me.id.gen (fieldAt g 72 10) 64 with
  | some r => s1.settleVas [(fieldAt r 32 10, (fieldAt r 24 4 % 4097 + 7) / 8)]
  | none => s1

/-- Several continuations reached in turn, each settled. -/
def State.groupReachAll (s : State) (k : State → State) : List Nat → State
  | [] => k s
  | va :: rest => s.groupReach (BitVec.ofNat 80 va) 1 fun s1 key => (s1.settleAt s1.me.core key 128).groupReachAll k rest

/-- The conditions of a group tested after an operation on it, unless its record is malformed (spec/15 R265; log 18). -/
def State.groupAfter (s : State) (gkey : Nat) : State :=
  if groupBad (s.homeBytes gkey 512) ∨ s.poisoned gkey then s else s.groupTest s.me.id.ctx s.me.id.gen gkey

/-- The end of a group operation: its acquire, its result. -/
def State.groupEnd (s : State) (d : SReg) (r : Ordering3) (x : Nat) : State :=
  ((s.acqBy s.me (scope? r)).issueOp .sg true [.s d (BitVec.ofNat 64 x)] [d] [.device] none).2

/-- The end of an operation on the group whose record lies at a key: the conditions tested, then the end. -/
def State.groupDone (s : State) (gkey : Nat) (d : SReg) (r : Ordering3) (x : Nat) : State := (s.groupAfter gkey).groupEnd d r x

/-- Whether a record meets a poisoned sector. -/
def State.recPoisoned (s : State) (key n : Nat) : Bool := (List.range ((n + 31) / 32)).any fun i => s.poisoned (key + 32 * i)

/-- SGRP: nothing with a zero execute mask; one team-uniform access at a record; the release of its ordering first; a poisoned
record is not written and all-ones is returned (spec/22 R325). -/
def groupAccess (i : Instr) (d : SReg) (a : AReg) (r : Ordering3) (n : Nat) (act : State → Nat → State) (s : State) :
    Host.Outcome State Fault Refusal :=
  run i s fun s =>
    if s.me.em = 0 then s.advance
    else
      let va := s.me.a a
      s.uniform va n fun s => s.relThen (scope? r) fun s => s.groupReach va n fun s key =>
        if s.recPoisoned key n then (s.poisonReport s.me.id.ctx s.me.id.gen va.toNat key).groupEnd d r (2 ^ 64 - 1)
        else act (s.settleAt s.me.core key n) key

/-- A member's operation: its continuation, its group's record, and whether they are malformed. -/
def State.member (s : State) (d : SReg) (r : Ordering3) (va : W80) (ckey : Nat) (k : State → List Byte → Nat → List Byte → Bool → State) : State :=
  let c := s.homeBytes ckey 128
  let gva := fieldAt c 32 10
  s.groupReach (BitVec.ofNat 80 gva) 512 fun s gkey =>
    if s.recPoisoned gkey 512 then (s.poisonReport s.me.id.ctx s.me.id.gen gva gkey).groupEnd d r (2 ^ 64 - 1)
    else
    let s1 := s.settleAt s.me.core gkey 512
    let g := s1.homeBytes gkey 512
    let sib := fieldAt c 48 1
    k s1 c gkey g (contBad c || groupBad g || decide (fieldAt g 1 1 ≤ sib) || fieldAt g 88 10 + 128 * sib != va.toNat)

/-- `sgrp.arr` (spec/14 R251, spec/15 R264). -/
def execSgrpArr (d : SReg) (a : AReg) (b : SReg) (r : Ordering3) (s : State) : Host.Outcome State Fault Refusal :=
  groupAccess (.sgrpArr d a b r) d a r 128 (fun s ckey =>
    s.member d r (s.me.a a) ckey fun s c gkey g bad =>
      let i := fieldAt c 48 1
      let arr := fieldAt g 8 8
      let code := firstCode bad [(fieldAt g 0 1 != 0, 2), (flag (arr ||| fieldAt g 16 8) i, 3)]
      if code ≠ 0 then s.groupDone gkey d r code
      else
        let x := (s.me.s b).toNat % 2 ^ 32
        let s1 := (s.homePut (gkey + 120 + 4 * i) 4 x).homePut (gkey + 8) 8 (arr + 2 ^ i)
        let s2 := if (fmtF32.value x).isFin then s1 else s1.homePut (gkey + 24) 8 (fieldAt g 24 8 ||| 2 ^ i)
        (s2.homePut (ckey + 49) 1 1).groupDone gkey d r 0) s

/-- `sgrp.can` (spec/14 R251, spec/15 R264). -/
def execSgrpCan (d : SReg) (a : AReg) (r : Ordering3) (s : State) : Host.Outcome State Fault Refusal :=
  groupAccess (.sgrpCan d a r) d a r 128 (fun s ckey =>
    s.member d r (s.me.a a) ckey fun s c gkey g bad =>
      let i := fieldAt c 48 1
      let can := fieldAt g 16 8
      let code := firstCode bad [(fieldAt g 0 1 != 0, 2), (flag can i, 3)]
      if code ≠ 0 then s.groupDone gkey d r code
      else
        let s1 := (s.homePut (gkey + 16) 8 (can + 2 ^ i)).homePut (ckey + 49) 1 2
        ((s1.settleRegion g).releaseRange s.me.id.ctx s.me.id.gen g c).groupDone gkey d r 0) s

/-- `sgrp.free` (spec/14 R251, spec/15 R263, R264). -/
def execSgrpFree (d : SReg) (a : AReg) (r : Ordering3) (s : State) : Host.Outcome State Fault Refusal :=
  groupAccess (.sgrpFree d a r) d a r 128 (fun s ckey =>
    s.member d r (s.me.a a) ckey fun s c gkey g bad =>
      let cs := fieldAt c 49 1
      let code := firstCode bad [(cs == 3, 3), (decide (fieldAt g 0 1 ≤ 1) && cs != 2, 6)]
      if code ≠ 0 then s.groupDone gkey d r code
      else
        let s1 := s.homePut (ckey + 49) 1 3
        (if cs = 2 then s1 else (s1.settleRegion g).releaseRange s.me.id.ctx s.me.id.gen g c).groupDone gkey d r 0) s

/-- `sgrp.info` (spec/15 R262). -/
def execSgrpInfo (d : SReg) (a : AReg) (r : Ordering3) (s : State) : Host.Outcome State Fault Refusal :=
  groupAccess (.sgrpInfo d a r) d a r 512 (fun s key =>
    let g := s.homeBytes key 512
    s.groupDone key d r (fieldAt g 0 1 + fieldAt g 1 1 * 2 ^ 8 + pop64 (fieldAt g 8 8) * 2 ^ 16 + pop64 (fieldAt g 16 8) * 2 ^ 24 +
      fieldAt g 4 4 * 2 ^ 32)) s

/-- `sgrp.wait` (spec/14 R252, spec/15 R262): completes at DONE or FAILED, and acquires at system scope. -/
def execSgrpWait (d : SReg) (a : AReg) (r : Ordering3) (s : State) : Host.Outcome State Fault Refusal :=
  groupAccess (.sgrpWait d a r) d a r 512 (fun s key =>
    let (op, s1) := (s.groupAfter key).issueOp .sg false [] [d] [.device] (some .sys)
    s1.register 2 s1.me.id.tid op d key 0 (some .sys)) s

/-- What a fork needs of the region and of continuation 0's pages (spec/18 R279): the free range indexes, the pages' leaves. -/
structure ForkPlan where
  base  : Nat
  rsz   : Nat
  bva   : Nat
  bits  : Nat
  nfree : Nat
  free  : List Nat
  pages : List (Nat × Leaf)

/-- The plan of a fork; none where a record is malformed or a page is not a 4 KiB leaf with SR = 1. -/
def State.forkPlan (s : State) (ctx gen : Nat) (g c0 : List Byte) : Option ForkPlan :=
  match s.recBytes ctx gen (fieldAt g 72 10) 64 with
  | none => none
  | some r =>
    let kvbase := fieldAt c0 8 10
    let kvlen := fieldAt c0 24 8
    let rsz := fieldAt r 16 8
    let nr := fieldAt r 24 4
    if regionBad r ∨ rsz < kvbase % 4096 + kvlen ∨ contBad c0 ∨ fieldAt c0 48 1 ≠ 0 then none
    else
      match s.recBytes ctx gen (fieldAt r 32 10) ((nr + 7) / 8) with
      | none => none
      | some bm =>
        let ps := rangePages kvbase kvlen
        let ls := ps.filterMap fun p => (s.srLeaf ctx gen p).map fun l => (p, l)
        let x := leNat bm
        if ls.length ≠ ps.length then none
        else some ⟨fieldAt r 0 10, rsz, fieldAt r 32 10, x, fieldAt r 28 4, (List.range nr).filter fun i => !flag x i, ls⟩

/-- The entries that the siblings' copied pages fill: none where the tables do not reach level 0 for one (log 18). -/
def State.forkEntries (s : State) (ctx gen : Nat) (p : ForkPlan) (n : Nat) : Option (List (Nat × Leaf)) :=
  let want := (p.free.take (n - 1)).flatMap fun idx => p.pages.zipIdx.map fun ((_, l), j) => (p.base + idx * p.rsz + 4096 * j, l)
  let got := want.filterMap fun (va, l) => (s.entryPa ctx gen va).map fun e => (e, l)
  if got.length = want.length then some got else none

/-- Set bits of a bitmap. -/
def setBits (x : Nat) (is : List Nat) : Nat := is.foldl (fun x i => x ||| 2 ^ i) x

/-- A fork performed whole (spec/15 R264). -/
def State.forkAll (s : State) (ctx gen gkey gva cva : Nat) (g c0 : List Byte) (p : ForkPlan) (es : List (Nat × Leaf)) : State :=
  let n := fieldAt g 1 1
  let kvbase := fieldAt c0 8 10
  let used := p.free.take (n - 1)
  -- the downgrade of continuation 0's pages, and the counts
  let s1 := p.pages.foldl (fun s (_, l) =>
    (s.homePut l.entry 8 (downgrade (s.readNat l.entry 8))).homePut l.frec 4 ((s.readNat l.frec 4 + (n - 1)) % 2 ^ 32)) s
  -- the siblings' entries
  let s2 := es.foldl (fun s (e, l) => s.homeStore 0xFFFFFFFF 0 e (keyed e (s.homeBytes l.entry 64))) s1
  -- the continuations
  let s3 := (used.zipIdx).foldl (fun s (idx, j) =>
    s.recStore ctx gen (cva + 128 * (j + 1))
      (leBytes 8 (fieldAt c0 0 8) ++ leBytes 10 (p.base + idx * p.rsz + kvbase % 4096) ++ leBytes 6 0 ++ leBytes 8 (fieldAt c0 24 8))) s2
  let s4 := (List.range n).foldl (fun s i =>
    s.recStore ctx gen (cva + 128 * i + 32) (leBytes 10 gva ++ leBytes 6 0 ++ leBytes 1 i ++ leBytes 1 0)) s3
  -- the region and the group
  let bits := setBits p.bits used
  let s5 := used.foldl (fun s idx => s.recStore ctx gen (p.bva + idx / 8) (leBytes 1 (bits / 256 ^ (idx / 8)))) s4
  let s6 := s5.recStore ctx gen (fieldAt g 72 10 + 28) (leBytes 4 (p.nfree - (n - 1)))
  let q := s.me.id.queue.bind s.queue?
  let desc := match q with | some x => x.desc.toNat | none => 0
  let s7 := (s6.homePut (gkey + 104) 10 desc).homePut (gkey + 40) 8 0
  -- the shootdown of every range
  let s8 := (s7.shootdown ctx (kvbase / 4096 * 4096) (4096 * p.pages.length) false)
  let s9 := used.foldl (fun s idx => s.shootdown ctx (p.base + idx * p.rsz) (4096 * p.pages.length) false) s8
  match q with
  | some x => let (id, s10) := s9.newId; { s10 with groups := (s10.groups.filter (·.key != gkey)) ++ [⟨id, gkey, ctx, gen, x.id⟩] }
  | none => s9

/-- `sgrp.fork` (spec/15 R263, R264; spec/18 R279): all or nothing. -/
def execSgrpFork (d : SReg) (a : AReg) (r : Ordering3) (s : State) : Host.Outcome State Fault Refusal :=
  groupAccess (.sgrpFork d a r) d a r 512 (fun s gkey =>
    let ctx := s.me.id.ctx
    let gen := s.me.id.gen
    let g := s.homeBytes gkey 512
    let n := fieldAt g 1 1
    let cva := fieldAt g 88 10
    let st := fieldAt g 0 1 != 0 || fieldAt g 8 8 != 0 || fieldAt g 16 8 != 0 || fieldAt g 104 10 != 0
    if groupBad g then s.groupEnd d r 5
    else s.groupReachAll (fun s0 =>
      let s := s0.settleRegion g
      match s.recBytes ctx gen cva 128 with
      | none => s.groupDone gkey d r 5
      | some c0 =>
        match s.forkPlan ctx gen g c0 with
        | none => s.groupDone gkey d r 5
        | some p =>
          match s.forkEntries ctx gen p n with
          | none => s.groupDone gkey d r (firstCode false [(st, 1), (true, 4)])
          | some es =>
            let code := firstCode false [(st, 1), (decide (p.free.length < n - 1), 4)]
            if code ≠ 0 then s.groupDone gkey d r code
            else (s.forkAll ctx gen gkey (s.me.a a).toNat cva g c0 p es).groupDone gkey d r 0)
      ((List.range n).map fun i => cva + 128 * i)) s

end Sys2Proof.Machine
end

