-- ==== Sys2Proof/Machine/Held.lean ====
section
/-!
DEFINITION. Sys2Proof/Machine/Held.lean: accesses that issued and waited to be performed, and the completion points of a team's own
operations (spec/08 R151 to R153; spec/09 R160 to R162, R168; spec/10 R176).
-/
namespace Sys2Proof.Machine
open Sys2Proof

/-- What a word does at its lanes' locations, wherever it is performed. -/
def effectOf : Instr → Effect
  | .vld d _ _ _ _ z => vldEffect d z
  | .vst d _ _ _ _ z => vstEffect d z
  | .vatmAddI d a o g => vatmEffect (.vatmAddI d a o g) d
  | .vatmAddF d a o g => vatmEffect (.vatmAddF d a o g) d
  | .vatmMinI d a o g => vatmEffect (.vatmMinI d a o g) d
  | .vatmMaxI d a o g => vatmEffect (.vatmMaxI d a o g) d
  | .vatmMaxF d a o g => vatmEffect (.vatmMaxF d a o g) d
  | .vatmAnd d a o g => vatmEffect (.vatmAnd d a o g) d
  | .vatmOr d a o g => vatmEffect (.vatmOr d a o g) d
  | .vatmXor d a o g => vatmEffect (.vatmXor d a o g) d
  | .vatmXchg d a o g => vatmEffect (.vatmXchg d a o g) d
  | .vatmCas d a o g => vatmEffect (.vatmCas d a o g) d
  | .sld d a r z i => sldEffect (.sld d a r z i) d z.bytes
  | .sst d a r z i => sstEffect (.sst d a r z i) d z.bytes
  | .satmAdd d a b r w => satmEffect (.satmAdd d a b r w) d b w.bytes
  | .satmSub d a b r w => satmEffect (.satmSub d a b r w) d b w.bytes
  | .satmAnd d a b r w => satmEffect (.satmAnd d a b r w) d b w.bytes
  | .satmOr d a b r w => satmEffect (.satmOr d a b r w) d b w.bytes
  | .satmXor d a b r w => satmEffect (.satmXor d a b r w) d b w.bytes
  | .satmMin d a b r w => satmEffect (.satmMin d a b r w) d b w.bytes
  | .satmMax d a b r w => satmEffect (.satmMax d a b r w) d b w.bytes
  | .satmMinn d a b r w => satmEffect (.satmMinn d a b r w) d b w.bytes
  | .satmMaxn d a b r w => satmEffect (.satmMaxn d a b r w) d b w.bytes
  | .satmXchg d a b r w => satmEffect (.satmXchg d a b r w) d b w.bytes
  | .satmCas d a b r w => satmEffect (.satmCas d a b r w) d b w.bytes
  | .tsl d _ _ _ _ => tslEffect d
  | .tss d _ _ _ _ => tssEffect d
  | .tbarTbinit d _ => tbinitEffect d
  | .tbarTbarr _ _ => tbarrEffect
  | .tbarTbtest d _ => tbtestEffect d
  | .ringSpub a k => spubEffect a k.val
  | .ringSrel a k => srelEffect a k.val
  | .ringSwait d a k => swaitEffect d a k.val
  | .sigSigadd d _ b _ => sigaddEffect d b
  | .sigSigrd d a r => sigrdEffect (.sigSigrd d a r) d
  | .sigSigwait d a b r => waitEffect (.sigSigwait d a b r) 0 d b
  | .sigWatch d a b r => waitEffect (.sigWatch d a b r) 1 d b
  | _ => fun _ _ _ s => .start s

/-- The sectors of some lanes that a team holds dirty, written back under the permission that the access had when it issued: an access
that waited is performed at its point of visibility. -/
def State.sendHome (s : State) (t : Team) (lanes : List LaneAt) : State :=
  (s.dirty.filter fun d => d.core == t.core && d.tid == t.id.tid && !d.pinned && lanes.any fun x => sectorOf x.key == d.key).foldl
    State.writeBackOld s

/-- The ring of a `ring.swait` tested, now that its wait is an operation of the team. -/
def State.afterWait (s : State) (t : Team) : Instr → State
  | .ringSwait _ a _ => s.ringCheck t.cluster (t.s a).toNat
  | _ => s

/-- An access that waited is performed, if its team is placed and nothing holds it back any more. -/
def State.performHeld (s : State) (tid op : Nat) : State :=
  let s := s.settleFences tid
  match s.team? tid with
  | none => s
  | some t =>
    match t.flow.ops.find? (·.id == op) with
    | none => s
    | some o =>
      match o.held with
      | none => s
      | some h =>
        if ¬ t.placed ∨ t.orderHeld h.instr o.acq o.rel op h.lanes ∨ s.stalled t h.lanes then s
        else
          let u := { t with regs := h.regs }
          let d := effectOf h.instr u h.lanes op s
          let s1 := ((d.report u).sendHome u h.lanes).updTeam tid fun t => t.updFlow fun f => { f with
            ops := f.ops.map fun x =>
              if x.id = op then
                { x with ready := !d.waits, writes := x.writes ++ d.writes, acq := (if d.waits then x.acq else none), rel := none, held := none }
              else x }
          (s1.afterWait u h.instr).settleFences tid

/-- An operation of a class is performed, if it waited, and reaches its completion point. -/
def State.performed (s : State) (cls : OpClass) (tid op : Nat) : State :=
  match s.team? tid with
  | none => s
  | some t =>
    match t.flow.ops.find? (·.id == op) with
    | none => s
    | some o =>
      if o.cls ≠ cls ∨ o.done then s
      else
        let s1 := if o.held.isSome then s.performHeld tid op else s
        match (s1.team? tid).bind fun t => t.flow.ops.find? (·.id == op) with
        | some o1 => if o1.ready then s1.finishOp tid op else s1
        | none => s1

/-- LOAD_COMPLETE. -/
def execLoadComplete (tid op : Nat) (s : State) : Host.Outcome State Fault Refusal := .next (s.performed .ld tid op)

/-- STORE_PERFORMED. -/
def execStorePerformed (tid op : Nat) (s : State) : Host.Outcome State Fault Refusal := .next (s.performed .st tid op)

/-- ATOMIC_PERFORMED. -/
def execAtomicPerformed (tid op : Nat) (s : State) : Host.Outcome State Fault Refusal := .next (s.performed .at_ tid op)

/-- SG_OPERATION_PERFORMED. -/
def execSgOperationPerformed (tid op : Nat) (s : State) : Host.Outcome State Fault Refusal := .next (s.performed .sg tid op)

end Sys2Proof.Machine
end

