-- ==== Sys2Proof/Machine/Issue.lean ====
section
/-!
DEFINITION. Sys2Proof/Machine/Issue.lean: the checks of a chain group, what a group needs to issue, which team issues, the passing of
time, fetching a packet, and the word that a turn runs (spec/02 R26 to R34, R48; spec/07 R132; spec/12 R203, R209 to R212; spec/22
R323; log 1).
-/
namespace Sys2Proof.Machine
open Sys2Proof

/-! ### Time (spec/01 R19) -/

/-- Dying contexts become free. -/
def State.freeDying (s : State) : State :=
  { s with ctxs := s.ctxs.map fun c => if c.cstate = 2 then { c with cstate := 0 } else c }

/-- The clocks of groups advance while their queues are resident and not being saved (spec/14 R252, spec/20 R312), as long as their records name
these queues (log 18). A context that is dying becomes free (spec/18 R273; log 26). -/
def State.advanceClocks (s : State) (ns : Nat) : State :=
  if ns = 0 then s
  else (s.groups.foldl (fun s g =>
    if s.queues.any fun q => q.id == g.queue && q.resident && !q.saving && s.homeNat (g.key + 104) 10 == q.desc.toNat then s.homePut (g.key + 40) 8 (s.homeNat (g.key + 40) 8 + ns) else s) s).freeDying

/-- Whether an operand slot is taken and ready for a K-step of a C slot. -/
def opReady (l : List OpSlot) (cs k : Nat) : Bool := l.any fun o => o.taken && o.ready && o.cslot == cs && o.k == k

/-- Whether a C slot's next K-step has both operands ready (spec/13 R223). -/
def WalkCore.stepReady (w : WalkCore) (i : Nat) : Bool :=
  match w.cslots[i]? with
  | some c => c.state == 1 && decide (c.kprog < c.ksteps) && opReady w.aslots i c.kprog && opReady w.bslots i c.kprog
  | none => false

/-- The counters of an engine over some cycles (spec/13 R232). -/
def WalkCore.pass (w : WalkCore) (n : Nat) : WalkCore :=
  let waiting (l : List OpSlot) : Bool := l.any fun o => o.taken && !o.ready
  let starving : Bool := w.array.isNone && w.cslots.any (·.state == 1) && !(List.range 4).any w.stepReady &&
    (waiting w.aslots || waiting w.bslots)
  { w with
    starve := if starving then w.starve + n else w.starve
    upwait := if w.fifoA ≠ [] ∨ w.fifoB ≠ [] ∨ w.fifoC ≠ [] then w.upwait + n else w.upwait }

/-- A number added to the count of a context and generation. -/
def bumpBy (n : Nat) (k : Nat × Nat) : List ((Nat × Nat) × Nat) → List ((Nat × Nat) × Nat)
  | [] => [(k, n)]
  | (k', m) :: t => if k' = k then (k', m + n) :: t else (k', m) :: bumpBy n k t

/-- The walk counters, and the cycles for which walks hold engines (spec/19 R290), over `u` twelfths of a nanosecond, in cycles of each
core's matrix island. -/
def State.walkClocks (s : State) (u : Nat) : State :=
  s.walks.foldl (fun s w => w.cores.foldl (fun s c => s.updCore c fun x =>
    match x.walk with
    | some wc =>
      let n := x.mclk.at_ (s.now + u) - x.mclk.at_ s.now
      if wc.walk = w.id then { x with walk := some (wc.pass n), held := bumpBy n (w.ctx, w.gen) x.held } else x
    | none => x) s) s

/-- The time port over `u` twelfths of a nanosecond, at the rate that the servo gives it (spec/01 R20; log 1). `frac` counts in
units of 1/12 of 10^-9 ns. -/
def TimePort.run (p : TimePort) (u : Nat) : Nat × TimePort :=
  let n := p.frac + u * (1000000000 + p.rate).toNat
  (n / 12000000000, { p with timeb := p.timeb + BitVec.ofNat 64 (n / 12000000000), frac := n % 12000000000 })

/-! ### Chain groups (spec/02 R31 to R34, R48) -/

/-- Word i of a packet. -/
def packetWord (p : BitVec 96) (i : Nat) : W32 := p.extractLsb' (32 * i) 32

/-- The words of the group that starts at word i. -/
def groupFrom (p : BitVec 96) : Nat → Nat → List W32
  | 0, _ => []
  | n + 1, i =>
    let w := packetWord p i
    if w.getLsbD 31 ∧ i < 2 then w :: groupFrom p n (i + 1) else [w]

/-- The form that a word encodes, whether or not its decode checks pass. -/
def formOf (w : W32) : Option Instr :=
  match decode w with
  | .ok sl => some sl.instr
  | .error e => e.form

/-- The pipe of a word. -/
def wordPipe (w : W32) : Option Pipe := pipeOf (w.extractLsb' 24 6).toNat

/-- The registers of a list that hazards count: p7 takes part in none. -/
def hazardRegs (rs : List Reg) : List Reg := rs.filter (· != .p 7)

/-- The registers that a word names and writes, for the group checks. -/
def wordNames (w : W32) : List Reg := match formOf w with | some i => hazardRegs i.names | none => []
def wordWrites (w : W32) : List Reg := match formOf w with | some i => hazardRegs i.writes | none => []

/-- Whether the chain bits of a group are legal; `last` tells that the group's last word is word 2. -/
def chainBad (last : Bool) : List W32 → Bool
  | [] => false
  | [w] => w.getLsbD 31 && (last || wordPipe w == some .B)
  | w :: ws => wordPipe w == some .B || chainBad last ws

/-- Whether two words of a group share a pipe. -/
def pipeBad : List W32 → Bool
  | [] => false
  | w :: ws => (wordPipe w).isSome && ws.any (fun x => wordPipe x == wordPipe w) || pipeBad ws

/-- Whether a word names a register that an earlier word of the group writes. -/
def hazardBad : List W32 → Bool
  | [] => false
  | w :: ws => ws.any (fun x => (wordNames x).any fun r => (wordWrites w).contains r) || hazardBad ws

/-- Whether the last word of a group ends its packet and a later word of the packet is not 0. -/
def pktendBad (p : BitVec 96) (last : Nat) (w : W32) : Bool :=
  (match formOf w with | some i => i.endsPacket | none => false) &&
  (List.range 3).any fun j => decide (last < j) && packetWord p j != 0

/-- The group check that fails, if one does, with the word at which it traps. -/
def groupCheck (p : BitVec 96) (start : Nat) : Option (Detail × Nat) :=
  let ws := groupFrom p (3 - start) start
  let last := start + ws.length - 1
  if chainBad (last == 2) ws then some (.chain, start)
  else if pipeBad ws then some (.pipe, start)
  else if hazardBad ws then some (.hazard, start)
  else if pktendBad p last (packetWord p last) then some (.pktend, last)
  else none

/-! ### What a group needs to issue (spec/02 R31; spec/09 R161, R168; spec/10 R183; spec/12 R203, R209) -/

/-- The words of the group at a team's position. -/
def Team.groupWords (t : Team) : List W32 := groupFrom t.flow.packet (3 - t.ctl.word) t.ctl.word

/-- Those of its words that decode. -/
def Team.groupInstrs (t : Team) : List Instr :=
  t.groupWords.filterMap fun w => match decode w with | .ok sl => some sl.instr | .error _ => none

/-- Non-empty words of a mask. -/
def wordsOf (m : Mask) : Nat := ((List.range 32).filter fun w => maskWord m w != 0).length

/-- Set bits of a mask. -/
def bitsIn (m : Mask) : Nat := (lanesOf m 1024).length

/-- The cycles for which a word holds its pipe (spec/12 R203): one for each non-empty mask word of its effective mask, or for each dense
one while the team is regathered (R208); one for an empty mask, an S or B word, an XFRM word, and an M word with no guard. -/
def Team.passesOf (t : Team) (p : Pipe) (i : Instr) : Nat :=
  let m := t.effOf i
  let k := max 1 (if t.flow.regath.isSome then (bitsIn m + 31) / 32 else wordsOf m)
  match p with
  | .S => 1
  | .B => 1
  | .M => if i.guard?.isSome then k else 1
  | _ => if i.isXfrm then 1 else k

/-- The number of a pipe. -/
def pipeCode : Pipe → Nat
  | .S => 0
  | .V => 1
  | .Q => 2
  | .M => 3
  | .B => 4

/-- The pipes that the group at a team's position needs, with the cycles for which it holds each. -/
def Team.pipeNeeds (t : Team) : List (Nat × Nat) :=
  t.groupWords.filterMap fun w =>
    match wordPipe w with
    | none => none
    | some p => some (pipeCode p, match decode w with | .ok sl => t.passesOf p sl.instr | .error _ => 1)

/-- Whether a vector access has a lane to access. -/
def Team.touches (t : Team) (i : Instr) : Bool := t.flow.park.isSome || t.effOf i != 0

/-- The classes of the operations that a word issues (spec/09 R160, spec/10 R176); a release that finds dirty sectors starts a
write-back of class ST. -/
def State.opsOf (s : State) (t : Team) (i : Instr) : List OpClass :=
  (match i.opClass with
    | none => []
    | some c => if i.guard?.isSome ∧ ¬ t.touches i then [] else [c]) ++
  (match i with | .ringRbind _ _ => [.cp] | _ => []) ++
  (if i.releases ∧ s.dirtyOf t.id.tid ≠ [] then [.st] else [])

/-- Whether the counters leave room for every operation of the group (spec/09 R161; log 27). -/
def State.roomFor (s : State) (t : Team) : Bool :=
  let cs := t.groupInstrs.flatMap (s.opsOf t)
  [OpClass.ld, .st, .at_, .cp, .sg].all fun c => !cs.contains c || decide (t.outstanding c + cs.count c ≤ opLimit c)

/-- Whether a word waits, not eligible, for counters or pending bits (spec/10 R183, spec/15 R259, spec/20 R307). -/
def Team.wordWaits (t : Team) : Instr → Bool
  | .wait k n => decide (n.val < t.outstanding k)
  | .hctlHret _ => !t.quiet || t.flow.ops != []
  | .privTretRetry => !t.quiet
  | .privTretSkip => !t.quiet
  | .privTretKill => !t.quiet
  | _ => false

/-- Whether the group at a team's position waits so. -/
def Team.groupWaits (t : Team) : Bool := t.flow.fetched && t.groupInstrs.any t.wordWaits

/-- Whether a word that reads or writes records as it issues must wait: for an acquire before it; for the accesses, fences and stalled
ranges before it that its own reads and writes may not pass (spec/08 R151, R152; log 27). A slice waits for a scoreboard entry (spec/09
R168). -/
def State.wordHeld (s : State) (t : Team) (i : Instr) : Bool :=
  match i with
  | .xcpyIn _ _ => t.acquiring s.nextId || t.fencesOn s.nextId != [] || decide (64 ≤ s.boardUsed t.cluster)
  | .xcpyOut _ _ => t.acquiring s.nextId || t.fencesOn s.nextId != [] || decide (64 ≤ s.boardUsed t.cluster)
  | .xcpyMcin _ _ => t.acquiring s.nextId || t.fencesOn s.nextId != [] || decide (64 ≤ s.boardUsed t.cluster)
  | .ringRbind _ _ => t.acquiring s.nextId || t.fencesOn s.nextId != []
  | .tbarTbwait _ a _ =>
    t.acquiring s.nextId ||
    (match s.cstoreAt t.id.bundle t.cluster (t.s a).toNat 16 with
      | some key => s.recorded t.cluster t.id.ctx ⟨0, 0, key, 3⟩
      | none => false)
  | _ =>
    match i.recordRel with
    | none => false
    | some sc =>
      t.acquiring s.nextId || t.fencesOn s.nextId != [] || t.flow.ops.any (fun o => o.held.isSome || Op.waitedAt sc o) ||
      i.recordVas.any fun (a, n) =>
        (List.range (n / 32)).any fun j => s.recorded t.cluster t.id.ctx ⟨0, t.a a + BitVec.ofNat 80 (32 * j), 0, 0⟩

/-- Whether nothing but its pipes and its scheduler holds the fetched group at a team's position. -/
def State.gateOpen (s : State) (t : Team) : Bool := s.roomFor t && !t.groupInstrs.any (s.wordHeld t)

/-- Whether the pipes that the group needs are free on the team's scheduler (spec/12 R203). -/
def State.pipesFree (s : State) (t : Team) : Bool :=
  t.pipeNeeds.all fun (p, _) => decide ((s.core t.core).pipeFree.toList.getD (5 * t.sched + p) 0 ≤ s.coreCyc t.core)

/-- Whether a team is an agent slot's. -/
def Team.isAgent (t : Team) : Bool :=
  match t.place with
  | .agent _ => true
  | _ => false

/-- Whether the team's scheduler has issued no group in this cycle, and the agent slot is within its share (spec/02 R31, spec/12 R212). -/
def State.schedReady (s : State) (t : Team) : Bool :=
  decide ((s.core t.core).schedFree.toList.getD t.sched 0 ≤ s.coreCyc t.core) &&
  (!t.isAgent || decide (((s.core t.core).agentIss.filter fun n => decide (s.coreCyc t.core < n + 256)).length < 64))

/-! ### Choosing a team (spec/12 R209, R210) -/

/-- Whether a team is always saved (spec/23 R331): at trap level, in `sync.gbar`, or evicted. -/
def Team.mustSave (t : Team) : Bool :=
  t.ctl.level == .trap || t.place == .evicted || (match t.flow.hold with | .gbar _ => true | _ => false)

/-- Whether a team waits on a host-serviced fault (spec/22 R316). -/
def Team.parked (t : Team) : Bool :=
  match t.flow.park with
  | some p => p.waits != []
  | none => false

/-- Whether a team of a queue that is being saved runs on (spec/23 R331, spec/13 R234): a gang whose kernel drains and of
which no team must be saved; a consumer in its upcall, not parked, of a walk that drains. -/
def State.drains (s : State) (t : Team) : Bool :=
  match t.id.pool with
  | some p =>
    p.kind == 2 && t.flow.upcall.isSome && !t.parked && t.ctl.level != .trap &&
      (match s.walk? p.walk with | some w => flag w.rec_.flags 1 | none => false)
  | none => t.id.gang.isSome && t.id.kernel.drain && !s.all.any fun u => u.id.gang == t.id.gang && !u.ended && u.mustSave

/-- Whether a team's queue is being pre-empted, so that the team stops before its next group (spec/02 R39, spec/23 R330). -/
def State.stopping (s : State) (t : Team) : Bool :=
  match t.id.queue with
  | some q => s.queues.any fun x => x.id == q && x.saving && !(x.drainBy.isSome && s.drains t)
  | none => false

/-- The slot number of a team. -/
def Team.slot (t : Team) : Nat :=
  match t.place with
  | .on _ _ k => k
  | _ => 0

/-- Whether an access that parked may go on: nothing of it waits, or some lanes of it are to be tried again (spec/22 R316, R317). -/
def Team.unparks (t : Team) : Bool :=
  match t.flow.park with
  | some p => p.waits == [] || (!p.uniform && p.replay != 0)
  | none => true

/-- Whether a team is in the middle of a group of which a word may run now: no trap waits, no register is being reconstructed, its access
does not wait. -/
def Team.resumes (t : Team) : Bool := t.flow.group.open_ && t.flow.trapPend.isNone && t.flow.rebuild == [] && t.unparks

/-- Whether what holds a team before a group has cleared: its switch bits, its trap, its merge entries, the transform pipe (spec/02 R37,
R39; spec/12 R209; spec/22 R316). -/
def Team.free (t : Team) : Bool :=
  !t.flow.group.open_ && (t.flow.hold == .none || t.flow.hold == .tbpass) && t.flow.trapPend.isNone && (!t.flow.sw || t.quiet) && t.unparks

/-- Whether a team may issue (spec/12 R209). A team in the middle of a group issues the rest of it, and a debugger halt does not stop the
agent slot (spec/23 R340). -/
def State.eligible (s : State) (t : Team) : Bool :=
  s.boot == .up && t.placed && !t.ended &&
  (t.resumes || (t.free && !t.groupWaits && (t.isAgent || ((s.core t.core).dbg == .running && !s.stopping t))))

/-- Whether a team may be chosen: it is eligible, and its group, once fetched, is held by no counter and finds its pipes free. -/
def State.choosable (s : State) (t : Team) : Bool :=
  s.eligible t && (t.resumes || (s.schedReady t && (!t.flow.fetched || (s.gateOpen t && s.pipesFree t))))

/-- The first of some comparisons that decides: each compares two numbers, lower first. -/
def lexLt : List (Nat × Nat) → Bool
  | [] => false
  | (a, b) :: r => decide (a < b) || (a == b && lexLt r)

/-- The priority of a team (spec/12 R210): its queue's, as it stands; for a handler team its walk's. -/
def State.prioOf (s : State) (t : Team) : Nat :=
  match t.id.pool, t.id.queue with
  | none, some q => (match s.queue? q with | some x => x.prio | none => t.id.prio)
  | _, _ => t.id.prio

/-- The place of a team in the order of spec/12 R210, lower first; a team in the middle of a group goes on before any group begins. -/
def State.rank (s : State) (t : Team) : List Nat :=
  [if t.resumes then 0 else 1,
   if t.isAgent then 0 else 1,
   if t.sch.aged.isSome then 0 else 1, t.sch.aged.getD 0,
   if t.sch.aged.isSome then t.slot else 0,
   127 - s.prioOf t, if t.id.pool.isSome then 0 else 1, t.sch.last, t.slot]

/-- Whether one team comes before another on a scheduler. -/
def State.before (s : State) (t u : Team) : Bool := lexLt ((s.rank t).zip (s.rank u))

/-- Whether two teams share a scheduler. -/
def Team.sameSched (t u : Team) : Bool := t.core == u.core && t.sched == u.sched

/-- The team that comes first, if any. -/
def firstOf (lt : Team → Team → Bool) : List Team → Option Team
  | [] => none
  | t :: ts =>
    match firstOf lt ts with
    | some u => if lt u t then some u else some t
    | none => some t

/-- Whether an aged team that comes before a team, and waits only for pipes, needs a pipe that the team's group takes: the scheduler never
issues past it into that pipe (spec/12 R210). -/
def State.agedBlocks (s : State) (t : Team) : Bool :=
  s.all.any fun u =>
    u.id.tid != t.id.tid && u.sameSched t && u.sch.aged.isSome && s.before u t && s.eligible u && u.flow.fetched && s.gateOpen u &&
    u.pipeNeeds.any fun x => t.pipeNeeds.any fun y => x.1 == y.1

/-- Whether a team may be taken: chosen, and past no aged team. -/
def State.takes (s : State) (t : Team) : Bool := s.choosable t && (t.resumes || !t.flow.fetched || !s.agedBlocks t)

/-- The team that a scheduler issues. -/
def State.pickOn (s : State) (core sched : Nat) : Option Team :=
  firstOf s.before (s.all.filter fun t => t.core == core && t.sched == sched && s.takes t)

/-- With no turn named: of the teams that their schedulers would issue, the one that issued least recently (log 1). -/
def State.pickAny (s : State) : Option Team :=
  let ts := s.all.filter s.takes
  firstOf (fun t u => decide (t.sch.last < u.sch.last)) (ts.filter fun t => !ts.any fun u => u.sameSched t && s.before u t)

/-- A team made the team in issue. -/
def State.select (s : State) (tid : Nat) : State :=
  if s.me.id.tid = tid then s
  else
    match s.teams.find? (·.id.tid == tid) with
    | none => s
    | some t =>
      let rest := s.teams.filter (·.id.tid != tid)
      { s with me := t, teams := if s.me.id.tid = 0 then rest else s.me :: rest }

/-! ### Time passes (spec/01 R19; spec/12 R211; log 1) -/

/-- A team's count over some cycles of its core (spec/12 R211): those in which it is eligible and does not issue; it becomes aged in the
cycle in which the count reaches AGEIVL. -/
def State.older (s : State) (u : Nat) (t : Team) : Team :=
  if ¬ t.isAgent ∧ t.sch.aged.isNone ∧ t.placed ∧ s.eligible t then
    let k := (s.core t.core).clk
    let now := k.at_ s.now
    let n := k.at_ (s.now + u) - now - (if t.sch.last = now then 1 else 0)
    let ivl := (s.core t.core).ageivl.toNat
    { t with sch := { t.sch with
      age := t.sch.age + n
      aged := if ivl ≤ t.sch.age + n then some (k.at_ (s.now + u) - (t.sch.age + n - ivl)) else none } }
  else t

/-- Twelfths of a nanosecond pass: the counts of the schedulers, the walk counters, the time port, the clocks of the groups. -/
def State.elapse (s : State) (u : Nat) : State :=
  if u = 0 then s
  else
    let s1 : State := { s with me := s.older u s.me, teams := s.teams.map (s.older u) }
    let (ns, tp) := s.time.run u
    State.advanceClocks { s1.walkClocks u with now := s.now + u, time := tp } ns

/-- Cycles of 2.4 GHz pass. -/
def State.tick (s : State) (cycles : Nat) : State := s.elapse (5 * cycles)

/-- Nanoseconds pass. -/
def State.pass (s : State) (ns : Nat) : State := s.elapse (12 * ns)

/-! ### Fetch (spec/02 R26 to R28) -/

/-- The virtual address of a packet. -/
def packetVa (pc : W64) : W80 := pc.setWidth 80 * 12

/-- The keys of the bytes from a virtual address, page by page; or what stops the fetch, with its address. -/
def State.fetchKeys (s : State) : List (Nat × Nat) → Except (W80 × Trans) (List (Nat × Nat)) × State
  | [] => (.ok [], s)
  | (va, n) :: rest =>
    match s.teamReach s.me .fetch (BitVec.ofNat 80 va) n with
    | (.ok key _, s1) =>
      match s1.fetchKeys rest with
      | (.ok ks, s2) => (.ok (((List.range (n / 4)).map fun i => (va + 4 * i, key + 4 * i)) ++ ks), s2)
      | (.error e, s2) => (.error e, s2)
    | (r, s1) => (.error (BitVec.ofNat 80 va, r), s1)

/-- The value that a word of code had when the header of the team's bundle was read, and its new value: that of memory now, if it has been
stored to since the bundle started, or else the same (spec/02 R28). -/
def State.codeAt (s : State) (key : Nat) : W32 × W32 :=
  let now := BitVec.ofNat 32 (s.readNat key 4)
  match s.me.id.bundle.bind s.bundle? with
  | some b =>
    let old := BitVec.ofNat 32 (readCells b.code key 4)
    if s.poisoned key then (now, now)
    else (old, if now.toNat = readCells b.started key 4 then old else now)
  | none => (now, now)

/-- One word fetched. Where it has been stored to since the bundle started, or the core's instruction cache holds another value, which of the
values the team sees is a free value (spec/02 R28; log 8). -/
def State.fetchWord (s : State) (va key : Nat) : W32 × State :=
  let core := s.me.core
  let ctx := s.me.id.ctx
  let gen := s.me.id.gen
  let mine (c : ICell) : Bool := c.core == core && c.ctx == ctx && c.gen == gen && c.va == va
  let (old, new) := s.codeAt key
  let cached := s.icache.find? mine
  let kept := match cached with | some c => c.word | none => old
  let keep (w : W32) (s : State) : W32 × State := (w, { s with icache := ⟨core, ctx, gen, va, w⟩ :: s.icache.filter (!mine ·) })
  if old = new ∧ kept = new then (if cached.isSome then (new, s) else keep new s)
  else
    let (x, s1) := s.draw
    keep (match x % 3 with | 0 => old | 1 => kept | _ => new) s1

/-- The words at some keys, the first in the low bits. -/
def State.fetchWords (s : State) : List (Nat × Nat) → Nat × State
  | [] => (0, s)
  | (va, key) :: rest =>
    let (w, s1) := s.fetchWord va key
    let (hi, s2) := s1.fetchWords rest
    (w.toNat + 2 ^ 32 * hi, s2)

/-- The words of a packet that is not fetched: free values (log 9). -/
def State.freePacket (s : State) : State :=
  let (x, s1) := s.draw
  s1.setMe fun t => t.updFlow fun f => { f with packet := BitVec.ofNat 96 x }

/-- The words at a team's position noted for a trap that comes before its fetch (spec/22 R323). -/
def State.notePacket (s : State) : State :=
  if 2 ^ 62 ≤ s.me.ctl.pc.toNat then s.freePacket
  else
    match s.fetchKeys (pages 2 (packetVa s.me.ctl.pc).toNat 12) with
    | (.ok ks, s1) =>
      let (p, s2) := s1.fetchWords ks
      s2.setMe fun t => t.updFlow fun f => { f with packet := BitVec.ofNat 96 p }
    | (.error _, _) => s.freePacket

/-- A packet fetched, or the team parked or trapped at it (spec/02 R27); code lies below packet index 2^62 (spec/20 R303). -/
def State.fetchThen (s : State) (k : State → State × Option Instr) : State × Option Instr :=
  let va := (packetVa s.me.ctl.pc).toNat
  if 2 ^ 62 ≤ s.me.ctl.pc.toNat then
    (s.freePacket.trapHere ⟨3, 3, 0, false, 0⟩, none)
  else
  match s.fetchKeys (pages 2 va 12) with
  | (.ok ks, s1) =>
    let (p, s2) := s1.fetchWords ks
    let s3 :=
      match ks.find? fun k => s1.poisoned k.2 with
      | some (a, key) => s2.loadPoison s.me.id.ctx s.me.id.gen a key 4
      | none => s2
    k (s3.setMe fun t => t.updFlow fun f => { f with packet := BitVec.ofNat 96 p })
  | (.error (a, .host cause), s1) =>
    let t := s1.me
    let (uid, s2) := s1.merge (dieOf t.cluster) t.id.ctx t.id.gen (a.toNat / 2 ^ 12) .fetch cause false
    (s2.setMe fun t => t.updFlow fun f => { f with park := some ⟨[(0, a, uid)], [], 0, [], [], true⟩ }, none)
  | (.error (a, .fault c d), s1) => (s1.freePacket.trapHere ⟨c, d, a, false, 0⟩, none)
  | (.error _, s1) => (s1, none)

/-! ### A group begins (spec/02 R31 to R33; spec/07 R132; spec/12 R203) -/

/-- What every word of a group sees (spec/02 R33). -/
def State.view (s : State) : View where
  em := s.me.ctl.em
  srstate := s.me.ctl.srstate
  ctrs := [OpClass.ld, .st, .at_, .cp, .sg].map s.me.outstanding
  brken := (s.core s.me.core).brken
  attach := (s.core s.me.core).attach

/-- The words of a group before the first that fails its own checks (spec/07 R132). -/
def State.checked (s : State) : List W32 → List Instr
  | [] => []
  | w :: ws =>
    match decode w with
    | .ok sl =>
      match s.check sl.instr with
      | some _ => []
      | none => sl.instr :: s.checked ws
    | .error _ => []

/-- The tagged registers that some words read as plain values, where the tags of `done` count as 0: a word that meets a register which
another word of its group has reconstructed reads it as plain (spec/02 R33, spec/07 R130, R132; log 28). -/
def Team.tagged (t : Team) (is : List Instr) (done : List VReg) : List VReg :=
  let u := t.setTags done 0
  (is.flatMap fun i => if t.effOf i = 0 ∨ u.readsCoeffs i then [] else i.vReads.filter fun r => t.tag r != 0).eraseDups

/-- The registers that a group reconstructs before its first word, in the order of its words. -/
def Team.rebuilds (t : Team) (is : List Instr) : List VReg := t.tagged is (t.tagged is (t.tagged is []))

/-- The word at the team's position: decoded, with its chain and switch bits noted; or its trap. -/
def State.wordHere (s : State) : State × Option Instr :=
  match decode (packetWord s.me.flow.packet s.me.ctl.word) with
  | .ok sl => (s.setMe fun t => t.updFlow fun f => { f with cur := ⟨sl.chain, sl.switch⟩ }, some sl.instr)
  | .error e => (s.trapHere (illegal e.detail), none)

/-- The record of a core after a group of a team has issued in a cycle: its scheduler, its pipes, the agent slot's share, the issue cycle
of its context (spec/12 R203, R212; spec/19 R290). -/
def Core.issue (c : Core) (t : Team) (cyc : Nat) : Core :=
  { c with
    schedFree := c.schedFree.mapIdx fun k x => if k = t.sched then cyc + 1 else x
    pipeFree := t.pipeNeeds.foldl (fun v (p, n) => v.mapIdx fun k x => if k = 5 * t.sched + p then cyc + n else x) c.pipeFree
    agentIss := if t.isAgent then cyc :: c.agentIss.filter fun n => decide (cyc < n + 256) else c.agentIss
    issued := bumpBy 1 (t.id.ctx, t.id.gen) c.issued }

/-- A chain group of a gang's team counts as progress of its queue (spec/14 R248). -/
def State.noteIssue (s : State) (t : Team) : State :=
  match t.id.gang, t.id.queue with
  | some _, some q => s.updQueue q fun x => { x with progress := true }
  | _, _ => s

/-- The fetched group of the team in issue begins: it takes its cycle and its pipes, its words' view is fixed, and its reconstructions go
to the transform pipe; with none, its first word runs. -/
def State.beginGroup (s : State) : State × Option Instr :=
  let ws := s.me.groupWords
  let cyc := s.coreCyc s.me.core
  let view := if 1 < ws.length then some s.view else none
  let rs := s.me.rebuilds (s.checked ws)
  let s1 := ((s.noteIssue s.me).updCore s.me.core (·.issue s.me cyc)).setMe fun t =>
    { t with
      sch := ⟨cyc, 0, none, none⟩
      flow := { t.flow with group := ⟨view, false, true⟩, sw := false, rebuild := rs } }
  if rs = [] then s1.wordHere else (s1.sendRebuild s1.me.id.tid, none)

/-- The barrier and phase that the group at the team's position waits for, if its `tbar.tbwait` has still to wait (spec/09 R167). -/
def State.tbwaitOn (s : State) : Option (Nat × Nat) :=
  if s.me.flow.hold = .tbpass then none
  else
    s.me.groupInstrs.findSome? fun i =>
      match i with
      | .tbarTbwait d a _ =>
        let off := (s.me.s a).toNat
        match (if off % 16 = 0 ∧ s.check i = none then s.cstoreAt s.me.id.bundle s.me.cluster off 16 else none) with
        | some key => if s.phaseAt key = (s.me.s d).toNat % 16 then some (key, (s.me.s d).toNat % 16) else none
        | none => none
      | _ => none

/-- The fetched group of the team in issue: held by a phase, or begun if its scheduler may take it now. -/
def State.tryGroup (s : State) : State × Option Instr :=
  match (if s.gateOpen s.me ∧ ¬ s.me.groupWaits then s.tbwaitOn else none) with
  | some (key, q) => (s.setMe fun t => t.updFlow fun f => { f with hold := .tbwait key q (s.coreCyc s.me.core) }, none)
  | none => if s.takes s.me then s.beginGroup else (s, none)

/-- The packet at the team's position fetched: the group checks, then the group. -/
def State.groupHere (s : State) : State × Option Instr :=
  match groupCheck s.me.flow.packet s.me.ctl.word with
  | some (d, w) => (s.raise s.me.id.tid ⟨illegal d, s.me.ctl.pc, w, 0, false⟩, none)
  | none => (s.setMe fun t => t.updFlow fun f => { f with fetched := true }).tryGroup

/-- A deferred write-back fault that a team has still to take. -/
def Team.deferred (t : Team) : Option Pinned :=
  match t.flow.pinned with
  | some p => if p.taken then none else some p
  | none => none

/-- A turn of the team in issue: the next word of its group; or a deferred write-back fault (spec/22 R323), a fault of its parked fetch or
access, or a new group. The instruction is the one to run, if the turn comes to one. -/
def State.nextWord (s : State) : State × Option Instr :=
  if s.me.flow.group.open_ then s.wordHere
  else
    match s.me.deferred with
    | some p => (s.notePacket.trapHere ⟨7, if p.byRel then 0 else 1, p.line, false, s.pinMask s.me.id.tid p.line⟩, none)
    | none =>
      if s.me.flow.fetched then s.tryGroup
      else
        match s.me.flow.park with
        | some p =>
          if p.uniform then
            match p.faults with
            | (_, f) :: _ => (s.notePacket.trapHere f, none)
            | [] => (s.setMe fun t => t.updFlow fun f => { f with park := none }).fetchThen State.groupHere
          else s.fetchThen State.groupHere
        | none => s.fetchThen State.groupHere

end Sys2Proof.Machine
end

