-- ==== Sys2Proof/Machine/Walks.lean ====
section
/-!
DEFINITION. Sys2Proof/Machine/Walks.lean: the matrix walk engine: tiles and items, operand and C slots, K-steps and their sums,
split-K, stream fills and drains, stalls (spec/05 R86 to R93; spec/09 R172, R346; spec/13 R217 to R233).
-/
namespace Sys2Proof.Machine
open Sys2Proof

/-! ### Tiles, K-steps and items (spec/13 R219, R220; spec/05 R86, R92) -/

/-- Format and scale mode of an operand field. -/
def fmtPart (x : Nat) : Nat := x % 16
def modePart (x : Nat) : Nat := x / 16 % 8

/-- Elements of a K-step, by A's format. -/
def stepElems (fmt : Nat) : Nat :=
  match fmt with
  | 1 => 32
  | 2 => 32
  | 5 => 128
  | 7 => 128
  | _ => 64

/-- The legal pairs of operands. -/
def pairLegal (a b : Nat) : Bool :=
  let fa := fmtPart a
  let ma := modePart a
  let fb := fmtPart b
  let mb := modePart b
  let fp8 (f : Nat) : Bool := f == 3 || f == 4
  let asym (m : Nat) : Bool := m == 2 || m == 3 || m == 4
  (fa == 1 && ma == 0 && fb == 1 && mb == 0) || (fa == 2 && ma == 0 && fb == 2 && mb == 0) ||
  (fp8 fa && fp8 fb && ma == mb && decide (ma ≤ 1)) || (fa == 5 && ma == 1 && fb == 5 && mb == 1) ||
  (fa == 6 && ma == 0 && fb == 6 && mb == 0) || (fa == 7 && ma == 0 && fb == 7 && mb == 0) ||
  (fp8 fa && ma == 0 && fb == 7 && asym mb) || (fa == 2 && ma == 0 && fb == 7 && asym mb)

/-- Elements of a K-step of a walk. -/
def WalkRec.elems (r : WalkRec) : Nat := stepElems (fmtPart r.afmt)
/-- Whether a walk accumulates in INT32. -/
def WalkRec.isInt (r : WalkRec) : Bool := fmtPart r.afmt == 6 || fmtPart r.afmt == 7
/-- K-steps of a tile. -/
def WalkRec.steps (r : WalkRec) : Nat := (r.k + r.elems - 1) / r.elems
/-- Tile rows and columns of the result space. -/
def WalkRec.tileRows (r : WalkRec) : Nat := (r.m + r.tileM - 1) / r.tileM
def WalkRec.tileCols (r : WalkRec) : Nat := (r.n + r.tileN - 1) / r.tileN
/-- The tile count. -/
def WalkRec.tiles (r : WalkRec) : Nat := r.tileRows * r.tileCols
/-- The first K-step of a split part. -/
def WalkRec.partLo (r : WalkRec) (p : Nat) : Nat := p * r.steps / r.splitk

/-- Tile row and column of tile q in the walk's order. -/
def WalkRec.tileAt (r : WalkRec) (q : Nat) : Nat × Nat :=
  match r.order with
  | 0 => (q / r.tileCols, q % r.tileCols)
  | 1 => (q % r.tileRows, q / r.tileRows)
  | _ =>
    let g := q / (r.band * r.tileCols)
    let i := q % (r.band * r.tileCols)
    let h := min r.band (r.tileRows - g * r.band)
    let col := i / h
    (g * r.band + i % h, if g % 2 = 0 then col else r.tileCols - 1 - col)

/-- Rows and columns of a tile. -/
def WalkRec.rowsOf (r : WalkRec) (trow : Nat) : Nat := min r.tileM (r.m - r.tileM * trow)
def WalkRec.colsOf (r : WalkRec) (tcol : Nat) : Nat := min r.tileN (r.n - r.tileN * tcol)

/-- The items of core i of c, in ascending index, as (tile, part). -/
def WalkRec.itemsOf (r : WalkRec) (i c : Nat) : List (Nat × Nat) :=
  let p := r.splitk
  if r.assign = 1 then
    ((List.range (r.tiles * p)).filter fun j => j % c == i).map fun j => (j / p, j % p)
  else
    let g := c / p
    let b := i / p
    let lo := b * r.tiles / g
    (List.range ((b + 1) * r.tiles / g - lo)).map fun q => (lo + q, i % p)

/-- C slots of a whole tile: two where it has more than 16,384 elements. -/
def WalkRec.slotsPer (r : WalkRec) : Nat := if 16384 < r.tileM * r.tileN then 2 else 1
/-- Whether a tile of a tile row takes two C slots: its rows at the pitch of tile_n words do not fit one (log 19). -/
def WalkRec.isPair (r : WalkRec) (trow : Nat) : Bool := decide (16384 < r.rowsOf trow * r.tileN)

/-- The Haar depth of a walk's A operand where it arrives as coefficients, 0 otherwise (spec/13 R229). -/
def WalkRec.haarDepth (r : WalkRec) : Nat :=
  let t := parseTlr r.asnap
  if r.asrc = 1 ∧ ¬ t.recon then t.depth else 0

/-! ### Slots (spec/13 R221, R222) -/

/-- A free operand slot and a free C slot. -/
def OpSlot.free : OpSlot := ⟨false, 0, 0, false, false, false⟩
def CSlot.free : CSlot := ⟨0, 0, 0, 0, 0, 0, false, false, 0, 0, 0, 0, 0, 0, false, false, []⟩

/-- The key of a byte of an operand slot, and of word w of a C slot. -/
def opKey (core : Nat) (isB : Bool) (slot off : Nat) : Nat := typedKey core (if isB then 2 else 1) (slot * 18432 + off)
def cKey (core slot w : Nat) : Nat := typedKey core 3 (4 * (slot * 16384 + w))

/-- Bytes of the typed stores laid down by the engine. -/
def State.poke (s : State) (bs : List (Nat × Byte)) : State := { s with mem := writePairs s.mem bs }

/-- A key range cleared to zero, its poison with it. -/
def State.clearKeys (s : State) (lo n : Nat) : State :=
  { s with
    mem := s.mem.filter fun c => !(decide (lo ≤ c.1) && decide (c.1 < lo + n))
    poison := s.poison.filter fun k => !(decide (lo ≤ k) && decide (k < lo + n)) }

/-- The tiles in flight: a pair's second slot has no header of its own. -/
def WalkCore.inFlight (w : WalkCore) : Nat := (w.cslots.filter (·.state != 0)).length

/-- Whether a C slot is free: it holds no tile and is not the second of a pair. -/
def WalkCore.isFree (w : WalkCore) (i : Nat) : Bool :=
  (match w.cslots[i]? with | some c => c.state == 0 | none => false) &&
  !(i % 2 == 1 && (match w.cslots[i - 1]? with | some c => c.pair && c.state != 0 | none => false))

/-- The C slot that the next item takes, or the first of the pair that it takes. -/
def WalkCore.freeC (w : WalkCore) (r : WalkRec) (pair : Bool) : Option Nat :=
  if w.inFlight < min r.inflight (4 / r.slotsPer) then
    (if pair then [0, 2] else [0, 1, 2, 3]).find? fun i => w.isFree i && (!pair || w.isFree (i + 1))
  else none

/-- C slots of accumulating tiles in the order in which their items started. -/
def WalkCore.started (w : WalkCore) : List Nat :=
  let live := (List.range 4).filter fun i => match w.cslots[i]? with | some c => c.state == 1 | none => false
  let ord (i : Nat) : Nat := match w.cslots[i]? with | some c => c.order | none => 0
  live.foldr (fun i acc => (acc.filter fun j => ord j < ord i) ++ i :: acc.filter fun j => !decide (ord j < ord i)) []

/-! ### The engine's loop (spec/13 R223, R224) -/

/-- One operand requested: the lowest free slot taken, a producer raised or a fill begun. -/
def WalkCore.request (w : WalkCore) (r : WalkRec) (isB : Bool) (cs k : Nat) (again : Bool) : WalkCore :=
  let slots := if isB then w.bslots else w.aslots
  match slots.findIdx? (!·.taken) with
  | none => w
  | some i =>
    let stream : Bool := (if isB then r.bsrc else r.asrc) == 1
    let slots' := slots.set i ⟨true, cs, k, false, false, stream⟩
    let new : List Raise := if stream then [] else [⟨i, cs, k, again⟩]
    if isB then { w with bslots := slots', fifoB := w.fifoB ++ new } else { w with aslots := slots', fifoA := w.fifoA ++ new }

/-- The operands of the next steps of a tile requested, as far as lookahead allows. -/
def WalkCore.raiseTile (r : WalkRec) (cs : Nat) : Nat → WalkCore → WalkCore
  | 0, w => w
  | f + 1, w =>
    match w.cslots[cs]? with
    | none => w
    | some c =>
      if c.state = 1 ∧ c.raised < min c.ksteps (c.kprog + r.look) then
        let again := decide (c.raised < c.resume)
        let w1 := (w.request r false cs c.raised again).request r true cs c.raised again
        WalkCore.raiseTile r cs f { w1 with cslots := w1.cslots.set cs { c with raised := c.raised + 1 } }
      else w

/-- Every tile's operands requested, in the order in which tiles started. -/
def WalkCore.raiseAll (w : WalkCore) (r : WalkRec) : WalkCore := w.started.foldl (fun w i => w.raiseTile r i 7) w

/-- The header of a new item. -/
def newSlot (r : WalkRec) (q p order : Nat) : CSlot :=
  let (row, col) := r.tileAt q
  { CSlot.free with
    item := q * r.splitk + p
    trow := row
    tcol := col
    part := p
    state := 1
    dtag := r.haarDepth
    finish := decide (1 < r.splitk) && r.finish == 1 && p == 0
    ksteps := r.partLo (p + 1) - r.partLo p
    order := order
    pair := r.isPair row }

/-- The next item started in a cleared C slot, if slots allow. -/
def State.startItem (s : State) (core : Nat) (r : WalkRec) : Option State :=
  match (s.core core).walk with
  | none => none
  | some w =>
    match w.items[w.cursor]? with
    | none => none
    | some (q, p) =>
      let c := newSlot r q p w.cursor
      match w.freeC r c.pair with
      | some i =>
        some ((s.clearKeys (cKey core i 0) (if c.pair then 131072 else 65536)).updWalkCore core fun w =>
          { w with cursor := w.cursor + 1, cslots := w.cslots.set i c })
      | none => none

/-- Items started while slots allow. -/
def State.startItems (core : Nat) (r : WalkRec) : Nat → State → State
  | 0, s => s
  | f + 1, s =>
    match s.startItem core r with
    | some s1 => State.startItems core r f s1
    | none => s

/-- A tile whose sum is whole: its consumer raised, or its drain due. -/
def WalkCore.due (w : WalkCore) (r : WalkRec) (i : Nat) : WalkCore :=
  match w.cslots[i]? with
  | none => w
  | some c =>
    if r.csink = 1 then { w with cslots := w.cslots.set i { c with state := 5 } }
    else { w with cslots := w.cslots.set i { c with state := 3 }, fifoC := w.fifoC ++ [⟨i, i, 0, false⟩] }

/-- A part that has accumulated every step: due, or waiting to merge. -/
def WalkCore.partDone (w : WalkCore) (r : WalkRec) (i : Nat) : WalkCore :=
  if r.splitk = 1 then w.due r i
  else
    match w.cslots[i]? with
    | some c => { w with cslots := w.cslots.set i { c with state := 2 } }
    | none => w

/-- Parts that have no steps left. -/
def WalkCore.finished (w : WalkCore) : List Nat :=
  (List.range 4).filter fun i => match w.cslots[i]? with | some c => c.state == 1 && c.kprog == c.ksteps | none => false

/-- Whether a core is being halted, or is: its engine starts nothing (spec/01 R24, spec/23 R340). -/
def State.stoppedCore (s : State) (core : Nat) : Bool := (s.core core).dbg != .running

/-- The engine's invariants restored on a core: items started, operands requested, parts without steps finished. -/
def State.engineFill (s : State) (core : Nat) : State :=
  match (s.core core).walk with
  | none => s
  | some w0 =>
    match s.walk? w0.walk with
    | none => s
    | some w =>
      if w0.stopReq ∨ w.err.isSome ∨ s.stoppedCore core then s
      else
        (State.startItems core w.rec_ 4 s).updWalkCore core fun x =>
          (x.finished.foldl (fun x i => x.partDone w.rec_ i) x).raiseAll w.rec_

/-! ### Taint and ends of tiles (spec/13 R225, R233) -/

/-- A tile counted as tainted. -/
def Walk.addTaint (w : Walk) (q : Nat) : Walk :=
  if w.tTiles.contains q then w
  else { w with tTiles := q :: w.tTiles, tainted := w.tainted + 1, ftaint := some (match w.ftaint with | some x => min x q | none => q) }

/-- A tile of a walk tainted; the C slot that holds it carries the bit. -/
def State.taintTile (s : State) (core i : Nat) (id q : Nat) : State :=
  (s.updWalk id (·.addTaint q)).updWalkCore core fun w =>
    match w.cslots[i]? with
    | some c => { w with cslots := w.cslots.set i { c with taint := true } }
    | none => w

/-- The tile of a C slot's item. -/
def CSlot.tile (c : CSlot) (r : WalkRec) : Nat := c.item / max 1 r.splitk

/-- A walk with every tile consumed or drained: the record is written, the signal decremented (spec/13 R233). -/
def State.walkEndCheck (s : State) (id : Nat) : State :=
  match s.walk? id with
  | none => s
  | some w => if w.tiles = w.rec_.tiles ∧ w.err.isNone then s.finishWalk id (if w.tTiles = [] then 0 else 1) 0 false else s

/-- A tile consumed or drained: its slot freed, the walk's count raised, the engine going on. -/
def State.tileDone (s : State) (core i id : Nat) : State :=
  let s1 := (s.updWalk id fun w => { w with tiles := w.tiles + 1 }).updWalkCore core fun w =>
    { w with tiles := w.tiles + 1, cslots := w.cslots.set i .free }
  (s1.engineFill core).walkEndCheck id

/-- An operand slot ready, tainted or not; under policy `abort` taint is a walk error (spec/13 R225, R227). -/
def State.slotReady (s : State) (core : Nat) (isB : Bool) (slot : Nat) (taint : Bool) : State :=
  match (s.core core).walk with
  | none => s
  | some w0 =>
    match (if isB then w0.bslots else w0.aslots)[slot]?, s.walk? w0.walk with
    | some o, some w =>
      let mark (l : List OpSlot) : List OpSlot := l.set slot { o with ready := true, taint := taint }
      let s1 := s.updWalkCore core fun x => if isB then { x with bslots := mark x.bslots } else { x with aslots := mark x.aslots }
      if taint ∧ w.rec_.taint = 1 then
        s1.walkError w.id (match w0.cslots[o.cslot]? with | some c => c.tile w.rec_ | none => 0xFFFFFFFF) 3
      else s1.engineFill core
    | _, _ => s

/-! ### The K-step (spec/05 R87 to R91) -/

/-- The values of the first `n` elements of a row of an operand slot: K-step j of the walk. -/
def State.operandRow (s : State) (core : Nat) (isB : Bool) (slot row fmt mode j e n : Nat) : List Val :=
  let x := leNat (s.homeBytes (opKey core isB slot (72 * row)) 64)
  let sc := leNat (s.homeBytes (opKey core isB slot (72 * row + 64)) 8)
  (List.range n).map fun i =>
    let b := x / 2 ^ (i * elemBits fmt) % 2 ^ elemBits fmt
    match mode with
    | 0 => elemValue fmt b
    | 1 => mxValue fmt (sc / 256 ^ (i / 32) % 256) b
    | _ => asymValue fmt (sc / 2 ^ (32 * ((j * e + i) / groupSize mode - j * e / groupSize mode)) % 2 ^ 32) b

/-- The integer that an integer value stands for. -/
def valInt : Val → Int
  | .fin neg n e => (if neg then -1 else 1) * (n : Int) * 2 ^ e.toNat
  | _ => 0

/-- One element after a K-step: acc + step, modulo 2^32 or rounded once. -/
def stepElem (isInt : Bool) (acc : Nat) (ps : List (Val × Val)) : Nat :=
  if isInt then
    (((acc : Int) + (ps.map fun (a, b) => valInt a * valInt b).foldl (· + ·) 0) % 2 ^ 32).toNat
  else fmtF32.rne ((fmtF32.value acc).add (stepSum ps))

/-- The rows of a tile that a K-step computes. -/
def CSlot.computes (c : CSlot) (row : Nat) : Bool := c.dtag == 0 || c.surv.getLsbD row

/-- The 16-row groups of a tile with a surviving row. -/
def CSlot.groupsAlive (c : CSlot) : Nat := ((List.range 8).filter fun g => c.surv.toNat / 2 ^ (16 * g) % 2 ^ 16 != 0).length

/-- The results of one K-step of a C slot's tile, laid in its slot. -/
def State.sweep (s : State) (core i : Nat) (r : WalkRec) (c : CSlot) (sa sb : Nat) : State :=
  let j := r.partLo c.part + c.kprog
  let n := min r.elems (r.k - j * r.elems)
  let cols := r.colsOf c.tcol
  let bs := (List.range cols).map fun x => s.operandRow core true sb x (fmtPart r.bfmt) (modePart r.bfmt) j r.elems n
  let writes := ((List.range (r.rowsOf c.trow)).filter c.computes).flatMap fun row =>
    let a := s.operandRow core false sa row (fmtPart r.afmt) (modePart r.afmt) j r.elems n
    bs.zipIdx.flatMap fun (b, col) =>
      let key := cKey core i (row * r.tileN + col)
      keyed key (leBytes 4 (stepElem r.isInt (leNat (s.homeBytes key 4)) (a.zip b)))
  s.poke writes

/-- The operand slot of a list that holds a K-step of a C slot. -/
def opSlotOf (l : List OpSlot) (cs k : Nat) : Option (Nat × OpSlot) :=
  match l.findIdx? fun o => o.taken && o.cslot == cs && o.k == k with
  | some i => match l[i]? with | some o => some (i, o) | none => none
  | none => none

/-- KSTEP_BEGIN: the array, free, takes the next K-step of the earliest-started tile that is ready (spec/13 R223, R229). -/
def execKstepBegin (core : Nat) (s : State) : Host.Outcome State Fault Refusal :=
  .next (match (s.core core).walk with
    | none => s
    | some w0 =>
      match s.walk? w0.walk with
      | none => s
      | some w =>
        if w0.array.isSome ∨ w0.stopReq ∨ w.err.isSome ∨ s.stoppedCore core then s
        else
          match w0.started.find? w0.stepReady with
          | none => s
          | some i =>
            match w0.cslots[i]? with
            | none => s
            | some c =>
              match opSlotOf w0.aslots i c.kprog, opSlotOf w0.bslots i c.kprog with
              | some (sa, oa), some (sb, ob) =>
                let s1 := (s.sweep core i w.rec_ c sa sb).updWalkCore core fun x => { x with
                  array := some i
                  gcomp := if c.dtag = 0 then x.gcomp else x.gcomp + c.groupsAlive
                  gskip := if c.dtag = 0 then x.gskip else x.gskip + (8 - c.groupsAlive) }
                if oa.taint ∨ ob.taint then s1.taintTile core i w.id (c.tile w.rec_) else s1
              | _, _ => s)

/-- The operand slots of a K-step freed. -/
def freeOps (l : List OpSlot) (cs k : Nat) : List OpSlot :=
  l.map fun o => if o.taken ∧ o.cslot = cs ∧ o.k = k then .free else o

/-- KSTEP_BOUNDARY: the K-step ends: kprog rises and its operand slots are freed; a part whose steps are done is due or
merges; an engine that is to stop stops here (spec/13 R223, R234). -/
def execKstepBoundary (core : Nat) (s : State) : Host.Outcome State Fault Refusal :=
  .next (match (s.core core).walk with
    | none => s
    | some w0 =>
      match w0.array, s.walk? w0.walk with
      | some i, some w =>
        match w0.cslots[i]? with
        | none => s
        | some c =>
          let c1 := { c with kprog := c.kprog + 1 }
          let s1 := s.updWalkCore core fun x =>
            let x1 : WalkCore := { x with
              array := none
              aslots := freeOps x.aslots i c.kprog
              bslots := freeOps x.bslots i c.kprog
              cslots := x.cslots.set i c1
              ksteps := x.ksteps + 1
              lastAdv := s.matCyc core
              stalled := false
              stopped := x.stopReq }
            if c1.kprog = c1.ksteps then x1.partDone w.rec_ i else x1
          s1.engineFill core
      | _, _ => s)

/-! ### Split-K (spec/05 R92, spec/13 R226) -/

/-- The address of tile q's region, and the bytes of its head and tile. -/
def WalkRec.region (r : WalkRec) (q : Nat) : Nat := (r.kbuf.toNat + q * (r.tileM * r.tileN * 4 + 64)) % 2 ^ 80
def WalkRec.regionLen (r : WalkRec) : Nat := r.tileM * r.tileN * 4 + 64

/-- For whom a walk's engine works on a core. -/
def Walk.client (w : Walk) (core : Nat) : Client := ⟨w.ctx, w.gen, some w.bundle, core / 8⟩

/-- The keys of a byte range for an engine, page by page; none while a page is waited for; an error where one fails. -/
def State.engineKeys (s : State) (c : Client) (e : EngWait) (k : Access) :
    List (Nat × Nat) → Option (Option (List (Nat × Nat × Nat))) × State × EngWait
  | [] => (some (some []), s, e)
  | (va, n) :: rest =>
    let (x, s1, e1) := s.engineReach c e k va n
    let (xs, s2, e2) := s1.engineKeys c e1 k rest
    match x, xs with
    | .fail, _ => (some none, s2, e2)
    | _, some none => (some none, s2, e2)
    | .key key, some (some l) => (some (some ((va, n, key) :: l)), s2, e2)
    | _, _ => (none, s2, e2)

/-- The key of an address in translated ranges. -/
def keyIn (ks : List (Nat × Nat × Nat)) (va : Nat) : Nat :=
  match ks.find? fun (a, n, _) => decide (a ≤ va) && decide (va < a + n) with
  | some (a, _, key) => key + (va - a)
  | none => 0

/-- The near-cache adder: the first arrival stored as it stands, a later one added (spec/05 R92); a poisoned element stays
poisoned (spec/22 R325). -/
def State.nearAdd (s : State) (isInt first : Bool) (key x : Nat) : State :=
  if s.poisoned key then s
  else
    let old := s.homeNat key 4
    s.perform (keyed key (leBytes 4 (if first then x else if isInt then (old + x) % 2 ^ 32 else fmtF32.add old x)))

/-- The elements of a tile: their words in the C slot and their addresses in its region (log 19). -/
def tileElems (r : WalkRec) (c : CSlot) (base : Nat) : List (Nat × Nat) :=
  (List.range (r.rowsOf c.trow)).flatMap fun row => (List.range (r.colsOf c.tcol)).map fun col =>
    (row * r.tileN + col, base + 64 + 4 * (row * r.tileN + col))

/-- A part's slot flushed to its tile's region, whole in one step: every element of a tile accepts the tile's parts in one order, where
spec/05 R92 orders the arrivals at one home slice only (DESIGN CHOICE, log 19). -/
def State.flushPart (s : State) (core i : Nat) (w : Walk) (c : CSlot) (ks : List (Nat × Nat × Nat)) : State :=
  let q := c.tile w.rec_
  let first := !w.flushed.contains q
  ((tileElems w.rec_ c (w.rec_.region q)).foldl (fun s (n, va) =>
    s.nearAdd w.rec_.isInt first (keyIn ks va) (leNat (s.homeBytes (cKey core i n) 4))) s).updWalk w.id fun x =>
      { x with flushed := if first then q :: x.flushed else x.flushed }

/-- The finisher of a tile reads the merged region into its slot, zeroes the arrival count, and raises its consumer or drain;
poison or a tainted part taints the tile. -/
def State.mergeTile (s : State) (core i : Nat) (w : Walk) (c : CSlot) (ks : List (Nat × Nat × Nat)) : State :=
  let q := c.tile w.rec_
  let base := w.rec_.region q
  let es := tileElems w.rec_ c base
  let s1 := s.poke (es.flatMap fun (n, va) => keyed (cKey core i n) (s.homeBytes (keyIn ks va) 4))
  let s2 := s1.perform (keyed (keyIn ks base) (leBytes 4 0))
  let tainted := es.any (fun (_, va) => s.poisoned (keyIn ks va)) || w.tTiles.contains q
  let s3 := (s2.updWalk w.id fun x => { x with flushed := x.flushed.filter (· != q) }).updWalkCore core fun x =>
    { x with cslots := x.cslots.set i { c with finish := true, arrived := true } }
  let s4 := if tainted then s3.taintTile core i w.id q else s3
  s4.updWalkCore core (·.due w.rec_ i)

/-- The merge of a tile whose last part has arrived; on a core that is halted it waits for the end of the halt (spec/23 R340). -/
def State.mergeOrWait (s : State) (core i : Nat) (w : Walk) (c : CSlot) (ks : List (Nat × Nat × Nat)) : State :=
  if s.stoppedCore core then s.updWalkCore core fun x => { x with cslots := x.cslots.set i { c with arrived := true } }
  else s.mergeTile core i w c ks

/-- The core and slot where part 0 of a tile waits for the others. -/
def State.part0Of (s : State) (w : Walk) (q : Nat) : Option (Nat × Nat × CSlot) :=
  w.cores.findSome? fun c =>
    match (s.core c).walk with
    | some x =>
      match x.cslots.findIdx? fun y => y.state == 2 && y.arrived && y.part == 0 && y.tile w.rec_ == q with
      | some i => match x.cslots[i]? with | some y => some (c, i, y) | none => none
      | none => none
    | none => none

/-- What follows an arrival that makes the count `n`. -/
def State.arrivalEnd (s : State) (core i : Nat) (w : Walk) (c : CSlot) (ks : List (Nat × Nat × Nat)) (n : Nat) : State :=
  let r := w.rec_
  let leave (s : State) : State := (s.updWalkCore core fun x => { x with cslots := x.cslots.set i .free }).engineFill core
  if r.finish = 0 then (if n = r.splitk then s.mergeOrWait core i w c ks else leave s)
  else if c.part = 0 then
    (if n = r.splitk then s.mergeOrWait core i w c ks
     else s.updWalkCore core fun x => { x with cslots := x.cslots.set i { c with arrived := true } })
  else
    let s1 := leave s
    if n = r.splitk then
      match s1.part0Of w (c.tile r) with
      | some (c0, i0, y) => s1.mergeOrWait c0 i0 w y ks
      | none => s1
    else s1

/-- SPLITK_ARRIVAL: the flush of a finished part is performed, then the arrival counted; a finisher that has waited merges once the count is
full (spec/13 R226). A page that is
host-serviced is waited for; one that fails is a stream error (log 19). -/
def execSplitkArrival (core slot : Nat) (s : State) : Host.Outcome State Fault Refusal :=
  .next (match (s.core core).walk with
    | none => s
    | some w0 =>
      match w0.cslots[slot]?, s.walk? w0.walk with
      | some c, some w =>
        if c.state ≠ 2 then s
        else
          let q := c.tile w.rec_
          let base := w.rec_.region q
          match s.engineKeys (w.client core) w0.eng .atomic (pages (w.rec_.regionLen / 4096 + 2) base w.rec_.regionLen) with
          | (none, s1, e1) => s1.updWalkCore core fun x => { x with eng := e1 }
          | (some none, s1, _) => s1.walkError w.id q 2
          | (some (some ks), s1, e1) =>
            let s2 := s1.updWalkCore core fun x => { x with eng := e1 }
            if c.arrived then
              (if s2.homeNat (keyIn ks base) 4 = w.rec_.splitk ∧ ¬ s2.stoppedCore core then s2.mergeTile core slot w c ks else s2)
            else
              let (old, s3) := (s2.flushPart core slot w c ks).homeAtomic w.ctx w.gen base (keyIn ks base) 4 fun x => (x + 1) % 2 ^ 32
              match s3.walk? w.id with
              | some w1 => s3.arrivalEnd core slot w1 c ks (old + 1)
              | none => s3
      | _, _ => s)

/-! ### Stream fills (spec/13 R227) -/

/-- A list cut into pieces of `n`. -/
def cut {α : Type} (n : Nat) : Nat → List α → List (List α)
  | 0, _ => []
  | f + 1, xs => if xs = [] then [] else xs.take n :: cut n f (xs.drop n)

/-- Bytes with zeros up to a length. -/
def padRaw (n : Nat) (bs : Raw) : Raw := (bs ++ List.replicate n (0, 0)).take n

/-- The scale bytes of a row for elements k to k + n - 1: their address and count; none for a plain operand. -/
def Tlr.scaleSpan (t : Tlr) (row k n : Nat) : Option (Nat × Nat) :=
  let base := t.scale + row * t.scpitch
  match t.mode with
  | 0 => none
  | 1 => some ((base + k / 32) % 2 ^ 80, (k + n - 1) / 32 - k / 32 + 1)
  | m =>
    let g := groupSize m
    some ((base + 4 * (k / g)) % 2 ^ 80, 4 * ((k + n - 1) / g - k / g + 1))

/-- The sectors of the scales of some rows. -/
def Tlr.scaleSecs (t : Tlr) (k n : Nat) (rows : List Nat) : List Nat :=
  rows.flatMap fun r => match t.scaleSpan r k n with | some (va, len) => spanSecs va len | none => []

/-- The scale bytes of a row as they have been read. -/
def Memo.scales (m : Memo) (t : Tlr) (r k n : Nat) : Raw := match t.scaleSpan r k n with | some (va, len) => m.range va len | none => []

/-- The bytes of one row of a slot: 64 of elements, 8 of scales. -/
def slotRow (rows scales : List (Nat × Raw)) (i : Nat) : Raw :=
  let get (l : List (Nat × Raw)) : Raw := match l.find? (·.1 == i) with | some x => x.2 | none => []
  padRaw 64 (get rows) ++ padRaw 8 (get scales)

/-- What a fill reads: A's survivor mask where it is Haar, and the rows of the operand with their scales, each under its row of the slot; none
while a page is waited for. -/
def State.fillRows (s : State) (c : Client) (e : EngWait) (t : Tlr) (row0 n k len : Nat) :
    Option (Nat × List (Nat × Raw) × List (Nat × Raw)) × State × EngWait :=
  let tile := row0 / 128
  let (m, s1, e1) :=
    if t.depth = 0 then s.fetchSecs c e [] (t.rowSecs k len (rowsFrom row0 (row0 + n)) ++ t.scaleSecs k len (rowsFrom row0 (row0 + n)))
    else
      let (m, s1, e1) := s.fetchTiles c e [] t k len [tile]
      s1.fetchSecs c e1 m (t.scaleSecs k len (m.tileRows t tile))
  let (surv, rs, sc) : Nat × List (Nat × Raw) × List (Nat × Raw) :=
    if t.depth = 0 then
      (0, (List.range n).map fun i => (i, m.row t (row0 + i) k len), (List.range n).map fun i => (i, m.scales t (row0 + i) k len))
    else
      let (surv, rows) := m.tile t tile k len
      (surv, rows.zipIdx.map fun (b, i) => (i, b), ((survivors surv).zip (m.tileRows t tile)).map fun (j, r) => (j, m.scales t r k len))
  (if (rs ++ sc).any fun x => rawMark x.2 == 3 then none else some (surv, rs, sc), s1, e1)

/-- A slot's bytes laid sector by sector; a sector with a poisoned byte becomes poison. -/
def State.layRaw (s : State) (key : Nat) (bs : Raw) : State :=
  ((cut 32 (bs.length / 32 + 1) bs).zipIdx).foldl (fun (s : State) ((sec, i) : Raw × Nat) =>
    let k := key + 32 * i
    if rawMark sec = 0 then
      State.poke { s with poison := s.poison.filter (· != sectorOf k) } (keyed k (sec.map Prod.fst))
    else s.addPoison [k]) s

/-- The operand slot of a fill let go. -/
def State.dropFill (s : State) (core : Nat) (isB : Bool) (slot : Nat) : State :=
  s.updWalkCore core fun x => if isB then { x with bslots := x.bslots.set slot .free } else { x with aslots := x.aslots.set slot .free }

/-- STREAM_FILL_COMPLETE: a requested fill is performed, if its pages allow; the sidecar that the tile's header keeps is that of its first
K-step (spec/13 R227, R229; spec/09 R346). After a walk error a fill that has issued completes into a slot that is let go (R231). -/
def execStreamFillComplete (core : Nat) (isB : Bool) (slot : Nat) (s : State) : Host.Outcome State Fault Refusal :=
  .next (match (s.core core).walk with
    | none => s
    | some w0 =>
      match (if isB then w0.bslots else w0.aslots)[slot]?, s.walk? w0.walk with
      | some o, some w =>
        match w0.cslots[o.cslot]? with
        | none => s
        | some c =>
          if ¬ o.pending then s
          else if w.err.isSome then
            (if w0.eng.waits = [] then (s.dropFill core isB slot).walkErrCheck w.id else s)
          else
            let r := w.rec_
            let t := parseTlr (if isB then r.bsnap else r.asnap)
            let row0 := if isB then c.tcol * r.tileN else c.trow * r.tileM
            let n := if isB then r.colsOf c.tcol else r.rowsOf c.trow
            let k := (r.partLo c.part + o.k) * r.elems
            let len := min r.elems (r.k - k)
            match s.fillRows (w.client core) w0.eng t row0 n k len with
            | (none, s1, e1) => s1.updWalkCore core fun x => { x with eng := e1 }
            | (some (surv, rs, sc), s1, e1) =>
              let raw := (List.range n).flatMap (slotRow rs sc)
              let s2 := s1.updWalkCore core fun x => { x with
                eng := e1
                cslots := if c.dtag ≠ 0 ∧ ¬ isB ∧ o.k = 0 then x.cslots.set o.cslot { c with surv := BitVec.ofNat 128 surv } else x.cslots }
              if rawMark raw = 2 then (s2.dropFill core isB slot).walkError w.id (c.tile r) 2
              else (s2.layRaw (opKey core isB slot 0) raw).slotReady core isB slot (rawMark raw == 1)
      | _, _ => s)

/-! ### Stream drains (spec/13 R227, spec/10 R193) -/

/-- A row of a tile in its C slot. -/
def State.cRow (s : State) (core i : Nat) (r : WalkRec) (cols row : Nat) : Raw := s.rawAt (cKey core i (row * r.tileN)) (4 * cols)

/-- The bytes that the drain of a tile writes; none where the record cannot take the tile (spec/10 R193; log 19).
Each walk tile is thresholded over its own columns and rewrites the sidecar entry of its tile row: with several tile columns the spec
does not say which features decide a row's survival (DESIGN CHOICE, log 19). -/
def State.drainBytes (s : State) (core i : Nat) (r : WalkRec) (c : CSlot) : Option (List FarByte) :=
  let t := parseTlr r.csnap
  let wfmt := if r.isInt then 8 else 0
  let cols := r.colsOf c.tcol
  let k := c.tcol * r.tileN
  if t.depth = 0 then
    some ((List.range (r.rowsOf c.trow)).flatMap fun row => plainOut t wfmt (c.trow * r.tileM + row) k cols (s.cRow core i r cols row))
  else if (c.dtag ≠ 0 ∧ c.dtag ≠ t.depth) ∨ r.tileM % 128 ≠ 0 then none
  else
    some ((List.range (r.rowsOf c.trow / 128)).flatMap fun h =>
      haarOut t wfmt c.dtag t.thrval (c.trow * (r.tileM / 128) + h) k cols ((List.range 128).map fun j => s.cRow core i r cols (128 * h + j)))

/-- Drained bytes by sector. -/
def farSectors (bs : List FarByte) : List (Nat × Nat × Nat × List (Nat × Byte × Byte)) :=
  bs.foldl (fun gs (a, b, m, f, tile) => putByte (a / 32) (a, b, m) f tile gs) []

/-- The sectors of a drain performed, each once: those that wait for a page, whether one failed. -/
def State.drainSectors (s : State) (w : Walk) (core : Nat) (e : EngWait) :
    List (Nat × Nat × Nat × List (Nat × Byte × Byte)) → List Nat × Bool × State × EngWait
  | [] => ([], false, s, e)
  | (sec, f, _, ws) :: rest =>
    match s.engineReach (w.client core) e .store (sec * 32) 1 with
    | (.key key, s1, e1) =>
      let s2 := if f = 0 then s1.homeStore w.ctx w.gen (sec * 32) (s1.laid (sectorOf key) (sec * 32) ws) else s1.addPoison [key]
      let (done, bad, s3, e3) := s2.drainSectors w core e1 rest
      (sec :: done, bad, s3, e3)
    | (.wait, s1, e1) => s1.drainSectors w core e1 rest
    | (.fail, s1, e1) =>
      let (done, _, s2, e2) := s1.drainSectors w core e1 rest
      (done, true, s2, e2)

/-- A C slot let go after its drain has failed: the walk error follows, if it has not (spec/13 R231). -/
def State.drainFails (s : State) (core slot : Nat) (w : Walk) (c : CSlot) : State :=
  let s1 := s.updWalkCore core fun x => { x with cslots := x.cslots.set slot .free }
  if w.err.isSome then s1.walkErrCheck w.id else s1.walkError w.id (c.tile w.rec_) 2

/-- STREAM_DRAIN_COMPLETE: a finished tile is drained, each sector once, as far as its pages allow; with every sector performed its slot is
freed (spec/13 R227; spec/09 R163, R346). A drain that has issued completes after a walk error too (R231). -/
def execStreamDrainComplete (core slot : Nat) (s : State) : Host.Outcome State Fault Refusal :=
  .next (match (s.core core).walk with
    | none => s
    | some w0 =>
      match w0.cslots[slot]?, s.walk? w0.walk with
      | some c, some w =>
        if c.state ≠ 5 ∨ s.halted core then s
        else
          match s.drainBytes core slot w.rec_ c with
          | none => s.drainFails core slot w c
          | some bs =>
            let gs := (farSectors bs).filter fun g => !c.drained.contains g.1
            let (done, bad, s1, e1) := s.drainSectors w core w0.eng gs
            let s2 := s1.updWalkCore core fun x => { x with
              eng := e1, cslots := x.cslots.set slot { c with drained := c.drained ++ done } }
            if bad then s2.drainFails core slot w c
            else if done.length = gs.length then (s2.tileDone core slot w.id).walkErrCheck w.id
            else s2
      | _, _ => s)

/-! ### Stalls (spec/13 R232) -/

/-- Whether an engine has work left. -/
def WalkCore.hasWork (w : WalkCore) : Bool := decide (w.cursor < w.items.length) || w.cslots.any (·.state != 0)

/-- WALK_STALL_REPORT: no K-step has advanced for the walk's stall limit: one report, on the queue's error signal. -/
def execWalkStallReport (core : Nat) (s : State) : Host.Outcome State Fault Refusal :=
  .next (match (s.core core).walk with
    | none => s
    | some w0 =>
      match s.walk? w0.walk with
      | none => s
      | some w =>
        let here : Bool := match s.queue? w.queue with | some q => q.resident && !q.saving | none => false
        if w.rec_.stall ≠ 0 ∧ w0.hasWork ∧ ¬ w0.stalled ∧ w.err.isNone ∧ here ∧ (s.core core).dbg = .running ∧
            w0.lastAdv + w.rec_.stall ≤ s.matCyc core then
          (s.errsig w.queue).updWalkCore core fun x => { x with stalls := x.stalls + 1, stalled := true }
        else s)

end Sys2Proof.Machine
end

