-- ==== Sys2Proof/Machine/Handler.lean ====
section
/-!
DEFINITION. Sys2Proof/Machine/Handler.lean: upcalls of a walk: their delivery, and HCTL (spec/13 R222, R224, R225; spec/15 R259
to R261).
-/
namespace Sys2Proof.Machine
open Sys2Proof

/-! ### Delivery (spec/13 R224) -/

/-- The C slot's header as a K-step or tile of an upcall sees it. -/
def WalkCore.slotOf (w : WalkCore) (i : Nat) : CSlot := match w.cslots[i]? with | some c => c | none => .free

/-- s0 to s7 of an upcall. -/
def upcallArgs (w : Walk) (c : CSlot) (kind : Nat) (x : Raise) : List Nat :=
  let r := w.rec_
  let j := r.partLo c.part + x.k
  let n := min r.elems (r.k - j * r.elems)
  let head := kind + (if x.again then 2 ^ 8 else 0)
  if kind = 2 then
    [head, c.trow, c.tcol, c.ksteps, x.slot, w.wid.toNat,
     c.taint.toNat + (if c.dtag = 0 then 0 else 2) + (if c.finish then 4 else 0), r.rowsOf c.trow + 2 ^ 16 * r.colsOf c.tcol]
  else
    [head, c.trow, c.tcol, j, x.slot, w.wid.toNat,
     c.taint.toNat + (if c.dtag = 0 then 0 else 2) + (if n < r.elems then 8 else 0),
     (if kind = 0 then r.rowsOf c.trow else r.colsOf c.tcol) + 2 ^ 16 * n]

/-- t0 of an upcall. -/
def upcallWindow (r : WalkRec) (c : CSlot) (kind : Nat) (x : Raise) : W128 :=
  if kind = 2 then tMake 3 (if r.isInt then 8 else 0) c.dtag true (x.slot * 16384) (r.rowsOf c.trow) (r.colsOf c.tcol) r.tileN x.slot
  else
    tMake (kind + 1) (fmtPart (if kind = 0 then r.afmt else r.bfmt)) 0 true (x.slot * 4608)
      (if kind = 0 then r.rowsOf c.trow else r.colsOf c.tcol) 18 18 0

/-- A team at the entry of an upcall. -/
def Team.upcallStart (t : Team) (entry : W64) (args : List Nat) (window : W128) (u : Upcall) : Team :=
  let t1 := args.zipIdx.foldl (fun t (x, i) => t.setS (Fin.ofNat 64 i) (BitVec.ofNat 64 x)) (t.setT 0 window)
  { t1 with
    ctl := { t1.ctl with pc := entry, word := 0, em := t1.lanes, stack := [] }
    flow := { t1.flow with hold := .none, group := .none, fetched := false, park := none, sw := false, upcall := some u } }

/-- The FIFO of a pool. -/
def WalkCore.fifo (w : WalkCore) (pool : Nat) : List Raise :=
  match pool with
  | 0 => w.fifoA
  | 1 => w.fifoB
  | _ => w.fifoC

/-- The head of a pool's FIFO taken; a consumer's C slot is in its consumer. -/
def WalkCore.deliver (w : WalkCore) (pool : Nat) (x : Raise) : WalkCore :=
  match pool with
  | 0 => { w with fifoA := w.fifoA.drop 1 }
  | 1 => { w with fifoB := w.fifoB.drop 1 }
  | _ => { w with fifoC := w.fifoC.drop 1, cslots := w.cslots.set x.slot { w.slotOf x.slot with state := 4 } }

/-- UPCALL_DELIVERY: the head upcall of a pool is delivered to its idle team with the lowest TEAMID. -/
def execUpcallDelivery (core pool : Nat) (s : State) : Host.Outcome State Fault Refusal :=
  .next (match (s.core core).walk with
    | none => s
    | some w0 =>
      match s.walk? w0.walk with
      | none => s
      | some w =>
        if 2 < pool ∨ w0.stopReq ∨ w.err.isSome ∨ s.stoppedCore core then s
        else
          match w0.fifo pool, s.idleTeam w.id core pool with
          | x :: _, some t =>
            let r := w.rec_
            let c := w0.slotOf x.cslot
            let entry := match pool with | 0 => r.aentry | 1 => r.bentry | _ => r.centry
            let u : Upcall := ⟨pool, x.slot, x.cslot, x.k, false⟩
            let s1 := (s.updWalkCore core (·.deliver pool x)).updWalk w.id fun y => { y with
              upa := if pool = 0 then y.upa + 1 else y.upa
              upb := if pool = 1 then y.upb + 1 else y.upb
              upc := if pool = 2 then y.upc + 1 else y.upc
              reraise := if x.again then y.reraise + 1 else y.reraise }
            s1.updTeam t.id.tid (·.upcallStart entry (upcallArgs w c pool x) (upcallWindow r c pool x) u)
          | _, _ => s)

/-! ### HCTL (spec/15 R259 to R261) -/

/-- A handler team back in its pool. -/
def Team.toPool (t : Team) : Team :=
  { t with
    ctl := { t.ctl with stack := [] }
    flow := { t.flow with group := .none, fetched := false, park := none, sw := false, upcall := none, hold := .poolIdle } }

/-- The outcome of an upcall for its slot (spec/13 R225). -/
def State.upcallEnd (s : State) (core : Nat) (u : Upcall) (st : HretStatus) (tile : Nat) : State :=
  match (s.core core).walk with
  | none => s
  | some w0 =>
    match s.walk? w0.walk with
    | none => s
    | some w =>
      let taint := u.taint || st == .skip
      if st = .fail then s.walkError w.id tile 0
      else if u.kind = 2 then
        let s1 := if taint then s.taintTile core u.slot w.id tile else s
        if taint ∧ w.rec_.taint = 1 then s1.walkError w.id tile 3 else s1.tileDone core u.slot w.id
      else s.slotReady core (u.kind == 1) u.slot taint

/-- `hctl.hret`: its group waits until nothing is outstanding (`Team.wordWaits`); a release at system scope; then the slot's outcome. -/
def execHctlHret (t : HretStatus) (s : State) : Host.Outcome State Fault Refusal :=
  run (.hctlHret t) s fun s =>
    s.releaseThen .sys fun s =>
      match s.me.flow.upcall with
      | none => s
      | some u => (s.setMe Team.toPool).upcallEnd s.me.core u t (s.upcallTile s.me)

/-- `hctl.htaint`. -/
def execHctlHtaint (s : State) : Host.Outcome State Fault Refusal :=
  run .hctlHtaint s fun s =>
    (s.setMe fun t => t.updFlow fun f => { f with upcall := f.upcall.map fun u => { u with taint := true } }).advance

/-- The walk that the team's core holds, if it is of the team's context. -/
def State.walkHere (s : State) : Option (WalkCore × Walk) :=
  match s.myWalk with
  | none => none
  | some w0 =>
    match s.walk? w0.walk with
    | some w => if w.ctx = s.me.id.ctx ∧ w.gen = s.me.id.gen then some (w0, w) else none
    | none => none

/-- `hctl.wstat`. -/
def execHctlWstat (d : SReg) (e : Fin 8) (s : State) : Host.Outcome State Fault Refusal :=
  run (.hctlWstat d e) s fun s =>
    s.putS d (match s.walkHere with
      | none => 0
      | some (w0, w) => BitVec.ofNat 64 (match e.val with
        | 0 => w0.starve
        | 1 => w0.upwait
        | 2 => w0.stalls
        | 3 => w0.gcomp
        | 4 => w0.gskip
        | 5 => w0.ksteps
        | 6 => w0.tiles
        | _ => w.wid.toNat))

/-- The first 40 bytes of a C slot's header (spec/13 R222). -/
def CSlot.bytes (c : CSlot) : List Byte :=
  leBytes 4 c.item ++ leBytes 4 c.trow ++ leBytes 4 c.tcol ++ leBytes 1 c.part ++ leBytes 1 c.state ++ leBytes 1 c.dtag ++
    leBytes 1 (c.taint.toNat + 2 * c.finish.toNat) ++ leBytes 4 c.kprog ++ leBytes 4 c.ksteps ++ leBytes 16 c.surv.toNat

/-- Whether a slot is the second of a pair. -/
def WalkCore.second (w : WalkCore) (i : Nat) : Bool := i % 2 == 1 && (w.slotOf (i - 1)).pair && (w.slotOf (i - 1)).state != 0

/-- Word w of a slot's header. What a free slot's header holds beside its state, and what the header of a pair's second slot
holds, the spec does not say: free values (log 19). -/
def State.headerWord (s : State) (w0 : WalkCore) (i w : Nat) : W64 × State :=
  let c := w0.slotOf i
  if w0.second i then
    let (x, s1) := s.draw
    (BitVec.ofNat 64 x, s1)
  else if c.state = 0 then
    let (x, s1) := s.draw
    let y := BitVec.ofNat 64 x
    (if w = 1 then y &&& 0xFFFF00FFFFFFFFFF else y, s1)
  else (BitVec.ofNat 64 (leNat ((c.bytes.drop (8 * w)).take 8)), s)

/-- `hctl.wpos`. -/
def execHctlWpos (d : SReg) (k w : Fin 64) (s : State) : Host.Outcome State Fault Refusal :=
  run (.hctlWpos d k w) s fun s =>
    match s.walkHere with
    | none => s.putS d 0
    | some (w0, _) =>
      if k.val = 4 then s.putS d (BitVec.ofNat 64 (w0.cursor % 2 ^ 32 + 2 ^ 32 * w0.items.length))
      else
        let (x, s1) := s.headerWord w0 k.val w.val
        s1.putS d x

end Sys2Proof.Machine
end

