-- ==== Sys2Proof/Machine/Images.lean ====
section
/-!
DEFINITION. Sys2Proof/Machine/Images.lean: signal waiters and their eviction; context images: team records, walk sections, Firn
chunks, their writing and their checks at restore (spec/08 R158; spec/10 R198; spec/12 R215; spec/23 R333 to R338).
-/
namespace Sys2Proof.Machine
open Sys2Proof

/-! ### Signal waiters (spec/10 R198, spec/12 R215) -/

/-- Whether a team's eligibility is held only by the pending destination of a wait, or by `tbar.tbwait`. -/
def State.signalWaiter (s : State) (t : Team) : Bool :=
  let only := t.regs.pendV == 0 && t.regs.pendS == bitsOf ((s.waitOps t).flatMap (·.ps))
  let held := match t.flow.hold with
    | .tbwait _ _ _ => true
    | .none => t.flow.sw && !t.quiet
    | _ => false
  t.placed && !t.isAgent && !t.ended && t.id.pool.isNone && !t.flow.group.open_ && t.flow.trapPend.isNone && t.flow.park.isNone &&
    only && held

/-- Cycles that a waiter has waited (log 20). -/
def State.waited (s : State) (t : Team) : Nat :=
  match t.flow.hold with
  | .tbwait _ _ since => s.coreCyc t.core - since
  | _ => s.coreCyc t.core - t.sch.last

/-- The raw size that placement reserves for a team, its trap extension counted (log 20), and for a walk core. -/
def teamRaw (m regs sregs : Nat) : Nat := 512 + 8 * (sregs + 1) + 512 + m * (512 + 128 * regs) + 512
def walkRaw : Nat := 256 + 65792 * 4

/-- The C slots of a walk core that are taken, a pair's second slot with its first. -/
def WalkCore.taken (w : WalkCore) : List Nat := (List.range 4).filter fun i => (w.slotOf i).state != 0 || w.second i

/-- The walk section of an image. -/
def State.walkSection (s : State) (core : Nat) (w : WalkCore) : List Byte :=
  let id := match s.walk? w.walk with | some x => x.wid.toNat | none => 0
  leBytes 4 w.cursor ++ leBytes 4 w.items.length ++ leBytes 4 id ++ leBytes 4 w.idx ++
    leBytes 1 (w.taken.foldl (fun n i => n + 2 ^ i) 0) ++ leBytes 1 w.fifoC.length ++ leBytes 14 0 ++
    ((List.range 4).flatMap fun i => match w.fifoC[i]? with
      | some x => leBytes 8 (x.slot + 2 ^ 8 * (w.slotOf x.slot).item)
      | none => leBytes 8 0) ++ leBytes 192 0 ++
    w.taken.flatMap fun i => (w.slotOf i).bytes ++ leBytes 216 0 ++ s.homeBytes (cKey core i 0) 65536

/-! ### Images (spec/23 R333, R334) -/

/-- Teams in ascending TEAMID. -/
def byTeamid (ts : List Team) : List Team :=
  ts.foldl (fun acc t => (acc.filter fun u => u.id.teamid.toNat ≤ t.id.teamid.toNat) ++
    t :: acc.filter fun u => !decide (u.id.teamid.toNat ≤ t.id.teamid.toNat)) []

/-- The image of one core of a queue, or of one evicted team, written into the save pool. -/
def State.saveImage (s : State) (kind ctx gen q core : Nat) (desc : W80) (ts : List Team) (anew : List Nat) (w : Option WalkCore) : State :=
  match s.ctx? ctx with
  | none => s
  | some c =>
    let teams := byTeamid ts
    let raw := teams.flatMap s.teamRecord ++ (match w with | some x => s.walkSection core x | none => [])
    let bs := contextBytes (leBytes 4 0x4E524946 ++ leBytes 2 1 ++ leBytes 1 kind ++ leBytes 1 0 ++ leBytes 4 ctx ++ leBytes 4 gen ++
      leBytes 16 desc.toNat) (leBytes 4 teams.length ++ leBytes 4 w.isSome.toNat ++ leBytes 8 c.energy ++ leBytes 8 s.time.timeb.toNat) raw
    let a := s.imagePlace c bs.length
    let s1 := s.homeStore 0xFFFFFFFF 0 a (keyed a bs)
    { s1 with images := s1.images ++ [⟨kind, ctx, gen, q, core, a, bs.length, teams.map (·.id.tid), anew, w⟩] }

/-- What a restore finds wrong with an image: nothing; a failing chunk; or a failing header (all-ones). -/
def State.imageFault (s : State) (im : Image) : Option Nat :=
  if s.headerFails im then some 0xFFFFFFFF
  else
    let cs := s.imageChunks im
    if cs.any (·.2) then some (cs.findIdx (·.2)) else none

/-- An image no longer kept. -/
def State.dropImage (s : State) (im : Image) : State := { s with images := s.images.filter fun i => !(i.ctx == im.ctx && i.addr == im.addr) }

/-- A failed restore marked in the header and reported (spec/23 R338). -/
def State.imageFailed (s : State) (im : Image) (k : Nat) : State :=
  ((s.homePut (im.addr + 7) 1 1).homePut (im.addr + 44) 4 k).report 6 0 im.core im.ctx im.gen k 0

/-! ### Eviction (spec/12 R215) -/

/-- Dirty sectors of a team written back before its save completes (spec/08 R158). -/
def State.flushTeam (s : State) (tid : Nat) : State := (s.writeBackAll false (s.dirtyOf tid)).1

/-- A team saved: its lanes are written by logical number (spec/12 R208). A team that is parked in the middle of its group finishes it under
the view that the group began with (spec/02 R33); any other fetches its next group again. -/
def Team.saveAs (t : Team) (p : Place) : Team := { t with place := p, flow := { t.flow with regath := none, fetched := t.flow.fetched && t.flow.group.open_ } }

/-- A signal waiter evicted: saved, its slot free, its wait still registered. -/
def State.evict (s : State) (tid : Nat) : State :=
  let s1 := s.flushTeam tid
  match s1.team? tid with
  | none => s1
  | some t =>
    let q := t.id.queue.getD 0
    let desc := match s1.queue? q with | some x => x.desc | none => 0
    (s1.saveImage 1 t.id.ctx t.id.gen q t.core desc [t] [] none).updTeam tid (·.saveAs .evicted)

/-- A team placed again: on a slot, with its pinned sectors in the new core's L1, of which it sees no clean sector older than its
own accesses. -/
def State.placeTeam (s : State) (tid core sched slot : Nat) : State :=
  let s1 : State := { s with dirty := s.dirty.map fun d => if d.tid = tid then { d with core := core } else d }
  (s1.updTeam tid fun t => { t with place := .on core sched slot, sch := ⟨s.coreCyc core, 0, none, none⟩ }).acquire core .sys

end Sys2Proof.Machine
end

