-- ==== Sys2Proof/Machine/Agents.lean ====
section
/-!
DEFINITION. Sys2Proof/Machine/Agents.lean: what the firmware agents read of a bundle and how they place it: packets and
records, their checks, placement with its trials, wait eviction and restore, start times (spec/03 R65; spec/12 R200, R214,
R215; spec/13 R217, R218, R220, R224; spec/14 R236 to R243; spec/22 R329; spec/23 R333).
-/
namespace Sys2Proof.Machine
open Sys2Proof

/-! ### Records (spec/03 R65; spec/13 R217; spec/14 R241) -/

/-- A sub-launch record. -/
def parseSub (b : List Byte) : SubRec where
  kind := fieldAt b 0 1
  tpc := fieldAt b 1 1
  cores := fieldAt b 2 2
  cstore := fieldAt b 4 4
  obj := BitVec.ofNat 80 (fieldAt b 24 10)
  live := fieldAt b 40 2
  cluster := fieldAt b 42 2
  arg := BitVec.ofNat 64 (fieldAt b 48 8)

/-- Whether a sub-launch record is out of range or has a non-zero reserved field (log 22). -/
def subBad (b : List Byte) : Bool :=
  let r := parseSub b
  decide (3 < r.kind) || fieldAt b 18 6 != 0 || fieldAt b 34 6 != 0 || fieldAt b 44 4 != 0 || fieldAt b 56 8 != 0 ||
  (match r.kind with
    | 0 => r.tpc == 0 || decide (32 < r.tpc) || r.cores == 0 || decide (8 < r.cores)
    | 1 => r.tpc != 0 || r.live != 0 || r.cores == 0 || decide (256 < r.cores) || (r.cluster != 0xFFFF && decide (8 < r.cores))
    | 2 => r.tpc != 0 || r.live != 0 || r.cores == 0 || decide (4 < r.cores) || r.obj != 0
    | _ => r.tpc != 0 || r.live != 0 || r.cores != 0) ||
  (r.kind != 3 && r.cluster != 0xFFFF && decide (31 < r.cluster))

/-- A walk record, with the snapshots of its tensor layout records still to be read. -/
def parseWalk (b : List Byte) : WalkRec where
  m := fieldAt b 0 4
  n := fieldAt b 4 4
  k := fieldAt b 8 4
  afmt := fieldAt b 12 1
  bfmt := fieldAt b 13 1
  order := fieldAt b 14 1
  band := fieldAt b 15 1
  tileM := fieldAt b 16 2
  tileN := fieldAt b 18 2
  assign := fieldAt b 20 1
  splitk := fieldAt b 21 1
  finish := fieldAt b 22 1
  look := fieldAt b 23 1
  inflight := fieldAt b 24 1
  prio := fieldAt b 25 1
  flags := fieldAt b 26 1
  taint := fieldAt b 27 1
  asrc := fieldAt b 28 1
  bsrc := fieldAt b 29 1
  csink := fieldAt b 30 1
  aentry := BitVec.ofNat 64 (fieldAt b 32 8)
  bentry := BitVec.ofNat 64 (fieldAt b 40 8)
  centry := BitVec.ofNat 64 (fieldAt b 48 8)
  apool := fieldAt b 56 2
  bpool := fieldAt b 58 2
  cpool := fieldAt b 60 2
  atlr := BitVec.ofNat 80 (fieldAt b 64 10)
  btlr := BitVec.ofNat 80 (fieldAt b 80 10)
  ctlr := BitVec.ofNat 80 (fieldAt b 96 10)
  htab := BitVec.ofNat 80 (fieldAt b 112 10)
  signal := BitVec.ofNat 80 (fieldAt b 128 10)
  crec := BitVec.ofNat 80 (fieldAt b 144 10)
  kbuf := BitVec.ofNat 80 (fieldAt b 160 10)
  stall := fieldAt b 176 8
  asnap := []
  bsnap := []
  csnap := []

/-- What the agents read of a kernel's metadata: the kernel, its width, its cluster store bytes, its handler entries. -/
structure Meta where
  kernel  : Kernel
  width   : Nat
  cstore  : Nat
  entries : List (W64 × Nat)
  deriving DecidableEq, Repr

/-- A kernel's metadata read through its context's translation, with its trap table of 11 entries (spec/03 R65, R66); `table` is its handler
table's address, or none. -/
def State.readMeta (s : State) (ctx gen : Nat) (va : W80) (table : Option W80) : Option Meta :=
  match s.recBytes ctx gen va.toNat 64 with
  | none => none
  | some b =>
    if (s.recBytes ctx gen (va + BitVec.ofNat 80 (fieldAt b 24 4)).toNat 88).isNone then none
    else
    let kernel : Kernel := ⟨va, BitVec.ofNat 64 (fieldAt b 0 8), fieldAt b 14 1, fieldAt b 15 1, flag (fieldAt b 17 1) 0,
      flag (fieldAt b 17 1) 1, fieldAt b 24 4⟩
    match table with
    | none => some ⟨kernel, fieldAt b 12 2, fieldAt b 20 4, []⟩
    | some t =>
      match s.recBytes ctx gen t.toNat (16 * fieldAt b 18 2) with
      | none => none
      | some es =>
        some ⟨kernel, fieldAt b 12 2, fieldAt b 20 4, (List.range (fieldAt b 18 2)).map fun i =>
          (BitVec.ofNat 64 (fieldAt es (16 * i) 8), fieldAt es (16 * i + 8) 1)⟩

/-- The metadata of the kernel whose handler table a walk names: 160 bytes below the table. -/
def State.walkMeta (s : State) (ctx gen : Nat) (r : WalkRec) : Option Meta :=
  if r.htab = 0 then none else s.readMeta ctx gen (r.htab - 160) (some r.htab)

/-- Bytes of a walk's records as the agents read them when they claim a bundle: through translation, or in the store of a cluster, at an offset
from its start, since the bundle has no allocation yet (spec/13 R217; log 22). -/
def State.claimBytes (s : State) (ctx gen cluster va n : Nat) : Option (List Byte) :=
  if va / 2 ^ 64 = 0xFFFF then
    if va % 2 ^ 64 + n ≤ 2 ^ 23 then some (s.homeBytes (cstoreKey cluster (va % 2 ^ 64)) n) else none
  else s.recBytes ctx gen va n

/-- The cluster whose store a sub-launch's records may lie in: the one it names, or that of the agent that holds the ticket. -/
def Queue.claimCluster (q : Queue) (r : SubRec) : Nat :=
  if r.cluster = 0xFFFF then ((q.tickets.find? (·.2 == q.next)).getD (0, 0)).1 / 8 else r.cluster

/-- A walk record with the snapshots of the layout records that it uses. -/
def State.withSnaps (s : State) (ctx gen cluster : Nat) (r : WalkRec) : WalkRec :=
  let read (used : Bool) (va : W80) : List Byte :=
    if used then (s.claimBytes ctx gen cluster va.toNat 128).getD [] else []
  { r with asnap := read (r.asrc == 1) r.atlr, bsnap := read (r.bsrc == 1) r.btlr, csnap := read (r.csink == 1) r.ctlr }

/-- Rows of a scheduler's register file that a team takes (spec/12 R200). -/
def rowsFor (width regs : Nat) : Nat := width / 32 * regs

/-- Whether a kernel's width and register count can be placed at all (spec/02 R40, spec/12 R200; log 22). -/
def kernelFits (width regs : Nat) : Bool :=
  [32, 64, 128, 256, 512, 1024].contains width && decide (16 ≤ regs) && decide (regs ≤ 64) && regs % 8 == 0 && decide (rowsFor width regs ≤ 1024)

/-! ### What is reserved (spec/14 R242) -/

/-- What is taken: team slots as core, scheduler, slot and rows; cores whose walk engine is held; stream engines; cluster store
as cluster, offset and bytes; and what the bundle in placement needs of it, as cluster and bytes. -/
structure Occ where
  slots   : List (Nat × Nat × Nat × Nat)
  walks   : List Nat
  engines : List (Nat × Nat)
  stores  : List (Nat × Nat × Nat)
  need    : List (Nat × Nat)
  deriving DecidableEq, Repr

/-- Nothing taken. -/
def Occ.empty : Occ := ⟨[], [], [], [], []⟩

/-- The slot of a placed team. -/
def Team.slotTaken (t : Team) : Option (Nat × Nat × Nat × Nat) :=
  match t.place with
  | .on c sc k => some (c, sc, k, t.id.m * t.id.kernel.regs)
  | _ => none

/-- What is taken now, except by the teams of a list and by all that one queue's work holds. A bundle keeps its walk engines,
stream engines and cluster store until it retires; a queue that is away holds no walk engine. -/
def State.occ (s : State) (skip : Option Nat) (gone : List Nat) : Occ where
  slots := (s.all.filter fun t => !gone.contains t.id.tid && (skip.isNone || t.id.queue != skip)).filterMap Team.slotTaken
  walks := (s.bundles.filter fun b => b.phase != 0 && some b.queue != skip &&
      s.queues.any fun q => q.id == b.queue && q.resident).flatMap fun b =>
        (b.subs.filter fun x => x.rec_.kind == 1).flatMap (·.cores)
  engines := (s.bundles.filter fun b => b.phase != 0 && some b.queue != skip).flatMap fun b => b.subs.flatMap (·.engines)
  stores := (s.bundles.filter fun b => b.phase != 0 && some b.queue != skip).flatMap (·.cstores)
  need := []

/-- The lowest scheduler of a core with a free slot and enough free rows, and its lowest free slot. -/
def Occ.slotFor (o : Occ) (core rows : Nat) : Option (Nat × Nat) :=
  (List.range 4).findSome? fun sc =>
    let here := o.slots.filter fun x => x.1 == core && x.2.1 == sc
    if (here.map (·.2.2.2)).sum + rows ≤ 1024 then
      ((List.range 8).find? fun k => !here.any (·.2.2.1 == k)).map fun k => (sc, k)
    else none

/-- `n` teams placed on a core, in ascending index. -/
def Occ.takeTeams (core rows : Nat) : Nat → Occ → Option (List (Nat × Nat) × Occ)
  | 0, o => some ([], o)
  | n + 1, o =>
    match o.slotFor core rows with
    | none => none
    | some (sc, k) =>
      match Occ.takeTeams core rows n { o with slots := (core, sc, k, rows) :: o.slots } with
      | none => none
      | some (ps, o1) => some ((sc, k) :: ps, o1)

/-- Where `n` bytes of a cluster's store are free: the lowest multiple of 256 (log 22). -/
def Occ.storeAt (o : Occ) (cluster n : Nat) : Option Nat :=
  let taken := o.stores.filter (·.1 == cluster)
  let starts := 0 :: taken.map fun x => (x.2.1 + x.2.2 + 255) / 256 * 256
  let ok (a : Nat) : Bool := decide (a + n ≤ 2 ^ 23) && taken.all fun x => decide (a + n ≤ x.2.1) || decide (x.2.1 + x.2.2 ≤ a)
  (starts.filter ok).foldl (fun b a => match b with | none => some a | some x => some (min x a)) none

/-- What a bundle needs of a cluster's store so far. -/
def Occ.needOf (o : Occ) (cluster : Nat) : Nat := match o.need.find? (·.1 == cluster) with | some x => x.2 | none => 0

/-- A need of a cluster's store recorded: the largest of the bundle's counts; none if it cannot be met. -/
def Occ.needStore (o : Occ) (cluster n : Nat) : Option Occ :=
  let m := max n (o.needOf cluster)
  if (o.storeAt cluster m).isSome then some { o with need := (cluster, m) :: o.need.filter (·.1 != cluster) } else none

/-- The lowest free stream engine of a cluster. -/
def Occ.engine (o : Occ) (cluster : Nat) : Option Nat := (List.range 4).find? fun e => !o.engines.contains (cluster, e)

/-- `n` stream engines of a cluster taken. -/
def Occ.takeEngines (cluster : Nat) : Nat → Occ → Option (List (Nat × Nat) × Occ)
  | 0, o => some ([], o)
  | n + 1, o =>
    match o.engine cluster with
    | none => none
    | some e =>
      match Occ.takeEngines cluster n { o with engines := (cluster, e) :: o.engines } with
      | none => none
      | some (es, o1) => some ((cluster, e) :: es, o1)

/-! ### Cores of a queue (spec/14 R236; spec/18 R288; spec/22 R329) -/

/-- Whether a core is present, powered and in a partition. -/
def State.coreIn (s : State) (part core : Nat) : Bool :=
  s.fuses.coren.getLsbD core && !s.unpowered.contains (0, core) &&
    (match s.parts[core / 8 % 32]'(Nat.mod_lt _ (by decide)) with | some p => p.val == part | none => false)

/-- The cores that a queue's work may use, ascending. -/
def State.coresOf (s : State) (q : Queue) : List Nat :=
  (List.range 256).filter fun c => q.cmask.getLsbD c && s.coreIn (s.partOf q.ctx) c

/-! ### Plans (spec/13 R220, R224; spec/14 R242) -/

/-- A team to be placed: its slot, the index of its core in the sub-launch, its index there, its pool kind. -/
structure Put where
  core : Nat
  sched : Nat
  slot : Nat
  idx  : Nat
  k    : Nat
  kind : Nat
  deriving DecidableEq, Repr

/-- What one sub-launch takes. -/
structure Plan where
  puts    : List Put
  cores   : List Nat
  engines : List (Nat × Nat)
  deriving DecidableEq, Repr

/-- The teams of one pool on a core. -/
def putsOf (core idx kind : Nat) (ps : List (Nat × Nat)) : List Put :=
  ps.zipIdx.map fun ((sc, k), i) => ⟨core, sc, k, idx, i, kind⟩

/-- The first `c` cores of a list that can each hold `k` teams. -/
def gangCores (rows k : Nat) : List Nat → Nat → Plan → Occ → Option (Plan × Occ)
  | _, 0, p, o => some (p, o)
  | [], _ + 1, _, _ => none
  | core :: cs, c + 1, p, o =>
    match Occ.takeTeams core rows k o with
    | some (ps, o1) => gangCores rows k cs c { p with puts := p.puts ++ putsOf core p.cores.length 0 ps, cores := p.cores ++ [core] } o1
    | none => gangCores rows k cs (c + 1) p o

/-- A gang on the lowest-numbered cluster that can hold it whole. -/
def planGang (cs : List Nat) (x : Sub) (o : Occ) : Option (Plan × Occ) :=
  let rows := rowsFor x.width (match x.kernel with | some k => k.regs | none => 0)
  let clusters := if x.rec_.cluster = 0xFFFF then List.range 32 else [x.rec_.cluster]
  clusters.findSome? fun cl =>
    match o.needStore cl x.rec_.cstore with
    | none => none
    | some o1 => gangCores rows x.rec_.tpc (cs.filter (· / 8 == cl)) x.rec_.cores ⟨[], [], []⟩ o1

/-- The handler pools of a walk on each core: kind and teams. -/
def WalkRec.pools (r : WalkRec) : List (Nat × Nat) :=
  (if r.asrc = 0 then [(0, r.apool)] else []) ++ (if r.bsrc = 0 then [(1, r.bpool)] else []) ++
    (if r.csink = 0 then [(2, r.cpool)] else [])

/-- A walk's pools placed on one core. -/
def poolPuts (core idx rows : Nat) : List (Nat × Nat) → Occ → Option (List Put × Occ)
  | [], o => some ([], o)
  | (kind, n) :: rest, o =>
    match Occ.takeTeams core rows n o with
    | none => none
    | some (ps, o1) =>
      match poolPuts core idx rows rest o1 with
      | none => none
      | some (qs, o2) => some (putsOf core idx kind ps ++ qs, o2)

/-- A walk's pools placed on every core. -/
def walkPuts (rows : Nat) (pools : List (Nat × Nat)) : List (Nat × Nat) → Occ → Option (List Put × Occ)
  | [], o => some ([], o)
  | (core, idx) :: rest, o =>
    match poolPuts core idx rows pools o with
    | none => none
    | some (ps, o1) =>
      match walkPuts rows pools rest o1 with
      | none => none
      | some (qs, o2) => some (ps ++ qs, o2)

/-- Whether any operand or the result of a walk is a stream. -/
def WalkRec.streams (r : WalkRec) : Bool := r.asrc == 1 || r.bsrc == 1 || r.csink == 1

/-- What a walk takes in each of its clusters. -/
def walkClusters (streams : Bool) (cstore : Nat) : List Nat → Occ → Option (List (Nat × Nat) × Occ)
  | [], o => some ([], o)
  | cl :: rest, o =>
    match o.needStore cl cstore with
    | none => none
    | some o1 =>
      match Occ.takeEngines cl (if streams then 1 else 0) o1 with
      | none => none
      | some (es, o2) =>
        match walkClusters streams cstore rest o2 with
        | none => none
        | some (fs, o3) => some (es ++ fs, o3)

/-- A walk on the lowest-numbered cores whose engine is free. -/
def planWalk (cs : List Nat) (x : Sub) (r : WalkRec) (o : Occ) : Option (Plan × Occ) :=
  let cores := (cs.filter fun c => (x.rec_.cluster == 0xFFFF || c / 8 == x.rec_.cluster) && !o.walks.contains c).take x.rec_.cores
  if cores.length < x.rec_.cores then none
  else
    match walkPuts (rowsFor x.width (match x.kernel with | some k => k.regs | none => 0)) r.pools cores.zipIdx o with
    | none => none
    | some (ps, o1) =>
      match walkClusters r.streams x.rec_.cstore (distinct (cores.map (· / 8))) { o1 with walks := cores ++ o1.walks } with
      | none => none
      | some (es, o2) => some (⟨ps, cores, es⟩, o2)

/-- A stream sub-launch on the lowest-numbered cluster that has the engines free; its store must fit there (spec/14 R242). -/
def planStream (cs : List Nat) (x : Sub) (o : Occ) : Option (Plan × Occ) :=
  let clusters := if x.rec_.cluster = 0xFFFF then List.range 32 else [x.rec_.cluster]
  match clusters.findSome? fun cl =>
      if cs.any (· / 8 == cl) then (Occ.takeEngines cl x.rec_.cores o).map fun r => (cl, r) else none with
  | none => none
  | some (cl, es, o1) => (o1.needStore cl x.rec_.cstore).map fun o2 => (⟨[], [], es⟩, o2)

/-- One sub-launch: its teams and walks on `cs`, its streams in the clusters of `all`. -/
def planSub (cs all : List Nat) (x : Sub) (o : Occ) : Option (Plan × Occ) :=
  match x.rec_.kind, x.walk with
  | 0, _ => planGang cs x o
  | 1, some r => planWalk cs x r o
  | 2, _ => planStream all x o
  | _, _ => some (⟨[], [], []⟩, o)

/-- A bundle's sub-launches, in the order of their chain (log 22). -/
def planAll (cs all : List Nat) : List Sub → Occ → Option (List Plan × Occ)
  | [], o => some ([], o)
  | x :: xs, o =>
    match planSub cs all x o with
    | none => none
    | some (p, o1) =>
      match planAll cs all xs o1 with
      | none => none
      | some (ps, o2) => some (p :: ps, o2)

/-! ### The save pool (spec/23 R333, R336) -/

/-- Teams in the order of a test. -/
def sortTeams (lt : Team → Team → Bool) (ts : List Team) : List Team :=
  ts.foldl (fun acc t => (acc.filter fun u => !lt t u) ++ t :: acc.filter fun u => lt t u) []

/-- The raw bytes that a sub-launch's images may need. -/
def Sub.raw (x : Sub) : Nat :=
  match x.kernel, x.walk with
  | some k, some r => x.rec_.cores * ((r.pools.map (·.2)).sum * teamRaw (x.width / 32) k.regs k.sregs + walkRaw)
  | none, some _ => x.rec_.cores * walkRaw
  | some k, none => x.rec_.cores * x.rec_.tpc * teamRaw (x.width / 32) k.regs k.sregs
  | none, none => 0

/-- Whether the save pool of a queue's context has room for a bundle, with what one queue's bundles hold left out. -/
def State.poolFits (s : State) (q : Queue) (b : Bundle) (skip : Option Nat) : Bool :=
  match s.ctx? q.ctx with
  | none => false
  | some c =>
    let held := c.poolUsed.filter fun x => skip.isNone || !s.bundles.any fun y => y.id == x.1 && some y.queue == skip
    decide ((held.map (·.2)).sum + (b.subs.map Sub.raw).sum ≤ c.poolLen)

/-- The evicted teams whose waits have completed and whose queues are resident, in the order in which the waits completed. -/
def State.readyTeams (s : State) : List Team :=
  sortTeams (fun t u => decide (t.sch.ready.getD 0 < u.sch.ready.getD 0)) (s.all.filter fun t =>
    t.place == .evicted && !t.ended && t.sch.ready.isSome &&
      (match t.id.queue with | some q => s.queues.any fun x => x.id == q && x.resident && !x.saving | none => false))

/-- The image of an evicted team. -/
def State.imageOf (s : State) (tid : Nat) : Option Image := s.images.find? fun i => i.kind == 1 && i.tids == [tid]

/-- The cores on which a ready team may be restored: those of its cluster that its queue's core mask allows (spec/12 R215). -/
def State.restoreCores (s : State) (t : Team) : List Nat :=
  match s.imageOf t.id.tid, t.id.queue.bind s.queue? with
  | some im, some q => (s.coresOf q).filter (· / 8 == im.core / 8)
  | _, _ => []

/-- The cores of a queue on which no ready team waits to be restored: restores go ahead of any new placement (spec/12 R215). -/
def State.freeCores (s : State) (q : Queue) : List Nat :=
  (s.coresOf q).filter fun c => !s.readyTeams.any fun t => (s.restoreCores t).contains c

/-- The plan of a bundle, with one queue's holdings or some teams left out. -/
def State.plan (s : State) (q : Queue) (b : Bundle) (skip : Option Nat) (gone : List Nat) : Option (List Plan × Occ) :=
  if s.poolFits q b skip then planAll (s.freeCores q) (s.coresOf q) b.subs (s.occ skip gone) else none

/-! ### Checks of a bundle (spec/13 R218; spec/14 R240, R241) -/

/-- Whether a layout record's snapshot is not what a walk needs: rows, columns, and for an operand its format. -/
def snapBad (b : List Byte) (k rows : Nat) (fmt : Option Nat) (haar : Bool) : Bool :=
  let t := parseTlr b
  decide (b.length ≠ 128) || tlrBad b || t.extent 0 != k || t.extent 1 != rows || (!haar && t.depth != 0) ||
  (match fmt with | some f => fieldAt b 16 1 != f | none => false)

/-- The pool that does not fit beside those before it, on an empty core. -/
def poolBad (rows : Nat) (fits : Bool) : List (Nat × Nat) → Occ → Option Nat
  | [], _ => none
  | (kind, n) :: rest, o =>
    match Occ.takeTeams 0 rows n o with
    | some (_, o1) => if fits then poolBad rows fits rest o1 else some kind
    | none => some kind

/-- The reporting field of the first failing condition of a walk record, conditions in ascending field offset (spec/13 R218).
A handler-sourced operand whose k is no multiple of its block or group passes: R218's table has no such condition (DESIGN CHOICE
between it and spec/04 R78 and R80; log 22). -/
def walkBad (b : List Byte) (r : WalkRec) (meta_ : Option Meta) (c : Nat) : Option Nat :=
  let ha := r.asrc == 0
  let hb := r.bsrc == 0
  let hc := r.csink == 0
  let entryBad (used : Bool) (e : W64) (kind : Nat) : Bool :=
    used && !(match meta_ with | some m => m.entries.contains (e, kind) | none => false)
  let poolRange (used : Bool) (n : Nat) : Bool := used && (n == 0 || decide (32 < n))
  let full : Option Nat :=
    match meta_ with
    | some m => poolBad (rowsFor m.width m.kernel.regs) (kernelFits m.width m.kernel.regs) r.pools .empty
    | none => none
  let high (off : Nat) : Bool := fieldAt b (off + 10) 6 != 0
  let resv (lo n : Nat) : List (Nat × Bool) := (List.range n).map fun i => (lo + i, fieldAt b (lo + i) 1 != 0)
  let conds : List (Nat × Bool) :=
    [(0, r.m == 0 || r.m % 16 != 0), (4, r.n == 0 || r.n % 16 != 0), (8, r.k == 0),
     (12, flag r.afmt 7 || !legalPair (fmtPart r.afmt) (modePart r.afmt)),
     (13, flag r.bfmt 7 || !legalPair (fmtPart r.bfmt) (modePart r.bfmt) || !pairLegal r.afmt r.bfmt),
     (14, decide (2 < r.order)), (15, r.band == 0 || decide (16 < r.band) || (r.band != 1 && r.order != 2)),
     (16, decide (r.tileM < 64) || decide (256 < r.tileM) || r.tileM % 16 != 0),
     (18, decide (r.tileN < 64) || decide (128 < r.tileN) || r.tileN % 16 != 0),
     (20, decide (1 < r.assign)),
     (21, r.splitk == 0 || decide (16 < r.splitk) || decide (c < r.splitk) ||
       (r.assign == 0 && decide (1 < r.splitk) && c % r.splitk != 0)),
     (22, decide (1 < r.finish)), (23, r.look == 0 || decide (7 < r.look)), (24, r.inflight == 0 || decide (4 < r.inflight)),
     (25, decide (127 < r.prio)), (26, r.flags / 8 != 0 || !flag r.flags 0), (27, decide (1 < r.taint)),
     (28, decide (1 < r.asrc)), (29, decide (1 < r.bsrc)), (30, decide (1 < r.csink))] ++ resv 31 1 ++
    [(32, entryBad ha r.aentry 0), (40, entryBad hb r.bentry 1), (48, entryBad hc r.centry 2),
     (56, poolRange ha r.apool || full == some 0), (58, poolRange hb r.bpool || full == some 1),
     (60, poolRange hc r.cpool || full == some 2)] ++ resv 62 2 ++
    [(64, r.asrc == 1 && (high 64 || snapBad r.asnap r.k r.m (some r.afmt) (r.tileM == 128))),
     (80, r.bsrc == 1 && (high 80 || snapBad r.bsnap r.k r.n (some r.bfmt) false)),
     (96, r.csink == 1 && (high 96 || snapBad r.csnap r.k r.n none true)),
     (112, (ha || hb || hc) && high 112), (128, r.signal == 0 || high 128), (144, r.crec == 0 || high 144),
     (160, decide (1 < r.splitk) && (r.kbuf == 0 || high 160))] ++ resv 184 72
  (conds.find? (·.2)).map (·.1)

/-- A sub-launch as the agents read it. -/
inductive ReadSub where
  | bad
  | badWalk (r : WalkRec) (off : Nat)
  | ok (x : Sub)
  deriving DecidableEq, Repr

/-- A sub-launch not placed yet. -/
def Sub.fresh (r : SubRec) (kernel : Option Kernel) (width : Nat) (walk : Option WalkRec) : Sub :=
  ⟨r, kernel, width, walk, 0, none, [], [], false, false, false⟩

/-- A gang's record. -/
def State.readGang (s : State) (q : Queue) (r : SubRec) : ReadSub :=
  match s.readMeta q.ctx q.gen r.obj none with
  | none => .bad
  | some m =>
    if ¬ kernelFits m.width m.kernel.regs ∨ m.width < r.live then .bad
    else .ok (Sub.fresh { r with cstore := max r.cstore m.cstore } (some m.kernel) m.width none)

/-- A walk's record. -/
def State.readWalk (s : State) (q : Queue) (r : SubRec) : ReadSub :=
  match s.claimBytes q.ctx q.gen (q.claimCluster r) r.obj.toNat 256 with
  | none => .bad
  | some b =>
    if r.obj.toNat % 256 ≠ 0 then .bad
    else
      let w := s.withSnaps q.ctx q.gen (q.claimCluster r) (parseWalk b)
      let handlers := w.asrc == 0 || w.bsrc == 0 || w.csink == 0
      let m := if handlers then s.walkMeta q.ctx q.gen w else none
      match walkBad b w m r.cores with
      | some off => .badWalk w off
      | none =>
        .ok (Sub.fresh { r with cstore := max r.cstore (match m with | some x => x.cstore | none => 0) }
          (m.map (·.kernel)) (match m with | some x => x.width | none => 0) (some w))

/-- A record read; one that no set of enabled cores of the queue could ever hold is bad (spec/22 R329). -/
def State.readSub (s : State) (q : Queue) (b : List Byte) : ReadSub :=
  let r := parseSub b
  if subBad b then .bad
  else
    let x : ReadSub :=
      match r.kind with
      | 0 => s.readGang q r
      | 1 => s.readWalk q r
      | _ => .ok (Sub.fresh r none 0 none)
    match x with
    | .ok y => if (planSub (s.coresOf q) (s.coresOf q) y .empty).isSome then x else .bad
    | _ => x

/-- The records of a chain that can be read, from an address on, until it ends, breaks off or comes back to a record that it has named; and
whether it ended with every record aligned. `n` bounds the number of records: one for each address that a context can hold. -/
def State.chain (s : State) (q : Queue) : Nat → List Nat → Nat → List (List Byte) × Bool
  | 0, _, va => ([], va == 0)
  | n + 1, seen, va =>
    if va = 0 then ([], true)
    else if seen.contains va then ([], false)
    else
      match s.recBytes q.ctx q.gen va 64 with
      | none => ([], false)
      | some b =>
        let (bs, ok) := s.chain q n (va :: seen) (fieldAt b 8 10)
        (b :: bs, ok && va % 64 == 0)

/-- The signals that readable records name (spec/14 R240); a walk's zero signal is left to R218 (log 22). -/
def State.recSignals (s : State) (q : Queue) (bs : List (List Byte)) : List W80 :=
  bs.flatMap fun b =>
    let r := parseSub b
    match r.kind with
    | 3 => [r.obj]
    | 1 =>
      match s.claimBytes q.ctx q.gen (q.claimCluster r) (r.obj.toNat + 128) 10 with
      | some x => if leNat x = 0 then [] else [BitVec.ofNat 80 (leNat x)]
      | none => []
    | _ => []

/-! ### Commit (spec/14 R242, R243; spec/20 R301) -/

/-- TEAMID of a slot at a team's first placement. -/
def teamidOf (core sched slot : Nat) : W64 := BitVec.ofNat 64 (core * 32 + sched * 8 + slot)

/-- A team at its start, in a slot, not eligible yet (spec/02 R41). -/
def newTeam (id : Ident) (place : Place) (cyc : Nat) : Team where
  id := id
  place := place
  regs := .start id.m
  ctl := { pc := id.kernel.entry, word := 0, em := id.live, stack := [], asideEm := 0, aside := [], level := .user,
           srstate := srInit id.teamid, trap := .zero,
           trapbase := id.kernel.meta_.setWidth 64 + BitVec.ofNat 64 id.kernel.traptab }
  flow := { Flow.start with hold := .unstarted }
  sch := ⟨cyc, 0, none, none⟩

/-- The registers s0 to s3 of a gang team (spec/14 R243). -/
def Team.withArgs (t : Team) : Team := t.id.args.zipIdx.foldl (fun t (x, i) => t.setS (Fin.ofNat 64 i) x) t

/-- The lanes 0 to n - 1; all of a width for 0. -/
def liveMask (width n : Nat) : Mask := BitVec.ofNat 1024 (2 ^ (if n = 0 then width else n) - 1)

/-- The gang team of a put. -/
def gangTeam (q : Queue) (b : Bundle) (i : Nat) (x : Sub) (k : Kernel) (gang tid cyc : Nat) (p : Put) : Team :=
  Team.withArgs (newTeam
    { tid := tid, teamid := teamidOf p.core p.sched p.slot, m := x.width / 32, ctx := q.ctx, gen := q.gen, kernel := k,
      queue := some q.id, bundle := some b.id, sub := i, gang := some gang, prio := q.prio,
      args := [b.arg, x.rec_.arg, BitVec.ofNat 64 p.idx, BitVec.ofNat 64 p.k], live := liveMask x.width x.rec_.live, pool := none }
    (.on p.core p.sched p.slot) cyc)

/-- The handler team of a put. -/
def poolTeam (q : Queue) (b : Bundle) (i : Nat) (x : Sub) (k : Kernel) (prio walk tid cyc : Nat) (p : Put) : Team :=
  newTeam
    { tid := tid, teamid := teamidOf p.core p.sched p.slot, m := x.width / 32, ctx := q.ctx, gen := q.gen, kernel := k,
      queue := some q.id, bundle := some b.id, sub := i, gang := none, prio := prio, args := [], live := liveMask x.width 0,
      pool := some ⟨walk, p.kind⟩ }
    (.on p.core p.sched p.slot) cyc

/-- A walk id that is not zero and that no live walk has (spec/13 R224; log 4). -/
def State.freshWid (s : State) : BitVec 32 :=
  let x := Config.walkId s.fresh
  let tries := (List.range (s.walks.length + 2)).map fun i => x + BitVec.ofNat 32 i
  (tries.find? fun y => y != 0 && !s.walks.any (·.wid == y)).getD 1

/-- A walk not begun. -/
def newWalk (id : Nat) (wid : BitVec 32) (q : Queue) (b i : Nat) (r : WalkRec) (k : Kernel) (cores : List Nat) : Walk where
  id := id
  wid := wid
  ctx := q.ctx
  gen := q.gen
  queue := q.id
  bundle := b
  sub := i
  rec_ := r
  kernel := k
  cores := cores
  tiles := 0
  tainted := 0
  ftaint := none
  tTiles := []
  flushed := []
  upa := 0
  upb := 0
  upc := 0
  reraise := 0
  gcomp := 0
  gskip := 0
  stalls := 0
  starve := 0
  upwait := 0
  err := none
  ended := false

/-- The teams of a plan added. -/
def State.addTeams (s : State) (make : Nat → Put → Team) (ps : List Put) : State :=
  ps.foldl (fun s p => { s with teams := s.teams ++ [make s.nextId p], nextId := s.nextId + 1 }) s

/-- One sub-launch of a placed bundle. -/
def State.commitSub (s : State) (q : Queue) (b : Bundle) (i : Nat) (x : Sub) (p : Plan) : State × Sub :=
  let k := x.kernel.getD .zero
  match x.rec_.kind, x.walk with
  | 0, _ =>
    let (gid, s1) := s.newId
    let s2 := s1.addTeams (fun tid p => gangTeam q b i x k gid tid (s.coreCyc p.core) p) p.puts
    ({ s2 with gangs := s2.gangs ++ [⟨gid, 0⟩] }, { x with gang := gid, cores := p.cores })
  | 1, some r =>
    let (wid, s1) := s.newId
    let w := newWalk wid s.freshWid q b.id i r k p.cores
    let s2 := (p.cores.foldl State.unbindWindows s1).addTeams (fun tid p => poolTeam q b i x k r.prio wid tid (s.coreCyc p.core) p) p.puts
    ({ s2 with walks := s2.walks ++ [w], fresh := s2.fresh + 1 },
      { x with walkId := some wid, cores := p.cores, engines := p.engines })
  | _, _ => (s, { x with engines := p.engines })

/-- Every sub-launch of a placed bundle. -/
def State.commitSubs (s : State) (q : Queue) (b : Bundle) : List (Sub × Nat) → List Plan → State × List Sub
  | (x, i) :: xs, p :: ps =>
    let (s1, y) := s.commitSub q b i x p
    let (s2, ys) := s1.commitSubs q b xs ps
    (s2, y :: ys)
  | _, _ => (s, [])

/-- TIMEB in nanoseconds. -/
def State.timeB (s : State) : Nat := s.time.timeb.toNat

/-- The start time of a bundle placed now (spec/14 R243). -/
def startTime (q : Queue) (b : Bundle) (now : Nat) : Nat :=
  let soon := now + 1000
  match q.spolicy with
  | 0 => soon
  | 1 => if b.start = 0 then soon else max b.start.toNat soon
  | _ => if b.start = 0 then soon else b.start.toNat

/-- A bundle placed as planned: its teams, walks and allocations, and its start time. -/
def State.commit (s : State) (q : Queue) (b : Bundle) (ps : List Plan) (o : Occ) : State :=
  let (s1, subs) := s.commitSubs q b b.subs.zipIdx ps
  let stores := (o.need.filter (·.2 != 0)).filterMap fun (cl, n) => (o.storeAt cl n).map fun a => (cl, a, n)
  let s2 := s1.updBundle b.id fun x => { x with
    subs := subs, phase := 1, startAt := startTime q b s.timeB, cstores := stores, placedAt := s.timeB }
  s2.updCtx q.ctx fun c => { c with poolUsed := (b.id, (b.subs.map Sub.raw).sum) :: c.poolUsed }

/-! ### Wait eviction (spec/12 R215) -/

/-- Whether one waiter is evicted before another: the lower priority, then the longer wait. -/
def State.evictLt (s : State) (t u : Team) : Bool :=
  decide (s.prioOf t < s.prioOf u) || (s.prioOf t == s.prioOf u && decide (s.waited u < s.waited t))

/-- The waiters that may be evicted for a queue, in the order of choice. -/
def State.evictable (s : State) (q : Nat) : List Team :=
  sortTeams s.evictLt (s.all.filter fun t => s.signalWaiter t && decide (16384 ≤ s.waited t) && t.id.queue != some q)

/-- The shortest prefix of a list of teams that a test accepts. -/
def prefixFor (test : List Nat → Bool) : List Nat → List Nat → Option (List Nat)
  | done, [] => if test done then some done else none
  | done, t :: ts => if test done then some done else prefixFor test (done ++ [t]) ts

/-- Teams that the test does not need, the last chosen first, put back. -/
def prune (test : List Nat → Bool) (all : List Nat) : List Nat :=
  all.reverse.foldl (fun keep t => if test (keep.filter (· != t)) then keep.filter (· != t) else keep) all

/-- As few waiters as a test needs gone, if any number of them is enough. -/
def State.evictSet (s : State) (q : Nat) (test : List Nat → Bool) : Option (List Nat) :=
  (prefixFor test [] ((s.evictable q).map (·.id.tid))).map (prune test)

/-! ### Restore of an evicted team (spec/12 R215, spec/23 R338) -/

/-- Where a team goes on the cores of its cluster that its queue allows, with some teams gone. -/
def State.spotFor (s : State) (t : Team) (gone : List Nat) : Option (Nat × Nat × Nat) :=
  (s.restoreCores t).findSome? fun c =>
    ((s.occ none gone).slotFor c (t.id.m * t.id.kernel.regs)).map fun (sc, k) => (c, sc, k)

/-- An evicted team placed again with what its image holds, or killed where its image fails (spec/23 R338). -/
def State.restoreTeam (s : State) (t : Team) (im : Image) (c sc k : Nat) : State :=
  match s.liveCtx? im.ctx im.gen with
  | none => (s.dropImage im).kill t.id.tid
  | some _ =>
    match s.imageFault im with
    | some n => ((s.imageFailed im n).dropImage im).kill t.id.tid
    | none => ((s.updTeam t.id.tid (·.load ((s.imageRaw im).map (·.1)))).dropImage im).placeTeam t.id.tid c sc k

/-- One ready team restored, waiters evicted for it where needed; none where there is no room. -/
def State.tryRestore (s : State) (t : Team) : Option State :=
  match s.imageOf t.id.tid, t.id.queue.bind s.queue? with
  | some im, some q =>
    match s.evictSet q.id fun gone => (s.spotFor t gone).isSome with
    | none => none
    | some gone => (s.spotFor t gone).map fun (c, sc, k) => (gone.foldl State.evict s).restoreTeam t im c sc k
  | _, _ => none

/-- Ready teams restored in their order, up to the first that finds no room. -/
def State.restoreList : List Team → State → State
  | [], s => s
  | t :: ts, s => match s.tryRestore t with | some s1 => s1.restoreList ts | none => s

/-- Every ready team that there is room for restored, in the order in which their waits completed. -/
def State.restoreReady (s : State) : State := s.restoreList s.readyTeams

/-- EVICTED_TEAM_RESTORE: ready teams return in the order in which their waits completed, up to the one named (spec/12
R215). -/
def execEvictedTeamRestore (tid : Nat) (s : State) : Host.Outcome State Fault Refusal :=
  .next (if s.readyTeams.any (·.id.tid == tid) then
      s.restoreList (s.readyTeams.takeWhile (·.id.tid != tid) ++ s.readyTeams.filter (·.id.tid == tid))
    else s)

end Sys2Proof.Machine
end

