-- ==== Sys2Proof/Machine/Queues.lean ====
section
/-!
DEFINITION. Sys2Proof/Machine/Queues.lean: tickets and dispatch, rejected packets, placement with back-off, the start of a
bundle, the stall watchdog, termination with discard, and SYNC (spec/14 R236 to R248; spec/15 R266 to R268; spec/16 R269).
-/
namespace Sys2Proof.Machine
open Sys2Proof

/-! ### Serving a queue (spec/14 R236, R239, R247; spec/16 R269) -/

/-- A field of a queue's descriptor as an agent reads it. -/
def State.descGet (s : State) (q : Queue) (off n : Nat) : Option Nat := s.agentRead q.ctx q.gen (q.desc + BitVec.ofNat 80 off) n

/-- Whether the agents may claim and dispatch tickets of a queue. -/
def State.serving (s : State) (q : Queue) : Bool :=
  q.resident && !q.saving && !q.dying && q.served && s.descGet q 17 1 == some 0

/-- A queue whose descriptor does not translate is served no further until it is resumed or destroyed (spec/14 R239). -/
def State.noteUnread (s : State) (q : Queue) : State :=
  if (s.descGet q 17 1).isNone then s.updQueue q.id fun x => { x with served := false } else s

/-- The slot of a ticket. -/
def Queue.slotOf (q : Queue) (t : Nat) : Nat := t % 2 ^ q.lsize
/-- The virtual address of a ticket's slot. -/
def Queue.slotVa (q : Queue) (t : Nat) : W80 := q.base + BitVec.ofNat 80 (64 * q.slotOf t)

/-- The key of a ticket's slot: a readable and writable device page with COW clear and MIG STABLE. -/
def State.slotKey (s : State) (q : Queue) (t : Nat) : Option Nat :=
  let va := (q.slotVa t).toNat
  match s.leafAt q.ctx q.gen va with
  | none => none
  | some l => if l.r && l.w && !l.cow && l.mig == 0 && l.loc == 0 && s.isDevice (l.pa va) then some (l.pa va) else none

/-- TICKET_CLAIM: the agent of a core of the queue's mask, with no ticket of it, claims the next (spec/14 R239). -/
def execTicketClaim (q core : Nat) (s : State) : Host.Outcome State Fault Refusal :=
  .next (match s.queue? q with
    | none => s
    | some x =>
      if s.serving x ∧ (s.coresOf x).contains core ∧ ¬ x.tickets.any (·.1 == core) then
        match s.agentKey x.ctx x.gen .atomic (x.desc + 40) with
        | some key =>
          let (t, s1) := s.homeAtomic x.ctx x.gen (x.desc + 40).toNat key 8 fun old => (old + 1) % 2 ^ 64
          s1.updQueue q fun y => { y with tickets := y.tickets ++ [(core, t)] }
        | none => s.updQueue q fun y => { y with served := false }
      else s.noteUnread x)

/-! ### Dispatch and rejection (spec/14 R239, R240, R245) -/

/-- A slot dispatched: its header back to 0 with a release. -/
def State.slotDone (s : State) (q : Queue) (t : Nat) : State := s.agentWrite q.ctx q.gen (q.slotVa t) 8 0

/-- A ticket dispatched: the header back to 0 with a release, then rdidx. -/
def State.dispatched (s : State) (q : Queue) (t : Nat) : State :=
  let s1 := s.slotDone q t
  (s1.descPut q 32 8 ((t + 1) % 2 ^ q.lsize)).updQueue q.id fun x => { x with
    tickets := x.tickets.filter (·.2 != t)
    next := if x.next = t then t + 1 else x.next
    progress := true }

/-- A bundle dispatched. One whose ticket a resume has released moves neither rdidx nor the queue's next ticket (spec/16 R269; log 22). -/
def State.bundleOut (s : State) (q : Queue) (b : Bundle) : State :=
  if b.late then (s.slotDone q b.ticket).updQueue q.id fun x => { x with progress := true } else s.dispatched q b.ticket

/-- A rejected packet: the queue is in ERROR, its tickets are released, errsig falls by 1. -/
def State.reject (s : State) (q : Queue) (t code : Nat) : State :=
  let s1 := ((s.descPut q 17 1 1).descPut q 96 1 code).descPut q 104 8 (q.slotOf t)
  (s1.updQueue q.id fun x => { x with tickets := [] }).signalDec q.ctx q.gen q.errsig false

/-- The ecode of a header that is rejected on its own. -/
def headerBad (h : Nat) : Option Nat :=
  let typ := h % 2 ^ 8
  let count := h / 2 ^ 16 % 2 ^ 4
  let range : Bool := match typ with
    | 2 => count != 0 && decide (count ≤ 4)
    | 3 => count != 0 && decide (count ≤ 3)
    | _ => count == 0
  if 4 < typ then some 1
  else if typ = 0 ∨ h / 2 ^ 20 ≠ 0 ∨ h / 2 ^ 9 % 2 ^ 7 ≠ 0 ∨ ¬ range then some 2
  else none

/-- The head of a queue as its agent meets it: nothing to do; a slot or header that is rejected; a packet that waits for
earlier bundles; a packet to dispatch. -/
inductive Head where
  | idle
  | bad (code : Nat)
  | wait
  | packet (b : List Byte)
  deriving DecidableEq, Repr

/-- The head of a queue. -/
def State.head (s : State) (q : Queue) : Head :=
  if ¬ s.serving q ∨ ¬ q.tickets.any (·.2 == q.next) ∨ s.bundles.any (fun b => b.queue == q.id && b.phase == 0 && !b.late) then .idle
  else
    match s.slotKey q q.next with
    | none => .bad 6
    | some key =>
      let b := s.homeBytes key 64
      let h := fieldAt b 0 8
      if h = 0 then .idle
      else
        match headerBad h with
        | some c => .bad c
        | none => if (flag h 8 ∨ h % 2 ^ 8 = 4) ∧ s.bundles.any (·.queue == q.id) then .wait else .packet b

/-- The signals of a wait-signals packet. -/
def waitSigs (b : List Byte) : List W80 :=
  (List.range (fieldAt b 2 1 % 16)).map fun i => BitVec.ofNat 80 (fieldAt b (8 + 16 * i) 10)

/-- Whether a signal holds a signed value of at most 0. -/
def State.signalLow (s : State) (q : Queue) (va : W80) : Bool :=
  match s.recBytes q.ctx q.gen va.toNat 8 with
  | some b => decide ((BitVec.ofNat 64 (leNat b)).toInt ≤ 0)
  | none => false

/-! ### Bundles (spec/13 R218; spec/14 R241 to R243) -/

/-- The steps taken for a malformed walk: its MALFORMED record, then its signal with bit 63 set (spec/13 R218). -/
def State.walkMalformed (s : State) (q : Queue) (r : WalkRec) (off : Nat) : State :=
  let w := newWalk 0 0 q 0 0 r .zero []
  let s1 := if r.crec ≠ 0 ∧ s.signalOk q.ctx q.gen r.crec then s.recStore q.ctx q.gen r.crec.toNat (w.record 3 off) else s
  if r.signal = 0 then s1 else s1.signalDec q.ctx q.gen r.signal true

/-- A placement that failed: the next attempt after a back-off that doubles, from 1 µs to 64 µs. -/
def State.backOff (s : State) (b : Bundle) : State :=
  let n := if b.backoff = 0 then 1000 else min 64000 (2 * b.backoff)
  s.updBundle b.id fun x => { x with backoff := n, nextTry := s.timeB + n, since := if b.backoff = 0 then s.timeB else x.since }

/-- A placement tried: ready teams are restored first, waiters evicted where that is enough; a bundle placed too late under
`strict` is aborted (spec/12 R215; spec/14 R242, R243). -/
def State.tryPlace (s0 : State) (q : Queue) (b : Bundle) : State :=
  let s := s0.restoreReady
  match s.evictSet q.id fun gone => (s.plan q b none gone).isSome with
  | none => s.backOff b
  | some gone =>
    if q.spolicy = 2 ∧ b.start ≠ 0 ∧ b.start.toNat < s.timeB then
      (({ s with bundles := s.bundles.filter (·.id != b.id) }).bundleOut q b).signalDec q.ctx q.gen b.signal true
    else
      let s1 := gone.foldl State.evict s
      match s1.plan q b none [] with
      | none => s1.backOff b
      | some (ps, o) => (s1.commit q b ps o).bundleOut q b

/-- What a bundle packet's records come to. -/
def ReadSub.sub? : ReadSub → Option Sub
  | .ok x => some x
  | _ => none

/-- A bundle packet read and checked: rejected, malformed, or a placement begun. -/
def State.takeBundle (s : State) (q : Queue) (b : List Byte) : State :=
  let t := q.next
  let count := fieldAt b 2 1 % 16
  let signal := BitVec.ofNat 80 (fieldAt b 16 10)
  let (recs, whole) := s.chain q (2 ^ 80) [] (fieldAt b 32 10)
  if ¬ (signal :: s.recSignals q recs).all (s.signalOk q.ctx q.gen) then s.reject q t 5
  else
    let xs := recs.map (s.readSub q)
    let subs := xs.filterMap ReadSub.sub?
    if ¬ whole ∨ recs.length ≠ count ∨ subs.length ≠ xs.length then
      let s1 := (s.dispatched q t)
      let s2 := xs.foldl (fun s x => match x with | .badWalk r off => s.walkMalformed q r off | _ => s) s1
      s2.signalDec q.ctx q.gen signal true
    else
      let (id, s1) := s.newId
      let y : Bundle := { id := id, queue := q.id, ticket := t, start := BitVec.ofNat 64 (fieldAt b 8 8), signal := signal,
                          arg := BitVec.ofNat 64 (fieldAt b 48 8), subs := subs, phase := 0, late := false,
                          startAt := 0, since := 0, nextTry := 0, backoff := 0, cstores := [], placedAt := 0, aborted := false, victims := [],
                          code := s.mem, started := [] }
      State.tryPlace { s1 with bundles := s1.bundles ++ [y] } q y

/-- PACKET_DISPATCH: the head packet is rejected, or dispatched if it is a nop or a bundle (spec/14 R240). -/
def execPacketDispatch (q : Nat) (s : State) : Host.Outcome State Fault Refusal :=
  .next (match s.queue? q with
    | none => s
    | some x =>
      match s.head x with
      | .idle => s.noteUnread x
      | .wait => s
      | .bad code => s.reject x x.next code
      | .packet b =>
        match fieldAt b 0 1 with
        | 1 => s.dispatched x x.next
        | 2 => s.takeBundle x b
        | 3 => if (waitSigs b).all (s.signalOk x.ctx x.gen) then s else s.reject x x.next 5
        | _ => if s.signalOk x.ctx x.gen (BitVec.ofNat 80 (fieldAt b 8 10)) then s else s.reject x x.next 5)

/-- WAIT_SIGNALS_DISPATCH: every named signal holds at most 0. -/
def execWaitSignalsDispatch (q : Nat) (s : State) : Host.Outcome State Fault Refusal :=
  .next (match s.queue? q with
    | none => s
    | some x =>
      match s.head x with
      | .packet b =>
        if fieldAt b 0 1 = 3 ∧ (waitSigs b).all (s.signalOk x.ctx x.gen) ∧ (waitSigs b).all (s.signalLow x) then
          s.dispatched x x.next
        else s
      | _ => s)

/-- SIGNAL_PACKET_PERFORM: every earlier bundle has retired; the value is added. -/
def execSignalPacketPerform (q : Nat) (s : State) : Host.Outcome State Fault Refusal :=
  .next (match s.queue? q with
    | none => s
    | some x =>
      match s.head x with
      | .packet b =>
        let va := BitVec.ofNat 80 (fieldAt b 8 10)
        if fieldAt b 0 1 = 4 ∧ s.signalOk x.ctx x.gen va then
          (s.signalAdd x.ctx x.gen va (BitVec.ofNat 64 (fieldAt b 24 8)) false).dispatched x x.next
        else s
      | _ => s)

/-- The bundles of a queue that are being placed: one, beside those that a resume has left behind. -/
def State.placing (s : State) (q : Nat) : List Bundle := s.bundles.filter fun b => b.queue == q && b.phase == 0

/-- PLACEMENT_RETRY: a back-off has expired. -/
def execPlacementRetry (q : Nat) (s : State) : Host.Outcome State Fault Refusal :=
  .next (match s.queue? q, (s.placing q).find? fun b => decide (b.nextTry ≤ s.timeB) with
    | some x, some b => if x.resident ∧ ¬ x.saving ∧ ¬ x.dying then s.tryPlace x b else s
    | _, _ => s)

/-! ### Start (spec/02 R28; spec/14 R243) -/

/-- A walk engine at its start. -/
def WalkCore.start (walk idx : Nat) (items : List (Nat × Nat)) (cyc : Nat) : WalkCore where
  walk := walk
  idx := idx
  items := items
  cursor := 0
  array := none
  aslots := List.replicate 28 .free
  bslots := List.replicate 28 .free
  cslots := List.replicate 4 .free
  fifoA := []
  fifoB := []
  fifoC := []
  stopReq := false
  stopped := false
  starve := 0
  upwait := 0
  stalls := 0
  gcomp := 0
  gskip := 0
  ksteps := 0
  tiles := 0
  lastAdv := cyc
  stalled := false
  eng := ⟨[], []⟩

/-- A walk begun on its cores. -/
def State.startWalk (s : State) (w : Walk) : State :=
  w.cores.zipIdx.foldl (fun s (c, i) =>
    (s.updCore c fun x => { x with walk := some (.start w.id i (w.rec_.itemsOf i w.cores.length) (s.matCyc c)) }).engineFill c) s

/-- A team that its sub-launch's start makes eligible, or idle in its pool. -/
def Team.begin (b : Nat) (t : Team) : Team :=
  if t.id.bundle = some b ∧ t.flow.hold = .unstarted then
    t.updFlow fun f => { f with hold := if t.id.pool.isSome then .poolIdle else .none }
  else t

/-- The sub-launches that are signals performed. -/
def State.signalSubs (s : State) (q : Queue) (b : Bundle) : State :=
  b.subs.foldl (fun s x => if x.rec_.kind = 3 then s.signalAdd q.ctx q.gen x.rec_.obj x.rec_.arg false else s) s

/-- BUNDLE_START: at the start time every sub-launch of a placed bundle starts. -/
def execBundleStart (b : Nat) (s : State) : Host.Outcome State Fault Refusal :=
  .next (match s.bundle? b with
    | none => s
    | some x =>
      match s.queue? x.queue with
      | none => s
      | some q =>
        if x.phase ≠ 1 ∨ ¬ q.resident ∨ q.saving ∨ s.timeB < x.startAt then s
        else
          let s1 : State := { s with
            me := s.me.begin b
            teams := s.teams.map (Team.begin b)
            icache := s.icache.filter fun c => !(c.ctx == q.ctx && c.gen == q.gen &&
              s.all.any fun t => t.id.bundle == some b && t.core == c.core) }
          let s2 := (s1.walks.filter (·.bundle == b)).foldl State.startWalk s1
          let s3 := s2.signalSubs q x
          (s3.updBundle b fun y => { y with
            phase := 2
            started := s1.mem
            subs := y.subs.map fun z => { z with started := true, done := z.done || z.rec_.kind == 3 } }).bundleCheck b)

/-! ### The stall watchdog (spec/14 R248) -/

/-- The live teams of a queue: those of its gangs. -/
def State.liveTeams (s : State) (q : Nat) : List Team :=
  s.all.filter fun t => t.id.queue == some q && t.id.gang.isSome && !t.ended

/-- Whether a team is a waiting one. -/
def State.waiting (s : State) (t : Team) : Bool :=
  t.place == .evicted || s.waitOps t != [] || (match t.flow.hold with | .gbar _ => true | .tbwait _ _ _ => true | _ => false)

/-- Whether the head slot of a queue holds an unsatisfied wait-signals packet, whatever else holds its dispatch. -/
def State.headWaits (s : State) (q : Queue) : Bool :=
  match s.slotKey q q.next with
  | some key =>
    let b := s.homeBytes key 64
    fieldAt b 0 1 == 3 && (headerBad (fieldAt b 0 8)).isNone && !(waitSigs b).all (s.signalLow q)
  | none => false

/-- Whether the head slot of a queue is empty. -/
def State.headEmpty (s : State) (q : Queue) : Bool :=
  match s.slotKey q q.next with
  | some key => s.readNat key 8 == 0
  | none => false

/-- Whether a queue has work and has made no progress for the interval: no chain group of its gangs has issued and no packet of it has been
dispatched, and its teams wait. -/
def State.stuckQueue (s : State) (q : Queue) : Bool :=
  let ts := s.liveTeams q.id
  (ts != [] || s.headWaits q) && !q.progress && ts.all s.waiting && (s.headWaits q || s.headEmpty q)

/-- One queue judged at the end of an interval. -/
def State.judge (s : State) (q : Queue) : State :=
  if ¬ q.resident ∨ q.saving then s.updQueue q.id fun x => { x with progress := false }
  else if s.stuckQueue q then
    let s1 := if q.reported then s else (s.descPut q 96 1 3).signalDec q.ctx q.gen q.errsig false
    s1.updQueue q.id fun x => { x with progress := false, reported := true }
  else if s.liveTeams q.id = [] ∧ ¬ s.headWaits q ∧ ¬ q.progress then s
  else s.updQueue q.id fun x => { x with progress := false, reported := false }

/-- QUEUE_STALL_CHECK: an interval of STALLIVL has passed. -/
def execQueueStallCheck (s : State) : Host.Outcome State Fault Refusal :=
  .next (if s.stallivl.toNat * 12 ≤ (s.cyc - s.lastStall) * 5 then
      { s.queues.foldl State.judge s with lastStall := s.cyc }
    else s)

/-! ### Termination with discard (spec/14 R246; spec/23 R338) -/

/-- A sub-launch that has started terminated with discard. -/
def State.discardSub (s : State) (b : Bundle) (i : Nat) (x : Sub) : State :=
  if x.done then s
  else
    match x.rec_.kind, x.walkId with
    | 0, _ => ((s.gangLive x.gang).map (·.id.tid)).foldl (fun s t => s.endTeam t true) (s.subAbort b.id i)
    | 1, some w => s.finishWalk w 4 0 true
    | _, _ => s

/-- A walk that has not begun let go: with `told`, its record ABORTED and its signal decremented with bit 63 set. -/
def State.dropWalk (told : Bool) (s : State) (w : Walk) : State :=
  let s1 := if told then (s.walkStore w w.rec_.crec (w.record 4 0)).walkSignal w true else s
  { s1 with walks := s1.walks.filter (·.id != w.id) }

/-- A bundle terminated with discard: its started sub-launches end; a bundle not started yet is let go with its signal
decremented, and, with `told`, so are its walks (spec/23 R338; log 22). -/
def State.discardBundle (told : Bool) (s : State) (b : Bundle) : State :=
  match s.queue? b.queue with
  | none => s
  | some q =>
    if b.phase = 2 then
      let s1 := s.updBundle b.id fun x => { x with aborted := true }
      (b.subs.zipIdx.foldl (fun s (x, i) => s.discardSub b i x) s1).bundleCheck b.id
    else
      let s1 : State := { s with
        me := if s.me.id.bundle = some b.id then .absent else s.me
        teams := s.teams.filter (·.id.bundle != some b.id) }
      let s2 := (s1.walks.filter (·.bundle == b.id)).foldl (State.dropWalk told) s1
      (s2.signalDec q.ctx q.gen b.signal true).dropBundle b

/-- Every bundle of a queue terminated with discard, as destroy does (spec/14 R246). -/
def State.discardAll (s : State) (q : Nat) : State := (s.bundles.filter (·.queue == q)).foldl (State.discardBundle false) s

/-- Operations of teams completed with a code: team, operation, destination. -/
def State.answerOps (s : State) (code : Nat) (ops : List (Nat × Nat × SReg)) : State :=
  ops.foldl (fun s (tid, op, d) => s.updTeam tid fun t => t.fixOp op [.s d (BitVec.ofNat 64 code)]) s

/-- A queue destroyed: DYING, its tickets dropped, its bundles terminated; a save in progress ends (spec/14 R246). -/
def State.destroyQueue (s : State) (q : Queue) : State :=
  let s1 := ((s.descPut q 17 1 3).answerOps 0 q.saveOps).answerOps 1 q.rsmOps
  let s2 : State := (s1.updQueue q.id fun x => { x with
    dying := true, tickets := [], saving := false, drainBy := none, saveOps := [], rsmOps := [], victimOf := none })
  let s3 := s2.discardAll q.id
  State.drainCheck { s3 with images := s3.images.filter (·.queue != q.id) } q.id

/-! ### SYNC (spec/15 R266 to R268) -/

/-- `sync.gbar`: a release, then held until every team of the gang that has not ended has arrived. -/
def execSyncGbar (o : Scope) (s : State) : Host.Outcome State Fault Refusal :=
  run (.syncGbar o) s fun s =>
    s.releaseThen o fun s =>
      match s.me.id.gang with
      | none => s
      | some g => (s.advance.setMe fun t => t.updFlow fun f => { f with arrived := true, hold := .gbar o }).gangCheck g

/-- The queue of a context whose descriptor lies at a key. -/
def State.queueAt (s : State) (ctx key : Nat) : Option Queue :=
  s.queues.find? fun q => q.ctx == ctx && s.agentKey q.ctx q.gen .load q.desc == some key

/-- The descriptor of a queue reached as an atomic access of the team (spec/15 R267, R268). -/
def State.descReach (s : State) (a : AReg) (k : State → Nat → List Byte → State) : State :=
  s.access .atomic (s.me.a a) 128 fun s key _ =>
    let s1 := s.settleAt s.me.core key 128
    k s1 key (s1.homeBytes key 128)

/-- An SG operation issued with its result. -/
def State.sgResult (s : State) (d : SReg) (x : Nat) : State := (s.issueOp .sg true [.s d (BitVec.ofNat 64 x)] [d] [.device] none).2

/-- Bytes of the team's image loaded, 8 at a time. -/
def State.loadImage (k : State → List Byte → State) (va : W80) : List Nat → List Byte → State → State
  | [], acc, s => k s acc
  | o :: os, acc, s =>
    s.access .load (va + BitVec.ofNat 80 o) 8 fun s key loc =>
      let t := s.me
      let (bs, s1) := s.loadBytes t.core t.id.tid t.id.ctx t.id.gen (va + BitVec.ofNat 80 o) key loc 8
      State.loadImage k va os (acc ++ bs) s1

/-- An enqueue error. -/
def enqError (n : Nat) : Nat := 2 ^ 63 + n

/-- The slot claimed and filled: header acquired, wridx advanced, body and then header stored (spec/15 R267). -/
def State.enqueue (s : State) (d : SReg) (qva key : Nat) (desc image : List Byte) : State :=
  let w := fieldAt desc 24 8
  let lsize := fieldAt desc 16 1
  let va := BitVec.ofNat 80 (fieldAt desc 0 10 + 64 * w)
  s.access .atomic va 64 fun s slot _ =>
    let s1 := (s.settleAt s.me.core slot 64).acquire s.me.core .dev
    if s1.readNat slot 8 ≠ 0 then s1.sgResult d (enqError 1)
    else
      s1.releaseThen .dev fun s =>
        let c := s.me.id.ctx
        let g := s.me.id.gen
        let s2 := s.homeStore c g (qva + 24) (keyed (key + 24) (leBytes 8 ((w + 1) % 2 ^ lsize)))
        let s3 := s2.homeStore c g (va.toNat + 8) (keyed (slot + 8) (image.drop 8))
        (s3.homeStore c g va.toNat (keyed slot (image.take 8))).sgResult d w

/-- `sync.enq`. -/
def execSyncEnq (d : SReg) (q p : AReg) (s : State) : Host.Outcome State Fault Refusal :=
  run (.syncEnq d q p) s fun s =>
    s.uniform (s.me.a q) 128 fun s =>
      s.descReach q fun s key desc =>
        if fieldAt desc 20 4 ≠ s.me.id.ctx then s.sgResult d (enqError 2)
        else if (s.queueAt s.me.id.ctx key).isNone ∨ fieldAt desc 17 1 = 3 then s.sgResult d (enqError 3)
        else if (s.me.a p).toNat % 8 ≠ 0 then s.trapHere ⟨6, 8, s.me.a p, false, 0⟩
        else
          State.loadImage (fun s image =>
            if fieldAt image 0 1 = 0 then s.sgResult d (enqError 4) else s.enqueue d (s.me.a q).toNat key desc image)
            (s.me.a p) ((List.range 8).map (8 * ·)) [] s

/-- The parameters that the agents read of a descriptor (spec/14 R236). A queue whose `ctx` no longer names its owning context is served no
further until it is resumed or destroyed (log 22). -/
def Queue.withParams (q : Queue) (b : List Byte) : Queue :=
  { q with
    served := fieldAt b 20 4 == q.ctx
    base := BitVec.ofNat 80 (fieldAt b 0 10)
    lsize := fieldAt b 16 1
    prio := fieldAt b 18 1
    spolicy := fieldAt b 19 1
    errsig := BitVec.ofNat 80 (fieldAt b 48 10)
    cmask := BitVec.ofNat 256 (fieldAt b 64 32) }

/-- A queue newly known. -/
def newQueue (id ctx gen : Nat) (desc : W80) : Queue where
  id := id
  ctx := ctx
  gen := gen
  desc := desc
  base := 0
  lsize := 0
  prio := 0
  spolicy := 0
  errsig := 0
  cmask := 0
  resident := true
  saving := false
  drainBy := none
  tickets := []
  next := 0
  dying := false
  served := true
  progress := true
  reported := false
  victimOf := none
  saveOps := []
  rsmOps := []

/-- Whether a descriptor is out of range for create (spec/14 R236; spec/15 R268; log 22). -/
def State.descBad (s : State) (ctx gen : Nat) (b : List Byte) : Bool :=
  let q := (newQueue 0 ctx gen 0).withParams b
  q.lsize == 0 || decide (16 < q.lsize) || decide (127 < q.prio) || decide (2 < q.spolicy) || q.base.toNat % 64 != 0 ||
  decide (2 ^ q.lsize ≤ fieldAt b 24 8) || fieldAt b 10 6 != 0 || fieldAt b 58 6 != 0 || fieldAt b 98 6 != 0 ||
  fieldAt b 112 16 != 0 || !s.signalOk ctx gen q.errsig ||
  !(pages (2 ^ q.lsize / 64 + 2) q.base.toNat (64 * 2 ^ q.lsize)).all fun (a, _) =>
    (s.slotKey { q with base := BitVec.ofNat 80 a } 0).isSome

/-- Fields of a descriptor stored by a qctl form. -/
def State.descStore (s : State) (va key : Nat) (fs : List (Nat × Nat × Nat)) : State :=
  fs.foldl (fun s (off, n, x) => s.homeStore s.me.id.ctx s.me.id.gen (va + off) (keyed (key + off) (leBytes n x))) s

/-- A qctl form: a release at device scope, the change with its code, an acquire, the result; `late` is an effect made after
the result is under way. -/
def qctl (i : Instr) (d : SReg) (a : AReg) (act : State → Nat → List Byte → Option Queue → Nat × State)
    (late : State → Option Queue → State) (s : State) : Host.Outcome State Fault Refusal :=
  run i s fun s =>
    s.uniform (s.me.a a) 128 fun s =>
      s.releaseThen .dev fun s =>
        s.descReach a fun s key desc =>
          let q := s.queueAt s.me.id.ctx key
          let (code, s1) := if fieldAt desc 20 4 ≠ s.me.id.ctx then (2, s) else act s key desc q
          let s2 := (s1.acquire s1.me.core .dev).sgResult d code
          if code = 0 then late s2 q else s2

/-- `sync.qctl.create`. -/
def execSyncQctlCreate (d : SReg) (q : AReg) (s : State) : Host.Outcome State Fault Refusal :=
  qctl (.syncQctlCreate d q) d q (fun s key desc known =>
    let ctx := s.me.id.ctx
    let gen := s.me.id.gen
    if known.isSome then (5, s)
    else if s.descBad ctx gen desc then (3, s)
    else if 4096 ≤ s.queues.length then (6, s)
    else
      let (id, s1) := s.newId
      let s2 := s1.descStore (s1.me.a q).toNat key [(17, 1, 0), (32, 8, 0), (40, 8, 0), (96, 1, 0), (97, 1, 0), (104, 8, 0)]
      (0, { s2 with queues := s2.queues ++ [(newQueue id ctx gen (s.me.a q)).withParams desc] }))
    (fun s _ => s) s

/-- `sync.qctl.stop`. -/
def execSyncQctlStop (d : SReg) (q : AReg) (s : State) : Host.Outcome State Fault Refusal :=
  qctl (.syncQctlStop d q) d q (fun s key desc known =>
    match known with
    | none => (4, s)
    | some x =>
      if 1 < fieldAt desc 17 1 ∨ x.dying then (1, s)
      else (0, (s.descStore (s.me.a q).toNat key [(17, 1, 2)]).updQueue x.id fun y => { y with tickets := [] }))
    (fun s _ => s) s

/-- The bundles of a queue that are still being placed hold no ticket after a resume (spec/16 R269). -/
def State.leaveBehind (s : State) (q : Nat) : State :=
  { s with bundles := s.bundles.map fun b => if b.queue = q ∧ b.phase = 0 then { b with late := true } else b }

/-- `sync.qctl.resume`. -/
def execSyncQctlResume (d : SReg) (q : AReg) (a : SReg) (s : State) : Host.Outcome State Fault Refusal :=
  qctl (.syncQctlResume d q a) d q (fun s key desc known =>
    match known with
    | none => (4, s)
    | some x =>
      let st := fieldAt desc 17 1
      let n := (s.me.s a).toNat
      if (st ≠ 1 ∧ st ≠ 2) ∨ x.dying then (1, s)
      else if 2 ^ fieldAt desc 16 1 ≤ n then (3, s)
      else
        (0, ((s.descStore (s.me.a q).toNat key [(32, 8, n), (40, 8, n), (17, 1, 0)]).updQueue x.id fun y =>
          { y.withParams desc with tickets := [], next := n }).leaveBehind x.id))
    (fun s _ => s) s

/-- `sync.qctl.destroy`: it completes when DYING is written; the team itself may be of the queue. -/
def execSyncQctlDestroy (d : SReg) (q : AReg) (s : State) : Host.Outcome State Fault Refusal :=
  qctl (.syncQctlDestroy d q) d q (fun s _ _ known =>
    match known with
    | none => (4, s)
    | some _ => (0, s))
    (fun s known =>
      match known with
      | some x => if x.dying then s else s.destroyQueue x
      | none => s) s

end Sys2Proof.Machine
end

