-- ==== Sys2Proof/Machine/Preempt.lean ====
section
/-!
DEFINITION. Sys2Proof/Machine/Preempt.lean: pre-emption of a queue: its stop, the fates of its work, its images, its restore,
placement pressure, and `priv.preempt` (spec/13 R234, R235; spec/14 R242, R247; spec/20 R312; spec/23 R330 to R338; spec/24
R343).
-/
namespace Sys2Proof.Machine
open Sys2Proof

/-! ### The stop (spec/13 R234; spec/23 R330, R331) -/

/-- Whether a walk has begun: its bundle has started. -/
def State.begun (s : State) (w : Walk) : Bool := match s.bundle? w.bundle with | some b => b.phase == 2 | none => true

/-- The walks of a queue. -/
def State.walksOf (s : State) (q : Nat) : List Walk := s.walks.filter (·.queue == q)

/-- The walk engine of a core told to stop: at once where the array is free, else at the K-step boundary. -/
def WalkCore.stop (w : WalkCore) : WalkCore := { w with stopReq := true, stopped := w.array.isNone }

/-- A save begun: no ticket is dispatched, teams and walks stop, work that drains has 20 µs. -/
def State.beginSave (s : State) (q : Nat) : State :=
  let s1 := s.updQueue q fun x => { x with saving := true, drainBy := some (s.timeB + 20000) }
  (s.walksOf q).foldl (fun s w => w.cores.foldl (fun s c =>
    s.updWalkCore c fun x => if x.walk = w.id then x.stop else x) s) s1

/-- Whether a team stands where it can be saved: between its chain groups, or parked (spec/02 R39, spec/12 R209), with nothing pending but waits
and engine results. -/
def Team.settled (t : Team) : Bool :=
  (!t.flow.group.open_ || t.parked) && t.flow.rebuild == [] && t.flow.hold != .xfrm &&
  t.flow.ops.all fun o => (o.cls != .ld && o.cls != .at_) || o.done || (o.pv == [] && o.ps == [])

/-- Whether a walk engine has stopped with no flush in progress. -/
def WalkCore.settled (w : WalkCore) : Bool :=
  w.stopped && w.array.isNone && !w.cslots.any fun c => c.state == 2 && !c.arrived

/-- The teams of a queue in slots. -/
def State.placedOf (s : State) (q : Nat) : List Team := s.all.filter fun t => t.id.queue == some q && t.placed && !t.ended

/-- Whether a queue's save can complete (spec/23 R330, R340). -/
def State.saveReady (s : State) (q : Queue) : Bool :=
  let ts := s.placedOf q.id
  q.saving && ts.all Team.settled && !(q.drainBy.isSome && ts.any s.drains) &&
  ts.all (fun t => (s.core t.core).dbg != .haltedBusy) &&
  (s.walksOf q.id).all fun w => w.cores.all fun c =>
    match (s.core c).walk with
    | some x => x.walk != w.id || (x.settled && (s.core c).dbg != .haltedBusy)
    | none => true

/-! ### Fates (spec/13 R234; spec/23 R331) -/

/-- A producer whose upcall is discarded: an idle team of its pool; at trap level it keeps its handler, and goes to its pool when that returns
(spec/13 R234, spec/22 R321; log 20). -/
def Team.dropUpcall (t : Team) : Team :=
  if t.ctl.level = .trap then t.updFlow fun f => { f with upcall := none }
  else t.toPool.updFlow fun f => { f with trapPend := none }

/-- Whether a team is a producer in an upcall. -/
def Team.producing (t : Team) : Bool :=
  match t.flow.upcall with
  | some u => u.kind != 2
  | none => false

/-- Whether the teams of a gang are discarded and rerun: an idempotent kernel of which no team must be saved. -/
def State.reruns (s : State) (t : Team) : Bool :=
  t.id.gang.isSome && t.id.kernel.idem && t.flow.hold != .unstarted && !(s.all.any fun u => u.id.gang == t.id.gang && !u.ended && u.mustSave)

/-- A team discarded for rerun: it ends, its stores not yet performed are dropped, and it stands at its entry again. -/
def State.rerun (s : State) (t : Team) : State :=
  let s1 := ({ s with dirty := s.dirty.filter (·.tid != t.id.tid) }).endTeam t.id.tid true
  let (tid, s2) := s1.newId
  let u := (newTeam { t.id with tid := tid } .saved 0).withArgs
  { s2 with teams := s2.teams ++ [u.updFlow fun f => { f with hold := .none }] }

/-- The fates of the teams of a queue: those that the save keeps, and those that stand for rerun ones, each with its core. -/
def State.fates (s : State) (ts : List Team) : State × List (Nat × Nat × Bool) :=
  let again := ts.filter s.reruns
  let kept := ts.filter fun t => !s.reruns t
  let s1 := (kept.map (·.id.tid)).foldl State.flushTeam s
  let s2 := (kept.filter Team.producing).foldl (fun s t => s.updTeam t.id.tid Team.dropUpcall) s1
  again.foldl (fun (acc : State × List (Nat × Nat × Bool)) t =>
    let s := acc.1
    (s.rerun t, acc.2 ++ [(s.nextId, t.core, true)])) (s2, kept.map fun t => (t.id.tid, t.core, false))

/-! ### The save (spec/23 R330, R333, R334) -/

/-- A walk engine as an image keeps it: operand slots, producers and fills discarded, counters let go. -/
def WalkCore.saved (w : WalkCore) : WalkCore :=
  { w with
    array := none, aslots := List.replicate 28 .free, bslots := List.replicate 28 .free, fifoA := [], fifoB := [],
    stopReq := false, stopped := false, starve := 0, upwait := 0, stalls := 0, gcomp := 0, gskip := 0, ksteps := 0, tiles := 0,
    eng := ⟨[], []⟩ }

/-- The walk engine of a core that a queue's walk holds: one that runs; or, of a walk placed and not begun, one that still has every item
before it. -/
def State.engineOf (s : State) (q core : Nat) : Option WalkCore :=
  (s.walksOf q).findSome? fun w =>
    match w.cores.findIdx? (· == core) with
    | none => none
    | some i =>
      match (s.core core).walk with
      | some x => if x.walk = w.id then some x else none
      | none => if s.begun w then none else some (.start w.id i [] 0)

/-- The image of one core of a queue: its teams and its walk engine. -/
def State.saveCore (s : State) (q : Queue) (tids : List (Nat × Nat × Bool)) (core : Nat) : State :=
  let ts := ((tids.filter fun x => x.2.1 == core && !x.2.2).filterMap fun x => s.team? x.1)
  let wc := s.engineOf q.id core
  let s1 := s.saveImage 0 q.ctx q.gen q.id core q.desc ts ((tids.filter fun x => x.2.1 == core && x.2.2).map (·.1)) (wc.map WalkCore.saved)
  let s2 := (ts.map (·.id.tid)).foldl (fun s t => s.updTeam t fun u => u.saveAs .saved) s1
  match wc with
  | some x => s2.freeWalkCore x.walk core
  | none => s2

/-- The cores that hold work of a queue. -/
def State.workCores (s : State) (q : Nat) (tids : List (Nat × Nat × Bool)) : List Nat :=
  (List.range 256).filter fun c => tids.any (·.2.1 == c) || (s.engineOf q c).isSome

/-- Every team and walk of a queue saved; the queue is no longer resident. -/
def State.completeSave (s : State) (q : Queue) : State :=
  let (s1, tids) := s.fates (s.placedOf q.id)
  let s2 := (s1.workCores q.id tids).foldl (fun s c => s.saveCore q tids c) s1
  (s2.answerOps 0 q.saveOps).updQueue q.id fun x => { x with resident := false, saving := false, drainBy := none, saveOps := [] }

/-! ### The restore (spec/13 R235; spec/23 R337, R338) -/

/-- The teams of an image that have not ended, with their rows. -/
def State.imageTeams (s : State) (im : Image) : List Team := ((im.tids ++ im.fresh_).filterMap s.team?).filter fun t => !t.ended

/-- Teams placed on one core. -/
def placeList (core : Nat) : List Team → Occ → Option (List (Nat × Nat × Nat × Nat) × Occ)
  | [], o => some ([], o)
  | t :: ts, o =>
    let rows := t.id.m * t.id.kernel.regs
    match o.slotFor core rows with
    | none => none
    | some (sc, k) =>
      match placeList core ts { o with slots := (core, sc, k, rows) :: o.slots } with
      | none => none
      | some (ps, o1) => some ((t.id.tid, core, sc, k) :: ps, o1)

/-- Teams placed one by one, each on the first core of a list that has room. -/
def placeEach (cs : List Nat) : List Team → Occ → Option (List (Nat × Nat × Nat × Nat) × Occ)
  | [], o => some ([], o)
  | t :: ts, o =>
    match cs.findSome? fun c => placeList c [t] o with
    | none => none
    | some (p, o1) =>
      match placeEach cs ts o1 with
      | none => none
      | some (ps, o2) => some (p ++ ps, o2)

/-- Where an image goes: a core for its walk engine with its pool teams, and places for its other teams. -/
def State.placeImage (s : State) (cs : List Nat) (im : Image) (o : Occ) : Option (Nat × List (Nat × Nat × Nat × Nat) × Occ) :=
  let near := cs.filter fun c => c / 8 == im.core / 8
  let cands := (near.filter (· == im.core)) ++ near.filter (· != im.core)
  let ts := s.imageTeams im
  let pool := ts.filter (·.id.pool.isSome)
  let rest := ts.filter fun t => t.id.pool.isNone
  if im.walk.isSome then
    match cands.findSome? fun c => if o.walks.contains c then none else (placeList c pool o).map fun p => (c, p) with
    | none => none
    | some (c, ps, o1) =>
      match placeEach cands rest { o1 with walks := c :: o1.walks } with
      | none => none
      | some (qs, o2) => some (c, ps ++ qs, o2)
  else
    match placeEach cands ts o with
    | none => none
    | some (ps, o1) => some (im.core, ps, o1)

/-- Where every image of a queue goes. -/
def State.placeImages (s : State) (cs : List Nat) : List Image → Occ → Option (List (Image × Nat × List (Nat × Nat × Nat × Nat)))
  | [], _ => some []
  | im :: ims, o =>
    match s.placeImage cs im o with
    | none => none
    | some (c, ps, o1) =>
      match s.placeImages cs ims o1 with
      | none => none
      | some rest => some ((im, c, ps) :: rest)

/-- A C slot at resumption: the operands of its next steps are raised again (spec/13 R235). -/
def CSlot.resumed (look : Nat) (c : CSlot) : CSlot :=
  if c.state = 1 then { c with raised := c.kprog, resume := c.kprog + look } else c

/-- A C slot with the fields of its header in an image (spec/13 R222). -/
def CSlot.load (c : CSlot) (b : List Byte) : CSlot :=
  { c with
    item := fieldAt b 0 4
    trow := fieldAt b 4 4
    tcol := fieldAt b 8 4
    part := fieldAt b 12 1
    state := fieldAt b 13 1
    dtag := fieldAt b 14 1
    taint := flag (fieldAt b 15 1) 0
    finish := flag (fieldAt b 15 1) 1
    kprog := fieldAt b 16 4
    ksteps := fieldAt b 20 4
    surv := BitVec.ofNat 128 (fieldAt b 24 16) }

/-- A walk engine with what its section of an image holds: its cursor and its C slots' headers (spec/23 R335). -/
def WalkCore.load (w : WalkCore) (b : List Byte) : WalkCore :=
  { w with
    cursor := fieldAt b 0 4
    cslots := w.taken.zipIdx.foldl (fun cs (slot, i) => cs.mapIdx fun k c => if k = slot then c.load ((b.drop (256 + 65792 * i)).take 40) else c) w.cslots }

/-- The contents of a C slot of a core put back, its sectors poisoned where a failing chunk has written them (spec/23 R338). -/
def State.putC (s : State) (core slot : Nat) (raw : List (Byte × Bool)) : State :=
  let key := cKey core slot 0
  let s1 := (s.clearKeys key 65536).poke (keyed key (raw.map (·.1)))
  { s1 with poison := s1.poison ++ ((List.range 2048).filter fun i => ((raw.drop (32 * i)).take 32).any (·.2)).map fun i => key + 32 * i }

/-- A walk engine put back on a core, with the contents of its C slots; that of a walk not begun is only reserved again. -/
def State.restoreWalk (s : State) (x : WalkCore) (raw : List (Byte × Bool)) (core : Nat) : State :=
  match s.walk? x.walk with
  | none => s
  | some w =>
    let s1 := x.taken.zipIdx.foldl (fun s (slot, i) => s.putC core slot ((raw.drop (256 + 65792 * i + 256)).take 65536)) s
    let y := x.load (raw.map (·.1))
    let s2 := if s.begun w then s1.updCore core fun z => { z with walk := some { y with
        cslots := y.cslots.map (CSlot.resumed w.rec_.look), lastAdv := s.matCyc core } } else s1
    let s3 := (s2.unbindWindows core).updWalk w.id fun y => { y with cores := y.cores.set x.idx core }
    s3.updBundle w.bundle fun b => { b with
      subs := b.subs.map fun z => if z.walkId = some w.id then { z with cores := z.cores.set x.idx core } else z }

/-- Teams given back what their records hold, the records lying one after another from an offset on; and where these end. -/
def State.loadTeams (s : State) (raw : List Byte) : List Nat → Nat → State × Nat
  | [], off => (s, off)
  | tid :: rest, off =>
    match s.team? tid with
    | none => s.loadTeams raw rest off
    | some t => (s.updTeam tid fun u => u.load ((raw.drop off).take t.recordLen)).loadTeams raw rest (off + t.recordLen)

/-- One image restored: each chunk writes its raw bytes to their destination; a failing header restores nothing (spec/23 R338). -/
def State.restoreImage (s : State) (im : Image) (core : Nat) (ps : List (Nat × Nat × Nat × Nat)) : State :=
  if s.headerFails im then s
  else
    let raw := s.imageRaw im
    let (s1, off) := s.loadTeams (raw.map (·.1)) im.tids 0
    let s2 := ps.foldl (fun s (tid, c, sc, k) => s.placeTeam tid c sc k) s1
    match im.walk with
    | some x => s2.restoreWalk x (raw.drop off) core
    | none => s2

/-- A queue resident again, with its parameters read again (spec/14 R236). -/
def State.resident (s : State) (q : Queue) : State :=
  let b := s.recBytes q.ctx q.gen q.desc.toNat 128
  let s1 := s.updQueue q.id fun x => { (match b with | some y => x.withParams y | none => x) with resident := true, victimOf := none, progress := true }
  { s1 with bundles := s1.bundles.map fun b => if b.queue = q.id ∧ b.phase = 0 then { b with nextTry := s.timeB } else b }

/-- The live bundles of a queue terminated with discard after a failed restore (spec/23 R338). -/
def State.discardLive (s : State) (q : Nat) : State :=
  (s.bundles.filter fun b => b.queue == q && b.phase != 0).foldl (State.discardBundle true) s

/-- The restore of a pre-empted queue: 0 when it is resident again, 3 when there is no room. An image that fails is marked and reported, and
ends the queue's live bundles (spec/23 R338). -/
def State.restoreQueue (s : State) (q : Queue) : Nat × State :=
  let q1 := match s.recBytes q.ctx q.gen q.desc.toNat 128 with
    | some b => q.withParams b
    | none => q
  let ims := s.images.filter fun i => i.kind == 0 && i.queue == q.id
  match s.placeImages (s.coresOf q1) ims (s.occ none []) with
  | none => (3, s)
  | some ps =>
    let bad := ims.filterMap fun im => (s.imageFault im).map fun k => (im, k)
    let s1 := ps.foldl (fun s (im, c, sp) => s.restoreImage im c sp) s
    let s2 := bad.foldl (fun s (im, k) => s.imageFailed im k) s1
    let s3 := ims.foldl State.dropImage s2
    let s4 := if bad = [] then s3 else s3.discardLive q.id
    (0, (ps.filter (·.1.walk.isSome)).foldl (fun s (_, c, _) => s.engineFill c) (s4.resident q))

/-- PREEMPT_SAVE_COMPLETE: every image is written; a restore that waits for the save follows (spec/20 R312). -/
def execPreemptSaveComplete (q : Nat) (s : State) : Host.Outcome State Fault Refusal :=
  .next (match s.queue? q with
    | none => s
    | some x =>
      if s.saveReady x then
        let s1 := s.completeSave x
        if x.rsmOps = [] then s1
        else
          match s1.queue? q with
          | none => s1
          | some y =>
            let (code, s2) := s1.restoreQueue y
            (s2.answerOps code x.rsmOps).updQueue q fun z => { z with rsmOps := [] }
      else s)

/-- DRAIN_LIMIT_EXPIRY: work that drains and is not done is saved or discarded (spec/23 R331). -/
def execDrainLimitExpiry (q : Nat) (s : State) : Host.Outcome State Fault Refusal :=
  .next (match s.queue? q with
    | none => s
    | some x =>
      match x.drainBy with
      | some t => if x.saving ∧ t ≤ s.timeB then s.updQueue q fun y => { y with drainBy := none } else s
      | none => s)

/-- QUEUE_AUTO_RESUME: the bundle that pre-empted a queue has retired, and there is room (spec/24 R343). -/
def execQueueAutoResume (q : Nat) (s : State) : Host.Outcome State Fault Refusal :=
  .next (match s.queue? q with
    | none => s
    | some x =>
      match x.victimOf with
      | none => s
      | some b => if (s.bundle? b).isNone ∧ ¬ x.resident ∧ ¬ x.saving ∧ ¬ x.dying then (s.restoreQueue x).2 else s)

/-! ### Placement pressure (spec/14 R242) -/

/-- When a queue placed its oldest live bundle. -/
def State.oldestPlaced (s : State) (q : Nat) : Nat :=
  ((s.bundles.filter fun b => b.queue == q && b.phase != 0).map (·.placedAt)).foldl min (2 ^ 64)

/-- Whether one queue is chosen for pre-emption before another. -/
def State.victimLt (s : State) (x y : Queue) : Bool :=
  decide (x.prio < y.prio) || (x.prio == y.prio && decide (s.oldestPlaced y.id < s.oldestPlaced x.id))

/-- Whether a queue holds a bundle that has pre-empted another queue, which then never pre-empts it (spec/24 R343). -/
def State.preempted (s : State) (x q : Nat) : Bool := s.bundles.any fun b => b.queue == x && b.victims.contains q

/-- The queue that is pre-empted for a bundle, by exact trial of each (log 21). -/
def State.victim (s : State) (q : Queue) (b : Bundle) : Option Queue :=
  (s.queues.filter fun x => x.id != q.id && x.resident && !x.saving && decide (x.prio < q.prio) && !s.preempted x.id q.id &&
      (s.plan q b (some x.id) []).isSome).foldl
    (fun best x => match best with
      | none => some x
      | some y => if s.victimLt x y then some x else some y) none

/-- Whether a bundle's placement has failed for 50 µs, and still fails, with no victim of it being saved. -/
def State.pressed (s : State) (q : Queue) (b : Bundle) : Bool :=
  b.backoff != 0 && decide (b.since + 50000 ≤ s.timeB) && !(s.queues.any fun y => y.victimOf == some b.id && y.saving) &&
  (s.evictSet q.id fun gone => (s.plan q b none gone).isSome).isNone

/-- PLACEMENT_PRESSURE_PREEMPT: placement has failed for 50 µs. -/
def execPlacementPressurePreempt (q : Nat) (s : State) : Host.Outcome State Fault Refusal :=
  .next (match s.queue? q with
    | none => s
    | some x =>
      if ¬ x.resident ∨ x.saving then s
      else
        match (s.placing q).find? (s.pressed x) with
        | none => s
        | some b =>
          match s.victim x b with
          | none => s
          | some y =>
            ((s.beginSave y.id).updQueue y.id fun z => { z with victimOf := some b.id }).updBundle b.id fun z => { z with victims := y.id :: z.victims })

/-! ### `priv.preempt` (spec/20 R312) -/

/-- The queue whose descriptor an address of the agent slot names: its physical address (log 10). -/
def State.queueOf (s : State) (va : W80) : Option Queue :=
  s.queues.find? fun q => s.agentKey q.ctx q.gen .load q.desc == some va.toNat

/-- A `priv.preempt` form: an SG operation whose result `act` fixes at once, or leaves to come. -/
def preempt (i : Instr) (d : SReg) (a : AReg) (act : State → Queue → Nat → State) (s : State) : Host.Outcome State Fault Refusal :=
  run i s fun s =>
    let q := s.queueOf (s.me.a a)
    let tid := s.me.id.tid
    let (op, s1) := s.issueOp .sg false [] [d] [.device] none
    match q with
    | none => s1.answerOps 1 [(tid, op, d)]
    | some x => act s1 x op

/-- `priv.preempt.save`. -/
def execPrivPreemptSave (d : SReg) (q : AReg) (s : State) : Host.Outcome State Fault Refusal :=
  preempt (.privPreemptSave d q) d q (fun s x op =>
    let me := (s.me.id.tid, op, d)
    if ¬ x.resident ∨ x.saving then s.answerOps 2 [me]
    else (s.beginSave x.id).updQueue x.id fun y => { y with saveOps := [me] }) s

/-- `priv.preempt.rsm`. -/
def execPrivPreemptRsm (d : SReg) (q : AReg) (s : State) : Host.Outcome State Fault Refusal :=
  preempt (.privPreemptRsm d q) d q (fun s x op =>
    let me := (s.me.id.tid, op, d)
    if x.saving then s.updQueue x.id fun y => { y with rsmOps := y.rsmOps ++ [me] }
    else if x.resident then s.answerOps 2 [me]
    else
      let (code, s1) := s.restoreQueue x
      s1.answerOps code [me]) s

end Sys2Proof.Machine
end

