-- ==== Sys2Proof/Machine/Sha3.lean ====
section
/-!
DEFINITION. Sys2Proof/Machine/Sha3.lean: SHA3-256 of FIPS 202, the digest that spec/19 R294, R295 and spec/20 R311 name.
-/
namespace Sys2Proof.Machine
open Sys2Proof

/-- Rotation offsets of the 25 lanes of the state, lane x + 5y. -/
def keccakRot : List Nat :=
  [0, 1, 62, 28, 27, 36, 44, 6, 55, 20, 3, 10, 43, 25, 39, 41, 45, 15, 21, 8, 18, 2, 61, 56, 14]

/-- Round constants. -/
def keccakRC : List W64 :=
  [0x0000000000000001, 0x0000000000008082, 0x800000000000808A, 0x8000000080008000, 0x000000000000808B, 0x0000000080000001,
   0x8000000080008081, 0x8000000000008009, 0x000000000000008A, 0x0000000000000088, 0x0000000080008009, 0x000000008000000A] ++
  [0x000000008000808B, 0x800000000000008B, 0x8000000000008089, 0x8000000000008003, 0x8000000000008002, 0x8000000000000080,
   0x000000000000800A, 0x800000008000000A, 0x8000000080008081, 0x8000000000008080, 0x0000000080000001, 0x8000000080008008]

/-- A lane of a state. -/
def laneAt (a : List W64) (i : Nat) : W64 := a.getD i 0

/-- One round of Keccak-f. -/
def keccakRound (a : List W64) (rc : W64) : List W64 :=
  let col := (List.range 5).map fun x => (List.range 5).foldl (fun c y => c ^^^ laneAt a (x + 5 * y)) 0
  let th := (List.range 25).map fun i => laneAt a i ^^^ laneAt col ((i + 4) % 5) ^^^ (laneAt col ((i + 1) % 5)).rotateLeft 1
  let rp := (List.range 25).map fun j =>
    let x := (j % 5 + 3 * (j / 5)) % 5
    let y := j % 5
    (laneAt th (x + 5 * y)).rotateLeft (keccakRot.getD (x + 5 * y) 0)
  let chi := (List.range 25).map fun i =>
    let y := i / 5
    laneAt rp i ^^^ (~~~(laneAt rp ((i + 1) % 5 + 5 * y)) &&& laneAt rp ((i + 2) % 5 + 5 * y))
  (laneAt chi 0 ^^^ rc) :: chi.drop 1

/-- Keccak-f[1600]. -/
def keccakF (a : List W64) : List W64 := keccakRC.foldl keccakRound a

/-- Eight bytes as a lane. -/
def laneOf (bs : List Byte) : W64 := bs.foldr (fun b n => (n <<< 8) ||| b.setWidth 64) 0

/-- Blocks of 136 bytes absorbed, given their number. -/
def absorb : Nat → List Byte → List W64 → List W64
  | 0, _, a => a
  | n + 1, bs, a =>
    let xored := (List.range 25).map fun i => if i < 17 then laneAt a i ^^^ laneOf ((bs.drop (8 * i)).take 8) else laneAt a i
    absorb n (bs.drop 136) (keccakF xored)

/-- A message padded to whole blocks. -/
def sha3Pad (bs : List Byte) : List Byte :=
  let k := 136 - bs.length % 136
  if k = 1 then bs ++ [0x86] else bs ++ [0x06] ++ List.replicate (k - 2) 0 ++ [0x80]

/-- The 32 bytes of SHA3-256. -/
def sha3 (bs : List Byte) : List Byte :=
  let a := absorb (bs.length / 136 + 1) (sha3Pad bs) (List.replicate 25 0)
  (a.take 4).flatMap fun x => (List.range 8).map fun i => x.extractLsb' (8 * i) 8

end Sys2Proof.Machine
end

