-- ==== Sys2Proof/Machine/System.lean ====
section
/-!
DEFINITION. Sys2Proof/Machine/System.lean: control registers and CREG; `priv.tret`, `pgcow`, `pgref`, `tlbinv`, `eseal` and
`halt`; the debugger halt (spec/20 R300 to R313; spec/23 R340).
-/
namespace Sys2Proof.Machine
open Sys2Proof

/-! ### Reading a control register (spec/20 R301 to R304) -/

/-- Word w of TLANEM. -/
def Team.tlanem (t : Team) (w : Nat) : W64 := (maskWord t.ctl.trap.tlanem w).setWidth 64

/-- The part of WALKST that a team of a context reads. -/
def State.walkst (s : State) (t : Team) : W64 :=
  match (s.core t.core).walk with
  | none => 0
  | some w0 =>
    let id := match s.walk? w0.walk with
      | some w => if w.ctx = t.id.ctx ∧ w.gen = t.id.gen then w.wid.toNat else 0
      | none => 0
    BitVec.ofNat 64 ((if w0.stopReq then 2 else 1) + 2 ^ 32 * id)

/-- The state code of DBGST. -/
def DbgState.code : DbgState → Nat
  | .running => 0
  | .haltedBusy => 1
  | .haltedQuiet => 2

/-- FUSEMAP0 to FUSEMAP15 (spec/22 R328). -/
def Fuses.reg (f : Fuses) (i : Nat) : W64 :=
  if i < 2 then f.ninth.extractLsb' (64 * i) 64
  else if i < 6 then f.coren.extractLsb' (64 * (i - 2)) 64
  else if i < 10 then f.chpair.extractLsb' (64 * (i - 6)) 64
  else if i = 10 then BitVec.ofNat 64 (f.floe.toNat + 2 ^ 32 * f.ocile.toNat)
  else 0

/-- A register served at the device. -/
def State.deviceReg (s : State) (n : Nat) : W64 :=
  match n with
  | 0x0300 => s.stallivl
  | 0x0301 => s.pwrlim
  | 0x0302 => s.io.prqbase
  | 0x0303 => s.io.prqlog
  | 0x0304 => s.io.prqhead
  | 0x0305 => s.io.prabase
  | 0x0306 => s.io.pralog
  | 0x0307 => s.io.prawr
  | 0x0308 => s.io.logbase
  | 0x0309 => s.io.logsize
  | 0x030A => s.io.loghead
  | 0x030B => s.ptpcfg
  | _ => s.fuses.reg (n - 0x0310)

/-- Whether the spec gives a register no value in the agent slot, which has no context, no lanes and no TEAMID (log 10). -/
def agentOpen (n : Nat) : Bool := n == 0x0000 || n == 0x0001 || n == 0x0006 || n == 0x0007

/-- A register served at the core, as the team in issue reads it. -/
def State.coreReg (s : State) (n : Nat) : W64 :=
  let t := s.me
  let c := s.core t.core
  let r := t.ctl.trap
  match n with
  | 0x0000 => t.id.teamid
  | 0x0001 => BitVec.ofNat 64 t.width
  | 0x0002 => BitVec.ofNat 64 t.core
  | 0x0003 => BitVec.ofNat 64 t.cluster
  | 0x0004 => s.time.timeb
  | 0x0005 => t.sr.setWidth 64
  | 0x0006 => BitVec.ofNat 64 (t.id.ctx + 2 ^ 32 * t.id.gen)
  | 0x0007 => BitVec.ofNat 64 (match s.liveCtx? t.id.ctx t.id.gen with | some x => x.energy | none => 0)
  | 0x0008 => s.walkst t
  | 0x0009 => BitVec.ofNat 64 s.time.timest
  | 0x000A => s.time.epochoff
  | 0x0100 => r.tcause
  | 0x0101 => r.tpc
  | 0x0102 => r.taddr.extractLsb' 0 64
  | 0x0103 => (r.taddr.extractLsb' 64 16).setWidth 64
  | 0x0104 => r.twords.extractLsb' 0 64
  | 0x0105 => (r.twords.extractLsb' 64 32).setWidth 64
  | 0x0106 => r.tbmask.extractLsb' 0 64
  | 0x0107 => r.tbmask.extractLsb' 64 64
  | 0x0140 => t.ctl.trapbase
  | 0x0200 => c.ageivl.setWidth 64
  | 0x0201 => BitVec.ofNat 64 ((match t.flow.group.view with | some v => v.brken | none => c.brken).toNat +
      2 * (match t.flow.group.view with | some v => v.attach | none => c.attach).toNat)
  | 0x0202 => BitVec.ofNat 64 c.dbg.code
  | _ => t.tlanem (n - 0x0120)

/-- `creg.crd`: a core register at once; a device register as a load (spec/20 R300). -/
def execCregCrd (d : SReg) (n : BitVec 16) (s : State) : Host.Outcome State Fault Refusal :=
  run (.cregCrd d n) s fun s =>
    if cregDevice n.toNat then
      (s.issueOp .ld true [.s d (s.deviceReg n.toNat)] [d] [.device] none).2
    else if s.me.isAgent ∧ agentOpen n.toNat then
      let (x, s1) := s.draw
      s1.putS d (BitVec.ofNat 64 x)
    else s.putS d (s.coreReg n.toNat)

/-! ### Writing a control register (spec/12 R211; spec/19 R298; spec/20 R301, R304, R305; spec/23 R340) -/

/-- A halted core runs again; the stall clock of its walk starts again (spec/13 R232), and its engine goes on with its items. -/
def State.resumeCore (s : State) (c : Nat) : State :=
  if (s.core c).dbg = .running then s
  else ((s.updCore c fun x => { x with dbg := .running }).updWalkCore c fun w => { w with lastAdv := s.matCyc c }).engineFill c

/-- A write of DBGCTL; one that sets HALTREQ and RESUME has no effect. -/
def State.writeDbgctl (s : State) (c : Nat) (x : W64) : State :=
  if x.getLsbD 2 ∧ x.getLsbD 3 then s
  else
    let s1 := s.updCore c fun y => { y with brken := x.getLsbD 0, attach := x.getLsbD 1 }
    if x.getLsbD 2 then s1.haltCore c else if x.getLsbD 3 then s1.resumeCore c else s1

/-- The power limit, within its bounds. -/
def clampPower (x : W64) : W64 := if x.toNat < 1800 then 1800 else if 3000 < x.toNat then 3000 else x

/-- A write of a register served at the device; records that it makes room for are written. -/
def State.writeDevice (s : State) (n : Nat) (x : W64) : State :=
  match n with
  | 0x0300 => { s with stallivl := x }
  | 0x0301 => { s with pwrlim := clampPower x }
  | 0x0302 => State.flushPrq { s with io := { s.io with prqbase := x } }
  | 0x0303 => State.flushPrq { s with io := { s.io with prqlog := x } }
  | 0x0304 => State.flushPrq { s with io := { s.io with prqhead := x } }
  | 0x0305 => { s with io := { s.io with prabase := x } }
  | 0x0306 => { s with io := { s.io with pralog := x } }
  | 0x0307 => { s with io := { s.io with prawr := x } }
  | 0x0308 => State.flushLog { s with io := { s.io with logbase := x } }
  | 0x0309 => State.flushLog { s with io := { s.io with logsize := x } }
  | 0x030A => State.flushLog { s with io := { s.io with loghead := x } }
  | 0x030B => { s with ptpcfg := x &&& 0x7FF }
  | _ => s

/-- A write by the team in issue. A write of SRSTATE in one group with a stochastic-rounding conversion: the later of the two words in
word order leaves its value, which the spec does not say (DESIGN CHOICE, log 28). -/
def State.writeReg (s : State) (n : Nat) (x : W64) : State :=
  match n with
  | 0x0005 => s.setMe fun t => t.updCtl fun c => { c with srstate := if x.setWidth 32 = 0#32 then 1 else x.setWidth 32 }
  | 0x0140 => s.setMe fun t => t.updCtl fun c => { c with trapbase := x }
  | 0x0200 => s.updCore s.me.core fun c => { c with ageivl := if x.setWidth 32 < 256#32 then 256 else x.setWidth 32 }
  | 0x0201 => s.writeDbgctl s.me.core x
  | _ => s.writeDevice n x

/-- `creg.cwr`. -/
def execCregCwr (d : SReg) (n : BitVec 16) (s : State) : Host.Outcome State Fault Refusal :=
  run (.cregCwr d n) s fun s => (s.writeReg n.toNat (s.me.s d)).advance

/-! ### `priv.tret` (spec/20 R299, R307; spec/22 R322, R323) -/

/-- A team back at the level, mask and stack that its trap set aside; the handler's own frames are gone, and with them a regather that waited
for one of them (spec/12 R208). -/
def Team.leave (t : Team) : Team :=
  (t.updCtl fun c => { c with level := .user, em := c.asideEm, stack := c.aside, asideEm := 0, aside := [] }).updFlow fun f =>
    { f with regath := f.regath.filter fun x => x.1 != .trap }

/-- The packet index and the word that TPC names, and the class that TCAUSE names. -/
def TrapRegs.pc (r : TrapRegs) : W64 := r.tpc >>> 2
def TrapRegs.word (r : TrapRegs) : Nat := r.tpc.toNat % 4
def TrapRegs.cls (r : TrapRegs) : Nat := r.tcause.toNat % 256

/-- Where a skip resumes (spec/02 R48). -/
def TrapRegs.after (r : TrapRegs) : W64 × Nat :=
  let ends : Bool := match formOf (packetWord r.twords r.word) with | some i => i.endsPacket | none => false
  if r.word = 2 ∨ ends then (r.pc + 1, 0) else (r.pc, r.word + 1)

/-- The pinned write-backs of a team attempted again; a sector that stays pinned is faulted again. -/
def State.retryPinned (s : State) : State :=
  let tid := s.me.id.tid
  let byRel := match s.me.flow.pinned with | some p => p.byRel | none => false
  ((s.setMe fun t => t.updFlow fun f => { f with pinned := none }).writeBackAll byRel (s.pinnedOf tid)).1

/-- The pinned data of a team dropped. -/
def State.dropPinned (s : State) : State :=
  let s1 : State := { s with dirty := s.dirty.filter fun d => !(d.tid == s.me.id.tid && d.pinned) }
  s1.setMe fun t => t.updFlow fun f => { f with pinned := none }

/-- Whether a team is a producer whose upcall a pre-emption has discarded while it ran its handler (log 20). -/
def Team.orphan (t : Team) : Bool := t.id.pool.isSome && t.flow.upcall.isNone && !t.flow.walkerr

/-- `priv.tret`, whose group waits until no register is pending (`Team.wordWaits`); in a walkerr handler every action ends the team. A producer
whose upcall has been discarded goes to its pool (log 20). -/
def tret (i : Instr) (act : State → State) (s : State) : Host.Outcome State Fault Refusal :=
  run i s fun s =>
    if s.me.flow.walkerr then s.kill s.me.id.tid
    else
      let s1 := act s
      if s.me.orphan then s1.updTeam s.me.id.tid fun t => if t.ended then t else t.toPool else s1

/-- `priv.tret retry`. -/
def execPrivTretRetry (s : State) : Host.Outcome State Fault Refusal :=
  tret .privTretRetry (fun s =>
    let r := s.me.ctl.trap
    let s1 := s.setMe fun t => t.leave.endGroup r.pc r.word
    let s2 := if r.cls = 7 then s1.retryPinned else s1
    if r.tlanem = 0 then s2
    else s2.setMe fun t => t.updFlow fun f => { f with sw := false, park := some ⟨[], [], r.tlanem, [], [], false⟩ }) s

/-- `priv.tret skip`: a producer's upcall is tainted (spec/13 R225). -/
def execPrivTretSkip (s : State) : Host.Outcome State Fault Refusal :=
  tret .privTretSkip (fun s =>
    let r := s.me.ctl.trap
    let s1 := if r.cls = 7 then s.dropPinned else s
    s1.setMe fun t => (t.leave.endGroup r.after.1 r.after.2).updFlow fun f =>
      { f with upcall := f.upcall.map fun u => { u with taint := u.taint || u.kind != 2 } }) s

/-- `priv.tret kill`. -/
def execPrivTretKill (s : State) : Host.Outcome State Fault Refusal :=
  tret .privTretKill (fun s => s.kill s.me.id.tid) s

/-! ### `priv.pgcow`, `pgref`, `tlbinv`, `halt` (spec/20 R308 to R310, R313) -/

/-- `priv.pgcow`: the break on the page of the trap's faulting address. -/
def execPrivPgcow (d : SReg) (s : State) : Host.Outcome State Fault Refusal :=
  run (.privPgcow d) s fun s =>
    let r := s.me.ctl.trap
    if r.cls = 5 then
      let (code, s1) := s.cowBreak s.me.id.ctx s.me.id.gen r.taddr.toNat
      s1.sgResult d code
    else s.sgResult d 3

/-- `priv.pgref`: the count of a page's frame record, or all-ones. -/
def execPrivPgref (d : SReg) (a : AReg) (s : State) : Host.Outcome State Fault Refusal :=
  run (.privPgref d a) s fun s =>
    match s.srLeaf s.me.id.ctx s.me.id.gen (s.me.a a).toNat with
    | none => s.sgResult d (2 ^ 64 - 1)
    | some l =>
      let (n, s1) := s.homeAtomic s.me.id.ctx s.me.id.gen (s.me.a a).toNat l.frec 4 id
      s1.sgResult d n

/-- `priv.tlbinv`: the shootdown of a range, complete when the word is done (log 18). -/
def execPrivTlbinv (a : AReg) (b k : SReg) (s : State) : Host.Outcome State Fault Refusal :=
  run (.privTlbinv a b k) s fun s =>
    (s.shootdown (s.me.s k).toNat (s.me.a a).toNat (s.me.s b).toNat false).advance

/-- `priv.halt`: with a debugger attached the core halts; it ends its packet. -/
def execPrivHalt (s : State) : Host.Outcome State Fault Refusal :=
  run .privHalt s fun s =>
    let next := s.me.ctl.pc + 1
    if s.attached then (s.goto next).haltCore s.me.core else s.goto next

/-! ### `priv.eseal` (spec/20 R311) -/

/-- Whether some bytes lie in device memory. -/
def State.deviceRange (s : State) (a n : Nat) : Bool := (pages (n / 4096 + 2) a n).all fun (p, _) => s.isDevice p

/-- One poison report if a read of some bytes meets a poisoned sector. -/
def State.readPoison (s : State) (ctx gen a n : Nat) : State :=
  match s.poison.find? fun p => decide (p < a + n) && decide (a < p + 32) with
  | some p => s.poisonReport ctx gen p p
  | none => s

/-- The bytes at an address, signed: the signature of their digest and the digest of the whole follow them. -/
def State.seal (s : State) (ctx gen a n : Nat) : State :=
  let s0 := s.readPoison ctx gen a n
  let bs := s0.homeBytes a n
  let (x, s1) := s0.draw
  let sig := leBytes 2420 (Config.mldsaSign (BitVec.ofNat 256 x) (BitVec.ofNat 256 (leNat (sha3 bs)))).toNat
  s1.homeStore ctx gen (a + n) (keyed (a + n) (sig ++ sha3 (bs ++ sig)))

/-- `priv.eseal`, for the agent slot, whose addresses are physical (log 10). -/
def execPrivEseal (d : SReg) (a : AReg) (b : SReg) (s : State) : Host.Outcome State Fault Refusal :=
  run (.privEseal d a b) s fun s =>
    let va := (s.me.a a).toNat
    let n := (s.me.s b).toNat
    if s.deviceRange va (n + 2452) then
      ((s.settleAt s.me.core va (n + 2452)).seal s.me.id.ctx s.me.id.gen va n).sgResult d 0
    else s.trapHere ⟨4, 5, s.me.a a, false, 0⟩

/-! ### The debugger halt (spec/23 R340) -/

/-- DBGCTL_HALTREQ, by the host. -/
def execDbgctlHaltreq (core : Nat) (s : State) : Host.Outcome State Fault Refusal := .next (s.haltCore core)

/-- DBGCTL_RESUME, by the host. -/
def execDbgctlResume (core : Nat) (s : State) : Host.Outcome State Fault Refusal := .next (s.resumeCore core)

/-- Whether an outstanding operation keeps its core busy: a load or atomic that has not completed. -/
def Op.busy (o : Op) : Bool := (o.cls == .ld || o.cls == .at_) && !o.done

/-- Whether every request of a core has completed and its walk engine stands at a K-step boundary with any flush performed. -/
def State.coreQuiet (s : State) (c : Nat) : Bool :=
  s.all.all (fun t => t.core != c || !t.placed || t.isAgent ||
    ((!t.flow.group.open_ || t.parked) && t.flow.rebuild == [] && t.flow.hold != .xfrm && !t.flow.ops.any Op.busy)) &&
  (s.core c).pipe == [] &&
  s.copies.all (fun x => !(x.slices.any (fun y => y.core == c && !y.retired) || (x.started && x.cores.contains c && x.jobs != []))) &&
  s.rings.all (fun r => r.core != c || !r.slots.any fun y => y.state == .filling || y.state == .draining) &&
  (match (s.core c).walk with
    | some w => w.array.isNone && !w.cslots.any (fun x => x.state == 2 && !x.arrived) && !w.streams
    | none => true)

/-- DEBUG_HALT_QUIET. -/
def execDebugHaltQuiet (core : Nat) (s : State) : Host.Outcome State Fault Refusal :=
  .next (if (s.core core).dbg = .haltedBusy ∧ s.coreQuiet core then s.updCore core fun x => { x with dbg := .haltedQuiet } else s)

/-! ### Register writes of the host (spec/20 R301, R305) -/

/-- Registers that the host may write. -/
def hostWritable (n : Nat) : Bool := n == 0x0201 || decide (0x0301 ≤ n ∧ n ≤ 0x030B)

/-- A write of a register by the host; of DBGCTL on a core. -/
def State.hostWrite (s : State) (n core : Nat) (x : W64) : State :=
  if ¬ hostWritable n then s else if n = 0x0201 then s.writeDbgctl core x else s.writeDevice n x

/-- PWRLIM_WRITE. -/
def execPwrlimWrite (x : W64) (s : State) : Host.Outcome State Fault Refusal := .next (s.hostWrite 0x0301 0 x)

/-- PRQHEAD_WRITE. -/
def execPrqheadWrite (x : W64) (s : State) : Host.Outcome State Fault Refusal := .next (s.hostWrite 0x0304 0 x)

/-- PRAWR_WRITE: the answers up to the index are taken by PAGE_ANSWER. -/
def execPrawrWrite (x : W64) (s : State) : Host.Outcome State Fault Refusal := .next (s.hostWrite 0x0307 0 x)

/-- LOGHEAD_WRITE. -/
def execLogheadWrite (x : W64) (s : State) : Host.Outcome State Fault Refusal := .next (s.hostWrite 0x030A 0 x)

/-- RING_BASE_WRITE. -/
def execRingBaseWrite (n : BitVec 16) (x : W64) (s : State) : Host.Outcome State Fault Refusal :=
  .next (if n = 0x0302 ∨ n = 0x0305 ∨ n = 0x0308 then s.hostWrite n.toNat 0 x else s)

/-- REGISTER_WRITE. -/
def execRegisterWrite (n : BitVec 16) (core : Nat) (x : W64) (s : State) : Host.Outcome State Fault Refusal :=
  .next (s.hostWrite n.toNat core x)

end Sys2Proof.Machine
end

