-- ==== Sys2Proof/Machine/Events.lean ====
section
/-!
DEFINITION. Sys2Proof/Machine/Events.lean: events of teams (trap entry, slot release, regathering, aging, write-backs), page
answers, requests of the host and of remote devices (spec/02 R39; spec/06 R103; spec/08 R155, R156, R159; spec/12 R207, R211;
spec/18 R283, R285, R287; spec/22 R316, R317).
-/
namespace Sys2Proof.Machine
open Sys2Proof

/-! ### Teams -/

/-- TRAP_ENTRY: a trap that waited for pending bits is taken (spec/02 R39, spec/22 R318). -/
def execTrapEntry (tid : Nat) (s : State) : Host.Outcome State Fault Refusal :=
  .next (match s.team? tid with
    | none => s
    | some t =>
      match t.flow.trapPend with
      | some p =>
        if t.placed ∧ ¬ t.ended ∧ t.trappable then
          (s.updTeam tid fun u => u.updFlow fun f => { f with trapPend := none }).raise tid p
        else s
      | none => s)

/-- TEAM_SLOT_RELEASE (spec/06 R103, spec/12 R201). -/
def execTeamSlotRelease (tid : Nat) (s : State) : Host.Outcome State Fault Refusal := .next (s.releaseSlot tid)

/-- Whether a team may be regathered (spec/12 R207). -/
def Team.regatherable (t : Team) : Bool :=
  t.placed && !t.isAgent && !t.ended && t.ctl.stack != [] && decide (2 * ((bitsIn t.ctl.em + 31) / 32) ≤ wordsOf t.ctl.em) && t.quiet &&
  t.flow.hold != .xfrm && !t.flow.group.open_ && t.flow.rebuild == [] && !t.parked

/-- REGATHER: the lanes of a team move; they return when the frame that is innermost now is popped (spec/12 R208). -/
def execRegather (tid : Nat) (s : State) : Host.Outcome State Fault Refusal :=
  .next (match s.team? tid with
    | some t =>
      if t.regatherable then s.updTeam tid fun u => u.updFlow fun f => { f with regath := some (u.ctl.level, reconvDepth u.ctl.stack) } else s
    | none => s)

/-- TEAM_AGED: a count that has reached AGEIVL (spec/12 R211). -/
def execTeamAged (tid : Nat) (s : State) : Host.Outcome State Fault Refusal :=
  .next (match s.team? tid with
    | some t =>
      if t.placed ∧ ¬ t.isAgent ∧ t.sch.aged.isNone ∧ (s.core t.core).ageivl.toNat ≤ t.sch.age then
        s.updTeam tid fun u => { u with sch := { u.sch with aged := some (s.coreCyc t.core) } }
      else s
    | none => s)

/-- L1_WRITEBACK: a dirty sector leaves an L1 by eviction or under the bound of spec/08 R155. -/
def execL1Writeback (core sector : Nat) (s : State) : Host.Outcome State Fault Refusal :=
  .next (match s.dirtyAt core sector with
    | some d => if d.pinned then s else (s.writeBack d false).1
    | none => s)

/-! ### Page answers (spec/18 R283, R285; spec/22 R316, R317) -/

/-- A parked access some of whose lanes are to be tried again: these lanes, which wait no more, and with them every lane that has faulted but
those that a FAIL answer has failed (spec/22 R317); lanes that wait for another entry stay parked. A team-uniform access is tried again whole. -/
def Park.again (p : Park) (ls : List Nat) : Park :=
  if ls = [] ∨ p.uniform then p
  else
    { p with
      replay := p.replay ||| maskOf ls ||| maskOf ((p.faults.filter fun x => !x.2.hostfail).map (·.1))
      faults := p.faults.filter fun x => x.2.hostfail }

/-- A parked access after an answer on a merge entry: its lanes are to be tried again, or have failed (spec/18 R285, spec/22 R316). -/
def Park.answered (p : Park) (uid : Nat) (ok : Bool) : Park :=
  let hit := p.waits.filter fun x => x.2.2 == some uid
  let p1 := { p with waits := p.waits.filter fun x => x.2.2 != some uid }
  if ok then p1.again (hit.map (·.1)) else { p1 with faults := p1.faults ++ hit.map fun x => (x.1, ⟨3, 1, x.2.1, true, 0⟩) }

/-- A parked access after an entry has been freed: lanes that waited for a free entry are to be tried again (spec/18 R283). -/
def Park.freed (p : Park) : Park :=
  Park.again { p with waits := p.waits.filter fun x => x.2.2.isSome } ((p.waits.filter fun x => x.2.2.isNone).map (·.1))

/-- Every team's parked access changed: the teams that a test selects. The saved context of a team that is away follows (spec/23 R330). -/
def State.updParks (s : State) (test : Team → Bool) (f : Park → Park) : State :=
  let g (t : Team) : Team := if test t then t.updFlow fun x => { x with park := x.park.map f } else t
  let away := s.teams.filter fun t => !t.placed && decide ((g t).flow.park ≠ t.flow.park)
  (away.map (·.id.tid)).foldl State.refreshImage { s with me := g s.me, teams := s.teams.map g }

/-- What an engine waits for after an answer. -/
def EngWait.answered (e : EngWait) (uid : Nat) (ok : Bool) : EngWait :=
  { waits := e.waits.filter fun x => x.1 != uid
    failed := if ok then e.failed else e.failed ++ (e.waits.filter fun x => x.1 == uid).map (·.2) }

/-- The answer of an entry made known to every engine. -/
def State.answerEngines (s : State) (uid : Nat) (ok : Bool) : State :=
  let s1 : State := { s with
    copies := s.copies.map fun c => { c with eng := c.eng.answered uid ok }
    rings := s.rings.map fun r => { r with eng := r.eng.answered uid ok } }
  s1.walks.foldl (fun s w => w.cores.foldl (fun s c => s.updWalkCore c fun x => { x with eng := x.eng.answered uid ok }) s) s1

/-- Whether a team may wait for a free entry of a die: one that is placed there, or that is not placed. -/
def Team.waitsOn (die : Nat) (t : Team) : Bool := !t.placed || dieOf t.cluster == die

/-- An entry freed: lanes that waited for one are tried again (spec/18 R283). -/
def State.dropMerge (s : State) (e : Merge) : State :=
  State.updParks { s with merges := s.merges.filter (·.uid != e.uid) } (Team.waitsOn e.die) Park.freed

/-- Every cached translation of a page in the TLBs of a die and of its clusters dropped. -/
def State.dropPage (s : State) (die ctx gen page : Nat) : State :=
  { s with
    tlb := s.tlb.filter fun x => !(dieOf x.unit == die && x.hits x.unit ctx gen (4096 * page))
    dtlb := s.dtlb.filter fun x => !x.hits die ctx gen (4096 * page) }

/-- An entry answered and freed. A replay walks again, so a RETRY leaves no cached translation of the page on the die. -/
def State.answer (s : State) (e : Merge) (ok : Bool) : State :=
  let s1 := if ok then s.dropPage e.die e.ctx e.gen e.page else s
  ((s1.updParks (fun _ => true) (·.answered e.uid ok)).dropMerge e).answerEngines e.uid ok

/-- An answer discarded, and counted in its context. -/
def State.lateAnswer (s : State) (ctx : Nat) : State := s.updCtx ctx fun c => { c with lateans := (c.lateans + 1) % 2 ^ 32 }

/-- PAGE_ANSWER: the next answer of the ring is taken. -/
def execPageAnswer (s : State) : Host.Outcome State Fault Refusal :=
  .next (
    if s.io.prabase = 0 ∨ s.io.prawr.toNat ≤ s.io.taken then s
    else
      let b := s.homeBytes (s.io.prabase.toNat + 16 * (s.io.taken % 2 ^ s.io.pralog.toNat)) 16
      let s1 : State := { s with io := { s.io with taken := s.io.taken + 1 } }
      let ctx := fieldAt b 4 4
      let gen := fieldAt b 8 4
      let result := fieldAt b 3 1
      match s1.merges.find? fun e => e.die == fieldAt b 2 1 && e.mte == fieldAt b 0 2 && e.ctx == ctx && e.gen == gen with
      | none => s1.lateAnswer ctx
      | some e =>
        if 1 < result then s1.lateAnswer ctx
        else if (s1.liveCtx? ctx gen).isNone then (s1.dropMerge e).lateAnswer ctx
        else s1.answer e (result == 0))

/-! ### The host and remote devices (spec/08 R156, R157; spec/18 R287) -/

/-- A request that comes over a link (spec/22 R324): taken where the link is up; waiting, so that nothing happens yet, while it retrains; over a
link that is DOWN reported, a read answered with poison and a write dropped. -/
def State.arrive (s : State) (p : Fin 33) (pa : Nat) (down k : State → State) : State :=
  match s.links[p].state with
  | 0 => down (s.report 3 (if p = 32 then 5 else 4) (if p = 32 then 0 else p.val) 0xFFFFFFFF 0 0 pa)
  | 1 => k s
  | _ => s

/-- The host's answer. -/
def State.hostAnswer (s : State) (bs : List Byte) : State := { s with outside := { s.outside with hostData := bs } }

/-- HOST_STORE: performed at home, then acknowledged; bytes that are not device memory are dropped (log 23). -/
def execHostStore (pa : Nat) (bytes : List Byte) (s : State) : Host.Outcome State Fault Refusal :=
  .next (if s.boot = .up then
      s.arrive 32 pa id fun s =>
        let s1 := s.homeStore 0xFFFFFFFF 0 pa ((keyed pa bytes).filter fun x => s.isDevice x.1)
        { s1 with outside := { s1.outside with acked := s1.outside.acked + 1 } }
    else s)

/-- HOST_LOAD. -/
def execHostLoad (pa n : Nat) (s : State) : Host.Outcome State Fault Refusal :=
  .next (if s.boot = .up ∧ s.deviceRange pa n then
      s.arrive 32 pa (·.hostAnswer (List.replicate n 0xFF)) fun s =>
        let s1 := s.readPoison 0xFFFFFFFF 0 pa n
        s1.hostAnswer (s1.homeBytes pa n)
    else s)

/-- Whether every frame of some bytes has been exported to a device. -/
def State.exported (s : State) (dev pa n : Nat) : Bool :=
  (pages (n / 4096 + 2) pa n).all fun (a, _) => s.exports.contains (a / 4096, dev) && s.isDevice a

/-- Bytes of a remote request. -/
def remoteBytes : RemoteKind → Nat
  | .load n => n
  | .store bytes => bytes.length
  | .atomic op w _ _ => if op = .addF ∨ op = .maxF then 4 else w.bytes

/-- The new value of a remote atomic on `w` bits, from its operands and the old value, as the device's own atomics make it (spec/10 R178, R181). -/
def remoteNew (op : RemoteOp) (w x y old : Nat) : Nat :=
  match op with
  | .add => old + x
  | .addF => (addF32 (BitVec.ofNat 32 old) (BitVec.ofNat 32 x)).toNat
  | .sub => old + (2 ^ w - x)
  | .min => min old x
  | .max => max old x
  | .minn => if signedOf w old ≤ signedOf w x then old else x
  | .maxn => if signedOf w old ≤ signedOf w x then x else old
  | .maxF => (maxF32 (BitVec.ofNat 32 old) (BitVec.ofNat 32 x)).toNat
  | .and => old &&& x
  | .or => old ||| x
  | .xor => old ^^^ x
  | .xchg => x
  | .cas => if old = x then y else old

/-- A remote request's answer. -/
def State.remoteAnswer (s : State) (ok : Bool) (bs : List Byte) : State :=
  { s with outside := { s.outside with remoteOk := ok, remoteData := bs } }

/-- A request of a remote device whose frame is exported to it, performed at home. -/
def State.remoteServe (s : State) (pa : Nat) (k : RemoteKind) : State :=
  match k with
  | .load n => (s.readPoison 0xFFFFFFFF 0 pa n).remoteAnswer true (s.homeBytes pa n)
  | .store bytes => (s.homeStore 0xFFFFFFFF 0 pa (keyed pa bytes)).remoteAnswer true []
  | .atomic op _ x y =>
    let n := remoteBytes k
    let m := 2 ^ (8 * n)
    let (old, s1) := s.homeAtomic 0xFFFFFFFF 0 pa pa n fun old => remoteNew op (8 * n) (x.toNat % m) (y.toNat % m) old % m
    s1.remoteAnswer true (leBytes n old)

/-- What a remote device receives from a link that is DOWN: poison, or nothing for a store. -/
def remotePoison (k : RemoteKind) : List Byte :=
  match k with
  | .store _ => []
  | k => List.replicate (remoteBytes k) 0xFF

/-- REMOTE_REQUEST: performed at home where the frame is exported to the device, refused otherwise. -/
def execRemoteRequest (dev pa : Nat) (k : RemoteKind) (s : State) : Host.Outcome State Fault Refusal :=
  .next (
    if s.boot ≠ .up then s.remoteAnswer false []
    else
      s.arrive ((Config.portOf dev).castLE (by decide)) pa (·.remoteAnswer true (remotePoison k)) fun s =>
        if s.exported dev pa (remoteBytes k) then s.remoteServe pa k else s.remoteAnswer false [])

/-- FRAME_EXPORT: a 4 KiB frame, by its physical address, exported to a device. -/
def execFrameExport (frame dev : Nat) (s : State) : Host.Outcome State Fault Refusal :=
  .next (if s.boot = .up ∧ ¬ s.exports.contains (frame / 4096, dev) then { s with exports := (frame / 4096, dev) :: s.exports } else s)

end Sys2Proof.Machine
end

