-- ==== Sys2Proof/Machine/Energy.lean ====
section
/-!
DEFINITION. Sys2Proof/Machine/Energy.lean: energy accounts, sealed readings, the power arbiter (spec/19 R289 to R298; log 24).
-/
namespace Sys2Proof.Machine
open Sys2Proof

/-! ### Charges (spec/19 R290 to R293) -/

/-- Microjoules charged to a chain for a unit; to a context's line or to the residue. -/
def Chain.charge (c : Chain) (unit x : Nat) (line : Option (Nat × Nat)) : Chain :=
  { c with
    account := c.account + x
    core := if unit ≤ 1 then c.core + x else c.core
    l2 := if unit = 2 then c.l2 + x else c.l2
    mem := if unit = 3 then c.mem + x else c.mem
    floe := if unit = 4 then c.floe + x else c.floe
    ocile := if unit = 5 then c.ocile + x else c.ocile
    residue := if line.isNone then c.residue + x else c.residue
    lines := match line with | some k => bumpBy x k c.lines | none => c.lines
    held := true }

/-- A charge to a partition, or to the overhead account 0xFFFF; a context's account grows with its line. -/
def State.charge (s : State) (part unit x : Nat) (line : Option (Nat × Nat)) : State :=
  if x = 0 then s
  else
    { s with
      energy := { s.energy with chains := s.energy.chains.map fun c => if c.part = part then c.charge unit x line else c }
      ctxs := match line with
        | some (ctx, gen) => s.ctxs.map fun c => if c.id = ctx ∧ c.gen = gen then { c with energy := c.energy + x } else c
        | none => s.ctxs }

/-- Energy split in proportion: the charges made to `keys`, and what is left over. -/
def shares (e whole : Nat) : List (Nat × Nat) → List (Nat × Nat) × Nat
  | [] => ([], e)
  | (k, n) :: r =>
    let x := if whole = 0 then 0 else e * n / whole
    let (ys, left) := shares e whole r
    ((k, x) :: ys, left - x)

/-- The sum of the counts of a list. -/
def total {α : Type} (l : List (α × Nat)) : Nat := l.foldl (fun n x => n + x.2) 0

/-- A shared unit's energy split among partitions; the rest goes to the overhead account (spec/19 R290, R291). -/
def State.splitParts (s : State) (unit e : Nat) (parts : List (Nat × Nat)) : State :=
  let (ys, left) := shares e (total parts) parts
  (ys.foldl (fun s (p, x) => s.charge p unit x none) s).charge 0xFFFF unit left none

/-- A core's energy split among contexts by cycles of a whole; the rest is the partition's residue (spec/19 R290, R292). -/
def State.splitCtxs (s : State) (part unit e whole : Nat) (uses : List ((Nat × Nat) × Nat)) : State :=
  let whole := max whole (total uses)
  let paid := uses.map fun (k, n) => (k, if whole = 0 then 0 else e * n / whole)
  (paid.foldl (fun s (k, x) => s.charge part unit x (some k)) s).charge part unit (e - total paid) none

/-- The partition that holds a cluster. -/
def State.partAt (s : State) (cluster : Nat) : Option Nat := (s.parts[cluster % 32]'(Nat.mod_lt _ (by decide))).map Fin.val

/-- The clusters that each partition holds. -/
def State.clusterCounts (s : State) : List (Nat × Nat) :=
  (List.range 32).map fun p => (p, ((List.range 32).filter fun c => s.partAt c == some p).length)

/-- Whether a unit measures: an enabled, powered core or channel pair, a slice, a port that is not DOWN (spec/19 R289). -/
def State.measures (s : State) (r : Reading) : Bool :=
  match r.unit with
  | 0 => decide (r.index < 256) && s.fuses.coren.getLsbD r.index && !s.unpowered.contains (0, r.index)
  | 1 => decide (r.index < 256) && s.fuses.coren.getLsbD r.index && !s.unpowered.contains (0, r.index)
  | 2 => decide (r.index < 256)
  | 3 => decide (r.index < 256) && s.fuses.chpair.getLsbD r.index && !s.unpowered.contains (3, r.index)
  | 4 => decide (r.index < 32) && s.fuses.floe.getLsbD r.index && (s.links[r.index % 33]'(Nat.mod_lt _ (by decide))).state != 0
  | 5 => s.links[32].state != 0
  | _ => false

/-- One unit's reading of a tick: whole microjoules charged, the fraction carried (spec/19 R289, R290). A core's energy is split by the issue
cycles of its four schedulers, and by the cycles for which walks held its engine, in cycles of its own islands. -/
def State.chargeReading (s : State) (r : Reading) : State :=
  if ¬ s.measures r then s
  else
    let k := (r.unit, r.index)
    let old := match s.energy.frac.find? (·.1 == k) with | some x => x.2 | none => 0
    let e := (old + r.energy) / 1000
    let s1 : State := { s with energy := { s.energy with
      frac := (k, (old + r.energy) % 1000) :: s.energy.frac.filter (·.1 != k) } }
    match r.unit with
    | 0 =>
      match s.partAt (r.index / 8) with
      | some p => s1.splitCtxs p 0 e (4 * (s.coreCyc r.index - (s.core r.index).tickClk)) ((s.core r.index).issued.filter fun x => x.1.1 != noCtx)
      | none => s1.charge 0xFFFF 0 e none
    | 1 =>
      match s.partAt (r.index / 8) with
      | some p => s1.splitCtxs p 1 e (s.matCyc r.index - (s.core r.index).tickMat) (s.core r.index).held
      | none => s1.charge 0xFFFF 1 e none
    | 2 =>
      let st := min (r.static / 1000) e
      (s1.splitParts 2 (e - st) r.bytes).splitParts 2 st s.clusterCounts
    | 3 =>
      let st := min (r.static / 1000) e
      (s1.splitParts 3 (e - st) r.bytes).splitParts 3 st s.clusterCounts
    | u => s1.splitParts u e r.bytes

/-- The chains of partitions that hold a cluster marked. -/
def State.markHeld (s : State) : State :=
  let mark (c : Chain) : Chain := if ((List.range 32).any fun i => s.partAt i == some c.part) = true then { c with held := true } else c
  { s with energy := { s.energy with chains := s.energy.chains.map mark } }

/-- A core at the start of a tick. -/
def Core.newTick (c : Core) (now : Nat) : Core := { c with issued := [], held := [], tickClk := c.clk.at_ now, tickMat := c.mclk.at_ now }

/-- ENERGY_TICK: the readings of a millisecond of TIMEB charged. -/
def execEnergyTick (rs : List Reading) (s : State) : Host.Outcome State Fault Refusal :=
  .next (
    if s.boot ≠ .up ∨ s.timeB < s.energy.lastTick + 1000000 then s
    else
      let s1 := rs.foldl State.chargeReading s.markHeld
      { s1 with
        cores := s1.cores.map (·.newTick s1.now)
        energy := { s1.energy with lastTick := s.timeB / 1000000 * 1000000 } })

/-! ### Sealed readings (spec/19 R294 to R296) -/

/-- Lines by ascending context, then generation. -/
def sortLines (ls : List ((Nat × Nat) × Nat)) : List ((Nat × Nat) × Nat) :=
  let before (x y : (Nat × Nat) × Nat) : Bool := decide (x.1.1 < y.1.1) || (x.1.1 == y.1.1 && decide (x.1.2 < y.1.2))
  ls.foldl (fun acc x => acc.filter (before · x) ++ x :: acc.filter fun y => !before y x) []

/-- The microjoules of an interval. -/
def Chain.interval (c : Chain) : Nat := c.core + c.l2 + c.mem + c.floe + c.ocile

/-- The bytes of a record up to its signature. -/
def Chain.body (c : Chain) (t1 : Nat) : List Byte :=
  let flags := c.warm.toNat + 2 * c.gap.toNat + 4 * (decide (1000000000 < t1 - c.t0)).toNat + 8 * c.unsync.toNat
  leBytes 4 0x31525A56 ++ leBytes 2 1 ++ leBytes 2 c.part ++ leBytes 8 c.seq ++ leBytes 16 c.boot.toNat ++ leBytes 8 c.t0 ++ leBytes 8 t1 ++
    leBytes 8 c.account ++ leBytes 8 c.interval ++ leBytes 8 c.core ++ leBytes 8 c.l2 ++ leBytes 8 c.mem ++ leBytes 8 c.floe ++
    leBytes 8 c.ocile ++ leBytes 8 c.residue ++ c.prev ++ leBytes 4 c.lines.length ++ leBytes 4 flags ++
    (sortLines c.lines).flatMap fun (k, x) => leBytes 4 k.1 ++ leBytes 4 k.2 ++ leBytes 8 x

/-- The signature of a record's bytes, made with a random value (spec/19 R295). -/
def signature (rnd : Nat) (body : List Byte) : Nat :=
  (Config.mldsaSign (BitVec.ofNat 256 rnd) (BitVec.ofNat 256 (leNat (sha3 body)))).toNat

/-- A chain after a record of it has been sealed. -/
def Chain.sealed (c : Chain) (t1 : Nat) (rec_ : List Byte) (unsync held : Bool) : Chain :=
  { c with
    seq := c.seq + 1, cum := c.account, t0 := t1, prev := sha3 rec_, last := rec_, core := 0, l2 := 0, mem := 0, floe := 0, ocile := 0,
    residue := 0, lines := [], warm := false, gap := false, unsync := unsync, held := held }

/-- A chain changed. -/
def State.updChain (s : State) (part : Nat) (f : Chain → Chain) : State :=
  { s with energy := { s.energy with chains := s.energy.chains.map fun c => if c.part = part then f c else c } }

/-- Whether a partition holds a cluster now; the overhead account is always closed. -/
def State.holds (s : State) (part : Nat) : Bool := part == 0xFFFF || (List.range 32).any fun i => s.partAt i == some part

/-- Readings of a partition that are held for the log. -/
def Rings.heldReadings (r : Rings) (part : Nat) : Nat :=
  (r.held.filter fun h => match h with | .reading p _ => p == part | .report _ => false).length

/-- One interval closed at a time: nothing for a partition that held no cluster, whose next interval then begins here, unless its last record
lies before a warm reset (R297); nothing sealed once 256 records are held. -/
def State.closeChain (s : State) (t1 part : Nat) : State :=
  match s.energy.chains.find? (·.part == part) with
  | none => s
  | some c =>
    let off : Bool := s.time.timest != 1
    if ¬ c.held ∧ ¬ s.holds part then (if c.warm then s else s.updChain part fun x => { x with t0 := t1, unsync := off })
    else if 256 ≤ s.io.heldReadings part then s
    else
      let body := c.body t1
      let (x, s1) := s.draw
      let rec_ := body ++ leBytes 2420 (signature x body)
      let s2 := s1.updChain part fun y => y.sealed t1 rec_ off (s.holds part)
      { s2 with io := { s2.io with held := s2.io.held ++ [.reading part rec_] } }

/-- SEALED_INTERVAL_CLOSE: at a whole second, every interval closed and the records written as the log ring has room; correctable reports that
the second before has left waiting go ahead of them (spec/22 R327). -/
def execSealedIntervalClose (s : State) : Host.Outcome State Fault Refusal :=
  .next (
    let sec := s.timeB / 1000000000
    if s.boot ≠ .up ∨ sec ≤ s.energy.lastSec then s
    else
      let s1 := (s.energy.chains.map (·.part)).foldl (fun s p => s.closeChain (sec * 1000000000) p) (s.flushCE false)
      State.flushLog { s1 with energy := { s1.energy with lastSec := sec } })

/-! ### The public key and the last records (spec/19 R295, R297) -/

/-- FW_READ_PUBLIC_KEY: the key and the certificate that binds it. -/
def execFwReadPublicKey (s : State) : Host.Outcome State Fault Refusal :=
  .next (if s.boot = .up then { s with outside := { s.outside with key := Config.publicKey.toList ++ Config.certificate } } else s)

/-- Whether a signature verifies for a message: the device has made it with some random value, or it is another that FIPS 204 accepts
(spec/19 R295; log 14). -/
def mldsaVerify (msg : BitVec 256) (sig : BitVec 19360) : Bool :=
  decide (∃ r, r < 2 ^ 256 ∧ Config.mldsaSign (BitVec.ofNat 256 r) msg = sig) || Config.mldsaForged msg sig

/-- Whether a record of a partition verifies under the device's own key. -/
def recordVerifies (part : Nat) (r : List Byte) : Bool :=
  let n := 152 + 16 * fieldAt r 144 4
  fieldAt r 0 4 == 0x31525A56 && fieldAt r 4 2 == 1 && fieldAt r 6 2 == part && r.length == n + 2420 &&
    mldsaVerify (BitVec.ofNat 256 (leNat (sha3 (r.take n)))) (BitVec.ofNat 19360 (leNat (r.drop n)))

/-- FW_SUPPLY_LAST_RECORD: before the first context, a record that verifies seeds its chain. -/
def execFwSupplyLastRecord (part : Nat) (bytes : List Byte) (s : State) : Host.Outcome State Fault Refusal :=
  .next (if s.boot = .up ∧ s.ctxs = [] then
      s.updChain part fun c =>
        if c.seq = 0 ∧ c.last = [] then { c with prev := if recordVerifies part bytes then sha3 bytes else List.replicate 32 0 } else c
    else s)

/-! ### The power arbiter (spec/19 R298) -/

/-- The lowest priority among the resident queues of a core's teams. -/
def State.corePrio (s : State) (c : Nat) : Option Nat :=
  (s.all.filter fun t => t.placed && t.core == c && !t.isAgent).foldl (fun b t =>
    match t.id.queue with
    | none => b
    | some q =>
      match s.queue? q with
      | some x => (match b with | some p => some (min p x.prio) | none => some x.prio)
      | none => b) none

/-- A clock moved by a step whose size is a free value: lowered, to 1 MHz at least, or raised, to the rated 2.4 GHz at most (log 24). -/
def stepMhz (down : Bool) (x k : Nat) : Nat := if down then 1 + x % max 1 (k - 1) else if 2400 ≤ k then 2400 else k + x % (2401 - k)

/-- The islands whose clocks fall together: those of the cores whose resident queues have the lowest priority, the shared ones, or all. -/
inductive Stage where
  | cores (prio : Nat)
  | shared
  | all
  deriving DecidableEq, Repr

/-- Whether the clock of a core's islands can still fall. -/
def Core.canSlow (c : Core) : Bool := decide (1 < c.clk.mhz) || decide (1 < c.mclk.mhz)

/-- The stage that the arbiter stands at: the first whose islands can still fall. -/
def State.stage (s : State) : Stage :=
  let ps := (List.range 256).map fun c => (c, s.corePrio c)
  let low := ps.foldl (fun b x => match b, x.2 with | some p, some q => some (min p q) | none, q => q | p, none => p) none
  match low with
  | some p =>
    if ps.any fun x => x.2 == some p && (s.core x.1).canSlow then .cores p
    else if s.l2clk.toList.any (fun k => decide (1 < k.mhz)) || s.chclk.toList.any (fun k => decide (1 < k.mhz)) then .shared
    else .all
  | none =>
    if s.l2clk.toList.any (fun k => decide (1 < k.mhz)) || s.chclk.toList.any (fun k => decide (1 < k.mhz)) then .shared else .all

/-- Whether an island, numbered as spec/01 R21 lists them (SIMT 0, matrix 256, L2 512, channel pairs 768), belongs to a stage. -/
def State.inStage (s : State) (g : Stage) (i : Nat) : Bool :=
  match g with
  | .cores p => decide (i < 512) && s.corePrio (i % 256) == some p
  | .shared => decide (512 ≤ i)
  | .all => true

/-- The clocks of all islands changed, by island number. -/
def State.setClocks (s : State) (f : Nat → Clock → Clock) : State :=
  { s with
    cores := Vector.ofFn fun c : Fin 256 => { s.cores[c] with clk := f c s.cores[c].clk, mclk := f (256 + c) s.cores[c].mclk }
    l2clk := Vector.ofFn fun c : Fin 256 => f (512 + c) s.l2clk[c]
    chclk := Vector.ofFn fun c : Fin 256 => f (768 + c) s.chclk[c] }

/-- POWER_BUDGET_TICK, every 50 µs: with a demand of the islands and of the ports, in milliwatts, above the limit the clocks of a stage fall, and
their islands have budgets of at most their demand; otherwise clocks may rise to the rated 2.4 GHz. The ports are not slowed. -/
def execPowerBudgetTick (d : PowerDemand) (s : State) : Host.Outcome State Fault Refusal :=
  .next (
    if s.boot ≠ .up then s
    else
      let g := s.stage
      let above := decide (1000 * s.pwrlim.toNat < d.islands.foldl (· + ·) d.ports)
      let moved (i : Nat) : Bool := !above || s.inStage g i
      let free (i : Nat) : Nat := Config.freeNat (s.fresh + i)
      let budget (i : Nat) : Nat :=
        let x := d.islands.getD i 0
        if above && moved i then free (1024 + i) % (x + 1) else x
      let s1 := s.setClocks fun i k => if moved i then k.set s.now (stepMhz above (free i) k.mhz) else k
      { s1 with fresh := s.fresh + 2048, energy := { s1.energy with budgets := (List.range 1024).map budget } })

end Sys2Proof.Machine
end

