-- ==== Sys2Proof/Machine/Time.lean ====
section
/-!
DEFINITION. Sys2Proof/Machine/Time.lean: the IEEE 1588 time port: frames, the selected master, the servo and the time state, the
1PPS output (spec/01 R19, R20; log 25).
-/
namespace Sys2Proof.Machine
open Sys2Proof

/-- Whether a transport is enabled by its bit of PTPCFG. -/
def State.transportOn (s : State) (t : PtpTransport) : Bool :=
  s.ptpcfg.getLsbD (match t with | .ipv4 => 8 | .ipv6 => 9 | .ethernet => 10)

/-- A frame dropped at the port. -/
def State.dropFrameAt (s : State) : State := { s with time := { s.time with dropped := s.time.dropped + 1 } }

/-- A message of an enabled transport and of the domain: handled; of another transport: dropped; of another domain: ignored. -/
def State.ptp (s : State) (t : PtpTransport) (domain : BitVec 8) (k : State → State) : State :=
  if ¬ s.transportOn t then s.dropFrameAt
  else if s.ptpcfg.setWidth 8 = domain then k s
  else s

/-- PTP_FRAME_DROP: a frame that is no PTP message of an enabled transport. -/
def execPtpFrameDrop (isPtp : Bool) (t : PtpTransport) (s : State) : Host.Outcome State Fault Refusal :=
  .next (if isPtp ∧ s.transportOn t then s else s.dropFrameAt)

/-- FW_SET_PTP_ADDRESS. -/
def execFwSetPtpAddress (v4 : BitVec 32) (v6 : BitVec 128) (s : State) : Host.Outcome State Fault Refusal :=
  .next (if s.boot = .up then { s with time := { s.time with ipv4 := v4, ipv6 := v6 } } else s)

/-- Whether one announced clock is better than another by the default best master clock algorithm: priority 1, class, accuracy, variance,
priority 2, identity. -/
def betterClock (x y : Gm) : Bool :=
  lexLt [(x.prio1, y.prio1), (x.cls, y.cls), (x.acc, y.acc), (x.var, y.var), (x.prio2, y.prio2), (x.src, y.src)]

/-- PTP_ANNOUNCE_RECEIVE: the best master clock algorithm selects the master. -/
def execPtpAnnounceReceive (src prio1 : Nat) (quality : ClockQuality) (prio2 : Nat) (t : PtpTransport) (domain : BitVec 8) (s : State) :
    Host.Outcome State Fault Refusal :=
  .next (s.ptp t domain fun s =>
    let x : Gm := ⟨src, prio1, quality.cls, quality.acc, quality.var, prio2⟩
    let take : Bool := match s.time.master with
      | none => true
      | some y => y.src == src || betterClock x y
    if take then { s with time := { s.time with master := some x } } else s)

/-- Whether a clock is the selected master. -/
def TimePort.isMaster (p : TimePort) (src : Nat) : Bool :=
  match p.master with
  | some y => y.src == src
  | none => false

/-- PTP_DELAY_RESP_RECEIVE: the path delay measured with the master. -/
def execPtpDelayRespReceive (src : Nat) (t : PtpTransport) (domain : BitVec 8) (delay : Int) (s : State) :
    Host.Outcome State Fault Refusal :=
  .next (s.ptp t domain fun s =>
    if s.time.isMaster src then { s with time := { s.time with pathDelay := delay } } else s)

/-- The second of PTP time that TIMEB + EPOCHOFF stands in. -/
def TimePort.second (p : TimePort) : Nat := (p.timeb + p.epochoff).toNat / 1000000000

/-- The time state after a Sync, with the counts of consecutive offsets within ±100 ns and beyond ±1 µs. The 1PPS output, which starts with
the first lock, rises at the next whole second. -/
def TimePort.judge (p : TimePort) (offset : Int) : TimePort :=
  let good := if offset.natAbs ≤ 100 then p.good + 1 else 0
  let bad := if 1000 < offset.natAbs then p.bad + 1 else 0
  if p.timest ≠ 1 ∧ 16 ≤ good then
    { p with timest := 1, everLocked := true, pps := if p.everLocked then p.pps else p.second, good := 0, bad := 0 }
  else if p.timest = 1 ∧ 16 ≤ bad then { p with timest := 2, good := 0, bad := 0 }
  else { p with good := good, bad := bad }

/-- Intervals that include time outside LOCKED are marked (spec/19 R294). -/
def State.markUnsync (s : State) : State :=
  if s.time.timest = 1 then s
  else { s with energy := { s.energy with chains := s.energy.chains.map fun c => { c with unsync := true } } }

/-- The Sync interval of a logSyncInterval that the port supports, −4 to 1, in nanoseconds (spec/01 R19). -/
def syncInterval (l : Int) : Option Nat := if -4 ≤ l ∧ l ≤ 1 then some (62500000 * 2 ^ (l + 4).toNat) else none

/-- The rate, in parts in 10^9, that the servo sets after an offset: within ±200 ns, one that leads within three Sync intervals to another
offset within ±200 ns, a free value; beyond, one that closes the error, a free value of at most 200 ppm (spec/01 R20; log 25). -/
def servoRate (x interval : Nat) (offset : Int) : Int :=
  if offset.natAbs ≤ 200 then (((x % 401 : Nat) - 200 - offset) * 1000000000).tdiv (3 * interval)
  else if 0 < offset then -(x % 200001 : Nat)
  else (x % 200001 : Nat)

/-- PTP_SYNC_RECEIVE: a Sync of the master, at its times: the first sets EPOCHOFF; the
time state follows; each corrects the rate, but in FREERUN, where it stays nominal. -/
def execPtpSyncReceive (src : Nat) (t : PtpTransport) (domain : BitVec 8) (logInterval : Int) (times : SyncTimes) (s : State) :
    Host.Outcome State Fault Refusal :=
  .next (s.ptp t domain fun s =>
    match syncInterval logInterval with
    | none => s
    | some iv =>
    if ¬ s.time.isMaster src then s
    else
      let (x, s1) := s.draw
      let p := { s1.time with interval := iv }
      let rx : Int := p.timeb.toNat - times.age
      let p1 : TimePort :=
        if p.epochSet then p
        else { p with epochSet := true, epochoff := BitVec.ofInt 64 (times.master + p.pathDelay - rx) }
      let offset : Int := rx + p1.epochoff.toInt - (times.master + p1.pathDelay)
      let p2 := TimePort.judge { p1 with lastSync := p1.timeb.toNat } offset
      State.markUnsync { s1 with time := { p2 with rate := if p2.timest = 0 then 0 else servoRate x iv offset } })

/-- PTP_SYNC_TIMEOUT: LOCKED ends when no Sync has come for three Sync intervals. In HOLDOVER TIMEB keeps the last corrected rate exactly, where
the spec lets it drift within 1 ppm in the first hour and 20 ppm after that: the model's choice (log 25). -/
def execPtpSyncTimeout (s : State) : Host.Outcome State Fault Refusal :=
  .next (if s.time.timest = 1 ∧ s.time.lastSync + 3 * s.time.interval ≤ s.timeB then
      State.markUnsync { s with time := { s.time with timest := 2, good := 0, bad := 0 } }
    else s)

/-- PPS_EDGE: after the first lock, the output rises at each whole second of TIMEB + EPOCHOFF. -/
def execPpsEdge (s : State) : Host.Outcome State Fault Refusal :=
  .next (if s.time.everLocked ∧ s.time.pps ≠ s.time.second then { s with time := { s.time with pps := s.time.second } } else s)

end Sys2Proof.Machine
end

