-- ==== Sys2Proof/Machine/Errors.lean ====
section
/-!
DEFINITION. Sys2Proof/Machine/Errors.lean: hardware errors and links (spec/09 R173; spec/22 R324 to R327; log 23).
-/
namespace Sys2Proof.Machine
open Sys2Proof

/-- What a core has cached of a physical address dropped, to be fetched again: its clean L1 sector, and the instruction words that stand at
the sector's place in a page. -/
def State.refetch (s : State) (core addr : Nat) : State :=
  { s.dropClean core addr with icache := s.icache.filter fun w => !(w.core == core && w.va % 4096 / 32 == addr % 4096 / 32) }

/-- Cached translations of a cluster, and of its die, to the page of a physical address dropped, to be walked again. -/
def State.rewalk (s : State) (cluster addr : Nat) : State :=
  let off (e : TlbEntry) : Bool := decide (e.leaf.frame ≤ addr) && decide (addr < e.leaf.frame + pageBytes e.size)
  { s with
    tlb := s.tlb.filter fun e => !(e.unit == cluster && off e)
    dtlb := s.dtlb.filter fun e => !(e.unit == dieOf cluster && off e) }

/-- CORRECTABLE_ERROR: corrected, or fetched or walked again, and reported (spec/22 R324). -/
def execCorrectableError (unit index addr : Nat) (s : State) : Host.Outcome State Fault Refusal :=
  .next ((if unit = 0 then s.refetch index addr else if unit = 1 then s.rewalk index addr else s).reportCE unit index addr)

/-- A register that an error meets made all-ones: one lane of a v register, or an s register. -/
def Team.burn (t : Team) : RegPlace → Team
  | .v _ r lane =>
    if lane < t.width then t.setV (Fin.ofNat 64 r) ((t.v (Fin.ofNat 64 r)).set lane (BitVec.allOnes 32)) else t
  | .s _ r => t.setS (Fin.ofNat 64 r) (BitVec.allOnes 64)

/-- The team of a register. -/
def regTeam : RegPlace → Nat
  | .v tid _ _ => tid
  | .s tid _ => tid

/-- UNCORRECTABLE_ERROR: of a register file, one lane word or one scalar register; else a sector becomes poison, in an L1 one that is dirty; a clean L1
line is fetched again and reported as correctable. -/
def execUncorrectableError (unit index addr : Nat) (reg : Option RegPlace) (s : State) : Host.Outcome State Fault Refusal :=
  .next (match reg with
    | some r => (s.updTeam (regTeam r) (·.burn r)).report 2 unit index 0xFFFFFFFF 0 0 addr
    | none =>
      match s.dirtyAt index addr with
      | some d =>
        if unit = 0 then (((s.dropDirty d).dropClean index addr).addPoison [addr]).report 2 unit index 0xFFFFFFFF 0 0 addr
        else (s.addPoison [addr]).report 2 unit index 0xFFFFFFFF 0 0 addr
      | none =>
        if unit = 0 ∧ s.clean.any (fun c => c.core == index && c.key == sectorOf addr) then
          (s.dropClean index addr).reportCE unit index addr
        else (s.addPoison [addr]).report 2 unit index 0xFFFFFFFF 0 0 addr)

/-- A link's record changed. -/
def State.updLink (s : State) (p : Nat) (f : Link → Link) : State :=
  if h : p < 33 then { s with links := s.links.set p (f s.links[p]) } else s

/-- A packet that fails its CRC (R324): sent again up to 8 times, then the link retrains. `again` says that it was sent
again before; a packet that fails for the first time starts the count anew. -/
def Link.crcError (l : Link) (again : Bool) : Link :=
  if l.state ≠ 1 then l
  else if !again then { l with retries := 1 }
  else if l.retries < 8 then { l with retries := l.retries + 1 }
  else { l with state := 2, retries := 0 }

/-- LINK_CRC_ERROR: port 32 is the Ocile link. -/
def execLinkCrcError (port : Nat) (again : Bool) (s : State) : Host.Outcome State Fault Refusal :=
  .next (s.updLink port (·.crcError again))

/-- The end of a retrain: up; another try; or DOWN after the third. -/
def Link.retrained (l : Link) (ok : Bool) : Link :=
  if l.state ≠ 2 then l
  else if ok then { l with state := 1, retries := 0, retrains := 0 }
  else if l.retrains < 2 then { l with retrains := l.retrains + 1 }
  else { l with state := 0, retrains := 3 }

/-- What has waited for a link tried again: signal operations, page request records, log records (spec/22 R324). -/
def State.linkRetry (s : State) : State := s.retrySignals.flushPrq.flushLog

/-- LINK_RETRAIN_END: a port that goes DOWN is reported; requests that wait for it then meet a DOWN port. -/
def execLinkRetrainEnd (port : Nat) (ok : Bool) (s : State) : Host.Outcome State Fault Refusal :=
  .next (if h : port < 33 then
      let l := s.links[port].retrained ok
      let s1 := s.updLink port fun _ => l
      if s.links[port].state ≠ 2 ∨ l.state = 2 then s1
      else if l.state = 0 then
        (s1.report 3 (if port = 32 then 5 else 4) (if port = 32 then 0 else port) 0xFFFFFFFF 0 0 0).linkRetry
      else s1.linkRetry
    else s)

/-- LINK_COMPRESSOR_SWITCH: a port's compressor follows the fill of its transmit queue, in percent, about the threshold of 75. -/
def execLinkCompressorSwitch (port fill : Nat) (s : State) : Host.Outcome State Fault Refusal :=
  .next (if port < 32 then s.updLink port fun l => { l with comp := if 75 < fill then true else if fill < 75 then false else l.comp }
    else s)

end Sys2Proof.Machine
end

