-- ==== Sys2Proof/Machine/Reset.lean ====
section
/-!
DEFINITION. Sys2Proof/Machine/Reset.lean: loss of power, bring-up, warm reset, and firmware requests on contexts and partitions
(spec/01 R20; spec/18 R273, R282, R288; spec/19 R297; spec/23 R341, R342; log 26).
-/
namespace Sys2Proof.Machine
open Sys2Proof

/-! ### Bring-up (spec/23 R342) -/

/-- Whether a key lies outside the device: host and remote memory. -/
def outsideKey (k : Nat) : Bool := decide (2 ^ 64 ≤ k) && decide (k < 2 ^ 66)

/-- What a loss of power or a cold reset leaves: the fuse map, what is not the device's, and the model's own counters. -/
def State.cold (s : State) : State :=
  { State.reset with
    mem := s.mem.filter fun x => outsideKey x.1
    poison := s.poison.filter outsideKey
    fuses := s.fuses
    remotes := s.remotes
    members := s.members
    outside := s.outside
    now := s.now
    fresh := s.fresh
    nextId := s.nextId
    lastStall := s.cyc
    lastDrain := s.cyc
    agenda := s.agenda }

/-- POWER_LOSS. -/
def execPowerLoss (s : State) : Host.Outcome State Fault Refusal := .next s.cold

/-- POWER_GOOD, or a cold reset: the Ocile link trains. -/
def execPowerGood (trains : Bool) (s : State) : Host.Outcome State Fault Refusal :=
  .next (if trains then { (s.cold.updLink 32 fun l => { l with state := 1 }) with boot := .waitImage }
    else { s.cold with boot := .linkDown })

/-- The agent slot of a core as bring-up leaves it (spec/12 R213): no rows, agent level, waiting for work. -/
def agentTeam (tid core cyc : Nat) : Team :=
  { Team.absent with
    id := { Team.absent.id with tid := tid, ctx := noCtx, kernel := { Kernel.zero with regs := 0 } }
    place := .agent core
    ctl := { Team.absent.ctl with level := .agent }
    flow := { Flow.start with hold := .agentIdle }
    sch := ⟨cyc, 0, none, none⟩ }

/-- The agents of every enabled and powered core started. -/
def State.startAgents (s : State) : State :=
  let cs := (List.range 256).filter fun c => s.fuses.coren.getLsbD c && !s.unpowered.contains (0, c)
  { s with teams := s.teams ++ cs.map (fun c => agentTeam (s.nextId + c) c (s.coreCyc c)), nextId := s.nextId + 256 }

/-- The Floe ports that are enabled and train. -/
def State.trainPorts (s : State) (ok : BitVec 32) : State :=
  (List.range 32).foldl (fun s p => s.updLink p fun l =>
    { l with state := if s.fuses.floe.getLsbD p ∧ ok.getLsbD p then 1 else 0, retries := 0, retrains := 0 }) s

/-- A unit that fails at bring-up: reported, and left unpowered. -/
def State.failUnit (s : State) (u : Nat × Nat) : State :=
  ({ s with unpowered := u :: s.unpowered }).report 2 u.1 u.2 0xFFFFFFFF 0 0 0

/-- Measurement starts: every chain's interval begins now. -/
def State.startMeters (s : State) (boot : W128) : State :=
  { s with energy := { s.energy with
      lastTick := s.timeB / 1000000 * 1000000
      lastSec := s.timeB / 1000000000
      chains := s.energy.chains.map fun c => { c with boot := boot, t0 := s.timeB } } }

/-- FIRMWARE_IMAGE_VERIFY: an image that verifies brings up the ports that train, the islands and memory, which is zero; the
units that fail stay unpowered; one that does not verify leaves the device waiting for another. -/
def execFirmwareImageVerify (digest sig : Nat) (ports : BitVec 32) (failing : List (Nat × Nat)) (boot : BitVec 128) (s : State) :
    Host.Outcome State Fault Refusal :=
  .next (if s.boot ≠ .waitImage ∧ s.boot ≠ .badImage then s
    else if ¬ Config.firmwareVerify digest sig then { s with boot := .badImage }
    else
      let s1 := (failing.filter fun u => u.1 == 0 || u.1 == 3).foldl State.failUnit (s.trainPorts ports)
      ({ s1 with
          mem := s1.mem.filter fun x => outsideKey x.1
          poison := s1.poison.filter outsideKey
          boot := .up }.startMeters boot).startAgents)

/-! ### Warm reset (spec/19 R297, spec/23 R341) -/

/-- A chain after a warm reset: continued from its last record if that verifies, its boot session too, with the interval that the reset met still
open; else as after a cold reset, with a new boot identifier. -/
def Chain.warmed (now : Nat) (boot : W128) (c : Chain) : Chain :=
  if c.last ≠ [] ∧ recordVerifies c.part c.last then
    { Chain.reset c.part with
      boot := c.boot, seq := c.seq, cum := c.cum, account := c.cum, t0 := fieldAt c.last 40 8, prev := c.prev, last := c.last, warm := true, gap := true,
      held := c.held }
  else { Chain.reset c.part with boot := boot, t0 := now }

/-- WARM_RESET: issue stops; dirty sectors are written back and held records written; the device resets, keeping device memory, the
seal store, the fuse map and the time. -/
def execWarmReset (s : State) : Host.Outcome State Fault Refusal :=
  .next (if s.boot ≠ .up then s
    else
      let (x, s0) := s.markHeld.draw
      let s1 := (State.flushCE ((s0.dirty.filter fun d => !d.pinned).foldl State.writeBackOld s0) true).flushLog
      let c := s1.cold
      let time : TimePort := { s1.time with
        timest := if s1.time.timest = 1 then 2 else s1.time.timest
        good := 0, bad := 0, master := none, pathDelay := 0, ipv4 := 0, ipv6 := 0, dropped := 0 }
      let s2 : State := { c with
        mem := s1.mem.filter fun x => decide (x.1 < 2 ^ 66)
        poison := s1.poison.filter fun k => decide (k < 2 ^ 66)
        unpowered := s1.unpowered
        boot := .up
        time := time
        lastStall := s1.cyc
        lastDrain := s1.cyc
        io := { Rings.reset with held := s1.io.held, lost := s1.io.lost }
        energy := ⟨[], s1.energy.chains.map (Chain.warmed s1.timeB (BitVec.ofNat 128 x)), [], s1.timeB / 1000000 * 1000000, s1.timeB / 1000000000⟩ }
      ((s2.updLink 32 fun l => { l with state := 1 }).trainPorts s2.fuses.floe).startAgents)

/-! ### Contexts and partitions (spec/18 R273, R288) -/

/-- FW_CONTEXT_CREATE: a free number becomes a live context, with its account at 0; a number that is used again with a raised generation. -/
def execFwContextCreate (ctx root part ffl fflen pool poolLen : Nat) (s : State) : Host.Outcome State Fault Refusal :=
  .next (
    let old := s.ctx? ctx
    let live : Bool := match old with | some c => c.cstate != 0 | none => false
    if s.boot ≠ .up ∨ 4096 ≤ ctx ∨ 32 ≤ part ∨ live then s
    else
      let gen := match old with | some c => (c.gen + 1) % 2 ^ 32 | none => 0
      { s with ctxs := ⟨ctx, root, gen, part, 1, ffl, fflen, 0, 0, pool, poolLen, []⟩ :: s.ctxs.filter (·.id != ctx) })

/-- Pre-emptions of a context's queues that teams wait for, answered: the queues are not resident, and not known (spec/20 R312; log 26). -/
def State.answerSaves (s : State) (ctx gen : Nat) : State :=
  (s.queues.filter fun q => q.ctx == ctx && q.gen == gen).foldl (fun s q => (s.answerOps 0 q.saveOps).answerOps 1 q.rsmOps) s

/-- Everything of a context's generation that runs or waits, let go (log 26). -/
def State.dropContext (s : State) (ctx gen : Nat) : State :=
  let mine (t : Team) : Bool := t.id.ctx == ctx && t.id.gen == gen
  let tids := (s.all.filter mine).map (·.id.tid)
  let ws := (s.walks.filter fun w => w.ctx == ctx && w.gen == gen).map (·.id)
  let qs := (s.queues.filter fun q => q.ctx == ctx && q.gen == gen).map (·.id)
  let bs := s.bundles.filter fun b => qs.contains b.queue
  let ys := (s.copies.filter fun c => c.ctx == ctx && c.gen == gen).map (·.id)
  let s1 := (List.range 256).foldl (fun s c => s.updCore c fun x => { x with
    walk := x.walk.filter fun w => !ws.contains w.walk
    pipe := x.pipe.filter fun p => match p.tid with | some t => !tids.contains t | none => !ys.contains p.copy
    fillq := x.fillq.filter fun p => !ys.contains p.1 }) s
  { s1 with
    me := if mine s1.me then .absent else s1.me
    teams := s1.teams.filter fun t => !mine t
    tlb := s1.tlb.filter fun e => !(e.ctx == ctx && e.gen == gen)
    dtlb := s1.dtlb.filter fun e => !(e.ctx == ctx && e.gen == gen)
    edits := s1.edits.filter fun e => !tids.contains e.tid
    sigq := s1.sigq.filter fun o => !(o.ctx == ctx && o.gen == gen)
    clean := s1.clean.filter fun e => !(e.ctx == ctx && e.gen == gen)
    icache := s1.icache.filter fun e => !(e.ctx == ctx && e.gen == gen)
    copies := s1.copies.filter fun c => !(c.ctx == ctx && c.gen == gen)
    rings := s1.rings.filter fun r => !(r.ctx == ctx && r.gen == gen)
    ringWaits := s1.ringWaits.filter fun w => !tids.contains w.tid
    waits := s1.waits.filter fun w => !tids.contains w.tid
    walks := s1.walks.filter fun w => !ws.contains w.id
    gangs := s1.gangs.filter fun g => !bs.any fun b => b.subs.any fun x => x.rec_.kind == 0 && x.gang == g.id
    queues := s1.queues.filter fun q => !qs.contains q.id
    bundles := s1.bundles.filter fun b => !qs.contains b.queue
    groups := s1.groups.filter fun g => !(g.ctx == ctx && g.gen == gen)
    images := s1.images.filter fun i => !(i.ctx == ctx && i.gen == gen) }

/-- FW_CONTEXT_KILL: the generation rises and the context is dying; merge entries remain until they are answered (spec/18 R285). -/
def execFwContextKill (ctx : Nat) (s : State) : Host.Outcome State Fault Refusal :=
  .next (match s.ctx? ctx with
    | none => s
    | some c =>
      if c.cstate ≠ 1 then s
      else ((s.answerSaves ctx c.gen).dropContext ctx c.gen).updCtx ctx fun x =>
        { x with gen := (x.gen + 1) % 2 ^ 32, cstate := 2, energy := 0, poolUsed := [] })

/-- Whether a cluster holds work. -/
def State.clusterBusy (s : State) (cluster : Nat) : Bool :=
  s.all.any (fun t => t.placed && !t.isAgent && t.cluster == cluster) ||
  (List.range 8).any (fun i => (s.core (8 * cluster + i)).walk.isSome) || (s.occ none []).walks.any (· / 8 == cluster) ||
  s.copies.any (·.cluster == cluster) || s.rings.any (·.cluster == cluster) ||
  s.bundles.any fun b => b.cstores.any (·.1 == cluster)

/-- FW_PARTITION_ASSIGN: a cluster that holds no work changes its partition (spec/18 R288). -/
def execFwPartitionAssign (cluster : Nat) (part : Option (Fin 32)) (s : State) : Host.Outcome State Fault Refusal :=
  .next (if h : cluster < 32 then
      if s.boot ≠ .up ∨ s.clusterBusy cluster then s
      else State.markHeld { s.markHeld with parts := s.parts.set cluster part }
    else s)

end Sys2Proof.Machine
end

