-- ==== Sys2Proof/Machine/Due.lean ====
section
/-!
DEFINITION. Sys2Proof/Machine/Due.lean: the events that the machine's own agents have due, in the order in which the model
tries them when the agenda names no turn (log 1). The spec fixes no order between independent agents; the
agenda can name any other.
-/
namespace Sys2Proof.Machine
open Sys2Proof

/-- An event of an agent of the machine, ready to run. -/
abbrev Due := State → Host.Outcome State Fault Refusal

/-- Events of the teams: traps that waited, freed slots, completed operations. -/
def State.dueTeams (s : State) : List Due :=
  s.all.flatMap fun t =>
    (if t.flow.trapPend.isSome then [execTrapEntry t.id.tid] else []) ++
    (if t.ended then [execTeamSlotRelease t.id.tid] else []) ++
    t.flow.ops.filterMap fun o =>
      if ¬ o.ready ∧ o.held.isNone then none
      else match o.cls with
        | .ld => some (execLoadComplete t.id.tid o.id)
        | .st => some (execStorePerformed t.id.tid o.id)
        | .at_ => some (execAtomicPerformed t.id.tid o.id)
        | .sg => some (execSgOperationPerformed t.id.tid o.id)
        | .cp => none

/-- Events of the transform pipes, the registered waits, the copies and the rings. -/
def State.dueEngines (s : State) : List Due :=
  ((List.range 256).filterMap fun c => if (s.core c).pipe = [] then none else some (execTransformPipeReply c)) ++
  (s.waits.filterMap fun w => if w.hit.isSome then some (execSignalWaitSatisfied w.id) else none) ++
  (s.copies.flatMap fun c => execCopyStart c.id ::
    ((List.range c.jobs.length).map fun j => execCopySectorPerformed c.id j)) ++
  (s.rings.flatMap fun r =>
    [if r.drain then execRingDrainChunk r.cluster r.id else execRingFillChunk r.cluster r.id] ++
    (if r.unbind then [execRingUnbindComplete r.cluster r.id] else []))

/-- Events of one core's walk: the K-step in the array ends before the next begins. -/
def WalkCore.turns (c : Nat) (w : WalkCore) : List Due :=
  (if w.array.isSome then [execKstepBoundary c] else []) ++
  ((List.range w.cslots.length).flatMap fun i => [execSplitkArrival c i, execStreamDrainComplete c i]) ++
  ((List.range w.aslots.length).map fun i => execStreamFillComplete c false i) ++
  ((List.range w.bslots.length).map fun i => execStreamFillComplete c true i) ++
  [execUpcallDelivery c 0, execUpcallDelivery c 1, execUpcallDelivery c 2, execKstepBegin c]

/-- Events of the walks. -/
def State.dueWalks (s : State) : List Due :=
  (List.range 256).flatMap fun c =>
    match (s.core c).walk with
    | none => []
    | some w => w.turns c

/-- Events of the firmware agents. -/
def State.dueAgents (s : State) : List Due :=
  (s.queues.flatMap fun x =>
    [execSignalPacketPerform x.id, execWaitSignalsDispatch x.id, execPlacementRetry x.id, execPacketDispatch x.id] ++
    (if x.saving then [execPreemptSaveComplete x.id, execDrainLimitExpiry x.id] else []) ++
    (if x.victimOf.isSome then [execQueueAutoResume x.id] else []) ++
    [execPlacementPressurePreempt x.id]) ++
  (s.bundles.filterMap fun b => if b.phase = 1 then some (execBundleStart b.id) else none) ++
  (s.readyTeams.map fun t => execEvictedTeamRestore t.id.tid) ++
  (s.queues.flatMap fun x => (s.coresOf x).map fun c => execTicketClaim x.id c)

/-- Events of clocks and watchers, and of the answer ring. -/
def State.dueClocks (s : State) : List Due :=
  (s.groups.map fun g => execGroupDeadline g.id) ++
  ((List.range 256).filterMap fun c => if (s.core c).walk.isSome then some (execWalkStallReport c) else none) ++
  (if s.boot = .up then [execQueueStallCheck] else []) ++
  (if s.io.taken < s.io.prawr.toNat then [execPageAnswer] else []) ++
  [execSealedIntervalClose, execPpsEdge] ++
  ((List.range 256).filterMap fun c => if (s.core c).dbg = .haltedBusy then some (execDebugHaltQuiet c) else none)

/-- Every dirty sector that is not pinned written back, so that each is within 2^20 cycles of its store (spec/08 R155). -/
def drainAll (s : State) : Host.Outcome State Fault Refusal :=
  .next { (s.writeBackAll false (s.dirty.filter fun d => !d.pinned)).1 with lastDrain := s.cyc }

/-- The drain, every half of the bound. -/
def State.dueDrain (s : State) : List Due := if s.lastDrain + 2 ^ 19 ≤ s.cyc then [drainAll] else []

/-- Every event that may be due. -/
def State.due (s : State) : List Due := s.dueDrain ++ s.dueTeams ++ s.dueEngines ++ s.dueWalks ++ s.dueAgents ++
  s.dueClocks

/-- The state after the first event that changes something; none, if no event does. -/
def firstDue (s : State) : List Due → Option State
  | [] => none
  | f :: fs =>
    match f s with
    | .next s1 => if s1 = s then firstDue s fs else some s1
    | _ => firstDue s fs

end Sys2Proof.Machine
end

