-- ==== Sys2Proof/Machine/Agenda.lean ====
section
/-!
DEFINITION. Sys2Proof/Machine/Agenda.lean: who moves next: the rest of a chain group, the next turn of the agenda, an event
that is due, or the team that the schedulers would issue (spec/12 R209, R210; log 1).
-/
namespace Sys2Proof.Machine
open Sys2Proof

/-- What a turn comes to: nothing more, an instruction or event to run, or an agenda that names an instruction word as an
event. -/
inductive Todo where
  | done
  | run (i : Instr)
  | bad
  deriving DecidableEq, Repr

/-- The turn of the team in issue. -/
def State.go (s : State) : State × Todo :=
  match s.nextWord with
  | (s1, some i) => (s1, .run i)
  | (s1, none) => (s1, .done)

/-- What a step does, and the state in which it does it: the rest of a group whose team can go on; the next turn of the agenda; an event
that is due; the team that the schedulers would issue; with none of them, a cycle passes. -/
def State.turn (s : State) : State × Todo :=
  if s.me.resumes ∧ s.eligible s.me then s.go
  else
    match s.agenda with
    | .event dt i :: rest =>
      if hasWord i then (s, .bad) else (({ s with agenda := rest }).pass dt, .run i)
    | .issue core sched :: rest =>
      match s.pickOn core sched with
      | some t => (({ s with agenda := rest }).select t.id.tid).go
      | none => ({ s with agenda := rest }, .done)
    | .pick tid :: rest =>
      match s.all.find? fun t => t.id.tid == tid with
      | some t =>
        if (s.pickOn t.core t.sched).map (·.id.tid) = some tid then (({ s with agenda := rest }).select tid).go
        else ({ s with agenda := rest }, .done)
      | none => ({ s with agenda := rest }, .done)
    | [] =>
      match firstDue s s.due with
      | some s1 => (s1, .done)
      | none =>
        match s.pickAny with
        | some t => (s.select t.id.tid).go
        | none => (s.tick 1, .done)

end Sys2Proof.Machine
end

