-- ==== Sys2Proof/Machine/FloatOps.lean ====
section
/-!
DEFINITION. Sys2Proof/Machine/FloatOps.lean: the floating-point lane words, special functions and conversions (spec/07 R120 to R128).
-/
namespace Sys2Proof.Machine
open Sys2Proof

/-- The format of a type's elements (spec/07 R120). -/
def ftypeFmt : FType → Fmt
  | .f32 => fmtF32
  | .half => fmtF16
  | .bf => fmtBf16

/-- A function of elements on one lane: one element, or the two halves apart (spec/07 R120). -/
def onElems1 (t : FType) (f : Fmt → Nat → Nat) (x : W32) : W32 :=
  match t with
  | .f32 => BitVec.ofNat 32 (f fmtF32 x.toNat)
  | _ => BitVec.ofNat 32 (f (ftypeFmt t) (x.toNat % 2 ^ 16) + f (ftypeFmt t) (x.toNat / 2 ^ 16) * 2 ^ 16)

/-- The same with two sources. -/
def onElems2 (t : FType) (f : Fmt → Nat → Nat → Nat) (x y : W32) : W32 :=
  match t with
  | .f32 => BitVec.ofNat 32 (f fmtF32 x.toNat y.toNat)
  | _ => BitVec.ofNat 32 (f (ftypeFmt t) (x.toNat % 2 ^ 16) (y.toNat % 2 ^ 16) +
      f (ftypeFmt t) (x.toNat / 2 ^ 16) (y.toNat / 2 ^ 16) * 2 ^ 16)

/-- The same with three sources. -/
def onElems3 (t : FType) (f : Fmt → Nat → Nat → Nat → Nat) (x y z : W32) : W32 :=
  match t with
  | .f32 => BitVec.ofNat 32 (f fmtF32 x.toNat y.toNat z.toNat)
  | _ => BitVec.ofNat 32 (f (ftypeFmt t) (x.toNat % 2 ^ 16) (y.toNat % 2 ^ 16) (z.toNat % 2 ^ 16) +
      f (ftypeFmt t) (x.toNat / 2 ^ 16) (y.toNat / 2 ^ 16) (z.toNat / 2 ^ 16) * 2 ^ 16)

/-- D's tag after FADD or FSUB: the common tag of two sources read as coefficients, else 0 (spec/07 R130). -/
def Team.sumTag (t : Team) (i : Instr) (a : VReg) : BitVec 4 := if t.readsCoeffs i then t.tag a else 0

/-- FADD (spec/07 R121, R130). -/
def execFadd (d a b : VReg) (g : Guard) (t : FType) (s : State) : Host.Outcome State Fault Refusal :=
  run (.fadd d a b g t) s fun s =>
    s.putV d (s.me.eff g) (List.zipWith (onElems2 t Fmt.add) (s.me.v a) (s.me.v b)) (s.me.sumTag (.fadd d a b g t) a)

/-- FSUB (spec/07 R121, R130). -/
def execFsub (d a b : VReg) (g : Guard) (t : FType) (s : State) : Host.Outcome State Fault Refusal :=
  run (.fsub d a b g t) s fun s =>
    s.putV d (s.me.eff g) (List.zipWith (onElems2 t Fmt.sub) (s.me.v a) (s.me.v b)) (s.me.sumTag (.fsub d a b g t) a)

/-- FMUL (spec/07 R121). -/
def execFmul (d a b : VReg) (g : Guard) (t : FType) (s : State) : Host.Outcome State Fault Refusal :=
  vector2 (.fmul d a b g t) d a b g (onElems2 t Fmt.mul) s

/-- FMA (spec/07 R121): one rounding; z is read from D. -/
def execFma (d a b : VReg) (g : Guard) (t : FType) (s : State) : Host.Outcome State Fault Refusal :=
  run (.fma d a b g t) s fun s =>
    s.putV d (s.me.eff g) (List.zipWith (fun f z => f z) (List.zipWith (onElems3 t Fmt.fma) (s.me.v a) (s.me.v b)) (s.me.v d)) 0

/-- FMIN (spec/07 R122). -/
def execFmin (d a b : VReg) (g : Guard) (t : FType) (s : State) : Host.Outcome State Fault Refusal :=
  vector2 (.fmin d a b g t) d a b g (onElems2 t fun f => f.minmax false) s

/-- FMAX (spec/07 R122). -/
def execFmax (d a b : VReg) (g : Guard) (t : FType) (s : State) : Host.Outcome State Fault Refusal :=
  vector2 (.fmax d a b g t) d a b g (onElems2 t fun f => f.minmax true) s

/-- `funa.exp2` (spec/07 R125, R126). -/
def execFunaExp2 (d a : VReg) (g : Guard) (t : FType) (s : State) : Host.Outcome State Fault Refusal :=
  vector1 (.funaExp2 d a g t) d a g (onElems1 t fun f => f.fn .exp2) s

/-- `funa.log2` (spec/07 R125, R126). -/
def execFunaLog2 (d a : VReg) (g : Guard) (t : FType) (s : State) : Host.Outcome State Fault Refusal :=
  vector1 (.funaLog2 d a g t) d a g (onElems1 t fun f => f.fn .log2) s

/-- `funa.rcp` (spec/07 R125, R126). -/
def execFunaRcp (d a : VReg) (g : Guard) (t : FType) (s : State) : Host.Outcome State Fault Refusal :=
  vector1 (.funaRcp d a g t) d a g (onElems1 t fun f => f.fn .rcp) s

/-- `funa.rsqrt` (spec/07 R125, R126). -/
def execFunaRsqrt (d a : VReg) (g : Guard) (t : FType) (s : State) : Host.Outcome State Fault Refusal :=
  vector1 (.funaRsqrt d a g t) d a g (onElems1 t fun f => f.fn .rsqrt) s

/-- `funa.sqrt` (spec/07 R125, R126). -/
def execFunaSqrt (d a : VReg) (g : Guard) (t : FType) (s : State) : Host.Outcome State Fault Refusal :=
  vector1 (.funaSqrt d a g t) d a g (onElems1 t fun f => f.fn .sqrt) s

/-- `funa.tanh` (spec/07 R125, R126). -/
def execFunaTanh (d a : VReg) (g : Guard) (t : FType) (s : State) : Host.Outcome State Fault Refusal :=
  vector1 (.funaTanh d a g t) d a g (onElems1 t fun f => f.fn .tanh) s

/-- `funa.sigm` (spec/07 R125, R126). -/
def execFunaSigm (d a : VReg) (g : Guard) (t : FType) (s : State) : Host.Outcome State Fault Refusal :=
  vector1 (.funaSigm d a g t) d a g (onElems1 t fun f => f.fn .sigm) s

/-- `funa.gelu` (spec/07 R125, R126). -/
def execFunaGelu (d a : VReg) (g : Guard) (t : FType) (s : State) : Host.Outcome State Fault Refusal :=
  vector1 (.funaGelu d a g t) d a g (onElems1 t fun f => f.fn .gelu) s

/-- `funa.abs` (spec/07 R125, R126). -/
def execFunaAbs (d a : VReg) (g : Guard) (t : FType) (s : State) : Host.Outcome State Fault Refusal :=
  vector1 (.funaAbs d a g t) d a g (onElems1 t fun f => f.fn .abs) s

/-- `funa.neg` (spec/07 R125, R126). -/
def execFunaNeg (d a : VReg) (g : Guard) (t : FType) (s : State) : Host.Outcome State Fault Refusal :=
  vector1 (.funaNeg d a g t) d a g (onElems1 t fun f => f.fn .neg) s

/-- `funa.floor` (spec/07 R125, R126). -/
def execFunaFloor (d a : VReg) (g : Guard) (t : FType) (s : State) : Host.Outcome State Fault Refusal :=
  vector1 (.funaFloor d a g t) d a g (onElems1 t fun f => f.fn .floor) s

/-- `funa.ceil` (spec/07 R125, R126). -/
def execFunaCeil (d a : VReg) (g : Guard) (t : FType) (s : State) : Host.Outcome State Fault Refusal :=
  vector1 (.funaCeil d a g t) d a g (onElems1 t fun f => f.fn .ceil) s

/-- `funa.rint` (spec/07 R125, R126). -/
def execFunaRint (d a : VReg) (g : Guard) (t : FType) (s : State) : Host.Outcome State Fault Refusal :=
  vector1 (.funaRint d a g t) d a g (onElems1 t fun f => f.fn .rint) s

/-- `funa.frac` (spec/07 R125, R126). -/
def execFunaFrac (d a : VReg) (g : Guard) (t : FType) (s : State) : Host.Outcome State Fault Refusal :=
  vector1 (.funaFrac d a g t) d a g (onElems1 t fun f => f.fn .frac) s

/-- The format, lowest bit and width of the narrow field of a conversion pair (spec/07 R127): FN 0 to 19 and 20 to 39. -/
def cvtField (n : Nat) : Fmt × Nat × Nat :=
  let k := n % 20
  if k < 2 then (fmtF16, 16 * k, 16)
  else if k < 4 then (fmtBf16, 16 * (k - 2), 16)
  else if k < 8 then (fmtE4m3, 8 * (k - 4), 8)
  else if k < 12 then (fmtE5m2, 8 * (k - 8), 8)
  else (fmtE2m1, 4 * (k - 12), 4)

/-- Bits [lo + w - 1:lo] of x replaced. -/
def putField (x : W32) (lo w y : Nat) : W32 :=
  BitVec.ofNat 32 (x.toNat % 2 ^ lo + y % 2 ^ w * 2 ^ lo + x.toNat / 2 ^ (lo + w) * 2 ^ (lo + w))

/-- One lane of a conversion pair: old D and A (spec/07 R127, R128). -/
def cvtLane (n : Nat) (sel : Rnd) (st d a : W32) : W32 :=
  let (f, lo, w) := cvtField n
  if n < 20 then putField d lo w (f.round sel st (fmtF32.value a.toNat))
  else BitVec.ofNat 32 (fmtF32.rne (f.value (a.toNat / 2 ^ lo % 2 ^ w)))

/-- Lanes l and up of a conversion in ascending order, the rounding state advanced once for each active lane under `sr`
(spec/04 R83). -/
def cvtLanes (m : Mask) (sel : Rnd) (f : W32 → W32 → W32 → W32) : Nat → W32 → List W32 → List W32 → List W32 × W32
  | l, st, d :: ds, a :: as =>
    if m.getLsbD l then
      let st1 := if sel = .sr then xorshift st else st
      let (ys, st2) := cvtLanes m sel f (l + 1) st1 ds as
      (f st1 d a :: ys, st2)
    else
      let (ys, st2) := cvtLanes m sel f (l + 1) st ds as
      (d :: ys, st2)
  | _, st, ds, _ => (ds, st)

/-- A rounding state written where the selection is `sr`; a word with an empty mask writes none. -/
def Team.setSr (t : Team) (sel : Rnd) (m : Mask) (st : W32) : Team :=
  if sel = .sr ∧ m ≠ 0 then t.updCtl fun c => { c with srstate := st } else t

/-- A conversion word. -/
def convert (i : Instr) (d a : VReg) (g : Guard) (sel : Rnd) (f : W32 → W32 → W32 → W32) (s : State) : Host.Outcome State Fault Refusal :=
  run i s fun s =>
    let m := s.me.eff g
    let (ys, st) := cvtLanes m sel f 0 s.me.sr (s.me.v d) (s.me.v a)
    (s.setMe fun t => (t.writeV d m ys 0).setSr sel m st).advance

/-- `fcvt` between FP32 and a narrower format (spec/07 R127, R128). -/
def execFcvtConvert (d a : VReg) (n : Fin 40) (g : Guard) (r : Rnd) (s : State) : Host.Outcome State Fault Refusal :=
  convert (.fcvtConvert d a n g r) d a g r (cvtLane n.val r) s

/-- `fcvt.i32` (spec/04 R85, spec/07 R127). -/
def execFcvtI32 (d a : VReg) (g : Guard) (r : Rnd) (s : State) : Host.Outcome State Fault Refusal :=
  convert (.fcvtI32 d a g r) d a g r (fun st _ x => roundI32 r st (fmtF32.value x.toNat)) s

/-- `fcvt.wi32` (spec/04 R84, spec/07 R127). -/
def execFcvtWi32 (d a : VReg) (g : Guard) (r : Rnd) (s : State) : Host.Outcome State Fault Refusal :=
  convert (.fcvtWi32 d a g r) d a g r (fun st _ x => BitVec.ofNat 32 (fmtF32.round r st (Val.ofInt x.toInt))) s

end Sys2Proof.Machine
end

