-- ==== Sys2Proof/Machine/Haar.lean ====
section
/-!
DEFINITION. Sys2Proof/Machine/Haar.lean: the transform words XFRM, served by the transform pipe, and the domain words DOMN (spec/07 R133
to R142).
-/
namespace Sys2Proof.Machine
open Sys2Proof

/-- A request to the transform pipe of the team's core: the team goes on when the pipe replies (spec/07 R133, R134). With a
zero execute mask nothing is requested. -/
def transform (i : Instr) (results : Team → List (VReg × List W32 × BitVec 4)) (after : Team → Team) (s : State) : Host.Outcome State Fault Refusal :=
  run i s fun s =>
    if s.me.em = 0 then s.advance
    else
      let s1 := s.pipeSend s.me (results s.me)
      (s1.setMe fun t => (after t).updFlow fun f => { f with hold := .xfrm }).advance

/-- `xfrm.hfwd` (spec/07 R135). -/
def execXfrmHfwd (d a : VReg) (k : Fin 8) (s : State) : Host.Outcome State Fault Refusal :=
  transform (.xfrmHfwd d a k) (fun t => [(d, t.inBlocks (haarForward k.val) (t.v a), BitVec.ofNat 4 k.val)]) (fun t => t) s

/-- `xfrm.hinv` (spec/07 R135): the plain values of A, A itself unchanged. -/
def execXfrmHinv (d a : VReg) (s : State) : Host.Outcome State Fault Refusal :=
  transform (.xfrmHinv d a) (fun t => [(d, t.plain a, 0)]) (fun t => t) s

/-- `xfrm.hthr` (spec/07 R136): lane-wise. -/
def execXfrmHthr (d a : VReg) (h : HReg) (s : State) : Host.Outcome State Fault Refusal :=
  transform (.xfrmHthr d a h)
    (fun t => [(d, blend t.em 0 (t.v d) ((t.v a).map fun x => if survives (t.h h) [x] then x else 0), t.tag a)]) (fun t => t) s

/-- The lanes of a block whose predicate is 1, in order, then +0 (spec/07 R137). -/
def packBlock (ps : List Bool) (xs : List W32) : List W32 :=
  let ys := ((ps.zip xs).filter (·.1)).map (·.2)
  ys ++ List.replicate (xs.length - ys.length) 0

/-- Positions of a block taken in order into the lanes whose predicate is 1, +0 elsewhere (spec/07 R137). -/
def unpackBlock : List Bool → List W32 → List W32
  | [], _ => []
  | true :: ps, x :: xs => x :: unpackBlock ps xs
  | true :: ps, [] => 0 :: unpackBlock ps []
  | false :: ps, xs => 0 :: unpackBlock ps xs

/-- The blocks of a predicate. -/
def Team.predBlocks (t : Team) (p : PReg) : List (List Bool) :=
  (List.range (t.width / t.blockLen)).map fun j => (List.range t.blockLen).map fun i => (t.p p).getLsbD (j * t.blockLen + i)

/-- `xfrm.hpack` (spec/07 R137). -/
def execXfrmHpack (d a : VReg) (p : PReg) (s : State) : Host.Outcome State Fault Refusal :=
  transform (.xfrmHpack d a p)
    (fun t => [(d, (List.zipWith packBlock (t.predBlocks p) (blocksOf t.blockLen (t.width / t.blockLen) (t.v a))).flatten, 0)])
    (fun t => t) s

/-- `xfrm.hunpk` (spec/07 R137). -/
def execXfrmHunpk (d a : VReg) (k : Fin 8) (p : PReg) (s : State) : Host.Outcome State Fault Refusal :=
  transform (.xfrmHunpk d a k p)
    (fun t => [(d, (List.zipWith unpackBlock (t.predBlocks p) (blocksOf t.blockLen (t.width / t.blockLen) (t.v a))).flatten,
      BitVec.ofNat 4 k.val)]) (fun t => t) s

/-- Register r + i, modulo 64. -/
def vPlus (r : VReg) (i : Nat) : VReg := Fin.ofNat 64 (r.val + i)

/-- `xfrm.xpose` (spec/07 R138): v(D + i)[32w + j] := v(A + j)[32w + i]. -/
def execXfrmXpose (d a : VReg) (s : State) : Host.Outcome State Fault Refusal :=
  transform (.xfrmXpose d a)
    (fun t => (List.range 32).map fun i =>
      (vPlus d i, (List.range t.width).map fun l => (t.v (vPlus a (l % 32))).getD (l / 32 * 32 + i) 0, 0)) (fun t => t) s

/-- Element format and emax of mxq (spec/07 R139). -/
def mxFmt : MxFmt → Fmt × Nat × Nat
  | .e4m3 => (fmtE4m3, 8, 3)
  | .e5m2 => (fmtE5m2, 15, 4)
  | .e2m1 => (fmtE2m1, 2, 5)

/-- The larger of two magnitudes. -/
def Val.larger (x y : Val) : Val := if x.lt y then y else x

/-- The scale byte of a block (spec/07 R139). -/
def mxScale (emax : Nat) (xs : List W32) : Nat :=
  let vs := xs.map fun x => fmtF32.value x.toNat
  if vs.any fun v => !v.isFin then 0xFF
  else
    match vs.foldl (fun m v => Val.larger m v.abs) (.fin false 0 0) with
    | .fin _ n e => if n = 0 then 127 else (max 0 (min 254 (floorLog n 1 e - emax + 127))).toNat
    | _ => 0xFF

/-- One element of a block; every selection saturates (spec/07 R139). -/
def mxElem (f : Fmt) (sel : Rnd) (st : W32) (sb : Nat) (x : W32) : W32 :=
  if sb = 0xFF then 0xFF00
  else
    let q := f.round (if sel = .rne then .sat else sel) st ((fmtF32.value x.toNat).scale (127 - (sb : Int)))
    BitVec.ofNat 32 (sb * 2 ^ 8 + q)

/-- The elements of a list with one rounding state for each. -/
def mxElems (f : Fmt) (sel : Rnd) (sb : Nat) : W32 → List W32 → List W32 × W32
  | st, [] => ([], st)
  | st, x :: xs =>
    let st1 := if sel = .sr then xorshift st else st
    let (ys, st2) := mxElems f sel sb st1 xs
    (mxElem f sel st1 sb x :: ys, st2)

/-- The mask words of a register, each quantised as one block. -/
def mxBlocks (f : Fmt) (emax : Nat) (sel : Rnd) : W32 → List (List W32) → List W32 × W32
  | st, [] => ([], st)
  | st, b :: bs =>
    let (ys, st1) := mxElems f sel (mxScale emax b) st b
    let (zs, st2) := mxBlocks f emax sel st1 bs
    (ys ++ zs, st2)

/-- A register quantised (spec/07 R139). -/
def Team.mxq (t : Team) (a : VReg) (m : MxFmt) (sel : Rnd) : List W32 × W32 :=
  mxBlocks (mxFmt m).1 (mxFmt m).2.1 sel t.sr (blocksOf 32 t.id.m (t.v a))

/-- `xfrm.mxq` (spec/07 R139). -/
def execXfrmMxq (d a : VReg) (m : MxFmt) (r : Rnd) (s : State) : Host.Outcome State Fault Refusal :=
  transform (.xfrmMxq d a m r) (fun t => [(d, (t.mxq a m r).1, 0)]) (fun t => t.setSr r t.em (t.mxq a m r).2) s

/-- One lane dequantised with its own scale byte (spec/07 R140). -/
def mxdqLane (m : MxFmt) (x : W32) : W32 :=
  let q := if m = .e2m1 then x.toNat % 2 ^ 4 else x.toNat % 2 ^ 8
  BitVec.ofNat 32 (fmtF32.rne (mxValue (mxFmt m).2.2 (x.toNat / 2 ^ 8 % 2 ^ 8) q))

/-- `xfrm.mxdq` (spec/07 R140): lane-wise. -/
def execXfrmMxdq (d a : VReg) (m : MxFmt) (s : State) : Host.Outcome State Fault Refusal :=
  transform (.xfrmMxdq d a m) (fun t => [(d, blend t.em 0 (t.v d) ((t.v a).map (mxdqLane m)), 0)]) (fun t => t) s

/-- c × (q − z) of one lane (spec/07 R140, spec/04 R79). -/
def i4dqLane (x : W32) : W32 :=
  BitVec.ofNat 32 (fmtF32.rne ((fmtF16.value (x.toNat / 2 ^ 16)).mul
    (Val.ofInt (signedOf 4 x.toNat - signedOf 4 (x.toNat / 2 ^ 4)))))

/-- `xfrm.i4dq` (spec/07 R140): lane-wise. -/
def execXfrmI4dq (d a : VReg) (s : State) : Host.Outcome State Fault Refusal :=
  transform (.xfrmI4dq d a) (fun t => [(d, blend t.em 0 (t.v d) ((t.v a).map i4dqLane), 0)]) (fun t => t) s

/-- `domn.dtag` (spec/07 R141). -/
def execDomnDtag (d : VReg) (k : Fin 8) (s : State) : Host.Outcome State Fault Refusal :=
  run (.domnDtag d k) s fun s =>
    (s.setMe fun t => if t.em = 0 then t else t.setTag d (BitVec.ofNat 4 k.val)).advance

/-- `domn.dget` (spec/07 R141). -/
def execDomnDget (d : SReg) (a : VReg) (s : State) : Host.Outcome State Fault Refusal :=
  run (.domnDget d a) s fun s => s.putS d ((s.me.tag a).setWidth 64)

/-- `domn.hscl` (spec/07 R141). -/
def execDomnHscl (d a : VReg) (b : SReg) (s : State) : Host.Outcome State Fault Refusal :=
  run (.domnHscl d a b) s fun s =>
    s.putV d s.me.em ((s.me.v a).map fun x => onElems2 .f32 Fmt.mul x ((s.me.s b).setWidth 32)) (s.me.tag a)

/-- Whether a lane is an approximation position of a register with a tag (spec/07 R141). -/
def Team.approx (t : Team) (tag l : Nat) : Bool := tag == 0 || decide (l % t.blockLen < t.blockLen / 2 ^ tag)

/-- `domn.hbia` (spec/07 R141). -/
def execDomnHbia (d a : VReg) (b : SReg) (s : State) : Host.Outcome State Fault Refusal :=
  run (.domnHbia d a b) s fun s =>
    s.putV d s.me.em ((s.me.v a).zipIdx.map fun (x, l) =>
      if s.me.approx (s.me.tag a).toNat l then addF32 x ((s.me.s b).setWidth 32) else x) (s.me.tag a)

end Sys2Proof.Machine
end

