-- ==== Sys2Proof/Machine/Scalar.lean ====
section
/-!
DEFINITION. Sys2Proof/Machine/Scalar.lean: the S-pipe words SOP, SOPI, SSHI, SINS and AOP (spec/06 R101, R104 to R107).
-/
namespace Sys2Proof.Machine
open Sys2Proof

/-- A binary scalar word: s(D) := f of s(A) and s(B). -/
def scalar2 (i : Instr) (d a b : SReg) (f : W64 → W64 → W64) (s : State) : Host.Outcome State Fault Refusal :=
  run i s fun s => s.putS d (f (s.me.s a) (s.me.s b))

/-- A scalar word with one source: s(D) := f of s(A). -/
def scalar1 (i : Instr) (d a : SReg) (f : W64 → W64) (s : State) : Host.Outcome State Fault Refusal :=
  run i s fun s => s.putS d (f (s.me.s a))

/-- 1 or 0. -/
def ofBit (b : Bool) : W64 := if b then 1 else 0

/-- The high 64 bits of the unsigned product (spec/06 R104). -/
def mulHigh (x y : W64) : W64 := BitVec.ofNat 64 (x.toNat * y.toNat / 2 ^ 64)

/-- The high 64 bits of the signed product (spec/06 R104). -/
def mulHighS (x y : W64) : W64 := BitVec.ofInt 64 (x.toInt * y.toInt / 2 ^ 64)

/-- Unsigned quotient; by 0 it is all-ones (spec/06 R104). -/
def divU (x y : W64) : W64 := if y = 0 then BitVec.allOnes 64 else BitVec.ofNat 64 (x.toNat / y.toNat)

/-- Signed quotient truncated toward zero; by 0 it is −1; −2^63 / −1 wraps to −2^63 (spec/06 R104). -/
def divS (x y : W64) : W64 := if y = 0 then BitVec.allOnes 64 else BitVec.ofInt 64 (x.toInt.tdiv y.toInt)

/-- Unsigned remainder; by 0 it is x (spec/06 R104). -/
def remU (x y : W64) : W64 := if y = 0 then x else BitVec.ofNat 64 (x.toNat % y.toNat)

/-- The low six bits of a shift count. -/
def count6 (y : W64) : Nat := y.toNat % 64

/-- Number of 1 bits. -/
def popc (x : W64) : W64 := BitVec.ofNat 64 (popN x.toNat 64)

/-- Zeros above the highest 1 among bits n - 1 down to 0. -/
def clzN (x : Nat) : Nat → Nat
  | 0 => 0
  | n + 1 => if x / 2 ^ n % 2 = 1 then 0 else 1 + clzN x n

/-- Zeros below the lowest 1 among the n bits from bit i up. -/
def ctzN (x : Nat) (i : Nat) : Nat → Nat
  | 0 => 0
  | n + 1 => if x / 2 ^ i % 2 = 1 then 0 else 1 + ctzN x (i + 1) n

/-- `sop.add` (spec/06 R104): (x + y) mod 2^64. -/
def execSopAdd (d a b : SReg) (s : State) : Host.Outcome State Fault Refusal :=
  scalar2 (.sopAdd d a b) d a b (fun x y => x + y) s

/-- `sop.sub` (spec/06 R104): (x − y) mod 2^64. -/
def execSopSub (d a b : SReg) (s : State) : Host.Outcome State Fault Refusal :=
  scalar2 (.sopSub d a b) d a b (fun x y => x - y) s

/-- `sop.mul` (spec/06 R104): low 64 bits of x × y. -/
def execSopMul (d a b : SReg) (s : State) : Host.Outcome State Fault Refusal :=
  scalar2 (.sopMul d a b) d a b (fun x y => x * y) s

/-- `sop.mulh` (spec/06 R104): high 64 bits of the unsigned product. -/
def execSopMulh (d a b : SReg) (s : State) : Host.Outcome State Fault Refusal :=
  scalar2 (.sopMulh d a b) d a b (fun x y => mulHigh x y) s

/-- `sop.mulhn` (spec/06 R104): high 64 bits of the signed product. -/
def execSopMulhn (d a b : SReg) (s : State) : Host.Outcome State Fault Refusal :=
  scalar2 (.sopMulhn d a b) d a b (fun x y => mulHighS x y) s

/-- `sop.div` (spec/06 R104): unsigned quotient. -/
def execSopDiv (d a b : SReg) (s : State) : Host.Outcome State Fault Refusal :=
  scalar2 (.sopDiv d a b) d a b (fun x y => divU x y) s

/-- `sop.divn` (spec/06 R104): signed quotient. -/
def execSopDivn (d a b : SReg) (s : State) : Host.Outcome State Fault Refusal :=
  scalar2 (.sopDivn d a b) d a b (fun x y => divS x y) s

/-- `sop.rem` (spec/06 R104): unsigned remainder. -/
def execSopRem (d a b : SReg) (s : State) : Host.Outcome State Fault Refusal :=
  scalar2 (.sopRem d a b) d a b (fun x y => remU x y) s

/-- `sop.and` (spec/06 R104): x AND y. -/
def execSopAnd (d a b : SReg) (s : State) : Host.Outcome State Fault Refusal :=
  scalar2 (.sopAnd d a b) d a b (fun x y => x &&& y) s

/-- `sop.or` (spec/06 R104): x OR y. -/
def execSopOr (d a b : SReg) (s : State) : Host.Outcome State Fault Refusal :=
  scalar2 (.sopOr d a b) d a b (fun x y => x ||| y) s

/-- `sop.xor` (spec/06 R104): x XOR y. -/
def execSopXor (d a b : SReg) (s : State) : Host.Outcome State Fault Refusal :=
  scalar2 (.sopXor d a b) d a b (fun x y => x ^^^ y) s

/-- `sop.andn` (spec/06 R104): x AND NOT y. -/
def execSopAndn (d a b : SReg) (s : State) : Host.Outcome State Fault Refusal :=
  scalar2 (.sopAndn d a b) d a b (fun x y => x &&& ~~~y) s

/-- `sop.shl` (spec/06 R104): x << y[5:0]. -/
def execSopShl (d a b : SReg) (s : State) : Host.Outcome State Fault Refusal :=
  scalar2 (.sopShl d a b) d a b (fun x y => x <<< count6 y) s

/-- `sop.shr` (spec/06 R104): x >> y[5:0], logical. -/
def execSopShr (d a b : SReg) (s : State) : Host.Outcome State Fault Refusal :=
  scalar2 (.sopShr d a b) d a b (fun x y => x >>> count6 y) s

/-- `sop.sar` (spec/06 R104): x >> y[5:0], arithmetic. -/
def execSopSar (d a b : SReg) (s : State) : Host.Outcome State Fault Refusal :=
  scalar2 (.sopSar d a b) d a b (fun x y => x.sshiftRight (count6 y)) s

/-- `sop.min` (spec/06 R104): unsigned minimum. -/
def execSopMin (d a b : SReg) (s : State) : Host.Outcome State Fault Refusal :=
  scalar2 (.sopMin d a b) d a b (fun x y => if x.toNat ≤ y.toNat then x else y) s

/-- `sop.max` (spec/06 R104): unsigned maximum. -/
def execSopMax (d a b : SReg) (s : State) : Host.Outcome State Fault Refusal :=
  scalar2 (.sopMax d a b) d a b (fun x y => if x.toNat ≤ y.toNat then y else x) s

/-- `sop.minn` (spec/06 R104): signed minimum. -/
def execSopMinn (d a b : SReg) (s : State) : Host.Outcome State Fault Refusal :=
  scalar2 (.sopMinn d a b) d a b (fun x y => if x.toInt ≤ y.toInt then x else y) s

/-- `sop.maxn` (spec/06 R104): signed maximum. -/
def execSopMaxn (d a b : SReg) (s : State) : Host.Outcome State Fault Refusal :=
  scalar2 (.sopMaxn d a b) d a b (fun x y => if x.toInt ≤ y.toInt then y else x) s

/-- `sop.slt` (spec/06 R104): 1 if x < y unsigned. -/
def execSopSlt (d a b : SReg) (s : State) : Host.Outcome State Fault Refusal :=
  scalar2 (.sopSlt d a b) d a b (fun x y => ofBit (x.ult y)) s

/-- `sop.sltn` (spec/06 R104): 1 if x < y signed. -/
def execSopSltn (d a b : SReg) (s : State) : Host.Outcome State Fault Refusal :=
  scalar2 (.sopSltn d a b) d a b (fun x y => ofBit (x.slt y)) s

/-- `sop.seq` (spec/06 R104): 1 if x = y. -/
def execSopSeq (d a b : SReg) (s : State) : Host.Outcome State Fault Refusal :=
  scalar2 (.sopSeq d a b) d a b (fun x y => ofBit (x == y)) s

/-- `sop.popc` (spec/06 R104): number of 1 bits. -/
def execSopPopc (d a : SReg) (s : State) : Host.Outcome State Fault Refusal :=
  scalar1 (.sopPopc d a) d a (fun x => popc x) s

/-- `sop.clz` (spec/06 R104): leading zero bits, 64 for 0. -/
def execSopClz (d a : SReg) (s : State) : Host.Outcome State Fault Refusal :=
  scalar1 (.sopClz d a) d a (fun x => BitVec.ofNat 64 (clzN x.toNat 64)) s

/-- `sop.ctz` (spec/06 R104): trailing zero bits, 64 for 0. -/
def execSopCtz (d a : SReg) (s : State) : Host.Outcome State Fault Refusal :=
  scalar1 (.sopCtz d a) d a (fun x => BitVec.ofNat 64 (ctzN x.toNat 0 64)) s

/-- `sopi.addi` (spec/06 R105). -/
def execSopiAddi (d a : SReg) (i : BitVec 10) (s : State) : Host.Outcome State Fault Refusal :=
  scalar1 (.sopiAddi d a i) d a (fun x => x + i.signExtend 64) s

/-- `sopi.andi` (spec/06 R105). -/
def execSopiAndi (d a : SReg) (i : BitVec 10) (s : State) : Host.Outcome State Fault Refusal :=
  scalar1 (.sopiAndi d a i) d a (fun x => x &&& i.signExtend 64) s

/-- `sopi.ori` (spec/06 R105). -/
def execSopiOri (d a : SReg) (i : BitVec 10) (s : State) : Host.Outcome State Fault Refusal :=
  scalar1 (.sopiOri d a i) d a (fun x => x ||| i.signExtend 64) s

/-- `sopi.xori` (spec/06 R105). -/
def execSopiXori (d a : SReg) (i : BitVec 10) (s : State) : Host.Outcome State Fault Refusal :=
  scalar1 (.sopiXori d a i) d a (fun x => x ^^^ i.signExtend 64) s

/-- `sshi.shli` (spec/06 R105). -/
def execSshiShli (d a : SReg) (i : BitVec 6) (s : State) : Host.Outcome State Fault Refusal :=
  scalar1 (.sshiShli d a i) d a (fun x => x <<< i.toNat) s

/-- `sshi.shri` (spec/06 R105). -/
def execSshiShri (d a : SReg) (i : BitVec 6) (s : State) : Host.Outcome State Fault Refusal :=
  scalar1 (.sshiShri d a i) d a (fun x => x >>> i.toNat) s

/-- `sshi.sari` (spec/06 R105). -/
def execSshiSari (d a : SReg) (i : BitVec 6) (s : State) : Host.Outcome State Fault Refusal :=
  scalar1 (.sshiSari d a i) d a (fun x => x.sshiftRight i.toNat) s

/-- `sshi.slti` (spec/06 R105): 1 if s(A) < i, signed. -/
def execSshiSlti (d a : SReg) (i : BitVec 10) (s : State) : Host.Outcome State Fault Refusal :=
  scalar1 (.sshiSlti d a i) d a (fun x => ofBit (x.slt (i.signExtend 64))) s

/-- Bits [16q+15:16q] of x replaced (spec/06 R106). -/
def insertQuarter (x : W64) (q : Fin 4) (i : BitVec 16) : W64 :=
  (x &&& ~~~(0xFFFF#64 <<< (16 * q.val))) ||| (i.setWidth 64 <<< (16 * q.val))

/-- SINS (spec/06 R106). -/
def execSinsInsert (d : SReg) (q : Fin 4) (i : BitVec 16) (s : State) : Host.Outcome State Fault Refusal :=
  scalar1 (.sinsInsert d q i) d d (fun x => insertQuarter x q i) s

/-- `aop.aadd` (spec/06 R107): a(AD) := (a(AA) + (sext80(s(SB)) << SH)) mod 2^80. -/
def execAopAadd (d a : AReg) (b : SReg) (h : BitVec 3) (s : State) : Host.Outcome State Fault Refusal :=
  run (.aopAadd d a b h) s fun s => s.putA d (s.me.a a + (s.me.s b).signExtend 80 <<< h.toNat)

/-- `aop.aset` (spec/06 R107): s(SB) into bits [63:0], or its low 16 bits into bits [79:64]. -/
def execAopAset (d a : AReg) (b : SReg) (h : Bool) (s : State) : Host.Outcome State Fault Refusal :=
  run (.aopAset d a b h) s fun s =>
    s.putA d (if h then (s.me.s b).extractLsb' 0 16 ++ (s.me.a a).extractLsb' 0 64 else (s.me.a a).extractLsb' 64 16 ++ s.me.s b)

/-- `aop.aget` (spec/06 R107): bits [63:0] or [79:64] of a(AA), zero-extended. -/
def execAopAget (a : AReg) (b : SReg) (h : Bool) (s : State) : Host.Outcome State Fault Refusal :=
  run (.aopAget a b h) s fun s =>
    s.putS b (if h then ((s.me.a a).extractLsb' 64 16).setWidth 64 else (s.me.a a).extractLsb' 0 64)

/-- `aop.amov` (spec/06 R107). -/
def execAopAmov (d a : AReg) (s : State) : Host.Outcome State Fault Refusal :=
  run (.aopAmov d a) s fun s => s.putA d (s.me.a a)

end Sys2Proof.Machine
end

