-- ==== Sys2Proof/Machine/Dispatch.lean ====
section
/-!
DEFINITION. Sys2Proof/Machine/Dispatch.lean: the meaning of each row of spec/opcode_table.json, in its order.
-/
namespace Sys2Proof.Machine
open Sys2Proof

/-- What an instruction or event does. -/
def exec (i : Instr) (s : State) : Host.Outcome State Fault Refusal :=
  match i with
  | .miscNop => Sys2Proof.Machine.execMiscNop s
  | .miscExit => Sys2Proof.Machine.execMiscExit s
  | .miscYield => Sys2Proof.Machine.execMiscYield s
  | .miscBrk => Sys2Proof.Machine.execMiscBrk s
  | .miscTrap x1 => Sys2Proof.Machine.execMiscTrap x1 s
  | .sopAdd x1 x2 x3 => Sys2Proof.Machine.execSopAdd x1 x2 x3 s
  | .sopSub x1 x2 x3 => Sys2Proof.Machine.execSopSub x1 x2 x3 s
  | .sopMul x1 x2 x3 => Sys2Proof.Machine.execSopMul x1 x2 x3 s
  | .sopMulh x1 x2 x3 => Sys2Proof.Machine.execSopMulh x1 x2 x3 s
  | .sopMulhn x1 x2 x3 => Sys2Proof.Machine.execSopMulhn x1 x2 x3 s
  | .sopDiv x1 x2 x3 => Sys2Proof.Machine.execSopDiv x1 x2 x3 s
  | .sopDivn x1 x2 x3 => Sys2Proof.Machine.execSopDivn x1 x2 x3 s
  | .sopRem x1 x2 x3 => Sys2Proof.Machine.execSopRem x1 x2 x3 s
  | .sopAnd x1 x2 x3 => Sys2Proof.Machine.execSopAnd x1 x2 x3 s
  | .sopOr x1 x2 x3 => Sys2Proof.Machine.execSopOr x1 x2 x3 s
  | .sopXor x1 x2 x3 => Sys2Proof.Machine.execSopXor x1 x2 x3 s
  | .sopAndn x1 x2 x3 => Sys2Proof.Machine.execSopAndn x1 x2 x3 s
  | .sopShl x1 x2 x3 => Sys2Proof.Machine.execSopShl x1 x2 x3 s
  | .sopShr x1 x2 x3 => Sys2Proof.Machine.execSopShr x1 x2 x3 s
  | .sopSar x1 x2 x3 => Sys2Proof.Machine.execSopSar x1 x2 x3 s
  | .sopMin x1 x2 x3 => Sys2Proof.Machine.execSopMin x1 x2 x3 s
  | .sopMax x1 x2 x3 => Sys2Proof.Machine.execSopMax x1 x2 x3 s
  | .sopMinn x1 x2 x3 => Sys2Proof.Machine.execSopMinn x1 x2 x3 s
  | .sopMaxn x1 x2 x3 => Sys2Proof.Machine.execSopMaxn x1 x2 x3 s
  | .sopSlt x1 x2 x3 => Sys2Proof.Machine.execSopSlt x1 x2 x3 s
  | .sopSltn x1 x2 x3 => Sys2Proof.Machine.execSopSltn x1 x2 x3 s
  | .sopSeq x1 x2 x3 => Sys2Proof.Machine.execSopSeq x1 x2 x3 s
  | .sopPopc x1 x2 => Sys2Proof.Machine.execSopPopc x1 x2 s
  | .sopClz x1 x2 => Sys2Proof.Machine.execSopClz x1 x2 s
  | .sopCtz x1 x2 => Sys2Proof.Machine.execSopCtz x1 x2 s
  | .sopiAddi x1 x2 x3 => Sys2Proof.Machine.execSopiAddi x1 x2 x3 s
  | .sopiAndi x1 x2 x3 => Sys2Proof.Machine.execSopiAndi x1 x2 x3 s
  | .sopiOri x1 x2 x3 => Sys2Proof.Machine.execSopiOri x1 x2 x3 s
  | .sopiXori x1 x2 x3 => Sys2Proof.Machine.execSopiXori x1 x2 x3 s
  | .sshiShli x1 x2 x3 => Sys2Proof.Machine.execSshiShli x1 x2 x3 s
  | .sshiShri x1 x2 x3 => Sys2Proof.Machine.execSshiShri x1 x2 x3 s
  | .sshiSari x1 x2 x3 => Sys2Proof.Machine.execSshiSari x1 x2 x3 s
  | .sshiSlti x1 x2 x3 => Sys2Proof.Machine.execSshiSlti x1 x2 x3 s
  | .sinsInsert x1 x2 x3 => Sys2Proof.Machine.execSinsInsert x1 x2 x3 s
  | .aopAadd x1 x2 x3 x4 => Sys2Proof.Machine.execAopAadd x1 x2 x3 x4 s
  | .aopAset x1 x2 x3 x4 => Sys2Proof.Machine.execAopAset x1 x2 x3 x4 s
  | .aopAget x1 x2 x3 => Sys2Proof.Machine.execAopAget x1 x2 x3 s
  | .aopAmov x1 x2 => Sys2Proof.Machine.execAopAmov x1 x2 s
  | .cregCrd x1 x2 => Sys2Proof.Machine.execCregCrd x1 x2 s
  | .cregCwr x1 x2 => Sys2Proof.Machine.execCregCwr x1 x2 s
  | .variIadd x1 x2 x3 x4 => Sys2Proof.Machine.execVariIadd x1 x2 x3 x4 s
  | .variIsub x1 x2 x3 x4 => Sys2Proof.Machine.execVariIsub x1 x2 x3 x4 s
  | .variImul x1 x2 x3 x4 => Sys2Proof.Machine.execVariImul x1 x2 x3 x4 s
  | .variImulh x1 x2 x3 x4 => Sys2Proof.Machine.execVariImulh x1 x2 x3 x4 s
  | .vlogAnd x1 x2 x3 x4 => Sys2Proof.Machine.execVlogAnd x1 x2 x3 x4 s
  | .vlogOr x1 x2 x3 x4 => Sys2Proof.Machine.execVlogOr x1 x2 x3 x4 s
  | .vlogXor x1 x2 x3 x4 => Sys2Proof.Machine.execVlogXor x1 x2 x3 x4 s
  | .vlogAndn x1 x2 x3 x4 => Sys2Proof.Machine.execVlogAndn x1 x2 x3 x4 s
  | .vsftShl x1 x2 x3 x4 => Sys2Proof.Machine.execVsftShl x1 x2 x3 x4 s
  | .vsftShr x1 x2 x3 x4 => Sys2Proof.Machine.execVsftShr x1 x2 x3 x4 s
  | .vsftSar x1 x2 x3 x4 => Sys2Proof.Machine.execVsftSar x1 x2 x3 x4 s
  | .vsftRol x1 x2 x3 x4 => Sys2Proof.Machine.execVsftRol x1 x2 x3 x4 s
  | .vmnxImin x1 x2 x3 x4 => Sys2Proof.Machine.execVmnxImin x1 x2 x3 x4 s
  | .vmnxImax x1 x2 x3 x4 => Sys2Proof.Machine.execVmnxImax x1 x2 x3 x4 s
  | .vmnxNmin x1 x2 x3 x4 => Sys2Proof.Machine.execVmnxNmin x1 x2 x3 x4 s
  | .vmnxNmax x1 x2 x3 x4 => Sys2Proof.Machine.execVmnxNmax x1 x2 x3 x4 s
  | .vcmpEq x1 x2 x3 x4 x5 => Sys2Proof.Machine.execVcmpEq x1 x2 x3 x4 x5 s
  | .vcmpLt x1 x2 x3 x4 x5 => Sys2Proof.Machine.execVcmpLt x1 x2 x3 x4 x5 s
  | .vcmpLe x1 x2 x3 x4 x5 => Sys2Proof.Machine.execVcmpLe x1 x2 x3 x4 x5 s
  | .vcmpLtn x1 x2 x3 x4 x5 => Sys2Proof.Machine.execVcmpLtn x1 x2 x3 x4 x5 s
  | .vadi x1 x2 x3 x4 => Sys2Proof.Machine.execVadi x1 x2 x3 x4 s
  | .vimmSx x1 x2 x3 => Sys2Proof.Machine.execVimmSx x1 x2 x3 s
  | .vimmHi x1 x2 x3 => Sys2Proof.Machine.execVimmHi x1 x2 x3 s
  | .fadd x1 x2 x3 x4 x5 => Sys2Proof.Machine.execFadd x1 x2 x3 x4 x5 s
  | .fsub x1 x2 x3 x4 x5 => Sys2Proof.Machine.execFsub x1 x2 x3 x4 x5 s
  | .fmul x1 x2 x3 x4 x5 => Sys2Proof.Machine.execFmul x1 x2 x3 x4 x5 s
  | .fma x1 x2 x3 x4 x5 => Sys2Proof.Machine.execFma x1 x2 x3 x4 x5 s
  | .fmin x1 x2 x3 x4 x5 => Sys2Proof.Machine.execFmin x1 x2 x3 x4 x5 s
  | .fmax x1 x2 x3 x4 x5 => Sys2Proof.Machine.execFmax x1 x2 x3 x4 x5 s
  | .fceq x1 x2 x3 x4 x5 x6 => Sys2Proof.Machine.execFceq x1 x2 x3 x4 x5 x6 s
  | .fclt x1 x2 x3 x4 x5 x6 => Sys2Proof.Machine.execFclt x1 x2 x3 x4 x5 x6 s
  | .fcle x1 x2 x3 x4 x5 x6 => Sys2Proof.Machine.execFcle x1 x2 x3 x4 x5 x6 s
  | .fcun x1 x2 x3 x4 x5 x6 => Sys2Proof.Machine.execFcun x1 x2 x3 x4 x5 x6 s
  | .funaExp2 x1 x2 x3 x4 => Sys2Proof.Machine.execFunaExp2 x1 x2 x3 x4 s
  | .funaLog2 x1 x2 x3 x4 => Sys2Proof.Machine.execFunaLog2 x1 x2 x3 x4 s
  | .funaRcp x1 x2 x3 x4 => Sys2Proof.Machine.execFunaRcp x1 x2 x3 x4 s
  | .funaRsqrt x1 x2 x3 x4 => Sys2Proof.Machine.execFunaRsqrt x1 x2 x3 x4 s
  | .funaSqrt x1 x2 x3 x4 => Sys2Proof.Machine.execFunaSqrt x1 x2 x3 x4 s
  | .funaTanh x1 x2 x3 x4 => Sys2Proof.Machine.execFunaTanh x1 x2 x3 x4 s
  | .funaSigm x1 x2 x3 x4 => Sys2Proof.Machine.execFunaSigm x1 x2 x3 x4 s
  | .funaGelu x1 x2 x3 x4 => Sys2Proof.Machine.execFunaGelu x1 x2 x3 x4 s
  | .funaAbs x1 x2 x3 x4 => Sys2Proof.Machine.execFunaAbs x1 x2 x3 x4 s
  | .funaNeg x1 x2 x3 x4 => Sys2Proof.Machine.execFunaNeg x1 x2 x3 x4 s
  | .funaFloor x1 x2 x3 x4 => Sys2Proof.Machine.execFunaFloor x1 x2 x3 x4 s
  | .funaCeil x1 x2 x3 x4 => Sys2Proof.Machine.execFunaCeil x1 x2 x3 x4 s
  | .funaRint x1 x2 x3 x4 => Sys2Proof.Machine.execFunaRint x1 x2 x3 x4 s
  | .funaFrac x1 x2 x3 x4 => Sys2Proof.Machine.execFunaFrac x1 x2 x3 x4 s
  | .fcvtConvert x1 x2 x3 x4 x5 => Sys2Proof.Machine.execFcvtConvert x1 x2 x3 x4 x5 s
  | .fcvtI32 x1 x2 x3 x4 => Sys2Proof.Machine.execFcvtI32 x1 x2 x3 x4 s
  | .fcvtWi32 x1 x2 x3 x4 => Sys2Proof.Machine.execFcvtWi32 x1 x2 x3 x4 s
  | .vsel x1 x2 x3 x4 => Sys2Proof.Machine.execVsel x1 x2 x3 x4 s
  | .vmovMov x1 x2 x3 => Sys2Proof.Machine.execVmovMov x1 x2 x3 s
  | .vmovBcast x1 x2 x3 => Sys2Proof.Machine.execVmovBcast x1 x2 x3 s
  | .vmovRdlane x1 x2 x3 => Sys2Proof.Machine.execVmovRdlane x1 x2 x3 s
  | .vmovWrlane x1 x2 x3 => Sys2Proof.Machine.execVmovWrlane x1 x2 x3 s
  | .vmovLaneid x1 x2 => Sys2Proof.Machine.execVmovLaneid x1 x2 s
  | .vxlnShfl x1 x2 x3 => Sys2Proof.Machine.execVxlnShfl x1 x2 x3 s
  | .vxlnBcl x1 x2 x3 => Sys2Proof.Machine.execVxlnBcl x1 x2 x3 s
  | .vxlnRedadd x1 x2 x3 x4 => Sys2Proof.Machine.execVxlnRedadd x1 x2 x3 x4 s
  | .vxlnRedmax x1 x2 x3 x4 => Sys2Proof.Machine.execVxlnRedmax x1 x2 x3 x4 s
  | .vxlnScan x1 x2 x3 x4 => Sys2Proof.Machine.execVxlnScan x1 x2 x3 x4 s
  | .plogPand x1 x2 x3 x4 => Sys2Proof.Machine.execPlogPand x1 x2 x3 x4 s
  | .plogPor x1 x2 x3 x4 => Sys2Proof.Machine.execPlogPor x1 x2 x3 x4 s
  | .plogPxor x1 x2 x3 x4 => Sys2Proof.Machine.execPlogPxor x1 x2 x3 x4 s
  | .plogPmovs x1 x2 x3 => Sys2Proof.Machine.execPlogPmovs x1 x2 x3 s
  | .plogPbal x1 x2 => Sys2Proof.Machine.execPlogPbal x1 x2 s
  | .plogEmw x1 => Sys2Proof.Machine.execPlogEmw x1 s
  | .plogEmr x1 x2 => Sys2Proof.Machine.execPlogEmr x1 x2 s
  | .xfrmHfwd x1 x2 x3 => Sys2Proof.Machine.execXfrmHfwd x1 x2 x3 s
  | .xfrmHinv x1 x2 => Sys2Proof.Machine.execXfrmHinv x1 x2 s
  | .xfrmHthr x1 x2 x3 => Sys2Proof.Machine.execXfrmHthr x1 x2 x3 s
  | .xfrmHpack x1 x2 x3 => Sys2Proof.Machine.execXfrmHpack x1 x2 x3 s
  | .xfrmHunpk x1 x2 x3 x4 => Sys2Proof.Machine.execXfrmHunpk x1 x2 x3 x4 s
  | .xfrmXpose x1 x2 => Sys2Proof.Machine.execXfrmXpose x1 x2 s
  | .xfrmMxq x1 x2 x3 x4 => Sys2Proof.Machine.execXfrmMxq x1 x2 x3 x4 s
  | .xfrmMxdq x1 x2 x3 => Sys2Proof.Machine.execXfrmMxdq x1 x2 x3 s
  | .xfrmI4dq x1 x2 => Sys2Proof.Machine.execXfrmI4dq x1 x2 s
  | .domnDtag x1 x2 => Sys2Proof.Machine.execDomnDtag x1 x2 s
  | .domnDget x1 x2 => Sys2Proof.Machine.execDomnDget x1 x2 s
  | .domnHscl x1 x2 x3 => Sys2Proof.Machine.execDomnHscl x1 x2 x3 s
  | .domnHbia x1 x2 x3 => Sys2Proof.Machine.execDomnHbia x1 x2 x3 s
  | .vld x1 x2 x3 x4 x5 x6 => Sys2Proof.Machine.execVld x1 x2 x3 x4 x5 x6 s
  | .vst x1 x2 x3 x4 x5 x6 => Sys2Proof.Machine.execVst x1 x2 x3 x4 x5 x6 s
  | .vatmAddI x1 x2 x3 x4 => Sys2Proof.Machine.execVatmAddI x1 x2 x3 x4 s
  | .vatmAddF x1 x2 x3 x4 => Sys2Proof.Machine.execVatmAddF x1 x2 x3 x4 s
  | .vatmMinI x1 x2 x3 x4 => Sys2Proof.Machine.execVatmMinI x1 x2 x3 x4 s
  | .vatmMaxI x1 x2 x3 x4 => Sys2Proof.Machine.execVatmMaxI x1 x2 x3 x4 s
  | .vatmMaxF x1 x2 x3 x4 => Sys2Proof.Machine.execVatmMaxF x1 x2 x3 x4 s
  | .vatmAnd x1 x2 x3 x4 => Sys2Proof.Machine.execVatmAnd x1 x2 x3 x4 s
  | .vatmOr x1 x2 x3 x4 => Sys2Proof.Machine.execVatmOr x1 x2 x3 x4 s
  | .vatmXor x1 x2 x3 x4 => Sys2Proof.Machine.execVatmXor x1 x2 x3 x4 s
  | .vatmXchg x1 x2 x3 x4 => Sys2Proof.Machine.execVatmXchg x1 x2 x3 x4 s
  | .vatmCas x1 x2 x3 x4 => Sys2Proof.Machine.execVatmCas x1 x2 x3 x4 s
  | .sld x1 x2 x3 x4 x5 => Sys2Proof.Machine.execSld x1 x2 x3 x4 x5 s
  | .sst x1 x2 x3 x4 x5 => Sys2Proof.Machine.execSst x1 x2 x3 x4 x5 s
  | .satmAdd x1 x2 x3 x4 x5 => Sys2Proof.Machine.execSatmAdd x1 x2 x3 x4 x5 s
  | .satmSub x1 x2 x3 x4 x5 => Sys2Proof.Machine.execSatmSub x1 x2 x3 x4 x5 s
  | .satmAnd x1 x2 x3 x4 x5 => Sys2Proof.Machine.execSatmAnd x1 x2 x3 x4 x5 s
  | .satmOr x1 x2 x3 x4 x5 => Sys2Proof.Machine.execSatmOr x1 x2 x3 x4 x5 s
  | .satmXor x1 x2 x3 x4 x5 => Sys2Proof.Machine.execSatmXor x1 x2 x3 x4 x5 s
  | .satmMin x1 x2 x3 x4 x5 => Sys2Proof.Machine.execSatmMin x1 x2 x3 x4 x5 s
  | .satmMax x1 x2 x3 x4 x5 => Sys2Proof.Machine.execSatmMax x1 x2 x3 x4 x5 s
  | .satmMinn x1 x2 x3 x4 x5 => Sys2Proof.Machine.execSatmMinn x1 x2 x3 x4 x5 s
  | .satmMaxn x1 x2 x3 x4 x5 => Sys2Proof.Machine.execSatmMaxn x1 x2 x3 x4 x5 s
  | .satmXchg x1 x2 x3 x4 x5 => Sys2Proof.Machine.execSatmXchg x1 x2 x3 x4 x5 s
  | .satmCas x1 x2 x3 x4 x5 => Sys2Proof.Machine.execSatmCas x1 x2 x3 x4 x5 s
  | .fenceAcq x1 => Sys2Proof.Machine.execFenceAcq x1 s
  | .fenceRel x1 x2 => Sys2Proof.Machine.execFenceRel x1 x2 s
  | .fenceAr x1 x2 => Sys2Proof.Machine.execFenceAr x1 x2 s
  | .fenceSc x1 x2 => Sys2Proof.Machine.execFenceSc x1 x2 s
  | .wait x1 x2 => Sys2Proof.Machine.execWait x1 x2 s
  | .tsl x1 x2 x3 x4 x5 => Sys2Proof.Machine.execTsl x1 x2 x3 x4 x5 s
  | .tss x1 x2 x3 x4 x5 => Sys2Proof.Machine.execTss x1 x2 x3 x4 x5 s
  | .tbndBind x1 x2 => Sys2Proof.Machine.execTbndBind x1 x2 s
  | .tbndUnbind x1 => Sys2Proof.Machine.execTbndUnbind x1 s
  | .tbndQuery x1 x2 x3 => Sys2Proof.Machine.execTbndQuery x1 x2 x3 s
  | .xcpyIn x1 x2 => Sys2Proof.Machine.execXcpyIn x1 x2 s
  | .xcpyOut x1 x2 => Sys2Proof.Machine.execXcpyOut x1 x2 s
  | .xcpyMcin x1 x2 => Sys2Proof.Machine.execXcpyMcin x1 x2 s
  | .ringRbind x1 x2 => Sys2Proof.Machine.execRingRbind x1 x2 s
  | .ringRunbind x1 => Sys2Proof.Machine.execRingRunbind x1 s
  | .ringSpub x1 x2 => Sys2Proof.Machine.execRingSpub x1 x2 s
  | .ringSrel x1 x2 => Sys2Proof.Machine.execRingSrel x1 x2 s
  | .ringSwait x1 x2 x3 => Sys2Proof.Machine.execRingSwait x1 x2 x3 s
  | .tbarTbinit x1 x2 => Sys2Proof.Machine.execTbarTbinit x1 x2 s
  | .tbarTbarr x1 x2 => Sys2Proof.Machine.execTbarTbarr x1 x2 s
  | .tbarTbwait x1 x2 x3 => Sys2Proof.Machine.execTbarTbwait x1 x2 x3 s
  | .tbarTbtest x1 x2 => Sys2Proof.Machine.execTbarTbtest x1 x2 s
  | .sigSigadd x1 x2 x3 x4 => Sys2Proof.Machine.execSigSigadd x1 x2 x3 x4 s
  | .sigSigwait x1 x2 x3 x4 => Sys2Proof.Machine.execSigSigwait x1 x2 x3 x4 s
  | .sigSigrd x1 x2 x3 => Sys2Proof.Machine.execSigSigrd x1 x2 x3 s
  | .sigWatch x1 x2 x3 x4 => Sys2Proof.Machine.execSigWatch x1 x2 x3 x4 s
  | .sgrpFork x1 x2 x3 => Sys2Proof.Machine.execSgrpFork x1 x2 x3 s
  | .sgrpArr x1 x2 x3 x4 => Sys2Proof.Machine.execSgrpArr x1 x2 x3 x4 s
  | .sgrpCan x1 x2 x3 => Sys2Proof.Machine.execSgrpCan x1 x2 x3 s
  | .sgrpWait x1 x2 x3 => Sys2Proof.Machine.execSgrpWait x1 x2 x3 s
  | .sgrpFree x1 x2 x3 => Sys2Proof.Machine.execSgrpFree x1 x2 x3 s
  | .sgrpInfo x1 x2 x3 => Sys2Proof.Machine.execSgrpInfo x1 x2 x3 s
  | .hctlHret x1 => Sys2Proof.Machine.execHctlHret x1 s
  | .hctlHtaint => Sys2Proof.Machine.execHctlHtaint s
  | .hctlWstat x1 x2 => Sys2Proof.Machine.execHctlWstat x1 x2 s
  | .hctlWpos x1 x2 x3 => Sys2Proof.Machine.execHctlWpos x1 x2 x3 s
  | .brv x1 x2 => Sys2Proof.Machine.execBrv x1 x2 s
  | .rcv x1 => Sys2Proof.Machine.execRcv x1 s
  | .join => Sys2Proof.Machine.execJoin s
  | .brsBeqz x1 x2 => Sys2Proof.Machine.execBrsBeqz x1 x2 s
  | .brsBnez x1 x2 => Sys2Proof.Machine.execBrsBnez x1 x2 s
  | .brsBltz x1 x2 => Sys2Proof.Machine.execBrsBltz x1 x2 s
  | .brsBgez x1 x2 => Sys2Proof.Machine.execBrsBgez x1 x2 s
  | .jmpJmp x1 => Sys2Proof.Machine.execJmpJmp x1 s
  | .jmpCall x1 => Sys2Proof.Machine.execJmpCall x1 s
  | .jmpJmpr x1 => Sys2Proof.Machine.execJmpJmpr x1 s
  | .jmpRet => Sys2Proof.Machine.execJmpRet s
  | .syncGbar x1 => Sys2Proof.Machine.execSyncGbar x1 s
  | .syncEnq x1 x2 x3 => Sys2Proof.Machine.execSyncEnq x1 x2 x3 s
  | .syncQctlCreate x1 x2 => Sys2Proof.Machine.execSyncQctlCreate x1 x2 s
  | .syncQctlStop x1 x2 => Sys2Proof.Machine.execSyncQctlStop x1 x2 s
  | .syncQctlResume x1 x2 x3 => Sys2Proof.Machine.execSyncQctlResume x1 x2 x3 s
  | .syncQctlDestroy x1 x2 => Sys2Proof.Machine.execSyncQctlDestroy x1 x2 s
  | .privTretRetry => Sys2Proof.Machine.execPrivTretRetry s
  | .privTretSkip => Sys2Proof.Machine.execPrivTretSkip s
  | .privTretKill => Sys2Proof.Machine.execPrivTretKill s
  | .privPgcow x1 => Sys2Proof.Machine.execPrivPgcow x1 s
  | .privPgref x1 x2 => Sys2Proof.Machine.execPrivPgref x1 x2 s
  | .privTlbinv x1 x2 x3 => Sys2Proof.Machine.execPrivTlbinv x1 x2 x3 s
  | .privEseal x1 x2 x3 => Sys2Proof.Machine.execPrivEseal x1 x2 x3 s
  | .privPreemptSave x1 x2 => Sys2Proof.Machine.execPrivPreemptSave x1 x2 s
  | .privPreemptRsm x1 x2 => Sys2Proof.Machine.execPrivPreemptRsm x1 x2 s
  | .privHalt => Sys2Proof.Machine.execPrivHalt s
  | .trapEntry x1 => Sys2Proof.Machine.execTrapEntry x1 s
  | .transformPipeReply x1 => Sys2Proof.Machine.execTransformPipeReply x1 s
  | .loadComplete x1 x2 => Sys2Proof.Machine.execLoadComplete x1 x2 s
  | .storePerformed x1 x2 => Sys2Proof.Machine.execStorePerformed x1 x2 s
  | .atomicPerformed x1 x2 => Sys2Proof.Machine.execAtomicPerformed x1 x2 s
  | .teamSlotRelease x1 => Sys2Proof.Machine.execTeamSlotRelease x1 s
  | .regather x1 => Sys2Proof.Machine.execRegather x1 s
  | .teamAged x1 => Sys2Proof.Machine.execTeamAged x1 s
  | .l1Writeback x1 x2 => Sys2Proof.Machine.execL1Writeback x1 x2 s
  | .signalWaitSatisfied x1 => Sys2Proof.Machine.execSignalWaitSatisfied x1 s
  | .evictedTeamRestore x1 => Sys2Proof.Machine.execEvictedTeamRestore x1 s
  | .copyStart x1 => Sys2Proof.Machine.execCopyStart x1 s
  | .copySectorPerformed x1 x2 => Sys2Proof.Machine.execCopySectorPerformed x1 x2 s
  | .ringFillChunk x1 x2 => Sys2Proof.Machine.execRingFillChunk x1 x2 s
  | .ringDrainChunk x1 x2 => Sys2Proof.Machine.execRingDrainChunk x1 x2 s
  | .ringUnbindComplete x1 x2 => Sys2Proof.Machine.execRingUnbindComplete x1 x2 s
  | .pageAnswer => Sys2Proof.Machine.execPageAnswer s
  | .hostStore x1 x2 => Sys2Proof.Machine.execHostStore x1 x2 s
  | .hostLoad x1 x2 => Sys2Proof.Machine.execHostLoad x1 x2 s
  | .remoteRequest x1 x2 x3 => Sys2Proof.Machine.execRemoteRequest x1 x2 x3 s
  | .ticketClaim x1 x2 => Sys2Proof.Machine.execTicketClaim x1 x2 s
  | .packetDispatch x1 => Sys2Proof.Machine.execPacketDispatch x1 s
  | .placementRetry x1 => Sys2Proof.Machine.execPlacementRetry x1 s
  | .placementPressurePreempt x1 => Sys2Proof.Machine.execPlacementPressurePreempt x1 s
  | .waitSignalsDispatch x1 => Sys2Proof.Machine.execWaitSignalsDispatch x1 s
  | .signalPacketPerform x1 => Sys2Proof.Machine.execSignalPacketPerform x1 s
  | .bundleStart x1 => Sys2Proof.Machine.execBundleStart x1 s
  | .queueStallCheck => Sys2Proof.Machine.execQueueStallCheck s
  | .kstepBegin x1 => Sys2Proof.Machine.execKstepBegin x1 s
  | .kstepBoundary x1 => Sys2Proof.Machine.execKstepBoundary x1 s
  | .splitkArrival x1 x2 => Sys2Proof.Machine.execSplitkArrival x1 x2 s
  | .upcallDelivery x1 x2 => Sys2Proof.Machine.execUpcallDelivery x1 x2 s
  | .streamFillComplete x1 x2 x3 => Sys2Proof.Machine.execStreamFillComplete x1 x2 x3 s
  | .streamDrainComplete x1 x2 => Sys2Proof.Machine.execStreamDrainComplete x1 x2 s
  | .walkStallReport x1 => Sys2Proof.Machine.execWalkStallReport x1 s
  | .groupDeadline x1 => Sys2Proof.Machine.execGroupDeadline x1 s
  | .preemptSaveComplete x1 => Sys2Proof.Machine.execPreemptSaveComplete x1 s
  | .drainLimitExpiry x1 => Sys2Proof.Machine.execDrainLimitExpiry x1 s
  | .queueAutoResume x1 => Sys2Proof.Machine.execQueueAutoResume x1 s
  | .dbgctlHaltreq x1 => Sys2Proof.Machine.execDbgctlHaltreq x1 s
  | .dbgctlResume x1 => Sys2Proof.Machine.execDbgctlResume x1 s
  | .debugHaltQuiet x1 => Sys2Proof.Machine.execDebugHaltQuiet x1 s
  | .energyTick x1 => Sys2Proof.Machine.execEnergyTick x1 s
  | .sealedIntervalClose => Sys2Proof.Machine.execSealedIntervalClose s
  | .powerBudgetTick x1 => Sys2Proof.Machine.execPowerBudgetTick x1 s
  | .ptpSyncReceive x1 x2 x3 x4 x5 => Sys2Proof.Machine.execPtpSyncReceive x1 x2 x3 x4 x5 s
  | .ptpFrameDrop x1 x2 => Sys2Proof.Machine.execPtpFrameDrop x1 x2 s
  | .ptpSyncTimeout => Sys2Proof.Machine.execPtpSyncTimeout s
  | .ppsEdge => Sys2Proof.Machine.execPpsEdge s
  | .correctableError x1 x2 x3 => Sys2Proof.Machine.execCorrectableError x1 x2 x3 s
  | .uncorrectableError x1 x2 x3 x4 => Sys2Proof.Machine.execUncorrectableError x1 x2 x3 x4 s
  | .linkCrcError x1 x2 => Sys2Proof.Machine.execLinkCrcError x1 x2 s
  | .linkRetrainEnd x1 x2 => Sys2Proof.Machine.execLinkRetrainEnd x1 x2 s
  | .pwrlimWrite x1 => Sys2Proof.Machine.execPwrlimWrite x1 s
  | .prqheadWrite x1 => Sys2Proof.Machine.execPrqheadWrite x1 s
  | .prawrWrite x1 => Sys2Proof.Machine.execPrawrWrite x1 s
  | .logheadWrite x1 => Sys2Proof.Machine.execLogheadWrite x1 s
  | .ringBaseWrite x1 x2 => Sys2Proof.Machine.execRingBaseWrite x1 x2 s
  | .registerWrite x1 x2 x3 => Sys2Proof.Machine.execRegisterWrite x1 x2 x3 s
  | .powerGood x1 => Sys2Proof.Machine.execPowerGood x1 s
  | .firmwareImageVerify x1 x2 x3 x4 x5 => Sys2Proof.Machine.execFirmwareImageVerify x1 x2 x3 x4 x5 s
  | .warmReset => Sys2Proof.Machine.execWarmReset s
  | .fwSetPtpAddress x1 x2 => Sys2Proof.Machine.execFwSetPtpAddress x1 x2 s
  | .fwReadPublicKey => Sys2Proof.Machine.execFwReadPublicKey s
  | .fwSupplyLastRecord x1 x2 => Sys2Proof.Machine.execFwSupplyLastRecord x1 x2 s
  | .fwContextKill x1 => Sys2Proof.Machine.execFwContextKill x1 s
  | .fwPartitionAssign x1 x2 => Sys2Proof.Machine.execFwPartitionAssign x1 x2 s
  | .powerLoss => Sys2Proof.Machine.execPowerLoss s
  | .fwContextCreate x1 x2 x3 x4 x5 x6 x7 => Sys2Proof.Machine.execFwContextCreate x1 x2 x3 x4 x5 x6 x7 s
  | .frameExport x1 x2 => Sys2Proof.Machine.execFrameExport x1 x2 s
  | .sgOperationPerformed x1 x2 => Sys2Proof.Machine.execSgOperationPerformed x1 x2 s
  | .ptpAnnounceReceive x1 x2 x3 x4 x5 x6 => Sys2Proof.Machine.execPtpAnnounceReceive x1 x2 x3 x4 x5 x6 s
  | .ptpDelayRespReceive x1 x2 x3 x4 => Sys2Proof.Machine.execPtpDelayRespReceive x1 x2 x3 x4 s
  | .linkCompressorSwitch x1 x2 => Sys2Proof.Machine.execLinkCompressorSwitch x1 x2 s

end Sys2Proof.Machine
end

