-- ==== Sys2Proof/Machine/Place.lean ====
section
/-!
DEFINITION. Sys2Proof/Machine/Place.lean: a word placed where the next step fetches it (log 11).
-/
namespace Sys2Proof.Machine
open Sys2Proof

/-- The packet index, virtual address and physical addresses of the installed code page and of its page-table nodes. -/
def placePc : W64 := 4096
def placeCode : Nat := 0x800000
def placeNode (level : Nat) : Nat := 0x100000 * (level + 1)

/-- The 64 bytes of a page-table entry that matter: its first word and its next-level or frame address (spec/18 R275, R276). -/
def entryBytes (pa flags frame : Nat) : List (Nat × Byte) :=
  keyed pa (leBytes 8 flags) ++ keyed (pa + 8) (leBytes 8 frame)

/-- The page table of the installed context: one code page, readable, writable and executable, at virtual address 0xC000. -/
def placeTable : List (Nat × Byte) :=
  (List.range 6).flatMap (fun i => entryBytes (placeNode (i + 1)) 1 (placeNode i)) ++
    entryBytes (placeNode 0 + 12 * 64) 0xE3 placeCode

/-- The installed team: 32 lanes, 64 v registers, user level, every lane active, as a launch starts it (spec/14 R243). -/
def bareTeam (tid : Nat) : Team :=
  { Team.absent with
    id := { Team.absent.id with tid := tid, teamid := BitVec.ofNat 64 tid, gen := 1, live := BitVec.ofNat 1024 (2 ^ 32 - 1) }
    place := .on 0 0 0
    ctl := { Team.absent.ctl with pc := placePc, em := BitVec.ofNat 1024 (2 ^ 32 - 1), srstate := srInit (BitVec.ofNat 64 tid) } }

/-- One team installed in a live context with one page of code. -/
def State.installTeam (s : State) : State :=
  { s with
    me := bareTeam s.nextId
    teams := if s.me.id.tid = 0 then s.teams else s.me :: s.teams
    ctxs := ⟨0, placeNode 6, 1, 0, 1, 0, 0, 0, 0, 0, 0, []⟩ :: s.ctxs.filter (·.id != 0)
    mem := writePairs s.mem placeTable
    nextId := s.nextId + 1
    boot := .up }

/-- The team that the next step issues. -/
def State.nextTeam (s : State) : Option Team :=
  if s.me.resumes ∧ s.eligible s.me then some s.me else s.pickAny

/-- The words of a packet from a word index on, with their keys, given the keys of all three. -/
def placeBytes (ks : List (Nat × Nat)) (word w : Nat) : List (Nat × Byte) :=
  (ks.drop word).zipIdx.flatMap fun ((_, key), j) => keyed key (leBytes 4 (if j = 0 then w else 0))

/-- The word stored where the team in issue fetches it; none if it cannot fetch. -/
def State.placeHere (s : State) (w : Nat) : Option State :=
  match s.fetchKeys (pages 2 (packetVa s.me.ctl.pc).toNat 12) with
  | (.ok ks, _) =>
    let put (m : List Host.Cell) : List Host.Cell := writePairs m (placeBytes ks s.me.ctl.word w)
    some { s with
      mem := put s.mem
      bundles := s.bundles.map fun b => if s.me.id.bundle = some b.id then { b with code := put b.code, started := put b.started } else b
      icache := s.icache.filter fun c => !ks.any fun k => k.1 == c.va }
  | (.error _, _) => none

/-- Word i of a packet, and the words after it, replaced. -/
def packetFrom (p : BitVec 96) (i w : Nat) : BitVec 96 :=
  BitVec.ofNat 96 (p.toNat % 2 ^ (32 * i) + w * 2 ^ (32 * i))

/-- The team in issue named as the next turn. -/
def State.turnMine (s : State) : State := { s with agenda := [.pick s.me.id.tid] }

/-- `State.withFetchWord` (log 11). -/
def State.placeWord (s : State) (_nbits w : Nat) : State :=
  let w := w % 2 ^ 32
  let s := { s with agenda := [] }
  match s.nextTeam with
  | some t =>
    let s1 := s.select t.id.tid
    if t.flow.group.open_ then
      s1.setMe fun u => u.updFlow fun f => { f with packet := packetFrom f.packet u.ctl.word w }
    else
      match s1.placeHere w with
      | some s2 => s2.turnMine
      | none => ((s1.installTeam.placeHere w).getD s1).turnMine
  | none => ((s.installTeam.placeHere w).getD s).turnMine

end Sys2Proof.Machine
end

