-- ==== Sys2Proof/Machine/Step.lean ====
section
/-!
DEFINITION. Sys2Proof/Machine/Step.lean: one step, and the state in which a step runs a given word.
-/
namespace Sys2Proof.Machine
open Sys2Proof

/-- One step: one word of one team, or one event of another agent (log 1). -/
def step (s : State) : Host.Outcome State Fault Refusal :=
  match s.turn with
  | (s1, .run i) => exec i s1
  | (s1, .done) => .next s1
  | (_, .bad) => .fault .agendaWord

/-- The state whose next step runs the word `w`: stored where the next fetch reads it, the later words of its packet 0; with no
team that can fetch, one team is installed to run it (log 11). -/
def State.withFetchWord (s : State) (nbits w : Nat) : State := s.placeWord nbits w

end Sys2Proof.Machine
end

