-- ==== Sys2Proof/Safety.lean ====
section
/-!
DEFINITION. Sys2Proof/Safety.lean: what counts as a safe state and a safe run.
-/
namespace Sys2Proof.Machine
open Sys2Proof

/-- A safe state: its memory is in canonical form. -/
def State.Safe (s : State) : Prop := Memory.wf s.mem = true

/-- A safe run of n steps: it neither faults nor is refused, and every state of it is safe. -/
def SafeRun : Nat → State → Prop
  | 0, s => s.Safe
  | n + 1, s => s.Safe ∧ ∃ t, step s = .next t ∧ SafeRun n t

end Sys2Proof.Machine
end

