-- ==== Sys2Proof/Certificates/Slice0/Obligations.lean ====
section
/-!
DEFINITION. Sys2Proof/Certificates/Slice0/Obligations.lean: the statements about the model. `Claim` holds what they share and the
tables of the rules they state, written from the spec and not from the meanings.
-/

namespace Sys2Proof.Claim
open Sys2Proof Sys2Proof.Machine

/-! ### What the statements share -/

/-- The word passes its checks: well formed, its v registers allocated, admitted at the team's level, its operands allowed, none
of its registers pending (spec/02 R38, R47, R48). -/
def Passes (s : State) (i : Instr) : Prop := s.check i = none

/-- Everything but the team in issue is as it was: each byte of memory and of each cache, the other teams, the cores, the engines,
the agents, the clocks. -/
def OnlyMe (s t : State) : Prop := t = { s with me := t.me }

/-- The position after a word that does not branch: the next word of its packet, or word 0 of the next packet (spec/02 R26,
R31). -/
def nextPos (u : Team) : W64 × Nat :=
  if u.flow.cur.chain ∨ u.ctl.word < 2 then (u.ctl.pc, u.ctl.word + 1) else (u.ctl.pc + 1, 0)

/-- The registers that a list does not name are as they were, domain tags included; so are the h registers and every pending
bit. -/
structure RegsKept (u t : Team) (ws : List Reg) : Prop where
  onV : ∀ r : VReg, Reg.v r.val ∉ ws → t.v r = u.v r ∧ t.tag r = u.tag r
  onS : ∀ r : SReg, Reg.s r.val ∉ ws → t.s r = u.s r
  onA : ∀ r : AReg, Reg.a r.val ∉ ws → t.a r = u.a r
  onP : ∀ r : PReg, Reg.p r.val ∉ ws → t.p r = u.p r
  onT : ∀ r : TReg, Reg.t r.val ∉ ws → t.t r = u.t r
  onH : ∀ r : HReg, t.h r = u.h r
  pend : t.regs.pendV = u.regs.pendV ∧ t.regs.pendS = u.regs.pendS

/-- Beside its position the control state of a team is as it was: execute mask, reconvergence stack, level, rounding state, trap
registers, trap base. -/
def CtlKept (u t : Team) : Prop := t.ctl = { u.ctl with pc := t.ctl.pc, word := t.ctl.word }

/-- Beside its chain group, what a team has under way is as it was: its operations and counters, holds, traps that wait, pinned
data, fences, upcall. -/
def FlowKept (u t : Team) : Prop :=
  t.flow = { u.flow with group := t.flow.group, sw := t.flow.sw, fetched := t.flow.fetched, park := t.flow.park }

/-- Who the team is, where it is and its record with the scheduler are as they were. -/
def SelfKept (u t : Team) : Prop := t.id = u.id ∧ t.place = u.place ∧ t.sch = u.sch

/-- A word that went on to the next word and changed nothing but the registers of a list: `u` is the team when its effect began,
after any reconstruction of tagged sources (spec/07 R131). -/
structure WritesOnly (s t : State) (u : Team) (ws : List Reg) : Prop where
  others : OnlyMe s t
  pos  : (t.me.ctl.pc, t.me.ctl.word) = nextPos u
  regs : RegsKept u t.me ws
  ctl  : CtlKept u t.me
  flow : FlowKept u t.me
  self : SelfKept u t.me

/-- The team in issue after the reconstructions that a word makes (spec/07 R131, R132). -/
abbrev ready (s : State) (i : Instr) : Team := s.me.prepare i

end Sys2Proof.Claim

namespace Sys2Proof.Claim
open Sys2Proof Sys2Proof.Machine

/-! ### Scalar words (spec/06 R101, R104 to R107) -/

/-- The number of zeros at the head of a list of bits. -/
def zerosFirst (bs : List Bool) : Nat := (bs.takeWhile (! ·)).length

/-- The 64 bits of x, bit 0 first. -/
def bits64 (x : W64) : List Bool := (List.range 64).map x.getLsbD

/-- s(D) and its new value as the tables of R104, R105 and R106 give it. -/
def scalarRule (u : Team) : Instr → Option (SReg × W64)
  | .sopAdd d a b => some (d, BitVec.ofNat 64 ((u.s a).toNat + (u.s b).toNat))
  | .sopSub d a b => some (d, BitVec.ofInt 64 ((u.s a).toNat - (u.s b).toNat))
  | .sopMul d a b => some (d, BitVec.ofNat 64 ((u.s a).toNat * (u.s b).toNat))
  | .sopMulh d a b => some (d, BitVec.ofNat 64 ((u.s a).toNat * (u.s b).toNat / 2 ^ 64))
  | .sopMulhn d a b => some (d, BitVec.ofInt 64 ((u.s a).toInt * (u.s b).toInt / 2 ^ 64))
  | .sopDiv d a b => some (d, if u.s b = 0 then 0xFFFFFFFFFFFFFFFF else BitVec.ofNat 64 ((u.s a).toNat / (u.s b).toNat))
  | .sopDivn d a b => some (d, if u.s b = 0 then -1
      else if (u.s a).toInt = -2 ^ 63 ∧ (u.s b).toInt = -1 then 0x8000000000000000
      else BitVec.ofInt 64 ((u.s a).toInt.tdiv (u.s b).toInt))
  | .sopRem d a b => some (d, if u.s b = 0 then u.s a
      else BitVec.ofNat 64 ((u.s a).toNat - (u.s b).toNat * ((u.s a).toNat / (u.s b).toNat)))
  | .sopAnd d a b => some (d, u.s a &&& u.s b)
  | .sopOr d a b => some (d, u.s a ||| u.s b)
  | .sopXor d a b => some (d, u.s a ^^^ u.s b)
  | .sopAndn d a b => some (d, u.s a &&& ~~~(u.s b))
  | .sopShl d a b => some (d, BitVec.ofNat 64 ((u.s a).toNat * 2 ^ ((u.s b).toNat % 64)))
  | .sopShr d a b => some (d, BitVec.ofNat 64 ((u.s a).toNat / 2 ^ ((u.s b).toNat % 64)))
  | .sopSar d a b => some (d, BitVec.ofInt 64 ((u.s a).toInt / 2 ^ ((u.s b).toNat % 64)))
  | .sopMin d a b => some (d, BitVec.ofNat 64 (min (u.s a).toNat (u.s b).toNat))
  | .sopMax d a b => some (d, BitVec.ofNat 64 (max (u.s a).toNat (u.s b).toNat))
  | .sopMinn d a b => some (d, BitVec.ofInt 64 (min (u.s a).toInt (u.s b).toInt))
  | .sopMaxn d a b => some (d, BitVec.ofInt 64 (max (u.s a).toInt (u.s b).toInt))
  | .sopSlt d a b => some (d, if (u.s a).toNat < (u.s b).toNat then 1 else 0)
  | .sopSltn d a b => some (d, if (u.s a).toInt < (u.s b).toInt then 1 else 0)
  | .sopSeq d a b => some (d, if u.s a = u.s b then 1 else 0)
  | .sopPopc d a => some (d, BitVec.ofNat 64 ((bits64 (u.s a)).count true))
  | .sopClz d a => some (d, BitVec.ofNat 64 (zerosFirst (bits64 (u.s a)).reverse))
  | .sopCtz d a => some (d, BitVec.ofNat 64 (zerosFirst (bits64 (u.s a))))
  | .sopiAddi d a i => some (d, BitVec.ofInt 64 ((u.s a).toInt + i.toInt))
  | .sopiAndi d a i => some (d, u.s a &&& BitVec.ofInt 64 i.toInt)
  | .sopiOri d a i => some (d, u.s a ||| BitVec.ofInt 64 i.toInt)
  | .sopiXori d a i => some (d, u.s a ^^^ BitVec.ofInt 64 i.toInt)
  | .sshiShli d a i => some (d, BitVec.ofNat 64 ((u.s a).toNat * 2 ^ i.toNat))
  | .sshiShri d a i => some (d, BitVec.ofNat 64 ((u.s a).toNat / 2 ^ i.toNat))
  | .sshiSari d a i => some (d, BitVec.ofInt 64 ((u.s a).toInt / 2 ^ i.toNat))
  | .sshiSlti d a i => some (d, if (u.s a).toInt < i.toInt then 1 else 0)
  | .sinsInsert d q i => some (d, BitVec.ofNat 64
      ((u.s d).toNat % 2 ^ (16 * q.val) + i.toNat * 2 ^ (16 * q.val) +
        (u.s d).toNat / 2 ^ (16 * q.val + 16) * 2 ^ (16 * q.val + 16)))
  | .aopAget a b h => some (b, BitVec.ofNat 64 (if h then (u.a a).toNat / 2 ^ 64 else (u.a a).toNat % 2 ^ 64))
  | _ => none

/-- a(AD) and its new value as the table of R107 gives it. -/
def addressRule (u : Team) : Instr → Option (AReg × W80)
  | .aopAadd d a b h => some (d, BitVec.ofInt 80 ((u.a a).toNat + (u.s b).toInt * 2 ^ h.toNat))
  | .aopAset d a b false => some (d, BitVec.ofNat 80 ((u.a a).toNat / 2 ^ 64 * 2 ^ 64 + (u.s b).toNat))
  | .aopAset d a b true => some (d, BitVec.ofNat 80 ((u.s b).toNat % 2 ^ 16 * 2 ^ 64 + (u.a a).toNat % 2 ^ 64))
  | .aopAmov d a => some (d, u.a a)
  | _ => none

end Sys2Proof.Claim

section
open Sys2Proof Sys2Proof.Machine Sys2Proof.Claim

/-- R104 to R107: each SOP, SOPI, SSHI and SINS word and `aop.aget` completes in every state in which it passes its checks: s(D) takes the
value of the rule's table, whatever the execute mask, and nothing else changes.
R107: `aop.aadd`, `aop.aset` and `aop.amov` complete in every state in which they pass their checks: a(AD) takes the value of
the rule's table, and nothing else changes. -/
def Obligations.ScalarAndAddressWordsWriteTheirResult : Prop :=
  (∀ (s : State) (i : Instr) (d : SReg) (x : W64),
     scalarRule s.me i = some (d, x) → Passes s i →
     ∃ t, exec i s = .next t ∧ t.me.s d = x ∧ WritesOnly s t s.me [.s d.val]) ∧
  (∀ (s : State) (i : Instr) (d : AReg) (x : W80),
     addressRule s.me i = some (d, x) → Passes s i →
     ∃ t, exec i s = .next t ∧ t.me.a d = x ∧ WritesOnly s t s.me [.a d.val])

end

namespace Sys2Proof.Claim
open Sys2Proof Sys2Proof.Machine

/-! ### Lane words (spec/06 R100, R108 to R115; spec/07 R120 to R128, R141) -/

/-- Lane l of a v register. -/
def lane (u : Team) (r : VReg) (l : Nat) : W32 := (u.v r).getD l 0

/-- Lane l is a lane of the team, and every v register holds it. -/
def HasLane (u : Team) (l : Nat) : Prop := l < u.width ∧ ∀ r, l < (u.v r).length

/-- The lowest lane of a mask (spec/00 R7). -/
def lowest (u : Team) (m : Mask) : Option Nat := (List.range u.width).find? m.getLsbD

/-- The values of v(A) in the lanes of a mask, in ascending lane order. -/
def inMask (u : Team) (a : VReg) (m : Mask) (upTo : Nat) : List W32 :=
  ((List.range upTo).filter m.getLsbD).map (lane u a)

/-- RNE(EXACT(x + y)) on FP32 patterns. -/
def sumF32 (x y : W32) : W32 :=
  BitVec.ofNat 32 (fmtF32.rne ((fmtF32.value x.toNat).add (fmtF32.value y.toNat)))

/-- FMIN (`up` false) or FMAX on patterns of a format (R122): NaN is missing data, −0 < +0, the operand chosen bit for bit. -/
def minmaxRule (F : Fmt) (up : Bool) (x y : Nat) : Nat :=
  if F.value x = .nan ∧ F.value y = .nan then F.nan.getD 0
  else if F.value x = .nan then y
  else if F.value y = .nan then x
  else if (F.value x).below (F.value y) = up then y else x

/-- The one step of a reduction or scan (R115): addition or maximum of its type. -/
def stepRule (max : Bool) (t : RType) (x y : W32) : W32 :=
  match max, t with
  | false, .i32 => x + y
  | false, .f32 => sumF32 x y
  | true, .i32 => if x.toInt < y.toInt then y else x
  | true, .f32 => BitVec.ofNat 32 (minmaxRule fmtF32 true x.toNat y.toNat)

/-- Values combined one at a time in order, a NaN made canonical (R115, R71). -/
def foldRule (max : Bool) (t : RType) (xs : List W32) : W32 :=
  let y := match xs with | [] => 0 | x :: rest => rest.foldl (stepRule max t) x
  match t with
  | .i32 => y
  | .f32 => if fmtF32.value y.toNat = .nan then 0x7FC00000 else y

/-- A function of one element made of each element of a lane (R120). -/
def each1 (t : FType) (f : Fmt → Nat → Nat) (x : W32) : W32 :=
  match t with
  | .f32 => BitVec.ofNat 32 (f fmtF32 x.toNat)
  | .half => BitVec.ofNat 32 (f fmtF16 (x.toNat % 2 ^ 16) + f fmtF16 (x.toNat / 2 ^ 16) * 2 ^ 16)
  | .bf => BitVec.ofNat 32 (f fmtBf16 (x.toNat % 2 ^ 16) + f fmtBf16 (x.toNat / 2 ^ 16) * 2 ^ 16)

/-- The same with the elements of three lanes. -/
def each3 (t : FType) (f : Fmt → Nat → Nat → Nat → Nat) (x y z : W32) : W32 :=
  match t with
  | .f32 => BitVec.ofNat 32 (f fmtF32 x.toNat y.toNat z.toNat)
  | .half => BitVec.ofNat 32 (f fmtF16 (x.toNat % 2 ^ 16) (y.toNat % 2 ^ 16) (z.toNat % 2 ^ 16) +
      f fmtF16 (x.toNat / 2 ^ 16) (y.toNat / 2 ^ 16) (z.toNat / 2 ^ 16) * 2 ^ 16)
  | .bf => BitVec.ofNat 32 (f fmtBf16 (x.toNat % 2 ^ 16) (y.toNat % 2 ^ 16) (z.toNat % 2 ^ 16) +
      f fmtBf16 (x.toNat / 2 ^ 16) (y.toNat / 2 ^ 16) (z.toNat / 2 ^ 16) * 2 ^ 16)

/-- RNE(EXACT(x + y)), RNE(EXACT(x − y)), RNE(EXACT(x × y)) and RNE(EXACT(x × y + z)) (R121). -/
def sumRule (F : Fmt) (x y _ : Nat) : Nat := F.rne ((F.value x).add (F.value y))
def diffRule (F : Fmt) (x y _ : Nat) : Nat := F.rne ((F.value x).add (F.value y).neg)
def prodRule (F : Fmt) (x y _ : Nat) : Nat := F.rne ((F.value x).mul (F.value y))
def fmaRule (F : Fmt) (x y z : Nat) : Nat := F.rne (((F.value x).mul (F.value y)).add (F.value z))

/-- A lane word: destination, mask, the value that lane l of the mask takes, and the tag that D takes with a non-empty mask. -/
structure LaneRule where
  d : VReg
  m : Mask
  f : Nat → W32
  tag : BitVec 4

/-- The lane words of R108 and R109 to R113. -/
def integerRule (u : Team) : Instr → Option LaneRule
  | .variIadd d a b g => some ⟨d, u.eff g, fun l => BitVec.ofNat 32 ((lane u a l).toNat + (lane u b l).toNat), 0⟩
  | .variIsub d a b g => some ⟨d, u.eff g, fun l => BitVec.ofInt 32 ((lane u a l).toNat - (lane u b l).toNat), 0⟩
  | .variImul d a b g => some ⟨d, u.eff g, fun l => BitVec.ofNat 32 ((lane u a l).toNat * (lane u b l).toNat), 0⟩
  | .variImulh d a b g => some ⟨d, u.eff g, fun l => BitVec.ofNat 32 ((lane u a l).toNat * (lane u b l).toNat / 2 ^ 32), 0⟩
  | .vlogAnd d a b g => some ⟨d, u.eff g, fun l => lane u a l &&& lane u b l, 0⟩
  | .vlogOr d a b g => some ⟨d, u.eff g, fun l => lane u a l ||| lane u b l, 0⟩
  | .vlogXor d a b g => some ⟨d, u.eff g, fun l => lane u a l ^^^ lane u b l, 0⟩
  | .vlogAndn d a b g => some ⟨d, u.eff g, fun l => lane u a l &&& ~~~(lane u b l), 0⟩
  | .vsftShl d a b g => some ⟨d, u.eff g, fun l => BitVec.ofNat 32 ((lane u a l).toNat * 2 ^ ((lane u b l).toNat % 32)), 0⟩
  | .vsftShr d a b g => some ⟨d, u.eff g, fun l => BitVec.ofNat 32 ((lane u a l).toNat / 2 ^ ((lane u b l).toNat % 32)), 0⟩
  | .vsftSar d a b g => some ⟨d, u.eff g, fun l => BitVec.ofInt 32 ((lane u a l).toInt / 2 ^ ((lane u b l).toNat % 32)), 0⟩
  | .vsftRol d a b g => some ⟨d, u.eff g, fun l =>
      BitVec.ofNat 32 ((lane u a l).toNat * 2 ^ ((lane u b l).toNat % 32) +
        (lane u a l).toNat / 2 ^ (32 - (lane u b l).toNat % 32)), 0⟩
  | .vmnxImin d a b g => some ⟨d, u.eff g, fun l => BitVec.ofNat 32 (min (lane u a l).toNat (lane u b l).toNat), 0⟩
  | .vmnxImax d a b g => some ⟨d, u.eff g, fun l => BitVec.ofNat 32 (max (lane u a l).toNat (lane u b l).toNat), 0⟩
  | .vmnxNmin d a b g => some ⟨d, u.eff g, fun l => BitVec.ofInt 32 (min (lane u a l).toInt (lane u b l).toInt), 0⟩
  | .vmnxNmax d a b g => some ⟨d, u.eff g, fun l => BitVec.ofInt 32 (max (lane u a l).toInt (lane u b l).toInt), 0⟩
  | .vadi d a g i => some ⟨d, u.eff g, fun l => BitVec.ofInt 32 ((lane u a l).toInt + i.toInt), 0⟩
  | .vimmSx d g i => some ⟨d, u.eff g, fun _ => BitVec.ofInt 32 i.toInt, 0⟩
  | .vimmHi d g i => some ⟨d, u.eff g, fun _ => BitVec.ofNat 32 (i.toNat * 2 ^ 19), 0⟩
  | .vsel d a b g => some ⟨d, u.em, fun l => if (u.guardMask g).getLsbD l then lane u a l else lane u b l, 0⟩
  | .vmovMov d a g => some ⟨d, u.eff g, fun l => lane u a l, 0⟩
  | .vmovBcast d a g => some ⟨d, u.eff g, fun _ => BitVec.ofNat 32 ((u.s a).toNat % 2 ^ 32), 0⟩
  | .vmovWrlane d a g => some ⟨d, (match lowest u (u.eff g) with | some k => BitVec.twoPow 1024 k | none => 0),
      fun _ => BitVec.ofNat 32 ((u.s a).toNat % 2 ^ 32), 0⟩
  | .vmovLaneid d g => some ⟨d, u.eff g, fun l => BitVec.ofNat 32 l, 0⟩
  | _ => none

/-- The cross-lane words of R114 and R115. -/
def crossRule (u : Team) : Instr → Option LaneRule
  | .vxlnShfl d a g => some ⟨d, u.eff g, fun l => lane u a ((lane u d l).toNat % u.width), 0⟩
  | .vxlnBcl d a g =>
    match lowest u (u.eff g) with
    | some k => some ⟨d, u.eff g, fun _ => lane u a k, 0⟩
    | none => some ⟨d, 0, fun _ => 0, 0⟩
  | .vxlnRedadd d a g t => some ⟨d, u.eff g, fun _ => foldRule false t (inMask u a (u.eff g) u.width), 0⟩
  | .vxlnRedmax d a g t => some ⟨d, u.eff g, fun _ => foldRule true t (inMask u a (u.eff g) u.width), 0⟩
  | .vxlnScan d a g t => some ⟨d, u.eff g, fun l => foldRule false t (inMask u a (u.eff g) (l + 1)), 0⟩
  | _ => none

/-- The floating-point words of R121, R122, R125 and R141: FADD and FSUB of two sources with one common non-zero tag, both f32, read and keep
coefficients (R130). -/
def floatRule (u : Team) : Instr → Option LaneRule
  | .fadd d a b g t => some ⟨d, u.eff g, fun l => each3 t sumRule (lane u a l) (lane u b l) 0,
      if t = .f32 ∧ u.tag a = u.tag b then u.tag a else 0⟩
  | .fsub d a b g t => some ⟨d, u.eff g, fun l => each3 t diffRule (lane u a l) (lane u b l) 0,
      if t = .f32 ∧ u.tag a = u.tag b then u.tag a else 0⟩
  | .fmul d a b g t => some ⟨d, u.eff g, fun l => each3 t prodRule (lane u a l) (lane u b l) 0, 0⟩
  | .fma d a b g t => some ⟨d, u.eff g, fun l => each3 t fmaRule (lane u a l) (lane u b l) (lane u d l), 0⟩
  | .fmin d a b g t => some ⟨d, u.eff g, fun l => each3 t (fun F x y _ => minmaxRule F false x y) (lane u a l) (lane u b l) 0, 0⟩
  | .fmax d a b g t => some ⟨d, u.eff g, fun l => each3 t (fun F x y _ => minmaxRule F true x y) (lane u a l) (lane u b l) 0, 0⟩
  | .domnHscl d a b => some ⟨d, u.em, fun l => each3 .f32 prodRule (lane u a l) (BitVec.ofNat 32 ((u.s b).toNat % 2 ^ 32)) 0,
      u.tag a⟩
  | .domnHbia d a b => some ⟨d, u.em, fun l =>
      if l % min u.width 128 < min u.width 128 / 2 ^ (u.tag a).toNat
      then sumF32 (lane u a l) (BitVec.ofNat 32 ((u.s b).toNat % 2 ^ 32)) else lane u a l, u.tag a⟩
  | _ => none

/-- The special functions of R125: each element's f(x), rounded once. -/
def specialRule (u : Team) : Instr → Option LaneRule
  | .funaExp2 d a g t => some ⟨d, u.eff g, fun l => each1 t (·.fn .exp2) (lane u a l), 0⟩
  | .funaLog2 d a g t => some ⟨d, u.eff g, fun l => each1 t (·.fn .log2) (lane u a l), 0⟩
  | .funaRcp d a g t => some ⟨d, u.eff g, fun l => each1 t (·.fn .rcp) (lane u a l), 0⟩
  | .funaRsqrt d a g t => some ⟨d, u.eff g, fun l => each1 t (·.fn .rsqrt) (lane u a l), 0⟩
  | .funaSqrt d a g t => some ⟨d, u.eff g, fun l => each1 t (·.fn .sqrt) (lane u a l), 0⟩
  | .funaTanh d a g t => some ⟨d, u.eff g, fun l => each1 t (·.fn .tanh) (lane u a l), 0⟩
  | .funaSigm d a g t => some ⟨d, u.eff g, fun l => each1 t (·.fn .sigm) (lane u a l), 0⟩
  | .funaGelu d a g t => some ⟨d, u.eff g, fun l => each1 t (·.fn .gelu) (lane u a l), 0⟩
  | .funaAbs d a g t => some ⟨d, u.eff g, fun l => each1 t (·.fn .abs) (lane u a l), 0⟩
  | .funaNeg d a g t => some ⟨d, u.eff g, fun l => each1 t (·.fn .neg) (lane u a l), 0⟩
  | .funaFloor d a g t => some ⟨d, u.eff g, fun l => each1 t (·.fn .floor) (lane u a l), 0⟩
  | .funaCeil d a g t => some ⟨d, u.eff g, fun l => each1 t (·.fn .ceil) (lane u a l), 0⟩
  | .funaRint d a g t => some ⟨d, u.eff g, fun l => each1 t (·.fn .rint) (lane u a l), 0⟩
  | .funaFrac d a g t => some ⟨d, u.eff g, fun l => each1 t (·.fn .frac) (lane u a l), 0⟩
  | _ => none

/-- What a lane word leaves: each lane of the mask takes its value, each other lane keeps its bits, D's tag changes with a non-empty
mask only, and nothing else changes. -/
structure LaneEffect (s t : State) (u : Team) (r : LaneRule) : Prop where
  lanes : ∀ l, HasLane u l → lane t.me r.d l = if r.m.getLsbD l then r.f l else lane u r.d l
  size  : (t.me.v r.d).length = (u.v r.d).length
  tag   : t.me.tag r.d = if r.m = 0 then u.tag r.d else r.tag
  rest  : WritesOnly s t u [.v r.d.val]

end Sys2Proof.Claim

section
open Sys2Proof Sys2Proof.Machine Sys2Proof.Claim

/-- R108 to R113 with R100: each VARI, VLOG, VSFT, VMNX, VADI, VIMM, VSEL word and each VMOV word that writes a v register completes in
every state in which it passes its checks; each lane of its mask takes the value of the rule, the others keep their bits, D's tag becomes
0 unless the mask is empty, and nothing else changes. -/
def Obligations.IntegerLaneWordsWriteTheirLanes : Prop :=
  ∀ (s : State) (i : Instr) (r : LaneRule), integerRule (ready s i) i = some r → Passes s i →
    ∃ t, exec i s = .next t ∧ LaneEffect s t (ready s i) r

/-- R114 and R115: each VXLN word completes in every state in which it passes its checks, with the values of the rule: shuffles by v(D)
modulo the width, the lowest lane, reductions and scans one lane at a time in ascending order. -/
def Obligations.CrossLaneWordsWriteTheirLanes : Prop :=
  ∀ (s : State) (i : Instr) (r : LaneRule), crossRule (ready s i) i = some r → Passes s i →
    ∃ t, exec i s = .next t ∧ LaneEffect s t (ready s i) r

/-- R121, R122 and R141: FADD, FSUB, FMUL, FMA, FMIN, FMAX, `domn.hscl` and `domn.hbia` complete in every state in which they pass their
checks: each element is rounded once, and D's tag is the sources' common tag where they are read as coefficients.
R125: each FUNA word completes in every state in which it passes its checks and writes the model's correctly rounded value of its
function in each lane of its mask. -/
def Obligations.FloatLaneWordsRoundOnce : Prop :=
  (∀ (s : State) (i : Instr) (r : LaneRule), floatRule (ready s i) i = some r → Passes s i →
     ∃ t, exec i s = .next t ∧ LaneEffect s t (ready s i) r) ∧
  (∀ (s : State) (i : Instr) (r : LaneRule), specialRule (ready s i) i = some r → Passes s i →
     ∃ t, exec i s = .next t ∧ LaneEffect s t (ready s i) r)

/-- R126: a NaN operand gives the canonical NaN in every function, and the infinities, zeros and negative numbers give the results of
the table, in FP32, FP16 and BF16.
R125, for finite operands: abs and neg clear and invert the sign bit; floor, ceil and rint round the integer of the table, with the operand's
sign, and frac rounds what is left of the integer towards zero; rcp and sqrt give the rounding of the exact quotient and root: whatever two
neighbouring multiples of a power of two enclose them and round alike, their results are that. The other functions are enclosed by series
(log 15) and are not stated here. -/
def Obligations.SpecialOperandsFollowTheTable : Prop :=
  ∀ F ∈ [fmtF32, fmtF16, fmtBf16], ∃ inf nan one : Nat, F.inf = some inf ∧ F.nan = some nan ∧
    F.value one = .fin false (2 ^ F.m) (-F.m) ∧
    (∀ f x, F.value x = .nan → F.fn f x = nan) ∧
    (∀ f sg x, F.value x = .inf sg → F.fn f x = match f, sg with
      | .exp2, true => 0 | .exp2, false => inf
      | .log2, true => nan | .log2, false => inf
      | .rcp, true => F.signBit | .rcp, false => 0
      | .rsqrt, true => nan | .rsqrt, false => 0
      | .sqrt, true => nan | .sqrt, false => inf
      | .tanh, true => one + F.signBit | .tanh, false => one
      | .sigm, true => 0 | .sigm, false => one
      | .gelu, true => F.signBit | .gelu, false => inf
      | .abs, _ => inf
      | .neg, true => inf | .neg, false => inf + F.signBit
      | .floor, true => inf + F.signBit | .floor, false => inf
      | .ceil, true => inf + F.signBit | .ceil, false => inf
      | .rint, true => inf + F.signBit | .rint, false => inf
      | .frac, _ => nan) ∧
    (∀ f sg x e, F.value x = .fin sg 0 e → F.fn f x = match f, sg with
      | .exp2, _ => one
      | .log2, _ => inf + F.signBit
      | .rcp, true => inf + F.signBit | .rcp, false => inf
      | .rsqrt, true => inf + F.signBit | .rsqrt, false => inf
      | .sigm, _ => one - 2 ^ F.m
      | .abs, _ => 0 | .frac, _ => 0
      | .neg, true => 0 | .neg, false => F.signBit
      | _, true => F.signBit | _, false => 0) ∧
    (∀ f x n e, F.value x = .fin true n e → n ≠ 0 → f = .log2 ∨ f = .rsqrt ∨ f = .sqrt → F.fn f x = nan) ∧
    F.fn .log2 one = 0 ∧
    F.fn .floor (one - 2 ^ F.m + F.signBit) = one + F.signBit ∧ F.fn .ceil (one - 2 ^ F.m + F.signBit) = F.signBit ∧
    F.fn .rint (one - 2 ^ F.m + F.signBit) = F.signBit ∧ F.fn .rint (one + 2 ^ F.m + 2 ^ F.m / 4) = one + 2 ^ F.m ∧
    F.fn .frac (one + 2 ^ F.m + 2 ^ F.m / 4 + F.signBit) = one - 2 ^ F.m + F.signBit ∧
    (∀ x sg n e, F.value x = .fin sg n e → (0 ≤ e ∨ 2 ^ (-e).toNat ∣ n) → F.fn .frac x = 0) ∧
    (∀ x sg n e, F.value x = .fin sg n e → n ≠ 0 → x < 2 * F.signBit →
      F.fn .abs x = x % F.signBit ∧ F.fn .neg x = (if x < F.signBit then x + F.signBit else x - F.signBit) ∧
      (∀ q r, q = n * 2 ^ e.toNat / 2 ^ (-e).toNat → r = n * 2 ^ e.toNat % 2 ^ (-e).toNat →
        F.fn .floor x = F.rne (.fin sg (if sg = true ∧ r ≠ 0 then q + 1 else q) 0) ∧
        F.fn .ceil x = F.rne (.fin sg (if sg = false ∧ r ≠ 0 then q + 1 else q) 0) ∧
        F.fn .rint x =
          F.rne (.fin sg (if 2 ^ (-e).toNat < 2 * r ∨ 2 * r = 2 ^ (-e).toNat ∧ q % 2 = 1 then q + 1 else q) 0) ∧
        (r ≠ 0 → F.fn .frac x = F.rne (.fin sg r e))) ∧
      (∀ (t : Nat) (f : Int), (t : ℚ) * 2 ^ f ≤ 1 / (n * 2 ^ e) → 1 / (n * 2 ^ e) ≤ ((t : ℚ) + 1) * 2 ^ f →
        F.rne (.fin sg t f) = F.rne (.fin sg (t + 1) f) → F.fn .rcp x = F.rne (.fin sg t f)) ∧
      (∀ (t : Nat) (f : Int), sg = false → ((t : ℚ) * 2 ^ f) ^ 2 ≤ n * 2 ^ e → n * 2 ^ e ≤ (((t : ℚ) + 1) * 2 ^ f) ^ 2 →
        F.rne (.fin false t f) = F.rne (.fin false (t + 1) f) → F.fn .sqrt x = F.rne (.fin false t f)))

end

namespace Sys2Proof.Claim
open Sys2Proof Sys2Proof.Machine

/-! ### Predicates, masks and conversions (spec/06 R111, R113, R116 to R119; spec/07 R123, R124, R127, R128, R141; spec/04 R83) -/

/-- What a floating compare reads of a lane: all of it as FP32, or bits [15:0] (R123). -/
def cmpOperand (t : FType) (x : W32) : Val :=
  match t with
  | .f32 => fmtF32.value x.toNat
  | .half => fmtF16.value (x.toNat % 2 ^ 16)
  | .bf => fmtBf16.value (x.toNat % 2 ^ 16)

/-- A compare: its two destinations, its mask, and c of each lane. -/
structure CmpRule where
  p : PReg
  q : PReg
  m : Mask
  c : Nat → Bool

/-- The tables of R111 and R123. -/
def cmpRule (u : Team) : Instr → Option CmpRule
  | .vcmpEq p q a b g => some ⟨p, q, u.eff g, fun l => lane u a l = lane u b l⟩
  | .vcmpLt p q a b g => some ⟨p, q, u.eff g, fun l => (lane u a l).toNat < (lane u b l).toNat⟩
  | .vcmpLe p q a b g => some ⟨p, q, u.eff g, fun l => (lane u a l).toNat ≤ (lane u b l).toNat⟩
  | .vcmpLtn p q a b g => some ⟨p, q, u.eff g, fun l => (lane u a l).toInt < (lane u b l).toInt⟩
  | .fceq p q a b g t => some ⟨p, q, u.eff g, fun l =>
      let x := cmpOperand t (lane u a l); let y := cmpOperand t (lane u b l)
      x ≠ .nan ∧ y ≠ .nan ∧ x.lt y = false ∧ y.lt x = false⟩
  | .fclt p q a b g t => some ⟨p, q, u.eff g, fun l =>
      let x := cmpOperand t (lane u a l); let y := cmpOperand t (lane u b l)
      x ≠ .nan ∧ y ≠ .nan ∧ x.lt y = true⟩
  | .fcle p q a b g t => some ⟨p, q, u.eff g, fun l =>
      let x := cmpOperand t (lane u a l); let y := cmpOperand t (lane u b l)
      x ≠ .nan ∧ y ≠ .nan ∧ y.lt x = false⟩
  | .fcun p q a b g t => some ⟨p, q, u.eff g, fun l =>
      cmpOperand t (lane u a l) = .nan ∨ cmpOperand t (lane u b l) = .nan⟩
  | _ => none

/-- D and the bit that lane l of the execute mask takes (R116). -/
def predicateRule (u : Team) : Instr → Option (PReg × (Nat → Bool))
  | .plogPand d a n b => some (d, fun l => (u.p a).getLsbD l && ((u.p b).getLsbD l ^^ n))
  | .plogPor d a n b => some (d, fun l => (u.p a).getLsbD l || ((u.p b).getLsbD l ^^ n))
  | .plogPxor d a n b => some (d, fun l => (u.p a).getLsbD l ^^ ((u.p b).getLsbD l ^^ n))
  | _ => none

/-- s(D) and its new value: rdlane, pmovs, pbal, emr and dget (R113, R119, R141). -/
def maskRule (u : Team) : Instr → Option (SReg × W64)
  | .vmovRdlane d a g => some (d, match lowest u (u.eff g) with
      | some k => BitVec.ofNat 64 (lane u a k).toNat
      | none => u.s d)
  | .plogPmovs d a w => some (d, BitVec.ofNat 64 ((u.p a &&& u.em).toNat / 2 ^ (32 * w.val) % 2 ^ 32))
  | .plogPbal d a => some (d, BitVec.ofNat 64 ((List.range 1024).countP fun l => u.em.getLsbD l && (u.p a).getLsbD l))
  | .plogEmr d w => some (d,
      if w = 63 then
        BitVec.ofNat 64 ((((List.range u.id.m).filter fun w => u.em.toNat / 2 ^ (32 * w) % 2 ^ 32 ≠ 0).map (2 ^ ·)).sum % 2 ^ 32)
      else BitVec.ofNat 64 (u.em.toNat / 2 ^ (32 * w.val) % 2 ^ 32))
  | .domnDget d a => some (d, BitVec.ofNat 64 (u.tag a).toNat)
  | _ => none

/-- The format, lowest bit and width of the narrow field of each conversion pair, in the order of the table of R127. -/
def pairTable : List (Fmt × Nat × Nat) :=
  [(fmtF16, 0, 16), (fmtF16, 16, 16), (fmtBf16, 0, 16), (fmtBf16, 16, 16),
   (fmtE4m3, 0, 8), (fmtE4m3, 8, 8), (fmtE4m3, 16, 8), (fmtE4m3, 24, 8),
   (fmtE5m2, 0, 8), (fmtE5m2, 8, 8), (fmtE5m2, 16, 8), (fmtE5m2, 24, 8),
   (fmtE2m1, 0, 4), (fmtE2m1, 4, 4), (fmtE2m1, 8, 4), (fmtE2m1, 12, 4),
   (fmtE2m1, 16, 4), (fmtE2m1, 20, 4), (fmtE2m1, 24, 4), (fmtE2m1, 28, 4)]

/-- The 32 bits that a conversion writes, from the rounding state of its element and the lanes of D and A (R127, R128). -/
def pairValue (n : Nat) (sel : Rnd) (st d a : W32) : W32 :=
  let (F, lo, w) := pairTable.getD (n % 20) (fmtF16, 0, 16)
  if n < 20 then
    BitVec.ofNat 32 (d.toNat % 2 ^ lo + F.round sel st (fmtF32.value a.toNat) % 2 ^ w * 2 ^ lo +
      d.toNat / 2 ^ (lo + w) * 2 ^ (lo + w))
  else BitVec.ofNat 32 (fmtF32.rne (F.value (a.toNat / 2 ^ lo % 2 ^ w)))

/-- One step of the rounding state (R83). -/
def stepSr (st : W32) : W32 :=
  let st := st ^^^ (st <<< 13)
  let st := st ^^^ (st >>> 17)
  st ^^^ (st <<< 5)

/-- A conversion: destination, mask, rounding, and the value of a lane from its rounding state. -/
structure CvtRule where
  d : VReg
  m : Mask
  sel : Rnd
  f : W32 → Nat → W32

/-- The conversions of R127. -/
def cvtRule (u : Team) : Instr → Option CvtRule
  | .fcvtConvert d a n g r => some ⟨d, u.eff g, r, fun st l => pairValue n.val r st (lane u d l) (lane u a l)⟩
  | .fcvtI32 d a g r => some ⟨d, u.eff g, r, fun st l => roundI32 r st (fmtF32.value (lane u a l).toNat)⟩
  | .fcvtWi32 d a g r => some ⟨d, u.eff g, r, fun st l =>
      BitVec.ofNat 32 (fmtF32.round r st (.fin (decide ((lane u a l).toInt < 0)) (lane u a l).toInt.natAbs 0))⟩
  | _ => none

/-- The rounding state with which the element of lane l is converted: advanced once for each lane of the mask up to l. -/
def srAt (u : Team) (r : CvtRule) (upTo : Nat) : W32 :=
  if r.sel = .sr then stepSr^[(List.range upTo).countP r.m.getLsbD] u.sr else u.sr

end Sys2Proof.Claim

section
open Sys2Proof Sys2Proof.Machine Sys2Proof.Claim

/-- R111, R123, R124: each VCMP word, FCEQ, FCLT, FCLE and FCUN completes in every state in which it passes its checks: in the lanes of its mask
p(PD1) takes c and p(PD2) its complement, p7 is not written, every other lane and register keeps its bits. -/
def Obligations.ComparesWriteBothPredicates : Prop :=
  ∀ (s : State) (i : Instr) (r : CmpRule), cmpRule (ready s i) i = some r → Passes s i →
    ∃ t, exec i s = .next t ∧
      (∀ l, HasLane (ready s i) l → r.m.getLsbD l = true →
        (r.p ≠ 7 → (t.me.p r.p).getLsbD l = r.c l) ∧ (r.q ≠ 7 → (t.me.p r.q).getLsbD l = !r.c l)) ∧
      (∀ l k, r.m.getLsbD l = false → (t.me.p k).getLsbD l = ((ready s i).p k).getLsbD l) ∧
      t.me.p 7 = BitVec.allOnes 1024 ∧
      WritesOnly s t (ready s i) [.p r.p.val, .p r.q.val]

/-- R116, R117: `plog.pand`, `plog.por` and `plog.pxor` complete in every state in which they pass their checks: p(D) takes the bit of
the rule in the lanes of the execute mask and keeps the others; with D = p7 nothing is written.
R113, R119, R141: `vmov.rdlane`, `plog.pmovs`, `plog.pbal`, `plog.emr` and `domn.dget` complete in every state in which they pass their
checks and write s(D), also for an empty mask; an empty mask leaves the s(D) of rdlane.
R118: `plog.emw` completes in every state in which it passes its checks: the execute mask becomes EM AND p(A), and beside the
position nothing else changes.
R141: `domn.dtag` completes in every state in which it passes its checks: with a non-empty execute mask D's tag becomes its
immediate; D's bits and everything else stay. -/
def Obligations.PredicateAndMaskWords : Prop :=
  ((∀ (s : State) (i : Instr) (d : PReg) (f : Nat → Bool), predicateRule s.me i = some (d, f) → Passes s i →
      ∃ t, exec i s = .next t ∧
        (d ≠ 7 → ∀ l, (t.me.p d).getLsbD l = if s.me.em.getLsbD l then f l else (s.me.p d).getLsbD l) ∧
        (d = 7 → ∀ k, t.me.p k = s.me.p k) ∧
        WritesOnly s t s.me [.p d.val]) ∧
   (∀ (s : State) (i : Instr) (d : SReg) (x : W64), maskRule (ready s i) i = some (d, x) → Passes s i →
      ∃ t, exec i s = .next t ∧ t.me.s d = x ∧ WritesOnly s t (ready s i) [.s d.val])) ∧
  ((∀ (s : State) (a : PReg), Passes s (.plogEmw a) →
      ∃ t, exec (.plogEmw a) s = .next t ∧ OnlyMe s t ∧ (t.me.ctl.pc, t.me.ctl.word) = nextPos s.me ∧
        t.me.ctl = { s.me.ctl with pc := t.me.ctl.pc, word := t.me.ctl.word, em := s.me.em &&& s.me.p a } ∧
        RegsKept s.me t.me [] ∧ FlowKept s.me t.me ∧ SelfKept s.me t.me) ∧
   (∀ (s : State) (d : VReg) (k : Fin 8), Passes s (.domnDtag d k) →
      ∃ t, exec (.domnDtag d k) s = .next t ∧
        t.me.tag d = (if s.me.em = 0 then s.me.tag d else BitVec.ofNat 4 k.val) ∧ t.me.v d = s.me.v d ∧
        WritesOnly s t s.me [.v d.val]))

/-- R127, R128 with R83: each FCVT word completes in every state in which it passes its checks and whose v registers have the team's
width: each lane of its mask takes the converted value, under `sr` with the rounding state advanced once for each lane of the mask in
ascending order; the state that it leaves is SRSTATE, and under every other selection SRSTATE stays. -/
def Obligations.ConversionsRoundLaneByLane : Prop :=
  ∀ (s : State) (i : Instr) (r : CvtRule), cvtRule (ready s i) i = some r → Passes s i →
    (∀ v, ((ready s i).v v).length = (ready s i).width) →
    ∃ t, exec i s = .next t ∧
      (∀ l, l < (ready s i).width → lane t.me r.d l =
        if r.m.getLsbD l then r.f (srAt (ready s i) r (l + 1)) l else lane (ready s i) r.d l) ∧
      (t.me.v r.d).length = ((ready s i).v r.d).length ∧
      t.me.tag r.d = (if r.m = 0 then (ready s i).tag r.d else 0) ∧
      t.me.ctl = { s.me.ctl with
        pc := t.me.ctl.pc, word := t.me.ctl.word,
        srstate := if r.sel = .sr ∧ r.m ≠ 0 then srAt (ready s i) r (ready s i).width else s.me.ctl.srstate } ∧
      OnlyMe s t ∧ (t.me.ctl.pc, t.me.ctl.word) = nextPos s.me ∧ RegsKept (ready s i) t.me [.v r.d.val] ∧
      FlowKept s.me t.me ∧ SelfKept s.me t.me

end

namespace Sys2Proof.Claim
open Sys2Proof Sys2Proof.Machine

/-! ### Control flow (spec/06 R103; spec/12 R204, R205; spec/15 R253 to R258) -/

/-- A word that ends its packet and goes to word 0 of a packet, changing nothing but the registers of a list. -/
structure GoesTo (s t : State) (u : Team) (pc : W64) (ws : List Reg) : Prop where
  others : OnlyMe s t
  pos  : t.me.ctl.pc = pc ∧ t.me.ctl.word = 0
  regs : RegsKept u t.me ws
  ctl  : CtlKept u t.me
  flow : FlowKept u t.me
  self : SelfKept u t.me

/-- The target of a branch: the packet of the word plus a signed offset in packets (spec/02 R35). -/
def target (u : Team) (off : Int) : W64 := u.ctl.pc + BitVec.ofInt 64 off

/-- Where each uniform branch goes (R257, R258). -/
def branchRule (u : Team) : Instr → Option W64
  | .brsBeqz k o => some (if u.s k = 0 then target u o.toInt else u.ctl.pc + 1)
  | .brsBnez k o => some (if u.s k ≠ 0 then target u o.toInt else u.ctl.pc + 1)
  | .brsBltz k o => some (if (u.s k).toInt < 0 then target u o.toInt else u.ctl.pc + 1)
  | .brsBgez k o => some (if 0 ≤ (u.s k).toInt then target u o.toInt else u.ctl.pc + 1)
  | .jmpJmp o => some (target u o.toInt)
  | .jmpJmpr a => some (u.s a)
  | .jmpRet => some (u.s 63)
  | _ => none

/-! ### Traps (spec/20 R302, R303; spec/22 R318 to R320) -/

/-- Everything but the team in issue is as it was; should the state hold its identifier twice, which no run does, every team with
another identifier is. -/
structure OthersKept (s t : State) : Prop where
  rest  : t = { s with me := t.me, teams := t.teams }
  teams : t.teams.filter (·.id.tid != s.me.id.tid) = s.teams.filter (·.id.tid != s.me.id.tid)

/-- The low 32 bits of TCAUSE for a fault, as reports carry them. -/
def cause32 (f : FaultInfo) : Nat := (f.cls + f.detail * 2 ^ 8 + (if f.hostfail then 2 ^ 21 else 0)) % 2 ^ 32

/-- A trap entered (R318), at a position, with its TLANEM lanes; with `laneWise` the handler's mask is those lanes. -/
structure Entered (s t : State) (p : PendTrap) : Prop where
  others : OthersKept s t
  pc     : t.me.ctl.pc = s.trapEntry s.me p.info.cls ∧ t.me.ctl.word = 0
  level  : t.me.ctl.level = .trap
  mask   : t.me.ctl.em = (if p.laneWise then p.lanes else s.me.ctl.em) ∧ t.me.ctl.stack = []
  aside  : t.me.ctl.asideEm = s.me.ctl.em ∧ t.me.ctl.aside = s.me.ctl.stack
  tcause : t.me.ctl.trap.tcause = BitVec.ofNat 64 (p.info.cls + p.info.detail * 2 ^ 8 + (if p.info.hostfail then 2 ^ 21 else 0))
  tpc    : t.me.ctl.trap.tpc = p.pc <<< 2 ||| BitVec.ofNat 64 p.word
  taddr  : t.me.ctl.trap.taddr = p.info.addr
  twords : t.me.ctl.trap.twords = s.me.flow.packet
  tbmask : t.me.ctl.trap.tbmask = p.info.bmask
  tlanem : t.me.ctl.trap.tlanem = if p.laneWise then p.lanes else 0
  kept   : t.me.ctl.srstate = s.me.ctl.srstate ∧ t.me.ctl.trapbase = s.me.ctl.trapbase
  regs   : t.me.regs = s.me.regs
  ops    : t.me.flow.ops = s.me.flow.ops
  self   : SelfKept s.me t.me

/-- The team can take a trap of a class into a handler: it runs at user level, no register of it is pending and it waits for no reply of the
transform pipe, and its trap table has an entry for the class. -/
def CanEnter (s : State) (cls : Nat) : Prop :=
  s.me.ctl.level = .user ∧ s.me.trappable = true ∧ s.trapEntry s.me cls ≠ BitVec.allOnes 64

/-- A report of a kind with a detail is held, last, where there is room and no log ring. -/
def Reported (s t : State) (kind detail : Nat) : Prop :=
  s.io.logbase = 0 → s.io.heldReports < 256 →
    ∃ r, t.io.held = s.io.held ++ [.report r] ∧ r.kind = kind ∧ r.detail = detail ∧ r.ctx = s.me.id.ctx

end Sys2Proof.Claim

section
open Sys2Proof Sys2Proof.Machine Sys2Proof.Claim

/-- R103: `misc.exit` completes in every state in which it passes its checks, whatever the masks and the stack: a team of no handler
pool has ended, the results of its outstanding loads are discarded, its rings are to be unbound, its registers and outstanding operations
stay until they retire; with no write-back of it pinned, memory is as it was.
R323: with one sector pinned, that sector is dropped, and one report of kind DWBLOST (9) follows. -/
def Obligations.ExitEndsTheTeam : Prop :=
  ∀ s : State, Passes s .miscExit → s.me.id.pool = none →
    ∃ t, exec .miscExit s = .next t ∧ t.me.flow.ended = true ∧ t.me.regs = s.me.regs ∧ t.me.ctl = s.me.ctl ∧ SelfKept s.me t.me ∧
      (∀ o ∈ t.me.flow.ops, o.cls = .ld → o.writes = []) ∧ t.me.flow.ops.map (·.id) = s.me.flow.ops.map (·.id) ∧
      (∀ r ∈ t.rings, r.tid = s.me.id.tid → r.unbind = true) ∧
      (s.pinnedOf s.me.id.tid = [] → ∀ a, t.homeByte a = s.homeByte a) ∧
      (∀ x, s.pinnedOf s.me.id.tid = [x] → x.queue = none → x.ctx = s.me.id.ctx →
        (∀ y ∈ t.dirty, y.core = x.core → y.key ≠ x.key) ∧ Reported s t 9 0)

/-- R257, R258: `brs.beqz`, `bnez`, `bltz`, `bgez`, `jmp`, `jmp.jmpr` and `jmp.ret` complete in every state in which they pass their
checks: the team goes to word 0 of the packet of the rule, and nothing else changes.
R258: `jmp.call` completes in every state in which it passes its checks: s63 takes the next packet, the team goes to the
target; `jmp.ret` there would come back. For the hazard and unmarked-dependence checks each BRS form reads s(SC) and writes no register. -/
def Obligations.UniformBranchesGoToTheirTarget : Prop :=
  (∀ (s : State) (i : Instr) (pc : W64), branchRule s.me i = some pc → Passes s i →
     ∃ t, exec i s = .next t ∧ GoesTo s t s.me pc []) ∧
  (∀ (s : State) (o : BitVec 22), Passes s (.jmpCall o) →
     ∃ t, exec (.jmpCall o) s = .next t ∧ t.me.s 63 = s.me.ctl.pc + 1 ∧ GoesTo s t s.me (target s.me o.toInt) [.s 63]) ∧
  (∀ (k : SReg) (o : BitVec 16) (i : Instr), i = .brsBeqz k o ∨ i = .brsBnez k o ∨ i = .brsBltz k o ∨ i = .brsBgez k o →
     i.reads = [.s k.val] ∧ i.writes = [])

/-- R254: `brv` completes in every state in which it passes its checks. With no lane taken it falls through; with every lane of the
execute mask taken it goes to its target; otherwise it pushes a sibling frame with the lanes not taken and the next packet, narrows the
mask to the lanes taken and goes to its target, where the stack has room; where it has 32 frames it raises the stack trap, detail 0. -/
def Obligations.BrvSplitsTheMask : Prop :=
  ∀ (s : State) (g : Guard) (o : BitVec 20), Passes s (.brv g o) →
    (s.me.em &&& s.me.guardMask g = 0 → ∃ t, exec (.brv g o) s = .next t ∧ GoesTo s t s.me (s.me.ctl.pc + 1) []) ∧
    (s.me.em &&& s.me.guardMask g ≠ 0 → s.me.em &&& ~~~(s.me.guardMask g) = 0 →
      ∃ t, exec (.brv g o) s = .next t ∧ GoesTo s t s.me (target s.me o.toInt) []) ∧
    (s.me.em &&& s.me.guardMask g ≠ 0 → s.me.em &&& ~~~(s.me.guardMask g) ≠ 0 → s.me.ctl.stack.length < 32 →
      ∃ t, exec (.brv g o) s = .next t ∧ OnlyMe s t ∧
        t.me.ctl = { s.me.ctl with
          pc := target s.me o.toInt, word := 0, em := s.me.em &&& s.me.guardMask g,
          stack := ⟨true, s.me.ctl.pc + 1, s.me.em &&& ~~~(s.me.guardMask g)⟩ :: s.me.ctl.stack } ∧
        t.me.regs = s.me.regs ∧ FlowKept s.me t.me ∧ SelfKept s.me t.me) ∧
    (s.me.em &&& s.me.guardMask g ≠ 0 → s.me.em &&& ~~~(s.me.guardMask g) ≠ 0 → 32 ≤ s.me.ctl.stack.length →
      exec (.brv g o) s = .next (s.trapHere ⟨8, 0, 0, false, 0⟩))

/-- R255, R256: `rcv` and `join` complete in every state in which they pass their checks. `rcv` pushes a reconvergence frame with the target
and the mask and goes on, or raises the stack trap, detail 0, on 32 frames. `join` pops the top frame: its mask becomes the execute mask,
and the team goes to a sibling frame's packet, or past the join for a reconvergence frame; on an empty stack it raises the stack trap,
detail 1. -/
def Obligations.RcvPushesAndJoinPops : Prop :=
  (∀ (s : State) (o : BitVec 22), Passes s (.rcv o) →
    (s.me.ctl.stack.length < 32 → ∃ t, exec (.rcv o) s = .next t ∧ OnlyMe s t ∧
      t.me.ctl = { s.me.ctl with
        pc := (nextPos s.me).1, word := (nextPos s.me).2,
        stack := ⟨false, target s.me o.toInt, s.me.em⟩ :: s.me.ctl.stack } ∧
      t.me.regs = s.me.regs ∧ FlowKept s.me t.me ∧ SelfKept s.me t.me) ∧
    (32 ≤ s.me.ctl.stack.length → exec (.rcv o) s = .next (s.trapHere ⟨8, 0, 0, false, 0⟩))) ∧
  (∀ s : State, Passes s .join →
    (∀ f rest, s.me.ctl.stack = f :: rest → ∃ t, exec .join s = .next t ∧ OnlyMe s t ∧
      t.me.ctl = { s.me.ctl with
        pc := (if f.sibling then f.pc else s.me.ctl.pc + 1), word := 0, em := f.mask, stack := rest } ∧
      t.me.regs = s.me.regs ∧ t.me.flow.ops = s.me.flow.ops ∧ SelfKept s.me t.me) ∧
    (s.me.ctl.stack = [] → exec .join s = .next (s.trapHere ⟨8, 1, 0, false, 0⟩)))

/-- R204, R254, R256: a divergent `brv` and the two `join`s that end its paths lose no lane: the lanes taken and the lanes of the pushed
frame are disjoint and together the mask before, and a `join` on that frame restores exactly the rest, at the packet after the branch. -/
def Obligations.DivergenceKeepsEveryLane : Prop :=
  ∀ (s t u : State) (g : Guard) (o : BitVec 20), Passes s (.brv g o) → s.me.ctl.stack.length < 32 →
    s.me.em &&& s.me.guardMask g ≠ 0 → s.me.em &&& ~~~(s.me.guardMask g) ≠ 0 →
    exec (.brv g o) s = .next t → Passes t .join → exec .join t = .next u →
    u.me.ctl.em &&& t.me.ctl.em = 0 ∧ u.me.ctl.em ||| t.me.ctl.em = s.me.em ∧
    u.me.ctl.stack = s.me.ctl.stack ∧ u.me.ctl.pc = s.me.ctl.pc + 1 ∧ u.me.ctl.word = 0 ∧ u.me.regs = s.me.regs

/-- R47, R48, R38: a word that fails a check takes the trap of the first check that fails, in the order well-formedness, allocation,
level, operands, pending registers, with none of its effects: the illegal-instruction trap with its detail, or the unmarked-dependence
trap. -/
def Obligations.FailedChecksTrapInOrder : Prop :=
  ∀ (s : State) (i : Instr), hasWord i = true →
    (WellFormed i = false → exec i s = .next (s.trapHere ⟨0, Detail.rsvfn.code, 0, false, 0⟩)) ∧
    (WellFormed i = true → s.me.allocOk i.names = false → exec i s = .next (s.trapHere ⟨0, Detail.regalloc.code, 0, false, 0⟩)) ∧
    (WellFormed i = true → s.me.allocOk i.names = true → i.levelOk s.me.ctl.level.code = false →
      exec i s = .next (s.trapHere ⟨0, Detail.privlvl.code, 0, false, 0⟩)) ∧
    (WellFormed i = true → s.me.allocOk i.names = true → i.levelOk s.me.ctl.level.code = true → s.operandOk i = false →
      exec i s = .next (s.trapHere ⟨0, Detail.operand.code, 0, false, 0⟩)) ∧
    (∀ n, WellFormed i = true → s.me.allocOk i.names = true → i.levelOk s.me.ctl.level.code = true → s.operandOk i = true →
      s.me.unmarked i.names = some n → exec i s = .next (s.trapHere ⟨1, n, 0, false, 0⟩))

/-- R318 with R302 and R303: a trap of a team that can enter its handler writes every trap register, sets the mask and the stack aside,
empties the stack, gives the handler its mask, raises the level and goes to word 0 of the class's entry, and does nothing else. -/
def Obligations.TrapEntersItsHandler : Prop :=
  ∀ (s : State) (p : PendTrap), CanEnter s p.info.cls → Entered s (s.raise s.me.id.tid p) p

/-- R103: `misc.nop` changes nothing; `misc.yield` changes only the time of the team's last issue, to the core's cycle now; `misc.brk` halts the core
where DBGCTL.BRKEN is 1, and is a nop where it is 0. Each completes in every state in which it passes its checks.
R103, R318: `misc.trap` completes by entering the handler of class 9, with its CODE as TCAUSE.detail, TPC at the word itself and TADDR
and TLANEM zero. -/
def Obligations.MiscWordsComplete : Prop :=
  ((∀ s : State, Passes s .miscNop → ∃ t, exec .miscNop s = .next t ∧ WritesOnly s t s.me []) ∧
   (∀ s : State, Passes s .miscYield → ∃ t, exec .miscYield s = .next t ∧ t.me.sch = { s.me.sch with last := s.coreCyc s.me.core } ∧
     OnlyMe s t ∧ (t.me.ctl.pc, t.me.ctl.word) = nextPos s.me ∧ RegsKept s.me t.me [] ∧ CtlKept s.me t.me ∧ FlowKept s.me t.me ∧
     t.me.id = s.me.id ∧ t.me.place = s.me.place) ∧
   (∀ s : State, Passes s .miscBrk → ∃ t, exec .miscBrk s = .next t ∧
     (s.brken = false → WritesOnly s t s.me []) ∧
     (s.brken = true → WritesOnly s { t with cores := s.cores } s.me [] ∧ (∀ c, c % 256 ≠ s.me.core % 256 → t.core c = s.core c) ∧
       t.core s.me.core = { s.core s.me.core with
         dbg := if (s.core s.me.core).dbg = .running then .haltedBusy else (s.core s.me.core).dbg }))) ∧
  (∀ (s : State) (k : BitVec 12), Passes s (.miscTrap k) → CanEnter s 9 →
     ∃ t, exec (.miscTrap k) s = .next t ∧ Entered s t ⟨⟨9, k.toNat, 0, false, 0⟩, s.me.ctl.pc, s.me.ctl.word, 0, false⟩)

/-- R39, R133: a trap met while a register of the team is pending, or while the transform pipe has still to reply, waits, and TRAP_ENTRY takes
it once that is over; before that TRAP_ENTRY changes nothing.
R319, R320: a trap at trap level, and a trap of a class with no handler, kill the team and write one report, of kind NESTED (8) or
UNHANDLED (7), whose detail is TCAUSE[31:0]; stated of teams of no handler pool. -/
def Obligations.WaitingNestedAndUnhandledTraps : Prop :=
  (∀ (s : State) (p : PendTrap), s.me.ctl.level ≠ .trap →
     (s.me.trappable = false → (s.raise s.me.id.tid p).me.flow.trapPend = some p ∧ (s.raise s.me.id.tid p).me.regs = s.me.regs ∧
       (s.raise s.me.id.tid p).me.ctl = s.me.ctl ∧ OthersKept s (s.raise s.me.id.tid p)) ∧
     (s.me.flow.trapPend = some p → s.me.trappable = false → exec (.trapEntry s.me.id.tid) s = .next s) ∧
     (s.me.flow.trapPend = some p → s.me.placed = true → s.me.ended = false → CanEnter s p.info.cls →
       ∃ t, exec (.trapEntry s.me.id.tid) s = .next t ∧ Entered s t p ∧ t.me.flow.trapPend = none)) ∧
  (∀ (s : State) (p : PendTrap), s.me.id.pool = none →
     (s.me.ctl.level = .trap →
       (s.raise s.me.id.tid p).me.flow.ended = true ∧ (s.raise s.me.id.tid p).io.repSeq = s.io.repSeq + 1 ∧
       Reported s (s.raise s.me.id.tid p) 8 (cause32 p.info)) ∧
     (s.me.ctl.level = .user → s.me.trappable = true → s.trapEntry s.me p.info.cls = BitVec.allOnes 64 →
       (s.raise s.me.id.tid p).me.flow.ended = true ∧ (s.raise s.me.id.tid p).io.repSeq = s.io.repSeq + 1 ∧
       Reported s (s.raise s.me.id.tid p) 7 (cause32 p.info)))

end

namespace Sys2Proof.Claim
open Sys2Proof Sys2Proof.Machine

/-! ### System words (spec/20 R300 to R313) -/

/-- A long-latency operation issued, newest of its team: `ready` tells that its results are fixed; the s registers of `ps` are now
pending. Beside that and the position nothing of the team changes. -/
structure Issues (u t : Team) (id : Nat) (cls : OpClass) (ready : Bool) (ws : List RegWrite) (ps : List SReg) : Prop where
  op   : ∃ dests acq, t.flow.ops = u.flow.ops ++ [⟨id, cls, ready, false, ws, [], ps, dests, acq, none, none⟩]
  regs : t.regs = { u.regs with pendS := t.regs.pendS }
  pend : ∀ r : SReg, t.regs.pendS.getLsbD r.val = (u.regs.pendS.getLsbD r.val || ps.contains r)
  pos  : (t.ctl.pc, t.ctl.word) = nextPos u
  ctl  : CtlKept u t
  flow : t.flow = { u.flow with
    ops := t.flow.ops, group := t.flow.group, sw := t.flow.sw, fetched := t.flow.fetched, park := t.flow.park }
  self : SelfKept u t

/-- What each core register reads as (R301 to R304). -/
def coreRegRule (s : State) (n : Nat) : W64 :=
  let t := s.me
  let r := t.ctl.trap
  if n = 0x0000 then t.id.teamid
  else if n = 0x0001 then BitVec.ofNat 64 t.width
  else if n = 0x0002 then BitVec.ofNat 64 t.core
  else if n = 0x0003 then BitVec.ofNat 64 (t.core / 8)
  else if n = 0x0004 then s.time.timeb
  else if n = 0x0005 then BitVec.ofNat 64 t.sr.toNat
  else if n = 0x0006 then BitVec.ofNat 64 (t.id.ctx + 2 ^ 32 * t.id.gen)
  else if n = 0x0007 then BitVec.ofNat 64 (match s.liveCtx? t.id.ctx t.id.gen with | some c => c.energy | none => 0)
  else if n = 0x0008 then s.walkst t
  else if n = 0x0009 then BitVec.ofNat 64 s.time.timest
  else if n = 0x000A then s.time.epochoff
  else if n = 0x0100 then r.tcause
  else if n = 0x0101 then r.tpc
  else if n = 0x0102 then BitVec.ofNat 64 (r.taddr.toNat % 2 ^ 64)
  else if n = 0x0103 then BitVec.ofNat 64 (r.taddr.toNat / 2 ^ 64)
  else if n = 0x0104 then BitVec.ofNat 64 (r.twords.toNat % 2 ^ 64)
  else if n = 0x0105 then BitVec.ofNat 64 (r.twords.toNat / 2 ^ 64)
  else if n = 0x0106 then BitVec.ofNat 64 (r.tbmask.toNat % 2 ^ 64)
  else if n = 0x0107 then BitVec.ofNat 64 (r.tbmask.toNat / 2 ^ 64)
  else if 0x0120 ≤ n ∧ n ≤ 0x013F then BitVec.ofNat 64 (r.tlanem.toNat / 2 ^ (32 * (n - 0x0120)) % 2 ^ 32)
  else if n = 0x0140 then t.ctl.trapbase
  else if n = 0x0200 then BitVec.ofNat 64 (s.core t.core).ageivl.toNat
  else if n = 0x0201 then BitVec.ofNat 64 ((if s.brken then 1 else 0) + (if s.attached then 2 else 0))
  else BitVec.ofNat 64 (match (s.core t.core).dbg with | .running => 0 | .haltedBusy => 1 | .haltedQuiet => 2)

/-- What each device register reads as (R301). -/
def deviceRegRule (s : State) (n : Nat) : W64 :=
  if n = 0x0300 then s.stallivl
  else if n = 0x0301 then s.pwrlim
  else if n = 0x0302 then s.io.prqbase
  else if n = 0x0303 then s.io.prqlog
  else if n = 0x0304 then s.io.prqhead
  else if n = 0x0305 then s.io.prabase
  else if n = 0x0306 then s.io.pralog
  else if n = 0x0307 then s.io.prawr
  else if n = 0x0308 then s.io.logbase
  else if n = 0x0309 then s.io.logsize
  else if n = 0x030A then s.io.loghead
  else if n = 0x030B then s.ptpcfg
  else s.fuses.reg (n - 0x0310)

/-- A control word of a leaf entry with W set and COW clear: bits 6 and 8 (R275). -/
def openCtl (x : Nat) : Nat := x % 2 ^ 6 + 2 ^ 6 + x / 2 ^ 7 % 2 * 2 ^ 7 + x / 2 ^ 9 * 2 ^ 9

/-- Two ranges of bytes, each its first byte and its length, share none. -/
def Apart (x y : Nat × Nat) : Prop := x.1 + x.2 ≤ y.1 ∨ y.1 + y.2 ≤ x.1

/-- The registers that `creg.cwr` writes (R301); a write of any other has no effect (R300). -/
def writtenRegs : List Nat :=
  [0x0005, 0x0140, 0x0200, 0x0201, 0x0300, 0x0301, 0x0302, 0x0303, 0x0304, 0x0305, 0x0306, 0x0307, 0x0308, 0x0309, 0x030A, 0x030B]

/-- The team goes on to the next word and beside its position nothing of it changes. -/
structure GoesOn (u t : Team) : Prop where
  pos  : (t.ctl.pc, t.ctl.word) = nextPos u
  regs : t.regs = u.regs
  ctl  : CtlKept u t
  flow : FlowKept u t
  self : SelfKept u t

end Sys2Proof.Claim

section
open Sys2Proof Sys2Proof.Machine Sys2Proof.Claim

/-- R300 to R304: `creg.crd` completes in every state in which it passes its checks. A register of the core is read at once, with the value of
the tables; in the agent slot TEAMID, TEAMW, CTXID and CTXENERGY have no value of the spec's and read as some value (log 10). A register
of the device is a load, which issues with its value; the group that holds it has waited for room in the LD counter. -/
def Obligations.CregReadsTheTable : Prop :=
  (∀ (s : State) (d : SReg) (n : BitVec 16), Passes s (.cregCrd d n) → n.toNat < 0x0300 →
    (s.me.isAgent = true ∧ n.toNat ∈ [0, 1, 6, 7] → ∃ t x, exec (.cregCrd d n) s = .next t ∧ t.me.s d = x ∧
      WritesOnly s { t with fresh := s.fresh } s.me [.s d.val]) ∧
    (¬(s.me.isAgent = true ∧ n.toNat ∈ [0, 1, 6, 7]) → ∃ t, exec (.cregCrd d n) s = .next t ∧
      t.me.s d = coreRegRule s n.toNat ∧ WritesOnly s t s.me [.s d.val])) ∧
  (∀ (s : State) (d : SReg) (n : BitVec 16), Passes s (.cregCrd d n) → 0x0300 ≤ n.toNat →
    ∃ t, exec (.cregCrd d n) s = .next t ∧ t = { s with me := t.me, nextId := s.nextId + 1 } ∧
      Issues s.me t.me s.nextId .ld true [.s d (deviceRegRule s n.toNat)] [d])

/-- R300, R301, R304, R83, R298: `creg.cwr` completes in every state in which it passes its checks: the register named takes the value of its
row, a zero written to SRSTATE becomes 1, AGEIVL is at least 256, PWRLIM lies in 1800 to 3000, DBGCTL with HALTREQ and RESUME both set changes
nothing, and a write of a register that is not writable has no effect. -/
def Obligations.CregWritesTheTable : Prop :=
  ∀ (s : State) (d : SReg) (n : BitVec 16), Passes s (.cregCwr d n) → ∃ t, exec (.cregCwr d n) s = .next t ∧
    (n = 0x0005 → OnlyMe s t ∧ t.me.ctl = { s.me.ctl with
      pc := (nextPos s.me).1, word := (nextPos s.me).2,
      srstate := if (s.me.s d).toNat % 2 ^ 32 = 0 then 1 else BitVec.ofNat 32 ((s.me.s d).toNat % 2 ^ 32) }) ∧
    (n = 0x0140 → OnlyMe s t ∧ t.me.ctl = { s.me.ctl with
      pc := (nextPos s.me).1, word := (nextPos s.me).2, trapbase := s.me.s d }) ∧
    (n ≠ 0x0005 → n ≠ 0x0140 → GoesOn s.me t.me) ∧
    (n = 0x0200 → (t.core s.me.core).ageivl.toNat = max 256 ((s.me.s d).toNat % 2 ^ 32)) ∧
    (n = 0x0201 → (s.me.s d).toNat / 4 % 4 = 3 → t.cores = s.cores) ∧
    (n = 0x0201 → (s.me.s d).toNat / 4 % 4 ≠ 3 → (t.core s.me.core).brken = ((s.me.s d).toNat % 2 == 1) ∧
      (t.core s.me.core).attach = ((s.me.s d).toNat / 2 % 2 == 1) ∧
      ((s.me.s d).toNat / 4 % 4 = 1 → (t.core s.me.core).dbg ≠ .running) ∧
      ((s.me.s d).toNat / 4 % 4 = 2 → (t.core s.me.core).dbg = .running)) ∧
    (n = 0x0300 → t.stallivl = s.me.s d) ∧
    (n = 0x0301 → t.pwrlim.toNat = max 1800 (min 3000 (s.me.s d).toNat)) ∧
    (n = 0x0302 → t.io.prqbase = s.me.s d) ∧ (n = 0x0303 → t.io.prqlog = s.me.s d) ∧ (n = 0x0304 → t.io.prqhead = s.me.s d) ∧
    (n = 0x0305 → t.io.prabase = s.me.s d) ∧ (n = 0x0306 → t.io.pralog = s.me.s d) ∧ (n = 0x0307 → t.io.prawr = s.me.s d) ∧
    (n = 0x0308 → t.io.logbase = s.me.s d) ∧ (n = 0x0309 → t.io.logsize = s.me.s d) ∧ (n = 0x030A → t.io.loghead = s.me.s d) ∧
    (n = 0x030B → t.ptpcfg.toNat = (s.me.s d).toNat % 2 ^ 11) ∧
    (n.toNat ∉ writtenRegs → WritesOnly s t s.me [])

/-- R299, R307, R318: a trap and the retry of its handler undo each other: after a trap that is not lane-wise, taken into its handler at the word
in issue, a `priv.tret retry` executed at once puts position, mask, stack, level, rounding state and registers back as they were; stated of teams
whose upcall no pre-emption has discarded (log 20). -/
def Obligations.TrapThenRetryRestores : Prop :=
  ∀ (s t : State) (f : FaultInfo), CanEnter s f.cls → f.cls ≠ 7 → f.cls < 256 → s.me.ctl.word < 3 → s.me.ctl.pc.toNat < 2 ^ 62 →
    s.me.flow.walkerr = false → s.me.orphan = false →
    Passes (s.trapHere f) .privTretRetry → exec .privTretRetry (s.trapHere f) = .next t →
    t.me.ctl.pc = s.me.ctl.pc ∧ t.me.ctl.word = s.me.ctl.word ∧ t.me.ctl.em = s.me.ctl.em ∧ t.me.ctl.stack = s.me.ctl.stack ∧
    t.me.ctl.level = s.me.ctl.level ∧ t.me.ctl.srstate = s.me.ctl.srstate ∧ t.me.regs = s.me.regs ∧ t.me.flow.ops = s.me.flow.ops ∧
    (∀ a, t.homeByte a = s.homeByte a)

/-- R299, R307: `priv.tret retry` and `priv.tret skip` complete at trap level once no register is pending, outside a walkerr handler: the
team is at user level with the mask and stack that the trap set aside and its registers as they are. Retry resumes at TPC, and the lanes of
TLANEM, if any, are all that the word there has left; skip resumes at the next word, or at the next packet after word 2 or a word that ends its
packet. For every class but dwb nothing else of the machine changes. For dwb skip drops the pinned data; retry writes the team's one pinned
sector back, byte for byte, where its page is writable now, and pins it again where it is not, with memory as it was. A producer whose upcall a
pre-emption has discarded goes to its pool (log 20).
R307, R23: `priv.tret kill` completes at trap level once no register is pending: the team has ended, its pinned data is dropped and its
sub-launch ends by abort; stated of teams of no handler pool. In a walkerr handler every action ends the team. -/
def Obligations.TretRestoresTheTeam : Prop :=
  ((∀ s : State, Passes s .privTretRetry → s.me.quiet = true → s.me.flow.walkerr = false → s.me.orphan = false →
     ∃ t, exec .privTretRetry s = .next t ∧
       t.me.ctl = { s.me.ctl with
         pc := s.me.ctl.trap.tpc >>> 2, word := s.me.ctl.trap.tpc.toNat % 4, level := .user,
         em := s.me.ctl.asideEm, stack := s.me.ctl.aside, asideEm := 0, aside := [] } ∧
       t.me.regs = s.me.regs ∧ SelfKept s.me t.me ∧ t.me.flow.ops = s.me.flow.ops ∧
       t.me.flow.park.map (·.replay) = (if s.me.ctl.trap.tlanem = 0 then none else some s.me.ctl.trap.tlanem) ∧
       (s.me.ctl.trap.tcause.toNat % 256 ≠ 7 → OnlyMe s t) ∧
       (∀ x, s.me.ctl.trap.tcause.toNat % 256 = 7 → s.pinnedOf s.me.id.tid = [x] → x.ctx ≠ noCtx → s.me.placed = true →
         s.me.ended = false →
         (∀ key loc s1, s.translate (x.core / 8) x.ctx x.gen .store x.va.toNat = (.ok key loc, s1) → key % 32 = 0 →
           s.poisoned key = false → Memory.wf s.mem = true →
           (∀ y ∈ t.dirty, y.tid = s.me.id.tid → y.pinned = false) ∧
           ∀ a, t.homeByte a = match x.bytes.reverse.find? fun y => decide (key + y.1 % 32 = a) with
             | some y => y.2
             | none => s.homeByte a) ∧
         (∀ r s1, s.translate (x.core / 8) x.ctx x.gen .store x.va.toNat = (r, s1) → (∀ key loc, r ≠ .ok key loc) →
           (∀ y ∈ s.dirty, y.core = x.core → y.key = x.key → y = x) →
           t.pinnedOf s.me.id.tid = [x] ∧ (∀ a, t.homeByte a = s.homeByte a) ∧
           ∃ p, t.me.flow.pinned = some p ∧ p.taken = false ∧ p.line = BitVec.ofNat 80 (x.va.toNat / 128 * 128)))) ∧
   (∀ s : State, Passes s .privTretSkip → s.me.quiet = true → s.me.flow.walkerr = false → s.me.orphan = false →
     ∃ t, exec .privTretSkip s = .next t ∧
       t.me.ctl = { s.me.ctl with
         pc := s.me.ctl.trap.after.1, word := s.me.ctl.trap.after.2, level := .user,
         em := s.me.ctl.asideEm, stack := s.me.ctl.aside, asideEm := 0, aside := [] } ∧
       t.me.regs = s.me.regs ∧ SelfKept s.me t.me ∧ t.me.flow.ops = s.me.flow.ops ∧ t.me.flow.park = none ∧
       (s.me.ctl.trap.tcause.toNat % 256 ≠ 7 → OnlyMe s t) ∧
       (s.me.ctl.trap.tcause.toNat % 256 = 7 → OnlyMe { s with dirty := s.dirty.filter fun d => !(d.tid == s.me.id.tid && d.pinned) } t)) ∧
   (∀ (s : State) (i : Instr), i = .privTretRetry ∨ i = .privTretSkip → Passes s i → s.me.quiet = true → s.me.flow.walkerr = false →
     s.me.orphan = true → s.me.ended = false → s.me.ctl.trap.tcause.toNat % 256 ≠ 7 →
     ∃ t, exec i s = .next t ∧ OthersKept s t ∧ t.me.ctl.level = .user ∧ t.me.flow.hold = .poolIdle ∧ t.me.regs = s.me.regs ∧
       SelfKept s.me t.me)) ∧
  (∀ s : State, Passes s .privTretKill → s.me.quiet = true → s.me.id.pool = none → s.me.flow.walkerr = false →
     ∃ t, exec .privTretKill s = .next t ∧ t.me.flow.ended = true ∧ (∀ d ∈ t.dirty, d.tid = s.me.id.tid → d.pinned = false) ∧
       (∀ b x, s.me.id.bundle = some b → t.bundle? b = some x → ∀ y, x.subs[s.me.id.sub]? = some y → y.aborted = true) ∧
       (∀ a, t.homeByte a = s.homeByte a)) ∧
  (∀ (s : State) (i : Instr), i = .privTretRetry ∨ i = .privTretSkip ∨ i = .privTretKill → Passes s i → s.me.flow.walkerr = true →
     ∃ t, exec i s = .next t ∧ t.me.flow.ended = true)

/-- R308 to R313, R281, R311: the other PRIV forms complete in every state in which they pass their checks. `pgcow` answers 3 (NOTCOW), with no
other change, where the trap is no copy-on-write fault, or its page has no level-0 entry with COW and SR set; 1 (KEPT) where the count is 1: W is
set and COW cleared in the entry, and no other byte of memory changes; 2 (NOFRAME), with no other change, where the count is not 1 and the free
frame list is empty; 0 (COPIED) otherwise: the first frame of the list takes the 4,096 bytes of the old one, its count becomes 1, the old count
falls by 1, the entry names the new frame and record with W set and COW cleared, and no other byte of memory changes; stated where no dirty sector
of the page waits and the places are apart. `pgref` answers the count of the page's frame record, or all-ones where no frame record serves the
page; `tlbinv` leaves no cached translation, no clean copy and no unpinned dirty sector of its range in its context; `eseal`, whose a(A) is a
physical device address (log 10), answers 0 for a range of device memory and stores after the bytes their signature and then the digest of both,
and traps outside device memory; `halt` goes to the next packet, and halts a core to which a debugger is attached. -/
def Obligations.PrivilegedWordsComplete : Prop :=
  ((∀ (s : State) (d : SReg), Passes s (.privPgcow d) →
      s.me.ctl.trap.tcause.toNat % 256 ≠ 5 ∨
        (∀ l, s.leafEntry s.me.id.ctx s.me.id.gen s.me.ctl.trap.taddr.toNat = some l → l.cow = false ∨ l.sr = false) →
      ∃ t, exec (.privPgcow d) s = .next t ∧ t = { s with me := t.me, nextId := s.nextId + 1 } ∧
        Issues s.me t.me s.nextId .sg true [.s d 3] [d]) ∧
   (∀ (s : State) (d : SReg) (l : Leaf) (c : Ctx), Passes s (.privPgcow d) → s.me.ctl.trap.tcause.toNat % 256 = 5 →
      s.leafEntry s.me.id.ctx s.me.id.gen s.me.ctl.trap.taddr.toNat = some l → l.cow = true → l.sr = true →
      s.ctx? s.me.id.ctx = some c → s.poison = [] → Memory.wf s.mem = true → l.entry + 64 ≤ 2 ^ 64 → l.frec + 32 ≤ 2 ^ 64 →
      (∀ x ∈ s.dirty, x.ctx = s.me.id.ctx → x.va.toNat / 4096 ≠ s.me.ctl.trap.taddr.toNat / 4096) →
      (s.homeNat l.frec 4 = 1 → ∃ t, exec (.privPgcow d) s = .next t ∧ Issues s.me t.me s.nextId .sg true [.s d 1] [d] ∧
        t.homeNat l.entry 8 = openCtl (s.homeNat l.entry 8) ∧ ∀ a, a < l.entry ∨ l.entry + 8 ≤ a → t.homeByte a = s.homeByte a) ∧
      (s.homeNat l.frec 4 ≠ 1 → c.ffl = 0 → ∃ t, exec (.privPgcow d) s = .next t ∧ t = { s with me := t.me, nextId := s.nextId + 1 } ∧
        Issues s.me t.me s.nextId .sg true [.s d 2] [d]) ∧
      (∀ src dst, s.homeNat l.frec 4 ≠ 1 → c.ffl ≠ 0 → s.homeNat (l.frec + 8) 8 = src → s.homeNat (c.ffl + 8) 8 = dst →
        c.ffl + 32 ≤ 2 ^ 64 → src + 4096 ≤ 2 ^ 64 → dst + 4096 ≤ 2 ^ 64 →
        [(l.entry, 64), (l.frec, 32), (c.ffl, 32), (dst, 4096), (src, 4096)].Pairwise Apart →
        ∃ t, exec (.privPgcow d) s = .next t ∧ Issues s.me t.me s.nextId .sg true [.s d 0] [d] ∧
          t.homeNat c.ffl 4 = 1 ∧ t.homeNat l.frec 4 = (s.homeNat l.frec 4 + (2 ^ 32 - 1)) % 2 ^ 32 ∧
          t.homeNat (l.entry + 8) 8 = dst ∧ t.homeNat (l.entry + 24) 8 = c.ffl % 2 ^ 64 ∧
          t.homeNat l.entry 8 = openCtl (s.homeNat l.entry 8) ∧
          (∀ k, k < 4096 → t.homeByte (dst + k) = s.homeByte (src + k)) ∧
          ∀ a, (∀ x ∈ [(l.entry, 16), (l.entry + 24, 8), (l.frec, 4), (c.ffl, 4), (dst, 4096)], a < x.1 ∨ x.1 + x.2 ≤ a) →
            t.homeByte a = s.homeByte a))) ∧
  (∀ (s : State) (d : SReg) (a : AReg), Passes s (.privPgref d a) →
    (s.srLeaf s.me.id.ctx s.me.id.gen (s.me.a a).toNat = none → ∃ t, exec (.privPgref d a) s = .next t ∧
      t = { s with me := t.me, nextId := s.nextId + 1 } ∧ Issues s.me t.me s.nextId .sg true [.s d (BitVec.allOnes 64)] [d]) ∧
    (∀ l, s.srLeaf s.me.id.ctx s.me.id.gen (s.me.a a).toNat = some l → s.poisoned l.frec = false → Memory.wf s.mem = true →
      ∃ t, exec (.privPgref d a) s = .next t ∧ (∀ k, t.homeByte k = s.homeByte k) ∧ t.dirty = s.dirty ∧
        Issues s.me t.me s.nextId .sg true [.s d (BitVec.ofNat 64 (s.homeNat l.frec 4))] [d])) ∧
  (∀ (s : State) (a : AReg) (b k : SReg), Passes s (.privTlbinv a b k) → ∃ t, exec (.privTlbinv a b k) s = .next t ∧ GoesOn s.me t.me ∧
    (∀ e ∈ t.tlb ++ t.dtlb, e.ctx = (s.me.s k).toNat →
      (e.page + 1) * pageBytes e.size ≤ (s.me.a a).toNat ∨ (s.me.a a).toNat + (s.me.s b).toNat ≤ e.page * pageBytes e.size) ∧
    (∀ c ∈ t.clean, c.ctx = (s.me.s k).toNat →
      c.va.toNat < (s.me.a a).toNat ∨ (s.me.a a).toNat + (s.me.s b).toNat ≤ c.va.toNat) ∧
    (∀ c ∈ t.dirty, c.ctx = (s.me.s k).toNat → c.pinned = false →
      c.va.toNat < (s.me.a a).toNat ∨ (s.me.a a).toNat + (s.me.s b).toNat ≤ c.va.toNat)) ∧
  (∀ (s : State) (d : SReg) (a : AReg) (b : SReg), Passes s (.privEseal d a b) →
    (s.deviceRange (s.me.a a).toNat ((s.me.s b).toNat + 2452) = true → ∃ t, exec (.privEseal d a b) s = .next t ∧
      (∃ o ∈ t.me.flow.ops, o.cls = .sg ∧ o.ready = true ∧ o.writes = [.s d 0] ∧ o.ps = [d] ∧ t.me.regs.pendS.getLsbD d.val = true ∧
        ∀ r, r ≠ d → t.me.s r = s.me.s r) ∧
      (s.poison = [] → Memory.wf s.mem = true → (∀ x ∈ s.dirty, x.core ≠ s.me.core) →
        ∃ rnd : BitVec 256, ∃ sig, sig = leBytes 2420 (Config.mldsaSign rnd (BitVec.ofNat 256
            (leNat (sha3 (s.homeBytes (s.me.a a).toNat (s.me.s b).toNat))))).toNat ∧
          t.homeBytes ((s.me.a a).toNat + (s.me.s b).toNat) 2420 = sig ∧
          t.homeBytes ((s.me.a a).toNat + (s.me.s b).toNat + 2420) 32 =
            sha3 (s.homeBytes (s.me.a a).toNat (s.me.s b).toNat ++ sig) ∧
          ∀ k, k < (s.me.a a).toNat + (s.me.s b).toNat ∨ (s.me.a a).toNat + (s.me.s b).toNat + 2452 ≤ k →
            t.homeByte k = s.homeByte k)) ∧
    (s.deviceRange (s.me.a a).toNat ((s.me.s b).toNat + 2452) = false →
      exec (.privEseal d a b) s = .next (s.trapHere ⟨4, 5, s.me.a a, false, 0⟩))) ∧
  (∀ s : State, Passes s .privHalt → ∃ t, exec .privHalt s = .next t ∧
    GoesTo s { t with cores := s.cores } s.me (s.me.ctl.pc + 1) [] ∧
    (s.attached = false → t.cores = s.cores) ∧ (s.attached = true → (t.core s.me.core).dbg ≠ .running))

/-- R312: `priv.preempt.save` and `priv.preempt.rsm` complete in every state in which they pass their checks, as SG operations:
an address that names no queue is answered 1, a queue in the wrong state 2; a save of a resident queue marks it as saving, with its answer to
come when the save completes; a resumption during a save waits for it; a resumption of a queue with no saved image makes it resident and is
answered 0. -/
def Obligations.PreemptWordsBeginTheirWork : Prop :=
  (∀ (s : State) (d : SReg) (a : AReg), Passes s (.privPreemptSave d a) →
    (s.queueOf (s.me.a a) = none → ∃ t, exec (.privPreemptSave d a) s = .next t ∧
      ∃ o ∈ t.me.flow.ops, o.id = s.nextId ∧ o.cls = .sg ∧ o.ready = true ∧ o.writes = [.s d 1]) ∧
    (∀ x, s.queueOf (s.me.a a) = some x → x.resident = false ∨ x.saving = true → ∃ t, exec (.privPreemptSave d a) s = .next t ∧
      ∃ o ∈ t.me.flow.ops, o.id = s.nextId ∧ o.cls = .sg ∧ o.ready = true ∧ o.writes = [.s d 2]) ∧
    (∀ x, s.queueOf (s.me.a a) = some x → s.queue? x.id = some x → x.resident = true → x.saving = false →
      ∃ t, exec (.privPreemptSave d a) s = .next t ∧
      (∃ o ∈ t.me.flow.ops, o.id = s.nextId ∧ o.cls = .sg ∧ o.ready = false ∧ o.ps = [d]) ∧
      ∃ y, t.queue? x.id = some y ∧ y.saving = true ∧ y.resident = true ∧ y.saveOps = [(s.me.id.tid, s.nextId, d)])) ∧
  (∀ (s : State) (d : SReg) (a : AReg), Passes s (.privPreemptRsm d a) →
    (s.queueOf (s.me.a a) = none → ∃ t, exec (.privPreemptRsm d a) s = .next t ∧
      ∃ o ∈ t.me.flow.ops, o.id = s.nextId ∧ o.cls = .sg ∧ o.ready = true ∧ o.writes = [.s d 1]) ∧
    (∀ x, s.queueOf (s.me.a a) = some x → x.saving = true → ∃ t, exec (.privPreemptRsm d a) s = .next t ∧
      ∃ y, t.queue? x.id = some y ∧ (s.me.id.tid, s.nextId, d) ∈ y.rsmOps) ∧
    (∀ x, s.queueOf (s.me.a a) = some x → x.saving = false → x.resident = true → ∃ t, exec (.privPreemptRsm d a) s = .next t ∧
      ∃ o ∈ t.me.flow.ops, o.id = s.nextId ∧ o.cls = .sg ∧ o.ready = true ∧ o.writes = [.s d 2]) ∧
    (∀ x, s.queueOf (s.me.a a) = some x → x.saving = false → x.resident = false → (∀ m ∈ s.images, m.queue ≠ x.id) →
      ∃ t, exec (.privPreemptRsm d a) s = .next t ∧
        (∃ o ∈ t.me.flow.ops, o.id = s.nextId ∧ o.cls = .sg ∧ o.ready = true ∧ o.writes = [.s d 0]) ∧
        ∃ y, t.queue? x.id = some y ∧ y.resident = true))

end

namespace Sys2Proof.Claim
open Sys2Proof Sys2Proof.Machine

/-! ### Memory words (spec/08 R146 to R152; spec/10 R176 to R183) -/

/-- One byte as a core holds it: its dirty byte, or else the byte at home. -/
def coreByte (s : State) (core key : Nat) : Byte :=
  match s.dirtyAt core key with
  | some d =>
    match d.bytes.reverse.find? (·.1 == key) with
    | some x => x.2
    | none => s.homeByte key
  | none => s.homeByte key

/-- The number that `n` bytes make as a core holds them, lowest address first (spec/00 R4). -/
def coreNat (s : State) (core key n : Nat) : Nat := leNat ((List.range n).map fun i => coreByte s core (key + i))

/-- An access of the team at a key does not meet the dirty bytes of another team, a copy under another tag in the cluster, a
clean copy that is older than memory, or poison. -/
structure Undisturbed (s : State) (key : Nat) (va : W80) : Prop where
  mine : ∀ d ∈ s.dirty, d.core = s.me.core → d.key = sectorOf key →
    d.tid = s.me.id.tid ∧ ∀ x ∈ d.bytes, sectorOf x.1 = sectorOf key
  tags : ∀ d ∈ s.dirty, d.core / 8 = s.me.core / 8 → d.key / 128 = key / 128 →
    d.pinned = true ∨ (d.ctx = s.me.id.ctx ∧ d.gen = s.me.id.gen ∧ d.va.toNat / 128 = va.toNat / 128)
  fresh : ∀ c ∈ s.clean, c.core = s.me.core → c.key = sectorOf key → c.bytes = s.homeBytes (sectorOf key) 32
  sound : s.poisoned key = false

/-- The scopes at which a word acquires and releases, as the location class of its access widens them (R145): host memory is ordered at system
scope, remote memory at domain scope at least. -/
def widened (loc : Nat) (o : Option Scope) : Option Scope :=
  o.map fun sc => if loc = 1 then .sys else if loc = 2 ∧ sc ≠ .sys then .dom else sc

def acqAt (i : Instr) (loc : Nat) : Option Scope := widened loc i.acqScope
def relAt (i : Instr) (loc : Nat) : Option Scope := widened loc i.relScope

/-- Something holds back the access of a word at its lanes: an access, a fence, a release or a sector before it in the order of its team
(R146, R151 to R153, R162), or a recorded range or a link (R168, R324). -/
def HeldBack (s : State) (u : Team) (i : Instr) (loc : Nat) (xs : List LaneAt) : Prop :=
  u.orderHeld i (acqAt i loc) (relAt i loc) s.nextId xs = true ∨ s.stalled u xs = true

/-- A team-uniform access of n bytes can be made now: the team is not parked and has no fence outstanding, the address is aligned, and
nothing holds the access back (R176). -/
structure CanAccess (s : State) (i : Instr) (va : W80) (n key loc : Nat) : Prop where
  unparked : s.me.flow.park = none
  unfenced : s.me.flow.fences = []
  aligned  : va.toNat % n = 0
  free     : ¬ HeldBack s s.me i loc [⟨0, va, key, loc⟩]

/-- What a releasing word has to write back: nothing is left dirty by the team, or its scope is team or core (R151), or it does not
release. -/
def NothingToRelease (s : State) (i : Instr) (loc : Nat) : Prop :=
  ∀ sc, relAt i loc = some sc → 2 ≤ sc.code → s.dirtyOf s.me.id.tid = []

/-- The new value that SATM stores, from its width in bits, x, the old value and s(D) (R181). -/
def satmRule : Instr → Option (Nat → Nat → Nat → Nat → Nat)
  | .satmAdd _ _ _ _ _ => some fun w x old _ => (old + x) % 2 ^ w
  | .satmSub _ _ _ _ _ => some fun w x old _ => (2 ^ w + old - x) % 2 ^ w
  | .satmAnd _ _ _ _ _ => some fun _ x old _ => old &&& x
  | .satmOr _ _ _ _ _ => some fun _ x old _ => old ||| x
  | .satmXor _ _ _ _ _ => some fun _ x old _ => old ^^^ x
  | .satmMin _ _ _ _ _ => some fun _ x old _ => min old x
  | .satmMax _ _ _ _ _ => some fun _ x old _ => max old x
  | .satmMinn _ _ _ _ _ => some fun w x old _ => if (old + 2 ^ (w - 1)) % 2 ^ w ≤ (x + 2 ^ (w - 1)) % 2 ^ w then old else x
  | .satmMaxn _ _ _ _ _ => some fun w x old _ => if (old + 2 ^ (w - 1)) % 2 ^ w ≤ (x + 2 ^ (w - 1)) % 2 ^ w then x else old
  | .satmXchg _ _ _ _ _ => some fun _ x _ _ => x
  | .satmCas _ _ _ _ _ => some fun _ x old e => if old = e then x else old
  | _ => none

/-- The operands of a SATM word. -/
def satmOperands : Instr → Option (SReg × AReg × SReg × Ordering3 × AtWidth)
  | .satmAdd d a b r w => some (d, a, b, r, w)
  | .satmSub d a b r w => some (d, a, b, r, w)
  | .satmAnd d a b r w => some (d, a, b, r, w)
  | .satmOr d a b r w => some (d, a, b, r, w)
  | .satmXor d a b r w => some (d, a, b, r, w)
  | .satmMin d a b r w => some (d, a, b, r, w)
  | .satmMax d a b r w => some (d, a, b, r, w)
  | .satmMinn d a b r w => some (d, a, b, r, w)
  | .satmMaxn d a b r w => some (d, a, b, r, w)
  | .satmXchg d a b r w => some (d, a, b, r, w)
  | .satmCas d a b r w => some (d, a, b, r, w)
  | _ => none

/-- The words that a lane's bytes load (R177): zero- or sign-extended to 32 bits, or one word for each four bytes. -/
def loadWords (z : LdSize) (x : Nat) : List W32 :=
  match z with
  | .u8 | .u16 | .w32 => [BitVec.ofNat 32 x]
  | .s8 => [BitVec.ofInt 32 (BitVec.ofNat 8 x).toInt]
  | .s16 => [BitVec.ofInt 32 (BitVec.ofNat 16 x).toInt]
  | .w64 => [BitVec.ofNat 32 x, BitVec.ofNat 32 (x / 2 ^ 32)]
  | .w128 => [BitVec.ofNat 32 x, BitVec.ofNat 32 (x / 2 ^ 32), BitVec.ofNat 32 (x / 2 ^ 64), BitVec.ofNat 32 (x / 2 ^ 96)]

/-- The new word of VATM from the lane's v(D), v(D+1) and the old word (R178). -/
def vatmRule : Instr → Option (W32 → W32 → W32 → W32)
  | .vatmAddI _ _ _ _ => some fun x _ old => BitVec.ofNat 32 (old.toNat + x.toNat)
  | .vatmAddF _ _ _ _ => some fun x _ old => sumF32 old x
  | .vatmMinI _ _ _ _ => some fun x _ old => BitVec.ofInt 32 (min old.toInt x.toInt)
  | .vatmMaxI _ _ _ _ => some fun x _ old => BitVec.ofInt 32 (max old.toInt x.toInt)
  | .vatmMaxF _ _ _ _ => some fun x _ old => BitVec.ofNat 32 (minmaxRule fmtF32 true old.toNat x.toNat)
  | .vatmAnd _ _ _ _ => some fun x _ old => old &&& x
  | .vatmOr _ _ _ _ => some fun x _ old => old ||| x
  | .vatmXor _ _ _ _ => some fun x _ old => old ^^^ x
  | .vatmXchg _ _ _ _ => some fun x _ _ => x
  | .vatmCas _ _ _ _ => some fun x y old => if old = x then y else old
  | _ => none

/-- The operands of a VATM word. -/
def vatmOperands : Instr → Option (VReg × AReg × VReg × Guard)
  | .vatmAddI d a o g => some (d, a, o, g)
  | .vatmAddF d a o g => some (d, a, o, g)
  | .vatmMinI d a o g => some (d, a, o, g)
  | .vatmMaxI d a o g => some (d, a, o, g)
  | .vatmMaxF d a o g => some (d, a, o, g)
  | .vatmAnd d a o g => some (d, a, o, g)
  | .vatmOr d a o g => some (d, a, o, g)
  | .vatmXor d a o g => some (d, a, o, g)
  | .vatmXchg d a o g => some (d, a, o, g)
  | .vatmCas d a o g => some (d, a, o, g)
  | _ => none

/-- The address of lane l (R177): a(A) plus the sign-extended offset, scaled. -/
def laneAddress (u : Team) (a : AReg) (o : VReg) (scale l : Nat) : W80 :=
  BitVec.ofInt 80 ((u.a a).toNat + (lane u o l).toInt * scale)

/-- The address and the size of the access of a team-uniform word: SLD, SST, SATM, SIG; and SGRP with a lane in its execute mask (R176,
R262). -/
def uniformAddr (u : Team) : Instr → Option (W80 × Nat)
  | .sld _ a _ z i => some (u.scalarAddr a i z.bytes, z.bytes)
  | .sst _ a _ z i => some (u.scalarAddr a i z.bytes, z.bytes)
  | .sigSigadd _ a _ _ => some (u.a a, 8)
  | .sigSigrd _ a _ => some (u.a a, 8)
  | .sigSigwait _ a _ _ => some (u.a a, 8)
  | .sigWatch _ a _ _ => some (u.a a, 8)
  | .sgrpFork _ a _ => if u.em = 0 then none else some (u.a a, 512)
  | .sgrpArr _ a _ _ => if u.em = 0 then none else some (u.a a, 128)
  | .sgrpCan _ a _ => if u.em = 0 then none else some (u.a a, 128)
  | .sgrpWait _ a _ => if u.em = 0 then none else some (u.a a, 512)
  | .sgrpFree _ a _ => if u.em = 0 then none else some (u.a a, 128)
  | .sgrpInfo _ a _ => if u.em = 0 then none else some (u.a a, 512)
  | i => (satmOperands i).map fun (_, a, _, _, w) => (u.a a, w.bytes)

/-- The class, the access and the destination of a word of SLD, SST, SATM and SIG (R160, R176). -/
def uniformKind : Instr → Option (OpClass × Access × List SReg)
  | .sld d _ _ _ _ => some (.ld, .load, [d])
  | .sst _ _ _ _ _ => some (.st, .store, [])
  | .sigSigadd d _ _ _ => some (.sg, .atomic, [d])
  | .sigSigrd d _ _ => some (.sg, .atomic, [d])
  | .sigSigwait d _ _ _ => some (.sg, .atomic, [d])
  | .sigWatch d _ _ _ => some (.sg, .atomic, [d])
  | i => (satmOperands i).map fun (d, _, _, _, _) => (.at_, .atomic, [d])

/-- The lanes of a mask, in ascending order (R7). -/
def lanesIn (u : Team) (m : Mask) : List Nat := (List.range u.width).filter m.getLsbD

/-- What the lanes of a vector access come to, in ascending order (R317): those that translate, those that the host must serve with the
entries they join, those that fault. -/
structure Fates where
  oks    : List LaneAt
  waits  : List (Nat × W80 × Option Nat)
  faults : List (Nat × FaultInfo)
  s      : State

def laneFates (k : Access) (n : Nat) (ea : Nat → W80) (s : State) : List Nat → Fates
  | [] => ⟨[], [], [], s⟩
  | l :: ls =>
    match s.teamReach s.me k (ea l) n with
    | (.ok key loc, s1) => let f := laneFates k n ea s1 ls; { f with oks := ⟨l, ea l, key, loc⟩ :: f.oks }
    | (.host c, s1) =>
      let (uid, s2) := s1.merge (dieOf s.me.cluster) s.me.id.ctx s.me.id.gen ((ea l).toNat / 2 ^ 12) k c false
      let f := laneFates k n ea s2 ls
      { f with waits := (l, ea l, uid) :: f.waits }
    | (.fault c d, s1) => let f := laneFates k n ea s1 ls; { f with faults := (l, ⟨c, d, ea l, false, 0⟩) :: f.faults }

/-- A vector word as VLD, VST and VATM have it: its access, bytes a lane, address registers, guard, scale, and the registers it loads. -/
structure VecAcc where
  k  : Access
  n  : Nat
  a  : AReg
  o  : VReg
  g  : Guard
  sc : Nat
  ds : List VReg

def vecAcc : Instr → Option VecAcc
  | .vld d a o g sc z => some ⟨.load, z.bytes, a, o, g, if sc then z.bytes else 1, regsFrom d z.regs⟩
  | .vst _ a o g sc z => some ⟨.store, z.bytes, a, o, g, if sc then z.bytes else 1, []⟩
  | i => (vatmOperands i).map fun (d, a, o, g) => ⟨.atomic, 4, a, o, g, 1, [d]⟩

/-- The fates of the lanes of a vector word that is met for the first time, each lane's address aligned and some lane in its mask. -/
structure Tries (s : State) (u : Team) (v : VecAcc) (f : Fates) : Prop where
  unparked : u.flow.park = none
  unfenced : u.flow.fences = []
  some_    : lanesIn u (u.eff v.g) ≠ []
  aligned  : ∀ l ∈ lanesIn u (u.eff v.g), (laneAddress u v.a v.o v.sc l).toNat % v.n = 0
  fates    : f = laneFates v.k v.n (laneAddress u v.a v.o v.sc) { s with me := u } (lanesIn u (u.eff v.g))

/-- A vector access that is made at once in every lane of its mask. -/
structure AllLanes (s : State) (u : Team) (i : Instr) (v : VecAcc) (f : Fates) : Prop where
  word  : vecAcc i = some v
  tries : Tries s u v f
  waits : f.waits = []
  faults : f.faults = []
  free  : ¬ HeldBack f.s u i 0 f.oks

/-- The old words that atomics in order find, and the words that they leave, from the words by key (R146, R178). -/
def atomicsInOrder (g : Nat → W32 → W32) : List LaneAt → (Nat → W32) → List W32 × (Nat → W32)
  | [], w => ([], w)
  | x :: xs, w =>
    let (olds, w1) := atomicsInOrder g xs fun k => if k = x.key then g x.lane (w k) else w k
    (w x.key :: olds, w1)

/-- Byte k of what lane x of VST stores: of its consecutive words, lowest first (R177). -/
def storedByte (u : Team) (d : VReg) (x : LaneAt) (k : Nat) : Byte :=
  BitVec.ofNat 8 ((lane u (Fin.ofNat 64 (d.val + (k - x.key) / 4)) x.lane).toNat / 256 ^ ((k - x.key) % 4))

/-- The lane that stores a byte last: the highest (R146). -/
def lastLane (n : Nat) (xs : List LaneAt) (k : Nat) : Option LaneAt :=
  xs.reverse.find? fun x => decide (x.key ≤ k ∧ k < x.key + n)

end Sys2Proof.Claim

section
open Sys2Proof Sys2Proof.Machine Sys2Proof.Claim

/-- R180, R146: SLD completes wherever its access can be made and translates: an LD operation is outstanding whose result for s(D) is the
zero-extended number at the address, as the team's core holds it; no byte of memory changes. -/
def Obligations.ScalarLoadIssuesItsValue : Prop :=
  ∀ (s s1 : State) (d : SReg) (a : AReg) (r : Ordering3) (z : SSize) (i : BitVec 9) (key loc : Nat),
    Passes s (.sld d a r z i) → CanAccess s (.sld d a r z i) (s.me.scalarAddr a i z.bytes) z.bytes key loc →
    s.teamReach s.me .load (s.me.scalarAddr a i z.bytes) z.bytes = (.ok key loc, s1) → key % z.bytes = 0 →
    (loc = 3 → s.dirtyAt s.me.core key = none) → Undisturbed s key (s.me.scalarAddr a i z.bytes) →
    ∃ t, exec (.sld d a r z i) s = .next t ∧
      Issues s.me t.me s.nextId .ld true [.s d (BitVec.ofNat 64 (coreNat s s.me.core key z.bytes))] [d] ∧
      t.mem = s.mem ∧ t.dirty = s.dirty ∧ t.teams = s.teams

/-- R180, R148, R145: SST completes wherever its access can be made and translates, with nothing left to release before an ordered form: an ST
operation is outstanding; the bytes from the address on, as the core holds them, are those of s(D), and every other byte of the core and of
memory is as before. Ordered at cluster scope or wider, its scope widened by the location, it stores at the point of visibility. -/
def Obligations.ScalarStoreStoresItsBytes : Prop :=
  ∀ (s s1 : State) (d : SReg) (a : AReg) (r : Ordering3) (z : SSize) (i : BitVec 9) (key loc : Nat) (far : Bool),
    Passes s (.sst d a r z i) → CanAccess s (.sst d a r z i) (s.me.scalarAddr a i z.bytes) z.bytes key loc →
    NothingToRelease s (.sst d a r z i) loc →
    s.teamReach s.me .store (s.me.scalarAddr a i z.bytes) z.bytes = (.ok key loc, s1) → key % z.bytes = 0 →
    (s.linkDown key).isNone = true → Undisturbed s key (s.me.scalarAddr a i z.bytes) → Memory.wf s.mem = true →
    far = (atHome (relAt (.sst d a r z i) loc) || loc != 0) →
    (far = true → s.dirtyAt s.me.core key = none) →
    ∃ t, exec (.sst d a r z i) s = .next t ∧ Issues s.me t.me s.nextId .st true [] [] ∧
      (∀ k, coreByte t s.me.core k =
        if key ≤ k ∧ k < key + z.bytes then BitVec.ofNat 8 ((s.me.s d).toNat / 256 ^ (k - key)) else coreByte s s.me.core k) ∧
      (∀ k, k < key ∨ key + z.bytes ≤ k → t.homeByte k = s.homeByte k) ∧
      (far = false → t.mem = s.mem) ∧
      (far = true → t.dirty = s.dirty ∧ ∀ k, key ≤ k → k < key + z.bytes →
        t.homeByte k = BitVec.ofNat 8 ((s.me.s d).toNat / 256 ^ (k - key)))

/-- R146, R180: a team reads its own store: the value that SLD is to write after an SST of the same size at the same address is
s(D) modulo the size, whatever caches hold. -/
def Obligations.StoreThenLoadReadsTheStore : Prop :=
  ∀ (s s1 t t1 u : State) (d e : SReg) (a : AReg) (z : SSize) (i : BitVec 9) (key : Nat),
    Passes s (.sst d a .plain z i) → CanAccess s (.sst d a .plain z i) (s.me.scalarAddr a i z.bytes) z.bytes key 0 →
    s.teamReach s.me .store (s.me.scalarAddr a i z.bytes) z.bytes = (.ok key 0, s1) → key % z.bytes = 0 →
    key % 32 = (s.me.scalarAddr a i z.bytes).toNat % 32 →
    Undisturbed s key (s.me.scalarAddr a i z.bytes) → exec (.sst d a .plain z i) s = .next t →
    Passes t (.sld e a .plain z i) → CanAccess t (.sld e a .plain z i) (t.me.scalarAddr a i z.bytes) z.bytes key 0 →
    t.teamReach t.me .load (t.me.scalarAddr a i z.bytes) z.bytes = (.ok key 0, t1) →
    exec (.sld e a .plain z i) t = .next u →
    ∃ o ∈ u.me.flow.ops, o.id = t.nextId ∧ o.cls = .ld ∧ o.ready = true ∧
      o.writes = [.s e (BitVec.ofNat 64 ((s.me.s d).toNat % 2 ^ (8 * z.bytes)))]

/-- R181, R150: each SATM word completes wherever its access can be made and translates, with nothing left to release before an ordered form and
no dirty bytes of its core in the sector: the bytes at the address take the new value of the rule, every other byte stays, and an AT operation is
outstanding whose result for s(D) is the old value. -/
def Obligations.ScalarAtomicsStoreTheRule : Prop :=
  ∀ (s s1 : State) (i : Instr) (d : SReg) (a : AReg) (b : SReg) (r : Ordering3) (w : AtWidth) (f : Nat → Nat → Nat → Nat → Nat)
    (key loc : Nat), satmOperands i = some (d, a, b, r, w) → satmRule i = some f →
    Passes s i → CanAccess s i (s.me.a a) w.bytes key loc → NothingToRelease s i loc →
    s.teamReach s.me .atomic (s.me.a a) w.bytes = (.ok key loc, s1) → s.poisoned key = false →
    s.dirtyAt s.me.core key = none → Memory.wf s.mem = true →
    ∃ t, exec i s = .next t ∧
      Issues s.me t.me s.nextId .at_ true [.s d (BitVec.ofNat 64 (s.homeNat key w.bytes))] [d] ∧
      t.homeNat key w.bytes = f (8 * w.bytes) ((s.me.s b).toNat % 2 ^ (8 * w.bytes)) (s.homeNat key w.bytes)
        ((s.me.s d).toNat % 2 ^ (8 * w.bytes)) ∧
      (∀ k, k < key ∨ key + w.bytes ≤ k → t.homeByte k = s.homeByte k) ∧ t.dirty = s.dirty ∧ t.teams = s.teams

/-- R176, R146, R151, R168: a team-uniform access (SLD, SST, SATM, SIG, SGRP) that is misaligned takes the alignment trap with its size and
address, before anything is accessed; one that faults takes its trap; one that the host must serve parks the team at its word. One that an earlier
access or acquire of the team, a recorded range or a link holds back (SLD, SST, SATM, SIG) issues all the same: its operation is outstanding, not
performed, with the registers as the word read them, the team goes on, and no byte of memory or of a cache changes; its completion event does
nothing while it is held; a held SLD then reads its value when it is performed.
R102, R176, R177: a vector access with an empty effective mask accesses nothing and changes nothing; VLD, VST, VATM, TSL and TSS.
R176, R317: a vector access (VLD, VST, VATM) with a misaligned lane takes the alignment trap of the lowest such lane. With a lane that the host must
serve, the team parks at its word with those lanes, and the faults of others wait. With faulting lanes only, the trap of the lowest is taken,
TLANEM naming all of them, after the other lanes have been performed: those of VLD have their values. -/
def Obligations.HeldOrEmptyAccessesDoNothing : Prop :=
  ((∀ (s : State) (i : Instr) (va : W80) (n : Nat), uniformAddr s.me i = some (va, n) → Passes s i → s.me.flow.park = none →
      va.toNat % n ≠ 0 → exec i s = .next (s.trapHere ⟨6, n, va, false, 0⟩)) ∧
   (∀ (s s1 : State) (i : Instr) (va : W80) (n : Nat) (cls : OpClass) (k : Access) (ps : List SReg),
      uniformAddr s.me i = some (va, n) → uniformKind i = some (cls, k, ps) → Passes s i → s.me.flow.park = none → va.toNat % n = 0 →
      (∀ c e, s.teamReach s.me k va n = (.fault c e, s1) → exec i s = .next (s1.trapHere ⟨c, e, va, false, 0⟩)) ∧
      (∀ c, s.teamReach s.me k va n = (.host c, s1) → ∃ t, exec i s = .next t ∧ t.me.regs = s.me.regs ∧ t.me.ctl = s.me.ctl ∧
        t.me.flow.ops = s.me.flow.ops ∧ t.dirty = s.dirty ∧
        ∃ p, t.me.flow.park = some p ∧ p.uniform = true ∧ p.waits.map (fun x => (x.1, x.2.1)) = [(0, va)] ∧ p.faults = []) ∧
      (∀ key loc, s.teamReach s.me k va n = (.ok key loc, s1) → s.me.flow.fences = [] → NothingToRelease s i loc →
        HeldBack s s.me i loc [⟨0, va, key, loc⟩] →
        ∃ t dests, exec i s = .next t ∧
          t.me.flow.ops = s.me.flow.ops ++ [⟨s.nextId, cls, false, false, [], [], ps, dests, acqAt i loc, relAt i loc,
            some ⟨i, s.me.regs, [⟨0, va, key, loc⟩]⟩⟩] ∧
          t.mem = s.mem ∧ t.dirty = s.dirty ∧ t.clean = s.clean ∧ t.waits = s.waits ∧ t.me.regs.s = s.me.regs.s ∧
          (t.me.ctl.pc, t.me.ctl.word) = nextPos s.me ∧ CtlKept s.me t.me ∧ SelfKept s.me t.me)) ∧
   (∀ (s : State) (op : Nat) (o : Op) (h : HeldAcc) (e : Instr), s.me.flow.ops.find? (·.id == op) = some o → o.held = some h →
      o.ready = false → s.me.flow.fences = [] → s.me.orderHeld h.instr o.acq o.rel op h.lanes = true ∨ s.stalled s.me h.lanes = true →
      e = .loadComplete s.me.id.tid op ∨ e = .storePerformed s.me.id.tid op ∨ e = .atomicPerformed s.me.id.tid op ∨
        e = .sgOperationPerformed s.me.id.tid op → exec e s = .next s) ∧
   (∀ (s : State) (op : Nat) (o : Op) (q : Regs) (d : SReg) (a : AReg) (r : Ordering3) (z : SSize) (i : BitVec 9) (x : LaneAt),
      s.me.flow.ops.find? (·.id == op) = some o → o.held = some ⟨.sld d a r z i, q, [x]⟩ → o.ready = false → o.done = false → o.cls = .ld →
      o.writes = [] → s.me.placed = true → s.me.flow.fences = [] →
      s.me.orderHeld (.sld d a r z i) o.acq o.rel op [x] = false → s.stalled s.me [x] = false → x.key % z.bytes = 0 →
      (x.loc = 3 → s.dirtyAt s.me.core x.key = none) → Undisturbed s x.key x.va →
      ∃ t, exec (.loadComplete s.me.id.tid op) s = .next t ∧ t.me.s d = BitVec.ofNat 64 (coreNat s s.me.core x.key z.bytes))) ∧
  (∀ (s : State) (i : Instr) (g : Guard), i.guard? = some g → s.me.em &&& s.me.guardMask g = 0 → s.me.flow.park = none →
     (∃ d a o sc z, i = .vld d a o g sc z) ∨ (∃ d a o sc z, i = .vst d a o g sc z) ∨ (vatmOperands i).isSome = true ∨
       (∃ d t r j, i = .tsl d t r j g) ∨ (∃ d t r j, i = .tss d t r j g) →
     Passes s i → ∃ t, exec i s = .next t ∧ WritesOnly s t s.me []) ∧
  ((∀ (s : State) (i : Instr) (v : VecAcc) (u : Team) (l : Nat), vecAcc i = some v → Passes s i → u = ready s i → u.flow.park = none →
      (lanesIn u (u.eff v.g)).find? (fun l => decide ((laneAddress u v.a v.o v.sc l).toNat % v.n ≠ 0)) = some l →
      exec i s = .next (State.trapHere { s with me := u } ⟨6, v.n, laneAddress u v.a v.o v.sc l, false, 0⟩)) ∧
   (∀ (s : State) (i : Instr) (v : VecAcc) (u : Team) (f : Fates), vecAcc i = some v → Passes s i → u = ready s i → Tries s u v f →
      (f.waits ≠ [] → ∃ t, exec i s = .next t ∧ t.me.regs = u.regs ∧ t.me.ctl = u.ctl ∧ t.me.flow.ops = u.flow.ops ∧
        ∃ p, t.me.flow.park = some p ∧ p.waits = f.waits ∧ p.faults = f.faults ∧ p.replay = 0 ∧ p.uniform = false) ∧
      (f.waits = [] → f.faults ≠ [] → ∃ (t : State) (l : Nat) (x : FaultInfo) (m : Mask), exec i s = .next (t.trapLanes x m) ∧
        (l, x) ∈ f.faults ∧ (∀ y ∈ f.faults, l ≤ y.1) ∧ (∀ k, k < 1024 → m.getLsbD k = f.faults.any (·.1 == k)) ∧ t.me.ctl = u.ctl ∧
        (¬ HeldBack f.s u i 0 f.oks → t.me.flow.ops = u.flow.ops) ∧
        (∀ d a o g sc z, i = .vld d a o g sc z → ¬ HeldBack f.s u i 0 f.oks →
          (∀ x ∈ f.oks, x.key % z.bytes = 0 ∧ (x.loc = 3 → s.dirtyAt u.core x.key = none) ∧ Undisturbed { s with me := u } x.key x.va) →
          ∀ x ∈ f.oks, ∀ (j : Nat) (w : W32), (loadWords z (coreNat s u.core x.key z.bytes))[j]? = some w → HasLane u x.lane →
            lane t.me (Fin.ofNat 64 (d.val + j)) x.lane = w))))

/-- R177, R146, R149: VLD completes wherever its access can be made in every lane of its mask: an LD operation is outstanding that is to write,
lane by lane, the loaded words, extended as its size says, into the lane's consecutive registers, which are pending with tag 0; the registers'
bits stay until then, and no byte of memory changes. -/
def Obligations.VectorLoadIssuesItsLanes : Prop :=
  ∀ (s : State) (d : VReg) (a : AReg) (o : VReg) (g : Guard) (sc : Bool) (z : LdSize) (u : Team) (v : VecAcc) (f : Fates),
    Passes s (.vld d a o g sc z) → u = ready s (.vld d a o g sc z) → AllLanes s u (.vld d a o g sc z) v f →
    (∀ x ∈ f.oks, x.key % z.bytes = 0 ∧ (x.loc = 3 → s.dirtyAt u.core x.key = none) ∧ Undisturbed { s with me := u } x.key x.va) →
    ∃ t, exec (.vld d a o g sc z) s = .next t ∧
      (∃ p ∈ t.me.flow.ops, p.id = s.nextId ∧ p.cls = .ld ∧ p.ready = true ∧ p.done = false ∧ p.pv = regsFrom d z.regs ∧ p.ps = [] ∧
        p.writes = f.oks.flatMap fun x =>
          (loadWords z (coreNat s u.core x.key z.bytes)).zipIdx.map fun (w, j) => .v (Fin.ofNat 64 (d.val + j)) x.lane w) ∧
      (∀ r ∈ regsFrom d z.regs, t.me.regs.pendV.getLsbD r.val = true ∧ t.me.tag r = 0) ∧
      t.me.regs.v = u.regs.v ∧ t.me.regs.s = u.regs.s ∧ t.me.regs.p = u.regs.p ∧
      (t.me.ctl.pc, t.me.ctl.word) = nextPos u ∧ CtlKept u t.me ∧ SelfKept u t.me ∧ t.mem = s.mem ∧ t.dirty = s.dirty

/-- R177, R146, R148: VST completes wherever its access can be made in every lane of its mask. Each byte that a lane covers is that of the lane's
consecutive words, lowest first, and where several lanes cover it that of the highest; every other byte is as before; no register changes. In
device memory the core holds the bytes and memory stays; elsewhere they are stored at home. -/
def Obligations.VectorStoreStoresItsLanes : Prop :=
  ∀ (s : State) (d : VReg) (a : AReg) (o : VReg) (g : Guard) (sc : Bool) (z : StSize) (u : Team) (v : VecAcc) (f : Fates),
    Passes s (.vst d a o g sc z) → u = ready s (.vst d a o g sc z) → AllLanes s u (.vst d a o g sc z) v f →
    (∀ x ∈ f.oks, x.key % z.bytes = 0 ∧ x.key % 32 = x.va.toNat % 32 ∧ Undisturbed { s with me := u } x.key x.va) →
    (∀ x ∈ f.oks, ∀ y ∈ f.oks, x.key / 128 = y.key / 128 → x.va.toNat / 128 = y.va.toNat / 128) → Memory.wf s.mem = true →
    ∃ t, exec (.vst d a o g sc z) s = .next t ∧
      (∃ p ∈ t.me.flow.ops, p.id = s.nextId ∧ p.cls = .st ∧ p.ready = true ∧ p.done = false ∧ p.writes = []) ∧
      ((∀ x ∈ f.oks, x.loc = 0) → t.mem = s.mem ∧ ∀ k, coreByte t u.core k =
        match lastLane z.bytes f.oks k with | some x => storedByte u d x k | none => coreByte s u.core k) ∧
      ((∀ x ∈ f.oks, x.loc ≠ 0) → t.dirty = s.dirty ∧ ∀ k, t.homeByte k =
        match lastLane z.bytes f.oks k with | some x => storedByte u d x k | none => s.homeByte k) ∧
      RegsKept u t.me [] ∧ (t.me.ctl.pc, t.me.ctl.word) = nextPos u ∧ CtlKept u t.me ∧ SelfKept u t.me

/-- R178, R150, R146: each VATM word completes wherever its access can be made in every lane of its mask, with no dirty bytes of its core in the
sectors: one 32-bit atomic for each lane, in ascending lane order, each on the word that the lanes below it have left; every other byte of memory
stays, and an AT operation is outstanding that is to write the old words into the lanes of v(D), which is pending with tag 0. -/
def Obligations.VectorAtomicsStoreTheRule : Prop :=
  ∀ (s : State) (i : Instr) (d : VReg) (a : AReg) (o : VReg) (g : Guard) (h : W32 → W32 → W32 → W32) (u : Team) (v : VecAcc) (f : Fates)
    (olds : List W32) (w : Nat → W32), vatmOperands i = some (d, a, o, g) → vatmRule i = some h →
    Passes s i → u = ready s i → AllLanes s u i v f →
    (∀ x ∈ f.oks, x.key % 4 = 0 ∧ s.poisoned x.key = false ∧ s.dirtyAt u.core x.key = none) → Memory.wf s.mem = true →
    atomicsInOrder (fun l old => h (lane u d l) (lane u (Fin.ofNat 64 (d.val + 1)) l) old) f.oks
      (fun k => BitVec.ofNat 32 (s.homeNat k 4)) = (olds, w) →
    ∃ t, exec i s = .next t ∧
      (∃ p ∈ t.me.flow.ops, p.id = s.nextId ∧ p.cls = .at_ ∧ p.ready = true ∧ p.pv = [d] ∧
        p.writes = (f.oks.zip olds).map fun (x, old) => .v d x.lane old) ∧
      (∀ x ∈ f.oks, t.homeNat x.key 4 = (w x.key).toNat) ∧
      (∀ k, (∀ x ∈ f.oks, k < x.key ∨ x.key + 4 ≤ k) → t.homeByte k = s.homeByte k) ∧ t.dirty = s.dirty ∧
      t.me.tag d = 0 ∧ t.me.regs.pendV.getLsbD d.val = true ∧ t.me.regs.v = u.regs.v ∧ t.me.regs.s = u.regs.s ∧
      (t.me.ctl.pc, t.me.ctl.word) = nextPos u ∧ CtlKept u t.me ∧ SelfKept u t.me

/-- R151, R152, R153, R162, R182: the fences complete in every state in which they pass their checks, with no earlier fence of the team
outstanding and no fault met by their release. After a release at cluster scope or wider no dirty sector of the team is left in its L1 but pinned
ones, and a release that writes sectors back is an ST operation (log 29); a release that meets a fault takes the trap of class dwb. An acquire
whose earlier loads are performed leaves the core no clean copy that its scope covers; one that waits, and a release that waits for the engine
classes it names or for earlier accesses, is over only when they are done, and until then holds later accesses of the team: an acquire all of
them, a release those that write.
R183: WAIT changes nothing when it issues; while its class counter is above its operand, a team whose fetched group holds it is not eligible. -/
def Obligations.FencesAndWaitsOrderTheTeam : Prop :=
  ((∀ (s : State) (o : Scope), Passes s (.fenceAcq o) → s.me.flow.fences = [] →
      (s.me.placed = true → (∀ x ∈ s.me.flow.ops, x.ready = true) → ∃ t, exec (.fenceAcq o) s = .next t ∧
        WritesOnly s { t with clean := s.clean, edits := s.edits } s.me [] ∧
        t.clean = s.clean.filter fun c => !(c.core == s.me.core && acquires o c.key)) ∧
      (∀ x ∈ s.me.flow.ops, x.id < s.nextId → x.ready = false → x.cls = .ld ∨ x.cls = .at_ ∨ x.cls = .sg →
        ∃ t, exec (.fenceAcq o) s = .next t ∧ t.clean = s.clean ∧ t.me.flow.fences = [⟨[], o, s.nextId, false, true⟩] ∧
          t.me.regs = s.me.regs ∧ CtlKept s.me t.me ∧ (t.me.ctl.pc, t.me.ctl.word) = nextPos s.me)) ∧
   (∀ (s s1 : State) (o : Scope) (k : BitVec 5) (i : Instr), i = .fenceRel o k ∨ i = .fenceAr o k ∨ i = .fenceSc o k → Passes s i →
      s.me.flow.fences = [] →
      (s.release s.me.id.tid o = (s1, true) → ∃ t, exec i s = .next t ∧
        (2 ≤ o.code → ∀ d ∈ t.dirty, d.tid = s.me.id.tid → d.pinned = true) ∧
        (2 ≤ o.code → s.dirtyOf s.me.id.tid ≠ [] → ∃ x ∈ t.me.flow.ops, x.id = s1.nextId ∧ x.cls = .st ∧ x.ready = true) ∧
        (∀ x ∈ s.me.flow.ops, x.id < s.nextId → k.getLsbD x.cls.code = true → x.dests.any (scopeCounts o) = true →
          ∃ f ∈ t.me.flow.fences, f.rel = true ∧ f.scope = o ∧ f.before = s.nextId ∧ ∀ c : OpClass, c ∈ f.classes ↔ k.getLsbD c.code = true) ∧
        (i ≠ .fenceRel o k → s.me.placed = true → (∀ x ∈ s.me.flow.ops, x.ready = true) → ∀ c ∈ t.clean, c.core = s.me.core → acquires o c.key = false) ∧
        t.me.regs = s.me.regs ∧ CtlKept s.me t.me ∧ (t.me.ctl.pc, t.me.ctl.word) = nextPos s.me) ∧
      (∀ p, s.release s.me.id.tid o = (s1, false) → s1.me.flow.pinned = some p →
        exec i s = .next (s1.trapHere ⟨7, 0, p.line, false, s1.pinMask s.me.id.tid p.line⟩)))) ∧
  ((∀ (u : Team) (f : FenceHold), u.flow.fences = [f] →
      ((∃ x ∈ u.flow.ops, x.id < f.before ∧
        (f.rel = true ∧ (x.cls ∈ f.classes ∧ x.dests.any (scopeCounts f.scope) = true ∨
            2 ≤ f.scope.code ∧ x.ready = false ∧ x.cls ≠ .cp ∨
            f.scope = .core ∧ x.ready = false ∧ (x.cls = .st ∨ x.cls = .at_)) ∨
          f.acq = true ∧ x.ready = false ∧ (x.cls = .ld ∨ x.cls = .at_ ∨ x.cls = .sg))) → f.over u.flow.ops = false) ∧
      (f.over u.flow.ops = false → ∀ (i : Instr) (acq rel : Option Scope) (id : Nat) (xs : List LaneAt), f.before ≤ id →
        (f.acq = true ∨ f.rel = true ∧ (i.opClass = some .st ∨ i.opClass = some .at_) → u.orderHeld i acq rel id xs = true))) ∧
   (∀ (s : State) (k : OpClass) (n : Fin 64), Passes s (.wait k n) → ∃ t, exec (.wait k n) s = .next t ∧ WritesOnly s t s.me []) ∧
   (∀ (s : State) (u : Team) (k : OpClass) (n : Fin 64), u.flow.fetched = true → .wait k n ∈ u.groupInstrs → n.val < u.outstanding k →
      u.resumes = false → s.eligible u = false))

end

namespace Sys2Proof.Claim
open Sys2Proof Sys2Proof.Machine

/-! ### Transforms and the transform pipe (spec/05 R94 to R96; spec/07 R129 to R140) -/

/-- A team as spec/12 R200 and spec/07 R129 have it: one of the six widths, one word for each lane in every v register, and tags that its
blocks allow. -/
def Sized (u : Team) : Prop :=
  u.id.m ∈ [1, 2, 4, 8, 16, 32] ∧ (∀ r, (u.v r).length = u.width) ∧ ∀ r, 2 ^ (u.tag r).toNat ≤ min u.width 128

/-- RNE(EXACT((a + b) / 2)) and RNE(EXACT((a − b) / 2)) (R94). -/
def halfSum (a b : W32) : W32 := BitVec.ofNat 32 (fmtF32.rne (((fmtF32.value a.toNat).add (fmtF32.value b.toNat)).scale (-1)))
def halfDiff (a b : W32) : W32 :=
  BitVec.ofNat 32 (fmtF32.rne (((fmtF32.value a.toNat).add (fmtF32.value b.toNat).neg).scale (-1)))

/-- RNE(EXACT(a − b)). -/
def diffF32 (a b : W32) : W32 := BitVec.ofNat 32 (fmtF32.rne ((fmtF32.value a.toNat).add (fmtF32.value b.toNat).neg))

/-- Approximation i of level j of a block (R95). -/
def approxOf (x : Nat → W32) : Nat → Nat → W32
  | 0, i => x i
  | j + 1, i => halfSum (approxOf x j (2 * i)) (approxOf x j (2 * i + 1))

/-- Detail i of level j + 1 of a block (R95). -/
def detailOf (x : Nat → W32) (j i : Nat) : W32 := halfDiff (approxOf x j (2 * i)) (approxOf x j (2 * i + 1))

/-- Position i of a block of n rows transformed to depth d, in coefficient-tree order (R95). -/
def treeOf (x : Nat → W32) (n : Nat) : Nat → Nat → W32
  | 0, i => x i
  | d + 1, i =>
    if i < n / 2 ^ (d + 1) then approxOf x (d + 1) i
    else if i < n / 2 ^ d then detailOf x d (i - n / 2 ^ (d + 1))
    else treeOf x n d i

/-- Approximation i that k levels of the inverse rebuild from the coefficients c of a block of n rows at depth d (R95). -/
def rebuiltOf (c : Nat → W32) (n d : Nat) : Nat → Nat → W32
  | 0, i => c i
  | k + 1, i =>
    let s := rebuiltOf c n d k (i / 2)
    let t := c (n / 2 ^ (d - k) + i / 2)
    if i % 2 = 0 then sumF32 s t else diffF32 s t

/-- Lanes of a block (R129). -/
def blockOf (u : Team) : Nat := min u.width 128

/-- Lane l of a register as plain values: the reconstruction of R131, and the bits themselves with tag 0. -/
def plainLane (u : Team) (a : VReg) (l : Nat) : W32 :=
  let n := blockOf u
  let d := (u.tag a).toNat
  if d = 0 then lane u a l else rebuiltOf (fun i => lane u a (l / n * n + i)) n d d (l % n)

/-- The positions of the block of lane l at which a predicate is 1, ascending. -/
def onesOf (u : Team) (p : PReg) (l : Nat) : List Nat :=
  (List.range (blockOf u)).filter fun i => (u.p p).getLsbD (l / blockOf u * blockOf u + i)

/-- Whether one value survives a threshold, by the first rule of R96 that applies (R136). -/
def keepsLane (h x : W32) : Bool :=
  let v := fmtF32.value x.toNat
  let t := fmtF32.value h.toNat
  if v = .nan ∨ t = .nan then true
  else if t.isZero then !v.isZero
  else if t.isNeg then true
  else !v.abs.lt t

/-- The element format of a microscaling block, its emax, and the bits of an element (R139). -/
def mxOf : MxFmt → Fmt × Int × Nat
  | .e4m3 => (fmtE4m3, 8, 8)
  | .e5m2 => (fmtE5m2, 15, 8)
  | .e2m1 => (fmtE2m1, 2, 4)

/-- The scale byte of 32 values (R139): the largest magnitude is found first. -/
def scaleByte (emax : Int) (xs : List W32) : Nat :=
  let vs := xs.map fun x => fmtF32.value x.toNat
  if vs.any (fun v => !v.isFin) then 0xFF
  else
    match vs.foldl (fun m v => if m.lt v.abs then v.abs else m) (.fin false 0 0) with
    | .fin _ n e => if n = 0 then 127 else (max 0 (min 254 (floorLog n 1 e - emax + 127))).toNat
    | _ => 0xFF

/-- Lane l quantised with the scale byte of its mask word, under a rounding and its state (R139). -/
def quantised (u : Team) (a : VReg) (m : MxFmt) (r : Rnd) (st : W32) (l : Nat) : W32 :=
  let (F, emax, _) := mxOf m
  let sb := scaleByte emax ((List.range 32).map fun i => lane u a (l / 32 * 32 + i))
  let q := if sb = 0xFF then 0
    else F.round (if r = .rne then .sat else r) st ((fmtF32.value (lane u a l).toNat).scale (127 - sb))
  BitVec.ofNat 32 (sb * 2 ^ 8 + q)

/-- A transform: each destination with its lanes and its tag, and the SRSTATE that it leaves, if it advances it. -/
structure XfrmRule where
  regs : List (VReg × (Nat → W32) × BitVec 4)
  next : Option W32

/-- A transform of one register. -/
def oneReg (d : VReg) (f : Nat → W32) (tag : BitVec 4) : XfrmRule := ⟨[(d, f, tag)], none⟩

/-- The XFRM words (R135 to R140); `u` is the team after the reconstruction of tagged sources. -/
def xfrmRule (u : Team) : Instr → Option XfrmRule
  | .xfrmHfwd d a k => some (oneReg d (fun l =>
      treeOf (fun i => lane u a (l / blockOf u * blockOf u + i)) (blockOf u) k.val (l % blockOf u)) (BitVec.ofNat 4 k.val))
  | .xfrmHinv d a => some (oneReg d (plainLane u a) 0)
  | .xfrmHthr d a h => some (oneReg d (fun l =>
      if u.em.getLsbD l then (if keepsLane (u.h h) (lane u a l) then lane u a l else 0) else lane u d l) (u.tag a))
  | .xfrmHpack d a p => some (oneReg d (fun l =>
      match (onesOf u p l)[l % blockOf u]? with
      | some i => lane u a (l / blockOf u * blockOf u + i)
      | none => 0) 0)
  | .xfrmHunpk d a k p => some (oneReg d (fun l =>
      if (u.p p).getLsbD l then lane u a (l / blockOf u * blockOf u + (onesOf u p l).countP (· < l % blockOf u)) else 0)
      (BitVec.ofNat 4 k.val))
  | .xfrmXpose d a => some ⟨(List.range 32).map fun i =>
      (Fin.ofNat 64 (d.val + i), (fun l => lane u (Fin.ofNat 64 (a.val + l % 32)) (l / 32 * 32 + i)), 0), none⟩
  | .xfrmMxq d a m r => some ⟨[(d, (fun l => quantised u a m r (if r = .sr then stepSr^[l + 1] u.sr else u.sr) l), 0)],
      if r = .sr then some (stepSr^[u.width] u.sr) else none⟩
  | .xfrmMxdq d a m => some (oneReg d (fun l =>
      if u.em.getLsbD l then
        BitVec.ofNat 32 (fmtF32.rne (
          let sb : Nat := (lane u a l).toNat / 2 ^ 8 % 2 ^ 8
          let q := (mxOf m).1.value ((lane u a l).toNat % 2 ^ (mxOf m).2.2)
          if sb = 0xFF then .nan else q.scale ((sb : Int) - 127)))
      else lane u d l) 0)
  | .xfrmI4dq d a => some (oneReg d (fun l =>
      if u.em.getLsbD l then
        BitVec.ofNat 32 (fmtF32.rne ((fmtF16.value ((lane u a l).toNat / 2 ^ 16)).mul
          (let k : Int := (BitVec.ofNat 4 (lane u a l).toNat).toInt - (BitVec.ofNat 4 ((lane u a l).toNat / 2 ^ 4)).toInt
           .fin (decide (k < 0)) k.natAbs 0)))
      else lane u d l) 0)
  | _ => none

/-- Whether a request arrived at a pipe before another, or with it from a scheduler that is not higher; the fill path counts as the highest
(R133). -/
def arrivedBy (q x : PipeReq) : Bool := decide (x.at_ < q.at_ ∨ x.at_ = q.at_ ∧ x.from_ ≤ q.from_)

/-- The registers that a request of the pipe will write are those of a rule. -/
def Writes (u : Team) (q : PipeReq) (r : XfrmRule) : Prop :=
  List.Forall₂ (fun x y => x.1 = y.1 ∧ x.2.2 = y.2.2 ∧ x.2.1.length = u.width ∧ ∀ l, l < u.width → x.2.1.getD l 0 = y.2.1 l) q.regs r.regs

end Sys2Proof.Claim

section
open Sys2Proof Sys2Proof.Machine Sys2Proof.Claim

/-- R131: reading a tagged source reconstructs it first, once, in every lane of the team, whatever the masks, and its tag becomes 0; a word
with an empty effective mask, or one that reads coefficients, reconstructs nothing; every other register, mask and bit of control stays. -/
def Obligations.ReconstructionRewritesTheSource : Prop :=
  ∀ (u : Team) (i : Instr), Sized u →
    (u.effOf i = 0 → u.prepare i = u) ∧
    (∀ r : VReg, u.effOf i ≠ 0 → u.readsCoeffs i = false → r ∈ i.vReads →
      (u.prepare i).tag r = 0 ∧ ∀ l, l < u.width → lane (u.prepare i) r l = plainLane u r l) ∧
    (∀ r : VReg, r ∉ i.vReads → (u.prepare i).tag r = u.tag r ∧ (u.prepare i).v r = u.v r) ∧
    (u.prepare i).regs.s = u.regs.s ∧ (u.prepare i).regs.p = u.regs.p ∧ (u.prepare i).ctl = u.ctl ∧ (u.prepare i).flow = u.flow ∧
    SelfKept u (u.prepare i)

/-- R134 to R140: each XFRM word completes in every state in which it passes its checks. With an empty execute mask it changes nothing;
otherwise its request holds each destination's lanes and tag by its rule and stands in the pipe of its core behind those that arrived before it, in
one cycle behind those of lower schedulers (R133); the team goes on to the next word and waits for the reply, `mxq.sr` advances SRSTATE once for
each lane, and no register changes yet. -/
def Obligations.TransformWordsRequestTheirResults : Prop :=
  ∀ (s : State) (i : Instr) (r : XfrmRule), xfrmRule (ready s i) i = some r → Passes s i → Sized (ready s i) →
    (s.me.em = 0 → ∃ t, exec i s = .next t ∧ WritesOnly s t s.me []) ∧
    (s.me.em ≠ 0 → ∃ t q, exec i s = .next t ∧
      (t.core s.me.core).pipe = (s.core s.me.core).pipe.filter (arrivedBy q) ++ q :: (s.core s.me.core).pipe.filter (fun x => !arrivedBy q x) ∧
      q.at_ = s.coreCyc s.me.core ∧ q.from_ = s.me.sched ∧
      q.tid = some s.me.id.tid ∧ Writes (ready s i) q r ∧ t = { s with me := t.me, cores := t.cores } ∧
      (∀ c, c % 256 ≠ s.me.core % 256 → t.core c = s.core c) ∧ RegsKept (ready s i) t.me [] ∧
      t.me.ctl = { s.me.ctl with
        pc := (nextPos s.me).1, word := (nextPos s.me).2, srstate := r.next.getD s.me.ctl.srstate } ∧
      t.me.flow = { s.me.flow with
        hold := .xfrm, group := t.me.flow.group, sw := t.me.flow.sw, fetched := t.me.flow.fetched, park := t.me.flow.park } ∧ SelfKept s.me t.me)

end

namespace Sys2Proof.Claim
open Sys2Proof Sys2Proof.Machine

/-! ### Tile registers, tile slices and transaction barriers (spec/09 R166, R167; spec/10 R184 to R187, R197) -/

/-- No byte from a key on is poisoned or beyond a link that is down. -/
def Sound (s : State) (key n : Nat) : Prop := ∀ b, b < n → s.poisoned (key + b) = false

/-- The number that the bytes at a key make at home, lowest first (spec/00 R4). -/
def homeWord (s : State) (key n : Nat) : Nat := leNat ((List.range n).map fun i => s.homeByte (key + i))

/-- The fields of a tile register (R184). -/
def winSpace (x : W128) : Nat := x.toNat % 2 ^ 4
def winRows (x : W128) : Nat := x.toNat / 2 ^ 40 % 2 ^ 12
def winCols (x : W128) : Nat := x.toNat / 2 ^ 52 % 2 ^ 12
def winPitch (x : W128) : Nat := x.toNat / 2 ^ 64 % 2 ^ 20
def winBase (x : W128) : Nat := x.toNat / 2 ^ 16 % 2 ^ 24

/-- The key of the word that lane l of slice i names in the space of a window, if it lies in the window (R186). -/
def sliceCell (s : State) (u : Team) (x : W128) (col : Bool) (i l : Nat) : Option Nat :=
  let e := i * (if col then winRows x else winCols x) + l
  let r := if col then e % winRows x else e / winCols x
  let c := if col then e / winRows x else e % winCols x
  if r < winRows x ∧ c < winCols x then
    let w := winBase x + r * winPitch x + c
    if winSpace x = 4 then s.cstoreAt u.id.bundle u.cluster (4 * w) 4 else some (typedKey u.core (winSpace x) (4 * w))
  else none

/-- The lanes that a slice accesses, ascending, each with its key. -/
def sliceCells (s : State) (u : Team) (x : W128) (col : Bool) (i : Nat) (m : Mask) : List (Nat × Nat) :=
  ((List.range u.width).filter m.getLsbD).filterMap fun l => (sliceCell s u x col i l).map fun k => (l, k)

/-- A slice can be made now: its mask is not empty, no fence is outstanding, nothing holds its lanes back, the team may reach its window, and no
word is poisoned. -/
structure CanSlice (s : State) (u : Team) (i : Instr) (t : TReg) (m : Mask) (cells : List (Nat × Nat)) : Prop where
  lanes    : (List.range u.width).filter m.getLsbD ≠ []
  unfenced : u.flow.fences = []
  free     : ¬ HeldBack s u i 3 (cells.map fun x => ⟨x.1, 0, x.2, 3⟩)
  window   : State.windowOk { s with me := u } t = true
  sound    : ∀ x ∈ cells, Sound s x.2 4

/-- A barrier word of the team can be made now: no fence is outstanding, nothing holds its access back, and the team waits at no barrier. -/
structure CanUpdate (s : State) (i : Instr) (key : Nat) : Prop where
  unfenced : s.me.flow.fences = []
  free     : ¬ HeldBack s s.me i 3 [⟨0, 0, key, 3⟩]
  awake    : s.me.flow.hold = .none

/-- A team that waits at no barrier, otherwise as it is. -/
def awake (u : Team) : Team := { u with flow := { u.flow with hold := .none } }

/-- A barrier at an offset of the bundle's allocation, 16-aligned. -/
def BarrierAt (s : State) (off key : Nat) : Prop := off % 16 = 0 ∧ s.cstoreAt s.me.id.bundle s.me.cluster off 16 = some key ∧ Sound s key 16

/-- Waiters of a barrier after an update: those whose phase has passed may issue their `tbar.tbwait`, the others wait as before. -/
def WaitersFollow (s t : State) (key : Nat) : Prop :=
  ∀ u ∈ s.teams, ∃ w ∈ t.teams, w.id = u.id ∧ w.regs = u.regs ∧
    (∀ k q c, u.flow.hold = .tbwait k q c →
      w.flow.hold = if k = key ∧ q ≠ barPhase (t.homeNat key 1) then .tbpass else .tbwait k q c)

/-- One arrival at a barrier (R166, R167): phase, arrivals, sectors and status after it. -/
def arriveRule (stuck : Bool) (b : Nat) : Nat × Nat × Nat × Nat :=
  if barArrivals b = 0 then (barPhase b, 0, barSectors b, barStatus b ||| 1)
  else if barArrivals b = 1 ∧ barSectors b = 0 ∧ stuck = false then ((barPhase b + 1) % 16, barReload b, 0, barStatus b)
  else (barPhase b, barArrivals b - 1, barSectors b, barStatus b)

end Sys2Proof.Claim

section
open Sys2Proof Sys2Proof.Machine Sys2Proof.Claim

/-- R185: `tbnd.bind`, `tbnd.unbind` and `tbnd.query` complete in every state in which they pass their checks: t(D) becomes s(A+1) ‖ s(A);
t(D).space becomes 0; s(D) takes the 64 bits of t(A) that h names.
R186, R187: TSL and TSS complete wherever their slice can be made. TSL: an LD operation is outstanding that is to write, for each lane of
the mask whose word lies in the window, that word, into v(D), which is pending with the window's tag; TSS: each such word of the space is the
lane's word, the highest lane where several name one word; no other byte of memory changes, and no register. -/
def Obligations.TileWordsBindAndMove : Prop :=
  ((∀ (s : State) (d : TReg) (a : SReg), Passes s (.tbndBind d a) → ∃ t, exec (.tbndBind d a) s = .next t ∧
     t.me.t d = BitVec.ofNat 128 ((s.me.s a).toNat + (s.me.s (Fin.ofNat 64 (a.val + 1))).toNat * 2 ^ 64) ∧ WritesOnly s t s.me [.t d.val]) ∧
   (∀ (s : State) (d : TReg), Passes s (.tbndUnbind d) → ∃ t, exec (.tbndUnbind d) s = .next t ∧
     (t.me.t d).toNat = (s.me.t d).toNat / 16 * 16 ∧ WritesOnly s t s.me [.t d.val]) ∧
   (∀ (s : State) (d : SReg) (r : TReg) (h : Bool), Passes s (.tbndQuery d r h) → ∃ t, exec (.tbndQuery d r h) s = .next t ∧
     t.me.s d = BitVec.ofNat 64 ((s.me.t r).toNat / (if h then 2 ^ 64 else 1)) ∧ WritesOnly s t s.me [.s d.val])) ∧
  ((∀ (s : State) (d : VReg) (r : TReg) (col : Bool) (i : BitVec 9) (g : Guard) (u : Team) (cells : List (Nat × Nat)),
     Passes s (.tsl d r col i g) → u = ready s (.tsl d r col i g) → cells = sliceCells s u (u.t r) col i.toNat (u.eff g) →
     CanSlice s u (.tsl d r col i g) r (u.eff g) cells →
     ∃ t, exec (.tsl d r col i g) s = .next t ∧
       (∃ p ∈ t.me.flow.ops, p.id = s.nextId ∧ p.cls = .ld ∧ p.ready = true ∧ p.done = false ∧ p.pv = [d] ∧
         p.writes = cells.map fun x => .v d x.1 (BitVec.ofNat 32 (homeWord s x.2 4))) ∧
       t.me.regs.pendV.getLsbD d.val = true ∧ t.me.tag d = BitVec.ofNat 4 (State.windowTag { s with me := u } (u.t r)) ∧
       t.me.regs.v = u.regs.v ∧ t.me.regs.s = u.regs.s ∧ (t.me.ctl.pc, t.me.ctl.word) = nextPos u ∧ CtlKept u t.me ∧
       SelfKept u t.me ∧ t.mem = s.mem ∧ t.dirty = s.dirty) ∧
   (∀ (s : State) (d : VReg) (r : TReg) (col : Bool) (i : BitVec 9) (g : Guard) (u : Team) (cells : List (Nat × Nat)),
     Passes s (.tss d r col i g) → u = ready s (.tss d r col i g) → cells = sliceCells s u (u.t r) col i.toNat (u.eff g) →
     CanSlice s u (.tss d r col i g) r (u.eff g) cells → Memory.wf s.mem = true →
     ∃ t, exec (.tss d r col i g) s = .next t ∧
       (∀ x ∈ cells, (∀ y ∈ cells, y.2 = x.2 → y.1 ≤ x.1) → (∀ y ∈ cells, y.2 = x.2 ∨ y.2 + 4 ≤ x.2 ∨ x.2 + 4 ≤ y.2) →
         homeWord t x.2 4 = (lane u d x.1).toNat) ∧
       (∀ k, (∀ x ∈ cells, k < x.2 ∨ x.2 + 4 ≤ k) → t.homeByte k = s.homeByte k) ∧ t.dirty = s.dirty ∧ t.teams = s.teams ∧
       RegsKept u t.me [] ∧ (t.me.ctl.pc, t.me.ctl.word) = nextPos u ∧ CtlKept u t.me ∧ SelfKept u t.me))

/-- R166, R167, R197: the TBAR words complete where their barrier lies in the allocation and nothing holds them. tbinit writes the barrier:
phase 0, arrivals and reload s(D), sectors and status 0. tbarr, after a release that meets no fault, makes one arrival. tbtest reads the low 64
bits. Waiters whose phase has passed are released. tbwait, when it issues, changes nothing but that from device scope on it acquires; the group
that holds it issues only once the phase differs from s(D)[3:0]: until then the team waits on that phase and is not eligible.
R168: an access of tbinit, tbarr or tbtest that something holds back is outstanding, not performed: no byte of memory changes. -/
def Obligations.BarrierWordsUpdateTheBarrier : Prop :=
  (∀ (s : State) (d a : SReg) (key : Nat), Passes s (.tbarTbinit d a) → BarrierAt s (s.me.s a).toNat key → CanUpdate s (.tbarTbinit d a) key →
    Memory.wf s.mem = true →
    ∃ t, exec (.tbarTbinit d a) s = .next t ∧ t.homeNat key 16 = (s.me.s d).toNat * 2 ^ 4 + (s.me.s d).toNat * 2 ^ 64 ∧
      (∀ k, k < key ∨ key + 16 ≤ k → t.homeByte k = s.homeByte k) ∧ Issues s.me t.me s.nextId .st true [] [] ∧
      WaitersFollow s t key ∧ t.barStuck key = false) ∧
  (∀ (s s1 : State) (a : SReg) (o : Scope) (key : Nat), Passes s (.tbarTbarr a o) → BarrierAt s (s.me.s a).toNat key →
    CanUpdate s (.tbarTbarr a o) key → s.release s.me.id.tid o = (s1, true) → Sound s1 key 16 → Memory.wf s1.mem = true →
    ∃ t, exec (.tbarTbarr a o) s = .next t ∧
      (barPhase (t.homeNat key 16), barArrivals (t.homeNat key 16), barSectors (t.homeNat key 16), barStatus (t.homeNat key 16)) =
        arriveRule (s.barStuck key) (s1.homeNat key 16) ∧
      barReload (t.homeNat key 16) = barReload (s1.homeNat key 16) ∧
      (∀ k, k < key ∨ key + 16 ≤ k → t.homeByte k = s1.homeByte k) ∧ WaitersFollow s1 t key ∧
      (∃ x ∈ t.me.flow.ops, x.id + 1 = t.nextId ∧ x.cls = .sg ∧ x.ready = true ∧ x.writes = []) ∧
      t.me.regs = s.me.regs ∧ (t.me.ctl.pc, t.me.ctl.word) = nextPos s.me ∧ CtlKept s.me t.me) ∧
  ((∀ (s : State) (d a : SReg) (o : Fin 64) (key : Nat), Passes s (.tbarTbwait d a o) → BarrierAt s (s.me.s a).toNat key → s.me.placed = true →
     ∃ t, exec (.tbarTbwait d a o) s = .next t ∧ WritesOnly s { t with clean := s.clean, edits := s.edits } (awake s.me) [] ∧
       (o.val < 3 → t.clean = s.clean) ∧ (3 ≤ o.val → ∀ c ∈ t.clean, c.core = s.me.core → acquires (scopeAt o.val) c.key = false)) ∧
   (∀ (s : State) (d a : SReg) (o : Fin 64) (key : Nat), s.me.groupInstrs = [.tbarTbwait d a o] → Passes s (.tbarTbwait d a o) →
     BarrierAt s (s.me.s a).toNat key → s.me.flow.group.open_ = false → s.me.deferred = none → s.me.flow.fetched = true →
     s.gateOpen s.me = true → s.me.flow.hold = .none → barPhase (s.homeNat key 1) = (s.me.s d).toNat % 16 → Memory.wf s.mem = true →
     ∃ t, s.nextWord = (t, none) ∧ OnlyMe s t ∧ t.me.regs = s.me.regs ∧ t.me.ctl = s.me.ctl ∧
       t.me.flow.hold = .tbwait key ((s.me.s d).toNat % 16) (s.coreCyc s.me.core) ∧ t.eligible t.me = false)) ∧
  (∀ (s : State) (d a : SReg) (key : Nat), Passes s (.tbarTbtest d a) → BarrierAt s (s.me.s a).toNat key → CanUpdate s (.tbarTbtest d a) key →
    ∃ t, exec (.tbarTbtest d a) s = .next t ∧
      Issues s.me t.me s.nextId .ld true [.s d (BitVec.ofNat 64 (homeWord s key 8))] [d] ∧ t.mem = s.mem ∧ t.teams = s.teams) ∧
  (∀ (s : State) (i : Instr) (a : SReg) (key : Nat) (x : LaneAt),
    (∃ d, i = .tbarTbinit d a ∨ i = .tbarTbtest d a) ∨ (∃ o, i = .tbarTbarr a o) → Passes s i → BarrierAt s (s.me.s a).toNat key →
    x = ⟨0, apertureVa (s.me.s a).toNat, key, 3⟩ → s.me.flow.fences = [] → NothingToRelease s i 3 → HeldBack s s.me i 3 [x] →
    ∃ t, exec i s = .next t ∧ t.mem = s.mem ∧ t.teams = s.teams ∧
      ∃ o ∈ t.me.flow.ops, o.id = s.nextId ∧ o.ready = false ∧ o.held = some ⟨i, s.me.regs, [x]⟩)

end

namespace Sys2Proof.Claim
open Sys2Proof Sys2Proof.Machine

/-! ### Copies and rings (spec/09 R163 to R170; spec/10 R191 to R196) -/

/-- The arguments of an `xcpy` word from s(A) and s(A+1) (R191): record, barrier, slice index, slice count. -/
def copyArgs (u : Team) (a : SReg) : Nat × Nat × Nat × Nat :=
  let x := (u.s a).toNat
  let y := (u.s (Fin.ofNat 64 (a.val + 1))).toNat
  (x % 2 ^ 32, x / 2 ^ 32, y % 2 ^ 16, y / 2 ^ 16 % 2 ^ 16)

/-- The form, window and first argument of an `xcpy` word. -/
def copyForm : Instr → Option (Nat × TReg × SReg)
  | .xcpyIn t a => some (0, t, a)
  | .xcpyOut t a => some (1, t, a)
  | .xcpyMcin t a => some (2, t, a)
  | _ => none

/-- The 128 bytes of a layout record at a key as a team's word may see them: each sector as it stands at home, or as it was before a store to it
that is not in the team's order yet (R164; log 16). -/
def SeenRecord (s : State) (key : Nat) (snap : List Byte) : Prop :=
  snap.length = 128 ∧ ∀ j, j < 4 → (snap.drop (32 * j)).take 32 = s.homeBytes (key + 32 * j) 32 ∨
    ∃ e ∈ s.edits, e.key = key + 32 * j ∧ (e.tid = s.me.id.tid → e.fenced = false) ∧
      (e.tid ≠ s.me.id.tid → e.seen.contains s.me.core = false) ∧ (snap.drop (32 * j)).take 32 = e.old

/-- The destination sectors and the recorded range of slice `idx` of `n` of an `xcpy` word, with a record as it sees it (R168, R192). -/
def sliceShape (s : State) (i : Instr) (snap : List Byte) (idx n : Nat) : Nat × List Nat :=
  match copyForm i with
  | none => (0, [])
  | some (form, r, a) =>
    let t := parseTlr snap
    let rows := rowsFrom (sliceRows t idx n).1 (sliceRows t idx n).2
    (s.sliceSectors form s.me.core s.me.id.bundle ((s.me.s (Fin.ofNat 64 (a.val + 2))).toNat % 2 ^ 8) t (s.me.t r) rows,
      s.sliceRange form s.me.core s.me.id.bundle t (s.me.t r) rows)

/-- The state with the dirty sectors of the slice's range written back; `f` is the count of free values drawn so far. -/
def sliceFlushed (s : State) (i : Instr) (snap : List Byte) (idx n f : Nat) : State :=
  State.flushRange { s with fresh := f } s.me.cluster s.me.id.ctx (sliceShape s i snap idx n).2

/-- One sector counted off at a barrier (R167): phase, arrivals, sectors and status after it. -/
def offRule (stuck : Bool) (st b : Nat) : Nat × Nat × Nat × Nat :=
  if barArrivals b = 0 ∧ barSectors b ≤ 1 ∧ stuck = false then ((barPhase b + 1) % 16, barReload b, 0, barStatus b ||| st)
  else (barPhase b, barArrivals b, barSectors b - 1, barStatus b ||| st)

/-- The arguments of `ring.rbind` (R195): record, first byte, slots, whether it drains, bytes of a slot, bytes of the pool. -/
structure BindArgs where
  tlr : Nat
  first : Nat
  count : Nat
  drains : Bool
  len : Nat
  pool : Nat

def bindArgs (u : Team) (a : SReg) : BindArgs :=
  let x := (u.s a).toNat
  let y := (u.s (Fin.ofNat 64 (a.val + 1))).toNat
  let z := (u.s (Fin.ofNat 64 (a.val + 2))).toNat
  ⟨x % 2 ^ 32, x / 2 ^ 32, y % 2 ^ 16, decide (y / 2 ^ 16 % 2 = 1), y / 2 ^ 32, z % 2 ^ 32⟩

end Sys2Proof.Claim

section
open Sys2Proof Sys2Proof.Machine Sys2Proof.Claim

/-- R164, R167, R168, R191, R192: each XCPY word completes where its record, barrier and completion record lie in the allocation, the record is
well formed and its slice has not been issued: each sector of the record is seen as it stands, or as it was before a store that the team has not yet
to see (R164; log 16); dirty sectors of its range are written back first; a CP operation is outstanding; its slice, with the window as it is now and
the record as seen, joins its copy; and its destination sectors are added to its barrier. While the scoreboard is full, a fence of the team is
outstanding or an acquire of it has not been performed, a group that holds the word is not chosen (R168, R152; log 27). -/
def Obligations.CopyWordsIssueTheirSlice : Prop :=
  (∀ (s : State) (i : Instr) (form : Nat) (r : TReg) (a : SReg) (tlr off idx n tkey key : Nat),
    copyForm i = some (form, r, a) → copyArgs s.me a = (tlr, off, idx, n) → Passes s i →
    tlr % 128 = 0 → s.cstoreAt s.me.id.bundle s.me.cluster tlr 128 = some tkey → BarrierAt s off key →
    (form = 2 → ∃ rkey, (s.me.s (Fin.ofNat 64 (a.val + 2))).toNat / 2 ^ 32 % 8 = 0 ∧
      s.cstoreAt s.me.id.bundle s.me.cluster ((s.me.s (Fin.ofNat 64 (a.val + 2))).toNat / 2 ^ 32) 8 = some rkey) →
    s.me.flow.hold = .none → Sound s tkey 128 → (∀ e ∈ s.edits, e.old.length = 32) →
    (∀ c, s.joinCopy form tlr key n = some c → c.slices.any (·.idx == idx) = false) →
    (∀ snap f, SeenRecord s tkey snap → tlrBad snap = false ∧
      (sliceFlushed s i snap idx n f).me = s.me ∧ Sound (sliceFlushed s i snap idx n f) key 16 ∧
      Memory.wf (sliceFlushed s i snap idx n f).mem = true) →
    ∃ t snap f s1, exec i s = .next t ∧ SeenRecord s tkey snap ∧ s1 = sliceFlushed s i snap idx n f ∧
      (∀ d ∈ s1.dirty, d.core / 8 = s.me.cluster → d.ctx = s.me.id.ctx → (sliceShape s i snap idx n).2.contains (d.va.toNat / 32) = true →
        d.pinned = true) ∧
      Issues s.me t.me s.nextId .cp false [] [] ∧
      (∃ c ∈ t.copies, c.form = form ∧ c.tlr = tlr ∧ c.bar = key ∧ c.n = n ∧ c.cluster = s.me.cluster ∧
        ∃ sl ∈ c.slices, sl.idx = idx ∧ sl.tid = s.me.id.tid ∧ sl.op = s.nextId ∧ sl.core = s.me.core ∧ sl.window = s.me.t r ∧
          sl.snap = snap ∧ sl.sectors = (sliceShape s i snap idx n).1 ∧ sl.range = (sliceShape s i snap idx n).2 ∧ sl.read = false ∧
          sl.retired = false) ∧
      barSectors (t.homeNat key 16) = min (2 ^ 32 - 1) (barSectors (s1.homeNat key 16) + (sliceShape s i snap idx n).1) ∧
      barArrivals (t.homeNat key 16) = barArrivals (s1.homeNat key 16) ∧ barPhase (t.homeNat key 16) = barPhase (s1.homeNat key 16) ∧
      (∀ k, k < key ∨ key + 16 ≤ k → t.homeByte k = s1.homeByte k)) ∧
  (∀ (s : State) (u : Team) (i : Instr), (copyForm i).isSome = true → i ∈ u.groupInstrs → u.flow.fetched = true → u.resumes = false →
    64 ≤ s.boardUsed u.cluster ∨ u.fencesOn s.nextId ≠ [] ∨ (∃ o ∈ u.flow.ops, o.id < s.nextId ∧ o.acq.isSome = true ∧ o.ready = false) →
    s.choosable u = false)

/-- R163, R167, R168, R192: COPY_START changes nothing while a slice is missing, a copy that has not started meets a range that another copy recorded
first (log 16), or a core of it is halted, and otherwise the copy has started or has retired. COPY_SECTOR_PERFORMED performs one sector of a copy in: its bytes stand at home, the barrier
counts one sector off, and the sector is no longer to be performed; no other byte changes. -/
def Obligations.CopySectorsCountOff : Prop :=
  (∀ (s : State) (c : Copy), s.copies.find? (·.id == c.id) = some c →
    (c.slices.length < c.n ∨ (c.started = false ∧ s.copyBlocked c = true) ∨ c.cores.any s.halted = true → exec (.copyStart c.id) s = .next s) ∧
    (c.n ≤ c.slices.length → c.started = true ∨ s.copyBlocked c = false → c.cores.any s.halted = false →
      ∃ t, exec (.copyStart c.id) s = .next t ∧ ∀ d, t.copies.find? (·.id == c.id) = some d → d.started = true)) ∧
  (∀ (s : State) (c : Copy) (k : Nat) (j : Job) (bs : List (Nat × Byte)), s.copies.find? (·.id == c.id) = some c →
    c.jobs[k]? = some j → j.piped = false → j.kind = .near bs → c.form = 0 → c.fail = none → bs ≠ [] → (bs.map (·.1)).Nodup →
    s.images = [] → (∀ x ∈ bs, x.1 < c.bar ∨ c.bar + 16 ≤ x.1) → s.poison = [] → (∀ x ∈ bs, s.linkDown x.1 = none) → s.linkDown c.bar = none →
    Memory.wf s.mem = true →
    ∃ t, exec (.copySectorPerformed c.id k) s = .next t ∧ (∀ x ∈ bs, t.homeByte x.1 = x.2) ∧
      (∀ a, (∀ x ∈ bs, x.1 ≠ a) → (a < c.bar ∨ c.bar + 16 ≤ a) → t.homeByte a = s.homeByte a) ∧
      (barPhase (t.homeNat c.bar 16), barArrivals (t.homeNat c.bar 16), barSectors (t.homeNat c.bar 16),
        barStatus (t.homeNat c.bar 16)) = offRule (s.barStuck c.bar) 0 (s.homeNat c.bar 16) ∧
      ∀ d, t.copies.find? (·.id == c.id) = some d → d.jobs = c.jobs.eraseIdx k)

/-- R195, R196, R243: the RING words complete where nothing holds them. rbind binds the lowest free ring that the model's rule of engines gives its
bundle (log 17), every slot empty, with a CP operation for the binding and its number as result, or answers all-ones where there is none; where the
bundle's streams reserve engines of the cluster, the ring's engine is one of them; runbind lets no new chunk start; spub fills an empty slot of a
drain ring and srel empties a full slot of a fill ring, after a release at cluster scope, and either sets the error bit instead where the slot does not
allow it; swait waits for its slot.
R169, R195, R196, R346: RING_FILL_CHUNK moves the next chunk of a fill ring into its slot: once every source sector has been read the slot is full
with the chunk's number, its valid bytes and its bytes, and the ring's next chunk follows; until then it is filling; with no slot free, or no permit,
it changes nothing. RING_UNBIND_COMPLETE, with no transfer under way, ends the binding: the ring is free and its CP operation has completed.
RING_DRAIN_CHUNK changes nothing unless the next slot is full or is being drained (log 16: the order of copies and rings). -/
def Obligations.RingWordsAndChunks : Prop :=
  ((∀ (s : State) (d a : SReg) (x : BindArgs) (tkey k2 : Nat), Passes s (.ringRbind d a) → bindArgs s.me a = x →
     x.tlr % 128 = 0 → s.cstoreAt s.me.id.bundle s.me.cluster x.tlr 128 = some tkey →
     s.cstoreAt s.me.id.bundle s.me.cluster x.first (x.count * x.len) = some k2 →
     Sound s tkey 128 → (∀ e ∈ s.edits, e.old.length = 32) →
     (∀ snap, SeenRecord s tkey snap → tlrBad snap = false ∧ (parseTlr snap).depth = 0) →
     (s.freeRing s.me.id.bundle s.me.cluster x.pool = none → ∃ t, exec (.ringRbind d a) s = .next t ∧ t.rings = s.rings ∧
       Issues s.me t.me s.nextId .sg true [.s d (BitVec.allOnes 64)] [d]) ∧
     (∀ q, s.freeRing s.me.id.bundle s.me.cluster x.pool = some q → ∃ t r, exec (.ringRbind d a) s = .next t ∧ t.rings = s.rings ++ [r] ∧
       q < 16 ∧ (s.ringAt? s.me.cluster q).isNone = true ∧ s.staging s.me.cluster (q / 4) + x.pool ≤ 2 ^ 21 ∧
       (∀ b e, s.me.id.bundle.bind s.bundle? = some b →
         (s.me.cluster, e) ∈ (b.subs.filter (·.rec_.kind == 2)).flatMap (·.engines) →
         (s.me.cluster, q / 4) ∈ (b.subs.filter (·.rec_.kind == 2)).flatMap (·.engines)) ∧
       r.cluster = s.me.cluster ∧ r.id = q ∧ r.tid = s.me.id.tid ∧ r.op = s.nextId ∧ SeenRecord s tkey r.snap ∧
       r.base = x.first ∧ r.slotLen = x.len ∧ r.drain = x.drains ∧ r.pool = x.pool ∧ r.used = 0 ∧ r.next = 0 ∧ r.unbind = false ∧
       r.error = false ∧ r.slots.length = x.count ∧ (∀ y ∈ r.slots, y.state = .empty ∧ y.poison = false) ∧
       (∃ o ∈ t.me.flow.ops, o.id = s.nextId ∧ o.cls = .cp ∧ o.ready = false ∧ o.done = false) ∧
       (∃ o ∈ t.me.flow.ops, o.id = s.nextId + 1 ∧ o.cls = .sg ∧ o.ready = true ∧ o.writes = [.s d (BitVec.ofNat 64 q)] ∧ o.ps = [d]))) ∧
   (∀ (s : State) (a : SReg), Passes s (.ringRunbind a) →
     ∃ t, exec (.ringRunbind a) s = .next t ∧ Issues s.me t.me s.nextId .sg true [] [] ∧
       t.rings = s.rings.map fun r => if r.cluster = s.me.cluster ∧ r.id = (s.me.s a).toNat then { r with unbind := true } else r) ∧
   (∀ (s s1 : State) (i : Instr) (a : SReg) (k : Fin 64) (r : Ring) (x : RSlot), s.ringAt? s.me.cluster (s.me.s a).toNat = some r →
     r.slots[k.val]? = some x → s.me.flow.fences = [] → s.release s.me.id.tid .clu = (s1, true) → Passes s i →
     i = .ringSpub a k ∨ i = .ringSrel a k → ¬ HeldBack s s.me i 0 [] → (∀ w ∈ s.ringWaits, w.op < s.nextId) →
     ∃ t r', exec i s = .next t ∧ t.ringAt? s.me.cluster (s.me.s a).toNat = some r' ∧ t.mem = s1.mem ∧
       (∃ o ∈ t.me.flow.ops, o.id + 1 = t.nextId ∧ o.cls = .sg ∧ o.ready = true ∧ o.writes = []) ∧
       (t.me.ctl.pc, t.me.ctl.word) = nextPos s.me ∧ CtlKept s.me t.me ∧
       (i = .ringSpub a k → r.drain = true → x.state = .empty →
         r'.slots[k.val]? = some { x with state := .full } ∧ (∀ j, j ≠ k.val → r'.slots[j]? = r.slots[j]?) ∧ r'.used = r.used ∧
         r'.error = r.error) ∧
       (i = .ringSrel a k → r.drain = false → x.state = .full →
         r'.slots[k.val]? = some { x with state := .empty } ∧ (∀ j, j ≠ k.val → r'.slots[j]? = r.slots[j]?) ∧
         r'.used = r.used - r.permit ∧ r'.error = r.error) ∧
       (i = .ringSpub a k ∧ (r.drain = false ∨ x.state ≠ .empty) ∨ i = .ringSrel a k ∧ (r.drain = true ∨ x.state ≠ .full) →
         r' = { r with error := true })) ∧
   (∀ (s : State) (d a : SReg) (k : Fin 64) (r : Ring), Passes s (.ringSwait d a k) → s.me.flow.fences = [] →
     ¬ HeldBack s s.me (.ringSwait d a k) 0 [] →
     s.ringAt? s.me.cluster (s.me.s a).toNat = some r → (∀ w ∈ s.ringWaits, w.ring ≠ (s.me.s a).toNat) →
     (∀ o ∈ s.me.flow.ops, o.id < s.nextId) → (∀ t ∈ s.teams, t.id.tid ≠ s.me.id.tid) →
     ∃ t o, exec (.ringSwait d a k) s = .next t ∧ o ∈ t.me.flow.ops ∧ o.id = s.nextId ∧ o.cls = .sg ∧ o.ps = [d] ∧
       (r.waitValue k.val = none → o.ready = false ∧ t.ringWaits = s.ringWaits ++
         [⟨s.me.cluster, (s.me.s a).toNat, k.val, s.me.id.tid, s.nextId, d⟩]) ∧
       (∀ x, r.waitValue k.val = some x → o.ready = true ∧ o.writes = [.s d x]))) ∧
  ((∀ (s s1 : State) (r : Ring) (x : RSlot) (m : Memo) (e1 : EngWait) (lo hi : Nat) (rows : List Nat) (img : List ImageByte),
     s.ringAt? r.cluster r.id = some r → r.slots[r.next % r.slots.length]? = some x →
     lo = r.next * r.slotLen → hi = min r.total (r.next * r.slotLen + r.slotLen) → rows = rowsOfImage (parseTlr r.snap) r.rowBytes lo hi →
     img = (imageOf (parseTlr r.snap) m rows).filter (fun y => decide (lo ≤ y.1 ∧ y.1 < hi)) →
     (r.drain = true ∨ r.chunks ≤ r.next ∨ s.halted r.core = true ∨ x.state = .full ∨ x.state = .draining ∨
       x.state = .empty ∧ (r.unbind = true ∨ r.permit ≠ 0 ∧ r.pool < r.used + r.permit) →
       exec (.ringFillChunk r.cluster r.id) s = .next s) ∧
     (r.drain = false → r.next < r.chunks → s.halted r.core = false →
       x.state = .filling ∨ x.state = .empty ∧ r.unbind = false ∧ (r.permit = 0 ∨ r.used + r.permit ≤ r.pool) →
       s.fetchImage r.client r.eng (if x.state = .filling then x.src else []) (parseTlr r.snap) rows = (m, s1, e1) →
       ∃ t r' y, exec (.ringFillChunk r.cluster r.id) s = .next t ∧ t.ringAt? r.cluster r.id = some r' ∧
         r'.slots[r.next % r.slots.length]? = some y ∧ y.valid = hi - lo ∧
         (x.state = .empty → y.chunk = r.next) ∧ (∀ j, j ≠ r.next % r.slots.length → r'.slots[j]? = r.slots[j]?) ∧
         (y.state = .full ∧ r'.next = r.next + 1 ∨ y.state = .filling ∧ r'.next = r.next) ∧
         ((∀ z ∈ img, z.2.2.1 < 3) → y.state = .full) ∧
         (x.state = .empty → (∀ z ∈ img, z.2.2.1 = 0) → (img.map (·.1)).Nodup → s.poison = [] → s.images = [] → Memory.wf s.mem = true →
           ∀ z ∈ img, ∀ key, s.cstoreAt (some r.bundle) r.cluster (r.base + r.next % r.slots.length * r.slotLen + (z.1 - lo)) 1 = some key →
             t.homeByte key = z.2.1))) ∧
   (∀ (s : State) (r : Ring) (x : RSlot), s.ringAt? r.cluster r.id = some r → r.slots[r.next % r.slots.length]? = some x →
     (r.drain = false ∨ s.halted r.core = true ∨ x.state = .empty ∨ x.state = .filling ∨ x.state = .full ∧ r.unbind = true →
       exec (.ringDrainChunk r.cluster r.id) s = .next s) ∧
     (r.drain = true → s.halted r.core = false → x.state = .full ∧ r.unbind = false ∨ x.state = .draining →
       ∃ t, exec (.ringDrainChunk r.cluster r.id) s = .next t ∧ ∀ r', t.ringAt? r.cluster r.id = some r' →
         (∃ y, r'.slots[r.next % r.slots.length]? = some y ∧
           (y.state = .empty ∧ r'.next = r.next + 1 ∧ y.chunk = r.next + r.slots.length ∨ y.state = .draining ∧ r'.next = r.next)) ∧
         ∀ j, j ≠ r.next % r.slots.length → r'.slots[j]? = r.slots[j]?)) ∧
   (∀ (s : State) (r : Ring), s.ringAt? r.cluster r.id = some r →
     (r.unbind = false ∨ (∃ x ∈ r.slots, x.state = .filling ∨ x.state = .draining) →
       exec (.ringUnbindComplete r.cluster r.id) s = .next s) ∧
     (r.unbind = true → (∀ x ∈ r.slots, x.state ≠ .filling ∧ x.state ≠ .draining) →
       ∃ t, exec (.ringUnbindComplete r.cluster r.id) s = .next t ∧ t.ringAt? r.cluster r.id = none)))

end

namespace Sys2Proof.Claim
open Sys2Proof Sys2Proof.Machine

/-! ### Signals, sample groups, upcalls and SYNC (spec/10 R198; spec/13 R222 to R225; spec/14 R246 to R252; spec/15 R259 to R268) -/

/-- What an SGRP word needs of its access: a non-empty mask, an aligned record that the access reaches on a device page, clean memory, and no
dirty bytes of the team or its core. -/
structure CanGroup (s s1 : State) (a : AReg) (n key : Nat) : Prop where
  lanes    : s.me.em ≠ 0
  unparked : s.me.flow.park = none
  aligned  : (s.me.a a).toNat % n = 0
  reach    : s.teamReach s.me .atomic (s.me.a a) n = (.ok key 0, s1)
  clean    : s.poison = []
  wf       : Memory.wf s.mem = true
  l1       : ∀ d ∈ s.dirty, d.core ≠ s.me.core ∧ d.tid ≠ s.me.id.tid

/-- The operation that a word of the SG class leaves outstanding, with its result. -/
def Answers (s t : State) (id : Nat) (d : SReg) (x : W64) : Prop := Issues s.me t.me id .sg true [.s d x] [d]

/-- A member's continuation and its group's record agree and are well formed (R249, R250, R263). -/
def MemberOk (c g : List Byte) (va : Nat) : Prop :=
  contBad c = false ∧ groupBad g = false ∧ fieldAt c 48 1 < fieldAt g 1 1 ∧ fieldAt g 88 10 + 128 * fieldAt c 48 1 = va

/-- The record that a member's continuation names is reached as its access asks. -/
def GroupOf (s s1 s2 : State) (ckey gkey : Nat) : Prop :=
  s1.teamReach s1.me .atomic (BitVec.ofNat 80 (fieldAt (s.homeBytes ckey 128) 32 10)) 512 = (.ok gkey 0, s2)

/-- A key of a range. -/
def Within (lo n a : Nat) : Prop := lo ≤ a ∧ a < lo + n

/-- A byte after numbers have been laid over memory in order: key, length in bytes, number. -/
def laid (ws : List (Nat × Nat × Nat)) (b : Nat → Byte) (k : Nat) : Byte :=
  ws.foldl (fun x w => if w.1 ≤ k ∧ k < w.1 + w.2.1 then BitVec.ofNat 8 (w.2.2 / 256 ^ (k - w.1)) else x) (b k)

/-- Memory after some numbers have been written, every other byte as it was. -/
def Wrote (s t : State) (ws : List (Nat × Nat × Nat)) : Prop := ∀ k, t.homeByte k = laid ws s.homeByte k

/-- An address leads an agent to a key, whatever the bytes of some keys are: the page tables lie elsewhere. -/
def Steady (s : State) (own : Nat → Prop) (ctx gen : Nat) (k : Access) (va : W80) (key : Nat) : Prop :=
  ∀ m, Memory.wf m = true → (∀ a, ¬ own a → readCell m a = readCell s.mem a) → ({ s with mem := m } : State).agentKey ctx gen k va = some key

/-- An address leads a store to no byte of device memory, whatever the bytes of some keys are. -/
def NeverStored (s : State) (own : Nat → Prop) (ctx gen : Nat) (va : W80) : Prop :=
  ∀ m, Memory.wf m = true → (∀ a, ¬ own a → readCell m a = readCell s.mem a) →
    ∀ key, ({ s with mem := m } : State).agentKey ctx gen .store va = some key → 2 ^ 64 ≤ key

/-- The rational number of a finite value. -/
def ratOf : Val → ℚ
  | .fin neg n e => (if neg then -1 else 1) * n * 2 ^ e
  | _ => 0

/-- The FP32 rounding of a rational number: whatever two neighbouring multiples of a power of two enclose it and round alike, it is that. -/
def RoundsTo (q : ℚ) (y : Nat) : Prop :=
  (q = 0 → (fmtF32.value y).isZero = true) ∧
  ∀ (t : Nat) (f : Int), q ≠ 0 → (t : ℚ) * 2 ^ f ≤ |q| → |q| ≤ ((t : ℚ) + 1) * 2 ^ f →
    fmtF32.rne (.fin (decide (q < 0)) t f) = fmtF32.rne (.fin (decide (q < 0)) (t + 1) f) → y = fmtF32.rne (.fin (decide (q < 0)) t f)

/-- The FP32 rounding of d / √y, for d not 0 and y positive, enclosed the same way by its square. -/
def RootRoundsTo (d y : ℚ) (a : Nat) : Prop :=
  ∀ (t : Nat) (f : Int), ((t : ℚ) * 2 ^ f) ^ 2 * y ≤ d ^ 2 → d ^ 2 ≤ (((t : ℚ) + 1) * 2 ^ f) ^ 2 * y →
    fmtF32.rne (.fin (decide (d < 0)) t f) = fmtF32.rne (.fin (decide (d < 0)) (t + 1) f) → a = fmtF32.rne (.fin (decide (d < 0)) t f)

/-- The advantages of n members and the status bits (R98), from their rewards, which of them are valid, and ε. -/
def AdvRule (n : Nat) (rew : Nat → Nat) (valid : Nat → Bool) (eps : Nat) (adv : Nat → Nat) (st : Nat) : Prop :=
  let vs := (List.range n).filter valid
  let r (i : Nat) : ℚ := ratOf (fmtF32.value (rew i))
  if vs = [] then st = 2 ∧ ∀ i, i < n → adv i = 0
  else
    ∃ mu v : Nat, RoundsTo ((vs.map r).sum / vs.length) mu ∧
      RoundsTo ((vs.map fun i => (r i - ratOf (fmtF32.value mu)) ^ 2).sum / vs.length) v ∧
      (let m := ratOf (fmtF32.value mu)
       let den := ratOf (fmtF32.value v) + ratOf (fmtF32.value eps)
       if fmtF32.inf ≠ some v ∧ den = 0 then st = 1 ∧ ∀ i, i < n → adv i = 0
       else st = 0 ∧ ∀ i, i < n →
         if valid i = false ∨ r i = m then adv i = 0
         else if fmtF32.inf = some v then adv i = (if r i < m then fmtF32.signBit else 0)
         else RootRoundsTo (r i - m) den (adv i))

/-- What a test of a group's conditions leaves, the record read from a state with some memory (R252, R98): nothing for a group that is not OPEN or meets
no condition; FAILED with QUORUM past the deadline without a quorum; otherwise, DEADLINE set where only the deadline was met, FAILED with BADEPS or
BADADV, or the advantages, the status and DONE. Nothing else in memory changes. -/
def GroupTest (s t : State) (m : List Host.Cell) (ctx gen key : Nat) : Prop :=
  let u : State := { s with mem := m }
  let g := u.homeBytes key 512
  let n := fieldAt g 1 1
  let arr (i : Nat) : Bool := (fieldAt g 8 8).testBit i
  let can (i : Nat) : Bool := (fieldAt g 16 8).testBit i
  let due := ∀ i, i < n → arr i = true ∨ can i = true
  let late := fieldAt g 32 8 ≠ 0 ∧ fieldAt g 32 8 ≤ fieldAt g 40 8
  let quorum := fieldAt g 2 1 ≤ (List.range n).countP fun i => arr i && !can i
  let st := fieldAt g 4 4
  let st1 := if late ∧ ¬ due then st ||| 4 else st
  let eps := fmtF32.value (fieldAt g 48 4)
  let epsOk := eps.isFin = true ∧ 0 ≤ ratOf eps
  let va (j : Nat) : W80 := BitVec.ofNat 80 (fieldAt g 56 10 + j)
  (fieldAt g 0 1 ≠ 0 ∨ ¬ due ∧ ¬ late → Wrote u t []) ∧
  (fieldAt g 0 1 = 0 → ¬ due → late → ¬ quorum → Wrote u t [(key + 4, 4, st ||| 8), (key, 1, 3)]) ∧
  (fieldAt g 0 1 = 0 → due ∨ late ∧ quorum →
    (¬ epsOk → Wrote u t [(key + 4, 4, st1 ||| 16), (key, 1, 3)]) ∧
    (epsOk → (∃ j, j < 4 * n ∧ NeverStored u (Within key 512) ctx gen (va j)) → Wrote u t [(key + 4, 4, st1 ||| 32), (key, 1, 3)]) ∧
    (epsOk → ∀ ks : Nat → Nat,
      (∀ j, j < 4 * n → ks j < 2 ^ 64 ∧ Steady u (fun a => Within key 512 a ∨ ∃ i, i < 4 * n ∧ ks i = a) ctx gen .store (va j) (ks j)) →
      ∃ (adv : Nat → Nat) (bits : Nat),
        AdvRule n (fun i => fieldAt g (120 + 4 * i) 4)
          (fun i => arr i && !can i && !(fieldAt g 24 8).testBit i && (fmtF32.value (fieldAt g (120 + 4 * i) 4)).isFin) (fieldAt g 48 4) adv bits ∧
        Wrote u t (((List.range (4 * n)).map fun j => (ks j, 1, adv (j / 4) / 256 ^ (j % 4))) ++ [(key + 4, 4, st1 ||| bits), (key, 1, 2)])))

/-- Numbers written in memory by an operation on a group, whose conditions are then tested, unless its record is malformed (log 18). -/
def WroteTested (s t : State) (ws : List (Nat × Nat × Nat)) (gkey : Nat) : Prop :=
  ∃ m : List Host.Cell, Memory.wf m = true ∧ (∀ k, readCell m k = laid ws s.homeByte k) ∧
    (groupBad (({ s with mem := m } : State).homeBytes gkey 512) = true → t.mem = m) ∧
    (groupBad (({ s with mem := m } : State).homeBytes gkey 512) = false → GroupTest s t m s.me.id.ctx s.me.id.gen gkey)

/-- Some written ranges lie in device memory, apart from each other. -/
def ApartRanges (ws : List (Nat × Nat)) : Prop :=
  (∀ w ∈ ws, w.1 + w.2 ≤ 2 ^ 64) ∧ ws.Pairwise fun x y => x.1 + x.2 ≤ y.1 ∨ y.1 + y.2 ≤ x.1

/-- The pages that hold a byte of a range. -/
def pagesHolding (base len : Nat) : List Nat :=
  (List.range (if len = 0 then 0 else (base + len - 1) / 4096 - base / 4096 + 1)).map fun j => (base / 4096 + j) * 4096

/-- What a release of a member's range reads and where it writes (R279): for each page, ascending, its entry and frame record, whatever the written
bytes are; the region's descriptor; the byte of the bitmap. -/
structure RangeAt (s : State) (c g : List Byte) (pg : List (Nat × Nat)) (rkey bkey : Nat) (more : List (Nat × Nat)) : Prop where
  region : ∀ o, o < 64 → Steady s (fun a => ∃ w ∈ pg.flatMap (fun p => [(p.1, 64), (p.2, 24)]) ++ (rkey, 64) :: (bkey, 1) :: more, Within w.1 w.2 a)
    s.me.id.ctx s.me.id.gen .store (BitVec.ofNat 80 (fieldAt g 72 10 + o)) (rkey + o) ∧
    Steady s (fun a => ∃ w ∈ pg.flatMap (fun p => [(p.1, 64), (p.2, 24)]) ++ (rkey, 64) :: (bkey, 1) :: more, Within w.1 w.2 a)
    s.me.id.ctx s.me.id.gen .load (BitVec.ofNat 80 (fieldAt g 72 10 + o)) (rkey + o)
  bitmap : ∀ k, k = .load ∨ k = .store →
    Steady s (fun a => ∃ w ∈ pg.flatMap (fun p => [(p.1, 64), (p.2, 24)]) ++ (rkey, 64) :: (bkey, 1) :: more, Within w.1 w.2 a)
      s.me.id.ctx s.me.id.gen k (BitVec.ofNat 80 (s.homeNat (rkey + 32) 10 +
        (fieldAt c 8 10 - s.homeNat rkey 10) / s.homeNat (rkey + 16) 8 / 8)) bkey
  pages : pg.length = (pagesHolding (fieldAt c 8 10) (fieldAt c 24 8)).length ∧
    ∀ (j : Nat) (p : Nat × Nat) (va : Nat), pg[j]? = some p → (pagesHolding (fieldAt c 8 10) (fieldAt c 24 8))[j]? = some va →
      ∀ m, Memory.wf m = true →
        (∀ a, (∀ w ∈ pg.flatMap (fun p => [(p.1, 64), (p.2, 24)]) ++ (rkey, 64) :: (bkey, 1) :: more, Within w.1 w.2 a → Within p.1 64 a) →
          readCell m a = readCell s.mem a) →
        ∃ l, ({ s with mem := m } : State).srLeaf s.me.id.ctx s.me.id.gen va = some l ∧ l.entry = p.1 ∧ l.frec = p.2
  apart : ApartRanges (pg.flatMap (fun p => [(p.1, 64), (p.2, 24)]) ++ (rkey, 64) :: (bkey, 1) :: more)
  index : regionBad (s.homeBytes rkey 64) = false ∧ s.homeNat rkey 10 ≤ fieldAt c 8 10 ∧
    (fieldAt c 8 10 - s.homeNat rkey 10) / s.homeNat (rkey + 16) 8 < s.homeNat (rkey + 24) 4

/-- The frame records whose counts a release lowers to 0, in page order. -/
def freedOf (s : State) (pg : List (Nat × Nat)) : List Nat := (pg.map (·.2)).filter fun f => s.homeNat f 4 == 1

/-- What a release writes (R278, R279): counts lowered, freed records linked before the head of the context's free frame list, entries cleared, the
bitmap bit cleared, nfree raised. -/
def releaseWrites (s : State) (c : List Byte) (pg : List (Nat × Nat)) (rkey bkey ffl : Nat) : List (Nat × Nat × Nat) :=
  let idx := (fieldAt c 8 10 - s.homeNat rkey 10) / s.homeNat (rkey + 16) 8
  let b := s.homeNat bkey 1
  pg.map (fun p => (p.2, 4, (s.homeNat p.2 4 + (2 ^ 32 - 1)) % 2 ^ 32)) ++ pg.map (fun p => (p.1, 64, 0)) ++
    (freedOf s pg).zipIdx.map (fun x => (x.1 + 16, 8, if x.2 = 0 then ffl else (freedOf s pg).getD (x.2 - 1) 0)) ++
    [(bkey, 1, if b.testBit (idx % 8) then b - 2 ^ (idx % 8) else b), (rkey + 28, 4, s.homeNat (rkey + 28) 4 + 1)]

/-- What a release leaves beside memory: the freed records head the context's free frame list, and no dirty sector of the range stays in any core. -/
structure Released (s t : State) (c : List Byte) (pg : List (Nat × Nat)) : Prop where
  list  : ∀ x, s.ctx? s.me.id.ctx = some x → ∃ y, t.ctx? s.me.id.ctx = some y ∧ y.ffl = (freedOf s pg).getLastD x.ffl ∧
    y.fflen = if freedOf s pg = [] then x.fflen else (x.fflen + (freedOf s pg).length) % 2 ^ 32
  dirty : ∀ d ∈ t.dirty, d ∈ s.dirty ∧ ¬ (d.ctx = s.me.id.ctx ∧ d.pinned = false ∧ ∃ va ∈ pagesHolding (fieldAt c 8 10) (fieldAt c 24 8),
    d.va.toNat / 4096 * 4096 = va)

/-- Where a fork of n members reads and writes (R264, R279): the records of the continuations, the region's descriptor, its bitmap by byte, each copied
page's leaf, and the entries of the siblings' pages, by sibling and page; `free` are the free ranges, ascending. -/
structure ForkAt (s : State) (g : List Byte) (gkey n : Nat) (ck : Nat → Nat) (rkey : Nat) (bk : Nat → Nat) (ls : List Leaf) (se : Nat → Nat → Nat)
    (free : List Nat) : Prop where
  conts  : ∀ i o, i < n → o < 128 → ∀ k, k = .load ∨ k = .store →
    Steady s (fun a => Within gkey 512 a ∨ Within rkey 64 a ∨ (∃ i, i < n ∧ Within (ck i) 128 a) ∨ (∃ b, b < (s.homeNat (rkey + 24) 4 + 7) / 8 ∧ a = bk b) ∨
      (∃ l ∈ ls, Within l.entry 64 a ∨ Within l.frec 4 a) ∨ ∃ i j, i < n - 1 ∧ j < ls.length ∧ Within (se i j) 64 a)
      s.me.id.ctx s.me.id.gen k (BitVec.ofNat 80 (fieldAt g 88 10 + 128 * i + o)) (ck i + o)
  region : ∀ o, o < 64 → ∀ k, k = .load ∨ k = .store →
    Steady s (fun a => Within gkey 512 a ∨ Within rkey 64 a ∨ (∃ i, i < n ∧ Within (ck i) 128 a) ∨ (∃ b, b < (s.homeNat (rkey + 24) 4 + 7) / 8 ∧ a = bk b) ∨
      (∃ l ∈ ls, Within l.entry 64 a ∨ Within l.frec 4 a) ∨ ∃ i j, i < n - 1 ∧ j < ls.length ∧ Within (se i j) 64 a)
      s.me.id.ctx s.me.id.gen k (BitVec.ofNat 80 (fieldAt g 72 10 + o)) (rkey + o)
  bitmap : ∀ b, b < (s.homeNat (rkey + 24) 4 + 7) / 8 → ∀ k, k = .load ∨ k = .store →
    Steady s (fun a => Within gkey 512 a ∨ Within rkey 64 a ∨ (∃ i, i < n ∧ Within (ck i) 128 a) ∨ (∃ b, b < (s.homeNat (rkey + 24) 4 + 7) / 8 ∧ a = bk b) ∨
      (∃ l ∈ ls, Within l.entry 64 a ∨ Within l.frec 4 a) ∨ ∃ i j, i < n - 1 ∧ j < ls.length ∧ Within (se i j) 64 a)
      s.me.id.ctx s.me.id.gen k (BitVec.ofNat 80 (s.homeNat (rkey + 32) 10 + b)) (bk b)
  free_  : free = (List.range (s.homeNat (rkey + 24) 4)).filter fun i => !(s.homeNat (bk (i / 8)) 1).testBit (i % 8)
  own    : ∀ i j, i < n - 1 → j < ls.length → s.entryPa s.me.id.ctx s.me.id.gen
    (s.homeNat rkey 10 + free.getD i 0 * s.homeNat (rkey + 16) 8 + 4096 * j) = some (se i j)
  apart  : ApartRanges ([(gkey, 512), (rkey, 64)] ++ (List.range n).map (fun i => (ck i, 128)) ++
    (List.range ((s.homeNat (rkey + 24) 4 + 7) / 8)).map (fun b => (bk b, 1)) ++ ls.flatMap (fun l => [(l.entry, 64), (l.frec, 4)]) ++
    (List.range (n - 1)).flatMap fun i => (List.range ls.length).map fun j => (se i j, 64))

/-- A control word made read-only with copy-on-write set, if it was writable (R264). -/
def sharedCtl (c : Nat) : Nat := if c.testBit 6 then c - 2 ^ 6 + (if c.testBit 8 then 0 else 2 ^ 8) else c

/-- What a fork writes (R264): the downgraded pages of continuation 0 and their counts; the siblings' entries; the continuations; the bitmap and the
free count; the group's queue and clock. -/
def forkWrites (s : State) (gkey gva desc n : Nat) (ck : Nat → Nat) (rkey : Nat) (bk : Nat → Nat) (ls : List Leaf) (se : Nat → Nat → Nat)
    (free : List Nat) : List (Nat × Nat × Nat) :=
  let used := free.take (n - 1)
  ls.map (fun l => (l.entry, 8, sharedCtl (s.homeNat l.entry 8))) ++ ls.map (fun l => (l.frec, 4, (s.homeNat l.frec 4 + (n - 1)) % 2 ^ 32)) ++
  (List.range (n - 1)).flatMap (fun i => ls.zipIdx.map fun x =>
    (se i x.2, 64, sharedCtl (s.homeNat x.1.entry 8) + 2 ^ 64 * s.homeNat (x.1.entry + 8) 56)) ++
  used.zipIdx.flatMap (fun x =>
    [(ck (x.2 + 1), 8, s.homeNat (ck 0) 8),
     (ck (x.2 + 1) + 8, 16, (s.homeNat rkey 10 + x.1 * s.homeNat (rkey + 16) 8 + s.homeNat (ck 0 + 8) 10 % 4096) % 2 ^ 80),
     (ck (x.2 + 1) + 24, 8, s.homeNat (ck 0 + 24) 8)]) ++
  (List.range n).flatMap (fun i => [(ck i + 32, 16, gva), (ck i + 48, 1, i), (ck i + 49, 1, 0)]) ++
  (List.range ((s.homeNat (rkey + 24) 4 + 7) / 8)).map (fun b =>
    (bk b, 1, s.homeNat (bk b) 1 + ((used.filter fun i => i / 8 == b).map fun i => 2 ^ (i % 8)).sum)) ++
  [(rkey + 28, 4, s.homeNat (rkey + 28) 4 - (n - 1)), (gkey + 104, 10, desc), (gkey + 40, 8, 0)]

/-- The pages of some addresses reached one after another, each on a device page. -/
def reachEach : State → List Nat → Option State
  | s, [] => some s
  | s, va :: vs =>
    match s.teamReach s.me .atomic (BitVec.ofNat 80 va) 1 with
    | (.ok _ 0, s1) => reachEach s1 vs
    | _ => none

/-- The keys of the eight 8-byte loads of a packet image, each as its access reaches it. -/
def imageKeys : State → W80 → List Nat → Option (List Nat × State)
  | s, _, [] => some ([], s)
  | s, va, o :: os =>
    match s.teamReach s.me .load (va + BitVec.ofNat 80 o) 8 with
    | (.ok key _, s1) => (imageKeys s1 va os).map fun x => (key :: x.1, x.2)
    | _ => none

/-- A queue descriptor can be accessed by a word: the team is not parked, the address is aligned and leads to a clean descriptor, and no L1 holds
dirty bytes. -/
structure CanQueue (s s1 : State) (a : AReg) (key loc : Nat) : Prop where
  unparked : s.me.flow.park = none
  aligned  : (s.me.a a).toNat % 128 = 0
  reach    : s.teamReach s.me .atomic (s.me.a a) 128 = (.ok key loc, s1)
  sound    : Sound s key 128
  wf       : Memory.wf s.mem = true
  l1       : s.dirty = []

/-- A descriptor that a queue may be created from (R236, R239, R240). -/
def DescOk (s : State) (ctx gen : Nat) (b : List Byte) : Prop :=
  1 ≤ fieldAt b 16 1 ∧ fieldAt b 16 1 ≤ 16 ∧ fieldAt b 18 1 ≤ 127 ∧ fieldAt b 19 1 ≤ 2 ∧ fieldAt b 0 10 % 64 = 0 ∧
  fieldAt b 24 8 < 2 ^ fieldAt b 16 1 ∧ fieldAt b 10 6 = 0 ∧ fieldAt b 58 6 = 0 ∧ fieldAt b 98 6 = 0 ∧ fieldAt b 112 16 = 0 ∧
  (∃ l, s.leafAt ctx gen (fieldAt b 48 10) = some l ∧ l.w = true ∧ l.cow = false ∧ l.mig = 0 ∧
    (l.loc = 0 ∧ s.isDevice (l.pa (fieldAt b 48 10)) = true ∨ l.loc = 2)) ∧
  ∀ k, k < 2 ^ fieldAt b 16 1 → ∃ l va, va = (fieldAt b 0 10 + 64 * k) % 2 ^ 80 ∧ s.leafAt ctx gen va = some l ∧ l.r = true ∧ l.w = true ∧
    l.cow = false ∧ l.mig = 0 ∧ l.loc = 0 ∧ s.isDevice (l.pa va) = true

/-- The code of a qctl form on a descriptor at a key, 0 where the change is made (R268). -/
def QctlCode (s : State) (key : Nat) (i : Instr) (code : Nat) : Prop :=
  if s.homeNat (key + 20) 4 ≠ s.me.id.ctx then code = 2
  else
    match s.queueAt s.me.id.ctx key, i with
    | none, .syncQctlCreate _ _ =>
      ¬ DescOk s s.me.id.ctx s.me.id.gen (s.homeBytes key 128) ∧ code = 3 ∨
      DescOk s s.me.id.ctx s.me.id.gen (s.homeBytes key 128) ∧ code = if 4096 ≤ s.queues.length then 6 else 0
    | none, _ => code = 4
    | some _, .syncQctlCreate _ _ => code = 5
    | some q, .syncQctlStop _ _ => code = if q.dying = true ∨ 1 < s.homeNat (key + 17) 1 then 1 else 0
    | some q, .syncQctlResume _ _ n =>
      code = if q.dying = true ∨ s.homeNat (key + 17) 1 ≠ 1 ∧ s.homeNat (key + 17) 1 ≠ 2 then 1
        else if 2 ^ s.homeNat (key + 16) 1 ≤ (s.me.s n).toNat then 3 else 0
    | some _, _ => code = 0

/-- Where a destroyed queue's agents write: three bytes of its descriptor and its error signal, wherever those bytes are in the tables. -/
structure DestroyAt (s : State) (q : Queue) (key kv : Nat) : Prop where
  desc  : ∀ off, off = 17 ∨ off = 96 ∨ off = 97 → Steady s (fun a => Within key 128 a ∨ Within kv 8 a) q.ctx q.gen .store
    (q.desc + BitVec.ofNat 80 off) (key + off)
  sig   : Steady s (fun a => Within key 128 a ∨ Within kv 8 a) q.ctx q.gen .atomic q.errsig kv
  apart : kv + 8 ≤ key ∨ key + 128 ≤ kv
  sound : Sound s kv 8 ∧ s.linkWaits kv = false

/-- The word of a C slot's header that `hctl.wpos` reads (R222). -/
def headerRule (c : CSlot) (w : Nat) : Nat :=
  match w with
  | 0 => c.item % 2 ^ 32 + c.trow % 2 ^ 32 * 2 ^ 32
  | 1 => c.tcol % 2 ^ 32 + c.part % 2 ^ 8 * 2 ^ 32 + c.state % 2 ^ 8 * 2 ^ 40 + c.dtag % 2 ^ 8 * 2 ^ 48 +
      (c.taint.toNat + 2 * c.finish.toNat) * 2 ^ 56
  | 2 => c.kprog % 2 ^ 32 + c.ksteps % 2 ^ 32 * 2 ^ 32
  | 3 => c.surv.toNat % 2 ^ 64
  | _ => c.surv.toNat / 2 ^ 64

end Sys2Proof.Claim

section
open Sys2Proof Sys2Proof.Machine Sys2Proof.Claim

/-- R179, R198: the SIG words complete wherever their access can be made and translates, with nothing to release and no dirty bytes of their core
in the sector: sigadd adds s(SB) modulo 2^64 and answers the old value, sigrd answers the value, and sigwait and watch register their wait on
the word, with the value that is there now as its result where it meets the condition. SIGNAL_WAIT_SATISFIED ends such a wait: s(D) takes the
value, its operation has completed, and the core keeps no copy of the word. -/
def Obligations.SignalWordsComplete : Prop :=
  (∀ (s s1 : State) (i : Instr) (d : SReg) (a : AReg) (b : SReg) (r : Ordering3) (key loc : Nat), CanAccess s i (s.me.a a) 8 key loc →
    NothingToRelease s i loc → s.teamReach s.me .atomic (s.me.a a) 8 = (.ok key loc, s1) → Sound s key 8 → s.dirtyAt s.me.core key = none →
    Memory.wf s.mem = true → Passes s i →
    (i = .sigSigadd d a b r → ∃ t, exec i s = .next t ∧
      Answers s t s.nextId d (BitVec.ofNat 64 (s.homeNat key 8)) ∧
      t.homeNat key 8 = (s.homeNat key 8 + (s.me.s b).toNat) % 2 ^ 64 ∧
      (∀ k, k < key ∨ key + 8 ≤ k → t.homeByte k = s.homeByte k) ∧ t.dirty = s.dirty ∧ t.teams = s.teams) ∧
    (i = .sigSigrd d a r → ∃ t, exec i s = .next t ∧
      Answers s t s.nextId d (BitVec.ofNat 64 (s.homeNat key 8)) ∧ (∀ k, t.homeByte k = s.homeByte k) ∧ t.dirty = s.dirty) ∧
    (∀ kind, i = .sigSigwait d a b r ∧ kind = 0 ∨ i = .sigWatch d a b r ∧ kind = 1 →
      ∃ t w, exec i s = .next t ∧ Issues s.me t.me s.nextId .sg false [] [d] ∧ (∀ k, t.homeByte k = s.homeByte k) ∧
        w ∈ t.waits ∧ w.kind = kind ∧ w.tid = s.me.id.tid ∧ w.op = s.nextId ∧ w.dest = d ∧ w.key = key ∧ w.arg = s.me.s b ∧
        w.hit = (let x := BitVec.ofNat 64 (s.homeNat key 8)
          if (if kind = 0 then decide (x.toInt ≤ (s.me.s b).toInt) else decide (x ≠ s.me.s b)) then some x else none))) ∧
  (∀ (s : State) (w : Wait) (x : W64) (o : Op), s.waits.find? (·.id == w.id) = some w → w.hit = some x →
    w.tid = s.me.id.tid → o ∈ s.me.flow.ops → o.id = w.op → o.done = false → (s.me.flow.ops.map (·.id)).Nodup →
    ∃ t, exec (.signalWaitSatisfied w.id) s = .next t ∧ t.me.s w.dest = x ∧ (∀ v ∈ t.waits, v.id ≠ w.id) ∧
      (∀ q : SReg, q ≠ w.dest → t.me.s q = s.me.s q) ∧ t.me.regs.v = s.me.regs.v ∧ (s.me.placed = true → t.mem = s.mem) ∧
      (s.me.placed = true → ∀ c ∈ t.clean, ¬ (c.core = s.me.core ∧ c.key = sectorOf w.key)) ∧
      (∀ p ∈ t.me.flow.ops, p.id = w.op → p.done = true))

/-- R249 to R252, R262 to R265, R279: each SGRP word completes where its accesses can be made. With an empty execute mask it changes nothing. info
answers the record's state, size, counts and status. wait registers for DONE or FAILED. arr of a member with neither bit set, and can of one not
cancelled, in an OPEN group write their bits and the member's state; can, and free of a member that can has not released, of a group that has
ended, release its range; free of a CANCELLED member writes FREED alone; fork of an OPEN group that has neither arrivals nor cancellations nor a queue,
with enough free ranges, writes all that R264 and R279 state: each answers OK. The other codes change nothing: BADREC before STATE and NOSPACE (fork), LATE and
DUP (arr, can), DUP and LIVE (free). After each the group's conditions are tested (log 18: a malformed record is not; where a fork's check of a malformed
continuation or region and of entries falls). -/
def Obligations.GroupWordsTakeEffect : Prop :=
  (∀ (s : State) (i : Instr) (d : SReg) (a : AReg) (b : SReg) (r : Ordering3),
    i = .sgrpFork d a r ∨ i = .sgrpArr d a b r ∨ i = .sgrpCan d a r ∨ i = .sgrpWait d a r ∨ i = .sgrpFree d a r ∨ i = .sgrpInfo d a r →
    Passes s i → s.me.em = 0 → ∃ t, exec i s = .next t ∧ WritesOnly s t s.me []) ∧
  (∀ (s s1 : State) (d : SReg) (a : AReg) (r : Ordering3) (key : Nat), CanGroup s s1 a 512 key →
    (Passes s (.sgrpInfo d a r) → ∃ t, exec (.sgrpInfo d a r) s = .next t ∧ WroteTested s t [] key ∧
      Answers s t s.nextId d (BitVec.ofNat 64 (
        let g := s.homeBytes key 512
        fieldAt g 0 1 + fieldAt g 1 1 * 2 ^ 8 + ((List.range 64).countP fun j => (fieldAt g 8 8).testBit j) * 2 ^ 16 +
          ((List.range 64).countP fun j => (fieldAt g 16 8).testBit j) * 2 ^ 24 + fieldAt g 4 4 * 2 ^ 32))) ∧
    (Passes s (.sgrpWait d a r) → ∃ t w, exec (.sgrpWait d a r) s = .next t ∧ Issues s.me t.me s.nextId .sg false [] [d] ∧
      w ∈ t.waits ∧ w.kind = 2 ∧ w.tid = s.me.id.tid ∧ w.op = s.nextId ∧ w.dest = d ∧ w.key = key ∧ WroteTested s t [] key ∧
      w.hit = (if t.homeNat key 1 = 2 ∨ t.homeNat key 1 = 3 then some (BitVec.ofNat 64 (t.homeNat key 1 + t.homeNat (key + 4) 4 * 2 ^ 32)) else none)) ∧
    (Passes s (.sgrpFork d a r) → groupBad (s.homeBytes key 512) = true →
      ∃ t, exec (.sgrpFork d a r) s = .next t ∧ t.mem = s.mem ∧ Answers s t s.nextId d 5) ∧
    (∀ (s2 : State) (n : Nat) (ck : Nat → Nat) (rkey : Nat) (bk : Nat → Nat) (ls : List Leaf) (se : Nat → Nat → Nat) (free : List Nat),
      Passes s (.sgrpFork d a r) → s.dirty = [] → groupBad (s.homeBytes key 512) = false → n = s.homeNat (key + 1) 1 →
      reachEach s1 ((List.range n).map fun i => s.homeNat (key + 88) 10 + 128 * i) = some s2 →
      ForkAt s (s.homeBytes key 512) key n ck rkey bk ls se free →
      (let bad := regionBad (s.homeBytes rkey 64) = true ∨ s.homeNat (rkey + 16) 8 < s.homeNat (ck 0 + 8) 10 % 4096 + s.homeNat (ck 0 + 24) 8 ∨
         contBad (s.homeBytes (ck 0) 128) = true ∨ s.homeNat (ck 0 + 48) 1 ≠ 0
       let pages := (pagesHolding (s.homeNat (ck 0 + 8) 10) (s.homeNat (ck 0 + 24) 8)).map (s.srLeaf s.me.id.ctx s.me.id.gen)
       let state := s.homeNat key 1 ≠ 0 ∨ s.homeNat (key + 8) 8 ≠ 0 ∨ s.homeNat (key + 16) 8 ≠ 0 ∨ s.homeNat (key + 104) 10 ≠ 0
       let room := n - 1 ≤ free.length
       (bad ∨ none ∈ pages → ∃ t, exec (.sgrpFork d a r) s = .next t ∧ WroteTested s t [] key ∧ Answers s t s.nextId d 5) ∧
       (¬ bad → pages = ls.map some → state → ∃ t, exec (.sgrpFork d a r) s = .next t ∧ WroteTested s t [] key ∧ Answers s t s.nextId d 1) ∧
       (¬ bad → pages = ls.map some → ¬ state → ¬ room → ∃ t, exec (.sgrpFork d a r) s = .next t ∧ WroteTested s t [] key ∧ Answers s t s.nextId d 4) ∧
       (¬ bad → pages = ls.map some → ¬ state → room → ∀ q x, s.me.id.queue = some q → s.queue? q = some x →
         ∃ t id, exec (.sgrpFork d a r) s = .next t ∧ Answers s t id d 0 ∧
           Wrote s t (forkWrites s key (s.me.a a).toNat x.desc.toNat n ck rkey bk ls se free) ∧
           ∃ y ∈ t.groups, y.key = key ∧ y.ctx = s.me.id.ctx ∧ y.queue = x.id)))) ∧
  (∀ (s s1 s2 : State) (d : SReg) (a : AReg) (b : SReg) (r : Ordering3) (key gkey : Nat) (c g : List Byte), CanGroup s s1 a 128 key →
    GroupOf s s1 s2 key gkey → c = s.homeBytes key 128 → g = s.homeBytes gkey 512 →
    (¬ MemberOk c g (s.me.a a).toNat → ∀ i, i = .sgrpArr d a b r ∨ i = .sgrpCan d a r ∨ i = .sgrpFree d a r → Passes s i →
      ∃ t, exec i s = .next t ∧ WroteTested s t [] gkey ∧ Answers s t s.nextId d 5) ∧
    (MemberOk c g (s.me.a a).toNat →
      (∀ i code, Passes s i →
        (i = .sgrpArr d a b r ∨ i = .sgrpCan d a r) ∧ fieldAt g 0 1 ≠ 0 ∧ code = 2 ∨
        i = .sgrpArr d a b r ∧ fieldAt g 0 1 = 0 ∧
          ((fieldAt g 8 8).testBit (fieldAt c 48 1) = true ∨ (fieldAt g 16 8).testBit (fieldAt c 48 1) = true) ∧ code = 3 ∨
        i = .sgrpCan d a r ∧ fieldAt g 0 1 = 0 ∧ (fieldAt g 16 8).testBit (fieldAt c 48 1) = true ∧ code = 3 ∨
        i = .sgrpFree d a r ∧ fieldAt c 49 1 = 3 ∧ code = 3 ∨
        i = .sgrpFree d a r ∧ fieldAt c 49 1 ≠ 3 ∧ fieldAt c 49 1 ≠ 2 ∧ fieldAt g 0 1 ≤ 1 ∧ code = 6 →
        ∃ t, exec i s = .next t ∧ WroteTested s t [] gkey ∧ Answers s t s.nextId d (BitVec.ofNat 64 code)) ∧
      (Passes s (.sgrpArr d a b r) → fieldAt g 0 1 = 0 → (fieldAt g 8 8).testBit (fieldAt c 48 1) = false →
        (fieldAt g 16 8).testBit (fieldAt c 48 1) = false →
        ∃ t, exec (.sgrpArr d a b r) s = .next t ∧ Answers s t s.nextId d 0 ∧
          WroteTested s t ([(gkey + 120 + 4 * fieldAt c 48 1, 4, (s.me.s b).toNat % 2 ^ 32), (gkey + 8, 8, fieldAt g 8 8 + 2 ^ fieldAt c 48 1)] ++
            (if (fmtF32.value ((s.me.s b).toNat % 2 ^ 32)).isFin then [] else [(gkey + 24, 8, fieldAt g 24 8 ||| 2 ^ fieldAt c 48 1)]) ++
            [(key + 49, 1, 1)]) gkey) ∧
      (∀ pg rkey bkey x, Passes s (.sgrpCan d a r) → fieldAt g 0 1 = 0 → (fieldAt g 16 8).testBit (fieldAt c 48 1) = false →
        RangeAt s c g pg rkey bkey [(key, 128), (gkey, 512)] → s.ctx? s.me.id.ctx = some x →
        ∃ t, exec (.sgrpCan d a r) s = .next t ∧ Answers s t s.nextId d 0 ∧ Released s t c pg ∧
          WroteTested s t ([(gkey + 16, 8, fieldAt g 16 8 + 2 ^ fieldAt c 48 1), (key + 49, 1, 2)] ++
            releaseWrites s c pg rkey bkey x.ffl) gkey) ∧
      (Passes s (.sgrpFree d a r) → fieldAt c 49 1 = 2 → ∃ t, exec (.sgrpFree d a r) s = .next t ∧
        Answers s t s.nextId d 0 ∧ WroteTested s t [(key + 49, 1, 3)] gkey) ∧
      (∀ pg rkey bkey x, Passes s (.sgrpFree d a r) → fieldAt c 49 1 ≠ 2 → fieldAt c 49 1 ≠ 3 → 1 < fieldAt g 0 1 →
        RangeAt s c g pg rkey bkey [(key, 128), (gkey, 512)] → s.ctx? s.me.id.ctx = some x →
        ∃ t, exec (.sgrpFree d a r) s = .next t ∧ Answers s t s.nextId d 0 ∧ Released s t c pg ∧
          WroteTested s t ((key + 49, 1, 3) :: releaseWrites s c pg rkey bkey x.ffl) gkey)))

/-- R222, R259 to R261: a group with hret does not begin while anything is outstanding; hret whose release meets no fault returns the team to its pool,
where it waits for its next upcall; htaint taints the upcall; wstat reads a counter of the core's walk, or 0 where the core runs no walk of the
team's context; wpos reads the cursor and the header words of the slots that run. -/
def Obligations.HandlerWordsComplete : Prop :=
  (∀ (s : State) (u : Team) (x : HretStatus), u.flow.fetched = true → .hctlHret x ∈ u.groupInstrs → u.quiet = false ∨ u.flow.ops ≠ [] →
    u.resumes = false → s.eligible u = false) ∧
  (∀ (s s1 : State) (x : HretStatus), Passes s (.hctlHret x) →
    (s.release s.me.id.tid .sys = (s1, true) → s.me.flow.upcall.isSome = true → (s.core s.me.core).walk = none →
      ∃ t, exec (.hctlHret x) s = .next t ∧ t.me.flow.upcall = none ∧ t.me.flow.hold = .poolIdle ∧ t.me.ctl.stack = [] ∧
        t.me.regs = s.me.regs ∧ t.me.id = s.me.id ∧ t.mem = s1.mem) ∧
    (∀ u w0 w o, s.release s.me.id.tid .sys = (s1, true) → s.me.flow.upcall = some u →
      (s.core s.me.core).walk = some w0 → s.walk? w0.walk = some w → x ≠ .fail → u.kind < 2 →
      (if u.kind = 1 then w0.bslots else w0.aslots)[u.slot]? = some o → o.taken = true → w.rec_.taint ≠ 1 →
      ∃ t w1, exec (.hctlHret x) s = .next t ∧ t.me.flow.upcall = none ∧ t.me.flow.hold = .poolIdle ∧ t.me.regs = s.me.regs ∧
        (t.core s.me.core).walk = some w1 ∧
        (if u.kind = 1 then w1.bslots else w1.aslots)[u.slot]? = some { o with ready := true, taint := u.taint || x == .skip }) ∧
    (∀ u w0 w, s.release s.me.id.tid .sys = (s1, true) → s.dirtyOf s.me.id.tid = [] → s.me.flow.upcall = some u →
      (s.core s.me.core).walk = some w0 → s.walk? w0.walk = some w → x = .ok → u.kind = 2 → u.taint = false →
      exec (.hctlHret x) s = .next ((s1.setMe Team.toPool).tileDone s.me.core u.slot w.id))) ∧
  (∀ (s : State) (u : Upcall), Passes s .hctlHtaint → s.me.flow.upcall = some u →
    ∃ t, exec .hctlHtaint s = .next t ∧ OnlyMe s t ∧ t.me.flow.upcall = some { u with taint := true } ∧ t.me.regs = s.me.regs ∧
      CtlKept s.me t.me ∧ t.me.flow.ops = s.me.flow.ops ∧ (t.me.ctl.pc, t.me.ctl.word) = nextPos s.me) ∧
  (∀ (s : State) (d : SReg) (e : Fin 8), Passes s (.hctlWstat d e) →
    (s.walkHere = none → ∃ t, exec (.hctlWstat d e) s = .next t ∧ t.me.s d = 0 ∧ WritesOnly s t s.me [.s d.val]) ∧
    (∀ w0 w, s.walkHere = some (w0, w) → ∃ t, exec (.hctlWstat d e) s = .next t ∧ WritesOnly s t s.me [.s d.val] ∧
      t.me.s d = BitVec.ofNat 64 ([w0.starve, w0.upwait, w0.stalls, w0.gcomp, w0.gskip, w0.ksteps, w0.tiles, w.wid.toNat].getD e.val 0))) ∧
  (∀ (s : State) (d : SReg) (k j : Fin 64), Passes s (.hctlWpos d k j) →
    (s.walkHere = none → ∃ t, exec (.hctlWpos d k j) s = .next t ∧ t.me.s d = 0 ∧ WritesOnly s t s.me [.s d.val]) ∧
    (∀ w0 w, s.walkHere = some (w0, w) → ∃ t, exec (.hctlWpos d k j) s = .next t ∧
      WritesOnly s { t with fresh := s.fresh } s.me [.s d.val] ∧
      (k.val = 4 → t.me.s d = BitVec.ofNat 64 (w0.cursor % 2 ^ 32 + 2 ^ 32 * w0.items.length)) ∧
      (k.val ≠ 4 → w0.second k.val = false → (w0.slotOf k.val).state ≠ 0 →
        t.me.s d = BitVec.ofNat 64 (headerRule (w0.slotOf k.val) j.val))))

/-- R266: `sync.gbar` completes once its release meets no fault: the team has arrived and waits at the barrier; with every team of the gang
that has not ended arrived, all of them go on and the barrier's generation rises.
R252, R98: GROUP_DEADLINE tests the conditions of a group: `GroupTest` states what each outcome writes, advantages included. As nanoseconds pass, the
clock of a group advances by them while its queue is resident and not being saved, whatever the group's state, and stands still otherwise. -/
def Obligations.GangBarriersAndGroupDeadlines : Prop :=
  (∀ (s s1 : State) (o : Scope) (g : Nat), Passes s (.syncGbar o) → s.me.id.gang = some g → s.me.ended = false →
     s.release s.me.id.tid o = (s1, true) →
     ((∃ u ∈ s1.teams, u.id.gang = some g ∧ u.ended = false ∧ u.flow.arrived = false) → ∃ t, exec (.syncGbar o) s = .next t ∧
       t.me.flow.arrived = true ∧ t.me.flow.hold = .gbar o ∧ t.teams = s1.teams ∧ t.me.regs = s.me.regs ∧ CtlKept s.me t.me ∧
       (t.me.ctl.pc, t.me.ctl.word) = nextPos s.me ∧ t.mem = s1.mem ∧ t.gangs = s1.gangs) ∧
     ((∀ u ∈ s1.teams, u.id.gang = some g → u.ended = false → u.flow.arrived = true) → ∃ t, exec (.syncGbar o) s = .next t ∧
       t.me.flow.arrived = false ∧ t.me.flow.hold = .none ∧ t.me.regs = s.me.regs ∧ CtlKept s.me t.me ∧
       (t.me.ctl.pc, t.me.ctl.word) = nextPos s.me ∧
       (∀ u ∈ t.teams, u.id.gang = some g → u.ended = false → u.flow.arrived = false ∧ u.flow.hold = .none) ∧
       t.gangs = s1.gangs.map fun x => if x.id = g then { x with gen := x.gen + 1 } else x)) ∧
  (∀ (s : State) (id : Nat), s.groups.find? (·.id == id) = none → exec (.groupDeadline id) s = .next s) ∧
  (∀ (s : State) (g : ActGroup), s.groups.find? (·.id == g.id) = some g → s.poison = [] → g.key + 512 ≤ 2 ^ 64 → Memory.wf s.mem = true →
     ∃ t, exec (.groupDeadline g.id) s = .next t ∧ t.groups = s.groups ∧ t.me = s.me ∧ GroupTest s t s.mem g.ctx g.gen g.key) ∧
  (∀ (s : State) (g : ActGroup) (ns : Nat), s.groups = [g] → s.poison = [] → g.key + 512 ≤ 2 ^ 64 → Memory.wf s.mem = true → 0 < ns →
     (let runs := ∃ q ∈ s.queues, q.id = g.queue ∧ q.resident = true ∧ q.saving = false ∧ s.homeNat (g.key + 104) 10 = q.desc.toNat
      (runs → Wrote s (s.advanceClocks ns) [(g.key + 40, 8, s.homeNat (g.key + 40) 8 + ns)]) ∧
      (¬ runs → (s.advanceClocks ns).mem = s.mem)))

/-- R236, R245, R246, R267, R268: `sync.enq` and the `sync.qctl` words complete wherever the descriptor can be accessed and no L1 holds dirty bytes. Each
qctl form answers the first code of R268 that applies (NOTOWNER, NOTKNOWN or KNOWN, STATE, RANGE, FULL), and then memory and the queues are as before. create
makes the queue known, ACTIVE with its indexes, ecode, drained and eslot 0; stop writes STOPPED and drops the tickets; resume sets rdidx and ticket to s(A)
and ACTIVE and reads the parameters again, and a bundle still being placed keeps no ticket (R269); destroy makes the queue DYING, and of one with no bundle
left drained is 1, ecode DESTROYED, the error signal 1 less, and the queue no longer known.
`sync.enq` answers FOREIGN, NOTKNOWN (also of a DYING queue), EMPTY and FULL with bit 63, and then memory is as before; otherwise the image is in the slot, wridx
has moved on, and the slot is answered. -/
def Obligations.QueueWordsAnswerAndTakeEffect : Prop :=
  (∀ (s s1 : State) (i : Instr) (d : SReg) (a : AReg) (n : SReg) (key loc : Nat), CanQueue s s1 a key loc →
     i = .syncQctlCreate d a ∨ i = .syncQctlStop d a ∨ i = .syncQctlResume d a n ∨ i = .syncQctlDestroy d a → Passes s i →
     (∀ code, QctlCode s key i code → code ≠ 0 → ∃ t, exec i s = .next t ∧ t.mem = s.mem ∧ t.queues = s.queues ∧ t.bundles = s.bundles ∧
       Answers s t s.nextId d (BitVec.ofNat 64 code)) ∧
     (QctlCode s key i 0 → i = .syncQctlCreate d a →
       ∃ t q, exec i s = .next t ∧ Answers s t (s.nextId + 1) d 0 ∧ t.queues = s.queues ++ [q] ∧ q.id = s.nextId ∧
         q.ctx = s.me.id.ctx ∧ q.desc = s.me.a a ∧ q.resident = true ∧ q.served = true ∧ q.tickets = [] ∧ q.next = 0 ∧
         q.lsize = s.homeNat (key + 16) 1 ∧ q.base = BitVec.ofNat 80 (s.homeNat key 10) ∧ q.prio = s.homeNat (key + 18) 1 ∧
         q.spolicy = s.homeNat (key + 19) 1 ∧ q.errsig = BitVec.ofNat 80 (s.homeNat (key + 48) 10) ∧
         q.cmask = BitVec.ofNat 256 (s.homeNat (key + 64) 32) ∧
         Wrote s t [(key + 17, 1, 0), (key + 32, 8, 0), (key + 40, 8, 0), (key + 96, 1, 0), (key + 97, 1, 0), (key + 104, 8, 0)]) ∧
     (∀ q, QctlCode s key i 0 → s.queueAt s.me.id.ctx key = some q →
       (i = .syncQctlStop d a → ∃ t, exec i s = .next t ∧ Answers s t s.nextId d 0 ∧ Wrote s t [(key + 17, 1, 2)] ∧
         t.queues = s.queues.map fun x => if x.id = q.id then { x with tickets := [] } else x) ∧
       (i = .syncQctlResume d a n → ∃ t, exec i s = .next t ∧ Answers s t s.nextId d 0 ∧
         Wrote s t [(key + 32, 8, (s.me.s n).toNat), (key + 40, 8, (s.me.s n).toNat), (key + 17, 1, 0)] ∧
         (∀ x ∈ t.queues, x.id = q.id → x.tickets = [] ∧ x.next = (s.me.s n).toNat ∧ x.served = true ∧ x.lsize = s.homeNat (key + 16) 1 ∧
           x.base = BitVec.ofNat 80 (s.homeNat key 10) ∧ x.prio = s.homeNat (key + 18) 1 ∧ x.spolicy = s.homeNat (key + 19) 1 ∧
           x.errsig = BitVec.ofNat 80 (s.homeNat (key + 48) 10) ∧ x.cmask = BitVec.ofNat 256 (s.homeNat (key + 64) 32)) ∧
         (∀ b ∈ t.bundles, b.queue = q.id → b.phase = 0 → b.late = true)) ∧
       (i = .syncQctlDestroy d a → q.dying = true → ∃ t, exec i s = .next t ∧ Answers s t s.nextId d 0 ∧ t.mem = s.mem ∧ t.queues = s.queues) ∧
       (∀ kv, i = .syncQctlDestroy d a → q.dying = false → (∀ b ∈ s.bundles, b.queue ≠ q.id) → q.saveOps = [] → q.rsmOps = [] →
         (s.queues.map (·.id)).Nodup → DestroyAt s q key kv →
         ∃ t, exec i s = .next t ∧ Answers s t s.nextId d 0 ∧ t.queues = s.queues.filter (·.id != q.id) ∧
           Wrote s t [(key + 17, 1, 3), (key + 97, 1, 1), (key + 96, 1, 4), (kv, 8, (s.homeNat kv 8 + (2 ^ 64 - 1)) % 2 ^ 64)]))) ∧
  (∀ (s : State) (q : Queue) (d : SReg) (a : AReg) (s1 : State) (key loc : Nat), CanQueue s s1 a key loc → Passes s (.syncQctlDestroy d a) →
     QctlCode s key (.syncQctlDestroy d a) 0 → s.queueAt s.me.id.ctx key = some q →
     ∃ t, exec (.syncQctlDestroy d a) s = .next t ∧ ∀ x ∈ t.queues, x.id = q.id → x.dying = true) ∧
  (∀ (s s1 s2 s3 : State) (d : SReg) (a p : AReg) (key loc slot loc2 w : Nat) (ks : List Nat) (image : List Byte),
     Passes s (.syncEnq d a p) → CanQueue s s1 a key loc →
     (s.homeNat (key + 20) 4 ≠ s.me.id.ctx →
       ∃ t, exec (.syncEnq d a p) s = .next t ∧ t.mem = s.mem ∧ Answers s t s.nextId d (BitVec.ofNat 64 (2 ^ 63 + 2))) ∧
     (s.homeNat (key + 20) 4 = s.me.id.ctx → s.queueAt s.me.id.ctx key = none ∨ s.homeNat (key + 17) 1 = 3 →
       ∃ t, exec (.syncEnq d a p) s = .next t ∧ t.mem = s.mem ∧ Answers s t s.nextId d (BitVec.ofNat 64 (2 ^ 63 + 3))) ∧
     (s.clean = [] → s.poison = [] → (∀ k, s.linkDown k = none) → s.homeNat (key + 20) 4 = s.me.id.ctx →
       (s.queueAt s.me.id.ctx key).isSome = true → s.homeNat (key + 17) 1 ≠ 3 → (s.me.a p).toNat % 8 = 0 →
       imageKeys s1 (s.me.a p) [0, 8, 16, 24, 32, 40, 48, 56] = some (ks, s2) → (∀ k ∈ ks, k % 8 = 0) →
       image = (ks.map fun k => s.homeBytes k 8).flatten →
       (fieldAt image 0 1 = 0 →
         ∃ t, exec (.syncEnq d a p) s = .next t ∧ t.mem = s.mem ∧ Answers s t s.nextId d (BitVec.ofNat 64 (2 ^ 63 + 4))) ∧
       (fieldAt image 0 1 ≠ 0 → w = s.homeNat (key + 24) 8 →
         s2.teamReach s2.me .atomic (BitVec.ofNat 80 (s.homeNat key 10 + 64 * w)) 64 = (.ok slot loc2, s3) →
         (s.homeNat slot 8 ≠ 0 →
           ∃ t, exec (.syncEnq d a p) s = .next t ∧ t.mem = s.mem ∧ Answers s t s.nextId d (BitVec.ofNat 64 (2 ^ 63 + 1))) ∧
         (s.homeNat slot 8 = 0 → slot + 64 ≤ key ∨ key + 128 ≤ slot →
           ∃ t, exec (.syncEnq d a p) s = .next t ∧ Answers s t s.nextId d (BitVec.ofNat 64 w) ∧
             Wrote s t [(key + 24, 8, (w + 1) % 2 ^ s.homeNat (key + 16) 1), (slot + 8, 56, leNat (image.drop 8)),
               (slot, 8, leNat (image.take 8))]))))

end
namespace Sys2Proof.Claim
open Sys2Proof Sys2Proof.Machine

/-! ### Events of operations and teams (spec/02 R36, R37; spec/06 R103; spec/08 R155; spec/09 R161; spec/12 R201, R207, R211, R215) -/

/-- The class of the operation that a completion event ends (R161). -/
def completes (tid op : Nat) : Instr → Option OpClass
  | .loadComplete t o => if t = tid ∧ o = op then some .ld else none
  | .storePerformed t o => if t = tid ∧ o = op then some .st else none
  | .atomicPerformed t o => if t = tid ∧ o = op then some .at_ else none
  | .sgOperationPerformed t o => if t = tid ∧ o = op then some .sg else none
  | _ => none

/-- Where a result goes: a lane of a v register, or an s register. -/
def resultPlace : RegWrite → Reg × Nat
  | .v r l _ => (.v r.val, l)
  | .s r _ => (.s r.val, 0)

/-- A result in its place. -/
def Holds (u : Team) : RegWrite → Prop
  | .v r l x => l < (u.v r).length → lane u r l = x
  | .s r x => u.s r = x

/-- A team with a list of results written: the places that the list does not name, and every other register and tag, as they were. -/
structure ResultsWritten (u v : Team) (ws : List RegWrite) : Prop where
  named : (ws.map resultPlace).Nodup → ∀ w ∈ ws, Holds v w
  onV : ∀ (r : VReg) l, (Reg.v r.val, l) ∉ ws.map resultPlace → lane v r l = lane u r l
  len : ∀ r : VReg, (v.v r).length = (u.v r).length
  onS : ∀ r : SReg, (Reg.s r.val, 0) ∉ ws.map resultPlace → v.s r = u.s r
  rest : v.regs = { u.regs with v := v.regs.v, s := v.regs.s, pendV := v.regs.pendV, pendS := v.regs.pendS }

/-- An operation that has completed: done, or retired with no older one of its class outstanding; the others stay (R161). -/
structure CountedOff (u v : Team) (o : Op) : Prop where
  flow : v.flow = { u.flow with ops := v.flow.ops }
  only : ∀ p ∈ v.flow.ops, p ∈ u.flow.ops ∧ p.id ≠ o.id ∨ p = { o with done := true }
  kept : ∀ p ∈ u.flow.ops, p.done = false → p.id ≠ o.id → p ∈ v.flow.ops
  gone : ((u.flow.ops.takeWhile (·.id != o.id)).all (·.cls != o.cls)) = true → ∀ p ∈ v.flow.ops, p.id ≠ o.id

/-- Everything but the teams is as it was. -/
def OnlyTeams (s t : State) : Prop := t = { s with me := t.me, teams := t.teams }

/-- A team with the registers, position, masks and stack depth that a record of an image holds (R335, R336): 512 bytes of state, the scalar section of
its kernel's scalar registers, s63, address and tile registers, the lane sections, the v registers. Every other scalar register is 0 (R58). -/
structure RestoredFrom (u v : Team) (b : List Byte) : Prop where
  pos  : v.ctl.pc.toNat = fieldAt b 0 8 % 2 ^ 62 ∧ v.ctl.word = fieldAt b 0 8 / 2 ^ 62 ∧ v.ctl.stack.length = fieldAt b 12 1 ∧
    v.ctl.srstate.toNat = fieldAt b 24 4
  onS  : ∀ i : Fin 64, (v.s i).toNat = if i.val < u.id.kernel.sregs then fieldAt b (512 + 8 * i.val) 8
    else if i.val = 63 then fieldAt b (512 + 8 * u.id.kernel.sregs) 8 else 0
  onA  : ∀ i : Fin 16, (v.a i).toNat = fieldAt b (1032 + 8 * u.id.kernel.sregs - 512 + 16 * i.val) 10
  onT  : ∀ i : Fin 16, (v.t i).toNat = fieldAt b (1032 + 8 * u.id.kernel.sregs - 256 + 16 * i.val) 16
  onEm : ∀ l, l < 32 * u.id.m → l < 1024 → v.ctl.em.getLsbD l = (fieldAt b (1032 + 8 * u.id.kernel.sregs + 512 * (l / 32)) 4).testBit (l % 32)
  onP  : ∀ (i : PReg) l, i.val < 7 → l < 32 * u.id.m → l < 1024 →
    (v.p i).getLsbD l = (fieldAt b (1032 + 8 * u.id.kernel.sregs + 512 * (l / 32) + 4 + 4 * i.val) 4).testBit (l % 32)
  onV  : ∀ (i : VReg) l, i.val < u.id.kernel.regs → l < 32 * u.id.m →
    (lane v i l).toNat = fieldAt b (1032 + 8 * u.id.kernel.sregs + 512 * u.id.m + 128 * u.id.m * i.val + 4 * l) 4
  tags : ∀ i : VReg, (v.tag i).toNat = fieldAt b 32 32 / 2 ^ (4 * i.val) % 2 ^ 4

/-- The masks of a team's lanes by 32: how many words of them have a lane, and how many lanes there are (R207). -/
def wordsUsed (m : Mask) : Nat := (List.range 32).countP fun w => m.toNat / 2 ^ (32 * w) % 2 ^ 32 != 0
def lanesUsed (m : Mask) : Nat := (List.range 1024).countP m.getLsbD

end Sys2Proof.Claim

section
open Sys2Proof Sys2Proof.Machine Sys2Proof.Claim

/-- R131 to R134: TRANSFORM_PIPE_REPLY serves the oldest request of a core's pipe: the waiting team's destinations take their lanes and tags,
every other register stays, and the team may go on; the other requests keep their order. A reply for a register that a group reconstructs sends the
next of them to the pipe. A reply to the fill path lets the tile's sectors be written.
R36, R37, R161: LOAD_COMPLETE, STORE_PERFORMED, ATOMIC_PERFORMED and SG_OPERATION_PERFORMED end an operation of their class whose results are
fixed: its results are written, its registers are no longer pending, and it retires unless an older operation of its class is outstanding.
An operation of another class, or one that is not ready or is done already, or a team that has no such operation, is left as it is. -/
def Obligations.RepliesWriteTheirResults : Prop :=
  (∀ (s : State) (c : Nat) (q : PipeReq) (rest : List PipeReq), (s.core c).pipe = q :: rest →
     ∃ t, exec (.transformPipeReply c) s = .next t ∧ (∀ x ∈ rest, x ∈ (t.core c).pipe) ∧
       (q.tid = some s.me.id.tid → (q.regs.map (·.1)).Nodup → s.me.flow.hold = .xfrm ∨ s.me.flow.rebuild ≠ [] →
         (∀ x ∈ q.regs, t.me.v x.1 = x.2.1 ∧ t.me.tag x.1 = x.2.2) ∧
         RegsKept s.me t.me (q.regs.map fun x => .v x.1.val) ∧ t.me.ctl = s.me.ctl ∧ SelfKept s.me t.me ∧
         (s.me.flow.rebuild = [] → (t.core c).pipe = rest ∧ t.me.flow = { s.me.flow with hold := .none }) ∧
         (s.me.flow.rebuild ≠ [] → t.me.flow = { s.me.flow with rebuild := s.me.flow.rebuild.tail }) ∧
         (∀ r rs, s.me.flow.rebuild.tail = r :: rs → ∃ x ∈ (t.core s.me.core).pipe, x.tid = some s.me.id.tid ∧ x.regs.map (·.1) = [r])) ∧
       (q.tid = none → t.me = s.me ∧ t.teams = s.teams ∧
         t.copies = s.copies.map fun x =>
           if x.id = q.copy then { x with jobs := x.jobs.map fun j => if j.tile = q.job then { j with piped := false } else j } else x) ∧
       t.mem = s.mem) ∧
  (∀ (s : State) (i : Instr) (tid op : Nat) (cls : OpClass), completes tid op i = some cls →
     (s.team? tid = none → exec i s = .next s) ∧
     ∀ u, s.team? tid = some u →
       (u.flow.ops.find? (·.id == op) = none → exec i s = .next s) ∧
       ∀ o, u.flow.ops.find? (·.id == op) = some o → (u.flow.ops.map (·.id)).Nodup →
         (o.cls ≠ cls ∨ o.ready = false ∧ o.held = none ∨ o.done = true → exec i s = .next s) ∧
         (o.cls = cls → o.ready = true → o.held = none → o.done = false → u.flow.fences = [] → s.images = [] ∨ u.placed = true → ∃ t v, exec i s = .next t ∧ t.team? tid = some v ∧ OnlyTeams s t ∧
           ResultsWritten u v o.writes ∧ CountedOff u v o ∧ v.ctl = u.ctl ∧ SelfKept u v ∧
           (∀ r : VReg, v.regs.pendV.getLsbD r.val = (u.regs.pendV.getLsbD r.val && !o.pv.contains r)) ∧
           (∀ r : SReg, v.regs.pendS.getLsbD r.val = (u.regs.pendS.getLsbD r.val && !o.ps.contains r)) ∧
           (∀ n, n ≠ tid → t.team? n = s.team? n)))

/-- R103, R155, R201, R207, R208, R211, R215: TEAM_SLOT_RELEASE frees the slot of a team that has ended once nothing of it is outstanding, and the last
team of a gang retires its sub-launch. REGATHER notes that the lanes of a team return when its innermost frame is popped, where the team is
diverged, half of the groups of 32 lanes could be freed and nothing of it is pending. TEAM_AGED marks a placed team whose count has reached
AGEIVL. L1_WRITEBACK of a sector that holds no dirty bytes, or pinned ones, changes nothing, and of one whose address can be
stored to writes exactly its bytes at home. EVICTED_TEAM_RESTORE of a team that is not ready, or that finds no room, changes nothing; one ready
team is placed where there is room in its cluster, with the registers that its image holds. -/
def Obligations.TeamEventsTakeEffect : Prop :=
  (∀ (s : State) (tid : Nat),
    (s.team? tid = none → exec (.teamSlotRelease tid) s = .next s ∧ exec (.regather tid) s = .next s ∧ exec (.teamAged tid) s = .next s) ∧
    ∀ u, s.team? tid = some u →
      (u.ended = false ∨ u.quiet = false ∨ u.flow.ops ≠ [] → exec (.teamSlotRelease tid) s = .next s) ∧
      (u.ended = true → u.quiet = true → u.flow.ops = [] → tid ≠ 0 →
        ((∃ v ∈ s.all, v.id.tid ≠ tid ∧ v.id.bundle = u.id.bundle ∧ v.id.sub = u.id.sub ∧ v.id.pool = none) ∨ u.id.bundle = none ∨
          u.id.pool ≠ none) →
        ∃ t, exec (.teamSlotRelease tid) s = .next t ∧ t.team? tid = none ∧ OnlyTeams s t ∧ ∀ n, n ≠ 0 → n ≠ tid → t.team? n = s.team? n) ∧
      (∀ b x y, u.ended = true → u.quiet = true → u.flow.ops = [] → tid ≠ 0 → u.id.bundle = some b → u.id.pool = none →
        (∀ v ∈ s.all, v.id.tid ≠ tid → v.id.bundle = some b → v.id.sub = u.id.sub → v.id.pool ≠ none) → s.bundle? b = some x →
        x.subs[u.id.sub]? = some y → (∃ j z, x.subs[j]? = some z ∧ j ≠ u.id.sub ∧ z.rec_.kind ≠ 2 ∧ z.done = false) →
        ∃ t x', exec (.teamSlotRelease tid) s = .next t ∧ t.team? tid = none ∧ t.bundle? b = some x' ∧
          x'.subs[u.id.sub]? = some { y with done := true } ∧ ∀ j, j ≠ u.id.sub → x'.subs[j]? = x.subs[j]?) ∧
      (u.placed = true → u.isAgent = false → u.sch.aged = none → (s.core u.core).ageivl.toNat ≤ u.sch.age →
        ∃ t, exec (.teamAged tid) s = .next t ∧ OnlyTeams s t ∧ t.team? tid = some { u with sch := { u.sch with aged := some (s.coreCyc u.core) } } ∧
          ∀ n, n ≠ tid → t.team? n = s.team? n) ∧
      (u.sch.age < (s.core u.core).ageivl.toNat → exec (.teamAged tid) s = .next s) ∧
      (u.ctl.stack = [] ∨ u.quiet = false ∨ wordsUsed u.ctl.em < 2 * ((lanesUsed u.ctl.em + 31) / 32) → exec (.regather tid) s = .next s) ∧
      (u.placed = true → u.isAgent = false → u.ended = false → u.ctl.stack ≠ [] → u.quiet = true → u.flow.hold ≠ .xfrm → u.flow.park = none →
        u.flow.group.open_ = false → u.flow.rebuild = [] → 2 * ((lanesUsed u.ctl.em + 31) / 32) ≤ wordsUsed u.ctl.em →
        ∃ t v, exec (.regather tid) s = .next t ∧ OnlyTeams s t ∧ t.team? tid = some v ∧
          v = { u with flow := { u.flow with regath := some (u.ctl.level, (u.ctl.stack.dropWhile (·.sibling)).length) } } ∧ ∀ n, n ≠ tid → t.team? n = s.team? n)) ∧
  (∀ (s : State) (core key : Nat), s.dirtyAt core key = none → exec (.l1Writeback core key) s = .next s) ∧
  (∀ (s : State) (core key : Nat) (d : Dirty), s.dirtyAt core key = some d → d.pinned = true → exec (.l1Writeback core key) s = .next s) ∧
  (∀ (s s1 : State) (core key home loc : Nat) (d : Dirty), s.dirtyAt core key = some d → d.pinned = false → d.ctx ≠ noCtx →
    s.translate (d.core / 8) d.ctx d.gen .store d.va.toNat = (.ok home loc, s1) → home % 32 = 0 → Sound s home 32 →
    Memory.wf s.mem = true → (d.bytes.map (·.1 % 32)).Nodup → ∃ t, exec (.l1Writeback core key) s = .next t ∧ t.dirtyAt core key = none ∧
      (∀ x ∈ d.bytes, t.homeByte (home + x.1 % 32) = x.2) ∧
      ∀ k, (∀ x ∈ d.bytes, k ≠ home + x.1 % 32) → t.homeByte k = s.homeByte k) ∧
  (∀ (s : State) (tid : Nat), (∀ u ∈ s.readyTeams, u.id.tid ≠ tid) → exec (.evictedTeamRestore tid) s = .next s) ∧
  (∀ (s : State) (u : Team) (im : Image) (q : Queue), s.readyTeams = [u] → s.imageOf u.id.tid = some im → u.id.queue.bind s.queue? = some q →
    ((s.evictable q.id) = [] → s.spotFor u [] = none → exec (.evictedTeamRestore u.id.tid) s = .next s) ∧
    (∀ c x k y, s.spotFor u [] = some (c, x, k) → s.liveCtx? im.ctx im.gen = some y → s.imageFault im = none →
      s.team? u.id.tid = some u → ∃ t v, exec (.evictedTeamRestore u.id.tid) s = .next t ∧ t.team? u.id.tid = some v ∧
        v.place = .on c x k ∧ v.id = u.id ∧ v.flow = u.flow ∧ RestoredFrom u v ((s.imageRaw im).map (·.1)) ∧ t.mem = s.mem))

end
namespace Sys2Proof.Claim
open Sys2Proof Sys2Proof.Machine

/-! ### Walks (spec/05 R87 to R92; spec/13 R222 to R232) -/

/-- A core runs a walk. -/
def Runs (s : State) (core : Nat) (e : WalkCore) (w : Walk) : Prop := (s.core core).walk = some e ∧ s.walk? e.walk = some w

/-- A number of `n` bytes at a key, of clean bytes. -/
def CleanNat (s : State) (key n x : Nat) : Prop := Sound s key n ∧ homeWord s key n = x

/-- One element after a K-step (R87): the accumulator plus the exact step sum, modulo 2^32 or rounded once. -/
def kstepRule (isInt : Bool) (acc : Nat) (ps : List (Val × Val)) : Nat :=
  if isInt then (((acc : Int) + (ps.map fun (p : Val × Val) => valInt p.1 * valInt p.2).sum) % 2 ^ 32).toNat
  else fmtF32.rne ((fmtF32.value acc).add (stepSum ps))

/-- What the near-cache adder leaves in an element (R92): the first arrival as it stands, later ones added. -/
def arrivalRule (isInt first : Bool) (old x : Nat) : Nat :=
  if first then x else if isInt then (old + x) % 2 ^ 32 else fmtF32.rne ((fmtF32.value old).add (fmtF32.value x))

/-- A signal that falls by 1, where its address can be reached and its word is clean. -/
def SignalFalls (s t : State) (ctx gen : Nat) (va : W80) : Prop :=
  ∀ key, s.agentKey ctx gen .atomic va = some key → Sound s key 8 → s.linkWaits key = false → Memory.wf s.mem = true →
    t.homeNat key 8 = (s.homeNat key 8 + (2 ^ 64 - 1)) % 2 ^ 64

/-- The events of a walk's engine on a core. -/
def WalkEvent (core slot : Nat) (isB : Bool) (i : Instr) : Prop :=
  i = .kstepBegin core ∨ i = .kstepBoundary core ∨ i = .splitkArrival core slot ∨ i = .streamFillComplete core isB slot ∨
    i = .streamDrainComplete core slot ∨ i = .walkStallReport core

end Sys2Proof.Claim

section
open Sys2Proof Sys2Proof.Machine Sys2Proof.Claim

/-- R224: UPCALL_DELIVERY with an upcall in the pool's FIFO and an idle team of the pool gives the head upcall to the idle team with the lowest
TEAMID: it starts at the pool's entry with every lane, its arguments and its window, and the FIFO loses its head; with no upcall or no idle
team, or on a core with no walk, nothing changes.
R87, R92, R223, R226, R227, R232: on a core with no walk the events of a walk's engine change nothing. KSTEP_BEGIN gives a free array the next
K-step of the earliest-started tile whose operands are ready, and each computed element becomes the accumulator plus the step's exact sum,
rounded once; otherwise it changes nothing. KSTEP_BOUNDARY ends the K-step: the tile's progress rises, and after its last step the part
is due or waits to merge. SPLITK_ARRIVAL of a part that is not the last performs its flush and then counts the arrival. STREAM_FILL_COMPLETE
lays a clean fill in its slot, which is then ready. STREAM_DRAIN_COMPLETE of a tile that is not the last, once every sector of it is written, counts it. WALK_STALL_REPORT reports once
per stall, on the queue's error signal. -/
def Obligations.WalkEventsAndUpcalls : Prop :=
  ((∀ (s : State) (c p : Nat), (s.core c).walk = none → exec (.upcallDelivery c p) s = .next s) ∧
   (∀ (s : State) (c p : Nat) (w0 : WalkCore) (w : Walk), (s.core c).walk = some w0 → s.walk? w0.walk = some w → p < 3 →
     (w0.fifo p = [] ∨ s.idleTeam w.id c p = none → exec (.upcallDelivery c p) s = .next s) ∧
     (∀ x rest, w0.fifo p = x :: rest → s.idleTeam w.id c p = some s.me → w0.stopReq = false → w.err = none →
       (s.core c).dbg = .running → ∃ t w1, exec (.upcallDelivery c p) s = .next t ∧ (t.core c).walk = some w1 ∧ w1.fifo p = rest ∧
         t.me.flow.upcall = some ⟨p, x.slot, x.cslot, x.k, false⟩ ∧ t.me.flow.hold = .none ∧ t.me.ctl.word = 0 ∧ t.me.ctl.stack = [] ∧
         t.me.ctl.pc = (if p = 0 then w.rec_.aentry else if p = 1 then w.rec_.bentry else w.rec_.centry) ∧ t.me.ctl.em = s.me.lanes ∧
         (t.me.s 0).toNat = p + (if x.again then 2 ^ 8 else 0) ∧ t.me.regs.v = s.me.regs.v ∧ t.mem = s.mem))) ∧
  ((∀ (s : State) (core slot : Nat) (isB : Bool), (s.core core).walk = none → ∀ i, WalkEvent core slot isB i → exec i s = .next s) ∧
   (∀ (s : State) (core : Nat) (e : WalkCore) (w : Walk), Runs s core e w →
     (e.array ≠ none ∨ e.stopReq = true ∨ w.err ≠ none ∨ (s.core core).dbg ≠ .running ∨ e.started.find? e.stepReady = none →
       exec (.kstepBegin core) s = .next s) ∧
     (∀ i c sa oa sb ob, e.array = none → e.stopReq = false → w.err = none → (s.core core).dbg = .running →
       e.started.find? e.stepReady = some i → e.cslots[i]? = some c → opSlotOf e.aslots i c.kprog = some (sa, oa) →
       opSlotOf e.bslots i c.kprog = some (sb, ob) → Memory.wf s.mem = true → Sound s (cKey core i 0) 131072 →
       ∃ t e1, exec (.kstepBegin core) s = .next t ∧ (t.core core).walk = some e1 ∧ e1.array = some i ∧
         (∀ row col, row < w.rec_.rowsOf c.trow → col < w.rec_.colsOf c.tcol → row * w.rec_.tileN + col < 32768 →
           (let key := cKey core i (row * w.rec_.tileN + col)
            let j := w.rec_.partLo c.part + c.kprog
            let n := min w.rec_.elems (w.rec_.k - j * w.rec_.elems)
            let a := s.operandRow core false sa row (fmtPart w.rec_.afmt) (modePart w.rec_.afmt) j w.rec_.elems n
            let b := s.operandRow core true sb col (fmtPart w.rec_.bfmt) (modePart w.rec_.bfmt) j w.rec_.elems n
            t.homeNat key 4 = if c.dtag = 0 ∨ c.surv.getLsbD row = true then kstepRule w.rec_.isInt (s.homeNat key 4) (a.zip b)
              else s.homeNat key 4)) ∧
         (∀ k, k < 2 ^ 67 → t.homeByte k = s.homeByte k) ∧ t.me = s.me ∧ t.teams = s.teams)) ∧
   (∀ (s : State) (core : Nat) (e : WalkCore) (w : Walk), Runs s core e w →
     (e.array = none → exec (.kstepBoundary core) s = .next s) ∧
     (∀ i c, e.array = some i → e.cslots[i]? = some c → c.state = 1 → w.err = none → ∃ t e1 c1, exec (.kstepBoundary core) s = .next t ∧
       (t.core core).walk = some e1 ∧ e1.array = none ∧ e1.ksteps = e.ksteps + 1 ∧ e1.lastAdv = s.matCyc core ∧ e1.stalled = false ∧
       e1.stopped = e.stopReq ∧ e1.cslots[i]? = some c1 ∧ c1.kprog = c.kprog + 1 ∧ c1.ksteps = c.ksteps ∧ c1.item = c.item ∧
       c1.state = (if c.kprog + 1 = c.ksteps then (if w.rec_.splitk ≠ 1 then 2 else if w.rec_.csink = 1 then 5 else 3) else 1) ∧
       (e.stopReq = true → ∀ o ∈ e1.aslots ++ e1.bslots, o.taken = true → o.cslot = i → o.k ≠ c.kprog) ∧
       ∀ k, k < 2 ^ 67 → t.homeByte k = s.homeByte k)) ∧
   (∀ (s : State) (core slot : Nat) (e : WalkCore) (w : Walk), Runs s core e w →
     (e.cslots[slot]? = none → exec (.splitkArrival core slot) s = .next s) ∧
     (∀ c, e.cslots[slot]? = some c → (c.state ≠ 2 → exec (.splitkArrival core slot) s = .next s) ∧
       ∀ ks s1 e1 home count, c.state = 2 → c.arrived = false → w.rec_.finish = 0 →
         (let base := w.rec_.region (c.tile w.rec_)
          s.engineKeys (w.client core) e.eng .atomic (pages (w.rec_.regionLen / 4096 + 2) base w.rec_.regionLen) = (some (some ks), s1, e1) ∧
          ∀ va, base ≤ va → va < base + w.rec_.regionLen → keyIn ks va = home + (va - base)) →
         home + w.rec_.regionLen ≤ 2 ^ 64 → CleanNat s home 4 count → count + 1 ≠ w.rec_.splitk → count + 1 < 2 ^ 32 →
         Sound s home w.rec_.regionLen → Sound s (cKey core slot 0) (4 * w.rec_.tileM * w.rec_.tileN) → Memory.wf s.mem = true →
         ∃ t w1, exec (.splitkArrival core slot) s = .next t ∧ t.walk? w.id = some w1 ∧ c.tile w.rec_ ∈ w1.flushed ∧ t.homeNat home 4 = count + 1 ∧
           ∀ row col, row < w.rec_.rowsOf c.trow → col < w.rec_.colsOf c.tcol →
             t.homeNat (home + 64 + 4 * (row * w.rec_.tileN + col)) 4 =
               arrivalRule w.rec_.isInt (!w.flushed.contains (c.tile w.rec_)) (s.homeNat (home + 64 + 4 * (row * w.rec_.tileN + col)) 4)
                 (s.homeNat (cKey core slot (row * w.rec_.tileN + col)) 4))) ∧
   (∀ (s : State) (core slot : Nat) (isB : Bool) (e : WalkCore) (w : Walk) (o : OpSlot) (c : CSlot), Runs s core e w →
     (if isB then e.bslots else e.aslots)[slot]? = some o → e.cslots[o.cslot]? = some c →
     (o.taken = false ∨ o.fill = false ∨ o.ready = true → exec (.streamFillComplete core isB slot) s = .next s) ∧
     (∀ surv rs sc s1 e1, o.taken = true → o.fill = true → o.ready = false → w.err = none →
       (let r := w.rec_
        let k := (r.partLo c.part + o.k) * r.elems
        s.fillRows (w.client core) e.eng (parseTlr (if isB then r.bsnap else r.asnap)) (if isB then c.tcol * r.tileN else c.trow * r.tileM)
          (if isB then r.colsOf c.tcol else r.rowsOf c.trow) k (min r.elems (r.k - k)) = (some (surv, rs, sc), s1, e1)) →
       (let raw := (List.range (if isB then w.rec_.colsOf c.tcol else w.rec_.rowsOf c.trow)).flatMap (slotRow rs sc)
        (∀ x ∈ raw, x.2 = 0) → raw.length ≤ 18432 → slot < 28 → Memory.wf s.mem = true →
        ∃ t e2, exec (.streamFillComplete core isB slot) s = .next t ∧ (t.core core).walk = some e2 ∧
          (if isB then e2.bslots else e2.aslots)[slot]? = some { o with ready := true, taint := false } ∧
          ∀ i, i < raw.length → t.homeByte (opKey core isB slot i) = (raw.getD i (0, 0)).1))) ∧
   (∀ (s : State) (core slot : Nat) (e : WalkCore) (w : Walk) (c : CSlot), Runs s core e w → e.cslots[slot]? = some c →
     (c.state ≠ 5 → exec (.streamDrainComplete core slot) s = .next s) ∧
     (∀ bs gs done s1 e1, c.state = 5 → s.halted core = false → w.err = none → s.drainBytes core slot w.rec_ c = some bs →
       gs = (farSectors bs).filter (fun g => !c.drained.contains g.1) → s.drainSectors w core e.eng gs = (done, false, s1, e1) →
       done.length = gs.length → w.tiles + 1 ≠ w.rec_.tiles → ∃ t w1 e2, exec (.streamDrainComplete core slot) s = .next t ∧ Runs t core e2 w1 ∧ w1.tiles = w.tiles + 1 ∧
         e2.tiles = e.tiles + 1 ∧ (e.stopReq = true → e2.cslots = e.cslots.set slot .free) ∧ t.me = s.me ∧ t.teams = s.teams)) ∧
   (∀ (s : State) (core : Nat) (e : WalkCore) (w : Walk) (q : Queue), Runs s core e w → s.queue? w.queue = some q →
     (w.rec_.stall = 0 ∨ e.hasWork = false ∨ e.stalled = true ∨ w.err ≠ none ∨ q.resident = false ∨ q.saving = true ∨
       (s.core core).dbg ≠ .running ∨ s.matCyc core < e.lastAdv + w.rec_.stall → exec (.walkStallReport core) s = .next s) ∧
     (w.rec_.stall ≠ 0 → e.hasWork = true → e.stalled = false → w.err = none → q.resident = true → q.saving = false →
       (s.core core).dbg = .running → e.lastAdv + w.rec_.stall ≤ s.matCyc core → ∃ t, exec (.walkStallReport core) s = .next t ∧
         (t.core core).walk = some { e with stalls := e.stalls + 1, stalled := true } ∧ SignalFalls s t q.ctx q.gen q.errsig ∧
         t.me = s.me ∧ t.teams = s.teams)))

end
namespace Sys2Proof.Claim
open Sys2Proof Sys2Proof.Machine

/-! ### Queues and bundles (spec/14 R236 to R248; spec/16 R269; spec/23 R330, R331; spec/24 R343) -/

/-- Where the agents reach a queue: its descriptor, the slot of its next ticket, and a signal, in clean memory and apart. -/
structure QueueAt (s : State) (q : Queue) (sig : W80) (kd ks kv : Nat) : Prop where
  wf    : Memory.wf s.mem = true
  desc  : ∀ off, off < 128 →
    Steady s (fun a => Within kd 128 a ∨ Within ks 64 a ∨ Within kv 8 a) q.ctx q.gen .store (q.desc + BitVec.ofNat 80 off) (kd + off)
  slot  : Steady s (fun a => Within kd 128 a ∨ Within ks 64 a ∨ Within kv 8 a) q.ctx q.gen .store (q.slotVa q.next) ks
  sigAt : Steady s (fun a => Within kd 128 a ∨ Within ks 64 a ∨ Within kv 8 a) q.ctx q.gen .atomic sig kv
  apart : ∀ a, ¬ (Within kd 128 a ∧ Within ks 64 a) ∧ ¬ (Within kd 128 a ∧ Within kv 8 a) ∧ ¬ (Within ks 64 a ∧ Within kv 8 a)
  sound : Sound s kd 128 ∧ Sound s ks 64 ∧ Sound s kv 8
  line  : kd % 128 = 0 ∧ ks % 64 = 0 ∧ kv % 8 = 0
  links : s.linkWaits kv = false

/-- A packet rejected with a code (R245): the queue is in ERROR with its code and slot, holds no ticket, and its error signal fell by 1. -/
def Rejected (s t : State) (q : Queue) (kd kv code : Nat) : Prop :=
  t.homeNat (kd + 17) 1 = 1 ∧ t.homeNat (kd + 96) 1 = code ∧ t.homeNat (kd + 104) 8 = q.next % 2 ^ q.lsize % 2 ^ 64 ∧
  t.homeNat kv 8 = (s.homeNat kv 8 + (2 ^ 64 - 1)) % 2 ^ 64 ∧
  (∀ a, a ≠ kd + 17 → a ≠ kd + 96 → ¬ Within (kd + 104) 8 a → ¬ Within kv 8 a → t.homeByte a = s.homeByte a) ∧
  t.queues = s.queues.map fun x => if x.id = q.id then { x with tickets := [] } else x

/-- A packet dispatched (R239): its header is 0 again, rdidx moved on, its ticket gone, and the queue's next ticket follows. -/
def Dispatched (s t : State) (q : Queue) (kd ks : Nat) : Prop :=
  t.homeNat ks 8 = 0 ∧ t.homeNat (kd + 32) 8 = (q.next + 1) % 2 ^ q.lsize % 2 ^ 64 ∧
  t.queues = s.queues.map fun x => if x.id = q.id then
    { x with tickets := x.tickets.filter (·.2 != q.next), next := if x.next = q.next then q.next + 1 else x.next, progress := true }
    else x

/-- The events of a queue's agents. -/
def QueueEvent (q core : Nat) (i : Instr) : Prop :=
  i = .ticketClaim q core ∨ i = .packetDispatch q ∨ i = .placementRetry q ∨ i = .placementPressurePreempt q ∨ i = .waitSignalsDispatch q ∨
    i = .signalPacketPerform q ∨ i = .preemptSaveComplete q ∨ i = .drainLimitExpiry q ∨ i = .queueAutoResume q

/-- The start time of a bundle placed now (R243): a microsecond later, or its own where its policy asks and it is later. -/
def startRule (policy start now : Nat) : Nat :=
  if policy = 0 ∨ start = 0 then now + 1000 else if policy = 1 then max start (now + 1000) else start

end Sys2Proof.Claim

section
open Sys2Proof Sys2Proof.Machine Sys2Proof.Claim

/-- R239, R240, R242, R243, R245, R247, R248: events of queues. For a queue that the agents do not know, nothing changes. TICKET_CLAIM gives a core
without a ticket the queue's ticket counter and raises it by 1; a descriptor that does not translate ends the queue's service. PACKET_DISPATCH rejects
a bad slot, header or signal, dispatches a nop, and leaves a packet that waits. WAIT_SIGNALS_DISPATCH dispatches once every signal is at most 0;
SIGNAL_PACKET_PERFORM adds and dispatches. PLACEMENT_RETRY waits for its back-off; then a bundle that the plan can place is placed, with its start
time, or under `strict` with its start time past aborted, and one that it cannot place waits twice as long, at most 64 microseconds. BUNDLE_START
makes the teams of a placed bundle eligible at its start time. QUEUE_STALL_CHECK reports a stuck queue once. Which core and time an event comes at,
and the plan's search, are the model's (logs 1, 22). -/
def Obligations.QueueEventsServeTheQueue : Prop :=
  (∀ (s : State) (q core : Nat) (i : Instr), s.queue? q = none → QueueEvent q core i → exec i s = .next s) ∧
  (∀ (s : State) (x : Queue) (core key : Nat), s.queue? x.id = some x →
    (s.descGet x 17 1 ≠ none → core ∉ s.coresOf x ∨ (∃ p ∈ x.tickets, p.1 = core) → exec (.ticketClaim x.id core) s = .next s) ∧
    (s.descGet x 17 1 = none → ∀ i, i = .ticketClaim x.id core ∨ i = .packetDispatch x.id →
      exec i s = .next { s with queues := s.queues.map fun y => if y.id = x.id then { y with served := false } else y }) ∧
    (s.serving x = true → core ∈ s.coresOf x → (∀ p ∈ x.tickets, p.1 ≠ core) → s.agentKey x.ctx x.gen .atomic (x.desc + 40) = some key →
      Sound s key 8 → Memory.wf s.mem = true → ∃ t, exec (.ticketClaim x.id core) s = .next t ∧
        t.homeNat key 8 = (s.homeNat key 8 + 1) % 2 ^ 64 ∧ (∀ a, ¬ Within key 8 a → t.homeByte a = s.homeByte a) ∧
        t.queues = s.queues.map fun y => if y.id = x.id then { y with tickets := y.tickets ++ [(core, s.homeNat key 8)] } else y)) ∧
  (∀ (s : State) (x : Queue) (kd ks kv : Nat), s.queue? x.id = some x →
    (s.head x = .wait → exec (.packetDispatch x.id) s = .next s) ∧
    (s.head x = .idle → s.descGet x 17 1 ≠ none → exec (.packetDispatch x.id) s = .next s) ∧
    (∀ code, s.head x = .bad code → QueueAt s x x.errsig kd ks kv → ∃ t, exec (.packetDispatch x.id) s = .next t ∧ Rejected s t x kd kv code) ∧
    (∀ b sig, s.head x = .packet b → QueueAt s x sig kd ks kv → (fieldAt b 0 1 = 1 → ∃ t, exec (.packetDispatch x.id) s = .next t ∧ Dispatched s t x kd ks)) ∧
    (∀ b, s.head x = .packet b → fieldAt b 0 1 = 3 → (waitSigs b).all (s.signalOk x.ctx x.gen) = true →
      exec (.packetDispatch x.id) s = .next s ∧
      ((waitSigs b).all (s.signalLow x) = false → exec (.waitSignalsDispatch x.id) s = .next s) ∧
      (∀ sig, (waitSigs b).all (s.signalLow x) = true → QueueAt s x sig kd ks kv →
        ∃ t, exec (.waitSignalsDispatch x.id) s = .next t ∧ Dispatched s t x kd ks)) ∧
    (∀ b va, s.head x = .packet b → fieldAt b 0 1 = 4 → va = BitVec.ofNat 80 (fieldAt b 8 10) → s.signalOk x.ctx x.gen va = true →
      exec (.packetDispatch x.id) s = .next s ∧ exec (.waitSignalsDispatch x.id) s = .next s ∧
      (QueueAt s x va kd ks kv → ∃ t, exec (.signalPacketPerform x.id) s = .next t ∧ Dispatched s t x kd ks ∧
        t.homeNat kv 8 = (s.homeNat kv 8 + fieldAt b 24 8) % 2 ^ 64)) ∧
    (∀ b, s.head x = .packet b → QueueAt s x x.errsig kd ks kv →
      (fieldAt b 0 1 = 2 ∧ (BitVec.ofNat 80 (fieldAt b 16 10) ::
          s.recSignals x (s.chain x (2 ^ 80) [] (fieldAt b 32 10)).1).all (s.signalOk x.ctx x.gen) = false ∨
        fieldAt b 0 1 = 3 ∧ (waitSigs b).all (s.signalOk x.ctx x.gen) = false ∨
        fieldAt b 0 1 = 4 ∧ s.signalOk x.ctx x.gen (BitVec.ofNat 80 (fieldAt b 8 10)) = false) →
      ∃ t, exec (.packetDispatch x.id) s = .next t ∧ Rejected s t x kd kv 5) ∧
    (∀ b, s.head x = .packet b → fieldAt b 0 1 ≠ 4 → exec (.signalPacketPerform x.id) s = .next s)) ∧
  (∀ (s : State) (x : Queue) (b : Bundle), s.queue? x.id = some x → s.placing x.id = [b] → s.bundle? b.id = some b →
    (s.timeB < b.nextTry ∨ x.resident = false ∨ x.saving = true ∨ x.dying = true → exec (.placementRetry x.id) s = .next s) ∧
    (b.nextTry ≤ s.timeB → x.resident = true → x.saving = false → x.dying = false → s.readyTeams = [] →
      (s.plan x b none [] = none → s.evictable x.id = [] → ∃ t, exec (.placementRetry x.id) s = .next t ∧
        t = { s with bundles := t.bundles } ∧ t.bundle? b.id =
          (let n := if b.backoff = 0 then 1000 else min 64000 (2 * b.backoff)
           some { b with backoff := n, nextTry := s.timeB + n, since := if b.backoff = 0 then s.timeB else b.since })) ∧
      (∀ ps o, s.plan x b none [] = some (ps, o) → (x.spolicy = 2 → b.start = 0 ∨ s.timeB ≤ b.start.toNat) →
        ∃ t y, exec (.placementRetry x.id) s = .next t ∧ t.bundle? b.id = some y ∧ y.phase = 1 ∧ y.placedAt = s.timeB ∧
          y.startAt = startRule x.spolicy b.start.toNat s.timeB ∧ y.signal = b.signal ∧ y.ticket = b.ticket) ∧
      (∀ ps o kd ks kv, s.plan x b none [] = some (ps, o) → x.spolicy = 2 → b.start ≠ 0 → b.start.toNat < s.timeB → b.late = false →
        b.ticket = x.next → QueueAt s x b.signal kd ks kv → ∃ t, exec (.placementRetry x.id) s = .next t ∧
          t.bundles = s.bundles.filter (fun y => y.id ≠ b.id) ∧ Dispatched s t x kd ks ∧ t.me = s.me ∧ t.teams = s.teams ∧
          t.homeNat kv 8 = (s.homeNat kv 8 + (2 ^ 64 - 1)) % 2 ^ 64 ||| 2 ^ 63))) ∧
  (∀ (s : State) (b : Nat), s.bundle? b = none → exec (.bundleStart b) s = .next s) ∧
  (∀ (s : State) (x : Bundle) (q : Queue), s.bundle? x.id = some x → s.queue? x.queue = some q →
    (x.phase ≠ 1 ∨ q.resident = false ∨ q.saving = true ∨ s.timeB < x.startAt → exec (.bundleStart x.id) s = .next s) ∧
    (x.phase = 1 → q.resident = true → q.saving = false → x.startAt ≤ s.timeB → (∀ w ∈ s.walks, w.bundle ≠ x.id) →
      (∀ y ∈ x.subs, y.rec_.kind ≠ 3) → (∃ y ∈ x.subs, y.rec_.kind ≠ 2 ∧ y.done = false) →
      ∃ t, exec (.bundleStart x.id) s = .next t ∧ t.bundle? x.id = some { x with
          phase := 2
          started := s.mem
          subs := x.subs.map fun y => { y with started := true } } ∧
        (let go := fun u : Team => if u.id.bundle = some x.id ∧ u.flow.hold = .unstarted then
            { u with flow := { u.flow with hold := if u.id.pool = none then .none else .poolIdle } } else u
         t.me = go s.me ∧ t.teams = s.teams.map go) ∧ t.mem = s.mem ∧ t.cores = s.cores)) ∧
  (∀ (s : State),
    ((s.cyc - s.lastStall) * 5 < s.stallivl.toNat * 12 → exec .queueStallCheck s = .next s) ∧
    (s.stallivl.toNat * 12 ≤ (s.cyc - s.lastStall) * 5 → s.queues = [] → exec .queueStallCheck s = .next { s with lastStall := s.cyc }) ∧
    (∀ q kd ks kv, s.stallivl.toNat * 12 ≤ (s.cyc - s.lastStall) * 5 → s.queues = [q] → q.resident = true → q.saving = false →
      s.stuckQueue q = true → q.reported = false → QueueAt s q q.errsig kd ks kv →
      ∃ t, exec .queueStallCheck s = .next t ∧ t.lastStall = s.cyc ∧ t.queues = [{ q with progress := false, reported := true }] ∧
        t.homeNat (kd + 96) 1 = 3 ∧ t.homeNat kv 8 = (s.homeNat kv 8 + (2 ^ 64 - 1)) % 2 ^ 64) ∧
    (∀ q, s.stallivl.toNat * 12 ≤ (s.cyc - s.lastStall) * 5 → s.queues = [q] → q.resident = true → q.saving = false →
      s.stuckQueue q = true → q.reported = true →
      exec .queueStallCheck s = .next { s with lastStall := s.cyc, queues := [{ q with progress := false }] }))

/-- R242, R312, R330, R331, R343: PLACEMENT_PRESSURE_PREEMPT changes nothing within 50 microseconds of the first failure, where no queue can be
chosen, or where the bundle's own queue is away; otherwise the chosen queue's save begins, with 20 microseconds for work that drains, and the bundle
remembers that it displaced it. A queue of a bundle that has displaced another is never chosen for that one (log 21 holds the choice). DRAIN_LIMIT_EXPIRY ends that time.
PREEMPT_SAVE_COMPLETE waits until everything of the queue has stopped; then the queue is no longer resident. QUEUE_AUTO_RESUME makes a queue
resident again once the bundle that displaced it has retired. -/
def Obligations.PreemptionEventsSaveAndResume : Prop :=
  (∀ (s : State) (x : Queue), s.queue? x.id = some x → s.placing x.id = [] ∨ x.resident = false ∨ x.saving = true →
    exec (.placementPressurePreempt x.id) s = .next s) ∧
  (∀ (s : State) (x : Queue) (b : Bundle), s.queue? x.id = some x → s.placing x.id = [b] → s.bundle? b.id = some b →
    (b.backoff = 0 ∨ s.timeB < b.since + 50000 ∨ s.victim x b = none → exec (.placementPressurePreempt x.id) s = .next s) ∧
    (∀ y, s.victim x b = some y → y ∈ s.queues ∧ y.id ≠ x.id ∧ y.resident = true ∧ y.saving = false ∧ y.prio < x.prio ∧
      ∀ z ∈ s.bundles, z.queue = y.id → x.id ∉ z.victims) ∧
    (∀ y, b.backoff ≠ 0 → b.since + 50000 ≤ s.timeB → x.resident = true → x.saving = false →
      (∀ z ∈ s.queues, z.victimOf = some b.id → z.saving = false) →
      (s.evictSet x.id fun gone => (s.plan x b none gone).isSome) = none → s.victim x b = some y →
      ∃ t z, exec (.placementPressurePreempt x.id) s = .next t ∧ t.queue? y.id = some z ∧ z.saving = true ∧ z.victimOf = some b.id ∧
        z.drainBy = some (s.timeB + 20000) ∧ t.bundle? b.id = some { b with victims := y.id :: b.victims } ∧
        t.me = s.me ∧ t.teams = s.teams ∧ t.mem = s.mem)) ∧
  (∀ (s : State) (x : Queue), s.queue? x.id = some x →
    (x.saving = false ∨ x.drainBy = none ∨ (∃ t, x.drainBy = some t ∧ s.timeB < t) → exec (.drainLimitExpiry x.id) s = .next s) ∧
    (∀ t, x.saving = true → x.drainBy = some t → t ≤ s.timeB → exec (.drainLimitExpiry x.id) s = .next
      { s with queues := s.queues.map fun y => if y.id = x.id then { y with drainBy := none } else y }) ∧
    (s.saveReady x = false → exec (.preemptSaveComplete x.id) s = .next s) ∧
    (s.saveReady x = true → x.rsmOps = [] → ∃ t y, exec (.preemptSaveComplete x.id) s = .next t ∧ t.queue? x.id = some y ∧
      y.resident = false ∧ y.saving = false ∧ y.drainBy = none ∧ y.saveOps = [] ∧
      (s.placedOf x.id = [] → s.walksOf x.id = [] → x.saveOps = [] → t = { s with queues := t.queues })) ∧
    (x.victimOf = none ∨ x.resident = true ∨ x.saving = true ∨ x.dying = true → exec (.queueAutoResume x.id) s = .next s) ∧
    (∀ b y, x.victimOf = some b → s.bundle? b = some y → exec (.queueAutoResume x.id) s = .next s) ∧
    (∀ b, x.victimOf = some b → s.bundle? b = none → x.resident = false → x.saving = false → x.dying = false →
      (∀ im ∈ s.images, im.kind = 0 → im.queue ≠ x.id) → ∃ t y, exec (.queueAutoResume x.id) s = .next t ∧ t.queue? x.id = some y ∧
        y.resident = true ∧ y.victimOf = none ∧ t.me = s.me ∧ t.teams = s.teams ∧ t.mem = s.mem))

end
namespace Sys2Proof.Claim
open Sys2Proof Sys2Proof.Machine

/-! ### The host, remote devices, the debugger (spec/08 R156, R157; spec/18 R283, R285, R287; spec/20 R301, R304, R305; spec/23 R340) -/

/-- Bytes stored at home from a key on: they are read back, every other byte is as it was. -/
def StoredAt (s t : State) (key : Nat) (bs : List Byte) : Prop :=
  (∀ i, i < bs.length → t.homeByte (key + i) = bs.getD i 0) ∧ ∀ a, ¬ (key ≤ a ∧ a < key + bs.length) → t.homeByte a = s.homeByte a

/-- A report held last, with no log ring and room. -/
def ReportHeld (s t : State) (kind unit index addr : Nat) : Prop :=
  s.io.logbase = 0 → s.io.heldReports < 256 →
    ∃ r, t.io.held = s.io.held ++ [.report r] ∧ r.kind = kind ∧ r.unit = unit ∧ r.index = index ∧ r.addr = addr

/-- The state of the Floe port that leads to a device. -/
def portState (s : State) (dev : Nat) : Nat := (s.links[(Config.portOf dev).val]'(by omega)).state

/-- The bytes of a remote atomic (R178, R179, R181). -/
def atomicBytes (op : RemoteOp) (w : AtWidth) : Nat :=
  match op, w with
  | .addF, _ | .maxF, _ | _, .w32 => 4
  | _, .w64 => 8

/-- The new value of a remote atomic, from its width in bits, its operand, the old value and the second operand (R178, R181). -/
def remoteRule (op : RemoteOp) (w x old y : Nat) : Nat :=
  match op with
  | .add => (old + x) % 2 ^ w
  | .sub => (2 ^ w + old - x) % 2 ^ w
  | .addF => sumRule fmtF32 old x 0
  | .maxF => minmaxRule fmtF32 true old x
  | .min => min old x
  | .max => max old x
  | .minn => if (old + 2 ^ (w - 1)) % 2 ^ w ≤ (x + 2 ^ (w - 1)) % 2 ^ w then old else x
  | .maxn => if (old + 2 ^ (w - 1)) % 2 ^ w ≤ (x + 2 ^ (w - 1)) % 2 ^ w then x else old
  | .and => old &&& x
  | .or => old ||| x
  | .xor => old ^^^ x
  | .xchg => x
  | .cas => if old = x then y else old

/-- A write of a register by the host: of the device registers what the table says, with held records written where a ring register
makes room; DBGCTL of a core (R301, R304, R305). Registers that the host may not write stay. -/
def hostRule (s : State) (n : Nat) (core : Nat) (x : W64) (t : State) : Prop :=
  (n = 0x0301 → t = { s with pwrlim := if x.toNat < 1800 then 1800 else if x.toNat ≤ 3000 then x else 3000 }) ∧
  (n = 0x0302 → t.io.prqbase = x ∧ (s.io.heldReq = [] → t = { s with io := { s.io with prqbase := x } })) ∧
  (n = 0x0303 → t.io.prqlog = x ∧ (s.io.heldReq = [] → t = { s with io := { s.io with prqlog := x } })) ∧
  (n = 0x0304 → t.io.prqhead = x ∧ (s.io.heldReq = [] → t = { s with io := { s.io with prqhead := x } })) ∧
  (n = 0x0305 → t = { s with io := { s.io with prabase := x } }) ∧
  (n = 0x0306 → t = { s with io := { s.io with pralog := x } }) ∧
  (n = 0x0307 → t = { s with io := { s.io with prawr := x } }) ∧
  (n = 0x0308 → t.io.logbase = x ∧ (s.io.held = [] → t = { s with io := { s.io with logbase := x } })) ∧
  (n = 0x0309 → t.io.logsize = x ∧ (s.io.held = [] → t = { s with io := { s.io with logsize := x } })) ∧
  (n = 0x030A → t.io.loghead = x ∧ (s.io.held = [] → t = { s with io := { s.io with loghead := x } })) ∧
  (n = 0x030B → t = { s with ptpcfg := BitVec.ofNat 64 (x.toNat % 2 ^ 11) }) ∧
  (n = 0x0201 → x.getLsbD 2 = false → x.getLsbD 3 = false →
    t = { s with cores := t.cores } ∧ (∀ c, c % 256 ≠ core % 256 → t.core c = s.core c) ∧
    t.core core = { s.core core with brken := x.getLsbD 0, attach := x.getLsbD 1 }) ∧
  (n ≠ 0x0201 → n < 0x0301 ∨ 0x030B < n → t = s)

/-- The registers that the events of the host write. -/
def hostEvent (i : Instr) : Option (Nat × Nat × W64) :=
  match i with
  | .pwrlimWrite x => some (0x0301, 0, x)
  | .prqheadWrite x => some (0x0304, 0, x)
  | .prawrWrite x => some (0x0307, 0, x)
  | .logheadWrite x => some (0x030A, 0, x)
  | .ringBaseWrite n x => if n = 0x0302 ∨ n = 0x0305 ∨ n = 0x0308 then some (n.toNat, 0, x) else none
  | .registerWrite n core x => some (n.toNat, core, x)
  | _ => none

/-- The next answer of the answer ring: its bytes (R305). -/
def answerBytes (s : State) : List Byte := s.homeBytes (s.io.prabase.toNat + 16 * (s.io.taken % 2 ^ s.io.pralog.toNat)) 16

/-- An answer counted as late in its context (R285). -/
def LateCounted (s t : State) (ctx : Nat) : Prop :=
  t.ctxs = s.ctxs.map fun c => if c.id = ctx then { c with lateans := (c.lateans + 1) % 2 ^ 32 } else c

end Sys2Proof.Claim

section
open Sys2Proof Sys2Proof.Machine Sys2Proof.Claim

/-- R156, R157, R179, R287: HOST_STORE, HOST_LOAD and REMOTE_REQUEST act once the device is up, where their link is up. A host store of device memory
is performed at home and acknowledged; a host load of device memory answers its bytes. A request of a remote device on a frame that is exported
to it is performed and answered, every atomic with the old value; on any other frame it is refused and changes nothing. Over a link that retrains
nothing happens yet; over one that is DOWN a store is dropped, a load answers all-ones, and the link is reported (log 23). FRAME_EXPORT adds one
frame for one device. -/
def Obligations.HostAndRemoteRequestsAtHome : Prop :=
  (∀ (s : State) (pa n dev : Nat) (bs : List Byte), s.boot ≠ .up →
    exec (.hostStore pa bs) s = .next s ∧ exec (.hostLoad pa n) s = .next s ∧ exec (.frameExport pa dev) s = .next s) ∧
  (∀ (s : State) (pa : Nat) (bs : List Byte), s.boot = .up → s.links[32].state = 1 → (∀ a, pa ≤ a → a < pa + bs.length → s.isDevice a = true) → pa + bs.length ≤ 2 ^ 64 →
    Sound s pa bs.length → Memory.wf s.mem = true → ∃ t, exec (.hostStore pa bs) s = .next t ∧ StoredAt s t pa bs ∧
      t.outside.acked = s.outside.acked + 1 ∧ t.me = s.me ∧ t.teams = s.teams) ∧
  (∀ (s : State) (pa n : Nat) (bs : List Byte), s.boot = .up → 1 < s.links[32].state →
    exec (.hostStore pa bs) s = .next s ∧ exec (.hostLoad pa n) s = .next s) ∧
  (∀ (s : State) (pa n : Nat) (bs : List Byte), s.boot = .up → s.links[32].state = 0 →
    (∃ t, exec (.hostStore pa bs) s = .next t ∧ ReportHeld s t 3 5 0 pa ∧ t.outside = s.outside ∧ (s.io.logbase = 0 → t.mem = s.mem)) ∧
    (s.deviceRange pa n = true → ∃ t, exec (.hostLoad pa n) s = .next t ∧ ReportHeld s t 3 5 0 pa ∧
      t.outside.hostData = List.replicate n 0xFF ∧ (s.io.logbase = 0 → t.mem = s.mem))) ∧
  (∀ (s : State) (pa n : Nat), s.boot = .up → s.links[32].state = 1 → s.deviceRange pa n = true → Sound s pa n → (∀ p ∈ s.poison, p + 32 ≤ pa ∨ pa + n ≤ p) →
    ∃ t, exec (.hostLoad pa n) s = .next t ∧ t.outside.hostData = (List.range n).map (fun i => s.homeByte (pa + i)) ∧
      t = { s with outside := t.outside }) ∧
  (∀ (s : State) (dev pa : Nat) (k : RemoteKind), s.boot ≠ .up ∨ portState s dev = 1 ∧ s.exported dev pa (remoteBytes k) = false →
    ∃ t, exec (.remoteRequest dev pa k) s = .next t ∧ t.outside.remoteOk = false ∧ t = { s with outside := t.outside }) ∧
  (∀ (s : State) (dev pa : Nat) (k : RemoteKind), s.boot = .up →
    (1 < portState s dev → exec (.remoteRequest dev pa k) s = .next s) ∧
    (portState s dev = 0 → ∃ t, exec (.remoteRequest dev pa k) s = .next t ∧ ReportHeld s t 3 4 (Config.portOf dev).val pa ∧
      t.outside.remoteData = (match k with | .store _ => [] | .load n => List.replicate n 0xFF | .atomic op w _ _ => List.replicate (atomicBytes op w) 0xFF) ∧
      (s.io.logbase = 0 → t.mem = s.mem))) ∧
  (∀ (s : State) (dev pa n : Nat), s.boot = .up → portState s dev = 1 → s.exported dev pa n = true → Sound s pa n → (∀ p ∈ s.poison, p + 32 ≤ pa ∨ pa + n ≤ p) →
    ∃ t, exec (.remoteRequest dev pa (.load n)) s = .next t ∧ t.outside.remoteOk = true ∧
      t.outside.remoteData = (List.range n).map (fun i => s.homeByte (pa + i)) ∧ t = { s with outside := t.outside }) ∧
  (∀ (s : State) (dev pa : Nat) (bs : List Byte), s.boot = .up → portState s dev = 1 → s.exported dev pa bs.length = true → Sound s pa bs.length →
    Memory.wf s.mem = true → ∃ t, exec (.remoteRequest dev pa (.store bs)) s = .next t ∧ t.outside.remoteOk = true ∧ StoredAt s t pa bs) ∧
  (∀ (s : State) (dev pa n : Nat) (op : RemoteOp) (w : AtWidth) (x y : W64), s.boot = .up → portState s dev = 1 → n = atomicBytes op w →
    s.exported dev pa n = true → Sound s pa n → Memory.wf s.mem = true →
    ∃ t, exec (.remoteRequest dev pa (.atomic op w x y)) s = .next t ∧ t.outside.remoteOk = true ∧
      t.outside.remoteData = leBytes n (s.homeNat pa n) ∧
      StoredAt s t pa (leBytes n (remoteRule op (8 * n) (x.toNat % 2 ^ (8 * n)) (s.homeNat pa n) (y.toNat % 2 ^ (8 * n))))) ∧
  (∀ (s : State) (pa dev : Nat), s.boot = .up → ∃ t, exec (.frameExport pa dev) s = .next t ∧ t = { s with exports := t.exports } ∧
    ∀ f d, (f, d) ∈ t.exports ↔ (f, d) ∈ s.exports ∨ f = pa / 4096 ∧ d = dev)

/-- R298, R301, R304, R305, R340: the writes of the host set the registers that the table lets it write and no other. DBGCTL_HALTREQ puts a running
core in HALTED_BUSY, DBGCTL_RESUME puts a halted core in RUNNING, DEBUG_HALT_QUIET takes HALTED_BUSY to HALTED_QUIET once every request of the
core has completed. PAGE_ANSWER takes the next answer of the ring: of an entry that is waited for with RETRY or FAIL it frees the entry, and the lanes
parked on it are tried again or have failed while others stay parked; any other answer is discarded and counted, and one for a context that is no
longer live frees its entry. -/
def Obligations.HostRegistersAndAnswers : Prop :=
  (∀ (s : State) (i : Instr) (n core : Nat) (x : W64), hostEvent i = some (n, core, x) → ∃ t, exec i s = .next t ∧ hostRule s n core x t) ∧
  (∀ (s : State) (n : BitVec 16) (x : W64), n ≠ 0x0302 → n ≠ 0x0305 → n ≠ 0x0308 → exec (.ringBaseWrite n x) s = .next s) ∧
  (∀ (s : State) (c : Nat),
    ((s.core c).dbg = .running → ∃ t, exec (.dbgctlHaltreq c) s = .next t ∧ (t.core c).dbg = .haltedBusy ∧ t.mem = s.mem ∧ t.me.regs = s.me.regs ∧
      t.me.ctl = s.me.ctl ∧ ∀ d, d % 256 ≠ c % 256 → t.core d = s.core d) ∧
    ((s.core c).dbg ≠ .running → exec (.dbgctlHaltreq c) s = .next s) ∧
    ((s.core c).dbg = .running → exec (.dbgctlResume c) s = .next s) ∧
    ((s.core c).dbg ≠ .running → ∃ t, exec (.dbgctlResume c) s = .next t ∧ (t.core c).dbg = .running ∧
      ((s.core c).walk = none → t = { s with cores := t.cores } ∧ ∀ d, d % 256 ≠ c % 256 → t.core d = s.core d)) ∧
    ((s.core c).dbg ≠ .haltedBusy ∨ s.coreQuiet c = false → exec (.debugHaltQuiet c) s = .next s) ∧
    ((s.core c).dbg = .haltedBusy → s.coreQuiet c = true → ∃ t, exec (.debugHaltQuiet c) s = .next t ∧ t = { s with cores := t.cores } ∧
      t.core c = { s.core c with dbg := .haltedQuiet } ∧ ∀ d, d % 256 ≠ c % 256 → t.core d = s.core d)) ∧
  (∀ (s : State),
    (s.io.prabase = 0 ∨ s.io.prawr.toNat ≤ s.io.taken → exec .pageAnswer s = .next s) ∧
    (s.io.prabase ≠ 0 → s.io.taken < s.io.prawr.toNat → ∃ t, exec .pageAnswer s = .next t ∧ t.io.taken = s.io.taken + 1 ∧
      ((∀ u ∈ s.all, u.placed = true ∨ u.flow.park = none) → t.io = { s.io with taken := s.io.taken + 1 } ∧ t.mem = s.mem) ∧
      (let b := answerBytes s
       let mine := fun e : Merge => e.die = fieldAt b 2 1 ∧ e.mte = fieldAt b 0 2 ∧ e.ctx = fieldAt b 4 4 ∧ e.gen = fieldAt b 8 4
       ((∀ e ∈ s.merges, ¬ mine e) ∨ 1 < fieldAt b 3 1 → LateCounted s t (fieldAt b 4 4) ∧ t.merges = s.merges ∧ t.me = s.me ∧ t.teams = s.teams) ∧
       (∀ e ∈ s.merges, mine e → (∀ f ∈ s.merges, mine f → f = e) → fieldAt b 3 1 ≤ 1 → s.liveCtx? (fieldAt b 4 4) (fieldAt b 8 4) = none →
          LateCounted s t (fieldAt b 4 4) ∧ ∀ f ∈ t.merges, f ∈ s.merges ∧ f.uid ≠ e.uid) ∧
       (∀ e ∈ s.merges, mine e → (∀ f ∈ s.merges, mine f → f = e) → fieldAt b 3 1 ≤ 1 → s.liveCtx? (fieldAt b 4 4) (fieldAt b 8 4) ≠ none →
          t.ctxs = s.ctxs ∧ (∀ f ∈ t.merges, f ∈ s.merges ∧ f.uid ≠ e.uid) ∧ t.me.regs = s.me.regs ∧ t.me.ctl = s.me.ctl ∧
          (∀ p a, s.me.flow.park = some p → p.uniform = true → p.waits = [(0, a, some e.uid)] → p.faults = [] →
            p.replay = 0 → ∃ p', t.me.flow.park = some p' ∧ p'.waits = [] ∧
              (fieldAt b 3 1 = 0 → p'.faults = []) ∧
              (fieldAt b 3 1 = 1 → p'.faults = [(0, ⟨3, 1, a, true, 0⟩)])) ∧
          (∀ p, s.me.flow.park = some p → p.uniform = false → (∀ x ∈ p.waits, x.2.2 ≠ none ∧ x.1 < 1024) → ∃ p', t.me.flow.park = some p' ∧
            p'.waits = p.waits.filter (fun x => x.2.2 ≠ some e.uid) ∧ p'.writes = p.writes ∧
            (fieldAt b 3 1 = 0 → ∀ x ∈ p.waits, x.2.2 = some e.uid → p'.replay.getLsbD x.1 = true) ∧
            (fieldAt b 3 1 = 1 → p'.replay = p.replay ∧
              p'.faults = p.faults ++ (p.waits.filter (fun x => x.2.2 = some e.uid)).map fun x => (x.1, ⟨3, 1, x.2.1, true, 0⟩)))))))

end
namespace Sys2Proof.Claim
open Sys2Proof Sys2Proof.Machine

/-! ### Energy, time, errors, reset (spec/01 R19, R20; spec/18 R273, R288; spec/19 R289 to R298; spec/22 R324 to R327; spec/23 R341, R342) -/

/-- The whole microjoules of a reading, the fraction of its unit carried (R289). -/
def wholeOf (s : State) (r : Reading) : Nat :=
  ((match s.energy.frac.find? (·.1 == (r.unit, r.index)) with | some x => x.2 | none => 0) + r.energy) / 1000

/-- The time state after a Sync, with the counts of offsets in a row (R20). -/
def lockRule (st good bad : Nat) (offset : Int) : Nat × Nat × Nat :=
  let g := if offset.natAbs ≤ 100 then good + 1 else 0
  let b := if offset.natAbs ≤ 1000 then 0 else bad + 1
  if st = 1 then (if 16 ≤ b then (2, 0, 0) else (1, g, b)) else if 16 ≤ g then (1, 0, 0) else (st, g, b)

/-- Whether a transport is enabled in PTPCFG (R301). -/
def portTakes (cfg : W64) : PtpTransport → Bool
  | .ipv4 => cfg.getLsbD 8
  | .ipv6 => cfg.getLsbD 9
  | .ethernet => cfg.getLsbD 10

/-- A PTP message, by its transport and domain. -/
def ptpMessage : Instr → Option (PtpTransport × BitVec 8)
  | .ptpSyncReceive _ t d _ _ => some (t, d)
  | .ptpAnnounceReceive _ _ _ _ t d => some (t, d)
  | .ptpDelayRespReceive _ t d _ => some (t, d)
  | _ => none

/-- One announced clock better than another: by the first that differs of priority 1, class, accuracy, variance, priority 2, identity (R19; log 25). -/
def Better (x y : Gm) : Prop :=
  ∃ n < 6, (∀ m < n, [x.prio1, x.cls, x.acc, x.var, x.prio2, x.src].getD m 0 = [y.prio1, y.cls, y.acc, y.var, y.prio2, y.src].getD m 0) ∧
    [x.prio1, x.cls, x.acc, x.var, x.prio2, x.src].getD n 0 < [y.prio1, y.cls, y.acc, y.var, y.prio2, y.src].getD n 0

/-- A link changed, and only that. -/
def LinkChanged (s t : State) (p : Nat) (f : Link → Link) : Prop :=
  t = { s with links := t.links } ∧ ∀ q (h : q < 33), t.links[q] = if q = p then f s.links[q] else s.links[q]

/-- Memory outside the device: host and remote memory. -/
def Outer (k : Nat) : Prop := 2 ^ 64 ≤ k ∧ k < 2 ^ 66

end Sys2Proof.Claim

section
open Sys2Proof Sys2Proof.Machine Sys2Proof.Claim

/-- R289 to R298: ENERGY_TICK does nothing within a millisecond of the last; the whole microjoules of a core's reading are all charged to its
partition's account, whatever contexts ran there, or to the overhead account where no partition holds the core. SEALED_INTERVAL_CLOSE at a whole
second closes an open interval with a record whose sequence number, time and chain follow the last, and moves the interval of a
partition that held nothing; that record verifies under the device's own key, whatever random value its signature was made with.
POWER_BUDGET_TICK lowers no clock of an island within the limit; above it it raises none, and as long as the clocks of the cores whose
queues have the lowest priority can fall only these do; the demands are inputs and the sizes of the steps free (log 24). The public key is read
once the device is up; a last record seeds a fresh chain only if it verifies. -/
def Obligations.EnergyEventsKeepTheAccounts : Prop :=
  (∀ (s : State) (rs : List Reading), s.boot ≠ .up ∨ s.timeB < s.energy.lastTick + 1000000 → exec (.energyTick rs) s = .next s) ∧
  (∀ (s : State) (r : Reading), s.boot = .up → s.energy.lastTick + 1000000 ≤ s.timeB → r.unit ≤ 1 → s.measures r = true →
    ∃ t, exec (.energyTick [r]) s = .next t ∧ t.energy.lastTick = s.timeB / 1000000 * 1000000 ∧
      t.energy.frac.find? (·.1 == (r.unit, r.index)) = some ((r.unit, r.index),
        ((match s.energy.frac.find? (·.1 == (r.unit, r.index)) with | some x => x.2 | none => 0) + r.energy) % 1000) ∧ t.mem = s.mem ∧ t.teams = s.teams ∧
      t.energy.chains.map (fun c => (c.part, c.account)) = s.energy.chains.map (fun c => (c.part, c.account +
        if c.part = (match s.partAt (r.index / 8) with | some p => p | none => 0xFFFF) then wholeOf s r else 0)) ∧
      ∀ c, (t.core c).issued = [] ∧ (t.core c).held = []) ∧
  (∀ (s : State), s.boot ≠ .up ∨ s.timeB / 1000000000 ≤ s.energy.lastSec → exec .sealedIntervalClose s = .next s) ∧
  (∀ (s : State) (c : Chain), s.boot = .up → s.energy.lastSec < s.timeB / 1000000000 → s.energy.chains = [c] → s.io.logbase = 0 →
    (∀ x ∈ s.io.lastCE, x.2.2 = none) →
    (c.held = true → s.io.heldReadings c.part < 256 → ∃ t d r n, exec .sealedIntervalClose s = .next t ∧ t.energy.chains = [d] ∧
      t.io.held = s.io.held ++ [.reading c.part r] ∧ r = c.body (s.timeB / 1000000000 * 1000000000) ++ leBytes 2420
        (Config.mldsaSign n (BitVec.ofNat 256 (leNat (sha3 (c.body (s.timeB / 1000000000 * 1000000000)))))).toNat ∧
      (c.prev.length = 32 → c.lines.length < 2 ^ 32 → c.part < 2 ^ 16 → recordVerifies c.part r = true) ∧
      d.seq = c.seq + 1 ∧ d.boot = c.boot ∧ d.cum = c.account ∧ d.t0 = s.timeB / 1000000000 * 1000000000 ∧ d.prev = sha3 r ∧ d.last = r ∧ d.account = c.account ∧
      d.core = 0 ∧ d.l2 = 0 ∧ d.mem = 0 ∧ d.floe = 0 ∧ d.ocile = 0 ∧ d.residue = 0 ∧ d.lines = [] ∧ t.energy.lastSec = s.timeB / 1000000000) ∧
    (c.held = true → 256 ≤ s.io.heldReadings c.part → ∃ t, exec .sealedIntervalClose s = .next t ∧ t.energy.chains = [c] ∧ t.io.held = s.io.held) ∧
    (c.held = false → c.part ≠ 0xFFFF → (∀ i, i < 32 → s.partAt i ≠ some c.part) → ∃ t d, exec .sealedIntervalClose s = .next t ∧
      t.energy.chains = [d] ∧ d.seq = c.seq ∧ d.t0 = (if c.warm then c.t0 else s.timeB / 1000000000 * 1000000000) ∧ d.last = c.last ∧
      t.io.held = s.io.held)) ∧
  (∀ (s : State) (ds : List Nat) (ports : Nat),
    (s.boot ≠ .up → exec (.powerBudgetTick ⟨ds, ports⟩) s = .next s) ∧
    (s.boot = .up → ∃ t, exec (.powerBudgetTick ⟨ds, ports⟩) s = .next t ∧
      t = { s with cores := t.cores, l2clk := t.l2clk, chclk := t.chclk, fresh := t.fresh, energy := { s.energy with budgets := t.energy.budgets } } ∧
      (∀ c, t.coreCyc c = s.coreCyc c ∧ t.matCyc c = s.matCyc c ∧
        t.core c = { s.core c with clk := (t.core c).clk, mclk := (t.core c).mclk }) ∧
      (let pairs := fun c : Fin 256 => [((s.core c).clk.mhz, (t.core c).clk.mhz), ((s.core c).mclk.mhz, (t.core c).mclk.mhz),
         (s.l2clk[c].mhz, t.l2clk[c].mhz), (s.chclk[c].mhz, t.chclk[c].mhz)]
       let total := ds.foldl (· + ·) ports
       (total ≤ 1000 * s.pwrlim.toNat → t.energy.budgets = (List.range 1024).map (ds.getD · 0) ∧
         ∀ c, ∀ p ∈ pairs c, p.2 ≤ 2400 ∧ (p.1 ≤ 2400 → p.1 ≤ p.2)) ∧
       (1000 * s.pwrlim.toNat < total → t.energy.budgets.length = 1024 ∧ (∀ i, t.energy.budgets.getD i 0 ≤ ds.getD i 0) ∧
         (∀ c, ∀ p ∈ pairs c, p.2 = p.1 ∨ 0 < p.2 ∧ (1 < p.1 → p.2 < p.1)) ∧
         ∀ (c d : Fin 256) (p : Nat), s.corePrio c = some p → (∀ (e : Fin 256) q, s.corePrio e = some q → p ≤ q) →
           1 < (s.core c).clk.mhz ∨ 1 < (s.core c).mclk.mhz →
           (1 < (s.core c).clk.mhz → (t.core c).clk.mhz < (s.core c).clk.mhz) ∧ (1 < (s.core c).mclk.mhz → (t.core c).mclk.mhz < (s.core c).mclk.mhz) ∧
           t.l2clk[d] = s.l2clk[d] ∧ t.chclk[d] = s.chclk[d] ∧ (s.corePrio d ≠ some p → t.core d = s.core d))))) ∧
  (∀ (s : State) (part : Nat) (bs : List Byte),
    (s.boot ≠ .up → exec .fwReadPublicKey s = .next s) ∧
    (s.boot = .up → exec .fwReadPublicKey s = .next { s with outside := { s.outside with key := Config.publicKey.toList ++ Config.certificate } }) ∧
    (s.boot ≠ .up ∨ s.ctxs ≠ [] → exec (.fwSupplyLastRecord part bs) s = .next s) ∧
    (s.boot = .up → s.ctxs = [] → ∃ t, exec (.fwSupplyLastRecord part bs) s = .next t ∧ t = { s with energy := { s.energy with
      chains := s.energy.chains.map fun c => if c.part = part ∧ c.seq = 0 ∧ c.last = [] then
        { c with prev := if recordVerifies part bs then sha3 bs else List.replicate 32 0 } else c } }))

/-- R19, R20 (the choices of log 25): a PTP message of a transport that is not enabled is dropped and counted, one of another domain is ignored.
The first Sync of the selected master sets EPOCHOFF; every Sync of a supported interval moves the time state by its offset and keeps the rate within
200 ppm: from an offset within 200 ns it leads to one within 200 ns at any moment of the three intervals after which LOCKED ends, and from one beyond
it does not grow. A better announced clock becomes the master. LOCKED ends three Sync intervals after the last Sync, at the rate of then, and the 1PPS
output rises at each whole second once the port has locked. -/
def Obligations.TimePortFollowsItsMaster : Prop :=
  (∀ (s : State) (i : Instr) (tr : PtpTransport) (d : BitVec 8), ptpMessage i = some (tr, d) →
    (portTakes s.ptpcfg tr = false → exec i s = .next { s with time := { s.time with dropped := s.time.dropped + 1 } }) ∧
    (portTakes s.ptpcfg tr = true → s.ptpcfg.toNat % 2 ^ 8 ≠ d.toNat → exec i s = .next s)) ∧
  (∀ (s : State) (b : Bool) (tr : PtpTransport), exec (.ptpFrameDrop b tr) s =
    .next (if b = true ∧ portTakes s.ptpcfg tr = true then s else { s with time := { s.time with dropped := s.time.dropped + 1 } })) ∧
  (∀ (s : State) (x : Gm) (src age : Nat) (tr : PtpTransport) (d : BitVec 8) (li m del : Int), portTakes s.ptpcfg tr = true →
    s.ptpcfg.toNat % 2 ^ 8 = d.toNat →
    ((∀ y, s.time.master = some y → y.src ≠ src) → exec (.ptpSyncReceive src tr d li ⟨m, age⟩) s = .next s ∧
      exec (.ptpDelayRespReceive src tr d del) s = .next s) ∧
    (li < -4 ∨ 1 < li → exec (.ptpSyncReceive src tr d li ⟨m, age⟩) s = .next s) ∧
    (∀ y, s.time.master = some y → y.src = src →
      exec (.ptpDelayRespReceive src tr d del) s = .next { s with time := { s.time with pathDelay := del } } ∧
      (-4 ≤ li → li ≤ 1 → ∃ t offset rx, exec (.ptpSyncReceive src tr d li ⟨m, age⟩) s = .next t ∧
        t = { s with time := t.time, energy := t.energy, fresh := t.fresh } ∧ rx = (s.time.timeb.toNat : Int) - age ∧
        t.time.timeb = s.time.timeb ∧ t.time.epochSet = true ∧ t.time.lastSync = s.time.timeb.toNat ∧
        t.time.interval * 2 ^ 4 = 1000000000 * 2 ^ (li + 4).toNat ∧ -200000 ≤ t.time.rate ∧ t.time.rate ≤ 200000 ∧
        (t.time.timest = 0 → t.time.rate = 0) ∧
        t.time.epochoff = (if s.time.epochSet then s.time.epochoff else BitVec.ofInt 64 (m + s.time.pathDelay - rx)) ∧
        offset = rx + t.time.epochoff.toInt - (m + s.time.pathDelay) ∧
        (t.time.timest, t.time.good, t.time.bad) = lockRule s.time.timest s.time.good s.time.bad offset ∧
        (t.time.timest ≠ 0 → -200 ≤ offset → offset ≤ 200 → ∀ n : Nat, n ≤ 3 * t.time.interval →
          -200 * 1000000000 ≤ offset * 1000000000 + t.time.rate * n ∧ offset * 1000000000 + t.time.rate * n ≤ 200 * 1000000000) ∧
        (t.time.timest ≠ 0 → (200 < offset → t.time.rate ≤ 0) ∧ (offset < -200 → 0 ≤ t.time.rate)) ∧
        (s.time.everLocked = false → s.time.timest ≠ 1 → t.time.timest = 1 → t.time.everLocked = true ∧
          t.time.pps = (t.time.timeb + t.time.epochoff).toNat / 1000000000))) ∧
    (s.time.master = none → exec (.ptpAnnounceReceive x.src x.prio1 ⟨x.cls, x.acc, x.var⟩ x.prio2 tr d) s =
      .next { s with time := { s.time with master := some x } }) ∧
    (∀ y, s.time.master = some y →
      (y.src = x.src ∨ Better x y → exec (.ptpAnnounceReceive x.src x.prio1 ⟨x.cls, x.acc, x.var⟩ x.prio2 tr d) s =
        .next { s with time := { s.time with master := some x } }) ∧
      (y.src ≠ x.src → ¬ Better x y → exec (.ptpAnnounceReceive x.src x.prio1 ⟨x.cls, x.acc, x.var⟩ x.prio2 tr d) s = .next s))) ∧
  (∀ (s : State),
    (s.time.timest ≠ 1 ∨ s.timeB < s.time.lastSync + 3 * s.time.interval → exec .ptpSyncTimeout s = .next s) ∧
    (s.time.timest = 1 → s.time.lastSync + 3 * s.time.interval ≤ s.timeB → ∃ t, exec .ptpSyncTimeout s = .next t ∧ t.time.timest = 2 ∧
      t.time.rate = s.time.rate ∧ t = { s with time := t.time, energy := t.energy } ∧ ∀ c ∈ t.energy.chains, c.unsync = true) ∧
    (let sec := (s.time.timeb + s.time.epochoff).toNat / 1000000000
     exec .ppsEdge s = .next (if s.time.everLocked = true ∧ s.time.pps ≠ sec then { s with time := { s.time with pps := sec } } else s)) ∧
    ∀ v4 v6, exec (.fwSetPtpAddress v4 v6) s =
      .next (if s.boot = .up then { s with time := { s.time with ipv4 := v4, ipv6 := v6 } } else s))

/-- R173, R324 to R327 (the choices of log 23): a correctable error changes no data and is reported, later ones of its unit within the second in one
report that waits; an uncorrectable one makes a sector poison, or one lane of a v register or an s register all-ones, and is reported; a clean L1
line is fetched again. A link sends a packet again up to 8 times and then retrains; the third failed retrain takes it DOWN, with a report; one that
comes up again makes the signal operations that waited for it. A port's compressor is on above 75 percent of its queue and off below. -/
def Obligations.ErrorsPoisonAndLinksRetrain : Prop :=
  (∀ (s : State) (unit index addr : Nat), (∀ x ∈ s.io.lastCE, x.1 ≠ (unit, index)) → ∃ t, exec (.correctableError unit index addr) s = .next t ∧
    ReportHeld s t 1 unit index addr ∧ t.me = s.me ∧ t.teams = s.teams ∧ t.dirty = s.dirty ∧ t.poison = s.poison ∧ (s.io.logbase = 0 → t.mem = s.mem)) ∧
  (∀ (s : State) (unit index addr : Nat) (w : Option Report),
    s.io.lastCE.find? (·.1 == (unit, index)) = some ((unit, index), s.timeB / 1000000000, w) →
    ∃ t r, exec (.correctableError unit index addr) s = .next t ∧ t.io.held = s.io.held ∧ t.mem = s.mem ∧
      t.io.lastCE.find? (·.1 == (unit, index)) = some ((unit, index), s.timeB / 1000000000, some r) ∧
      r.count = (match w with | some x => x.count + 1 | none => 1)) ∧
  (∀ (s : State) (unit index addr tid r : Nat) (u : Team), s.team? tid = some u →
    ∃ t v, exec (.uncorrectableError unit index addr (some (.s tid r))) s = .next t ∧ t.team? tid = some v ∧ v.s (Fin.ofNat 64 r) = BitVec.allOnes 64 ∧
      (∀ q, q ≠ Fin.ofNat 64 r → v.s q = u.s q) ∧ v.regs.v = u.regs.v ∧ v.ctl = u.ctl ∧ ReportHeld s t 2 unit index addr) ∧
  (∀ (s : State) (unit index addr tid r n : Nat) (u : Team), s.team? tid = some u → n < u.width → n < (u.v (Fin.ofNat 64 r)).length →
    ∃ t v, exec (.uncorrectableError unit index addr (some (.v tid r n))) s = .next t ∧ t.team? tid = some v ∧
      lane v (Fin.ofNat 64 r) n = BitVec.allOnes 32 ∧
      (∀ q l, q ≠ Fin.ofNat 64 r ∨ l ≠ n → lane v q l = lane u q l) ∧ v.regs.s = u.regs.s ∧ v.ctl = u.ctl ∧
      ReportHeld s t 2 unit index addr) ∧
  (∀ (s : State) (index addr : Nat), s.dirtyAt index addr = none → (∃ c ∈ s.clean, c.core = index ∧ c.key = addr / 32 * 32) →
    ∃ t, exec (.uncorrectableError 0 index addr none) s = .next t ∧ t.poison = s.poison ∧ (∀ c ∈ t.clean, c.core = index → c.key ≠ addr / 32 * 32) ∧
      ((∀ x ∈ s.io.lastCE, x.1 ≠ (0, index)) → ReportHeld s t 1 0 index addr)) ∧
  (∀ (s : State) (unit index addr : Nat),
    unit ≠ 0 ∨ s.dirtyAt index addr = none ∧ (∀ c ∈ s.clean, c.core = index → c.key ≠ addr / 32 * 32) →
    ∃ t, exec (.uncorrectableError unit index addr none) s = .next t ∧ t.poisoned addr = true ∧ ReportHeld s t 2 unit index addr ∧ t.me = s.me ∧
      t.teams = s.teams ∧ ∀ k, k / 32 ≠ addr / 32 → s.poisoned k = t.poisoned k) ∧
  (∀ (s : State) (index addr : Nat) (d : Dirty), s.dirtyAt index addr = some d → ∃ t, exec (.uncorrectableError 0 index addr none) s = .next t ∧
    t.dirtyAt index addr = none ∧ t.poisoned addr = true ∧ ReportHeld s t 2 0 index addr) ∧
  (∀ (s : State) (p : Nat) (again : Bool), ∃ t, exec (.linkCrcError p again) s = .next t ∧ LinkChanged s t p fun l =>
    if l.state ≠ 1 then l else if again = false then { l with retries := 1 } else if l.retries < 8 then { l with retries := l.retries + 1 } else { l with state := 2, retries := 0 }) ∧
  (∀ (s : State) (p : Nat) (ok : Bool) (h : p < 33),
    (s.links[p].state ≠ 2 → exec (.linkRetrainEnd p ok) s = .next s) ∧
    (s.links[p].state = 2 → ok = false → s.links[p].retrains < 2 → ∃ t, exec (.linkRetrainEnd p ok) s = .next t ∧ LinkChanged s t p fun l =>
      { l with retrains := l.retrains + 1 }) ∧
    (s.links[p].state = 2 → ok = true → s.io.heldReq = [] → s.io.held = [] →
      (s.sigq = [] → ∃ t, exec (.linkRetrainEnd p ok) s = .next t ∧ LinkChanged s t p fun l => { l with state := 1, retries := 0, retrains := 0 }) ∧
      (∀ o key, s.sigq = [o] → o.mark = false → s.agentKey o.ctx o.gen .atomic o.va = some key → linkOf key = some ⟨p, h⟩ → Sound s key 8 →
        Memory.wf s.mem = true → ∃ t, exec (.linkRetrainEnd p ok) s = .next t ∧ t.links[p].state = 1 ∧ t.sigq = [] ∧
          t.homeNat key 8 = (s.homeNat key 8 + o.x.toNat) % 2 ^ 64)) ∧
    (s.links[p].state = 2 → ok = false → 2 ≤ s.links[p].retrains → ∃ t, exec (.linkRetrainEnd p ok) s = .next t ∧ t.links[p].state = 0 ∧
      (s.sigq = [] → ReportHeld s t 3 (if p = 32 then 5 else 4) (if p = 32 then 0 else p) 0) ∧ t.me = s.me)) ∧
  (∀ (s : State) (p fill : Nat), p < 32 → ∃ t, exec (.linkCompressorSwitch p fill) s = .next t ∧ LinkChanged s t p fun l =>
    if 75 < fill then { l with comp := true } else if fill < 75 then { l with comp := false } else l)

/-- R20, R273, R288, R297, R341, R342 (with the choices of log 26, and the zero memory of log 3): POWER_LOSS and POWER_GOOD leave nothing of the device's memory, teams, contexts and queues; only host and remote memory
stay. FIRMWARE_IMAGE_VERIFY brings the device up only with an image that verifies, with zero memory and an agent on each core that
works. WARM_RESET keeps device memory and the time, and continues a chain whose last record verifies. FW_CONTEXT_CREATE makes a free number a live
context, with a raised generation where the number is used again; FW_CONTEXT_KILL raises its generation, leaves it dying and nothing of it running; FW_PARTITION_ASSIGN changes the partition of a cluster that holds no work. -/
def Obligations.ResetsAndFirmwareRequests : Prop :=
  (∀ (s : State) (i : Instr) (ok : Bool), i = .powerLoss ∨ i = .powerGood ok → ∃ t, exec i s = .next t ∧ t.me = .absent ∧ t.teams = [] ∧
    t.ctxs = [] ∧ t.queues = [] ∧ t.dirty = [] ∧ t.clean = [] ∧ t.tlb = [] ∧ t.dtlb = [] ∧ t.time.timeb = 0 ∧ t.fuses = s.fuses ∧
    (∀ c, t.core c = .reset) ∧ (∀ k, Outer k → t.homeByte k = s.homeByte k) ∧ (∀ k, ¬ Outer k → t.homeByte k = 0) ∧
    t.boot = (if i = .powerLoss then .off else if ok then .waitImage else .linkDown)) ∧
  (∀ (s : State) (d g : Nat) (ports : BitVec 32) (failing : List (Nat × Nat)) (boot : BitVec 128),
    (s.boot ≠ .waitImage → s.boot ≠ .badImage → exec (.firmwareImageVerify d g ports failing boot) s = .next s) ∧
    (s.boot = .waitImage ∨ s.boot = .badImage → s.teams = [] → s.unpowered = [] → s.io.logbase = 0 →
      ∃ t, exec (.firmwareImageVerify d g ports failing boot) s = .next t ∧ t.boot = (if Config.firmwareVerify d g then .up else .badImage) ∧
        (∀ k, Outer k ∨ Config.firmwareVerify d g = false → t.homeByte k = s.homeByte k) ∧
        (∀ k, ¬ Outer k → Config.firmwareVerify d g = true → t.homeByte k = 0) ∧
        ∀ c, c < 256 → ((∃ u ∈ t.teams, u.place = .agent c) ↔
          Config.firmwareVerify d g = true ∧ s.fuses.coren.getLsbD c = true ∧ (0, c) ∉ failing))) ∧
  (∀ (s : State), (s.boot ≠ .up → exec .warmReset s = .next s) ∧
    (s.boot = .up → s.dirty = [] → s.io.held = [] → (∀ x ∈ s.io.lastCE, x.2.2 = none) → ∃ t, exec .warmReset s = .next t ∧ t.boot = .up ∧ t.me = .absent ∧
      t.ctxs = [] ∧ t.queues = [] ∧ t.time.timeb = s.time.timeb ∧ t.time.epochoff = s.time.epochoff ∧ t.fuses = s.fuses ∧
      t.time.timest = (if s.time.timest = 1 then 2 else s.time.timest) ∧ (∀ k, k < 2 ^ 66 → t.homeByte k = s.homeByte k) ∧
      (∀ k, 2 ^ 66 ≤ k → t.homeByte k = 0) ∧
      ∀ c, s.energy.chains = [c] → ∃ d, t.energy.chains = [d] ∧ d.part = c.part ∧
        (c.last ≠ [] → recordVerifies c.part c.last = true → d.seq = c.seq ∧ d.boot = c.boot ∧ d.prev = c.prev ∧ d.account = c.cum ∧
          d.t0 = fieldAt c.last 40 8 ∧ d.warm = true ∧ d.gap = true) ∧
        (c.last = [] ∨ recordVerifies c.part c.last = false → d.seq = 0 ∧ d.account = 0 ∧ d.t0 = s.timeB ∧ d.last = []))) ∧
  (∀ (s : State) (ctx root part ffl fflen pool len : Nat),
    (s.boot ≠ .up ∨ 4096 ≤ ctx ∨ 32 ≤ part ∨ (∃ c, s.ctx? ctx = some c ∧ c.cstate ≠ 0) →
      exec (.fwContextCreate ctx root part ffl fflen pool len) s = .next s) ∧
    (s.boot = .up → ctx < 4096 → part < 32 → (∀ c, s.ctx? ctx = some c → c.cstate = 0) →
      exec (.fwContextCreate ctx root part ffl fflen pool len) s = .next { s with
        ctxs := ⟨ctx, root, (match s.ctx? ctx with | some c => (c.gen + 1) % 2 ^ 32 | none => 0), part, 1, ffl, fflen, 0, 0, pool, len, []⟩ ::
          s.ctxs.filter (·.id != ctx) })) ∧
  (∀ (s : State) (ctx : Nat), ((∀ c, s.ctx? ctx = some c → c.cstate ≠ 1) → exec (.fwContextKill ctx) s = .next s) ∧
    (∀ c, s.ctx? ctx = some c → c.cstate = 1 → ∃ t, exec (.fwContextKill ctx) s = .next t ∧
      t.ctx? ctx = some { c with gen := (c.gen + 1) % 2 ^ 32, cstate := 2, energy := 0, poolUsed := [] } ∧
      ((∀ q ∈ s.queues, q.ctx = ctx → q.gen = c.gen → q.saveOps = [] ∧ q.rsmOps = []) → t.mem = s.mem) ∧ t.merges = s.merges ∧
      (∀ u ∈ t.all, u = .absent ∨ ¬ (u.id.ctx = ctx ∧ u.id.gen = c.gen)) ∧ (∀ q ∈ t.queues, ¬ (q.ctx = ctx ∧ q.gen = c.gen)) ∧
      (∀ x ∈ t.tlb ++ t.dtlb, ¬ (x.ctx = ctx ∧ x.gen = c.gen)))) ∧
  (∀ (s : State) (cluster : Nat) (part : Option (Fin 32)),
    (32 ≤ cluster ∨ s.boot ≠ .up ∨ s.clusterBusy cluster = true → exec (.fwPartitionAssign cluster part) s = .next s) ∧
    (∀ h : cluster < 32, s.boot = .up → s.clusterBusy cluster = false → ∃ t, exec (.fwPartitionAssign cluster part) s = .next t ∧
      t = { s with parts := s.parts.set cluster part, energy := t.energy }))

end
namespace Sys2Proof.Claim
open Sys2Proof Sys2Proof.Machine

/-! ### Encodings, steps, memory, reset -/

/-- The team in issue with a word of its group about to issue: its chain and switch bits noted. -/
def withWord (s : State) (sl : Slot) : State := { s with me := { s.me with flow := { s.me.flow with cur := ⟨sl.chain, sl.switch⟩ } } }

/-- The team in issue with a packet fetched, its group checked or not. -/
def withPacket (s : State) (p : BitVec 96) (checked : Bool) : State :=
  { s with me := { s.me with flow := { s.me.flow with packet := p, fetched := checked } } }

/-- A step that comes to the team in issue, named by the agenda and chosen by its scheduler, to fetch the packet at its position: the words that it
reads, in a state `f` with the packet in it and nothing of the team, memory and time changed. -/
structure Fetches (s : State) (rest : List Turn) (p : BitVec 96) (f : State) : Prop where
  turn   : s.agenda = .pick s.me.id.tid :: rest
  chosen : (s.pickOn s.me.core s.me.sched).map (·.id.tid) = some s.me.id.tid
  group  : s.me.flow.group.open_ = false ∧ s.me.flow.fetched = false
  calm   : s.me.flow.park = none ∧ (∀ x, s.me.flow.pinned = some x → x.taken = true) ∧ s.me.ctl.pc.toNat < 2 ^ 62
  words  : ∃ ks u b n, ({ s with agenda := rest } : State).fetchKeys (pages 2 (packetVa s.me.ctl.pc).toNat 12) = (.ok ks, u) ∧
    (∀ k ∈ ks, u.poisoned k.2 = false) ∧ u.fetchWords ks = (n, b) ∧ p = BitVec.ofNat 96 n ∧ f = withPacket b p false

end Sys2Proof.Claim

section
open Sys2Proof Sys2Proof.Machine Sys2Proof.Claim

/-- R29, R43 to R47: every instruction that has a word, with every operand its encoding admits, is what its word decodes to, chain and switch
bits included; and a word that decodes is the word of the instruction it decodes to, so that no bit of a word is ignored. -/
def Obligations.DecodeAndEncodeAgree : Prop :=
  (∀ (chain switch : Bool) (i : Instr), hasWord i = true → WellFormed i = true →
    decode (encode chain switch i) = .ok ⟨chain, switch, i⟩) ∧
  (∀ (w : W32) (sl : Slot), decode w = .ok sl → hasWord sl.instr = true ∧ WellFormed sl.instr = true ∧
    encode sl.chain sl.switch sl.instr = w)

/-- R29, R44 to R46: words written out from the encoding tables decode to their instructions; a major that the tables do not give, a function code
that a major does not define, and a reserved bit that is set are rejected with their detail. -/
def Obligations.DecodedWordsFollowTheTables : Prop :=
  decode 0x2F044000#32 = .ok ⟨false, false, .tbndBind 1 4⟩ ∧
  decode 0x2D202187#32 = .ok ⟨false, false, .tsl 8 0 true 3 ⟨false, 7⟩⟩ ∧
  decode 0x20081001#32 = .ok ⟨false, false, .xfrmHfwd 2 1 1⟩ ∧
  decode 0x32003042#32 = .ok ⟨false, false, .tbarTbarr 3 .clu⟩ ∧
  decode 0x36108000#32 = .ok ⟨false, false, .sgrpFork 4 2 .plain⟩ ∧
  decode 0x3614C601#32 = .ok ⟨false, false, .sgrpArr 5 3 6 .plain⟩ ∧
  decode 0x361C8083#32 = .ok ⟨false, false, .sgrpWait 7 2 (.at_ .dev)⟩ ∧
  decode 0x3E002000#32 = .ok ⟨false, false, .syncGbar .clu⟩ ∧
  decode 0x3E044083#32 = .ok ⟨false, false, .syncEnq 4 2 3⟩ ∧
  decode 0x3E105046#32 = .ok ⟨false, false, .syncQctlResume 5 1 6⟩ ∧
  decode 0x00000000#32 = .ok ⟨false, false, .miscNop⟩ ∧
  decode 0xC0000000#32 = .ok ⟨true, true, .miscNop⟩ ∧
  decode 0x00140000#32 = .error ⟨.rsvfn, none⟩ ∧
  decode 0x00000001#32 = .error ⟨.rsvbit, some .miscNop⟩ ∧
  decode 0x3D000000#32 = .error ⟨.rsvmaj, none⟩

/-- R26, R29, R31, R32, R34, R47: a step of a team in the middle of a chain group is the meaning of the word at its position, with its chain and switch
bits noted; a word that decode rejects takes the illegal-instruction trap with its detail there. A step that comes to a new group fetches the team's
packet: a group check that fails takes its trap with nothing of the group run; a group that a counter, a wait or its pipes hold stays at its
position; a group with registers to reconstruct has them sent to the transform pipe; any other begins and its first word runs, with the team's
registers, masks and operations as they were. An event that the agenda names is run after the time that passes to it. (The agenda and one word in each
step are the model's, log 1; the gate of a group is log 27's, its reconstruction log 28's.) -/
def Obligations.StepRunsTheDecodedWord : Prop :=
  (∀ (s : State), s.me.resumes = true → s.eligible s.me = true →
    (∀ sl, decode (packetWord s.me.flow.packet s.me.ctl.word) = .ok sl → step s = exec sl.instr (withWord s sl)) ∧
    (∀ e, decode (packetWord s.me.flow.packet s.me.ctl.word) = .error e → CanEnter s 0 → ∃ t, step s = .next t ∧
      Entered s t ⟨⟨0, e.detail.code, 0, false, 0⟩, s.me.ctl.pc, s.me.ctl.word, 0, false⟩)) ∧
  (∀ (s f : State) (rest : List Turn) (p : BitVec 96), Fetches s rest p f →
    (∀ d w, groupCheck p s.me.ctl.word = some (d, w) → CanEnter f 0 → ∃ t, step s = .next t ∧
      Entered f t ⟨⟨0, d.code, 0, false, 0⟩, s.me.ctl.pc, w, 0, false⟩) ∧
    (∀ g, groupCheck p s.me.ctl.word = none → g = withPacket f p true →
      (g.me.groupWaits = true ∨ g.gateOpen g.me = false ∨ g.tbwaitOn = none ∧ g.takes g.me = false → step s = .next g) ∧
      (g.me.groupWaits = false → g.gateOpen g.me = true → g.tbwaitOn = none → g.takes g.me = true →
        (∀ r rs, g.me.rebuilds (g.checked g.me.groupWords) = r :: rs → ∃ t, step s = .next t ∧ t.me.flow.rebuild = r :: rs ∧
          t.me.flow.group.open_ = true ∧ t.me.ctl = s.me.ctl ∧ t.me.regs = s.me.regs ∧ t.mem = s.mem) ∧
        (g.me.rebuilds (g.checked g.me.groupWords) = [] →
          (∀ sl, decode (packetWord p s.me.ctl.word) = .ok sl → ∃ t, step s = exec sl.instr t ∧ t.me.ctl = s.me.ctl ∧ t.me.id = s.me.id ∧
            t.me.place = s.me.place ∧ t.me.regs = s.me.regs ∧ t.me.flow.packet = p ∧ t.me.flow.cur = ⟨sl.chain, sl.switch⟩ ∧
            t.me.flow.ops = s.me.flow.ops ∧ t.me.flow.group.open_ = true ∧ t.dirty = s.dirty ∧ t.mem = s.mem ∧ t.now = s.now ∧
            t.agenda = rest) ∧
          (∀ e, decode (packetWord p s.me.ctl.word) = .error e → CanEnter f 0 → ∃ t, step s = .next t ∧ t.me.ctl.level = .trap ∧
            t.me.ctl.pc = f.trapEntry s.me 0 ∧ t.me.ctl.trap.tcause = BitVec.ofNat 64 (e.detail.code * 2 ^ 8) ∧
            t.me.ctl.trap.tpc = s.me.ctl.pc <<< 2 ||| BitVec.ofNat 64 s.me.ctl.word ∧ t.me.ctl.trap.twords = p ∧
            t.me.regs = s.me.regs ∧ t.mem = s.mem))))) ∧
  (∀ (s : State) (rest : List Turn) (dt : Nat) (i : Instr), s.me.resumes = false ∨ s.eligible s.me = false → s.agenda = .event dt i :: rest →
    (hasWord i = false → step s = exec i (({ s with agenda := rest } : State).pass dt)) ∧ (hasWord i = true → step s = .fault .agendaWord))

/-- The model's memory (log 3) stays in its canonical form: from every state whose memory is in it, a step that gives a next state gives one whose memory is in it;
and no step is ever refused. -/
def Obligations.StepsKeepMemoryCanonical : Prop :=
  ∀ s : State, Memory.wf s.mem = true → (∀ t, step s = .next t → Memory.wf t.mem = true) ∧ ∀ r, step s ≠ .refused r

/-- R20, R211, R301, R304: what reset leaves: memory in canonical form with every byte 0 and nothing written, no team, every core RUNNING with DBGCTL 0 and
AGEIVL 65,536, TIMEB 0, the device registers at the reset values of the table, and no power yet (the values of log 2 and of log 3 are the model's choice). -/
def Obligations.ResetLeavesTheTable : Prop :=
  Memory.wf State.reset.mem = true ∧ (∀ k, State.reset.homeByte k = 0) ∧ State.reset.teams = [] ∧ State.reset.me.place = .none ∧
  (∀ c, (State.reset.core c).dbg = .running ∧ (State.reset.core c).brken = false ∧ (State.reset.core c).attach = false ∧
    (State.reset.core c).ageivl = 65536 ∧ (State.reset.core c).walk = none) ∧
  State.reset.time.timeb = 0 ∧ State.reset.time.timest = 0 ∧ State.reset.time.epochoff = 0 ∧ State.reset.boot = .off ∧
  State.reset.stallivl = 1000000000 ∧ State.reset.pwrlim = 2700 ∧ State.reset.ptpcfg = 0x700 ∧
  (∀ n, n ∈ [0x0302, 0x0303, 0x0304, 0x0305, 0x0306, 0x0307, 0x0308, 0x0309, 0x030A] → State.reset.deviceReg n = 0) ∧
  State.reset.ctxs = [] ∧ State.reset.queues = [] ∧ State.reset.agenda = []

end
end

