-- ==== Sys2Proof/Laws/Memory.lean ====
section
/-!
SUPPORT. Sys2Proof/Laws/Memory.lean: the laws of memory: its canonical form in plain words, kept by every operation that writes memory; a
byte read after a write; a filtered memory.
-/
namespace Sys2Proof.Machine
open Sys2Proof

/-! ### The canonical form -/

/-- The canonical form in plain words: no cell is 0, and keys rise. -/
theorem Memory.wf_iff (m : List Host.Cell) :
    Memory.wf m = true ↔ (∀ c ∈ m, c.2 ≠ 0) ∧ m.Pairwise (fun x y => x.1 < y.1) := by
  unfold Memory.wf
  induction m with
  | nil => simp [cellsWf]
  | cons c t ih =>
    obtain ⟨k, b⟩ := c
    cases t with
    | nil => simp [cellsWf]
    | cons d u =>
      obtain ⟨k', b'⟩ := d
      simp only [cellsWf, Bool.and_eq_true, ih, decide_eq_true_eq]
      constructor
      · rintro ⟨⟨hb, hk⟩, hz, hp⟩
        refine ⟨?_, ?_⟩
        · intro c hc
          rcases List.mem_cons.1 hc with rfl | hc
          · simpa using hb
          · exact hz c hc
        · refine List.pairwise_cons.2 ⟨?_, hp⟩
          intro c hc
          rcases List.mem_cons.1 hc with rfl | hc
          · exact hk
          · exact lt_trans hk ((List.pairwise_cons.1 hp).1 c hc)
      · rintro ⟨hz, hp⟩
        obtain ⟨h1, h2⟩ := List.pairwise_cons.1 hp
        exact ⟨⟨by simpa using hz (k, b) (by simp), h1 (k', b') (by simp)⟩, fun c hc => hz c (List.mem_cons_of_mem _ hc), h2⟩

/-- Memory with nothing listed. -/
@[simp] theorem Memory.wf_nil : Memory.wf [] = true := rfl

/-- The tail of a canonical memory. -/
theorem Memory.wf_tail {c : Host.Cell} {m : List Host.Cell} (h : Memory.wf (c :: m) = true) : Memory.wf m = true := by
  rw [Memory.wf_iff] at h ⊢
  exact ⟨fun d hd => h.1 d (List.mem_cons_of_mem _ hd), (List.pairwise_cons.1 h.2).2⟩

/-- Every key of a memory after a write is the key written or one that was there. -/
theorem writeCell_keys {m : List Host.Cell} {a : Nat} {x : Byte} {c : Host.Cell} (h : c ∈ writeCell m a x) :
    c = (a, x) ∨ c ∈ m := by
  induction m with
  | nil =>
    unfold writeCell at h
    split at h <;> simp_all
  | cons d t ih =>
    obtain ⟨k, b⟩ := d
    unfold writeCell at h
    split at h
    · rcases List.mem_cons.1 h with rfl | h
      · simp
      · rcases ih h with h | h <;> simp [h]
    · split at h
      · split at h
        · exact .inr (List.mem_cons_of_mem _ h)
        · rcases List.mem_cons.1 h with rfl | h <;> simp [*]
      · split at h
        · exact .inr h
        · rcases List.mem_cons.1 h with rfl | h
          · simp
          · exact .inr h

/-- A byte written keeps the canonical form. -/
theorem Memory.wf_writeCell {m : List Host.Cell} (a : Nat) (x : Byte) (h : Memory.wf m = true) : Memory.wf (writeCell m a x) = true := by
  rw [Memory.wf_iff] at h ⊢
  induction m with
  | nil =>
    unfold writeCell
    split <;> simp_all
  | cons d t ih =>
    obtain ⟨k, b⟩ := d
    obtain ⟨hz, hp⟩ := h
    obtain ⟨h1, h2⟩ := List.pairwise_cons.1 hp
    have ht := ih ⟨fun c hc => hz c (List.mem_cons_of_mem _ hc), h2⟩
    unfold writeCell
    split
    · rename_i hk
      refine ⟨?_, List.pairwise_cons.2 ⟨?_, ht.2⟩⟩
      · intro c hc
        rcases List.mem_cons.1 hc with rfl | hc
        · exact hz (k, b) (by simp)
        · exact ht.1 c hc
      · intro c hc
        rcases writeCell_keys hc with rfl | hc
        · exact hk
        · exact h1 c hc
    · split
      · rename_i hk
        subst hk
        split
        · exact ⟨fun c hc => hz c (List.mem_cons_of_mem _ hc), h2⟩
        · refine ⟨?_, List.pairwise_cons.2 ⟨h1, h2⟩⟩
          intro c hc
          rcases List.mem_cons.1 hc with rfl | hc
          · assumption
          · exact hz c (List.mem_cons_of_mem _ hc)
      · split
        · exact ⟨hz, hp⟩
        · rename_i hk hk' hx
          refine ⟨?_, List.pairwise_cons.2 ⟨?_, hp⟩⟩
          · intro c hc
            rcases List.mem_cons.1 hc with rfl | hc
            · exact hx
            · exact hz c hc
          · intro c hc
            have hlt : a < k := by omega
            rcases List.mem_cons.1 hc with rfl | hc
            · exact hlt
            · exact lt_trans hlt (h1 c hc)

/-- Bytes written keep the canonical form. -/
theorem Memory.wf_writePairs {m : List Host.Cell} (bs : List (Nat × Byte)) (h : Memory.wf m = true) : Memory.wf (writePairs m bs) = true := by
  induction bs generalizing m with
  | nil => exact h
  | cons c t ih => exact ih (Memory.wf_writeCell _ _ h)

/-- Cells left out keep the canonical form. -/
theorem Memory.wf_filter {m : List Host.Cell} (p : Host.Cell → Bool) (h : Memory.wf m = true) : Memory.wf (m.filter p) = true := by
  rw [Memory.wf_iff] at h ⊢
  exact ⟨fun c hc => h.1 c (List.mem_filter.1 hc).1, h.2.filter _⟩

/-! ### Reads after writes -/

/-- A canonical memory lists no key below its first. -/
theorem readCell_below {k : Nat} {b : Byte} {t : List Host.Cell} (h : Memory.wf ((k, b) :: t) = true) {a : Nat} (ha : a < k) :
    readCell t a = 0 := by
  rw [Memory.wf_iff] at h
  have h1 := (List.pairwise_cons.1 h.2).1
  clear h
  induction t with
  | nil => rfl
  | cons d u ih =>
    obtain ⟨k', b'⟩ := d
    have hk := h1 (k', b') (by simp)
    have hne : k' ≠ a := by simp only at hk; omega
    simp only [readCell, if_neg hne]
    exact ih fun c hc => h1 c (List.mem_cons_of_mem _ hc)

/-- A canonical memory lists its first key once. -/
theorem readCell_self {k : Nat} {b : Byte} {t : List Host.Cell} (h : Memory.wf ((k, b) :: t) = true) : readCell t k = 0 := by
  cases t with
  | nil => rfl
  | cons d u =>
    obtain ⟨k', b'⟩ := d
    have hk : k < k' := ((Memory.wf_iff _).1 h).2 |> List.pairwise_cons.1 |>.1 (k', b') (by simp)
    rw [readCell, if_neg (by omega)]
    exact readCell_below (Memory.wf_tail h) hk

/-- A number of bytes of a canonical memory: its lowest byte, and the rest. -/
theorem readCells_succ {m : List Host.Cell} (h : Memory.wf m = true) (a n : Nat) :
    readCells m a (n + 1) = (readCell m a).toNat + 256 * readCells m (a + 1) n := by
  induction m with
  | nil => simp [readCells, readCell]
  | cons c t ih =>
    obtain ⟨k, b⟩ := c
    have iht := ih (Memory.wf_tail h)
    simp only [readCells, readCell]
    rcases lt_trichotomy k a with hk | rfl | hk
    · rw [if_pos hk, if_neg (by omega : ¬ k = a), if_pos (by omega : k < a + 1), iht]
    · rw [if_neg (lt_irrefl _), if_pos (by omega : k < k + (n + 1)), if_pos rfl, if_pos (by omega : k < k + 1), iht, readCell_self h]
      simp
    · rw [if_neg (by omega), if_neg (by omega : ¬ k < a + 1), if_neg (by omega : ¬ k = a)]
      by_cases hn : k < a + (n + 1)
      · have e : k - a = (k - (a + 1)) + 1 := by omega
        rw [if_pos hn, if_pos (by omega), iht, e, pow_succ]
        ring
      · rw [if_neg hn, if_neg (by omega), readCell_below h hk]
        simp

/-- A number of bytes depends on the bytes alone. -/
theorem readCells_congr {m m' : List Host.Cell} (h : Memory.wf m = true) (h' : Memory.wf m' = true) (a n : Nat)
    (he : ∀ b, a ≤ b → b < a + n → readCell m b = readCell m' b) : readCells m a n = readCells m' a n := by
  induction n generalizing a with
  | zero =>
    have z : ∀ (x : List Host.Cell), readCells x a 0 = 0 := by
      intro x
      induction x with
      | nil => rfl
      | cons c t ih =>
        simp only [readCells]
        split
        · exact ih
        · simp_all
    rw [z, z]
  | succ n ih =>
    rw [readCells_succ h, readCells_succ h', he a (le_refl _) (by omega), ih (a + 1) fun b h1 h2 => he b (by omega) (by omega)]

/-- The bytes that a read returns depend on the bytes at home alone, among the memories of one state. -/
theorem homeBytes_congr (s : State) (m : List Host.Cell) (a n : Nat) (he : ∀ b, a ≤ b → b < a + n → readCell m b = readCell s.mem b) :
    ({ s with mem := m } : State).homeBytes a n = s.homeBytes a n := by
  induction n generalizing a with
  | zero => rfl
  | succ n ih =>
    simp only [State.homeBytes]
    rw [ih (a + 1) fun b h1 h2 => he b (by omega) (by omega)]
    congr 1
    change (if s.poisoned a then (0xFF : Byte) else readCell m a) = if s.poisoned a then 0xFF else readCell s.mem a
    rw [he a (le_refl _) (by omega)]

/-- The number that a read returns depends on the bytes at home alone, among the memories of one state. -/
theorem readNat_congr (s : State) (m : List Host.Cell) (hw : Memory.wf s.mem = true) (hm : Memory.wf m = true) (a n : Nat)
    (he : ∀ b, a ≤ b → b < a + n → readCell m b = readCell s.mem b) : ({ s with mem := m } : State).readNat a n = s.readNat a n := by
  have h1 : ({ s with mem := m } : State).homeNat a n = s.homeNat a n := readCells_congr hm hw a n he
  unfold State.readNat
  rw [h1, homeBytes_congr s m a n he]
  rfl

/-- A walk of the page tables reads an entry at each of these places. -/
def walkPlaces (rd : Nat → Nat) (va : Nat) : List (Nat × Nat × Nat) → Nat → List Nat
  | [], _ => []
  | (_, lo, width) :: rest, node =>
    let pa := node + va / 2 ^ lo % 2 ^ width * 64
    let e := rd pa
    pa :: if e % 2 = 0 then [] else if flag e 1 then [] else walkPlaces rd va rest (e / 2 ^ 64 % 2 ^ 64)

/-- A walk of the page tables depends on the entries that it reads alone. -/
theorem walkFrom_congr (rd rd' : Nat → Nat) (va : Nat) (ls : List (Nat × Nat × Nat)) (node : Nat)
    (h : ∀ pa ∈ walkPlaces rd va ls node, rd' pa = rd pa) : walkFrom rd' va ls node = walkFrom rd va ls node := by
  induction ls generalizing node with
  | nil => rfl
  | cons l ls ih =>
    obtain ⟨level, lo, width⟩ := l
    simp only [walkPlaces, List.mem_cons, forall_eq_or_imp] at h
    obtain ⟨h0, h⟩ := h
    simp only [walkFrom]
    rw [h0]
    split
    · rfl
    · rename_i h1
      rw [if_neg h1] at h
      split
      · rfl
      · rename_i h2
        rw [if_neg h2] at h
        rw [ih _ h]

/-- The byte read after a write: the new byte at its key, any other byte as it was. -/
theorem readCell_writeCell {m : List Host.Cell} (h : Memory.wf m = true) (a : Nat) (x : Byte) (k : Nat) :
    readCell (writeCell m a x) k = if k = a then x else readCell m k := by
  induction m with
  | nil =>
    unfold writeCell
    split <;> by_cases hk : k = a <;> simp_all [readCell]
    exact fun h => hk h.symm
  | cons d t ih =>
    obtain ⟨k0, b⟩ := d
    have iht := ih (Memory.wf_tail h)
    unfold writeCell
    split
    · rename_i hlt
      by_cases hk : k0 = k
      · subst hk
        have hne : k0 ≠ a := by omega
        simp [readCell, hne]
      · simp only [readCell, if_neg hk, iht]
    · split
      · rename_i hk
        subst hk
        split
        · rename_i hx
          by_cases hk : k = k0
          · subst hk
            have hlow : readCell t k = 0 := by
              rw [Memory.wf_iff] at h
              have h1 := (List.pairwise_cons.1 h.2).1
              clear ih iht h
              induction t with
              | nil => rfl
              | cons e u ihu =>
                have hk := h1 e (by simp)
                have hne : e.1 ≠ k := by simp only at hk; omega
                obtain ⟨ke, be⟩ := e
                simp only [readCell, if_neg hne]
                exact ihu fun c hc => h1 c (List.mem_cons_of_mem _ hc)
            simp [hlow, hx]
          · have hne : ¬ k0 = k := fun h => hk h.symm
            simp [readCell, hk, hne]
        · by_cases hk : k = k0
          · subst hk; simp [readCell]
          · have hne : ¬ k0 = k := fun h => hk h.symm
            simp [readCell, hk, hne]
      · split
        · rename_i hk1 hk2 hx
          by_cases hk : k = a
          · subst hk
            have hlt : k < k0 := by omega
            have hne : k0 ≠ k := by omega
            simp [readCell, hne, readCell_below h hlt, hx]
          · simp [hk]
        · by_cases hk : k = a
          · subst hk; simp [readCell]
          · have hne : ¬ a = k := fun h => hk h.symm
            simp [readCell, hk, hne]

/-- A byte that a list of writes does not name stays. -/
theorem readCell_writePairs_other {m : List Host.Cell} (h : Memory.wf m = true) (bs : List (Nat × Byte)) (k : Nat)
    (hk : ∀ c ∈ bs, c.1 ≠ k) : readCell (writePairs m bs) k = readCell m k := by
  induction bs generalizing m with
  | nil => rfl
  | cons c t ih =>
    obtain ⟨a, x⟩ := c
    have hne : k ≠ a := fun h => hk (a, x) (by simp) h.symm
    simp only [writePairs]
    rw [ih (Memory.wf_writeCell _ _ h) fun c hc => hk c (List.mem_cons_of_mem _ hc), readCell_writeCell h, if_neg hne]

/-- A byte that a list of writes names once is the byte written. -/
theorem readCell_writePairs_mem {m : List Host.Cell} (h : Memory.wf m = true) (bs : List (Nat × Byte)) (hn : (bs.map (·.1)).Nodup)
    {k : Nat} {x : Byte} (hx : (k, x) ∈ bs) : readCell (writePairs m bs) k = x := by
  induction bs generalizing m with
  | nil => simp at hx
  | cons c t ih =>
    obtain ⟨a, y⟩ := c
    simp only [List.map_cons, List.nodup_cons] at hn
    simp only [writePairs]
    rcases List.mem_cons.1 hx with hx | hx
    · obtain ⟨rfl, rfl⟩ := Prod.mk.inj hx
      rw [readCell_writePairs_other (Memory.wf_writeCell _ _ h), readCell_writeCell h, if_pos rfl]
      intro c hc hck
      exact hn.1 (List.mem_map.2 ⟨c, hc, hck⟩)
    · exact ih (Memory.wf_writeCell _ _ h) hn.2 hx

/-- A filter by keys keeps or clears each byte. -/
theorem readCell_filter (p : Nat → Bool) (m : List Host.Cell) (k : Nat) :
    readCell (m.filter fun c => p c.1) k = if p k then readCell m k else 0 := by
  induction m with
  | nil => simp [readCell]
  | cons c t ih =>
    obtain ⟨a, x⟩ := c
    by_cases ha : p a <;> by_cases hk : a = k
    · subst hk; simp [readCell, ha]
    · simp [readCell, ha, hk, ih]
    · subst hk
      simp [ha, ih]
    · simp [readCell, ha, hk, ih]

/-! ### The operations of a state that write memory -/

/-- The memory of a state in canonical form. -/
abbrev State.MemOk (s : State) : Prop := Memory.wf s.mem = true

theorem State.perform_wf {s : State} (bs : List (Nat × Byte)) (h : s.MemOk) : (s.perform bs).MemOk := Memory.wf_writePairs bs h

theorem State.poke_wf {s : State} (bs : List (Nat × Byte)) (h : s.MemOk) : (s.poke bs).MemOk := Memory.wf_writePairs bs h

theorem State.clearKeys_wf {s : State} (lo n : Nat) (h : s.MemOk) : (s.clearKeys lo n).MemOk := Memory.wf_filter _ h

theorem State.logWrite_wf {s t : State} {bs : List Byte} (h : s.MemOk) (ht : s.logWrite bs = some t) : t.MemOk := by
  unfold State.logWrite at ht
  split at ht
  · cases ht
  · cases ht; exact State.perform_wf (s := s) _ h

theorem State.flushLogN_wf (n : Nat) {s : State} (h : s.MemOk) : (s.flushLogN n).MemOk := by
  induction n generalizing s with
  | zero => exact h
  | succ n ih =>
    unfold State.flushLogN
    split
    · split
      · rename_i s1 hw
        have h1 : s1.MemOk := State.logWrite_wf h hw
        exact ih (s := { s1 with io := _ }) h1
      · exact h
    · exact h

theorem State.flushLog_wf {s : State} (h : s.MemOk) : s.flushLog.MemOk := State.flushLogN_wf _ h

theorem State.post_wf {s : State} (r : Report) (h : s.MemOk) : (s.post r).MemOk := by
  unfold State.post
  simp only
  split
  · exact State.flushLog_wf (s := { s with io := _ }) h
  · exact h

theorem State.report_wf {s : State} (a b c d e f g : Nat) (h : s.MemOk) : (s.report a b c d e f g).MemOk := State.post_wf _ h

theorem State.reportCE_wf {s : State} (a b c : Nat) (h : s.MemOk) : (s.reportCE a b c).MemOk := by
  unfold State.reportCE
  simp only
  split
  · split
    · exact h
    · exact State.post_wf (s := { s with io := _ }) _ h
  · exact State.post_wf (s := { s with io := _ }) _ h

theorem State.poisonReport_wf {s : State} (a b c d : Nat) (h : s.MemOk) : (s.poisonReport a b c d).MemOk := by
  unfold State.poisonReport
  split <;> exact State.report_wf _ _ _ _ _ _ _ h

theorem State.storeSector_wf {s : State} (a b c : Nat) (bs : List (Nat × Byte)) (h : s.MemOk) : (s.storeSector a b c bs).MemOk := by
  unfold State.storeSector
  split
  · exact h
  · split
    · exact State.poisonReport_wf _ _ _ _ h
    · split
      · split
        · exact State.perform_wf (s := { s with poison := _ }) _ h
        · exact State.poisonReport_wf _ _ _ _ h
      · exact State.perform_wf _ h

/-- A fold keeps what each of its steps keeps. -/
theorem foldl_keeps {α β : Type} {P : α → Prop} {f : α → β → α} (hf : ∀ x y, P x → P (f x y)) (l : List β) {x : α} (h : P x) :
    P (l.foldl f x) := by
  induction l generalizing x with
  | nil => exact h
  | cons y t ih => exact ih (hf x y h)

theorem State.homeStore_wf {s : State} (a b c : Nat) (bs : List (Nat × Byte)) (h : s.MemOk) : (s.homeStore a b c bs).MemOk := by
  unfold State.homeStore
  split
  · exact h
  · exact foldl_keeps (P := State.MemOk) (fun _ _ hx => State.storeSector_wf _ _ _ _ hx) _ h

theorem State.homePut_wf {s : State} (a n x : Nat) (h : s.MemOk) : (s.homePut a n x).MemOk := State.homeStore_wf _ _ _ _ h

theorem State.loadPoison_wf {s : State} (a b c d e : Nat) (h : s.MemOk) : (s.loadPoison a b c d e).MemOk := by
  unfold State.loadPoison
  split
  · exact State.poisonReport_wf _ _ _ _ h
  · exact h

theorem State.homeAtomic_wf {s : State} (a b c d n : Nat) (f : Nat → Nat) (h : s.MemOk) : (s.homeAtomic a b c d n f).2.MemOk := by
  unfold State.homeAtomic
  split
  · exact State.poisonReport_wf _ _ _ _ h
  · exact State.perform_wf _ h

theorem State.agentWrite_wf {s : State} (a b : Nat) (va : W80) (n x : Nat) (h : s.MemOk) : (s.agentWrite a b va n x).MemOk := by
  unfold State.agentWrite
  split
  · exact State.homeStore_wf _ _ _ _ h
  · exact h

theorem State.signalAdd_wf {s : State} (a b : Nat) (va : W80) (x : W64) (m : Bool) (h : s.MemOk) : (s.signalAdd a b va x m).MemOk := by
  unfold State.signalAdd
  split
  · split
    · exact h
    · exact State.homeAtomic_wf _ _ _ _ _ _ h
  · exact State.report_wf _ _ _ _ _ _ _ h

theorem State.signalDec_wf {s : State} (a b : Nat) (va : W80) (m : Bool) (h : s.MemOk) : (s.signalDec a b va m).MemOk :=
  State.signalAdd_wf _ _ _ _ _ h

end Sys2Proof.Machine
end

