-- ==== Sys2Proof/Laws/State.lean ====
section
/-!
SUPPORT. Sys2Proof/Laws/State.lean: what each update leaves in each field, true by rfl, so that no proof unfolds a record
update.
-/
namespace Sys2Proof.Machine
open Sys2Proof

/-! ### Updates of the machine -/

@[simp] theorem State.setMe_me (s : State) (f : Team → Team) : (s.setMe f).me = f s.me := rfl
@[simp] theorem State.setMe_teams (s : State) (f : Team → Team) : (s.setMe f).teams = s.teams := rfl
@[simp] theorem State.setMe_cores (s : State) (f : Team → Team) : (s.setMe f).cores = s.cores := rfl
@[simp] theorem State.setMe_mem (s : State) (f : Team → Team) : (s.setMe f).mem = s.mem := rfl
@[simp] theorem State.setMe_poison (s : State) (f : Team → Team) : (s.setMe f).poison = s.poison := rfl
@[simp] theorem State.setMe_dirty (s : State) (f : Team → Team) : (s.setMe f).dirty = s.dirty := rfl
@[simp] theorem State.setMe_clean (s : State) (f : Team → Team) : (s.setMe f).clean = s.clean := rfl
@[simp] theorem State.setMe_tlb (s : State) (f : Team → Team) : (s.setMe f).tlb = s.tlb := rfl
@[simp] theorem State.setMe_edits (s : State) (f : Team → Team) : (s.setMe f).edits = s.edits := rfl
@[simp] theorem State.setMe_sigq (s : State) (f : Team → Team) : (s.setMe f).sigq = s.sigq := rfl
@[simp] theorem State.setMe_dtlb (s : State) (f : Team → Team) : (s.setMe f).dtlb = s.dtlb := rfl
@[simp] theorem State.setMe_l2clk (s : State) (f : Team → Team) : (s.setMe f).l2clk = s.l2clk := rfl
@[simp] theorem State.setMe_chclk (s : State) (f : Team → Team) : (s.setMe f).chclk = s.chclk := rfl
@[simp] theorem State.setMe_now (s : State) (f : Team → Team) : (s.setMe f).now = s.now := rfl
@[simp] theorem State.setMe_icache (s : State) (f : Team → Team) : (s.setMe f).icache = s.icache := rfl
@[simp] theorem State.setMe_merges (s : State) (f : Team → Team) : (s.setMe f).merges = s.merges := rfl
@[simp] theorem State.setMe_ctxs (s : State) (f : Team → Team) : (s.setMe f).ctxs = s.ctxs := rfl
@[simp] theorem State.setMe_parts (s : State) (f : Team → Team) : (s.setMe f).parts = s.parts := rfl
@[simp] theorem State.setMe_copies (s : State) (f : Team → Team) : (s.setMe f).copies = s.copies := rfl
@[simp] theorem State.setMe_stuck (s : State) (f : Team → Team) : (s.setMe f).stuck = s.stuck := rfl
@[simp] theorem State.setMe_rings (s : State) (f : Team → Team) : (s.setMe f).rings = s.rings := rfl
@[simp] theorem State.setMe_ringWaits (s : State) (f : Team → Team) : (s.setMe f).ringWaits = s.ringWaits := rfl
@[simp] theorem State.setMe_waits (s : State) (f : Team → Team) : (s.setMe f).waits = s.waits := rfl
@[simp] theorem State.setMe_walks (s : State) (f : Team → Team) : (s.setMe f).walks = s.walks := rfl
@[simp] theorem State.setMe_gangs (s : State) (f : Team → Team) : (s.setMe f).gangs = s.gangs := rfl
@[simp] theorem State.setMe_queues (s : State) (f : Team → Team) : (s.setMe f).queues = s.queues := rfl
@[simp] theorem State.setMe_bundles (s : State) (f : Team → Team) : (s.setMe f).bundles = s.bundles := rfl
@[simp] theorem State.setMe_groups (s : State) (f : Team → Team) : (s.setMe f).groups = s.groups := rfl
@[simp] theorem State.setMe_images (s : State) (f : Team → Team) : (s.setMe f).images = s.images := rfl
@[simp] theorem State.setMe_io (s : State) (f : Team → Team) : (s.setMe f).io = s.io := rfl
@[simp] theorem State.setMe_energy (s : State) (f : Team → Team) : (s.setMe f).energy = s.energy := rfl
@[simp] theorem State.setMe_time (s : State) (f : Team → Team) : (s.setMe f).time = s.time := rfl
@[simp] theorem State.setMe_stallivl (s : State) (f : Team → Team) : (s.setMe f).stallivl = s.stallivl := rfl
@[simp] theorem State.setMe_pwrlim (s : State) (f : Team → Team) : (s.setMe f).pwrlim = s.pwrlim := rfl
@[simp] theorem State.setMe_ptpcfg (s : State) (f : Team → Team) : (s.setMe f).ptpcfg = s.ptpcfg := rfl
@[simp] theorem State.setMe_links (s : State) (f : Team → Team) : (s.setMe f).links = s.links := rfl
@[simp] theorem State.setMe_fuses (s : State) (f : Team → Team) : (s.setMe f).fuses = s.fuses := rfl
@[simp] theorem State.setMe_unpowered (s : State) (f : Team → Team) : (s.setMe f).unpowered = s.unpowered := rfl
@[simp] theorem State.setMe_exports (s : State) (f : Team → Team) : (s.setMe f).exports = s.exports := rfl
@[simp] theorem State.setMe_remotes (s : State) (f : Team → Team) : (s.setMe f).remotes = s.remotes := rfl
@[simp] theorem State.setMe_members (s : State) (f : Team → Team) : (s.setMe f).members = s.members := rfl
@[simp] theorem State.setMe_boot (s : State) (f : Team → Team) : (s.setMe f).boot = s.boot := rfl
@[simp] theorem State.setMe_outside (s : State) (f : Team → Team) : (s.setMe f).outside = s.outside := rfl
@[simp] theorem State.setMe_cyc (s : State) (f : Team → Team) : (s.setMe f).cyc = s.cyc := rfl
@[simp] theorem State.setMe_fresh (s : State) (f : Team → Team) : (s.setMe f).fresh = s.fresh := rfl
@[simp] theorem State.setMe_nextId (s : State) (f : Team → Team) : (s.setMe f).nextId = s.nextId := rfl
@[simp] theorem State.setMe_lastStall (s : State) (f : Team → Team) : (s.setMe f).lastStall = s.lastStall := rfl
@[simp] theorem State.setMe_lastDrain (s : State) (f : Team → Team) : (s.setMe f).lastDrain = s.lastDrain := rfl
@[simp] theorem State.setMe_agenda (s : State) (f : Team → Team) : (s.setMe f).agenda = s.agenda := rfl

@[simp] theorem State.updTeam_me (s : State) (i : Nat) (f : Team → Team) : (s.updTeam i f).me = if s.me.id.tid = i then f s.me else s.me := rfl
@[simp] theorem State.updTeam_teams (s : State) (i : Nat) (f : Team → Team) : (s.updTeam i f).teams = s.teams.map fun t => if t.id.tid = i then f t else t := rfl
@[simp] theorem State.updTeam_cores (s : State) (i : Nat) (f : Team → Team) : (s.updTeam i f).cores = s.cores := rfl
@[simp] theorem State.updTeam_mem (s : State) (i : Nat) (f : Team → Team) : (s.updTeam i f).mem = s.mem := rfl
@[simp] theorem State.updTeam_poison (s : State) (i : Nat) (f : Team → Team) : (s.updTeam i f).poison = s.poison := rfl
@[simp] theorem State.updTeam_dirty (s : State) (i : Nat) (f : Team → Team) : (s.updTeam i f).dirty = s.dirty := rfl
@[simp] theorem State.updTeam_clean (s : State) (i : Nat) (f : Team → Team) : (s.updTeam i f).clean = s.clean := rfl
@[simp] theorem State.updTeam_tlb (s : State) (i : Nat) (f : Team → Team) : (s.updTeam i f).tlb = s.tlb := rfl
@[simp] theorem State.updTeam_edits (s : State) (i : Nat) (f : Team → Team) : (s.updTeam i f).edits = s.edits := rfl
@[simp] theorem State.updTeam_sigq (s : State) (i : Nat) (f : Team → Team) : (s.updTeam i f).sigq = s.sigq := rfl
@[simp] theorem State.updTeam_dtlb (s : State) (i : Nat) (f : Team → Team) : (s.updTeam i f).dtlb = s.dtlb := rfl
@[simp] theorem State.updTeam_l2clk (s : State) (i : Nat) (f : Team → Team) : (s.updTeam i f).l2clk = s.l2clk := rfl
@[simp] theorem State.updTeam_chclk (s : State) (i : Nat) (f : Team → Team) : (s.updTeam i f).chclk = s.chclk := rfl
@[simp] theorem State.updTeam_now (s : State) (i : Nat) (f : Team → Team) : (s.updTeam i f).now = s.now := rfl
@[simp] theorem State.updTeam_icache (s : State) (i : Nat) (f : Team → Team) : (s.updTeam i f).icache = s.icache := rfl
@[simp] theorem State.updTeam_merges (s : State) (i : Nat) (f : Team → Team) : (s.updTeam i f).merges = s.merges := rfl
@[simp] theorem State.updTeam_ctxs (s : State) (i : Nat) (f : Team → Team) : (s.updTeam i f).ctxs = s.ctxs := rfl
@[simp] theorem State.updTeam_parts (s : State) (i : Nat) (f : Team → Team) : (s.updTeam i f).parts = s.parts := rfl
@[simp] theorem State.updTeam_copies (s : State) (i : Nat) (f : Team → Team) : (s.updTeam i f).copies = s.copies := rfl
@[simp] theorem State.updTeam_stuck (s : State) (i : Nat) (f : Team → Team) : (s.updTeam i f).stuck = s.stuck := rfl
@[simp] theorem State.updTeam_rings (s : State) (i : Nat) (f : Team → Team) : (s.updTeam i f).rings = s.rings := rfl
@[simp] theorem State.updTeam_ringWaits (s : State) (i : Nat) (f : Team → Team) : (s.updTeam i f).ringWaits = s.ringWaits := rfl
@[simp] theorem State.updTeam_waits (s : State) (i : Nat) (f : Team → Team) : (s.updTeam i f).waits = s.waits := rfl
@[simp] theorem State.updTeam_walks (s : State) (i : Nat) (f : Team → Team) : (s.updTeam i f).walks = s.walks := rfl
@[simp] theorem State.updTeam_gangs (s : State) (i : Nat) (f : Team → Team) : (s.updTeam i f).gangs = s.gangs := rfl
@[simp] theorem State.updTeam_queues (s : State) (i : Nat) (f : Team → Team) : (s.updTeam i f).queues = s.queues := rfl
@[simp] theorem State.updTeam_bundles (s : State) (i : Nat) (f : Team → Team) : (s.updTeam i f).bundles = s.bundles := rfl
@[simp] theorem State.updTeam_groups (s : State) (i : Nat) (f : Team → Team) : (s.updTeam i f).groups = s.groups := rfl
@[simp] theorem State.updTeam_images (s : State) (i : Nat) (f : Team → Team) : (s.updTeam i f).images = s.images := rfl
@[simp] theorem State.updTeam_io (s : State) (i : Nat) (f : Team → Team) : (s.updTeam i f).io = s.io := rfl
@[simp] theorem State.updTeam_energy (s : State) (i : Nat) (f : Team → Team) : (s.updTeam i f).energy = s.energy := rfl
@[simp] theorem State.updTeam_time (s : State) (i : Nat) (f : Team → Team) : (s.updTeam i f).time = s.time := rfl
@[simp] theorem State.updTeam_stallivl (s : State) (i : Nat) (f : Team → Team) : (s.updTeam i f).stallivl = s.stallivl := rfl
@[simp] theorem State.updTeam_pwrlim (s : State) (i : Nat) (f : Team → Team) : (s.updTeam i f).pwrlim = s.pwrlim := rfl
@[simp] theorem State.updTeam_ptpcfg (s : State) (i : Nat) (f : Team → Team) : (s.updTeam i f).ptpcfg = s.ptpcfg := rfl
@[simp] theorem State.updTeam_links (s : State) (i : Nat) (f : Team → Team) : (s.updTeam i f).links = s.links := rfl
@[simp] theorem State.updTeam_fuses (s : State) (i : Nat) (f : Team → Team) : (s.updTeam i f).fuses = s.fuses := rfl
@[simp] theorem State.updTeam_unpowered (s : State) (i : Nat) (f : Team → Team) : (s.updTeam i f).unpowered = s.unpowered := rfl
@[simp] theorem State.updTeam_exports (s : State) (i : Nat) (f : Team → Team) : (s.updTeam i f).exports = s.exports := rfl
@[simp] theorem State.updTeam_remotes (s : State) (i : Nat) (f : Team → Team) : (s.updTeam i f).remotes = s.remotes := rfl
@[simp] theorem State.updTeam_members (s : State) (i : Nat) (f : Team → Team) : (s.updTeam i f).members = s.members := rfl
@[simp] theorem State.updTeam_boot (s : State) (i : Nat) (f : Team → Team) : (s.updTeam i f).boot = s.boot := rfl
@[simp] theorem State.updTeam_outside (s : State) (i : Nat) (f : Team → Team) : (s.updTeam i f).outside = s.outside := rfl
@[simp] theorem State.updTeam_cyc (s : State) (i : Nat) (f : Team → Team) : (s.updTeam i f).cyc = s.cyc := rfl
@[simp] theorem State.updTeam_fresh (s : State) (i : Nat) (f : Team → Team) : (s.updTeam i f).fresh = s.fresh := rfl
@[simp] theorem State.updTeam_nextId (s : State) (i : Nat) (f : Team → Team) : (s.updTeam i f).nextId = s.nextId := rfl
@[simp] theorem State.updTeam_lastStall (s : State) (i : Nat) (f : Team → Team) : (s.updTeam i f).lastStall = s.lastStall := rfl
@[simp] theorem State.updTeam_lastDrain (s : State) (i : Nat) (f : Team → Team) : (s.updTeam i f).lastDrain = s.lastDrain := rfl
@[simp] theorem State.updTeam_agenda (s : State) (i : Nat) (f : Team → Team) : (s.updTeam i f).agenda = s.agenda := rfl

@[simp] theorem State.updCore_me (s : State) (c : Nat) (f : Core → Core) : (s.updCore c f).me = s.me := rfl
@[simp] theorem State.updCore_teams (s : State) (c : Nat) (f : Core → Core) : (s.updCore c f).teams = s.teams := rfl
@[simp] theorem State.updCore_cores (s : State) (c : Nat) (f : Core → Core) : (s.updCore c f).cores = s.cores.set (c % 256) (f (s.core c)) (Nat.mod_lt _ (by decide)) := rfl
@[simp] theorem State.updCore_mem (s : State) (c : Nat) (f : Core → Core) : (s.updCore c f).mem = s.mem := rfl
@[simp] theorem State.updCore_poison (s : State) (c : Nat) (f : Core → Core) : (s.updCore c f).poison = s.poison := rfl
@[simp] theorem State.updCore_dirty (s : State) (c : Nat) (f : Core → Core) : (s.updCore c f).dirty = s.dirty := rfl
@[simp] theorem State.updCore_clean (s : State) (c : Nat) (f : Core → Core) : (s.updCore c f).clean = s.clean := rfl
@[simp] theorem State.updCore_tlb (s : State) (c : Nat) (f : Core → Core) : (s.updCore c f).tlb = s.tlb := rfl
@[simp] theorem State.updCore_edits (s : State) (c : Nat) (f : Core → Core) : (s.updCore c f).edits = s.edits := rfl
@[simp] theorem State.updCore_sigq (s : State) (c : Nat) (f : Core → Core) : (s.updCore c f).sigq = s.sigq := rfl
@[simp] theorem State.updCore_dtlb (s : State) (c : Nat) (f : Core → Core) : (s.updCore c f).dtlb = s.dtlb := rfl
@[simp] theorem State.updCore_l2clk (s : State) (c : Nat) (f : Core → Core) : (s.updCore c f).l2clk = s.l2clk := rfl
@[simp] theorem State.updCore_chclk (s : State) (c : Nat) (f : Core → Core) : (s.updCore c f).chclk = s.chclk := rfl
@[simp] theorem State.updCore_now (s : State) (c : Nat) (f : Core → Core) : (s.updCore c f).now = s.now := rfl
@[simp] theorem State.updCore_icache (s : State) (c : Nat) (f : Core → Core) : (s.updCore c f).icache = s.icache := rfl
@[simp] theorem State.updCore_merges (s : State) (c : Nat) (f : Core → Core) : (s.updCore c f).merges = s.merges := rfl
@[simp] theorem State.updCore_ctxs (s : State) (c : Nat) (f : Core → Core) : (s.updCore c f).ctxs = s.ctxs := rfl
@[simp] theorem State.updCore_parts (s : State) (c : Nat) (f : Core → Core) : (s.updCore c f).parts = s.parts := rfl
@[simp] theorem State.updCore_copies (s : State) (c : Nat) (f : Core → Core) : (s.updCore c f).copies = s.copies := rfl
@[simp] theorem State.updCore_stuck (s : State) (c : Nat) (f : Core → Core) : (s.updCore c f).stuck = s.stuck := rfl
@[simp] theorem State.updCore_rings (s : State) (c : Nat) (f : Core → Core) : (s.updCore c f).rings = s.rings := rfl
@[simp] theorem State.updCore_ringWaits (s : State) (c : Nat) (f : Core → Core) : (s.updCore c f).ringWaits = s.ringWaits := rfl
@[simp] theorem State.updCore_waits (s : State) (c : Nat) (f : Core → Core) : (s.updCore c f).waits = s.waits := rfl
@[simp] theorem State.updCore_walks (s : State) (c : Nat) (f : Core → Core) : (s.updCore c f).walks = s.walks := rfl
@[simp] theorem State.updCore_gangs (s : State) (c : Nat) (f : Core → Core) : (s.updCore c f).gangs = s.gangs := rfl
@[simp] theorem State.updCore_queues (s : State) (c : Nat) (f : Core → Core) : (s.updCore c f).queues = s.queues := rfl
@[simp] theorem State.updCore_bundles (s : State) (c : Nat) (f : Core → Core) : (s.updCore c f).bundles = s.bundles := rfl
@[simp] theorem State.updCore_groups (s : State) (c : Nat) (f : Core → Core) : (s.updCore c f).groups = s.groups := rfl
@[simp] theorem State.updCore_images (s : State) (c : Nat) (f : Core → Core) : (s.updCore c f).images = s.images := rfl
@[simp] theorem State.updCore_io (s : State) (c : Nat) (f : Core → Core) : (s.updCore c f).io = s.io := rfl
@[simp] theorem State.updCore_energy (s : State) (c : Nat) (f : Core → Core) : (s.updCore c f).energy = s.energy := rfl
@[simp] theorem State.updCore_time (s : State) (c : Nat) (f : Core → Core) : (s.updCore c f).time = s.time := rfl
@[simp] theorem State.updCore_stallivl (s : State) (c : Nat) (f : Core → Core) : (s.updCore c f).stallivl = s.stallivl := rfl
@[simp] theorem State.updCore_pwrlim (s : State) (c : Nat) (f : Core → Core) : (s.updCore c f).pwrlim = s.pwrlim := rfl
@[simp] theorem State.updCore_ptpcfg (s : State) (c : Nat) (f : Core → Core) : (s.updCore c f).ptpcfg = s.ptpcfg := rfl
@[simp] theorem State.updCore_links (s : State) (c : Nat) (f : Core → Core) : (s.updCore c f).links = s.links := rfl
@[simp] theorem State.updCore_fuses (s : State) (c : Nat) (f : Core → Core) : (s.updCore c f).fuses = s.fuses := rfl
@[simp] theorem State.updCore_unpowered (s : State) (c : Nat) (f : Core → Core) : (s.updCore c f).unpowered = s.unpowered := rfl
@[simp] theorem State.updCore_exports (s : State) (c : Nat) (f : Core → Core) : (s.updCore c f).exports = s.exports := rfl
@[simp] theorem State.updCore_remotes (s : State) (c : Nat) (f : Core → Core) : (s.updCore c f).remotes = s.remotes := rfl
@[simp] theorem State.updCore_members (s : State) (c : Nat) (f : Core → Core) : (s.updCore c f).members = s.members := rfl
@[simp] theorem State.updCore_boot (s : State) (c : Nat) (f : Core → Core) : (s.updCore c f).boot = s.boot := rfl
@[simp] theorem State.updCore_outside (s : State) (c : Nat) (f : Core → Core) : (s.updCore c f).outside = s.outside := rfl
@[simp] theorem State.updCore_cyc (s : State) (c : Nat) (f : Core → Core) : (s.updCore c f).cyc = s.cyc := rfl
@[simp] theorem State.updCore_fresh (s : State) (c : Nat) (f : Core → Core) : (s.updCore c f).fresh = s.fresh := rfl
@[simp] theorem State.updCore_nextId (s : State) (c : Nat) (f : Core → Core) : (s.updCore c f).nextId = s.nextId := rfl
@[simp] theorem State.updCore_lastStall (s : State) (c : Nat) (f : Core → Core) : (s.updCore c f).lastStall = s.lastStall := rfl
@[simp] theorem State.updCore_lastDrain (s : State) (c : Nat) (f : Core → Core) : (s.updCore c f).lastDrain = s.lastDrain := rfl
@[simp] theorem State.updCore_agenda (s : State) (c : Nat) (f : Core → Core) : (s.updCore c f).agenda = s.agenda := rfl

@[simp] theorem State.updQueue_me (s : State) (q : Nat) (f : Queue → Queue) : (s.updQueue q f).me = s.me := rfl
@[simp] theorem State.updQueue_teams (s : State) (q : Nat) (f : Queue → Queue) : (s.updQueue q f).teams = s.teams := rfl
@[simp] theorem State.updQueue_cores (s : State) (q : Nat) (f : Queue → Queue) : (s.updQueue q f).cores = s.cores := rfl
@[simp] theorem State.updQueue_mem (s : State) (q : Nat) (f : Queue → Queue) : (s.updQueue q f).mem = s.mem := rfl
@[simp] theorem State.updQueue_poison (s : State) (q : Nat) (f : Queue → Queue) : (s.updQueue q f).poison = s.poison := rfl
@[simp] theorem State.updQueue_dirty (s : State) (q : Nat) (f : Queue → Queue) : (s.updQueue q f).dirty = s.dirty := rfl
@[simp] theorem State.updQueue_clean (s : State) (q : Nat) (f : Queue → Queue) : (s.updQueue q f).clean = s.clean := rfl
@[simp] theorem State.updQueue_tlb (s : State) (q : Nat) (f : Queue → Queue) : (s.updQueue q f).tlb = s.tlb := rfl
@[simp] theorem State.updQueue_edits (s : State) (q : Nat) (f : Queue → Queue) : (s.updQueue q f).edits = s.edits := rfl
@[simp] theorem State.updQueue_sigq (s : State) (q : Nat) (f : Queue → Queue) : (s.updQueue q f).sigq = s.sigq := rfl
@[simp] theorem State.updQueue_dtlb (s : State) (q : Nat) (f : Queue → Queue) : (s.updQueue q f).dtlb = s.dtlb := rfl
@[simp] theorem State.updQueue_l2clk (s : State) (q : Nat) (f : Queue → Queue) : (s.updQueue q f).l2clk = s.l2clk := rfl
@[simp] theorem State.updQueue_chclk (s : State) (q : Nat) (f : Queue → Queue) : (s.updQueue q f).chclk = s.chclk := rfl
@[simp] theorem State.updQueue_now (s : State) (q : Nat) (f : Queue → Queue) : (s.updQueue q f).now = s.now := rfl
@[simp] theorem State.updQueue_icache (s : State) (q : Nat) (f : Queue → Queue) : (s.updQueue q f).icache = s.icache := rfl
@[simp] theorem State.updQueue_merges (s : State) (q : Nat) (f : Queue → Queue) : (s.updQueue q f).merges = s.merges := rfl
@[simp] theorem State.updQueue_ctxs (s : State) (q : Nat) (f : Queue → Queue) : (s.updQueue q f).ctxs = s.ctxs := rfl
@[simp] theorem State.updQueue_parts (s : State) (q : Nat) (f : Queue → Queue) : (s.updQueue q f).parts = s.parts := rfl
@[simp] theorem State.updQueue_copies (s : State) (q : Nat) (f : Queue → Queue) : (s.updQueue q f).copies = s.copies := rfl
@[simp] theorem State.updQueue_stuck (s : State) (q : Nat) (f : Queue → Queue) : (s.updQueue q f).stuck = s.stuck := rfl
@[simp] theorem State.updQueue_rings (s : State) (q : Nat) (f : Queue → Queue) : (s.updQueue q f).rings = s.rings := rfl
@[simp] theorem State.updQueue_ringWaits (s : State) (q : Nat) (f : Queue → Queue) : (s.updQueue q f).ringWaits = s.ringWaits := rfl
@[simp] theorem State.updQueue_waits (s : State) (q : Nat) (f : Queue → Queue) : (s.updQueue q f).waits = s.waits := rfl
@[simp] theorem State.updQueue_walks (s : State) (q : Nat) (f : Queue → Queue) : (s.updQueue q f).walks = s.walks := rfl
@[simp] theorem State.updQueue_gangs (s : State) (q : Nat) (f : Queue → Queue) : (s.updQueue q f).gangs = s.gangs := rfl
@[simp] theorem State.updQueue_queues (s : State) (q : Nat) (f : Queue → Queue) : (s.updQueue q f).queues = s.queues.map fun x => if x.id = q then f x else x := rfl
@[simp] theorem State.updQueue_bundles (s : State) (q : Nat) (f : Queue → Queue) : (s.updQueue q f).bundles = s.bundles := rfl
@[simp] theorem State.updQueue_groups (s : State) (q : Nat) (f : Queue → Queue) : (s.updQueue q f).groups = s.groups := rfl
@[simp] theorem State.updQueue_images (s : State) (q : Nat) (f : Queue → Queue) : (s.updQueue q f).images = s.images := rfl
@[simp] theorem State.updQueue_io (s : State) (q : Nat) (f : Queue → Queue) : (s.updQueue q f).io = s.io := rfl
@[simp] theorem State.updQueue_energy (s : State) (q : Nat) (f : Queue → Queue) : (s.updQueue q f).energy = s.energy := rfl
@[simp] theorem State.updQueue_time (s : State) (q : Nat) (f : Queue → Queue) : (s.updQueue q f).time = s.time := rfl
@[simp] theorem State.updQueue_stallivl (s : State) (q : Nat) (f : Queue → Queue) : (s.updQueue q f).stallivl = s.stallivl := rfl
@[simp] theorem State.updQueue_pwrlim (s : State) (q : Nat) (f : Queue → Queue) : (s.updQueue q f).pwrlim = s.pwrlim := rfl
@[simp] theorem State.updQueue_ptpcfg (s : State) (q : Nat) (f : Queue → Queue) : (s.updQueue q f).ptpcfg = s.ptpcfg := rfl
@[simp] theorem State.updQueue_links (s : State) (q : Nat) (f : Queue → Queue) : (s.updQueue q f).links = s.links := rfl
@[simp] theorem State.updQueue_fuses (s : State) (q : Nat) (f : Queue → Queue) : (s.updQueue q f).fuses = s.fuses := rfl
@[simp] theorem State.updQueue_unpowered (s : State) (q : Nat) (f : Queue → Queue) : (s.updQueue q f).unpowered = s.unpowered := rfl
@[simp] theorem State.updQueue_exports (s : State) (q : Nat) (f : Queue → Queue) : (s.updQueue q f).exports = s.exports := rfl
@[simp] theorem State.updQueue_remotes (s : State) (q : Nat) (f : Queue → Queue) : (s.updQueue q f).remotes = s.remotes := rfl
@[simp] theorem State.updQueue_members (s : State) (q : Nat) (f : Queue → Queue) : (s.updQueue q f).members = s.members := rfl
@[simp] theorem State.updQueue_boot (s : State) (q : Nat) (f : Queue → Queue) : (s.updQueue q f).boot = s.boot := rfl
@[simp] theorem State.updQueue_outside (s : State) (q : Nat) (f : Queue → Queue) : (s.updQueue q f).outside = s.outside := rfl
@[simp] theorem State.updQueue_cyc (s : State) (q : Nat) (f : Queue → Queue) : (s.updQueue q f).cyc = s.cyc := rfl
@[simp] theorem State.updQueue_fresh (s : State) (q : Nat) (f : Queue → Queue) : (s.updQueue q f).fresh = s.fresh := rfl
@[simp] theorem State.updQueue_nextId (s : State) (q : Nat) (f : Queue → Queue) : (s.updQueue q f).nextId = s.nextId := rfl
@[simp] theorem State.updQueue_lastStall (s : State) (q : Nat) (f : Queue → Queue) : (s.updQueue q f).lastStall = s.lastStall := rfl
@[simp] theorem State.updQueue_lastDrain (s : State) (q : Nat) (f : Queue → Queue) : (s.updQueue q f).lastDrain = s.lastDrain := rfl
@[simp] theorem State.updQueue_agenda (s : State) (q : Nat) (f : Queue → Queue) : (s.updQueue q f).agenda = s.agenda := rfl

@[simp] theorem State.updBundle_me (s : State) (b : Nat) (f : Bundle → Bundle) : (s.updBundle b f).me = s.me := rfl
@[simp] theorem State.updBundle_teams (s : State) (b : Nat) (f : Bundle → Bundle) : (s.updBundle b f).teams = s.teams := rfl
@[simp] theorem State.updBundle_cores (s : State) (b : Nat) (f : Bundle → Bundle) : (s.updBundle b f).cores = s.cores := rfl
@[simp] theorem State.updBundle_mem (s : State) (b : Nat) (f : Bundle → Bundle) : (s.updBundle b f).mem = s.mem := rfl
@[simp] theorem State.updBundle_poison (s : State) (b : Nat) (f : Bundle → Bundle) : (s.updBundle b f).poison = s.poison := rfl
@[simp] theorem State.updBundle_dirty (s : State) (b : Nat) (f : Bundle → Bundle) : (s.updBundle b f).dirty = s.dirty := rfl
@[simp] theorem State.updBundle_clean (s : State) (b : Nat) (f : Bundle → Bundle) : (s.updBundle b f).clean = s.clean := rfl
@[simp] theorem State.updBundle_tlb (s : State) (b : Nat) (f : Bundle → Bundle) : (s.updBundle b f).tlb = s.tlb := rfl
@[simp] theorem State.updBundle_edits (s : State) (b : Nat) (f : Bundle → Bundle) : (s.updBundle b f).edits = s.edits := rfl
@[simp] theorem State.updBundle_sigq (s : State) (b : Nat) (f : Bundle → Bundle) : (s.updBundle b f).sigq = s.sigq := rfl
@[simp] theorem State.updBundle_dtlb (s : State) (b : Nat) (f : Bundle → Bundle) : (s.updBundle b f).dtlb = s.dtlb := rfl
@[simp] theorem State.updBundle_l2clk (s : State) (b : Nat) (f : Bundle → Bundle) : (s.updBundle b f).l2clk = s.l2clk := rfl
@[simp] theorem State.updBundle_chclk (s : State) (b : Nat) (f : Bundle → Bundle) : (s.updBundle b f).chclk = s.chclk := rfl
@[simp] theorem State.updBundle_now (s : State) (b : Nat) (f : Bundle → Bundle) : (s.updBundle b f).now = s.now := rfl
@[simp] theorem State.updBundle_icache (s : State) (b : Nat) (f : Bundle → Bundle) : (s.updBundle b f).icache = s.icache := rfl
@[simp] theorem State.updBundle_merges (s : State) (b : Nat) (f : Bundle → Bundle) : (s.updBundle b f).merges = s.merges := rfl
@[simp] theorem State.updBundle_ctxs (s : State) (b : Nat) (f : Bundle → Bundle) : (s.updBundle b f).ctxs = s.ctxs := rfl
@[simp] theorem State.updBundle_parts (s : State) (b : Nat) (f : Bundle → Bundle) : (s.updBundle b f).parts = s.parts := rfl
@[simp] theorem State.updBundle_copies (s : State) (b : Nat) (f : Bundle → Bundle) : (s.updBundle b f).copies = s.copies := rfl
@[simp] theorem State.updBundle_stuck (s : State) (b : Nat) (f : Bundle → Bundle) : (s.updBundle b f).stuck = s.stuck := rfl
@[simp] theorem State.updBundle_rings (s : State) (b : Nat) (f : Bundle → Bundle) : (s.updBundle b f).rings = s.rings := rfl
@[simp] theorem State.updBundle_ringWaits (s : State) (b : Nat) (f : Bundle → Bundle) : (s.updBundle b f).ringWaits = s.ringWaits := rfl
@[simp] theorem State.updBundle_waits (s : State) (b : Nat) (f : Bundle → Bundle) : (s.updBundle b f).waits = s.waits := rfl
@[simp] theorem State.updBundle_walks (s : State) (b : Nat) (f : Bundle → Bundle) : (s.updBundle b f).walks = s.walks := rfl
@[simp] theorem State.updBundle_gangs (s : State) (b : Nat) (f : Bundle → Bundle) : (s.updBundle b f).gangs = s.gangs := rfl
@[simp] theorem State.updBundle_queues (s : State) (b : Nat) (f : Bundle → Bundle) : (s.updBundle b f).queues = s.queues := rfl
@[simp] theorem State.updBundle_bundles (s : State) (b : Nat) (f : Bundle → Bundle) : (s.updBundle b f).bundles = s.bundles.map fun x => if x.id = b then f x else x := rfl
@[simp] theorem State.updBundle_groups (s : State) (b : Nat) (f : Bundle → Bundle) : (s.updBundle b f).groups = s.groups := rfl
@[simp] theorem State.updBundle_images (s : State) (b : Nat) (f : Bundle → Bundle) : (s.updBundle b f).images = s.images := rfl
@[simp] theorem State.updBundle_io (s : State) (b : Nat) (f : Bundle → Bundle) : (s.updBundle b f).io = s.io := rfl
@[simp] theorem State.updBundle_energy (s : State) (b : Nat) (f : Bundle → Bundle) : (s.updBundle b f).energy = s.energy := rfl
@[simp] theorem State.updBundle_time (s : State) (b : Nat) (f : Bundle → Bundle) : (s.updBundle b f).time = s.time := rfl
@[simp] theorem State.updBundle_stallivl (s : State) (b : Nat) (f : Bundle → Bundle) : (s.updBundle b f).stallivl = s.stallivl := rfl
@[simp] theorem State.updBundle_pwrlim (s : State) (b : Nat) (f : Bundle → Bundle) : (s.updBundle b f).pwrlim = s.pwrlim := rfl
@[simp] theorem State.updBundle_ptpcfg (s : State) (b : Nat) (f : Bundle → Bundle) : (s.updBundle b f).ptpcfg = s.ptpcfg := rfl
@[simp] theorem State.updBundle_links (s : State) (b : Nat) (f : Bundle → Bundle) : (s.updBundle b f).links = s.links := rfl
@[simp] theorem State.updBundle_fuses (s : State) (b : Nat) (f : Bundle → Bundle) : (s.updBundle b f).fuses = s.fuses := rfl
@[simp] theorem State.updBundle_unpowered (s : State) (b : Nat) (f : Bundle → Bundle) : (s.updBundle b f).unpowered = s.unpowered := rfl
@[simp] theorem State.updBundle_exports (s : State) (b : Nat) (f : Bundle → Bundle) : (s.updBundle b f).exports = s.exports := rfl
@[simp] theorem State.updBundle_remotes (s : State) (b : Nat) (f : Bundle → Bundle) : (s.updBundle b f).remotes = s.remotes := rfl
@[simp] theorem State.updBundle_members (s : State) (b : Nat) (f : Bundle → Bundle) : (s.updBundle b f).members = s.members := rfl
@[simp] theorem State.updBundle_boot (s : State) (b : Nat) (f : Bundle → Bundle) : (s.updBundle b f).boot = s.boot := rfl
@[simp] theorem State.updBundle_outside (s : State) (b : Nat) (f : Bundle → Bundle) : (s.updBundle b f).outside = s.outside := rfl
@[simp] theorem State.updBundle_cyc (s : State) (b : Nat) (f : Bundle → Bundle) : (s.updBundle b f).cyc = s.cyc := rfl
@[simp] theorem State.updBundle_fresh (s : State) (b : Nat) (f : Bundle → Bundle) : (s.updBundle b f).fresh = s.fresh := rfl
@[simp] theorem State.updBundle_nextId (s : State) (b : Nat) (f : Bundle → Bundle) : (s.updBundle b f).nextId = s.nextId := rfl
@[simp] theorem State.updBundle_lastStall (s : State) (b : Nat) (f : Bundle → Bundle) : (s.updBundle b f).lastStall = s.lastStall := rfl
@[simp] theorem State.updBundle_lastDrain (s : State) (b : Nat) (f : Bundle → Bundle) : (s.updBundle b f).lastDrain = s.lastDrain := rfl
@[simp] theorem State.updBundle_agenda (s : State) (b : Nat) (f : Bundle → Bundle) : (s.updBundle b f).agenda = s.agenda := rfl

@[simp] theorem State.updWalk_me (s : State) (w : Nat) (f : Walk → Walk) : (s.updWalk w f).me = s.me := rfl
@[simp] theorem State.updWalk_teams (s : State) (w : Nat) (f : Walk → Walk) : (s.updWalk w f).teams = s.teams := rfl
@[simp] theorem State.updWalk_cores (s : State) (w : Nat) (f : Walk → Walk) : (s.updWalk w f).cores = s.cores := rfl
@[simp] theorem State.updWalk_mem (s : State) (w : Nat) (f : Walk → Walk) : (s.updWalk w f).mem = s.mem := rfl
@[simp] theorem State.updWalk_poison (s : State) (w : Nat) (f : Walk → Walk) : (s.updWalk w f).poison = s.poison := rfl
@[simp] theorem State.updWalk_dirty (s : State) (w : Nat) (f : Walk → Walk) : (s.updWalk w f).dirty = s.dirty := rfl
@[simp] theorem State.updWalk_clean (s : State) (w : Nat) (f : Walk → Walk) : (s.updWalk w f).clean = s.clean := rfl
@[simp] theorem State.updWalk_tlb (s : State) (w : Nat) (f : Walk → Walk) : (s.updWalk w f).tlb = s.tlb := rfl
@[simp] theorem State.updWalk_edits (s : State) (w : Nat) (f : Walk → Walk) : (s.updWalk w f).edits = s.edits := rfl
@[simp] theorem State.updWalk_sigq (s : State) (w : Nat) (f : Walk → Walk) : (s.updWalk w f).sigq = s.sigq := rfl
@[simp] theorem State.updWalk_dtlb (s : State) (w : Nat) (f : Walk → Walk) : (s.updWalk w f).dtlb = s.dtlb := rfl
@[simp] theorem State.updWalk_l2clk (s : State) (w : Nat) (f : Walk → Walk) : (s.updWalk w f).l2clk = s.l2clk := rfl
@[simp] theorem State.updWalk_chclk (s : State) (w : Nat) (f : Walk → Walk) : (s.updWalk w f).chclk = s.chclk := rfl
@[simp] theorem State.updWalk_now (s : State) (w : Nat) (f : Walk → Walk) : (s.updWalk w f).now = s.now := rfl
@[simp] theorem State.updWalk_icache (s : State) (w : Nat) (f : Walk → Walk) : (s.updWalk w f).icache = s.icache := rfl
@[simp] theorem State.updWalk_merges (s : State) (w : Nat) (f : Walk → Walk) : (s.updWalk w f).merges = s.merges := rfl
@[simp] theorem State.updWalk_ctxs (s : State) (w : Nat) (f : Walk → Walk) : (s.updWalk w f).ctxs = s.ctxs := rfl
@[simp] theorem State.updWalk_parts (s : State) (w : Nat) (f : Walk → Walk) : (s.updWalk w f).parts = s.parts := rfl
@[simp] theorem State.updWalk_copies (s : State) (w : Nat) (f : Walk → Walk) : (s.updWalk w f).copies = s.copies := rfl
@[simp] theorem State.updWalk_stuck (s : State) (w : Nat) (f : Walk → Walk) : (s.updWalk w f).stuck = s.stuck := rfl
@[simp] theorem State.updWalk_rings (s : State) (w : Nat) (f : Walk → Walk) : (s.updWalk w f).rings = s.rings := rfl
@[simp] theorem State.updWalk_ringWaits (s : State) (w : Nat) (f : Walk → Walk) : (s.updWalk w f).ringWaits = s.ringWaits := rfl
@[simp] theorem State.updWalk_waits (s : State) (w : Nat) (f : Walk → Walk) : (s.updWalk w f).waits = s.waits := rfl
@[simp] theorem State.updWalk_walks (s : State) (w : Nat) (f : Walk → Walk) : (s.updWalk w f).walks = s.walks.map fun x => if x.id = w then f x else x := rfl
@[simp] theorem State.updWalk_gangs (s : State) (w : Nat) (f : Walk → Walk) : (s.updWalk w f).gangs = s.gangs := rfl
@[simp] theorem State.updWalk_queues (s : State) (w : Nat) (f : Walk → Walk) : (s.updWalk w f).queues = s.queues := rfl
@[simp] theorem State.updWalk_bundles (s : State) (w : Nat) (f : Walk → Walk) : (s.updWalk w f).bundles = s.bundles := rfl
@[simp] theorem State.updWalk_groups (s : State) (w : Nat) (f : Walk → Walk) : (s.updWalk w f).groups = s.groups := rfl
@[simp] theorem State.updWalk_images (s : State) (w : Nat) (f : Walk → Walk) : (s.updWalk w f).images = s.images := rfl
@[simp] theorem State.updWalk_io (s : State) (w : Nat) (f : Walk → Walk) : (s.updWalk w f).io = s.io := rfl
@[simp] theorem State.updWalk_energy (s : State) (w : Nat) (f : Walk → Walk) : (s.updWalk w f).energy = s.energy := rfl
@[simp] theorem State.updWalk_time (s : State) (w : Nat) (f : Walk → Walk) : (s.updWalk w f).time = s.time := rfl
@[simp] theorem State.updWalk_stallivl (s : State) (w : Nat) (f : Walk → Walk) : (s.updWalk w f).stallivl = s.stallivl := rfl
@[simp] theorem State.updWalk_pwrlim (s : State) (w : Nat) (f : Walk → Walk) : (s.updWalk w f).pwrlim = s.pwrlim := rfl
@[simp] theorem State.updWalk_ptpcfg (s : State) (w : Nat) (f : Walk → Walk) : (s.updWalk w f).ptpcfg = s.ptpcfg := rfl
@[simp] theorem State.updWalk_links (s : State) (w : Nat) (f : Walk → Walk) : (s.updWalk w f).links = s.links := rfl
@[simp] theorem State.updWalk_fuses (s : State) (w : Nat) (f : Walk → Walk) : (s.updWalk w f).fuses = s.fuses := rfl
@[simp] theorem State.updWalk_unpowered (s : State) (w : Nat) (f : Walk → Walk) : (s.updWalk w f).unpowered = s.unpowered := rfl
@[simp] theorem State.updWalk_exports (s : State) (w : Nat) (f : Walk → Walk) : (s.updWalk w f).exports = s.exports := rfl
@[simp] theorem State.updWalk_remotes (s : State) (w : Nat) (f : Walk → Walk) : (s.updWalk w f).remotes = s.remotes := rfl
@[simp] theorem State.updWalk_members (s : State) (w : Nat) (f : Walk → Walk) : (s.updWalk w f).members = s.members := rfl
@[simp] theorem State.updWalk_boot (s : State) (w : Nat) (f : Walk → Walk) : (s.updWalk w f).boot = s.boot := rfl
@[simp] theorem State.updWalk_outside (s : State) (w : Nat) (f : Walk → Walk) : (s.updWalk w f).outside = s.outside := rfl
@[simp] theorem State.updWalk_cyc (s : State) (w : Nat) (f : Walk → Walk) : (s.updWalk w f).cyc = s.cyc := rfl
@[simp] theorem State.updWalk_fresh (s : State) (w : Nat) (f : Walk → Walk) : (s.updWalk w f).fresh = s.fresh := rfl
@[simp] theorem State.updWalk_nextId (s : State) (w : Nat) (f : Walk → Walk) : (s.updWalk w f).nextId = s.nextId := rfl
@[simp] theorem State.updWalk_lastStall (s : State) (w : Nat) (f : Walk → Walk) : (s.updWalk w f).lastStall = s.lastStall := rfl
@[simp] theorem State.updWalk_lastDrain (s : State) (w : Nat) (f : Walk → Walk) : (s.updWalk w f).lastDrain = s.lastDrain := rfl
@[simp] theorem State.updWalk_agenda (s : State) (w : Nat) (f : Walk → Walk) : (s.updWalk w f).agenda = s.agenda := rfl

@[simp] theorem State.draw_me (s : State) : (s.draw.2).me = s.me := rfl
@[simp] theorem State.draw_teams (s : State) : (s.draw.2).teams = s.teams := rfl
@[simp] theorem State.draw_cores (s : State) : (s.draw.2).cores = s.cores := rfl
@[simp] theorem State.draw_mem (s : State) : (s.draw.2).mem = s.mem := rfl
@[simp] theorem State.draw_poison (s : State) : (s.draw.2).poison = s.poison := rfl
@[simp] theorem State.draw_dirty (s : State) : (s.draw.2).dirty = s.dirty := rfl
@[simp] theorem State.draw_clean (s : State) : (s.draw.2).clean = s.clean := rfl
@[simp] theorem State.draw_tlb (s : State) : (s.draw.2).tlb = s.tlb := rfl
@[simp] theorem State.draw_edits (s : State) : (s.draw.2).edits = s.edits := rfl
@[simp] theorem State.draw_sigq (s : State) : (s.draw.2).sigq = s.sigq := rfl
@[simp] theorem State.draw_dtlb (s : State) : (s.draw.2).dtlb = s.dtlb := rfl
@[simp] theorem State.draw_l2clk (s : State) : (s.draw.2).l2clk = s.l2clk := rfl
@[simp] theorem State.draw_chclk (s : State) : (s.draw.2).chclk = s.chclk := rfl
@[simp] theorem State.draw_now (s : State) : (s.draw.2).now = s.now := rfl
@[simp] theorem State.draw_icache (s : State) : (s.draw.2).icache = s.icache := rfl
@[simp] theorem State.draw_merges (s : State) : (s.draw.2).merges = s.merges := rfl
@[simp] theorem State.draw_ctxs (s : State) : (s.draw.2).ctxs = s.ctxs := rfl
@[simp] theorem State.draw_parts (s : State) : (s.draw.2).parts = s.parts := rfl
@[simp] theorem State.draw_copies (s : State) : (s.draw.2).copies = s.copies := rfl
@[simp] theorem State.draw_stuck (s : State) : (s.draw.2).stuck = s.stuck := rfl
@[simp] theorem State.draw_rings (s : State) : (s.draw.2).rings = s.rings := rfl
@[simp] theorem State.draw_ringWaits (s : State) : (s.draw.2).ringWaits = s.ringWaits := rfl
@[simp] theorem State.draw_waits (s : State) : (s.draw.2).waits = s.waits := rfl
@[simp] theorem State.draw_walks (s : State) : (s.draw.2).walks = s.walks := rfl
@[simp] theorem State.draw_gangs (s : State) : (s.draw.2).gangs = s.gangs := rfl
@[simp] theorem State.draw_queues (s : State) : (s.draw.2).queues = s.queues := rfl
@[simp] theorem State.draw_bundles (s : State) : (s.draw.2).bundles = s.bundles := rfl
@[simp] theorem State.draw_groups (s : State) : (s.draw.2).groups = s.groups := rfl
@[simp] theorem State.draw_images (s : State) : (s.draw.2).images = s.images := rfl
@[simp] theorem State.draw_io (s : State) : (s.draw.2).io = s.io := rfl
@[simp] theorem State.draw_energy (s : State) : (s.draw.2).energy = s.energy := rfl
@[simp] theorem State.draw_time (s : State) : (s.draw.2).time = s.time := rfl
@[simp] theorem State.draw_stallivl (s : State) : (s.draw.2).stallivl = s.stallivl := rfl
@[simp] theorem State.draw_pwrlim (s : State) : (s.draw.2).pwrlim = s.pwrlim := rfl
@[simp] theorem State.draw_ptpcfg (s : State) : (s.draw.2).ptpcfg = s.ptpcfg := rfl
@[simp] theorem State.draw_links (s : State) : (s.draw.2).links = s.links := rfl
@[simp] theorem State.draw_fuses (s : State) : (s.draw.2).fuses = s.fuses := rfl
@[simp] theorem State.draw_unpowered (s : State) : (s.draw.2).unpowered = s.unpowered := rfl
@[simp] theorem State.draw_exports (s : State) : (s.draw.2).exports = s.exports := rfl
@[simp] theorem State.draw_remotes (s : State) : (s.draw.2).remotes = s.remotes := rfl
@[simp] theorem State.draw_members (s : State) : (s.draw.2).members = s.members := rfl
@[simp] theorem State.draw_boot (s : State) : (s.draw.2).boot = s.boot := rfl
@[simp] theorem State.draw_outside (s : State) : (s.draw.2).outside = s.outside := rfl
@[simp] theorem State.draw_cyc (s : State) : (s.draw.2).cyc = s.cyc := rfl
@[simp] theorem State.draw_fresh (s : State) : (s.draw.2).fresh = s.fresh + 1 := rfl
@[simp] theorem State.draw_nextId (s : State) : (s.draw.2).nextId = s.nextId := rfl
@[simp] theorem State.draw_lastStall (s : State) : (s.draw.2).lastStall = s.lastStall := rfl
@[simp] theorem State.draw_lastDrain (s : State) : (s.draw.2).lastDrain = s.lastDrain := rfl
@[simp] theorem State.draw_agenda (s : State) : (s.draw.2).agenda = s.agenda := rfl

@[simp] theorem State.newId_me (s : State) : (s.newId.2).me = s.me := rfl
@[simp] theorem State.newId_teams (s : State) : (s.newId.2).teams = s.teams := rfl
@[simp] theorem State.newId_cores (s : State) : (s.newId.2).cores = s.cores := rfl
@[simp] theorem State.newId_mem (s : State) : (s.newId.2).mem = s.mem := rfl
@[simp] theorem State.newId_poison (s : State) : (s.newId.2).poison = s.poison := rfl
@[simp] theorem State.newId_dirty (s : State) : (s.newId.2).dirty = s.dirty := rfl
@[simp] theorem State.newId_clean (s : State) : (s.newId.2).clean = s.clean := rfl
@[simp] theorem State.newId_tlb (s : State) : (s.newId.2).tlb = s.tlb := rfl
@[simp] theorem State.newId_edits (s : State) : (s.newId.2).edits = s.edits := rfl
@[simp] theorem State.newId_sigq (s : State) : (s.newId.2).sigq = s.sigq := rfl
@[simp] theorem State.newId_dtlb (s : State) : (s.newId.2).dtlb = s.dtlb := rfl
@[simp] theorem State.newId_l2clk (s : State) : (s.newId.2).l2clk = s.l2clk := rfl
@[simp] theorem State.newId_chclk (s : State) : (s.newId.2).chclk = s.chclk := rfl
@[simp] theorem State.newId_now (s : State) : (s.newId.2).now = s.now := rfl
@[simp] theorem State.newId_icache (s : State) : (s.newId.2).icache = s.icache := rfl
@[simp] theorem State.newId_merges (s : State) : (s.newId.2).merges = s.merges := rfl
@[simp] theorem State.newId_ctxs (s : State) : (s.newId.2).ctxs = s.ctxs := rfl
@[simp] theorem State.newId_parts (s : State) : (s.newId.2).parts = s.parts := rfl
@[simp] theorem State.newId_copies (s : State) : (s.newId.2).copies = s.copies := rfl
@[simp] theorem State.newId_stuck (s : State) : (s.newId.2).stuck = s.stuck := rfl
@[simp] theorem State.newId_rings (s : State) : (s.newId.2).rings = s.rings := rfl
@[simp] theorem State.newId_ringWaits (s : State) : (s.newId.2).ringWaits = s.ringWaits := rfl
@[simp] theorem State.newId_waits (s : State) : (s.newId.2).waits = s.waits := rfl
@[simp] theorem State.newId_walks (s : State) : (s.newId.2).walks = s.walks := rfl
@[simp] theorem State.newId_gangs (s : State) : (s.newId.2).gangs = s.gangs := rfl
@[simp] theorem State.newId_queues (s : State) : (s.newId.2).queues = s.queues := rfl
@[simp] theorem State.newId_bundles (s : State) : (s.newId.2).bundles = s.bundles := rfl
@[simp] theorem State.newId_groups (s : State) : (s.newId.2).groups = s.groups := rfl
@[simp] theorem State.newId_images (s : State) : (s.newId.2).images = s.images := rfl
@[simp] theorem State.newId_io (s : State) : (s.newId.2).io = s.io := rfl
@[simp] theorem State.newId_energy (s : State) : (s.newId.2).energy = s.energy := rfl
@[simp] theorem State.newId_time (s : State) : (s.newId.2).time = s.time := rfl
@[simp] theorem State.newId_stallivl (s : State) : (s.newId.2).stallivl = s.stallivl := rfl
@[simp] theorem State.newId_pwrlim (s : State) : (s.newId.2).pwrlim = s.pwrlim := rfl
@[simp] theorem State.newId_ptpcfg (s : State) : (s.newId.2).ptpcfg = s.ptpcfg := rfl
@[simp] theorem State.newId_links (s : State) : (s.newId.2).links = s.links := rfl
@[simp] theorem State.newId_fuses (s : State) : (s.newId.2).fuses = s.fuses := rfl
@[simp] theorem State.newId_unpowered (s : State) : (s.newId.2).unpowered = s.unpowered := rfl
@[simp] theorem State.newId_exports (s : State) : (s.newId.2).exports = s.exports := rfl
@[simp] theorem State.newId_remotes (s : State) : (s.newId.2).remotes = s.remotes := rfl
@[simp] theorem State.newId_members (s : State) : (s.newId.2).members = s.members := rfl
@[simp] theorem State.newId_boot (s : State) : (s.newId.2).boot = s.boot := rfl
@[simp] theorem State.newId_outside (s : State) : (s.newId.2).outside = s.outside := rfl
@[simp] theorem State.newId_cyc (s : State) : (s.newId.2).cyc = s.cyc := rfl
@[simp] theorem State.newId_fresh (s : State) : (s.newId.2).fresh = s.fresh := rfl
@[simp] theorem State.newId_nextId (s : State) : (s.newId.2).nextId = s.nextId + 1 := rfl
@[simp] theorem State.newId_lastStall (s : State) : (s.newId.2).lastStall = s.lastStall := rfl
@[simp] theorem State.newId_lastDrain (s : State) : (s.newId.2).lastDrain = s.lastDrain := rfl
@[simp] theorem State.newId_agenda (s : State) : (s.newId.2).agenda = s.agenda := rfl

@[simp] theorem State.perform_me (s : State) (bs : List (Nat × Byte)) : (s.perform bs).me = s.me := rfl
@[simp] theorem State.perform_teams (s : State) (bs : List (Nat × Byte)) : (s.perform bs).teams = s.teams := rfl
@[simp] theorem State.perform_cores (s : State) (bs : List (Nat × Byte)) : (s.perform bs).cores = s.cores := rfl
@[simp] theorem State.perform_mem (s : State) (bs : List (Nat × Byte)) : (s.perform bs).mem = writePairs s.mem bs := rfl
@[simp] theorem State.perform_poison (s : State) (bs : List (Nat × Byte)) : (s.perform bs).poison = s.poison := rfl
@[simp] theorem State.perform_dirty (s : State) (bs : List (Nat × Byte)) : (s.perform bs).dirty = s.dirty := rfl
@[simp] theorem State.perform_clean (s : State) (bs : List (Nat × Byte)) : (s.perform bs).clean = s.clean := rfl
@[simp] theorem State.perform_tlb (s : State) (bs : List (Nat × Byte)) : (s.perform bs).tlb = s.tlb := rfl
@[simp] theorem State.perform_edits (s : State) (bs : List (Nat × Byte)) : (s.perform bs).edits = s.edits := rfl
@[simp] theorem State.perform_sigq (s : State) (bs : List (Nat × Byte)) : (s.perform bs).sigq = s.sigq := rfl
@[simp] theorem State.perform_dtlb (s : State) (bs : List (Nat × Byte)) : (s.perform bs).dtlb = s.dtlb := rfl
@[simp] theorem State.perform_l2clk (s : State) (bs : List (Nat × Byte)) : (s.perform bs).l2clk = s.l2clk := rfl
@[simp] theorem State.perform_chclk (s : State) (bs : List (Nat × Byte)) : (s.perform bs).chclk = s.chclk := rfl
@[simp] theorem State.perform_now (s : State) (bs : List (Nat × Byte)) : (s.perform bs).now = s.now := rfl
@[simp] theorem State.perform_icache (s : State) (bs : List (Nat × Byte)) : (s.perform bs).icache = s.icache := rfl
@[simp] theorem State.perform_merges (s : State) (bs : List (Nat × Byte)) : (s.perform bs).merges = s.merges := rfl
@[simp] theorem State.perform_ctxs (s : State) (bs : List (Nat × Byte)) : (s.perform bs).ctxs = s.ctxs := rfl
@[simp] theorem State.perform_parts (s : State) (bs : List (Nat × Byte)) : (s.perform bs).parts = s.parts := rfl
@[simp] theorem State.perform_copies (s : State) (bs : List (Nat × Byte)) : (s.perform bs).copies = s.copies := rfl
@[simp] theorem State.perform_stuck (s : State) (bs : List (Nat × Byte)) : (s.perform bs).stuck = s.stuck := rfl
@[simp] theorem State.perform_rings (s : State) (bs : List (Nat × Byte)) : (s.perform bs).rings = s.rings := rfl
@[simp] theorem State.perform_ringWaits (s : State) (bs : List (Nat × Byte)) : (s.perform bs).ringWaits = s.ringWaits := rfl
@[simp] theorem State.perform_waits (s : State) (bs : List (Nat × Byte)) : (s.perform bs).waits = s.waits.map (Wait.look (writePairs s.mem bs)) := rfl
@[simp] theorem State.perform_walks (s : State) (bs : List (Nat × Byte)) : (s.perform bs).walks = s.walks := rfl
@[simp] theorem State.perform_gangs (s : State) (bs : List (Nat × Byte)) : (s.perform bs).gangs = s.gangs := rfl
@[simp] theorem State.perform_queues (s : State) (bs : List (Nat × Byte)) : (s.perform bs).queues = s.queues := rfl
@[simp] theorem State.perform_bundles (s : State) (bs : List (Nat × Byte)) : (s.perform bs).bundles = s.bundles := rfl
@[simp] theorem State.perform_groups (s : State) (bs : List (Nat × Byte)) : (s.perform bs).groups = s.groups := rfl
@[simp] theorem State.perform_images (s : State) (bs : List (Nat × Byte)) : (s.perform bs).images = s.images := rfl
@[simp] theorem State.perform_io (s : State) (bs : List (Nat × Byte)) : (s.perform bs).io = s.io := rfl
@[simp] theorem State.perform_energy (s : State) (bs : List (Nat × Byte)) : (s.perform bs).energy = s.energy := rfl
@[simp] theorem State.perform_time (s : State) (bs : List (Nat × Byte)) : (s.perform bs).time = s.time := rfl
@[simp] theorem State.perform_stallivl (s : State) (bs : List (Nat × Byte)) : (s.perform bs).stallivl = s.stallivl := rfl
@[simp] theorem State.perform_pwrlim (s : State) (bs : List (Nat × Byte)) : (s.perform bs).pwrlim = s.pwrlim := rfl
@[simp] theorem State.perform_ptpcfg (s : State) (bs : List (Nat × Byte)) : (s.perform bs).ptpcfg = s.ptpcfg := rfl
@[simp] theorem State.perform_links (s : State) (bs : List (Nat × Byte)) : (s.perform bs).links = s.links := rfl
@[simp] theorem State.perform_fuses (s : State) (bs : List (Nat × Byte)) : (s.perform bs).fuses = s.fuses := rfl
@[simp] theorem State.perform_unpowered (s : State) (bs : List (Nat × Byte)) : (s.perform bs).unpowered = s.unpowered := rfl
@[simp] theorem State.perform_exports (s : State) (bs : List (Nat × Byte)) : (s.perform bs).exports = s.exports := rfl
@[simp] theorem State.perform_remotes (s : State) (bs : List (Nat × Byte)) : (s.perform bs).remotes = s.remotes := rfl
@[simp] theorem State.perform_members (s : State) (bs : List (Nat × Byte)) : (s.perform bs).members = s.members := rfl
@[simp] theorem State.perform_boot (s : State) (bs : List (Nat × Byte)) : (s.perform bs).boot = s.boot := rfl
@[simp] theorem State.perform_outside (s : State) (bs : List (Nat × Byte)) : (s.perform bs).outside = s.outside := rfl
@[simp] theorem State.perform_cyc (s : State) (bs : List (Nat × Byte)) : (s.perform bs).cyc = s.cyc := rfl
@[simp] theorem State.perform_fresh (s : State) (bs : List (Nat × Byte)) : (s.perform bs).fresh = s.fresh := rfl
@[simp] theorem State.perform_nextId (s : State) (bs : List (Nat × Byte)) : (s.perform bs).nextId = s.nextId := rfl
@[simp] theorem State.perform_lastStall (s : State) (bs : List (Nat × Byte)) : (s.perform bs).lastStall = s.lastStall := rfl
@[simp] theorem State.perform_lastDrain (s : State) (bs : List (Nat × Byte)) : (s.perform bs).lastDrain = s.lastDrain := rfl
@[simp] theorem State.perform_agenda (s : State) (bs : List (Nat × Byte)) : (s.perform bs).agenda = s.agenda := rfl

/-! ### Updates of a team -/

@[simp] theorem Team.updRegs_id (t : Team) (f : Regs → Regs) : (t.updRegs f).id = t.id := rfl
@[simp] theorem Team.updRegs_place (t : Team) (f : Regs → Regs) : (t.updRegs f).place = t.place := rfl
@[simp] theorem Team.updRegs_regs (t : Team) (f : Regs → Regs) : (t.updRegs f).regs = f t.regs := rfl
@[simp] theorem Team.updRegs_ctl (t : Team) (f : Regs → Regs) : (t.updRegs f).ctl = t.ctl := rfl
@[simp] theorem Team.updRegs_flow (t : Team) (f : Regs → Regs) : (t.updRegs f).flow = t.flow := rfl
@[simp] theorem Team.updRegs_sch (t : Team) (f : Regs → Regs) : (t.updRegs f).sch = t.sch := rfl

@[simp] theorem Team.updCtl_id (t : Team) (f : Ctl → Ctl) : (t.updCtl f).id = t.id := rfl
@[simp] theorem Team.updCtl_place (t : Team) (f : Ctl → Ctl) : (t.updCtl f).place = t.place := rfl
@[simp] theorem Team.updCtl_regs (t : Team) (f : Ctl → Ctl) : (t.updCtl f).regs = t.regs := rfl
@[simp] theorem Team.updCtl_ctl (t : Team) (f : Ctl → Ctl) : (t.updCtl f).ctl = f t.ctl := rfl
@[simp] theorem Team.updCtl_flow (t : Team) (f : Ctl → Ctl) : (t.updCtl f).flow = t.flow := rfl
@[simp] theorem Team.updCtl_sch (t : Team) (f : Ctl → Ctl) : (t.updCtl f).sch = t.sch := rfl

@[simp] theorem Team.updFlow_id (t : Team) (f : Flow → Flow) : (t.updFlow f).id = t.id := rfl
@[simp] theorem Team.updFlow_place (t : Team) (f : Flow → Flow) : (t.updFlow f).place = t.place := rfl
@[simp] theorem Team.updFlow_regs (t : Team) (f : Flow → Flow) : (t.updFlow f).regs = t.regs := rfl
@[simp] theorem Team.updFlow_ctl (t : Team) (f : Flow → Flow) : (t.updFlow f).ctl = t.ctl := rfl
@[simp] theorem Team.updFlow_flow (t : Team) (f : Flow → Flow) : (t.updFlow f).flow = f t.flow := rfl
@[simp] theorem Team.updFlow_sch (t : Team) (f : Flow → Flow) : (t.updFlow f).sch = t.sch := rfl

@[simp] theorem Team.setS_id (t : Team) (r : SReg) (x : W64) : (t.setS r x).id = t.id := rfl
@[simp] theorem Team.setS_place (t : Team) (r : SReg) (x : W64) : (t.setS r x).place = t.place := rfl
@[simp] theorem Team.setS_regs (t : Team) (r : SReg) (x : W64) : (t.setS r x).regs = { t.regs with s := t.regs.s.set r x } := rfl
@[simp] theorem Team.setS_ctl (t : Team) (r : SReg) (x : W64) : (t.setS r x).ctl = t.ctl := rfl
@[simp] theorem Team.setS_flow (t : Team) (r : SReg) (x : W64) : (t.setS r x).flow = t.flow := rfl
@[simp] theorem Team.setS_sch (t : Team) (r : SReg) (x : W64) : (t.setS r x).sch = t.sch := rfl

@[simp] theorem Team.setA_id (t : Team) (r : AReg) (x : W80) : (t.setA r x).id = t.id := rfl
@[simp] theorem Team.setA_place (t : Team) (r : AReg) (x : W80) : (t.setA r x).place = t.place := rfl
@[simp] theorem Team.setA_regs (t : Team) (r : AReg) (x : W80) : (t.setA r x).regs = { t.regs with a := t.regs.a.set r x } := rfl
@[simp] theorem Team.setA_ctl (t : Team) (r : AReg) (x : W80) : (t.setA r x).ctl = t.ctl := rfl
@[simp] theorem Team.setA_flow (t : Team) (r : AReg) (x : W80) : (t.setA r x).flow = t.flow := rfl
@[simp] theorem Team.setA_sch (t : Team) (r : AReg) (x : W80) : (t.setA r x).sch = t.sch := rfl

@[simp] theorem Team.setT_id (t : Team) (r : TReg) (x : W128) : (t.setT r x).id = t.id := rfl
@[simp] theorem Team.setT_place (t : Team) (r : TReg) (x : W128) : (t.setT r x).place = t.place := rfl
@[simp] theorem Team.setT_regs (t : Team) (r : TReg) (x : W128) : (t.setT r x).regs = { t.regs with t := t.regs.t.set r x } := rfl
@[simp] theorem Team.setT_ctl (t : Team) (r : TReg) (x : W128) : (t.setT r x).ctl = t.ctl := rfl
@[simp] theorem Team.setT_flow (t : Team) (r : TReg) (x : W128) : (t.setT r x).flow = t.flow := rfl
@[simp] theorem Team.setT_sch (t : Team) (r : TReg) (x : W128) : (t.setT r x).sch = t.sch := rfl

@[simp] theorem Team.setTag_id (t : Team) (r : VReg) (x : BitVec 4) : (t.setTag r x).id = t.id := rfl
@[simp] theorem Team.setTag_place (t : Team) (r : VReg) (x : BitVec 4) : (t.setTag r x).place = t.place := rfl
@[simp] theorem Team.setTag_regs (t : Team) (r : VReg) (x : BitVec 4) : (t.setTag r x).regs = { t.regs with tag := t.regs.tag.set r x } := rfl
@[simp] theorem Team.setTag_ctl (t : Team) (r : VReg) (x : BitVec 4) : (t.setTag r x).ctl = t.ctl := rfl
@[simp] theorem Team.setTag_flow (t : Team) (r : VReg) (x : BitVec 4) : (t.setTag r x).flow = t.flow := rfl
@[simp] theorem Team.setTag_sch (t : Team) (r : VReg) (x : BitVec 4) : (t.setTag r x).sch = t.sch := rfl

@[simp] theorem Team.setV_id (t : Team) (r : VReg) (x : List W32) : (t.setV r x).id = t.id := rfl
@[simp] theorem Team.setV_place (t : Team) (r : VReg) (x : List W32) : (t.setV r x).place = t.place := rfl
@[simp] theorem Team.setV_regs (t : Team) (r : VReg) (x : List W32) : (t.setV r x).regs = { t.regs with v := t.regs.v.set r x } := rfl
@[simp] theorem Team.setV_ctl (t : Team) (r : VReg) (x : List W32) : (t.setV r x).ctl = t.ctl := rfl
@[simp] theorem Team.setV_flow (t : Team) (r : VReg) (x : List W32) : (t.setV r x).flow = t.flow := rfl
@[simp] theorem Team.setV_sch (t : Team) (r : VReg) (x : List W32) : (t.setV r x).sch = t.sch := rfl

end Sys2Proof.Machine
end

