-- ==== Sys2Proof/Laws/Team.lean ====
section
/-!
SUPPORT. Sys2Proof/Laws/Team.lean: a team's registers after a write, its position after a word, and what the shared operations
of a word leave.
-/
namespace Sys2Proof.Machine
open Sys2Proof

/-! ### Registers after a write -/

@[simp] theorem Team.setS_s_self (t : Team) (r : SReg) (x : W64) : (t.setS r x).s r = x := by
  simp [Team.s]

theorem Team.setS_s_ne (t : Team) {r q : SReg} (x : W64) (h : r ≠ q) : (t.setS r x).s q = t.s q := by
  simp only [Team.s, Team.setS_regs, Fin.getElem_fin]
  rw [Vector.getElem_set_ne]
  exact fun e => h (Fin.ext e)

@[simp] theorem Team.setA_a_self (t : Team) (r : AReg) (x : W80) : (t.setA r x).a r = x := by
  simp [Team.a]

theorem Team.setA_a_ne (t : Team) {r q : AReg} (x : W80) (h : r ≠ q) : (t.setA r x).a q = t.a q := by
  simp only [Team.a, Team.setA_regs, Fin.getElem_fin]
  rw [Vector.getElem_set_ne]
  exact fun e => h (Fin.ext e)

@[simp] theorem Team.setT_t_self (t : Team) (r : TReg) (x : W128) : (t.setT r x).t r = x := by
  simp [Team.t]

theorem Team.setT_t_ne (t : Team) {r q : TReg} (x : W128) (h : r ≠ q) : (t.setT r x).t q = t.t q := by
  simp only [Team.t, Team.setT_regs, Fin.getElem_fin]
  rw [Vector.getElem_set_ne]
  exact fun e => h (Fin.ext e)

@[simp] theorem Team.setV_v_self (t : Team) (r : VReg) (xs : List W32) : (t.setV r xs).v r = xs := by
  simp [Team.v]

theorem Team.setV_v_ne (t : Team) {r q : VReg} (xs : List W32) (h : r ≠ q) : (t.setV r xs).v q = t.v q := by
  simp only [Team.v, Team.setV_regs, Fin.getElem_fin]
  rw [Vector.getElem_set_ne]
  exact fun e => h (Fin.ext e)

@[simp] theorem Team.setTag_tag_self (t : Team) (r : VReg) (x : BitVec 4) : (t.setTag r x).tag r = x := by
  simp [Team.tag]

theorem Team.setTag_tag_ne (t : Team) {r q : VReg} (x : BitVec 4) (h : r ≠ q) : (t.setTag r x).tag q = t.tag q := by
  simp only [Team.tag, Team.setTag_regs, Fin.getElem_fin]
  rw [Vector.getElem_set_ne]
  exact fun e => h (Fin.ext e)

@[simp] theorem Team.setTag_v (t : Team) (r q : VReg) (x : BitVec 4) : (t.setTag r x).v q = t.v q := rfl
@[simp] theorem Team.setV_tag (t : Team) (r q : VReg) (xs : List W32) : (t.setV r xs).tag q = t.tag q := rfl

/-- A predicate after a write: the lanes of the mask take the new bits; p7 keeps reading all-ones. -/
theorem Team.setP_p_self (t : Team) (r : PReg) (m x : Mask) (h : r ≠ 7) :
    (t.setP r m x).p r = (t.p r &&& ~~~m) ||| (x &&& m) := by
  simp [Team.setP, Team.p, h]

theorem Team.setP_p_ne (t : Team) {r q : PReg} (m x : Mask) (h : r ≠ q) : (t.setP r m x).p q = t.p q := by
  by_cases h7 : r = 7
  · simp [Team.setP, h7]
  · have e : (t.setP r m x).regs.p[q] = t.regs.p[q] := by
      simp only [Team.setP, h7, if_false, Team.updRegs_regs, Fin.getElem_fin]
      rw [Vector.getElem_set_ne]
      exact fun e => h (Fin.ext e)
    simp only [Team.p, e]

/-- p7 is not written. -/
theorem Team.setP_seven (t : Team) (m x : Mask) : t.setP 7 m x = t := by simp [Team.setP]

/-- A lane of a blend: the new value where the mask has it, the old one elsewhere. -/
theorem blend_getElem? (m : Mask) (xs ys : List W32) (k l : Nat) (h : l < ys.length) :
    (blend m k xs ys)[l]? = (xs[l]?).map fun x => if m.getLsbD (k + l) then ys[l] else x := by
  induction xs generalizing ys k l with
  | nil => cases ys <;> simp [blend]
  | cons x xs ih =>
    cases ys with
    | nil => simp at h
    | cons y ys =>
      cases l with
      | zero => simp [blend]
      | succ l =>
        have := ih ys (k + 1) l (by simpa using h)
        simp [blend, this, Nat.add_comm, Nat.add_left_comm]

/-- A blend has the lanes of the register it changes. -/
@[simp] theorem blend_length (m : Mask) (xs ys : List W32) (k : Nat) : (blend m k xs ys).length = xs.length := by
  induction xs generalizing ys k with
  | nil => cases ys <;> simp [blend]
  | cons x xs ih => cases ys <;> simp [blend, ih]

/-! ### Position after a word -/

@[simp] theorem Team.endGroup_id (t : Team) (pc : W64) (w : Nat) : (t.endGroup pc w).id = t.id := rfl
@[simp] theorem Team.endGroup_place (t : Team) (pc : W64) (w : Nat) : (t.endGroup pc w).place = t.place := rfl
@[simp] theorem Team.endGroup_regs (t : Team) (pc : W64) (w : Nat) : (t.endGroup pc w).regs = t.regs := rfl
@[simp] theorem Team.endGroup_sch (t : Team) (pc : W64) (w : Nat) : (t.endGroup pc w).sch = t.sch := rfl
@[simp] theorem Team.endGroup_ctl (t : Team) (pc : W64) (w : Nat) :
    (t.endGroup pc w).ctl = { t.ctl with pc := pc, word := w } := rfl
@[simp] theorem Team.endGroup_flow (t : Team) (pc : W64) (w : Nat) : (t.endGroup pc w).flow =
    { t.flow with sw := t.flow.group.sw || t.flow.cur.switch, group := .none, fetched := false, park := none } := rfl

@[simp] theorem Team.advance_id (t : Team) : t.advance.id = t.id := by unfold Team.advance; split_ifs <;> rfl
@[simp] theorem Team.advance_place (t : Team) : t.advance.place = t.place := by unfold Team.advance; split_ifs <;> rfl
@[simp] theorem Team.advance_regs (t : Team) : t.advance.regs = t.regs := by unfold Team.advance; split_ifs <;> rfl
@[simp] theorem Team.advance_sch (t : Team) : t.advance.sch = t.sch := by unfold Team.advance; split_ifs <;> rfl

/-- Beside its position a word that goes on leaves the control state. -/
theorem Team.advance_ctl (t : Team) :
    t.advance.ctl = { t.ctl with pc := t.advance.ctl.pc, word := t.advance.ctl.word } := by
  unfold Team.advance; split_ifs <;> rfl

/-- Beside the chain group a word that goes on leaves what the team has under way. -/
theorem Team.advance_flow (t : Team) :
    t.advance.flow = { t.flow with
      group := t.advance.flow.group, sw := t.advance.flow.sw, fetched := t.advance.flow.fetched, park := t.advance.flow.park } := by
  unfold Team.advance; split_ifs <;> rfl

@[simp] theorem Team.advance_v (t : Team) (r : VReg) : t.advance.v r = t.v r := by simp [Team.v]
@[simp] theorem Team.advance_tag (t : Team) (r : VReg) : t.advance.tag r = t.tag r := by simp [Team.tag]
@[simp] theorem Team.advance_s (t : Team) (r : SReg) : t.advance.s r = t.s r := by simp [Team.s]
@[simp] theorem Team.advance_a (t : Team) (r : AReg) : t.advance.a r = t.a r := by simp [Team.a]
@[simp] theorem Team.advance_p (t : Team) (r : PReg) : t.advance.p r = t.p r := by rw [Team.p, Team.advance_regs, Team.p]
@[simp] theorem Team.advance_t (t : Team) (r : TReg) : t.advance.t r = t.t r := by simp [Team.t]
@[simp] theorem Team.advance_h (t : Team) (r : HReg) : t.advance.h r = t.h r := by simp [Team.h]

/-! ### A word -/

/-- A word that passes its checks has its effect, after the reconstructions it makes. -/
theorem run_of_check_none {i : Instr} {s : State} (body : State → State) (h : s.check i = none) :
    run i s body = .next (body (s.setMe (·.prepare i))) := by simp [run, h]

/-- A word that fails a check takes the trap of the first check that fails. -/
theorem run_of_check_some {i : Instr} {s : State} {f : FaultInfo} (body : State → State) (h : s.check i = some f) :
    run i s body = .next (s.trapHere f) := by simp [run, h]

/-- A word always answers a next state. -/
theorem run_next (i : Instr) (s : State) (body : State → State) : ∃ t, run i s body = .next t := ⟨_, rfl⟩

/-- A word that reads no v register reconstructs nothing. -/
theorem Team.prepare_of_vReads_nil (t : Team) {i : Instr} (h : i.vReads = []) : t.prepare i = t := by
  simp [Team.prepare, h]

end Sys2Proof.Machine
end

