-- ==== Sys2Proof/Laws/Ops.lean ====
section
/-!
SUPPORT. Sys2Proof/Laws/Ops.lean: for each shared operation of a word, what it can do, to be cited in place of its definition.
-/
namespace Sys2Proof.Machine
open Sys2Proof

/-! ### Going on, writing a register -/

/-- A word that goes on changes the team in issue and nothing else. -/
theorem State.advance_eq (s : State) : s.advance = { s with me := s.me.advance } := rfl

theorem State.putS_eq (s : State) (d : SReg) (x : W64) : s.putS d x = { s with me := (s.me.setS d x).advance } := rfl
theorem State.putA_eq (s : State) (d : AReg) (x : W80) : s.putA d x = { s with me := (s.me.setA d x).advance } := rfl
theorem State.putV_eq (s : State) (d : VReg) (m : Mask) (ys : List W32) (tag : BitVec 4) :
    s.putV d m ys tag = { s with me := (s.me.writeV d m ys tag).advance } := rfl

/-- The position after a word that does not branch (spec/02 R26, R31). -/
theorem Team.advance_pos (t : Team) : (t.advance.ctl.pc, t.advance.ctl.word) =
    if t.flow.cur.chain ∨ t.ctl.word < 2 then (t.ctl.pc, t.ctl.word + 1) else (t.ctl.pc + 1, 0) := by
  unfold Team.advance
  by_cases h1 : t.flow.cur.chain <;> by_cases h2 : t.ctl.word < 2 <;> simp [h1, h2, Team.endGroup]

/-! ### Checks -/

/-- A word passes its checks exactly where it is well formed, allocated, admitted, allowed and meets no pending register. -/
theorem State.check_none_iff (s : State) (i : Instr) : s.check i = none ↔
    WellFormed i = true ∧ s.me.allocOk i.names = true ∧ i.levelOk s.me.ctl.level.code = true ∧ s.operandOk i = true ∧
      s.me.unmarked i.names = none := by
  unfold State.check
  by_cases h1 : WellFormed i = true <;> by_cases h2 : s.me.allocOk i.names = true <;>
    by_cases h3 : i.levelOk s.me.ctl.level.code = true <;> by_cases h4 : s.operandOk i = true <;>
    cases h5 : s.me.unmarked i.names <;> simp [h1, h2, h3, h4]

/-! ### Long-latency operations -/

/-- An operation issued takes the next identifier. -/
theorem State.issueOp_id (s : State) (cls : OpClass) (ready : Bool) (ws : List RegWrite) (ps : List SReg) (ds : List Dest) (acq : Option Scope) :
    (s.issueOp cls ready ws ps ds acq).1 = s.nextId := rfl

/-- An operation issued changes the team in issue and the next identifier. -/
theorem State.issueOp_state (s : State) (cls : OpClass) (ready : Bool) (ws : List RegWrite) (ps : List SReg) (ds : List Dest) (acq : Option Scope) :
    (s.issueOp cls ready ws ps ds acq).2 = { s with
      nextId := s.nextId + 1
      me := (s.me.addOp ⟨s.nextId, cls, ready, false, ws, [], ps, ds, acq, none, none⟩).advance } := rfl

/-- The operation stands last among those of its team. -/
theorem State.issueOp_ops (s : State) (cls : OpClass) (ready : Bool) (ws : List RegWrite) (ps : List SReg) (ds : List Dest) (acq : Option Scope) :
    (s.issueOp cls ready ws ps ds acq).2.me.flow.ops =
      s.me.flow.ops ++ [⟨s.nextId, cls, ready, false, ws, [], ps, ds, acq, none, none⟩] := by
  rw [State.issueOp_state]
  show (Team.advance _).flow.ops = _
  rw [Team.advance_flow]
  rfl

/-! ### Team-uniform accesses (spec/10 R176) -/

/-- A team that is not parked tries its word whole. -/
theorem State.unparked_none (s : State) (k : State → State) (h : s.me.flow.park = none) : s.unparked k = k s := by simp [State.unparked, h]

/-- A misaligned access takes the alignment trap with its size and address. -/
theorem State.uniform_misaligned (s : State) (va : W80) (n : Nat) (go : State → State) (hp : s.me.flow.park = none) (ha : va.toNat % n ≠ 0) :
    s.uniform va n go = s.trapHere ⟨6, n, va, false, 0⟩ := by
  simp [State.uniform, State.unparked_none _ _ hp, ha]

/-- An aligned access is made. -/
theorem State.uniform_go (s : State) (va : W80) (n : Nat) (go : State → State) (hp : s.me.flow.park = none) (ha : va.toNat % n = 0) :
    s.uniform va n go = go s := by
  simp [State.uniform, State.unparked_none _ _ hp, ha]

/-- An access that nothing holds back is performed at once: an operation of its class with its results. -/
theorem State.issueAcc_now {s s0 : State} (i : Instr) (cls : OpClass) (acq rel : Option Scope) (lanes : List LaneAt) (ws : List RegWrite)
    (pv : List VReg) (ps : List SReg) (eff : Effect) (h0 : s.settleFences s.me.id.tid = s0)
    (ho : s0.me.orderHeld i acq rel s0.nextId lanes = false) (hs : s0.newId.2.stalled s0.me lanes = false) :
    s.issueAcc i cls acq rel lanes ws pv ps eff =
      (let d := eff s0.me lanes s0.nextId s0.newId.2
       (d.report s0.me).setMe (·.addOp ⟨s0.nextId, cls, !d.waits, false, ws ++ d.writes, pv, ps, (lanes.map fun x => destOf x.loc).dedup,
         (if d.waits then acq else none), none, none⟩)) := by
  subst h0
  unfold State.issueAcc
  refine (if_neg fun h => ?_).trans rfl
  rcases h with h | h
  · exact Bool.false_ne_true (ho.symm.trans h)
  · exact Bool.false_ne_true (hs.symm.trans h)

/-- An access that something holds back is recorded with the registers that its word reads, to be performed later. -/
theorem State.issueAcc_held {s s0 : State} (i : Instr) (cls : OpClass) (acq rel : Option Scope) (lanes : List LaneAt) (ws : List RegWrite)
    (pv : List VReg) (ps : List SReg) (eff : Effect) (h0 : s.settleFences s.me.id.tid = s0)
    (h : s0.me.orderHeld i acq rel s0.nextId lanes = true ∨ s0.newId.2.stalled s0.me lanes = true) :
    s.issueAcc i cls acq rel lanes ws pv ps eff =
      s0.newId.2.setMe (·.addOp ⟨s0.nextId, cls, false, false, ws, pv, ps, (lanes.map fun x => destOf x.loc).dedup, acq, rel,
        some ⟨i, s0.me.regs, lanes⟩⟩) := by
  subst h0
  unfold State.issueAcc
  exact (if_pos h).trans rfl

/-- An access that translates is performed with its key and location class. -/
theorem State.access_ok {s s1 : State} {k : Access} {va : W80} {n key loc : Nat} (act : State → Nat → Nat → State)
    (h : s.teamReach s.me k va n = (.ok key loc, s1)) : s.access k va n act = act s1 key loc := by simp [State.access, h]

/-- An access that faults takes its trap, not lane-wise. -/
theorem State.access_fault {s s1 : State} {k : Access} {va : W80} {n c d : Nat} (act : State → Nat → Nat → State)
    (h : s.teamReach s.me k va n = (.fault c d, s1)) : s.access k va n act = s1.trapHere ⟨c, d, va, false, 0⟩ := by simp [State.access, h]

/-- An access that the host must serve parks the team. -/
theorem State.access_host {s s1 : State} {k : Access} {va : W80} {n c : Nat} (act : State → Nat → Nat → State)
    (h : s.teamReach s.me k va n = (.host c, s1)) : s.access k va n act = s1.parkUniform k va c := by simp [State.access, h]

/-! ### Vector accesses (spec/10 R176) -/

/-- The lanes of an empty mask. -/
theorem lanesOf_zero (w : Nat) : lanesOf 0 w = [] := by simp [lanesOf]

/-- A vector access of an empty mask accesses nothing. -/
theorem State.vectorAccess_empty (s : State) (i : Instr) (cls : OpClass) (k : Access) (n : Nat) (ea : Nat → W80) (rs : List VReg)
    (tag : BitVec 4) (eff : Effect) (hp : s.me.flow.park = none) (h0 : lanesOf (s.me.effOf i) s.me.width = []) :
    s.vectorAccess i cls k n ea rs tag eff = s.advance := by
  simp [State.vectorAccess, hp, h0]

/-! ### Releases and acquires of a word (spec/08 R151, R152) -/

/-- A release that writes nothing back comes before the word. -/
theorem State.releaseThen_ok {s s1 : State} {sc : Scope} (k : State → State) (hd : s.relDirty s.me.id.tid sc = [])
    (h : s.release s.me.id.tid sc = (s1, true)) : s.releaseThen sc k = k s1 := by simp [State.releaseThen, h, hd]

/-- A release at team or core scope writes nothing back. -/
theorem State.relDirty_narrow (s : State) (tid : Nat) {sc : Scope} (h : sc.code < 2) : s.relDirty tid sc = [] := by
  simp [State.relDirty, Nat.not_le.2 h]

/-- A release at team scope changes nothing. -/
theorem State.release_team (s : State) (tid : Nat) : s.release tid .team = (s, true) := by
  simp [State.release, State.relDirty, Scope.code, State.writeBackAll]

/-- An acquire removes clean copies of its core, records the core among those that have acquired, and changes nothing else. -/
theorem State.acquire_eq (s : State) (core : Nat) (sc : Scope) : s.acquire core sc =
    { s with
      clean := s.clean.filter fun c => !(c.core == core && acquires sc c.key)
      edits := s.edits.map fun e => if e.released ∧ ¬ e.seen.contains core then { e with seen := core :: e.seen } else e } := rfl

end Sys2Proof.Machine
end

