-- ==== Sys2Proof/Laws/PerInstr.lean ====
section
/-!
SUPPORT. Sys2Proof/Laws/PerInstr.lean: the family `BodyFits`, one lemma for each constructor of `Instr`: the body of its word lies in
bits [29:0] (spec/02 R29, R43), so that the chain and switch bits never meet it.
-/
namespace Sys2Proof

/-! ### Field codes are below their width -/

theorem Guard.code_lt (g : Guard) : g.code < 16 := by
  obtain ⟨n, p⟩ := g
  cases n <;> simp [Guard.code] <;> omega
theorem FType.code_lt (t : FType) : t.code < 3 := by cases t <;> decide
theorem RType.code_lt (t : RType) : t.code < 2 := by cases t <;> decide
theorem Rnd.code_lt (r : Rnd) : r.code < 4 := by cases r <;> decide
theorem MxFmt.code_lt (m : MxFmt) : m.code < 3 := by cases m <;> decide
theorem Scope.code_lt (o : Scope) : o.code < 6 := by cases o <;> decide
theorem Ordering3.code_lt (o : Ordering3) : o.code < 7 := by
  cases o with
  | plain => decide
  | at_ o => have := o.code_lt; simp [Ordering3.code]; omega
theorem LdSize.code_lt (z : LdSize) : z.code < 7 := by cases z <;> decide
theorem StSize.code_lt (z : StSize) : z.code < 7 := by cases z <;> decide
theorem SSize.code_lt (z : SSize) : z.code < 4 := by cases z <;> decide
theorem AtWidth.code_lt (w : AtWidth) : w.code < 2 := by cases w <;> decide
theorem OpClass.code_lt (k : OpClass) : k.code < 5 := by cases k <;> decide
theorem HretStatus.code_lt (x : HretStatus) : x.code < 3 := by cases x <;> decide

end Sys2Proof

namespace Sys2Proof.Laws.BodyFits
open Sys2Proof

set_option Elab.async false

/-- The body of the word of an instruction lies below bit 30. -/
def Statement (i : Instr) : Prop := encodeBody i < 2 ^ 30

/-- An event has no word: its body is 0. -/
theorem zero_fits : 0 < 2 ^ 30 := by decide

theorem miscNop : Statement (.miscNop) := by unfold Statement; decide
theorem miscExit : Statement (.miscExit) := by unfold Statement; decide
theorem miscYield : Statement (.miscYield) := by unfold Statement; decide
theorem miscBrk : Statement (.miscBrk) := by unfold Statement; decide
theorem miscTrap (k : BitVec 12) : Statement (.miscTrap k) := by
  show fSR 0 4 0 0 0 + k.toNat < 2 ^ 30
  simp only [fSR]; omega
theorem sopAdd (d : SReg) (a : SReg) (b : SReg) : Statement (.sopAdd d a b) := by
  show fSR 1 d.val a.val b.val 0 < 2 ^ 30
  simp only [fSR]; omega
theorem sopSub (d : SReg) (a : SReg) (b : SReg) : Statement (.sopSub d a b) := by
  show fSR 1 d.val a.val b.val 1 < 2 ^ 30
  simp only [fSR]; omega
theorem sopMul (d : SReg) (a : SReg) (b : SReg) : Statement (.sopMul d a b) := by
  show fSR 1 d.val a.val b.val 2 < 2 ^ 30
  simp only [fSR]; omega
theorem sopMulh (d : SReg) (a : SReg) (b : SReg) : Statement (.sopMulh d a b) := by
  show fSR 1 d.val a.val b.val 3 < 2 ^ 30
  simp only [fSR]; omega
theorem sopMulhn (d : SReg) (a : SReg) (b : SReg) : Statement (.sopMulhn d a b) := by
  show fSR 1 d.val a.val b.val 4 < 2 ^ 30
  simp only [fSR]; omega
theorem sopDiv (d : SReg) (a : SReg) (b : SReg) : Statement (.sopDiv d a b) := by
  show fSR 1 d.val a.val b.val 5 < 2 ^ 30
  simp only [fSR]; omega
theorem sopDivn (d : SReg) (a : SReg) (b : SReg) : Statement (.sopDivn d a b) := by
  show fSR 1 d.val a.val b.val 6 < 2 ^ 30
  simp only [fSR]; omega
theorem sopRem (d : SReg) (a : SReg) (b : SReg) : Statement (.sopRem d a b) := by
  show fSR 1 d.val a.val b.val 7 < 2 ^ 30
  simp only [fSR]; omega
theorem sopAnd (d : SReg) (a : SReg) (b : SReg) : Statement (.sopAnd d a b) := by
  show fSR 1 d.val a.val b.val 8 < 2 ^ 30
  simp only [fSR]; omega
theorem sopOr (d : SReg) (a : SReg) (b : SReg) : Statement (.sopOr d a b) := by
  show fSR 1 d.val a.val b.val 9 < 2 ^ 30
  simp only [fSR]; omega
theorem sopXor (d : SReg) (a : SReg) (b : SReg) : Statement (.sopXor d a b) := by
  show fSR 1 d.val a.val b.val 10 < 2 ^ 30
  simp only [fSR]; omega
theorem sopAndn (d : SReg) (a : SReg) (b : SReg) : Statement (.sopAndn d a b) := by
  show fSR 1 d.val a.val b.val 11 < 2 ^ 30
  simp only [fSR]; omega
theorem sopShl (d : SReg) (a : SReg) (b : SReg) : Statement (.sopShl d a b) := by
  show fSR 1 d.val a.val b.val 12 < 2 ^ 30
  simp only [fSR]; omega
theorem sopShr (d : SReg) (a : SReg) (b : SReg) : Statement (.sopShr d a b) := by
  show fSR 1 d.val a.val b.val 13 < 2 ^ 30
  simp only [fSR]; omega
theorem sopSar (d : SReg) (a : SReg) (b : SReg) : Statement (.sopSar d a b) := by
  show fSR 1 d.val a.val b.val 14 < 2 ^ 30
  simp only [fSR]; omega
theorem sopMin (d : SReg) (a : SReg) (b : SReg) : Statement (.sopMin d a b) := by
  show fSR 1 d.val a.val b.val 15 < 2 ^ 30
  simp only [fSR]; omega
theorem sopMax (d : SReg) (a : SReg) (b : SReg) : Statement (.sopMax d a b) := by
  show fSR 1 d.val a.val b.val 16 < 2 ^ 30
  simp only [fSR]; omega
theorem sopMinn (d : SReg) (a : SReg) (b : SReg) : Statement (.sopMinn d a b) := by
  show fSR 1 d.val a.val b.val 17 < 2 ^ 30
  simp only [fSR]; omega
theorem sopMaxn (d : SReg) (a : SReg) (b : SReg) : Statement (.sopMaxn d a b) := by
  show fSR 1 d.val a.val b.val 18 < 2 ^ 30
  simp only [fSR]; omega
theorem sopSlt (d : SReg) (a : SReg) (b : SReg) : Statement (.sopSlt d a b) := by
  show fSR 1 d.val a.val b.val 19 < 2 ^ 30
  simp only [fSR]; omega
theorem sopSltn (d : SReg) (a : SReg) (b : SReg) : Statement (.sopSltn d a b) := by
  show fSR 1 d.val a.val b.val 20 < 2 ^ 30
  simp only [fSR]; omega
theorem sopSeq (d : SReg) (a : SReg) (b : SReg) : Statement (.sopSeq d a b) := by
  show fSR 1 d.val a.val b.val 21 < 2 ^ 30
  simp only [fSR]; omega
theorem sopPopc (d : SReg) (a : SReg) : Statement (.sopPopc d a) := by
  show fSR 1 d.val a.val 0 22 < 2 ^ 30
  simp only [fSR]; omega
theorem sopClz (d : SReg) (a : SReg) : Statement (.sopClz d a) := by
  show fSR 1 d.val a.val 0 23 < 2 ^ 30
  simp only [fSR]; omega
theorem sopCtz (d : SReg) (a : SReg) : Statement (.sopCtz d a) := by
  show fSR 1 d.val a.val 0 24 < 2 ^ 30
  simp only [fSR]; omega
theorem sopiAddi (d : SReg) (a : SReg) (i : BitVec 10) : Statement (.sopiAddi d a i) := by
  show fSI 2 d a 0 i.toNat < 2 ^ 30
  simp only [fSI]; omega
theorem sopiAndi (d : SReg) (a : SReg) (i : BitVec 10) : Statement (.sopiAndi d a i) := by
  show fSI 2 d a 1 i.toNat < 2 ^ 30
  simp only [fSI]; omega
theorem sopiOri (d : SReg) (a : SReg) (i : BitVec 10) : Statement (.sopiOri d a i) := by
  show fSI 2 d a 2 i.toNat < 2 ^ 30
  simp only [fSI]; omega
theorem sopiXori (d : SReg) (a : SReg) (i : BitVec 10) : Statement (.sopiXori d a i) := by
  show fSI 2 d a 3 i.toNat < 2 ^ 30
  simp only [fSI]; omega
theorem sshiShli (d : SReg) (a : SReg) (i : BitVec 6) : Statement (.sshiShli d a i) := by
  show fSI 3 d a 0 i.toNat < 2 ^ 30
  simp only [fSI]; omega
theorem sshiShri (d : SReg) (a : SReg) (i : BitVec 6) : Statement (.sshiShri d a i) := by
  show fSI 3 d a 1 i.toNat < 2 ^ 30
  simp only [fSI]; omega
theorem sshiSari (d : SReg) (a : SReg) (i : BitVec 6) : Statement (.sshiSari d a i) := by
  show fSI 3 d a 2 i.toNat < 2 ^ 30
  simp only [fSI]; omega
theorem sshiSlti (d : SReg) (a : SReg) (i : BitVec 10) : Statement (.sshiSlti d a i) := by
  show fSI 3 d a 3 i.toNat < 2 ^ 30
  simp only [fSI]; omega
theorem sinsInsert (d : SReg) (q : Fin 4) (i : BitVec 16) : Statement (.sinsInsert d q i) := by
  show fSQ 4 d q.val i.toNat < 2 ^ 30
  simp only [fSQ]; omega
theorem aopAadd (d : AReg) (a : AReg) (b : SReg) (h : BitVec 3) : Statement (.aopAadd d a b h) := by
  show fAR d.val a.val b.val h.toNat 0 < 2 ^ 30
  simp only [fAR]; omega
theorem aopAset (d : AReg) (a : AReg) (b : SReg) (h : Bool) : Statement (.aopAset d a b h) := by
  have := h.toNat_lt
  show fAR d.val a.val b.val h.toNat 1 < 2 ^ 30
  simp only [fAR]; omega
theorem aopAget (a : AReg) (b : SReg) (h : Bool) : Statement (.aopAget a b h) := by
  have := h.toNat_lt
  show fAR 0 a.val b.val h.toNat 2 < 2 ^ 30
  simp only [fAR]; omega
theorem aopAmov (d : AReg) (a : AReg) : Statement (.aopAmov d a) := by
  show fAR d.val a.val 0 0 3 < 2 ^ 30
  simp only [fAR]; omega
theorem cregCrd (d : SReg) (n : BitVec 16) : Statement (.cregCrd d n) := by
  show fSQ 7 d 0 n.toNat < 2 ^ 30
  simp only [fSQ]; omega
theorem cregCwr (d : SReg) (n : BitVec 16) : Statement (.cregCwr d n) := by
  show fSQ 7 d 1 n.toNat < 2 ^ 30
  simp only [fSQ]; omega
theorem variIadd (d : VReg) (a : VReg) (b : VReg) (g : Guard) : Statement (.variIadd d a b g) := by
  have := g.code_lt
  show fVR 8 d a b g 0 < 2 ^ 30
  simp only [fVR]; omega
theorem variIsub (d : VReg) (a : VReg) (b : VReg) (g : Guard) : Statement (.variIsub d a b g) := by
  have := g.code_lt
  show fVR 8 d a b g 1 < 2 ^ 30
  simp only [fVR]; omega
theorem variImul (d : VReg) (a : VReg) (b : VReg) (g : Guard) : Statement (.variImul d a b g) := by
  have := g.code_lt
  show fVR 8 d a b g 2 < 2 ^ 30
  simp only [fVR]; omega
theorem variImulh (d : VReg) (a : VReg) (b : VReg) (g : Guard) : Statement (.variImulh d a b g) := by
  have := g.code_lt
  show fVR 8 d a b g 3 < 2 ^ 30
  simp only [fVR]; omega
theorem vlogAnd (d : VReg) (a : VReg) (b : VReg) (g : Guard) : Statement (.vlogAnd d a b g) := by
  have := g.code_lt
  show fVR 9 d a b g 0 < 2 ^ 30
  simp only [fVR]; omega
theorem vlogOr (d : VReg) (a : VReg) (b : VReg) (g : Guard) : Statement (.vlogOr d a b g) := by
  have := g.code_lt
  show fVR 9 d a b g 1 < 2 ^ 30
  simp only [fVR]; omega
theorem vlogXor (d : VReg) (a : VReg) (b : VReg) (g : Guard) : Statement (.vlogXor d a b g) := by
  have := g.code_lt
  show fVR 9 d a b g 2 < 2 ^ 30
  simp only [fVR]; omega
theorem vlogAndn (d : VReg) (a : VReg) (b : VReg) (g : Guard) : Statement (.vlogAndn d a b g) := by
  have := g.code_lt
  show fVR 9 d a b g 3 < 2 ^ 30
  simp only [fVR]; omega
theorem vsftShl (d : VReg) (a : VReg) (b : VReg) (g : Guard) : Statement (.vsftShl d a b g) := by
  have := g.code_lt
  show fVR 10 d a b g 0 < 2 ^ 30
  simp only [fVR]; omega
theorem vsftShr (d : VReg) (a : VReg) (b : VReg) (g : Guard) : Statement (.vsftShr d a b g) := by
  have := g.code_lt
  show fVR 10 d a b g 1 < 2 ^ 30
  simp only [fVR]; omega
theorem vsftSar (d : VReg) (a : VReg) (b : VReg) (g : Guard) : Statement (.vsftSar d a b g) := by
  have := g.code_lt
  show fVR 10 d a b g 2 < 2 ^ 30
  simp only [fVR]; omega
theorem vsftRol (d : VReg) (a : VReg) (b : VReg) (g : Guard) : Statement (.vsftRol d a b g) := by
  have := g.code_lt
  show fVR 10 d a b g 3 < 2 ^ 30
  simp only [fVR]; omega
theorem vmnxImin (d : VReg) (a : VReg) (b : VReg) (g : Guard) : Statement (.vmnxImin d a b g) := by
  have := g.code_lt
  show fVR 11 d a b g 0 < 2 ^ 30
  simp only [fVR]; omega
theorem vmnxImax (d : VReg) (a : VReg) (b : VReg) (g : Guard) : Statement (.vmnxImax d a b g) := by
  have := g.code_lt
  show fVR 11 d a b g 1 < 2 ^ 30
  simp only [fVR]; omega
theorem vmnxNmin (d : VReg) (a : VReg) (b : VReg) (g : Guard) : Statement (.vmnxNmin d a b g) := by
  have := g.code_lt
  show fVR 11 d a b g 2 < 2 ^ 30
  simp only [fVR]; omega
theorem vmnxNmax (d : VReg) (a : VReg) (b : VReg) (g : Guard) : Statement (.vmnxNmax d a b g) := by
  have := g.code_lt
  show fVR 11 d a b g 3 < 2 ^ 30
  simp only [fVR]; omega
theorem vcmpEq (p : PReg) (q : PReg) (a : VReg) (b : VReg) (g : Guard) : Statement (.vcmpEq p q a b g) := by
  have := g.code_lt
  show fVC 12 p q a b g 0 < 2 ^ 30
  simp only [fVC]; omega
theorem vcmpLt (p : PReg) (q : PReg) (a : VReg) (b : VReg) (g : Guard) : Statement (.vcmpLt p q a b g) := by
  have := g.code_lt
  show fVC 12 p q a b g 1 < 2 ^ 30
  simp only [fVC]; omega
theorem vcmpLe (p : PReg) (q : PReg) (a : VReg) (b : VReg) (g : Guard) : Statement (.vcmpLe p q a b g) := by
  have := g.code_lt
  show fVC 12 p q a b g 2 < 2 ^ 30
  simp only [fVC]; omega
theorem vcmpLtn (p : PReg) (q : PReg) (a : VReg) (b : VReg) (g : Guard) : Statement (.vcmpLtn p q a b g) := by
  have := g.code_lt
  show fVC 12 p q a b g 3 < 2 ^ 30
  simp only [fVC]; omega
theorem vadi (d : VReg) (a : VReg) (g : Guard) (i : BitVec 8) : Statement (.vadi d a g i) := by
  have := g.code_lt
  show 13 * 2 ^ 24 + d.val * 2 ^ 18 + a.val * 2 ^ 12 + g.code * 2 ^ 8 + i.toNat < 2 ^ 30
  omega
theorem vimmSx (d : VReg) (g : Guard) (i : BitVec 13) : Statement (.vimmSx d g i) := by
  have := g.code_lt
  show 14 * 2 ^ 24 + d.val * 2 ^ 18 + g.code * 2 ^ 14 + i.toNat < 2 ^ 30
  omega
theorem vimmHi (d : VReg) (g : Guard) (i : BitVec 13) : Statement (.vimmHi d g i) := by
  have := g.code_lt
  show 14 * 2 ^ 24 + d.val * 2 ^ 18 + g.code * 2 ^ 14 + 2 ^ 13 + i.toNat < 2 ^ 30
  omega
theorem fadd (d : VReg) (a : VReg) (b : VReg) (g : Guard) (t : FType) : Statement (.fadd d a b g t) := by
  have := g.code_lt
  have := t.code_lt
  show fVR 16 d a b g t.code < 2 ^ 30
  simp only [fVR]; omega
theorem fsub (d : VReg) (a : VReg) (b : VReg) (g : Guard) (t : FType) : Statement (.fsub d a b g t) := by
  have := g.code_lt
  have := t.code_lt
  show fVR 17 d a b g t.code < 2 ^ 30
  simp only [fVR]; omega
theorem fmul (d : VReg) (a : VReg) (b : VReg) (g : Guard) (t : FType) : Statement (.fmul d a b g t) := by
  have := g.code_lt
  have := t.code_lt
  show fVR 18 d a b g t.code < 2 ^ 30
  simp only [fVR]; omega
theorem fma (d : VReg) (a : VReg) (b : VReg) (g : Guard) (t : FType) : Statement (.fma d a b g t) := by
  have := g.code_lt
  have := t.code_lt
  show fVR 19 d a b g t.code < 2 ^ 30
  simp only [fVR]; omega
theorem fmin (d : VReg) (a : VReg) (b : VReg) (g : Guard) (t : FType) : Statement (.fmin d a b g t) := by
  have := g.code_lt
  have := t.code_lt
  show fVR 20 d a b g t.code < 2 ^ 30
  simp only [fVR]; omega
theorem fmax (d : VReg) (a : VReg) (b : VReg) (g : Guard) (t : FType) : Statement (.fmax d a b g t) := by
  have := g.code_lt
  have := t.code_lt
  show fVR 21 d a b g t.code < 2 ^ 30
  simp only [fVR]; omega
theorem fceq (p : PReg) (q : PReg) (a : VReg) (b : VReg) (g : Guard) (t : FType) : Statement (.fceq p q a b g t) := by
  have := g.code_lt
  have := t.code_lt
  show fVC 22 p q a b g t.code < 2 ^ 30
  simp only [fVC]; omega
theorem fclt (p : PReg) (q : PReg) (a : VReg) (b : VReg) (g : Guard) (t : FType) : Statement (.fclt p q a b g t) := by
  have := g.code_lt
  have := t.code_lt
  show fVC 23 p q a b g t.code < 2 ^ 30
  simp only [fVC]; omega
theorem fcle (p : PReg) (q : PReg) (a : VReg) (b : VReg) (g : Guard) (t : FType) : Statement (.fcle p q a b g t) := by
  have := g.code_lt
  have := t.code_lt
  show fVC 24 p q a b g t.code < 2 ^ 30
  simp only [fVC]; omega
theorem fcun (p : PReg) (q : PReg) (a : VReg) (b : VReg) (g : Guard) (t : FType) : Statement (.fcun p q a b g t) := by
  have := g.code_lt
  have := t.code_lt
  show fVC 25 p q a b g t.code < 2 ^ 30
  simp only [fVC]; omega
theorem funaExp2 (d : VReg) (a : VReg) (g : Guard) (t : FType) : Statement (.funaExp2 d a g t) := by
  have := g.code_lt
  have := t.code_lt
  show fVU 26 d a 0 g t.code < 2 ^ 30
  simp only [fVU]; omega
theorem funaLog2 (d : VReg) (a : VReg) (g : Guard) (t : FType) : Statement (.funaLog2 d a g t) := by
  have := g.code_lt
  have := t.code_lt
  show fVU 26 d a 1 g t.code < 2 ^ 30
  simp only [fVU]; omega
theorem funaRcp (d : VReg) (a : VReg) (g : Guard) (t : FType) : Statement (.funaRcp d a g t) := by
  have := g.code_lt
  have := t.code_lt
  show fVU 26 d a 2 g t.code < 2 ^ 30
  simp only [fVU]; omega
theorem funaRsqrt (d : VReg) (a : VReg) (g : Guard) (t : FType) : Statement (.funaRsqrt d a g t) := by
  have := g.code_lt
  have := t.code_lt
  show fVU 26 d a 3 g t.code < 2 ^ 30
  simp only [fVU]; omega
theorem funaSqrt (d : VReg) (a : VReg) (g : Guard) (t : FType) : Statement (.funaSqrt d a g t) := by
  have := g.code_lt
  have := t.code_lt
  show fVU 26 d a 4 g t.code < 2 ^ 30
  simp only [fVU]; omega
theorem funaTanh (d : VReg) (a : VReg) (g : Guard) (t : FType) : Statement (.funaTanh d a g t) := by
  have := g.code_lt
  have := t.code_lt
  show fVU 26 d a 5 g t.code < 2 ^ 30
  simp only [fVU]; omega
theorem funaSigm (d : VReg) (a : VReg) (g : Guard) (t : FType) : Statement (.funaSigm d a g t) := by
  have := g.code_lt
  have := t.code_lt
  show fVU 26 d a 6 g t.code < 2 ^ 30
  simp only [fVU]; omega
theorem funaGelu (d : VReg) (a : VReg) (g : Guard) (t : FType) : Statement (.funaGelu d a g t) := by
  have := g.code_lt
  have := t.code_lt
  show fVU 26 d a 7 g t.code < 2 ^ 30
  simp only [fVU]; omega
theorem funaAbs (d : VReg) (a : VReg) (g : Guard) (t : FType) : Statement (.funaAbs d a g t) := by
  have := g.code_lt
  have := t.code_lt
  show fVU 26 d a 8 g t.code < 2 ^ 30
  simp only [fVU]; omega
theorem funaNeg (d : VReg) (a : VReg) (g : Guard) (t : FType) : Statement (.funaNeg d a g t) := by
  have := g.code_lt
  have := t.code_lt
  show fVU 26 d a 9 g t.code < 2 ^ 30
  simp only [fVU]; omega
theorem funaFloor (d : VReg) (a : VReg) (g : Guard) (t : FType) : Statement (.funaFloor d a g t) := by
  have := g.code_lt
  have := t.code_lt
  show fVU 26 d a 10 g t.code < 2 ^ 30
  simp only [fVU]; omega
theorem funaCeil (d : VReg) (a : VReg) (g : Guard) (t : FType) : Statement (.funaCeil d a g t) := by
  have := g.code_lt
  have := t.code_lt
  show fVU 26 d a 11 g t.code < 2 ^ 30
  simp only [fVU]; omega
theorem funaRint (d : VReg) (a : VReg) (g : Guard) (t : FType) : Statement (.funaRint d a g t) := by
  have := g.code_lt
  have := t.code_lt
  show fVU 26 d a 12 g t.code < 2 ^ 30
  simp only [fVU]; omega
theorem funaFrac (d : VReg) (a : VReg) (g : Guard) (t : FType) : Statement (.funaFrac d a g t) := by
  have := g.code_lt
  have := t.code_lt
  show fVU 26 d a 13 g t.code < 2 ^ 30
  simp only [fVU]; omega
theorem fcvtConvert (d : VReg) (a : VReg) (n : Fin 40) (g : Guard) (r : Rnd) : Statement (.fcvtConvert d a n g r) := by
  have := g.code_lt
  have := r.code_lt
  show fVU 27 d a n.val g r.code < 2 ^ 30
  simp only [fVU]; omega
theorem fcvtI32 (d : VReg) (a : VReg) (g : Guard) (r : Rnd) : Statement (.fcvtI32 d a g r) := by
  have := g.code_lt
  have := r.code_lt
  show fVU 27 d a 40 g r.code < 2 ^ 30
  simp only [fVU]; omega
theorem fcvtWi32 (d : VReg) (a : VReg) (g : Guard) (r : Rnd) : Statement (.fcvtWi32 d a g r) := by
  have := g.code_lt
  have := r.code_lt
  show fVU 27 d a 41 g r.code < 2 ^ 30
  simp only [fVU]; omega
theorem vsel (d : VReg) (a : VReg) (b : VReg) (g : Guard) : Statement (.vsel d a b g) := by
  have := g.code_lt
  show fVR 28 d a b g 0 < 2 ^ 30
  simp only [fVR]; omega
theorem vmovMov (d : VReg) (a : VReg) (g : Guard) : Statement (.vmovMov d a g) := by
  have := g.code_lt
  show fVU 29 d a 0 g 0 < 2 ^ 30
  simp only [fVU]; omega
theorem vmovBcast (d : VReg) (a : SReg) (g : Guard) : Statement (.vmovBcast d a g) := by
  have := g.code_lt
  show fVU 29 d a 1 g 0 < 2 ^ 30
  simp only [fVU]; omega
theorem vmovRdlane (d : SReg) (a : VReg) (g : Guard) : Statement (.vmovRdlane d a g) := by
  have := g.code_lt
  show fVU 29 d a 2 g 0 < 2 ^ 30
  simp only [fVU]; omega
theorem vmovWrlane (d : VReg) (a : SReg) (g : Guard) : Statement (.vmovWrlane d a g) := by
  have := g.code_lt
  show fVU 29 d a 3 g 0 < 2 ^ 30
  simp only [fVU]; omega
theorem vmovLaneid (d : VReg) (g : Guard) : Statement (.vmovLaneid d g) := by
  have := g.code_lt
  show fVU 29 d 0 4 g 0 < 2 ^ 30
  simp only [fVU]; omega
theorem vxlnShfl (d : VReg) (a : VReg) (g : Guard) : Statement (.vxlnShfl d a g) := by
  have := g.code_lt
  show fVU 30 d a 0 g 0 < 2 ^ 30
  simp only [fVU]; omega
theorem vxlnBcl (d : VReg) (a : VReg) (g : Guard) : Statement (.vxlnBcl d a g) := by
  have := g.code_lt
  show fVU 30 d a 1 g 0 < 2 ^ 30
  simp only [fVU]; omega
theorem vxlnRedadd (d : VReg) (a : VReg) (g : Guard) (t : RType) : Statement (.vxlnRedadd d a g t) := by
  have := g.code_lt
  have := t.code_lt
  show fVU 30 d a 2 g t.code < 2 ^ 30
  simp only [fVU]; omega
theorem vxlnRedmax (d : VReg) (a : VReg) (g : Guard) (t : RType) : Statement (.vxlnRedmax d a g t) := by
  have := g.code_lt
  have := t.code_lt
  show fVU 30 d a 3 g t.code < 2 ^ 30
  simp only [fVU]; omega
theorem vxlnScan (d : VReg) (a : VReg) (g : Guard) (t : RType) : Statement (.vxlnScan d a g t) := by
  have := g.code_lt
  have := t.code_lt
  show fVU 30 d a 4 g t.code < 2 ^ 30
  simp only [fVU]; omega
theorem plogPand (d : PReg) (a : PReg) (n : Bool) (b : PReg) : Statement (.plogPand d a n b) := by
  have := n.toNat_lt
  show fSR 31 d.val a.val 0 (n.toNat * 8 + b.val) < 2 ^ 30
  simp only [fSR]; omega
theorem plogPor (d : PReg) (a : PReg) (n : Bool) (b : PReg) : Statement (.plogPor d a n b) := by
  have := n.toNat_lt
  show fSR 31 d.val a.val 1 (n.toNat * 8 + b.val) < 2 ^ 30
  simp only [fSR]; omega
theorem plogPxor (d : PReg) (a : PReg) (n : Bool) (b : PReg) : Statement (.plogPxor d a n b) := by
  have := n.toNat_lt
  show fSR 31 d.val a.val 2 (n.toNat * 8 + b.val) < 2 ^ 30
  simp only [fSR]; omega
theorem plogPmovs (d : SReg) (a : PReg) (w : Fin 64) : Statement (.plogPmovs d a w) := by
  show fSR 31 d.val a.val 3 w.val < 2 ^ 30
  simp only [fSR]; omega
theorem plogPbal (d : SReg) (a : PReg) : Statement (.plogPbal d a) := by
  show fSR 31 d.val a.val 4 0 < 2 ^ 30
  simp only [fSR]; omega
theorem plogEmw (a : PReg) : Statement (.plogEmw a) := by
  show fSR 31 0 a.val 5 0 < 2 ^ 30
  simp only [fSR]; omega
theorem plogEmr (d : SReg) (w : Fin 64) : Statement (.plogEmr d w) := by
  show fSR 31 d.val 0 6 w.val < 2 ^ 30
  simp only [fSR]; omega
theorem xfrmHfwd (d : VReg) (a : VReg) (k : Fin 8) : Statement (.xfrmHfwd d a k) := by
  show fSR 32 d.val a.val 0 k.val < 2 ^ 30
  simp only [fSR]; omega
theorem xfrmHinv (d : VReg) (a : VReg) : Statement (.xfrmHinv d a) := by
  show fSR 32 d.val a.val 1 0 < 2 ^ 30
  simp only [fSR]; omega
theorem xfrmHthr (d : VReg) (a : VReg) (h : HReg) : Statement (.xfrmHthr d a h) := by
  show fSR 32 d.val a.val 2 h.val < 2 ^ 30
  simp only [fSR]; omega
theorem xfrmHpack (d : VReg) (a : VReg) (p : PReg) : Statement (.xfrmHpack d a p) := by
  show fSR 32 d.val a.val 3 p.val < 2 ^ 30
  simp only [fSR]; omega
theorem xfrmHunpk (d : VReg) (a : VReg) (k : Fin 8) (p : PReg) : Statement (.xfrmHunpk d a k p) := by
  show fSR 32 d.val a.val 4 (k.val * 8 + p.val) < 2 ^ 30
  simp only [fSR]; omega
theorem xfrmXpose (d : VReg) (a : VReg) : Statement (.xfrmXpose d a) := by
  show fSR 32 d.val a.val 5 0 < 2 ^ 30
  simp only [fSR]; omega
theorem xfrmMxq (d : VReg) (a : VReg) (m : MxFmt) (r : Rnd) : Statement (.xfrmMxq d a m r) := by
  have := m.code_lt
  have := r.code_lt
  show fSR 32 d.val a.val 6 (m.code * 4 + r.code) < 2 ^ 30
  simp only [fSR]; omega
theorem xfrmMxdq (d : VReg) (a : VReg) (m : MxFmt) : Statement (.xfrmMxdq d a m) := by
  have := m.code_lt
  show fSR 32 d.val a.val 7 (m.code * 4) < 2 ^ 30
  simp only [fSR]; omega
theorem xfrmI4dq (d : VReg) (a : VReg) : Statement (.xfrmI4dq d a) := by
  show fSR 32 d.val a.val 8 0 < 2 ^ 30
  simp only [fSR]; omega
theorem domnDtag (d : VReg) (t : Fin 8) : Statement (.domnDtag d t) := by
  show fSR 33 d.val 0 0 t.val < 2 ^ 30
  simp only [fSR]; omega
theorem domnDget (d : SReg) (a : VReg) : Statement (.domnDget d a) := by
  show fSR 33 d.val a.val 1 0 < 2 ^ 30
  simp only [fSR]; omega
theorem domnHscl (d : VReg) (a : VReg) (b : SReg) : Statement (.domnHscl d a b) := by
  show fSR 33 d.val a.val 2 b.val < 2 ^ 30
  simp only [fSR]; omega
theorem domnHbia (d : VReg) (a : VReg) (b : SReg) : Statement (.domnHbia d a b) := by
  show fSR 33 d.val a.val 3 b.val < 2 ^ 30
  simp only [fSR]; omega
theorem vld (d : VReg) (a : AReg) (o : VReg) (g : Guard) (sc : Bool) (z : LdSize) : Statement (.vld d a o g sc z) := by
  have := g.code_lt
  have := sc.toNat_lt
  have := z.code_lt
  show fMV 36 d a o g (sc.toNat * 8 + z.code) < 2 ^ 30
  simp only [fMV]; omega
theorem vst (d : VReg) (a : AReg) (o : VReg) (g : Guard) (sc : Bool) (z : StSize) : Statement (.vst d a o g sc z) := by
  have := g.code_lt
  have := sc.toNat_lt
  have := z.code_lt
  show fMV 37 d a o g (sc.toNat * 8 + z.code) < 2 ^ 30
  simp only [fMV]; omega
theorem vatmAddI (d : VReg) (a : AReg) (o : VReg) (g : Guard) : Statement (.vatmAddI d a o g) := by
  have := g.code_lt
  show fMV 39 d a o g 0 < 2 ^ 30
  simp only [fMV]; omega
theorem vatmAddF (d : VReg) (a : AReg) (o : VReg) (g : Guard) : Statement (.vatmAddF d a o g) := by
  have := g.code_lt
  show fMV 39 d a o g 1 < 2 ^ 30
  simp only [fMV]; omega
theorem vatmMinI (d : VReg) (a : AReg) (o : VReg) (g : Guard) : Statement (.vatmMinI d a o g) := by
  have := g.code_lt
  show fMV 39 d a o g 2 < 2 ^ 30
  simp only [fMV]; omega
theorem vatmMaxI (d : VReg) (a : AReg) (o : VReg) (g : Guard) : Statement (.vatmMaxI d a o g) := by
  have := g.code_lt
  show fMV 39 d a o g 3 < 2 ^ 30
  simp only [fMV]; omega
theorem vatmMaxF (d : VReg) (a : AReg) (o : VReg) (g : Guard) : Statement (.vatmMaxF d a o g) := by
  have := g.code_lt
  show fMV 39 d a o g 4 < 2 ^ 30
  simp only [fMV]; omega
theorem vatmAnd (d : VReg) (a : AReg) (o : VReg) (g : Guard) : Statement (.vatmAnd d a o g) := by
  have := g.code_lt
  show fMV 39 d a o g 5 < 2 ^ 30
  simp only [fMV]; omega
theorem vatmOr (d : VReg) (a : AReg) (o : VReg) (g : Guard) : Statement (.vatmOr d a o g) := by
  have := g.code_lt
  show fMV 39 d a o g 6 < 2 ^ 30
  simp only [fMV]; omega
theorem vatmXor (d : VReg) (a : AReg) (o : VReg) (g : Guard) : Statement (.vatmXor d a o g) := by
  have := g.code_lt
  show fMV 39 d a o g 7 < 2 ^ 30
  simp only [fMV]; omega
theorem vatmXchg (d : VReg) (a : AReg) (o : VReg) (g : Guard) : Statement (.vatmXchg d a o g) := by
  have := g.code_lt
  show fMV 39 d a o g 8 < 2 ^ 30
  simp only [fMV]; omega
theorem vatmCas (d : VReg) (a : AReg) (o : VReg) (g : Guard) : Statement (.vatmCas d a o g) := by
  have := g.code_lt
  show fMV 39 d a o g 9 < 2 ^ 30
  simp only [fMV]; omega
theorem sld (d : SReg) (a : AReg) (r : Ordering3) (z : SSize) (i : BitVec 9) : Statement (.sld d a r z i) := by
  have := r.code_lt
  have := z.code_lt
  show fMS 40 d a r z i < 2 ^ 30
  simp only [fMS]; omega
theorem sst (d : SReg) (a : AReg) (r : Ordering3) (z : SSize) (i : BitVec 9) : Statement (.sst d a r z i) := by
  have := r.code_lt
  have := z.code_lt
  show fMS 41 d a r z i < 2 ^ 30
  simp only [fMS]; omega
theorem satmAdd (d : SReg) (a : AReg) (b : SReg) (r : Ordering3) (w : AtWidth) : Statement (.satmAdd d a b r w) := by
  have := r.code_lt
  have := w.code_lt
  show fMA 42 d a b.val r (w.code * 16 + 0) < 2 ^ 30
  simp only [fMA]; omega
theorem satmSub (d : SReg) (a : AReg) (b : SReg) (r : Ordering3) (w : AtWidth) : Statement (.satmSub d a b r w) := by
  have := r.code_lt
  have := w.code_lt
  show fMA 42 d a b.val r (w.code * 16 + 1) < 2 ^ 30
  simp only [fMA]; omega
theorem satmAnd (d : SReg) (a : AReg) (b : SReg) (r : Ordering3) (w : AtWidth) : Statement (.satmAnd d a b r w) := by
  have := r.code_lt
  have := w.code_lt
  show fMA 42 d a b.val r (w.code * 16 + 2) < 2 ^ 30
  simp only [fMA]; omega
theorem satmOr (d : SReg) (a : AReg) (b : SReg) (r : Ordering3) (w : AtWidth) : Statement (.satmOr d a b r w) := by
  have := r.code_lt
  have := w.code_lt
  show fMA 42 d a b.val r (w.code * 16 + 3) < 2 ^ 30
  simp only [fMA]; omega
theorem satmXor (d : SReg) (a : AReg) (b : SReg) (r : Ordering3) (w : AtWidth) : Statement (.satmXor d a b r w) := by
  have := r.code_lt
  have := w.code_lt
  show fMA 42 d a b.val r (w.code * 16 + 4) < 2 ^ 30
  simp only [fMA]; omega
theorem satmMin (d : SReg) (a : AReg) (b : SReg) (r : Ordering3) (w : AtWidth) : Statement (.satmMin d a b r w) := by
  have := r.code_lt
  have := w.code_lt
  show fMA 42 d a b.val r (w.code * 16 + 5) < 2 ^ 30
  simp only [fMA]; omega
theorem satmMax (d : SReg) (a : AReg) (b : SReg) (r : Ordering3) (w : AtWidth) : Statement (.satmMax d a b r w) := by
  have := r.code_lt
  have := w.code_lt
  show fMA 42 d a b.val r (w.code * 16 + 6) < 2 ^ 30
  simp only [fMA]; omega
theorem satmMinn (d : SReg) (a : AReg) (b : SReg) (r : Ordering3) (w : AtWidth) : Statement (.satmMinn d a b r w) := by
  have := r.code_lt
  have := w.code_lt
  show fMA 42 d a b.val r (w.code * 16 + 7) < 2 ^ 30
  simp only [fMA]; omega
theorem satmMaxn (d : SReg) (a : AReg) (b : SReg) (r : Ordering3) (w : AtWidth) : Statement (.satmMaxn d a b r w) := by
  have := r.code_lt
  have := w.code_lt
  show fMA 42 d a b.val r (w.code * 16 + 8) < 2 ^ 30
  simp only [fMA]; omega
theorem satmXchg (d : SReg) (a : AReg) (b : SReg) (r : Ordering3) (w : AtWidth) : Statement (.satmXchg d a b r w) := by
  have := r.code_lt
  have := w.code_lt
  show fMA 42 d a b.val r (w.code * 16 + 9) < 2 ^ 30
  simp only [fMA]; omega
theorem satmCas (d : SReg) (a : AReg) (b : SReg) (r : Ordering3) (w : AtWidth) : Statement (.satmCas d a b r w) := by
  have := r.code_lt
  have := w.code_lt
  show fMA 42 d a b.val r (w.code * 16 + 10) < 2 ^ 30
  simp only [fMA]; omega
theorem fenceAcq (o : Scope) : Statement (.fenceAcq o) := by
  have := o.code_lt
  show fSR 43 0 o.code 0 0 < 2 ^ 30
  simp only [fSR]; omega
theorem fenceRel (o : Scope) (k : BitVec 5) : Statement (.fenceRel o k) := by
  have := o.code_lt
  show fSR 43 1 o.code k.toNat 0 < 2 ^ 30
  simp only [fSR]; omega
theorem fenceAr (o : Scope) (k : BitVec 5) : Statement (.fenceAr o k) := by
  have := o.code_lt
  show fSR 43 2 o.code k.toNat 0 < 2 ^ 30
  simp only [fSR]; omega
theorem fenceSc (o : Scope) (k : BitVec 5) : Statement (.fenceSc o k) := by
  have := o.code_lt
  show fSR 43 3 o.code k.toNat 0 < 2 ^ 30
  simp only [fSR]; omega
theorem wait (k : OpClass) (n : Fin 64) : Statement (.wait k n) := by
  have := k.code_lt
  show fSR 44 k.code n.val 0 0 < 2 ^ 30
  simp only [fSR]; omega
theorem tsl (d : VReg) (t : TReg) (r : Bool) (i : BitVec 9) (g : Guard) : Statement (.tsl d t r i g) := by
  have := r.toNat_lt
  have := g.code_lt
  show fTS 45 d t r i g < 2 ^ 30
  simp only [fTS]; omega
theorem tss (d : VReg) (t : TReg) (r : Bool) (i : BitVec 9) (g : Guard) : Statement (.tss d t r i g) := by
  have := r.toNat_lt
  have := g.code_lt
  show fTS 46 d t r i g < 2 ^ 30
  simp only [fTS]; omega
theorem tbndBind (t : TReg) (a : SReg) : Statement (.tbndBind t a) := by
  show fSR 47 t.val a.val 0 0 < 2 ^ 30
  simp only [fSR]; omega
theorem tbndUnbind (t : TReg) : Statement (.tbndUnbind t) := by
  show fSR 47 t.val 0 1 0 < 2 ^ 30
  simp only [fSR]; omega
theorem tbndQuery (d : SReg) (t : TReg) (h : Bool) : Statement (.tbndQuery d t h) := by
  have := h.toNat_lt
  show fSR 47 d.val t.val 2 h.toNat < 2 ^ 30
  simp only [fSR]; omega
theorem xcpyIn (t : TReg) (a : SReg) : Statement (.xcpyIn t a) := by
  show fSR 48 t.val a.val 0 0 < 2 ^ 30
  simp only [fSR]; omega
theorem xcpyOut (t : TReg) (a : SReg) : Statement (.xcpyOut t a) := by
  show fSR 48 t.val a.val 1 0 < 2 ^ 30
  simp only [fSR]; omega
theorem xcpyMcin (t : TReg) (a : SReg) : Statement (.xcpyMcin t a) := by
  show fSR 48 t.val a.val 2 0 < 2 ^ 30
  simp only [fSR]; omega
theorem ringRbind (d : SReg) (a : SReg) : Statement (.ringRbind d a) := by
  show fSR 49 d.val a.val 0 0 < 2 ^ 30
  simp only [fSR]; omega
theorem ringRunbind (a : SReg) : Statement (.ringRunbind a) := by
  show fSR 49 0 a.val 1 0 < 2 ^ 30
  simp only [fSR]; omega
theorem ringSpub (a : SReg) (k : Fin 64) : Statement (.ringSpub a k) := by
  show fSR 49 0 a.val 2 k.val < 2 ^ 30
  simp only [fSR]; omega
theorem ringSrel (a : SReg) (k : Fin 64) : Statement (.ringSrel a k) := by
  show fSR 49 0 a.val 3 k.val < 2 ^ 30
  simp only [fSR]; omega
theorem ringSwait (d : SReg) (a : SReg) (k : Fin 64) : Statement (.ringSwait d a k) := by
  show fSR 49 d.val a.val 4 k.val < 2 ^ 30
  simp only [fSR]; omega
theorem tbarTbinit (d : SReg) (a : SReg) : Statement (.tbarTbinit d a) := by
  show fSR 50 d.val a.val 0 0 < 2 ^ 30
  simp only [fSR]; omega
theorem tbarTbarr (a : SReg) (o : Scope) : Statement (.tbarTbarr a o) := by
  have := o.code_lt
  show fSR 50 0 a.val 1 o.code < 2 ^ 30
  simp only [fSR]; omega
theorem tbarTbwait (d : SReg) (a : SReg) (o : Fin 64) : Statement (.tbarTbwait d a o) := by
  show fSR 50 d.val a.val 2 o.val < 2 ^ 30
  simp only [fSR]; omega
theorem tbarTbtest (d : SReg) (a : SReg) : Statement (.tbarTbtest d a) := by
  show fSR 50 d.val a.val 3 0 < 2 ^ 30
  simp only [fSR]; omega
theorem sigSigadd (d : SReg) (a : AReg) (b : SReg) (r : Ordering3) : Statement (.sigSigadd d a b r) := by
  have := r.code_lt
  show fMA 53 d a b.val r 0 < 2 ^ 30
  simp only [fMA]; omega
theorem sigSigwait (d : SReg) (a : AReg) (b : SReg) (r : Ordering3) : Statement (.sigSigwait d a b r) := by
  have := r.code_lt
  show fMA 53 d a b.val r 1 < 2 ^ 30
  simp only [fMA]; omega
theorem sigSigrd (d : SReg) (a : AReg) (r : Ordering3) : Statement (.sigSigrd d a r) := by
  have := r.code_lt
  show fMA 53 d a 0 r 2 < 2 ^ 30
  simp only [fMA]; omega
theorem sigWatch (d : SReg) (a : AReg) (b : SReg) (r : Ordering3) : Statement (.sigWatch d a b r) := by
  have := r.code_lt
  show fMA 53 d a b.val r 3 < 2 ^ 30
  simp only [fMA]; omega
theorem sgrpFork (d : SReg) (a : AReg) (r : Ordering3) : Statement (.sgrpFork d a r) := by
  have := r.code_lt
  show fMA 54 d a 0 r 0 < 2 ^ 30
  simp only [fMA]; omega
theorem sgrpArr (d : SReg) (a : AReg) (b : SReg) (r : Ordering3) : Statement (.sgrpArr d a b r) := by
  have := r.code_lt
  show fMA 54 d a b.val r 1 < 2 ^ 30
  simp only [fMA]; omega
theorem sgrpCan (d : SReg) (a : AReg) (r : Ordering3) : Statement (.sgrpCan d a r) := by
  have := r.code_lt
  show fMA 54 d a 0 r 2 < 2 ^ 30
  simp only [fMA]; omega
theorem sgrpWait (d : SReg) (a : AReg) (r : Ordering3) : Statement (.sgrpWait d a r) := by
  have := r.code_lt
  show fMA 54 d a 0 r 3 < 2 ^ 30
  simp only [fMA]; omega
theorem sgrpFree (d : SReg) (a : AReg) (r : Ordering3) : Statement (.sgrpFree d a r) := by
  have := r.code_lt
  show fMA 54 d a 0 r 4 < 2 ^ 30
  simp only [fMA]; omega
theorem sgrpInfo (d : SReg) (a : AReg) (r : Ordering3) : Statement (.sgrpInfo d a r) := by
  have := r.code_lt
  show fMA 54 d a 0 r 5 < 2 ^ 30
  simp only [fMA]; omega
theorem hctlHret (t : HretStatus) : Statement (.hctlHret t) := by
  have := t.code_lt
  show fSR 55 0 t.code 0 0 < 2 ^ 30
  simp only [fSR]; omega
theorem hctlHtaint : Statement (.hctlHtaint) := by unfold Statement; decide
theorem hctlWstat (d : SReg) (e : Fin 8) : Statement (.hctlWstat d e) := by
  show fSR 55 2 d.val e.val 0 < 2 ^ 30
  simp only [fSR]; omega
theorem hctlWpos (d : SReg) (k : Fin 64) (w : Fin 64) : Statement (.hctlWpos d k w) := by
  show fSR 55 3 d.val k.val w.val < 2 ^ 30
  simp only [fSR]; omega
theorem brv (g : Guard) (o : BitVec 20) : Statement (.brv g o) := by
  have := g.code_lt
  show 56 * 2 ^ 24 + g.code * 2 ^ 20 + o.toNat < 2 ^ 30
  omega
theorem rcv (o : BitVec 22) : Statement (.rcv o) := by
  show fJ 57 0 o.toNat < 2 ^ 30
  simp only [fJ]; omega
theorem join : Statement (.join) := by unfold Statement; decide
theorem brsBeqz (k : SReg) (o : BitVec 16) : Statement (.brsBeqz k o) := by
  show fSQ 59 k 0 o.toNat < 2 ^ 30
  simp only [fSQ]; omega
theorem brsBnez (k : SReg) (o : BitVec 16) : Statement (.brsBnez k o) := by
  show fSQ 59 k 1 o.toNat < 2 ^ 30
  simp only [fSQ]; omega
theorem brsBltz (k : SReg) (o : BitVec 16) : Statement (.brsBltz k o) := by
  show fSQ 59 k 2 o.toNat < 2 ^ 30
  simp only [fSQ]; omega
theorem brsBgez (k : SReg) (o : BitVec 16) : Statement (.brsBgez k o) := by
  show fSQ 59 k 3 o.toNat < 2 ^ 30
  simp only [fSQ]; omega
theorem jmpJmp (o : BitVec 22) : Statement (.jmpJmp o) := by
  show fJ 60 0 o.toNat < 2 ^ 30
  simp only [fJ]; omega
theorem jmpCall (o : BitVec 22) : Statement (.jmpCall o) := by
  show fJ 60 1 o.toNat < 2 ^ 30
  simp only [fJ]; omega
theorem jmpJmpr (a : SReg) : Statement (.jmpJmpr a) := by
  show fJ 60 2 (a.val * 2 ^ 16) < 2 ^ 30
  simp only [fJ]; omega
theorem jmpRet : Statement (.jmpRet) := by unfold Statement; decide
theorem syncGbar (o : Scope) : Statement (.syncGbar o) := by
  have := o.code_lt
  show fSR 62 0 o.code 0 0 < 2 ^ 30
  simp only [fSR]; omega
theorem syncEnq (d : SReg) (q : AReg) (p : AReg) : Statement (.syncEnq d q p) := by
  show fSR 62 1 d.val q.val p.val < 2 ^ 30
  simp only [fSR]; omega
theorem syncQctlCreate (d : SReg) (q : AReg) : Statement (.syncQctlCreate d q) := by
  show fSR 62 2 d.val q.val 0 < 2 ^ 30
  simp only [fSR]; omega
theorem syncQctlStop (d : SReg) (q : AReg) : Statement (.syncQctlStop d q) := by
  show fSR 62 3 d.val q.val 0 < 2 ^ 30
  simp only [fSR]; omega
theorem syncQctlResume (d : SReg) (q : AReg) (a : SReg) : Statement (.syncQctlResume d q a) := by
  show fSR 62 4 d.val q.val a.val < 2 ^ 30
  simp only [fSR]; omega
theorem syncQctlDestroy (d : SReg) (q : AReg) : Statement (.syncQctlDestroy d q) := by
  show fSR 62 5 d.val q.val 0 < 2 ^ 30
  simp only [fSR]; omega
theorem privTretRetry : Statement (.privTretRetry) := by unfold Statement; decide
theorem privTretSkip : Statement (.privTretSkip) := by unfold Statement; decide
theorem privTretKill : Statement (.privTretKill) := by unfold Statement; decide
theorem privPgcow (d : SReg) : Statement (.privPgcow d) := by
  show fSR 63 1 d.val 0 0 < 2 ^ 30
  simp only [fSR]; omega
theorem privPgref (d : SReg) (a : AReg) : Statement (.privPgref d a) := by
  show fSR 63 2 d.val a.val 0 < 2 ^ 30
  simp only [fSR]; omega
theorem privTlbinv (a : AReg) (b : SReg) (k : SReg) : Statement (.privTlbinv a b k) := by
  show fSR 63 3 a.val b.val k.val < 2 ^ 30
  simp only [fSR]; omega
theorem privEseal (d : SReg) (a : AReg) (b : SReg) : Statement (.privEseal d a b) := by
  show fSR 63 4 d.val a.val b.val < 2 ^ 30
  simp only [fSR]; omega
theorem privPreemptSave (d : SReg) (q : AReg) : Statement (.privPreemptSave d q) := by
  show fSR 63 5 d.val q.val 0 < 2 ^ 30
  simp only [fSR]; omega
theorem privPreemptRsm (d : SReg) (q : AReg) : Statement (.privPreemptRsm d q) := by
  show fSR 63 5 d.val q.val 1 < 2 ^ 30
  simp only [fSR]; omega
theorem privHalt : Statement (.privHalt) := by unfold Statement; decide
theorem trapEntry (tid : Nat) : Statement (.trapEntry tid) := zero_fits
theorem transformPipeReply (core : Nat) : Statement (.transformPipeReply core) := zero_fits
theorem loadComplete (tid op : Nat) : Statement (.loadComplete tid op) := zero_fits
theorem storePerformed (tid op : Nat) : Statement (.storePerformed tid op) := zero_fits
theorem atomicPerformed (tid op : Nat) : Statement (.atomicPerformed tid op) := zero_fits
theorem teamSlotRelease (tid : Nat) : Statement (.teamSlotRelease tid) := zero_fits
theorem regather (tid : Nat) : Statement (.regather tid) := zero_fits
theorem teamAged (tid : Nat) : Statement (.teamAged tid) := zero_fits
theorem l1Writeback (core sector : Nat) : Statement (.l1Writeback core sector) := zero_fits
theorem signalWaitSatisfied (w : Nat) : Statement (.signalWaitSatisfied w) := zero_fits
theorem evictedTeamRestore (tid : Nat) : Statement (.evictedTeamRestore tid) := zero_fits
theorem copyStart (c : Nat) : Statement (.copyStart c) := zero_fits
theorem copySectorPerformed (c job : Nat) : Statement (.copySectorPerformed c job) := zero_fits
theorem ringFillChunk (cluster ring : Nat) : Statement (.ringFillChunk cluster ring) := zero_fits
theorem ringDrainChunk (cluster ring : Nat) : Statement (.ringDrainChunk cluster ring) := zero_fits
theorem ringUnbindComplete (cluster ring : Nat) : Statement (.ringUnbindComplete cluster ring) := zero_fits
theorem pageAnswer : Statement (.pageAnswer) := zero_fits
theorem hostStore (pa : Nat) (bytes : List Byte) : Statement (.hostStore pa bytes) := zero_fits
theorem hostLoad (pa n : Nat) : Statement (.hostLoad pa n) := zero_fits
theorem remoteRequest (dev pa : Nat) (k : RemoteKind) : Statement (.remoteRequest dev pa k) := zero_fits
theorem ticketClaim (q core : Nat) : Statement (.ticketClaim q core) := zero_fits
theorem packetDispatch (q : Nat) : Statement (.packetDispatch q) := zero_fits
theorem placementRetry (q : Nat) : Statement (.placementRetry q) := zero_fits
theorem placementPressurePreempt (q : Nat) : Statement (.placementPressurePreempt q) := zero_fits
theorem waitSignalsDispatch (q : Nat) : Statement (.waitSignalsDispatch q) := zero_fits
theorem signalPacketPerform (q : Nat) : Statement (.signalPacketPerform q) := zero_fits
theorem bundleStart (b : Nat) : Statement (.bundleStart b) := zero_fits
theorem queueStallCheck : Statement (.queueStallCheck) := zero_fits
theorem kstepBegin (core : Nat) : Statement (.kstepBegin core) := zero_fits
theorem kstepBoundary (core : Nat) : Statement (.kstepBoundary core) := zero_fits
theorem splitkArrival (core slot : Nat) : Statement (.splitkArrival core slot) := zero_fits
theorem upcallDelivery (core pool : Nat) : Statement (.upcallDelivery core pool) := zero_fits
theorem streamFillComplete (core : Nat) (isB : Bool) (slot : Nat) : Statement (.streamFillComplete core isB slot) := zero_fits
theorem streamDrainComplete (core slot : Nat) : Statement (.streamDrainComplete core slot) := zero_fits
theorem walkStallReport (core : Nat) : Statement (.walkStallReport core) := zero_fits
theorem groupDeadline (g : Nat) : Statement (.groupDeadline g) := zero_fits
theorem preemptSaveComplete (q : Nat) : Statement (.preemptSaveComplete q) := zero_fits
theorem drainLimitExpiry (q : Nat) : Statement (.drainLimitExpiry q) := zero_fits
theorem queueAutoResume (q : Nat) : Statement (.queueAutoResume q) := zero_fits
theorem dbgctlHaltreq (core : Nat) : Statement (.dbgctlHaltreq core) := zero_fits
theorem dbgctlResume (core : Nat) : Statement (.dbgctlResume core) := zero_fits
theorem debugHaltQuiet (core : Nat) : Statement (.debugHaltQuiet core) := zero_fits
theorem energyTick (rs : List Reading) : Statement (.energyTick rs) := zero_fits
theorem sealedIntervalClose : Statement (.sealedIntervalClose) := zero_fits
theorem powerBudgetTick (d : PowerDemand) : Statement (.powerBudgetTick d) := zero_fits
theorem ptpSyncReceive (src : Nat) (t : PtpTransport) (domain : BitVec 8) (logInterval : Int) (times : SyncTimes) :
    Statement (.ptpSyncReceive src t domain logInterval times) := zero_fits
theorem ptpFrameDrop (isPtp : Bool) (t : PtpTransport) : Statement (.ptpFrameDrop isPtp t) := zero_fits
theorem ptpSyncTimeout : Statement (.ptpSyncTimeout) := zero_fits
theorem ppsEdge : Statement (.ppsEdge) := zero_fits
theorem correctableError (unit index addr : Nat) : Statement (.correctableError unit index addr) := zero_fits
theorem uncorrectableError (unit index addr : Nat) (reg : Option RegPlace) : Statement (.uncorrectableError unit index addr reg) := zero_fits
theorem linkCrcError (port : Nat) (again : Bool) : Statement (.linkCrcError port again) := zero_fits
theorem linkRetrainEnd (port : Nat) (ok : Bool) : Statement (.linkRetrainEnd port ok) := zero_fits
theorem pwrlimWrite (x : W64) : Statement (.pwrlimWrite x) := zero_fits
theorem prqheadWrite (x : W64) : Statement (.prqheadWrite x) := zero_fits
theorem prawrWrite (x : W64) : Statement (.prawrWrite x) := zero_fits
theorem logheadWrite (x : W64) : Statement (.logheadWrite x) := zero_fits
theorem ringBaseWrite (n : BitVec 16) (x : W64) : Statement (.ringBaseWrite n x) := zero_fits
theorem registerWrite (n : BitVec 16) (core : Nat) (x : W64) : Statement (.registerWrite n core x) := zero_fits
theorem powerGood (trains : Bool) : Statement (.powerGood trains) := zero_fits
theorem firmwareImageVerify (digest sig : Nat) (ports : BitVec 32) (failing : List (Nat × Nat)) (boot : BitVec 128) : Statement (.firmwareImageVerify digest sig ports failing boot) := zero_fits
theorem warmReset : Statement (.warmReset) := zero_fits
theorem fwSetPtpAddress (v4 : BitVec 32) (v6 : BitVec 128) : Statement (.fwSetPtpAddress v4 v6) := zero_fits
theorem fwReadPublicKey : Statement (.fwReadPublicKey) := zero_fits
theorem fwSupplyLastRecord (part : Nat) (bytes : List Byte) : Statement (.fwSupplyLastRecord part bytes) := zero_fits
theorem fwContextKill (ctx : Nat) : Statement (.fwContextKill ctx) := zero_fits
theorem fwPartitionAssign (cluster : Nat) (part : Option (Fin 32)) : Statement (.fwPartitionAssign cluster part) := zero_fits
theorem powerLoss : Statement (.powerLoss) := zero_fits
theorem fwContextCreate (ctx root part ffl fflen pool poolLen : Nat) : Statement (.fwContextCreate ctx root part ffl fflen pool poolLen) := zero_fits
theorem frameExport (frame dev : Nat) : Statement (.frameExport frame dev) := zero_fits
theorem sgOperationPerformed (tid op : Nat) : Statement (.sgOperationPerformed tid op) := zero_fits
theorem ptpAnnounceReceive (src prio1 : Nat) (quality : ClockQuality) (prio2 : Nat) (t : PtpTransport) (domain : BitVec 8) :
    Statement (.ptpAnnounceReceive src prio1 quality prio2 t domain) := zero_fits
theorem ptpDelayRespReceive (src : Nat) (t : PtpTransport) (domain : BitVec 8) (delay : Int) : Statement (.ptpDelayRespReceive src t domain delay) := zero_fits
theorem linkCompressorSwitch (port fill : Nat) : Statement (.linkCompressorSwitch port fill) := zero_fits

end Sys2Proof.Laws.BodyFits
end

