-- ==== Sys2Proof/Tests/Slice0.lean ====
section
/-!
SUPPORT. Sys2Proof/Tests/Slice0.lean: one-step tests on small states, with results worked out from the spec, and for each statement
states and operands that meet its hypotheses.
-/
set_option Elab.async false

namespace Sys2Proof.Test
open Sys2Proof Sys2Proof.Machine Sys2Proof.Claim

/-! ### Small states -/

/-- Five nodes of a page table that end in a leaf of 1 GiB: virtual addresses below 2^30 are the same physical ones, readable,
writable and executable (spec/18 R274 to R276). -/
def tables : List Host.Cell :=
  [(0x1000, 1), (0x100A, 8), (0x80000, 1), (0x80009, 0x80), (0x8000A, 8), (0x88000, 1), (0x8800A, 9), (0x90000, 1), (0x90009, 0x80),
   (0x9000A, 9), (0x98000, 0xEF)]

/-- The lowest n lanes. -/
def low (n : Nat) : Mask := BitVec.ofNat 1024 (2 ^ n - 1)

/-- A user-level team of 32 lanes, four of them active, on core 0, in context 1, of queue 20 and bundle 30. -/
def team : Team :=
  { Team.absent with
    id := { Team.absent.id with tid := 5, ctx := 1, live := low 32, queue := some 20, bundle := some 30, kernel := { Kernel.zero with traptab := 0 } }
    place := .on 0 0 0
    ctl := { Team.absent.ctl with pc := 0x1000, em := low 4 } }

/-- That team in a device that is up. -/
def base : State :=
  { State.reset with
    boot := .up, me := team, nextId := 40, mem := tables
    ctxs := [⟨1, 0x1000, 0, 0, 1, 0, 0, 0, 0, 0x800000, 0x100000, []⟩] }

/-- A state with s registers, address registers or v registers set, or with its control state or what it has under way changed. -/
def withS (s : State) (xs : List (SReg × W64)) : State := s.setMe fun t => xs.foldl (fun t x => t.setS x.1 x.2) t
def withA (s : State) (xs : List (AReg × W80)) : State := s.setMe fun t => xs.foldl (fun t x => t.setA x.1 x.2) t
def withV (s : State) (xs : List (VReg × List W32)) : State :=
  s.setMe fun t => xs.foldl (fun t x => t.setV x.1 (x.2 ++ List.replicate (32 - x.2.length) 0)) t
def withCtl (s : State) (f : Ctl → Ctl) : State := s.setMe fun t => { t with ctl := f t.ctl }
def withFlow (s : State) (f : Flow → Flow) : State := s.setMe fun t => { t with flow := f t.flow }
def withId (s : State) (f : Ident → Ident) : State := s.setMe fun t => { t with id := f t.id }

/-- Memory of a state with bytes written. -/
def withMem (s : State) (a : Nat) (bs : List Byte) : State := { s with mem := writePairs s.mem (keyed a bs) }

/-- What a next state shows; none for a stop. -/
def got {α : Type} (i : Instr) (s : State) (f : State → α) : Option α :=
  match exec i s with
  | .next t => some (f t)
  | _ => none

/-- Guard p7, and guard p1. -/
def g7 : Guard := ⟨false, 7⟩
def g1 : Guard := ⟨false, 1⟩

/-- Lanes 0 to n - 1 of a v register of the team in issue. -/
def lanes (r : VReg) (n : Nat) (s : State) : List W32 := (s.me.v r).take n

/-- The position. -/
def pcOf (s : State) : W64 × Nat := (s.me.ctl.pc, s.me.ctl.word)

/-- A team with 10 v registers and one frame; the trap table has handlers at 0x2000 for classes 0 and 9, none for class 1. -/
def tr : State :=
  (withMem (withMem base 0 [0, 0x20]) 8 (List.replicate 8 0xFF)).setMe fun t =>
    { t with id := { t.id with kernel := { t.id.kernel with regs := 10 } }, ctl := { t.ctl with stack := [⟨true, 0x300, 12⟩] } }

/-- The kind and detail of each report held. -/
def reps (s : State) : List (Nat × Nat) := s.io.held.filterMap fun
  | .report r => some (r.kind, r.detail)
  | .reading _ _ => none

/-- The state after a word; the state itself where the word stops. -/
def after (i : Instr) (s : State) : State :=
  match exec i s with
  | .next t => t
  | _ => s

theorem next_after {i : Instr} {s : State} (h : got i s (fun _ => true) = some true) : exec i s = .next (after i s) := by
  unfold got at h
  unfold after
  split <;> simp_all

theorem second {α β : Type} {p : α × β} {a : α} (h : p.1 = a) : ∃ b, p = (a, b) := ⟨p.2, by rw [← h]⟩

theorem pair {α β : Type} {p : α × β} {b : β} (h : p.2 = b) : p = (p.1, b) := by rw [← h]

theorem pair1 {α β : Type} {p : α × β} {a : α} (h : p.1 = a) : p = (a, p.2) := by rw [← h]

theorem first {α β : Type} {p : α × β} {b : β} (h : p.2 = b) : ∃ a, p = (a, b) := ⟨p.1, by rw [← h]⟩

/-- A state with a tile register set. -/
def withT (s : State) (t : TReg) (x : W128) : State := s.setMe fun u => { u with regs := { u.regs with t := u.regs.t.set t x } }

/-- Whether each operation under way has its results fixed, and the results. -/
def opw2 (s : State) : List (Bool × List RegWrite) := s.me.flow.ops.map fun o => (o.ready, o.writes)

/-- The bundle of the team, with 64 KiB of cluster store on cluster 0. -/
def bund0 : Bundle := ⟨30, 20, 1, 0, 0, 0, [], 2, false, 0, 0, 0, 0, [(0, 0, 65536)], 0, false, [], [], []⟩

/-- An operation of a class under way, with nothing to write. -/
def op0 (k : OpClass) : Op := ⟨3, k, true, false, [], [], [], [.device], none, none, none⟩

/-- A sub-launch of one gang of one team. -/
def gsub1 : Sub := ⟨⟨0, 1, 1, 0, 0, 0, 0, 0⟩, none, 1, none, 0, none, [], [0], false, false, false⟩

/-- Every key of a state with no poison and no link in its way is sound. -/
theorem sound_all (s : State) (key n : Nat) (h : s.poison = []) (h1 : key + n ≤ 2 ^ 64 ∨ 2 ^ 66 ≤ key) : Sound s key n := by
  intro b hb
  have h2 : linkOf (key + b) = none := by
    unfold linkOf
    rw [if_pos (by omega)]
  simp [State.poisoned, State.linkDown, h, h2]

/-- A walk reads the same entries for every address of a page. -/
theorem walk_page (m : Nat → Nat) (va vb : Nat) (h : va / 2 ^ 12 = vb / 2 ^ 12) (ls : List (Nat × Nat × Nat)) (hl : ∀ l ∈ ls, 12 ≤ l.2.1) (node : Nat) :
    walkFrom m va ls node = walkFrom m vb ls node ∧ walkPlaces m va ls node = walkPlaces m vb ls node := by
  induction ls generalizing node with
  | nil => exact ⟨rfl, rfl⟩
  | cons l ls ih =>
    obtain ⟨level, lo, width⟩ := l
    have h12 : 12 ≤ lo := hl _ (List.mem_cons_self ..)
    have h0 : va / 2 ^ lo = vb / 2 ^ lo := by
      rw [show lo = 12 + (lo - 12) by omega, pow_add, ← Nat.div_div_eq_div_mul, ← Nat.div_div_eq_div_mul, h]
    have ih := fun n => ih (fun x hx => hl x (List.mem_cons_of_mem _ hx)) n
    simp only [walkFrom, walkPlaces, h0, (ih _).1, (ih _).2, and_self]

/-- The walk of an address whose entries lie apart from some bytes is the same whatever those bytes are. -/
theorem walk_steady (s : State) (own : Nat → Prop) (root va : Nat) (hw : Memory.wf s.mem = true)
    (hp : ∀ pa ∈ walkPlaces s.entry va levels root, ∀ b, pa ≤ b → b < pa + 64 → ¬ own b) (m : List Host.Cell) (hm : Memory.wf m = true)
    (he : ∀ a, ¬ own a → readCell m a = readCell s.mem a) : ({ s with mem := m } : State).walkTables root va = s.walkTables root va :=
  walkFrom_congr _ _ va levels root fun pa hpa => readNat_congr s m hw hm pa 64 fun b h1 h2 => he b (hp pa hpa b h1 h2)

/-- What is known of a page of a state: its walk ends in a leaf, and reads entries apart from some ranges. -/
structure PageAt (s : State) (c : Ctx) (p : Nat) (l : Leaf) (ws : List (Nat × Nat)) : Prop where
  wf    : Memory.wf s.mem = true
  ctx   : s.liveCtx? c.id c.gen = some c
  leaf  : s.walkTables c.root (4096 * p) = .leaf l
  apart : ∀ pa ∈ walkPlaces s.entry (4096 * p) levels c.root, ∀ w ∈ ws, pa + 64 ≤ w.1 ∨ w.1 + w.2 ≤ pa

/-- An address of such a page leads to its key whatever the bytes of those ranges are. -/
theorem PageAt.steady {s : State} {c : Ctx} {p : Nat} {l : Leaf} {ws : List (Nat × Nat)} (h : PageAt s c p l ws) {own : Nat → Prop}
    (ho : ∀ a, own a → ∃ w ∈ ws, Within w.1 w.2 a) {k : Access} {va : W80} {key : Nat} (hv : va.toNat / 2 ^ 12 = p)
    (hk : s.permit l k va.toNat = .ok key 0) : Steady s own c.id c.gen k va key := by
  intro m hm he
  have e := walk_page s.entry va.toNat (4096 * p) (by omega) levels (by decide) c.root
  have h1 := walk_steady s own c.root va.toNat h.wf (fun pa hpa b h1 h2 hb => by
    obtain ⟨w, hw, h3, h4⟩ := ho b hb
    rw [e.2] at hpa
    have := h.apart pa hpa w hw
    omega) m hm he
  have h2 : ({ s with mem := m } : State).liveCtx? c.id c.gen = some c := h.ctx
  have h3 : s.walkTables c.root va.toNat = .leaf l := e.1.trans h.leaf
  have h4 : ({ s with mem := m } : State).permit l k va.toNat = .ok key 0 := hk
  unfold State.agentKey
  rw [h2]
  simp only
  rw [h1, h3]
  simp only [h4]

/-- The leaf and the context of the tables. -/
def leaf0 : Leaf := ⟨0, 3, 0, 0, false, true, true, true, false, 0, 0, 0x98000⟩
def ctx0 : Ctx := ⟨1, 0x1000, 0, 0, 1, 0, 0, 0, 0, 0x800000, 0x100000, []⟩


/-! ### Scalar and address words (spec/06 R104 to R107) -/

def sc : State := withA (withS base [(1, -1), (2, 2), (3, 0x8000000000000000)]) [(1, 0xFFFF0000000000000001#80)]

theorem test_scalar_arithmetic :
    got (.sopAdd 9 1 2) sc (·.me.s 9) = some 1 ∧ got (.sopSub 9 2 1) sc (·.me.s 9) = some 3 ∧
    got (.sopMul 9 1 1) sc (·.me.s 9) = some 1 ∧ got (.sopMulh 9 1 1) sc (·.me.s 9) = some 0xFFFFFFFFFFFFFFFE ∧
    got (.sopMulhn 9 1 2) sc (·.me.s 9) = some (-1) ∧ got (.sopDiv 9 1 4) sc (·.me.s 9) = some (-1) ∧
    got (.sopDivn 9 3 1) sc (·.me.s 9) = some 0x8000000000000000 ∧ got (.sopDivn 9 3 4) sc (·.me.s 9) = some (-1) ∧
    got (.sopRem 9 3 4) sc (·.me.s 9) = some 0x8000000000000000 ∧ got (.sopRem 9 1 2) sc (·.me.s 9) = some 1 := by decide +kernel

theorem test_scalar_logic :
    got (.sopAnd 9 1 2) sc (·.me.s 9) = some 2 ∧ got (.sopOr 9 3 2) sc (·.me.s 9) = some 0x8000000000000002 ∧
    got (.sopXor 9 1 2) sc (·.me.s 9) = some 0xFFFFFFFFFFFFFFFD ∧ got (.sopAndn 9 1 2) sc (·.me.s 9) = some 0xFFFFFFFFFFFFFFFD ∧
    got (.sopShl 9 2 1) sc (·.me.s 9) = some 0 ∧ got (.sopShr 9 3 1) sc (·.me.s 9) = some 1 ∧
    got (.sopSar 9 3 1) sc (·.me.s 9) = some (-1) ∧ got (.sopMin 9 1 2) sc (·.me.s 9) = some 2 ∧
    got (.sopMax 9 1 2) sc (·.me.s 9) = some (-1) ∧ got (.sopMinn 9 1 2) sc (·.me.s 9) = some (-1) ∧
    got (.sopMaxn 9 1 2) sc (·.me.s 9) = some 2 ∧ got (.sopSlt 9 1 2) sc (·.me.s 9) = some 0 ∧
    got (.sopSltn 9 1 2) sc (·.me.s 9) = some 1 ∧ got (.sopSeq 9 1 1) sc (·.me.s 9) = some 1 ∧
    got (.sopPopc 9 1) sc (·.me.s 9) = some 64 ∧ got (.sopClz 9 4) sc (·.me.s 9) = some 64 ∧
    got (.sopCtz 9 3) sc (·.me.s 9) = some 63 := by decide +kernel

theorem test_scalar_immediate :
    got (.sopiAddi 9 2 0x200) sc (·.me.s 9) = some (-510) ∧ got (.sopiAndi 9 1 0x3FF) sc (·.me.s 9) = some (-1) ∧
    got (.sopiOri 9 4 0x200) sc (·.me.s 9) = some 0xFFFFFFFFFFFFFE00 ∧ got (.sopiXori 9 1 0x001) sc (·.me.s 9) = some (-2) ∧
    got (.sshiShli 9 2 62) sc (·.me.s 9) = some 0x8000000000000000 ∧ got (.sshiShri 9 1 63) sc (·.me.s 9) = some 1 ∧
    got (.sshiSari 9 3 63) sc (·.me.s 9) = some (-1) ∧ got (.sshiSlti 9 1 0x000) sc (·.me.s 9) = some 1 ∧
    got (.sinsInsert 1 3 0x1234) sc (·.me.s 1) = some 0x1234FFFFFFFFFFFF := by decide +kernel

theorem test_address :
    got (.aopAadd 2 1 1 1) sc (·.me.a 2) = some 0xFFFEFFFFFFFFFFFFFFFF#80 ∧ got (.aopAset 1 1 2 false) sc (·.me.a 1) = some 0xFFFF0000000000000002#80 ∧
    got (.aopAset 1 1 2 true) sc (·.me.a 1) = some 0x00020000000000000001#80 ∧ got (.aopAmov 5 1) sc (·.me.a 5) = some 0xFFFF0000000000000001#80 ∧
    got (.aopAget 1 9 true) sc (·.me.s 9) = some 0xFFFF ∧ got (.aopAget 1 9 false) sc (·.me.s 9) = some 1 := by decide +kernel

theorem test_witness_ScalarAndAddressWordsWriteTheirResult :
    (∃ d x, scalarRule sc.me (.sopDivn 9 3 1) = some (d, x) ∧ Passes sc (.sopDivn 9 3 1)) ∧
    (∃ d x, addressRule sc.me (.aopAset 1 1 2 true) = some (d, x) ∧ Passes sc (.aopAset 1 1 2 true)) :=
  ⟨⟨_, _, rfl, by unfold Passes; decide +kernel⟩, ⟨_, _, rfl, by unfold Passes; decide +kernel⟩⟩

/-! ### Lane words (spec/06 R100, R108 to R115) -/

/-- v1 and v2 with lanes, v9 all 9 with tag 2, p1 the odd lanes. -/
def ln : State :=
  (withS (withV base [(1, [3, 0xFFFFFFFF, 5, 0x80000000, 7]), (2, [1, 2, 35, 0xFFFFFFFF, 4]), (9, List.replicate 32 9)]) [(1, 0x100000007)]).setMe fun t =>
    (t.setTag 9 2).setP 1 (BitVec.allOnes 1024) 0xAAAAAAAA

theorem test_lanes_arithmetic :
    got (.variIadd 9 1 2 g7) ln (lanes 9 5) = some [4, 1, 40, 0x7FFFFFFF, 9] ∧ got (.variIsub 9 1 2 g1) ln (lanes 9 5) = some [9, 0xFFFFFFFD, 9, 0x80000001, 9] ∧
    got (.variImul 9 1 2 g7) ln (lanes 9 4) = some [3, 0xFFFFFFFE, 175, 0x80000000] ∧ got (.variImulh 9 1 2 g7) ln (lanes 9 4) = some [0, 1, 0, 0x7FFFFFFF] ∧
    got (.vadi 9 1 g7 0x80) ln (lanes 9 2) = some [0xFFFFFF83, 0xFFFFFF7F] ∧ got (.vimmSx 9 g1 0x1FFF) ln (lanes 9 3) = some [9, 0xFFFFFFFF, 9] ∧
    got (.vimmHi 9 g7 0x1FFF) ln (lanes 9 1) = some [0xFFF80000] ∧ got (.variIadd 9 1 2 g7) ln (·.me.tag 9) = some 0 := by decide +kernel

theorem test_lanes_logic :
    got (.vlogAnd 9 1 2 g7) ln (lanes 9 3) = some [1, 2, 1] ∧ got (.vlogOr 9 1 2 g7) ln (lanes 9 3) = some [3, 0xFFFFFFFF, 39] ∧
    got (.vlogXor 9 1 2 g7) ln (lanes 9 3) = some [2, 0xFFFFFFFD, 38] ∧ got (.vlogAndn 9 1 2 g7) ln (lanes 9 3) = some [2, 0xFFFFFFFD, 4] ∧
    got (.vsftShl 9 1 2 g7) ln (lanes 9 4) = some [6, 0xFFFFFFFC, 40, 0] ∧ got (.vsftShr 9 1 2 g7) ln (lanes 9 4) = some [1, 0x3FFFFFFF, 0, 1] ∧
    got (.vsftSar 9 1 2 g7) ln (lanes 9 4) = some [1, 0xFFFFFFFF, 0, 0xFFFFFFFF] ∧ got (.vsftRol 9 1 2 g7) ln (lanes 9 4) = some [6, 0xFFFFFFFF, 40, 0x40000000] ∧
    got (.vmnxImin 9 1 2 g7) ln (lanes 9 4) = some [1, 2, 5, 0x80000000] ∧ got (.vmnxImax 9 1 2 g7) ln (lanes 9 4) = some [3, 0xFFFFFFFF, 35, 0xFFFFFFFF] ∧
    got (.vmnxNmin 9 1 2 g7) ln (lanes 9 4) = some [1, 0xFFFFFFFF, 5, 0x80000000] ∧ got (.vmnxNmax 9 1 2 g7) ln (lanes 9 4) = some [3, 2, 35, 0xFFFFFFFF] := by
  decide +kernel

theorem test_lanes_moves :
    got (.vsel 9 1 2 g1) ln (lanes 9 5) = some [1, 0xFFFFFFFF, 35, 0x80000000, 9] ∧ got (.vmovMov 9 1 g1) ln (lanes 9 4) = some [9, 0xFFFFFFFF, 9, 0x80000000] ∧
    got (.vmovBcast 9 1 g7) ln (lanes 9 2) = some [7, 7] ∧ got (.vmovWrlane 9 1 g1) ln (lanes 9 4) = some [9, 7, 9, 9] ∧
    got (.vmovLaneid 9 g7) ln (lanes 9 5) = some [0, 1, 2, 3, 9] ∧ got (.vmovRdlane 4 1 g1) ln (·.me.s 4) = some 0xFFFFFFFF ∧
    got (.vxlnBcl 8 1 g1) ln (lanes 8 4) = some [0, 0xFFFFFFFF, 0, 0xFFFFFFFF] ∧ got (.vxlnRedadd 8 1 g7 .i32) ln (lanes 8 2) = some [0x80000007, 0x80000007] ∧
    got (.vxlnRedmax 8 1 g7 .i32) ln (lanes 8 1) = some [5] ∧ got (.vxlnScan 8 1 g7 .i32) ln (lanes 8 5) = some [3, 2, 7, 0x80000007, 0] ∧
    got (.vxlnShfl 2 1 g7) ln (lanes 2 5) = some [0xFFFFFFFF, 5, 0x80000000, 0, 4] := by decide +kernel

theorem test_witness_IntegerLaneWordsWriteTheirLanes :
    ∃ r, integerRule (ready ln (.variIsub 9 1 2 g1)) (.variIsub 9 1 2 g1) = some r ∧ Passes ln (.variIsub 9 1 2 g1) :=
  ⟨_, rfl, by unfold Passes; decide +kernel⟩

theorem test_witness_CrossLaneWordsWriteTheirLanes :
    ∃ r, crossRule (ready ln (.vxlnScan 8 1 g7 .i32)) (.vxlnScan 8 1 g7 .i32) = some r ∧ Passes ln (.vxlnScan 8 1 g7 .i32) :=
  ⟨_, rfl, by unfold Passes; decide +kernel⟩

/-! ### Floating-point words (spec/07 R121 to R128) -/

/-- v1 = 1, -2, NaN, 3 × 2^-149; v2 = 2, 2, 1, +∞ (FP32); v3 = 1 and 2 in FP16 halves. -/
def fl : State :=
  withV base [(1, [0x3F800000, 0xC0000000, 0x7FC00001, 3]), (2, [0x40000000, 0x40000000, 0x3F800000, 0x7F800000]), (3, [0x40003C00]), (9, List.replicate 32 0x3F800000)]

theorem test_float_arithmetic :
    got (.fadd 8 1 2 g7 .f32) fl (lanes 8 4) = some [0x40400000, 0, 0x7FC00000, 0x7F800000] ∧
    got (.fsub 8 1 2 g7 .f32) fl (lanes 8 4) = some [0xBF800000, 0xC0800000, 0x7FC00000, 0xFF800000] ∧
    got (.fmul 8 1 2 g7 .f32) fl (lanes 8 4) = some [0x40000000, 0xC0800000, 0x7FC00000, 0x7F800000] ∧
    got (.fma 9 1 2 g7 .f32) fl (lanes 9 2) = some [0x40400000, 0xC0400000] ∧ got (.fadd 8 3 3 g7 .half) fl (lanes 8 1) = some [0x44004000] ∧
    got (.fmin 8 1 2 g7 .f32) fl (lanes 8 4) = some [0x3F800000, 0xC0000000, 0x3F800000, 3] ∧
    got (.fmax 8 1 2 g7 .f32) fl (lanes 8 4) = some [0x40000000, 0x40000000, 0x3F800000, 0x7F800000] := by decide +kernel

theorem test_float_functions :
    got (.funaExp2 8 2 g7 .f32) fl (lanes 8 1) = some [0x40800000] ∧ got (.funaLog2 8 2 g7 .f32) fl (lanes 8 1) = some [0x3F800000] ∧
    got (.funaRcp 8 2 g7 .f32) fl (lanes 8 1) = some [0x3F000000] ∧ got (.funaAbs 8 1 g7 .f32) fl (lanes 8 2) = some [0x3F800000, 0x40000000] ∧
    got (.funaNeg 8 1 g7 .f32) fl (lanes 8 2) = some [0xBF800000, 0x40000000] ∧ got (.funaFloor 8 1 g7 .f32) fl (lanes 8 4) = some [0x3F800000, 0xC0000000, 0x7FC00000, 0] ∧
    got (.funaCeil 8 1 g7 .f32) fl (lanes 8 4) = some [0x3F800000, 0xC0000000, 0x7FC00000, 0x3F800000] ∧ got (.funaRint 8 1 g7 .f32) fl (lanes 8 4) = some [0x3F800000, 0xC0000000, 0x7FC00000, 0] ∧
    got (.funaFrac 8 1 g7 .f32) fl (lanes 8 2) = some [0, 0] ∧ got (.funaSqrt 8 1 g7 .f32) fl (lanes 8 2) = some [0x3F800000, 0x7FC00000] ∧
    got (.funaRsqrt 8 1 g7 .f32) fl (lanes 8 1) = some [0x3F800000] ∧ got (.funaTanh 8 2 g7 .f32) fl (fun t => (lanes 8 4 t).getD 3 0) = some 0x3F800000 ∧
    got (.funaSigm 8 4 g7 .f32) fl (lanes 8 1) = some [0x3F000000] ∧ got (.funaGelu 8 4 g7 .f32) fl (lanes 8 1) = some [0] := by decide +kernel

theorem test_witness_FloatLaneWordsRoundOnce :
    (∃ r, floatRule (ready fl (.fadd 8 1 2 g7 .f32)) (.fadd 8 1 2 g7 .f32) = some r ∧ Passes fl (.fadd 8 1 2 g7 .f32)) ∧
    (∃ r, specialRule (ready fl (.funaSqrt 8 1 g7 .bf)) (.funaSqrt 8 1 g7 .bf) = some r ∧ Passes fl (.funaSqrt 8 1 g7 .bf)) :=
  ⟨⟨_, rfl, by unfold Passes; decide +kernel⟩, ⟨_, rfl, by unfold Passes; decide +kernel⟩⟩

/-- The operands that the clauses of the table of R126 speak of exist in each format. -/
theorem test_witness_SpecialOperandsFollowTheTable :
    (∀ F ∈ [fmtF32, fmtF16, fmtBf16], F.value (F.nan.getD 0) = .nan ∧ F.value (F.inf.getD 0) = .inf false ∧
      F.value (F.inf.getD 0 + F.signBit) = .inf true) ∧
    fmtF32.value 0x80000000 = .fin true 0 (-149) ∧ fmtF32.value 0 = .fin false 0 (-149) ∧ fmtF16.value 0x8000 = .fin true 0 (-24) ∧ fmtBf16.value 0 = .fin false 0 (-133) ∧
    fmtF32.value 0xBF800000 = .fin true 8388608 (-23) ∧ fmtF16.value 0xBC00 = .fin true 1024 (-10) ∧ fmtBf16.value 0xBF80 = .fin true 128 (-7) := by
  decide +kernel

theorem test_compare :
    got (.vcmpEq 1 2 1 1 g7) ln (fun t => ((t.me.p 1).toNat % 64, (t.me.p 2).toNat % 16)) = some (0xAAAAAAAF % 64, 0) ∧
    got (.vcmpLt 2 3 1 2 g7) ln (fun t => ((t.me.p 2).toNat % 32, (t.me.p 3).toNat % 32)) = some (12, 3) ∧
    got (.vcmpLe 2 7 1 2 g7) ln (fun t => ((t.me.p 2).toNat % 32, t.me.p 7)) = some (12, BitVec.allOnes 1024) ∧
    got (.vcmpLtn 2 3 1 2 g7) ln (fun t => ((t.me.p 2).toNat % 32, (t.me.p 3).toNat % 32)) = some (14, 1) ∧
    got (.fceq 2 3 1 1 g7 .f32) fl (fun t => ((t.me.p 2).toNat, (t.me.p 3).toNat)) = some (11, 4) ∧
    got (.fclt 2 3 1 2 g7 .f32) fl (fun t => ((t.me.p 2).toNat, (t.me.p 3).toNat)) = some (11, 4) ∧
    got (.fcle 2 3 2 1 g7 .f32) fl (fun t => ((t.me.p 2).toNat, (t.me.p 3).toNat)) = some (0, 15) ∧
    got (.fcun 2 3 1 2 g7 .f32) fl (fun t => ((t.me.p 2).toNat, (t.me.p 3).toNat)) = some (4, 11) := by decide +kernel

theorem test_witness_ComparesWriteBothPredicates :
    ∃ r, cmpRule (ready fl (.fclt 2 3 1 2 g7 .f32)) (.fclt 2 3 1 2 g7 .f32) = some r ∧ Passes fl (.fclt 2 3 1 2 g7 .f32) :=
  ⟨_, rfl, by unfold Passes; decide +kernel⟩

theorem test_predicates :
    got (.plogPand 2 1 false 7) ln (fun t => (t.me.p 2).toNat) = some 10 ∧ got (.plogPor 2 1 true 1) ln (fun t => (t.me.p 2).toNat) = some 15 ∧
    got (.plogPxor 2 1 false 7) ln (fun t => (t.me.p 2).toNat) = some 5 ∧ got (.plogPand 7 1 false 1) ln (fun t => t.me.p 7) = some (BitVec.allOnes 1024) ∧
    got (.plogPmovs 4 1 0) ln (·.me.s 4) = some 10 ∧ got (.plogPbal 4 1) ln (·.me.s 4) = some 2 ∧ got (.plogEmr 4 0) ln (·.me.s 4) = some 15 ∧
    got (.plogEmr 4 63) ln (·.me.s 4) = some 1 ∧ got (.plogEmw 1) ln (fun t => t.me.ctl.em.toNat) = some 10 ∧
    got (.domnDget 4 9) ln (·.me.s 4) = some 2 ∧ got (.domnDtag 9 3) ln (fun t => (t.me.tag 9, (lanes 9 1 t))) = some (3, [9]) := by decide +kernel

theorem test_witness_PredicateAndMaskWords :
    (∃ d f, predicateRule ln.me (.plogPand 7 1 false 1) = some (d, f) ∧ Passes ln (.plogPand 7 1 false 1)) ∧
    (∃ d x, maskRule (ready ln (.plogEmr 4 63)) (.plogEmr 4 63) = some (d, x) ∧ Passes ln (.plogEmr 4 63)) ∧
    Passes ln (.plogEmw 1) ∧ Passes ln (.domnDtag 9 5) :=
  ⟨⟨_, _, rfl, by unfold Passes; decide +kernel⟩, ⟨_, _, rfl, by unfold Passes; decide +kernel⟩, by unfold Passes; decide +kernel, by unfold Passes; decide +kernel⟩

theorem test_convert :
    got (.fcvtConvert 9 1 0 g7 .rne) fl (lanes 9 3) = some [0x3F803C00, 0x3F80C000, 0x3F807E00] ∧
    got (.fcvtConvert 8 3 20 g7 .rne) fl (lanes 8 1) = some [0x3F800000] ∧ got (.fcvtConvert 8 3 21 g7 .rne) fl (lanes 8 1) = some [0x40000000] ∧
    got (.fcvtI32 8 1 g7 .rtz) fl (lanes 8 2) = some [1, 0xFFFFFFFE] ∧ got (.fcvtWi32 8 1 g7 .rne) ln (lanes 8 3) = some [0x40400000, 0xBF800000, 0x40A00000] ∧
    got (.fcvtI32 8 1 g7 .rtz) fl (·.me.ctl.srstate) = some fl.me.ctl.srstate := by decide +kernel

theorem test_witness_ConversionsRoundLaneByLane :
    (∃ r, cvtRule (ready fl (.fcvtConvert 9 1 4 g7 .sr)) (.fcvtConvert 9 1 4 g7 .sr) = some r ∧ Passes fl (.fcvtConvert 9 1 4 g7 .sr)) ∧
    ∀ v, ((ready fl (.fcvtConvert 9 1 4 g7 .sr)).v v).length = (ready fl (.fcvtConvert 9 1 4 g7 .sr)).width :=
  ⟨⟨_, rfl, by unfold Passes; decide +kernel⟩, by decide +kernel⟩

/-! ### Control flow (spec/06 R103; spec/12 R204; spec/15 R253 to R258) -/

/-- s1 = -1, s2 = 0, s63 = 0x500; p1 the odd lanes. -/
def ct : State := (withS base [(1, -1), (63, 0x500)]).setMe fun t => t.setP 1 (BitVec.allOnes 1024) 0xAAAAAAAA

/-- ct with a full stack, and with one frame of each kind. -/
def full : State := withCtl ct fun c => { c with stack := List.replicate 32 ⟨false, 0x700, low 4⟩ }
def two : State := withCtl ct fun c => { c with em := low 2, stack := [⟨true, 0x300, 12⟩, ⟨false, 0x700, low 4⟩] }

theorem test_branches :
    got (.brsBeqz 2 0x8000) ct pcOf = some (0xFFFFFFFFFFFF9000, 0) ∧ got (.brsBnez 1 2) ct pcOf = some (0x1002, 0) ∧
    got (.brsBltz 1 0x7FFF) ct pcOf = some (0x8FFF, 0) ∧ got (.brsBgez 1 5) ct pcOf = some (0x1001, 0) ∧
    got (.jmpJmp 0x3FFFFF) ct pcOf = some (0xFFF, 0) ∧ got (.jmpJmpr 1) ct pcOf = some (-1, 0) ∧ got .jmpRet ct pcOf = some (0x500, 0) ∧
    got (.jmpCall 0x10) ct (fun t => (pcOf t, t.me.s 63)) = some ((0x1010, 0), 0x1001) := by decide +kernel

theorem test_divergence :
    got (.brv g1 4) ct (fun t => (pcOf t, t.me.ctl.em, t.me.ctl.stack)) = some ((0x1004, 0), 10, [⟨true, 0x1001, 5⟩]) ∧
    got (.brv ⟨true, 7⟩ 4) ct pcOf = some (0x1001, 0) ∧ got (.brv g7 4) ct pcOf = some (0x1004, 0) ∧
    got (.rcv 8) ct (fun t => (pcOf t, t.me.ctl.stack)) = some ((0x1000, 1), [⟨false, 0x1008, low 4⟩]) ∧
    got .join two (fun t => (pcOf t, t.me.ctl.em)) = some ((0x300, 0), 12) ∧
    got .join (withCtl two fun c => { c with stack := c.stack.drop 1 }) (fun t => (pcOf t, t.me.ctl.em)) = some ((0x1001, 0), low 4) := by decide +kernel

theorem test_stack_traps :
    got (.brv g1 4) full (·.me.ctl.trap.tcause) = some 8 ∧ got (.rcv 4) full (·.me.ctl.trap.tcause) = some 8 ∧
    got .join ct (·.me.ctl.trap.tcause) = some 0x108 := by decide +kernel

theorem test_exit :
    got .miscExit (withFlow ct fun f => { f with ops := [⟨3, .ld, true, false, [.s 1 9], [], [1], [.device], none, none, none⟩] })
      (fun t => (t.me.flow.ended, t.me.flow.ops.map (·.writes))) = some (true, [[]]) := by decide +kernel

/-- ct with a pinned sector of the team. -/
def pin0 : Dirty := ⟨0, 0x100000, 5, none, 1, 0, 0x100000, [(0x100000, 7)], true⟩
def pinned0 : State := { ct with dirty := [pin0] }

theorem test_witness_ExitEndsTheTeam :
    (Passes ct .miscExit ∧ ct.me.id.pool = none ∧ ct.pinnedOf ct.me.id.tid = []) ∧
    Passes pinned0 .miscExit ∧ pinned0.me.id.pool = none ∧ pinned0.pinnedOf pinned0.me.id.tid = [pin0] ∧ pin0.queue = none ∧ pin0.ctx = pinned0.me.id.ctx ∧
      pinned0.io.logbase = 0 ∧ pinned0.io.heldReports < 256 := by unfold Passes; decide +kernel

theorem test_witness_UniformBranchesGoToTheirTarget :
    (∃ pc, branchRule ct.me (.brsBltz 1 0x8000) = some pc ∧ Passes ct (.brsBltz 1 0x8000)) ∧ Passes ct (.jmpCall 0x200000) :=
  ⟨⟨_, rfl, by unfold Passes; decide +kernel⟩, by unfold Passes; decide +kernel⟩

theorem test_witness_BrvSplitsTheMask :
    (Passes ct (.brv ⟨true, 7⟩ 4) ∧ ct.me.em &&& ct.me.guardMask ⟨true, 7⟩ = 0) ∧
    (Passes ct (.brv g7 4) ∧ ct.me.em &&& ct.me.guardMask g7 ≠ 0 ∧ ct.me.em &&& ~~~(ct.me.guardMask g7) = 0) ∧
    (Passes ct (.brv g1 4) ∧ ct.me.em &&& ct.me.guardMask g1 ≠ 0 ∧ ct.me.em &&& ~~~(ct.me.guardMask g1) ≠ 0 ∧ ct.me.ctl.stack.length < 32) ∧
    (Passes full (.brv g1 4) ∧ full.me.em &&& full.me.guardMask g1 ≠ 0 ∧ full.me.em &&& ~~~(full.me.guardMask g1) ≠ 0 ∧
      32 ≤ full.me.ctl.stack.length) := by unfold Passes; decide +kernel

theorem test_witness_RcvPushesAndJoinPops :
    (Passes ct (.rcv 4) ∧ ct.me.ctl.stack.length < 32) ∧ (Passes full (.rcv 4) ∧ 32 ≤ full.me.ctl.stack.length) ∧
    (Passes two .join ∧ ∃ f rest, two.me.ctl.stack = f :: rest) ∧ (Passes ct .join ∧ ct.me.ctl.stack = []) :=
  ⟨by unfold Passes; decide +kernel, by unfold Passes; decide +kernel, ⟨by unfold Passes; decide +kernel, _, _, rfl⟩, by unfold Passes; decide +kernel⟩

theorem test_witness_DivergenceKeepsEveryLane :
    ∃ t u, Passes ct (.brv g1 4) ∧ ct.me.ctl.stack.length < 32 ∧ ct.me.em &&& ct.me.guardMask g1 ≠ 0 ∧
      ct.me.em &&& ~~~(ct.me.guardMask g1) ≠ 0 ∧ exec (.brv g1 4) ct = .next t ∧ Passes t .join ∧ exec .join t = .next u ∧
      u.me.ctl.em ||| t.me.ctl.em = ct.me.em := by
  refine ⟨_, _, by unfold Passes; decide +kernel, by decide +kernel, by decide +kernel, by decide +kernel, rfl, by unfold Passes; decide +kernel, rfl, by decide +kernel⟩

/-! ### Failed checks and traps (spec/02 R47, R48; spec/20 R302; spec/22 R318 to R320) -/

/-- v3 and s4 pending. -/
def pend : State := tr.setMe fun t => { t with regs := { t.regs with pendV := 8, pendS := 16 } }

theorem test_failed_checks :
    got (.hctlWpos 1 5 0) tr (·.me.ctl.trap.tcause) = some 0x200 ∧ got (.variIadd 10 1 2 g7) tr (·.me.ctl.trap.tcause) = some 0x800 ∧
    got (.privHalt) tr (·.me.ctl.trap.tcause) = some 0x900 ∧ got (.vcmpEq 2 2 1 1 g7) tr (·.me.ctl.trap.tcause) = some 0xA00 ∧
    got (.variIadd 1 3 2 g7) pend (fun t => t.me.flow.trapPend.map (·.info.detail)) = some (some 3) ∧
    got (.sopAdd 1 4 2) pend (fun t => t.me.flow.trapPend.map (·.info.detail)) = some (some 68) := by decide +kernel

theorem test_witness_FailedChecksTrapInOrder :
    (hasWord (.hctlWpos 1 5 0) = true ∧ WellFormed (.hctlWpos 1 5 0) = false) ∧
    (WellFormed (.variIadd 10 1 2 g7) = true ∧ tr.me.allocOk (Instr.names (.variIadd 10 1 2 g7)) = false) ∧
    (tr.me.allocOk (Instr.names .privHalt) = true ∧ Instr.privHalt.levelOk tr.me.ctl.level.code = false) ∧
    ((Instr.vcmpEq 2 2 1 1 g7).levelOk tr.me.ctl.level.code = true ∧ tr.operandOk (.vcmpEq 2 2 1 1 g7) = false) ∧
    (pend.operandOk (.sopAdd 1 4 2) = true ∧ pend.me.unmarked (Instr.names (.sopAdd 1 4 2)) = some 68) := by decide +kernel

theorem test_trap_enters :
    got (.miscTrap 0xFFF) (withMem tr 72 [0, 0x20]) (fun t => (pcOf t, t.me.ctl.level, t.me.ctl.stack, t.me.ctl.aside, t.me.ctl.asideEm)) =
      some ((0x2000, 0), .trap, [], [⟨true, 0x300, 12⟩], low 4) ∧
    got (.miscTrap 0xFFF) (withMem tr 72 [0, 0x20]) (fun t => (t.me.ctl.trap.tcause, t.me.ctl.trap.tpc, t.me.ctl.trap.tlanem)) =
      some (0xFFF09, 0x4000, 0) := by decide +kernel

theorem test_witness_TrapEntersItsHandler : CanEnter tr 0 ∧ CanEnter tr 9 :=
  ⟨⟨by decide +kernel, by decide +kernel, by decide +kernel⟩, ⟨by decide +kernel, by decide +kernel, by decide +kernel⟩⟩

theorem test_misc :
    got .miscNop base pcOf = some (0x1000, 1) ∧ got .miscYield { base with now := 35 } (·.me.sch.last) = some 7 ∧
    got .miscBrk base (fun t => (t.core 0).dbg) = some .running ∧
    got .miscBrk (base.updCore 0 fun c => { c with brken := true }) (fun t => (t.core 0).dbg) = some .haltedBusy := by decide +kernel

theorem test_witness_MiscWordsComplete :
    Passes base .miscNop ∧ Passes base .miscYield ∧ (Passes base .miscBrk ∧ base.brken = false) ∧
    (Passes (base.updCore 0 fun c => { c with brken := true }) .miscBrk ∧ (base.updCore 0 fun c => { c with brken := true }).brken = true) ∧
    Passes tr (.miscTrap 0xFFF) := by unfold Passes; decide +kernel

/-- A trap of class 0 that waits, with a register pending and with none. -/
def wait0 : PendTrap := ⟨⟨0, 3, 0, false, 0⟩, 0x1000, 1, 0, false⟩
def waiting : State := withFlow pend fun f => { f with trapPend := some wait0 }
def waited : State := withFlow tr fun f => { f with trapPend := some wait0 }

theorem test_waiting_trap :
    got (.trapEntry 5) waiting (·.me.ctl.level) = some .user ∧
    got (.trapEntry 5) waited (fun t => (t.me.ctl.level, t.me.ctl.trap.tcause, t.me.ctl.trap.tpc)) = some (.trap, 0x300, 0x4001) ∧
    (tr.raise 5 ⟨⟨1, 3, 0, false, 0⟩, 0x1000, 0, 0, false⟩).me.flow.ended = true ∧
    reps (tr.raise 5 ⟨⟨1, 3, 0, false, 0⟩, 0x1000, 0, 0, false⟩) = [(7, 0x301)] ∧
    reps ((withCtl tr fun c => { c with level := .trap }).raise 5 wait0) = [(8, 0x300)] := by decide +kernel

theorem test_witness_WaitingNestedAndUnhandledTraps :
    (waiting.me.ctl.level ≠ .trap ∧ waiting.me.trappable = false ∧ waiting.me.flow.trapPend = some wait0) ∧
    (waited.me.flow.trapPend = some wait0 ∧ waited.me.placed = true ∧ waited.me.ended = false ∧ CanEnter waited wait0.info.cls) ∧
    ((withCtl tr fun c => { c with level := .trap }).me.ctl.level = .trap ∧ (withCtl tr fun c => { c with level := .trap }).me.id.pool = none) ∧
    (tr.me.ctl.level = .user ∧ tr.me.trappable = true ∧ tr.trapEntry tr.me 1 = BitVec.allOnes 64 ∧ tr.me.id.pool = none) :=
  ⟨by decide +kernel, ⟨by decide +kernel, by decide +kernel, by decide +kernel, by decide +kernel, by decide +kernel, by decide +kernel⟩,
   by decide +kernel, by decide +kernel⟩

/-! ### System words (spec/20 R299 to R313) -/

/-- A team at trap level that has taken a lane-wise trap at word 1 of packet 0x40, with s2 = 5 and s3 the address of a queue; and a team
in the agent slot of core 0. -/
def tl : State :=
  (withCtl (withS base [(2, 5)]) fun c =>
    { c with level := .trap, aside := [⟨true, 0x300, 12⟩], asideEm := low 4, trap := { c.trap with tcause := 0x301, tpc := 0x101, tlanem := 2 } })
def ag (x : W64) : State :=
  (withS base [(2, x)]).setMe fun t =>
    { t with place := .agent 0, ctl := { t.ctl with level := .agent },
             id := { t.id with ctx := 0xFFFF, kernel := { t.id.kernel with regs := 0 }, queue := none, bundle := none } }

/-- Eight 64-bit registers with their numbers in the table and values set from outside. -/
def numbered : State := withCtl { ag 9 with time := { (ag 9).time with timeb := 77, epochoff := 88 } } fun c =>
  { c with trapbase := 0x40, trap := { c.trap with tpc := 3, taddr := 0x1230000000000000045, tbmask := 7, tlanem := (6#1024 <<< 992) } }

theorem test_creg_reads :
    [0x0003, 0x0004, 0x000A, 0x0101, 0x0102, 0x0103, 0x0106, 0x013F, 0x0140, 0x0200, 0x0202].map
      (fun n => got (.cregCrd 3 (BitVec.ofNat 16 n)) (withCtl numbered fun c => { c with level := .trap }) (·.me.s 3)) =
    [0, 77, 88, 3, 0x45, 0x123, 7, 6, 0x40, 65536, 0].map some := by decide +kernel

theorem test_creg_reads_device :
    [0x0300, 0x0301, 0x030B, 0x0312].map
      (fun n => got (.cregCrd 3 (BitVec.ofNat 16 n)) (ag 0) fun t => t.me.flow.ops.map fun o => (o.cls == .ld, o.ready, o.writes)) =
    [1000000000, 2700, 0x700, 0xFFFFFFFFFFFFFFFF].map (fun x => some [(true, true, [RegWrite.s 3 x])]) := by decide +kernel

theorem test_creg_writes :
    got (.cregCwr 2 5) base (·.me.ctl.srstate) = some 1 ∧ got (.cregCwr 2 0x200) (ag 255) (fun t => (t.core 0).ageivl) = some 256 ∧
    got (.cregCwr 2 0x201) (ag 5) (fun t => ((t.core 0).dbg, (t.core 0).brken)) = some (.haltedBusy, true) ∧
    got (.cregCwr 2 0x201) (ag 13) (fun t => ((t.core 0).dbg, (t.core 0).brken)) = some (.running, false) ∧
    got (.cregCwr 2 0x301) (ag 3001) (·.pwrlim) = some 3000 ∧ got (.cregCwr 2 0x301) (ag 0) (·.pwrlim) = some 1800 ∧
    got (.cregCwr 2 0x307) (ag 0x12345) (·.io.prawr) = some 0x12345 ∧ got (.cregCwr 2 0x30B) (ag 0x1FFF) (·.ptpcfg) = some 0x7FF ∧
    got (.cregCwr 2 0x0004) (ag 7) (·.time.timeb) = some 0 ∧ got (.cregCwr 2 0x140) (ag 7) (·.me.ctl.trapbase) = some 7 := by decide +kernel

theorem test_witness_CregReadsTheTable :
    (∀ n ∈ [0, 1, 6, 7], Passes (ag 0) (.cregCrd 3 (BitVec.ofNat 16 n))) ∧ (ag 0).me.isAgent = true ∧
    (∀ n ∈ [0, 1, 6, 7, 0xA, 0x100, 0x107, 0x120, 0x13F, 0x140], Passes tl (.cregCrd 3 (BitVec.ofNat 16 n))) ∧ tl.me.isAgent = false ∧
    (∀ n ∈ [2, 8, 0x107, 0x13F, 0x200, 0x202], Passes (ag 0) (.cregCrd 3 (BitVec.ofNat 16 n))) ∧
    (∀ n ∈ [0x300, 0x30B, 0x310, 0x31F], Passes (ag 0) (.cregCrd 3 (BitVec.ofNat 16 n))) ∧ (∀ n ∈ [2, 8], ¬((ag 0).me.isAgent = true ∧ n ∈ [0, 1, 6, 7])) := by
  unfold Passes; decide +kernel

theorem test_witness_CregWritesTheTable :
    Passes base (.cregCwr 2 5) ∧ (∀ n ∈ [0x140, 0x200, 0x201, 0x300, 0x301, 0x304, 0x30B, 4, 0x100, 0x13F, 0x310], Passes (ag 5) (.cregCwr 2 (BitVec.ofNat 16 n))) ∧
    ((ag 13).me.s 2).toNat / 4 % 4 = 3 ∧ ((ag 5).me.s 2).toNat / 4 % 4 = 1 ∧ ((ag 9).me.s 2).toNat / 4 % 4 = 2 ∧
    (∀ n ∈ [4, 0x100, 0x13F, 0x202, 0x310], n ∉ writtenRegs) := by unfold Passes; decide +kernel

theorem test_witness_TrapThenRetryRestores :
    ∃ t, CanEnter tr 9 ∧ tr.me.ctl.word < 3 ∧ tr.me.ctl.pc.toNat < 2 ^ 62 ∧ tr.me.flow.walkerr = false ∧ tr.me.orphan = false ∧
      Passes (tr.trapHere ⟨9, 1, 0, false, 0⟩) .privTretRetry ∧ exec .privTretRetry (tr.trapHere ⟨9, 1, 0, false, 0⟩) = .next t :=
  ⟨_, ⟨by decide +kernel, by decide +kernel, by decide +kernel⟩, by decide +kernel, by decide +kernel, by decide +kernel, by decide +kernel,
    by unfold Passes; decide +kernel, next_after (by decide +kernel)⟩

theorem test_tret :
    got .privTretRetry tl (fun t => (pcOf t, t.me.ctl.level, t.me.ctl.em, t.me.flow.park.map (·.replay))) = some ((0x40, 1), .user, low 4, some 2) ∧
    got .privTretSkip tl (fun t => (pcOf t, t.me.ctl.stack)) = some ((0x40, 2), [⟨true, 0x300, 12⟩]) ∧
    got .privTretKill tl (·.me.flow.ended) = some true ∧
    got .privTretRetry (ag 0) reps = some [(7, 0x900)] := by decide +kernel

theorem test_witness_TretRestoresTheTeam :
    (Passes tl .privTretRetry ∧ Passes tl .privTretSkip ∧ Passes tl .privTretKill) ∧ tl.me.quiet = true ∧ tl.me.flow.walkerr = false ∧ tl.me.id.pool = none ∧
      tl.me.orphan = false ∧ tl.me.ctl.trap.tcause.toNat % 256 ≠ 7 := by
  unfold Passes; decide +kernel

/-- Trap level after a deferred write-back fault; a producer whose upcall has been discarded; a walkerr handler. -/
def pin1 (va : W80) : Dirty := ⟨0, 0x100000, 5, some 20, 1, 0, va, [(0x100004, 7)], true⟩
def dw (va : W80) : State := withCtl { tl with dirty := [pin1 va] } fun c =>
  { c with trap := { c.trap with tcause := 7 } }
def orph : State := withId tl fun i => { i with pool := some ⟨50, 0⟩ }
def werr : State := withFlow tl fun f => { f with walkerr := true }

theorem test_witness_tret_dwb :
    (∀ s ∈ [dw 0x100000, dw 0x40000000], Passes s .privTretRetry ∧ Passes s .privTretSkip ∧ s.me.quiet = true ∧ s.me.flow.walkerr = false ∧
      s.me.orphan = false ∧ s.me.ctl.trap.tcause.toNat % 256 = 7 ∧ s.me.placed = true ∧ s.me.ended = false) ∧
    ((dw 0x100000).pinnedOf 5 = [pin1 0x100000] ∧ (pin1 0x100000).ctx ≠ noCtx ∧ 0x100000 % 32 = 0 ∧ (dw 0x100000).poisoned 0x100000 = false ∧
      Memory.wf (dw 0x100000).mem = true) ∧ (∃ s1, (dw 0x100000).translate 0 1 0 .store 0x100000 = (.ok 0x100000 0, s1)) ∧
    (dw 0x40000000).pinnedOf 5 = [pin1 0x40000000] ∧ ∃ s1, (dw 0x40000000).translate 0 1 0 .store 0x40000000 = (.host 0, s1) :=
  ⟨by unfold Passes; decide +kernel, by decide +kernel, second (by decide +kernel), by decide +kernel, second (by decide +kernel)⟩

theorem test_witness_tret_ends :
    ((∀ i ∈ [.privTretRetry, .privTretSkip], Passes orph i) ∧ orph.me.quiet = true ∧ orph.me.flow.walkerr = false ∧ orph.me.orphan = true ∧
      orph.me.ended = false ∧ orph.me.ctl.trap.tcause.toNat % 256 ≠ 7) ∧
    (∀ i ∈ [.privTretRetry, .privTretSkip, .privTretKill], Passes werr i) ∧ werr.me.flow.walkerr = true := by unfold Passes; decide +kernel

/-- Trap level with a copy-on-write trap; a queue of context 1 whose descriptor lies at 0x800, by residency and saving. -/
def cow : State := withCtl tl fun c => { c with trap := { c.trap with tcause := 5, taddr := 0x2000 } }
def que (resident saving : Bool) : Queue :=
  ⟨20, 1, 0, 0x800, 0x10000, 4, 0, 0, 0, 0, resident, saving, none, [], 0, false, false, false, false, none, [], []⟩
def ql (resident saving : Bool) : State := withA { ag 0 with queues := [que resident saving] } [(1, 0x800)]

theorem test_privileged :
    got (.privPgcow 3) tl (fun t => t.me.flow.ops.map (·.writes)) = some [[.s 3 3]] ∧
    got (.privPgref 3 1) tl (fun t => t.me.flow.ops.map (·.writes)) = some [[.s 3 0xFFFFFFFFFFFFFFFF]] ∧
    got (.privTlbinv 1 2 3) (withS { ag 1 with tlb := [⟨0, 1, 0, 0, 0, ⟨0, 0, 0, 0, false, true, true, true, false, 0, 0, 0⟩⟩] } [(2, 4096), (3, 1)]) (·.tlb.length) = some 0 ∧
    got (.privTlbinv 1 2 3) (withS { ag 1 with tlb := [⟨0, 1, 0, 1, 0, ⟨0, 0, 0, 0, false, true, true, true, false, 0, 0, 0⟩⟩] } [(2, 4096), (3, 1)]) (·.tlb.length) = some 1 ∧
    got (.privEseal 3 1 2) (ag 8) (fun t => t.me.flow.ops.map (·.ready)) = some [true] ∧
    got .privHalt (ag 0) (fun t => (pcOf t, (t.core 0).dbg)) = some ((0x1001, 0), .running) ∧
    got .privHalt ((ag 0).updCore 0 fun c => { c with attach := true }) (fun t => (t.core 0).dbg) = some .haltedBusy := by decide +kernel

theorem test_witness_PrivilegedWordsComplete :
    (Passes tl (.privPgcow 3) ∧ tl.me.ctl.trap.tcause.toNat % 256 ≠ 5) ∧
    (Passes tl (.privPgref 3 1) ∧ tl.srLeaf tl.me.id.ctx tl.me.id.gen (tl.me.a 1).toNat = none) ∧
    Passes (withS (ag 4096) [(3, 1)]) (.privTlbinv 1 2 3) ∧
    (Passes (ag 8) (.privEseal 3 1 2) ∧
      (ag 8).deviceRange ((ag 8).me.a 1).toNat (((ag 8).me.s 2).toNat + 2452) = true ∧
      (ag 8).poison = [] ∧ Memory.wf (ag 8).mem = true ∧ ∀ x ∈ (ag 8).dirty, x.core ≠ (ag 8).me.core) ∧
    (Passes (withA (ag 8) [(1, -4096)]) (.privEseal 3 1 2) ∧
      (withA (ag 8) [(1, -4096)]).deviceRange ((withA (ag 8) [(1, -4096)]).me.a 1).toNat (((withA (ag 8) [(1, -4096)]).me.s 2).toNat + 2452) = false) ∧
    (Passes (ag 0) .privHalt ∧ (ag 0).attached = false) ∧
    (Passes ((ag 0).updCore 0 fun c => { c with attach := true }) .privHalt ∧ ((ag 0).updCore 0 fun c => { c with attach := true }).attached = true) := by
  unfold Passes; decide +kernel

/-- Nodes down to level 0, where page 2 is a 4 KiB leaf of the sample region with COW set and a frame record at 0xB0000 whose count is n. -/
def srs (n : Byte) : State :=
  withA { cow with mem := tables.dropLast ++ [(0x98000, 1), (0x9800A, 0xA), (0xA0000, 1), (0xA0009, 0x80), (0xA000A, 0xA),
    (0xA8080, 0xA3), (0xA8081, 0x21), (0xA8089, 0x90), (0xA809A, 0xB), (0xB0000, n)] } [(1, 0x2468)]

/-- The same with a frame, at 0xA000, in the free frame list. -/
def srf (n : Byte) : State :=
  { srs n with
    mem := (srs n).mem ++ [(0xB0009, 0x90), (0xB0109, 0xA0)]
    ctxs := [⟨1, 0x1000, 0, 0, 1, 0xB0100, 1, 0, 0, 0x800000, 0x100000, []⟩] }

theorem test_frame_record :
    ((srs 3).srLeaf 1 0 0x2468).map (fun l => (l.frec, (srs 3).poisoned l.frec, l.frame, l.cow)) = some (0xB0000, false, 0x9000, true) ∧
    got (.privPgref 3 1) (srs 3) (fun t => t.me.flow.ops.map (·.writes)) = some [[.s 3 3]] ∧
    got (.privPgcow 3) (srs 1) (fun t => (t.me.flow.ops.map (·.writes), t.homeNat 0xA8080 8)) = some ([[.s 3 1]], 0x20E3) ∧
    got (.privPgcow 3) (srs 2) (fun t => (t.me.flow.ops.map (·.writes), t.homeNat 0xA8080 8)) = some ([[.s 3 2]], 0x21A3) := by decide +kernel

theorem test_witness_frame_record :
    (∃ l, Passes (srs 3) (.privPgref 3 1) ∧ (srs 3).srLeaf 1 0 ((srs 3).me.a 1).toNat = some l ∧ (srs 3).poisoned l.frec = false ∧
      Memory.wf (srs 3).mem = true) ∧
    (∀ s ∈ [srs 1, srs 2, srf 2], ∃ l c, Passes s (.privPgcow 3) ∧ s.me.ctl.trap.tcause.toNat % 256 = 5 ∧
      s.leafEntry s.me.id.ctx s.me.id.gen s.me.ctl.trap.taddr.toNat = some l ∧ l.cow = true ∧ l.sr = true ∧ s.ctx? s.me.id.ctx = some c ∧
      s.poison = [] ∧ Memory.wf s.mem = true ∧ l.entry + 64 ≤ 2 ^ 64 ∧ l.frec + 32 ≤ 2 ^ 64 ∧ s.dirty = []) ∧
    (∃ l c, (srf 2).leafEntry 1 0 0x2000 = some l ∧ (srf 2).ctx? 1 = some c ∧ (srf 2).homeNat l.frec 4 = 2 ∧ c.ffl = 0xB0100 ∧
      (srf 2).homeNat (l.frec + 8) 8 = 0x9000 ∧ (srf 2).homeNat (c.ffl + 8) 8 = 0xA000 ∧
      [(l.entry, 64), (l.frec, 32), (c.ffl, 32), (0xA000, 4096), (0x9000, 4096)].Pairwise Apart) := by
  refine ⟨⟨_, by unfold Passes; decide +kernel, rfl, by decide +kernel, by decide +kernel⟩, ?_, ⟨_, _, rfl, rfl, by decide +kernel, by decide +kernel,
    by decide +kernel, by decide +kernel, by unfold Apart; decide +kernel⟩⟩
  intro s hs
  simp only [List.mem_cons, List.not_mem_nil, or_false] at hs
  rcases hs with rfl | rfl | rfl <;>
    exact ⟨_, _, by unfold Passes; decide +kernel, by decide +kernel, rfl, by decide +kernel, by decide +kernel, rfl, by decide +kernel, by decide +kernel,
      by decide +kernel, by decide +kernel, by decide +kernel⟩

theorem test_preempt_words :
    got (.privPreemptSave 3 1) (ag 0) (fun t => t.me.flow.ops.map (·.writes)) = some [[.s 3 1]] ∧
    got (.privPreemptSave 3 1) (ql false false) (fun t => t.me.flow.ops.map (·.writes)) = some [[.s 3 2]] ∧
    got (.privPreemptSave 3 1) (ql true false) (fun t => (t.me.flow.ops.map (·.ready), t.queues.map (·.saving))) = some ([false], [true]) ∧
    got (.privPreemptRsm 3 1) (ql true true) (fun t => t.queues.map (·.rsmOps)) = some [[(5, 40, 3)]] ∧
    got (.privPreemptRsm 3 1) (ql true false) (fun t => t.me.flow.ops.map (·.writes)) = some [[.s 3 2]] ∧
    got (.privPreemptRsm 3 1) (ql false false) (fun t => (t.me.flow.ops.map (·.writes), t.queues.map (·.resident))) = some ([[.s 3 0]], [true]) := by
  decide +kernel

theorem test_witness_PreemptWordsBeginTheirWork :
    (∀ s ∈ [ag 0, ql false false, ql true false, ql true true], Passes s (.privPreemptSave 3 1) ∧ Passes s (.privPreemptRsm 3 1)) ∧
    (ag 0).queueOf ((ag 0).me.a 1) = none ∧
    (∀ r v, (ql r v).queueOf ((ql r v).me.a 1) = some (que r v)) ∧ (∀ r v, (ql r v).queue? 20 = some (que r v)) ∧
    (∀ m ∈ (ql false false).images, m.queue ≠ (que false false).id) := by unfold Passes; decide +kernel

/-! ### Memory words (spec/08 R146 to R153; spec/10 R176 to R183) -/

/-- Sixteen bytes at 0x100000, to which a1 points; s2 = 5, s3 = 2^64 - 2, v2 the lane numbers, p1 lane 3 alone, p2 no lane. -/
def mm : State :=
  (withV (withS (withA (withMem base 0x100000 [0x80, 0x81, 2, 3, 0xF4, 5, 6, 7, 8, 9, 10, 11, 12, 13, 14, 15]) [(1, 0x100000)]) [(2, 5), (3, -2)])
    [(2, [0, 1, 2, 3]), (4, [5, 6, 7, 8])]).setMe fun t => (t.setP 1 (BitVec.allOnes 1024) 8).setP 2 (BitVec.allOnes 1024) 0
def g2 : Guard := ⟨false, 2⟩

/-- The results that operations under way will write. -/
def opWrites (s : State) : List (OpClass × List RegWrite) := s.me.flow.ops.map fun o => (o.cls, o.writes)

theorem test_scalar_loads :
    got (.sld 3 1 .plain .b8 4) mm opWrites = some [(.ld, [.s 3 0xF4])] ∧
    got (.sld 3 1 .plain .b16 1) mm opWrites = some [(.ld, [.s 3 0x0302])] ∧
    got (.sld 3 1 .plain .w32 1) mm opWrites = some [(.ld, [.s 3 0x070605F4])] ∧
    got (.sld 3 1 (.at_ .dev) .w64 1) mm opWrites = some [(.ld, [.s 3 0x0F0E0D0C0B0A0908])] := by decide +kernel

theorem test_scalar_stores :
    got (.sst 3 1 .plain .b16 1) mm (fun t => (t.homeNat 0x100000 4, t.dirty.map (·.bytes))) =
      some (0x03028180, [[(0x100002, 0xFE), (0x100003, 0xFF)]]) ∧
    got (.sst 3 1 (.at_ .dev) .b16 1) mm (fun t => (t.homeNat 0x100000 4, t.dirty.length)) = some (0xFFFE8180, 0) := by decide +kernel

theorem test_scalar_atomics :
    [Instr.satmAdd 3 1 2 .plain .w32, .satmSub 3 1 2 .plain .w32, .satmAnd 3 1 2 .plain .w32, .satmOr 3 1 2 .plain .w32,
     .satmXor 3 1 2 .plain .w32, .satmMin 3 1 2 .plain .w32].map
      (fun i => got i mm fun t => (t.homeNat 0x100000 4, opWrites t)) =
      [0x03028185, 0x0302817B, 0, 0x03028185, 0x03028185, 5].map fun x => some (x, [(.at_, [.s 3 0x03028180])]) := by decide +kernel

theorem test_scalar_atomics_wide :
    [Instr.satmMax 3 1 2 .plain .w64, .satmMinn 3 1 3 .plain .w32, .satmMaxn 3 1 3 .plain .w32, .satmXchg 3 1 3 .plain .w32,
     .satmCas 3 1 2 .plain .w32, .satmCas 2 1 3 .plain .w32].map
      (fun i => got i mm fun t => t.homeNat 0x100000 8) =
      [0x070605F403028180, 0x070605F4FFFFFFFE, 0x070605F403028180, 0x070605F4FFFFFFFE, 0x070605F403028180, 0x070605F403028180].map some := by
  decide +kernel

theorem test_vector_loads :
    got (.vld 3 1 2 g7 false .s8) mm opWrites =
      some [(.ld, [.v 3 0 0xFFFFFF80, .v 3 1 0xFFFFFF81, .v 3 2 2, .v 3 3 3])] ∧
    got (.vld 3 1 2 g1 true .u16) mm opWrites = some [(.ld, [.v 3 3 0x0706])] ∧
    got (.vld 3 1 2 g1 false .w32) mm (·.me.ctl.trap.tcause) = some 0x406 := by decide +kernel

theorem test_vector_stores :
    got (.vst 4 1 2 g1 true .w32) mm (fun t => t.dirty.map (·.bytes)) =
      some [[(0x10000C, 8), (0x10000D, 0), (0x10000E, 0), (0x10000F, 0)]] ∧
    got (.vst 4 1 2 g7 false .b8) mm (fun t => t.dirty.map (·.bytes)) =
      some [[(0x100000, 5), (0x100001, 6), (0x100002, 7), (0x100003, 8)]] := by decide +kernel

theorem test_vector_atomics :
    [Instr.vatmAddI 4 1 5 g1, .vatmMinI 4 1 5 g1, .vatmMaxI 4 1 5 g1, .vatmAnd 4 1 5 g1, .vatmXchg 4 1 5 g1, .vatmCas 4 1 5 g1].map
      (fun i => got i mm fun t => (t.homeNat 0x100000 4, opWrites t)) =
      [0x03028188, 8, 0x03028180, 0, 8, 0x03028180].map fun x => some (x, [(.at_, [.v 4 3 0x03028180])]) := by decide +kernel

/-- In memory with no dirty sector, no clean copy and no poison nothing disturbs an access. -/
theorem undisturbed (s : State) (key : Nat) (va : W80) (h : (s.dirty = [] ∧ s.clean = []) ∧ s.poison = []) (h1 : key + 1 ≤ 2 ^ 64 ∨ 2 ^ 66 ≤ key) :
    Undisturbed s key va := by
  refine ⟨by simp [h.1.1], by simp [h.1.1], by simp [h.1.2], ?_⟩
  simpa using sound_all s key 1 h.2 h1 0 (by omega)

/-- What lets a team-uniform access be made, as one closed test. -/
theorem canAccess {s : State} {i : Instr} {va : W80} {n key loc : Nat}
    (h : (s.me.flow.park = none ∧ s.me.flow.fences = []) ∧ va.toNat % n = 0 ∧
      (s.me.orderHeld i (acqAt i loc) (relAt i loc) s.nextId [⟨0, va, key, loc⟩] || s.stalled s.me [⟨0, va, key, loc⟩]) = false) :
    CanAccess s i va n key loc :=
  ⟨h.1.1, h.1.2, h.2.1, by simpa [HeldBack] using h.2.2⟩

theorem test_witness_ScalarLoadIssuesItsValue :
    Passes mm (.sld 3 1 .plain .w64 1) ∧ CanAccess mm (.sld 3 1 .plain .w64 1) (mm.me.scalarAddr 1 1 8) 8 0x100008 0 ∧
    (∃ s1, mm.teamReach mm.me .load (mm.me.scalarAddr 1 1 8) 8 = (.ok 0x100008 0, s1)) ∧ 0x100008 % 8 = 0 ∧ Undisturbed mm 0x100008 (mm.me.scalarAddr 1 1 8) :=
  ⟨by unfold Passes; decide +kernel, canAccess (by decide +kernel), second (by decide +kernel), by decide, undisturbed _ _ _ (by decide +kernel) (by decide)⟩

theorem test_witness_ScalarStoreStoresItsBytes :
    ∀ r ∈ [Ordering3.plain, .at_ .dev], Passes mm (.sst 3 1 r .w32 1) ∧ CanAccess mm (.sst 3 1 r .w32 1) (mm.me.scalarAddr 1 1 4) 4 0x100004 0 ∧
    NothingToRelease mm (.sst 3 1 r .w32 1) 0 ∧
    (∃ s1, mm.teamReach mm.me .store (mm.me.scalarAddr 1 1 4) 4 = (.ok 0x100004 0, s1)) ∧ 0x100004 % 4 = 0 ∧ (mm.linkDown 0x100004).isNone = true ∧
    Undisturbed mm 0x100004 (mm.me.scalarAddr 1 1 4) ∧ Memory.wf mm.mem = true ∧ mm.dirtyAt mm.me.core 0x100004 = none := by
  intro r hr
  simp only [List.mem_cons, List.not_mem_nil, or_false] at hr
  rcases hr with rfl | rfl <;>
    exact ⟨by unfold Passes; decide +kernel, canAccess (by decide +kernel), fun _ _ _ => by decide +kernel, second (by decide +kernel), by decide,
      by decide +kernel, undisturbed _ _ _ (by decide +kernel) (by decide), by decide +kernel, by decide +kernel⟩

theorem test_witness_StoreThenLoadReadsTheStore : ∃ t u,
    Passes mm (.sst 3 1 .plain .b8 4) ∧ CanAccess mm (.sst 3 1 .plain .b8 4) (mm.me.scalarAddr 1 4 1) 1 0x100004 0 ∧
    (∃ s1, mm.teamReach mm.me .store (mm.me.scalarAddr 1 4 1) 1 = (.ok 0x100004 0, s1)) ∧
    0x100004 % 32 = (mm.me.scalarAddr 1 4 1).toNat % 32 ∧ Undisturbed mm 0x100004 (mm.me.scalarAddr 1 4 1) ∧
    exec (.sst 3 1 .plain .b8 4) mm = .next t ∧ Passes t (.sld 6 1 .plain .b8 4) ∧
    CanAccess t (.sld 6 1 .plain .b8 4) (t.me.scalarAddr 1 4 1) 1 0x100004 0 ∧
    (∃ t1, t.teamReach t.me .load (t.me.scalarAddr 1 4 1) 1 = (.ok 0x100004 0, t1)) ∧
    exec (.sld 6 1 .plain .b8 4) t = .next u ∧ u.me.flow.ops.map (·.writes) = [[], [.s 6 0xFE]] :=
  ⟨_, _, by unfold Passes; decide +kernel, canAccess (by decide +kernel), second (by decide +kernel), by decide +kernel,
   undisturbed _ _ _ (by decide +kernel) (by decide), next_after (by decide +kernel), by unfold Passes; decide +kernel,
   canAccess (by decide +kernel), second (by decide +kernel), next_after (by decide +kernel), by decide +kernel⟩

theorem test_witness_ScalarAtomicsStoreTheRule : ∃ f,
    satmOperands (.satmMinn 3 1 3 .plain .w32) = some (3, 1, 3, .plain, .w32) ∧ satmRule (.satmMinn 3 1 3 .plain .w32) = some f ∧
    Passes mm (.satmMinn 3 1 3 .plain .w32) ∧ CanAccess mm (.satmMinn 3 1 3 .plain .w32) (mm.me.a 1) 4 0x100000 0 ∧
    NothingToRelease mm (.satmMinn 3 1 3 .plain .w32) 0 ∧
    (∃ s1, mm.teamReach mm.me .atomic (mm.me.a 1) 4 = (.ok 0x100000 0, s1)) ∧ mm.poisoned 0x100000 = false ∧ mm.dirtyAt mm.me.core 0x100000 = none ∧
    Memory.wf mm.mem = true ∧ f 32 0xFFFFFFFE (mm.homeNat 0x100000 4) 0 = 0xFFFFFFFE :=
  ⟨_, rfl, rfl, by unfold Passes; decide +kernel, canAccess (by decide +kernel), fun _ _ _ => by decide +kernel,
   second (by decide +kernel), by decide +kernel, by decide +kernel, by decide +kernel, by decide +kernel⟩

/-- mm with a1 odd, with a1 two bytes below 2^30, where page 1 of the next node is missing or may not be read, with t0 a window of the A-store. -/
def odd : State := withA mm [(1, 0x100001)]
def edge : State := withA mm [(1, 0x3FFFFFFE)]
def edged : State := withMem edge 0x98040 [0xCF]
def far : State := withA mm [(1, 0x40000000)]
def tiled : State := withT mm 0 0x00000000000000040040040000000001

/-- mm with an acquiring load under way, and with a load that it holds, or that nothing holds. -/
def acq0 : Op := { op0 .ld with ready := false, acq := some .dev }
def acquiring : State := withFlow mm fun f => { f with ops := [acq0] }
def heldLd : HeldAcc := ⟨.sld 6 1 .plain .b8 4, mm.me.regs, [⟨0, 0x100004, 0x100004, 0⟩]⟩
def late (first : List Op) : State :=
  withFlow mm fun f => { f with ops := first ++ [⟨4, .ld, false, false, [], [], [6], [.near], none, none, some heldLd⟩] }

/-- What the lanes of a vector word come to when it is met for the first time. -/
def fatesOf (s : State) (i : Instr) (v : VecAcc) : Fates :=
  laneFates v.k v.n (laneAddress (ready s i) v.a v.o v.sc) { s with me := ready s i } (lanesIn (ready s i) ((ready s i).eff v.g))

theorem tries {s : State} {i : Instr} {v : VecAcc}
    (h : ((ready s i).flow.park = none ∧ (ready s i).flow.fences = []) ∧ lanesIn (ready s i) ((ready s i).eff v.g) ≠ [] ∧
      ∀ l ∈ lanesIn (ready s i) ((ready s i).eff v.g), (laneAddress (ready s i) v.a v.o v.sc l).toNat % v.n = 0) :
    Tries s (ready s i) v (fatesOf s i v) := ⟨h.1.1, h.1.2, h.2.1, h.2.2, rfl⟩

theorem allLanes {s : State} {i : Instr} {v : VecAcc} (w : vecAcc i = some v)
    (h : ((ready s i).flow.park = none ∧ (ready s i).flow.fences = []) ∧ lanesIn (ready s i) ((ready s i).eff v.g) ≠ [] ∧
      ∀ l ∈ lanesIn (ready s i) ((ready s i).eff v.g), (laneAddress (ready s i) v.a v.o v.sc l).toNat % v.n = 0)
    (h1 : (fatesOf s i v).waits = [] ∧ (fatesOf s i v).faults = [])
    (h2 : ((ready s i).orderHeld i (acqAt i 0) (relAt i 0) (fatesOf s i v).s.nextId (fatesOf s i v).oks ||
      (fatesOf s i v).s.stalled (ready s i) (fatesOf s i v).oks) = false) : AllLanes s (ready s i) i v (fatesOf s i v) :=
  ⟨w, tries h, h1.1, h1.2, by simpa [HeldBack] using h2⟩

theorem test_witness_HeldOrEmptyAccessesDoNothing :
    (∀ x ∈ [(Instr.sld 3 1 .plain .w64 1, 0x100009#80, 8), (.sst 3 1 .plain .b16 1, 0x100003, 2), (.satmAdd 3 1 2 .plain .w32, 0x100001, 4),
        (.sigSigadd 3 1 2 .plain, 0x100001, 8), (.sgrpInfo 3 1 .plain, 0x100001, 512)],
      uniformAddr odd.me x.1 = some x.2 ∧ Passes odd x.1 ∧ odd.me.flow.park = none ∧ x.2.1.toNat % x.2.2 ≠ 0) ∧
    (∃ va s1 c e, uniformAddr edged.me (.sld 3 1 .plain .w64 7) = some (va, 8) ∧ edged.teamReach edged.me .load 0x40000000 8 = (.fault c e, s1) ∧
      Passes edged (.sld 3 1 .plain .w64 7)) ∧
    (∃ s1 c, uniformAddr far.me (.sld 3 1 .plain .w64 0) = some (0x40000000, 8) ∧
      uniformKind (.sld 3 1 .plain .w64 0) = some (.ld, .load, [3]) ∧ Passes far (.sld 3 1 .plain .w64 0) ∧ far.me.flow.park = none ∧
      far.teamReach far.me .load 0x40000000 8 = (.host c, s1)) ∧
    (∃ s1, uniformAddr acquiring.me (.sld 3 1 .plain .w64 1) = some (0x100008, 8) ∧ Passes acquiring (.sld 3 1 .plain .w64 1) ∧
      acquiring.teamReach acquiring.me .load 0x100008 8 = (.ok 0x100008 0, s1) ∧ acquiring.me.flow.fences = [] ∧
      NothingToRelease acquiring (.sld 3 1 .plain .w64 1) 0 ∧ HeldBack acquiring acquiring.me (.sld 3 1 .plain .w64 1) 0 [⟨0, 0x100008, 0x100008, 0⟩]) := by
  refine ⟨?_, ?_, ?_, ?_⟩
  · unfold Passes; decide +kernel
  · exact ⟨_, _, 4, 0, rfl, pair1 (by decide +kernel), by unfold Passes; decide +kernel⟩
  · exact ⟨_, 0, by decide +kernel, rfl, by unfold Passes; decide +kernel, by decide +kernel, pair1 (by decide +kernel)⟩
  · exact ⟨_, by decide +kernel, by unfold Passes; decide +kernel, pair1 (by decide +kernel), by decide +kernel, fun _ _ _ => by decide +kernel,
      by unfold HeldBack; decide +kernel⟩

theorem test_witness_held_events :
    (∃ o h, (late [acq0]).me.flow.ops.find? (·.id == 4) = some o ∧ o.held = some h ∧ o.ready = false ∧ (late [acq0]).me.flow.fences = [] ∧
      (late [acq0]).me.orderHeld h.instr o.acq o.rel 4 h.lanes = true) ∧
    (∃ o, (late []).me.flow.ops.find? (·.id == 4) = some o ∧ o.held = some heldLd ∧ o.ready = false ∧ o.done = false ∧ o.cls = .ld ∧ o.writes = [] ∧
      (late []).me.placed = true ∧ (late []).me.flow.fences = [] ∧ (late []).me.orderHeld heldLd.instr o.acq o.rel 4 heldLd.lanes = false ∧
      (late []).stalled (late []).me heldLd.lanes = false) ∧
    Undisturbed (late []) 0x100004 0x100004 :=
  ⟨⟨_, _, rfl, rfl, by decide +kernel, by decide +kernel, by decide +kernel⟩,
   ⟨_, rfl, rfl, by decide +kernel, by decide +kernel, by decide +kernel, by decide +kernel, by decide +kernel, by decide +kernel, by decide +kernel,
    by decide +kernel⟩, undisturbed _ _ _ (by decide +kernel) (by decide)⟩

theorem test_witness_vector_words :
    (mm.me.em &&& mm.me.guardMask g2 = 0 ∧ Passes mm (.vld 3 1 2 g2 false .w32) ∧ Passes mm (.vst 3 1 2 g2 false .w32) ∧
      Passes mm (.vatmAddF 3 1 2 g2) ∧ Passes tiled (.tsl 3 0 false 4 g2) ∧ Passes tiled (.tss 3 0 true 4 g2) ∧ tiled.me.em &&& tiled.me.guardMask g2 = 0) ∧
    (∃ v l, vecAcc (.vld 3 1 2 g7 false .w32) = some v ∧ Passes mm (.vld 3 1 2 g7 false .w32) ∧ (ready mm (.vld 3 1 2 g7 false .w32)).flow.park = none ∧
      (lanesIn (ready mm (.vld 3 1 2 g7 false .w32)) ((ready mm (.vld 3 1 2 g7 false .w32)).eff v.g)).find?
        (fun l => decide ((laneAddress (ready mm (.vld 3 1 2 g7 false .w32)) v.a v.o v.sc l).toNat % v.n ≠ 0)) = some l) ∧
    (∃ v, vecAcc (.vld 3 1 2 g7 false .u8) = some v ∧ Passes edge (.vld 3 1 2 g7 false .u8) ∧
      Tries edge (ready edge (.vld 3 1 2 g7 false .u8)) v (fatesOf edge (.vld 3 1 2 g7 false .u8) v) ∧
      (fatesOf edge (.vld 3 1 2 g7 false .u8) v).waits ≠ []) ∧
    (∃ v, vecAcc (.vld 3 1 2 g7 false .u8) = some v ∧ Passes edged (.vld 3 1 2 g7 false .u8) ∧
      Tries edged (ready edged (.vld 3 1 2 g7 false .u8)) v (fatesOf edged (.vld 3 1 2 g7 false .u8) v) ∧
      (fatesOf edged (.vld 3 1 2 g7 false .u8) v).waits = [] ∧ (fatesOf edged (.vld 3 1 2 g7 false .u8) v).faults.map (·.1) = [2, 3] ∧
      (fatesOf edged (.vld 3 1 2 g7 false .u8) v).oks.map (·.lane) = [0, 1]) :=
  ⟨by unfold Passes; decide +kernel, ⟨_, 1, rfl, by unfold Passes; decide +kernel, by decide +kernel, by decide +kernel⟩,
   ⟨_, rfl, by unfold Passes; decide +kernel, tries (by decide +kernel), by decide +kernel⟩,
   ⟨_, rfl, by unfold Passes; decide +kernel, tries (by decide +kernel), by decide +kernel, by decide +kernel, by decide +kernel⟩⟩

theorem test_held_or_empty :
    got (.sld 3 1 .plain .w64 1) acquiring (fun t => (pcOf t, t.me.flow.ops.map (·.ready))) = some ((0x1000, 1), [false, false]) ∧
    got (.sld 3 1 .plain .w64 1) odd (·.me.ctl.trap.tcause) = some 0x806 ∧ got (.loadComplete 5 4) (late []) (·.me.s 6) = some 0xF4 ∧
    got (.vld 3 1 2 g7 false .u8) edged (fun t => (t.me.ctl.trap.tcause, t.me.ctl.em)) = some (4, 12) ∧
    got (.vld 3 1 2 g2 false .w32) mm (fun t => (pcOf t, t.me.flow.ops.length)) = some ((0x1000, 1), 0) := by decide +kernel

theorem test_witness_VectorWordsHaveTheirLanes :
    (∃ v, Passes mm (.vld 3 1 2 g7 true .s16) ∧
      AllLanes mm (ready mm (.vld 3 1 2 g7 true .s16)) (.vld 3 1 2 g7 true .s16) v (fatesOf mm (.vld 3 1 2 g7 true .s16) v) ∧
      ∀ x ∈ (fatesOf mm (.vld 3 1 2 g7 true .s16) v).oks, (x.key % 2 = 0 ∧ x.loc = 0) ∧
        Undisturbed { mm with me := ready mm (.vld 3 1 2 g7 true .s16) } x.key x.va) ∧
    (∃ v, Passes mm (.vst 4 1 2 g7 true .w64) ∧
      AllLanes mm (ready mm (.vst 4 1 2 g7 true .w64)) (.vst 4 1 2 g7 true .w64) v (fatesOf mm (.vst 4 1 2 g7 true .w64) v) ∧
      (∀ x ∈ (fatesOf mm (.vst 4 1 2 g7 true .w64) v).oks, (x.key % 8 = 0 ∧ x.key = x.va.toNat) ∧
        Undisturbed { mm with me := ready mm (.vst 4 1 2 g7 true .w64) } x.key x.va) ∧ Memory.wf mm.mem = true) ∧
    (∃ v f, vatmOperands (.vatmCas 4 1 5 g7) = some (4, 1, 5, g7) ∧ vatmRule (.vatmCas 4 1 5 g7) = some f ∧ Passes mm (.vatmCas 4 1 5 g7) ∧
      AllLanes mm (ready mm (.vatmCas 4 1 5 g7)) (.vatmCas 4 1 5 g7) v (fatesOf mm (.vatmCas 4 1 5 g7) v) ∧
      ∀ x ∈ (fatesOf mm (.vatmCas 4 1 5 g7) v).oks, x.key % 4 = 0 ∧ mm.poisoned x.key = false ∧ mm.dirtyAt (ready mm (.vatmCas 4 1 5 g7)).core x.key = none) := by
  refine ⟨⟨_, by unfold Passes; decide +kernel, allLanes rfl (by decide +kernel) (by decide +kernel) (by decide +kernel), fun x hx => ?_⟩,
    ⟨_, by unfold Passes; decide +kernel, allLanes rfl (by decide +kernel) (by decide +kernel) (by decide +kernel), fun x hx => ?_, by decide +kernel⟩,
    ⟨_, _, rfl, rfl, by unfold Passes; decide +kernel, allLanes rfl (by decide +kernel) (by decide +kernel) (by decide +kernel), by decide +kernel⟩⟩
  · have h : ∀ x ∈ (fatesOf mm (.vld 3 1 2 g7 true .s16) ⟨.load, 2, 1, 2, g7, 2, regsFrom 3 1⟩).oks, (x.key % 2 = 0 ∧ x.loc = 0) ∧ x.key + 1 ≤ 2 ^ 64 := by
      decide +kernel
    exact ⟨(h x hx).1, undisturbed _ _ _ (by decide +kernel) (.inl (h x hx).2)⟩
  · have h : ∀ x ∈ (fatesOf mm (.vst 4 1 2 g7 true .w64) ⟨.store, 8, 1, 2, g7, 8, []⟩).oks, (x.key % 8 = 0 ∧ x.key = x.va.toNat) ∧ x.key + 1 ≤ 2 ^ 64 := by
      decide +kernel
    exact ⟨(h x hx).1, undisturbed _ _ _ (by decide +kernel) (.inl (h x hx).2)⟩

/-- mm after a plain store, with a clean copy of another sector, the store performed; and mm with an unperformed copy out. -/
def stored : State :=
  match exec (.sst 3 1 .plain .b16 1) mm with
  | .next t => { t with clean := [⟨0, 0x200000, 1, 0, 0x200000, []⟩] }
  | _ => mm
def copying : State := withFlow mm fun f => { f with ops := [op0 .cp] }

/-- A release that waits for copies. -/
def rel0 : FenceHold := ⟨[.cp], .dev, 40, true, false⟩

theorem test_fences :
    got (.fenceAcq .dev) stored (fun t => (t.clean.length, t.dirty.length)) = some (0, 1) ∧
    got (.fenceRel .dev 0) stored (fun t => (t.clean.length, t.dirty.length, t.homeNat 0x100000 4)) = some (1, 0, 0xFFFE8180) ∧
    got (.fenceSc .dev 0) stored (fun t => (t.clean.length, t.dirty.length)) = some (0, 0) ∧
    got (.fenceRel .team 0) stored (fun t => (t.clean.length, t.dirty.length)) = some (1, 1) ∧
    got (.fenceRel .dev 8) copying (fun t => (pcOf t, t.me.flow.fences.length)) = some ((0x1000, 1), 1) ∧
    got (.wait .st 0) stored pcOf = some (0x1000, 2) := by decide +kernel

theorem test_witness_FencesAndWaitsOrderTheTeam :
    (Passes stored (.fenceAcq .dev) ∧ stored.me.flow.fences = [] ∧ stored.me.placed = true ∧ ∀ x ∈ stored.me.flow.ops, x.ready = true) ∧
    (Passes acquiring (.fenceAcq .dev) ∧ acquiring.me.flow.fences = [] ∧ acq0 ∈ acquiring.me.flow.ops ∧ acq0.id < acquiring.nextId ∧ acq0.ready = false) ∧
    ((∃ s1, stored.release stored.me.id.tid .dev = (s1, true)) ∧ stored.dirtyOf stored.me.id.tid ≠ [] ∧
      Passes stored (.fenceRel .dev 0xA) ∧ Passes stored (.fenceAr .dev 0) ∧ Passes stored (.fenceSc .dev 0)) ∧
    ((∃ s1, copying.release copying.me.id.tid .dev = (s1, true)) ∧ Passes copying (.fenceRel .dev 8) ∧ op0 .cp ∈ copying.me.flow.ops ∧
      (8#5).getLsbD (op0 .cp).cls.code = true ∧ (op0 .cp).dests.any (scopeCounts .dev) = true ∧ rel0.over copying.me.flow.ops = false) ∧
    Passes stored (.wait .st 1) :=
  ⟨by unfold Passes; decide +kernel, by unfold Passes; decide +kernel, ⟨first (by decide +kernel), by unfold Passes; decide +kernel⟩,
   ⟨first (by decide +kernel), by unfold Passes; decide +kernel⟩, by unfold Passes; decide +kernel⟩

/-- mm with a dirty sector of a page that has gone; and with a fetched group that waits. -/
def gone : State := { mm with dirty := [⟨0, 0x100000, 5, some 20, 1, 0, 0x40000000, [(0x100004, 7)], false⟩] }
def waitTeam : Team :=
  { copying.me with
    flow := { copying.me.flow with fetched := true, packet := (0#64 ++ encode false false (.wait .cp 0) : BitVec 96) } }

theorem test_witness_fence_faults_and_waits :
    (∃ s1 p, Passes gone (.fenceRel .dev 0) ∧ gone.me.flow.fences = [] ∧ gone.release gone.me.id.tid .dev = (s1, false) ∧ s1.me.flow.pinned = some p) ∧
    (waitTeam.flow.fetched = true ∧ .wait .cp 0 ∈ waitTeam.groupInstrs ∧ 0 < waitTeam.outstanding .cp ∧ waitTeam.resumes = false) :=
  ⟨⟨_, _, by unfold Passes; decide +kernel, by decide +kernel, pair (by decide +kernel), rfl⟩, by decide +kernel⟩

/-! ### Transforms (spec/05 R94 to R96; spec/07 R129 to R140) -/

/-- v1 = 1, 2, 3, 4 and zeros as FP32; v2 with depth 1 of the same block; v3 words to dequantise; h0 = 2; p1 the odd lanes. -/
def xf : State :=
  (withV base [(1, [0x3F800000, 0x40000000, 0x40400000, 0x40800000]),
    (2, [0x3FC00000, 0x40600000, 0, 0, 0, 0, 0, 0, 0, 0, 0, 0, 0, 0, 0, 0, 0xBF000000, 0xBF000000]), (3, [0x3C0000C3, 0x3C00003C, 0x81C0, 0xFF38])]).setMe fun t =>
    ((({ t with regs := { t.regs with h := t.regs.h.set 0 0x40000000 } } : Team).setP 1 (BitVec.allOnes 1024) 0xAAAAAAAA).setTag 2 1)

/-- The request that a word adds to the pipe of core 0. -/
def asked (i : Instr) (s : State) : Option (List (VReg × List W32 × BitVec 4)) :=
  (got i s fun t => ((t.core 0).pipe.head?).map (·.regs)).join

/-- What the rule says of the same request. -/
def ruled (i : Instr) (s : State) : Option (List (VReg × List W32 × BitVec 4)) :=
  (xfrmRule (ready s i) i).map fun r => r.regs.map fun y => (y.1, (List.range 32).map y.2.1, y.2.2)

theorem test_haar :
    (asked (.xfrmHfwd 4 1 1) xf).map (fun q => q.map fun x => (x.1, x.2.1.take 2, (x.2.1.drop 16).take 2, x.2.2)) =
      some [(4, [0x3FC00000, 0x40600000], [0xBF000000, 0xBF000000], 1)] ∧
    (asked (.xfrmHinv 4 2) xf).map (fun q => q.map fun x => (x.2.1.take 5, x.2.2)) =
      some [([0x3F800000, 0x40000000, 0x40400000, 0x40800000, 0], 0)] ∧
    (asked (.xfrmHthr 4 1 0) xf).map (fun q => q.map fun x => x.2.1.take 4) = some [[0, 0x40000000, 0x40400000, 0x40800000]] ∧
    (asked (.xfrmHpack 4 1 1) xf).map (fun q => q.map fun x => x.2.1.take 4) = some [[0x40000000, 0x40800000, 0, 0]] ∧
    (asked (.xfrmHunpk 4 1 1 1) xf).map (fun q => q.map fun x => x.2.1.take 4) = some [[0, 0x3F800000, 0, 0x40000000]] := by decide +kernel

theorem test_quantise :
    (asked (.xfrmMxq 4 1 .e2m1 .rne) xf).map (fun q => q.map fun x => x.2.1.take 4) = some [[0x7F02, 0x7F04, 0x7F05, 0x7F06]] ∧
    (asked (.xfrmMxdq 4 3 .e4m3) xf).map (fun q => q.map fun x => x.2.1.drop 2 |>.take 2) = some [[0xC1000000, 0x7FC00000]] ∧
    (asked (.xfrmI4dq 4 3) xf).map (fun q => q.map fun x => x.2.1.take 2) = some [[0x40E00000, 0xC0E00000]] ∧
    got (.xfrmMxq 4 1 .e2m1 .rne) xf (fun t => (t.me.flow.hold == .xfrm, t.me.ctl.srstate == xf.me.ctl.srstate)) = some (true, true) ∧
    got (.xfrmMxq 4 1 .e2m1 .sr) xf (·.me.ctl.srstate == (stepSr^[32] xf.me.ctl.srstate)) = some true := by decide +kernel

theorem test_transpose :
    (asked (.xfrmXpose 32 0) (withV base ((List.range 32).map fun r => (Fin.ofNat 64 r, (List.range 32).map fun c => BitVec.ofNat 32 (100 * r + c))))).map
      (fun q => (q.length, q.map fun x => (x.2.1.drop 3).take 2)) = some (32, (List.range 32).map fun c => [BitVec.ofNat 32 (300 + c), BitVec.ofNat 32 (400 + c)]) := by
  decide +kernel

theorem test_rules_of_transforms :
    ∀ i ∈ [Instr.xfrmHfwd 4 1 5, .xfrmHinv 4 2, .xfrmHinv 4 1, .xfrmHthr 4 2 0, .xfrmHpack 4 2 1, .xfrmHunpk 4 2 1 1, .xfrmXpose 32 0, .xfrmMxq 4 1 .e4m3 .sr,
      .xfrmMxq 4 2 .e5m2 .rne, .xfrmMxdq 4 3 .e4m3, .xfrmI4dq 4 3], (asked i xf).isSome = true ∧ asked i xf = ruled i xf := by decide +kernel

theorem test_reconstruction :
    ((xf.me.prepare (.variIadd 4 2 1 g7)).v 2).take 5 = [0x3F800000, 0x40000000, 0x40400000, 0x40800000, 0] ∧
    (xf.me.prepare (.variIadd 4 2 1 g7)).tag 2 = 0 ∧ (xf.me.prepare (.xfrmHinv 4 2)).tag 2 = 1 := by decide +kernel

theorem test_witness_ReconstructionRewritesTheSource :
    Sized xf.me ∧ xf.me.effOf (.variIadd 4 2 1 ⟨true, 7⟩) = 0 ∧ xf.me.effOf (.variIadd 4 2 1 g7) ≠ 0 ∧
    xf.me.readsCoeffs (.variIadd 4 2 1 g7) = false ∧ 2 ∈ (Instr.variIadd 4 2 1 g7).vReads ∧ 5 ∉ (Instr.variIadd 4 2 1 g7).vReads := by
  unfold Sized; decide +kernel

theorem test_witness_TransformWordsRequestTheirResults :
    (∀ i ∈ [Instr.xfrmHfwd 4 1 5, .xfrmHinv 4 2, .xfrmHthr 4 2 0, .xfrmHpack 4 2 1, .xfrmHunpk 4 2 1 1, .xfrmXpose 32 0, .xfrmMxq 4 1 .e4m3 .sr,
      .xfrmMxdq 4 3 .e4m3, .xfrmI4dq 4 3], (xfrmRule (ready xf i) i).isSome = true ∧ Passes xf i ∧ Sized (ready xf i)) ∧ xf.me.em ≠ 0 ∧
    (xfrmRule (ready (withCtl xf fun c => { c with em := 0 }) (.xfrmHinv 4 2)) (.xfrmHinv 4 2)).isSome = true ∧
    Passes (withCtl xf fun c => { c with em := 0 }) (.xfrmHinv 4 2) ∧ Sized (ready (withCtl xf fun c => { c with em := 0 }) (.xfrmHinv 4 2)) := by
  unfold Passes Sized; decide +kernel

/-! ### Tiles, barriers, copies and rings (spec/09 R163 to R170; spec/10 R184 to R197) -/

/-- A layout record of a tile of 32 rows of 64 E4M3 elements at virtual address 0x200000 (spec/10 R188). -/
def tlr32 : List Byte :=
  [0, 0, 0x20] ++ List.replicate 13 0 ++ [3, 2, 0, 0] ++ List.replicate 4 0 ++
  [64, 0, 0, 0, 32, 0, 0, 0, 1, 0, 0, 0, 1, 0, 0, 0, 1, 0, 0, 0] ++ [64] ++ List.replicate 83 0

/-- The team with that record at 0x80 of its cluster store and a barrier at 0x40; a window of 32 rows of 16 words at word 1,024 in t2; the
arguments of slices 0 and 1 of two in s8 and s20; those of a ring of two slots of 64 bytes in s10 to s12. -/
def ts : State :=
  withT (withT (withS (withMem { base with bundles := [bund0] } (cstoreKey 0 0x80) tlr32)
    [(1, 2), (2, 0x40), (8, 0x4000000080), (9, 0x20000), (20, 0x4000000080), (21, 0x20001), (10, 0x200000000080), (11, 0x4000000002), (12, 4096),
     (14, 1), (15, 0x80000000001), (16, 0x123), (17, 0x0000000000000010)])
    2 (BitVec.ofNat 128 (4 + 3 * 16 + 1024 * 2 ^ 16 + 32 * 2 ^ 40 + 16 * 2 ^ 52 + 16 * 2 ^ 64)))
    0 (BitVec.ofNat 128 (1 + 4 * 2 ^ 40 + 4 * 2 ^ 52 + 4 * 2 ^ 64))

/-- The low 64 bits of the barrier at 0x40. -/
def bar (s : State) : Nat := s.homeNat (cstoreKey 0 0x40) 8

/-- One word, or one event, after another. -/
def afters (is : List Instr) (s : State) : State := is.foldl (fun s i => after i s) s

/-- The results that operations under way will write. -/
def opw (s : State) : List (List RegWrite) := s.me.flow.ops.map (·.writes)

theorem test_tile_registers :
    got (.tbndUnbind 2) ts (fun t => (t.me.t 2).toNat % 256) = some 0x30 ∧ got (.tbndQuery 3 2 false) ts (·.me.s 3) = some 0x0100200004000034 ∧
    got (.tbndQuery 3 2 true) ts (·.me.s 3) = some 16 ∧
    got (.tbndBind 3 18) (withS ts [(18, 0x0040010000000001), (19, 4)]) (·.me.t 3) = some 0x00000000000000040040010000000001 := by decide +kernel

theorem test_slices :
    got (.tss 4 0 false 1 g7) (withV ts [(4, [7, 8, 9, 10])]) (fun t => (t.homeNat (typedKey 0 1 16) 4, t.homeNat (typedKey 0 1 28) 4)) = some (7, 10) ∧
    got (.tsl 5 0 true 3 g7) (after (.tss 4 0 false 1 g7) (withV ts [(4, [7, 8, 9, 10])])) opw =
      some [[], [.v 5 0 0, .v 5 1 10, .v 5 2 0, .v 5 3 0]] := by decide +kernel

/-- The worked example of spec/10: a barrier with a reload of 2, two slices of 32 sectors and two arrivals. -/
theorem test_copy_and_barrier :
    bar (after (.tbarTbinit 1 2) ts) = 0x20 ∧
    bar (afters [.tbarTbinit 1 2, .xcpyIn 2 8] ts) = 0x20000020 ∧
    bar (afters [.tbarTbinit 1 2, .xcpyIn 2 8, .tbarTbarr 2 .clu] ts) = 0x20000010 ∧
    bar (afters [.tbarTbinit 1 2, .xcpyIn 2 8, .tbarTbarr 2 .clu, .xcpyIn 2 20] ts) = 0x40000010 ∧
    bar (afters [.tbarTbinit 1 2, .xcpyIn 2 8, .tbarTbarr 2 .clu, .xcpyIn 2 20, .tbarTbarr 2 .clu] ts) = 0x40000000 := by decide +kernel

/-- The barrier initialised; a group of one word has been fetched. -/
def barred : State := after (.tbarTbinit 1 2) ts
def fetched (s : State) (i : Instr) : State :=
  withFlow (withCtl s fun c => { c with word := 0 }) fun f => { f with fetched := true, packet := (0#64 ++ encode false false i : BitVec 96), group := { f.group with open_ := false } }

theorem test_barrier_waits :
    (fetched barred (.tbarTbwait 3 2 5)).nextWord.1.me.flow.hold = .tbwait (cstoreKey 0 0x40) 0 0 ∧
    got (.tbarTbwait 1 2 5) barred (·.me.flow.hold) = some .none ∧
    got (.tbarTbtest 3 2) barred (fun t => opw t) = some [[], [.s 3 0x20]] := by decide +kernel

/-- A tile of two rows of 32 bytes that begins with 1, 2, 3, 4, the barrier initialised, its one slice issued, and the copy started. -/
def small : State :=
  after (.tbarTbinit 1 2) (withT (withS (withMem (withMem ts 0x200000 [1, 2, 3, 4]) (cstoreKey 0 0x98) [32, 0, 0, 0, 2, 0, 0, 0, 1, 0, 0, 0, 1, 0, 0, 0, 1, 0, 0, 0, 32]) [(9, 0x10000)])
    2 (BitVec.ofNat 128 (4 + 3 * 16 + 1024 * 2 ^ 16 + 2 * 2 ^ 40 + 8 * 2 ^ 52 + 8 * 2 ^ 64)))
def issued : State := after (.xcpyIn 2 8) small
def copied : State := after (.copyStart 42) issued

theorem test_copy_sectors :
    issued.copies.map (fun c => (c.id, c.n, c.started, c.slices.map (·.sectors))) = [(42, 1, false, [2])] ∧
    copied.copies.map (fun c => (c.started, c.jobs.length)) = [(true, 2)] ∧
    got (.copySectorPerformed 42 0) copied (fun t => (t.homeNat (cstoreKey 0 4096) 4, bar t, (t.copies.map (·.jobs.length)))) =
      some (0x04030201, 0x1000020, [1]) := by decide +kernel

theorem test_rings :
    got (.ringRbind 3 10) ts opw = some [[], [.s 3 0]] ∧
    got (.ringRbind 3 10) ts (fun t => t.rings.map fun r => (r.id, r.slotLen, r.base, r.slots.length)) = some [(0, 64, 0x2000, 2)] := by decide +kernel

/-- A fill ring of two slots of 64 bytes over the tile, bound; with its first chunk filled; and a drain ring. s0 names ring 0. -/
def ring0 : State := after (.ringRbind 3 10) (withMem ts 0x200000 [1, 2, 3, 4])
def filled : State := after (.ringFillChunk 0 0) ring0
def drain0 : State := after (.ringRbind 3 10) (withS ts [(11, 0x4000010002)])
def drained : State := after (.ringSpub 0 0) drain0

theorem test_ring_slots :
    filled.rings.map (fun r => r.slots.map fun x => (x.state, x.chunk, x.valid)) = [[(.full, 0, 64), (.empty, 1, 0)]] ∧
    filled.homeNat (cstoreKey 0 0x2000) 4 = 0x04030201 ∧
    got (.ringSwait 5 0 0) filled (fun t => opw t) = some [[], [.s 3 0], [.s 5 64]] ∧
    got (.ringSwait 5 0 1) filled (fun t => (t.me.flow.ops.map (·.ready))) = some [false, true, false] ∧
    got (.ringSrel 0 0) filled (fun t => t.rings.map fun r => (r.error, r.slots.map (·.state))) = some [(false, [.empty, .empty])] ∧
    got (.ringSpub 0 0) filled (fun t => t.rings.map fun r => (r.error, r.slots.map (·.state))) = some [(true, [.full, .empty])] ∧
    got (.ringRunbind 0) filled (fun t => t.rings.map (·.unbind)) = some [true] ∧
    got (.ringUnbindComplete 0 0) (after (.ringRunbind 0) filled) (fun t => (t.rings.length, t.me.flow.ops.map fun o => (o.cls, o.done))) =
      some (0, [(.sg, false), (.sg, false)]) := by decide +kernel

theorem test_drain_ring :
    drained.rings.map (fun r => r.slots.map (·.state)) = [[.full, .empty]] ∧
    got (.ringSwait 5 0 1) drain0 (fun t => opw t) = some [[], [.s 3 0], [.s 5 0x100000000]] := by decide +kernel

/-- What lets a slice be made, but for the poison, as one closed test. -/
theorem canSlice {s : State} {u : Team} {i : Instr} {t : TReg} {m : Mask} {cells : List (Nat × Nat)}
    (h : (List.range u.width).filter m.getLsbD ≠ [] ∧ u.flow.fences = [] ∧ State.windowOk { s with me := u } t = true ∧
      (u.orderHeld i (acqAt i 3) (relAt i 3) s.nextId (cells.map fun x => ⟨x.1, 0, x.2, 3⟩) || s.stalled u (cells.map fun x => ⟨x.1, 0, x.2, 3⟩)) = false)
    (h1 : ∀ x ∈ cells, Sound s x.2 4) : CanSlice s u i t m cells :=
  ⟨h.1, h.2.1, by simpa [HeldBack] using h.2.2.2, h.2.2.1, h1⟩

theorem canUpdate {s : State} {i : Instr} {key : Nat}
    (h : (s.me.flow.fences = [] ∧ s.me.flow.hold = .none) ∧
      (s.me.orderHeld i (acqAt i 3) (relAt i 3) s.nextId [⟨0, 0, key, 3⟩] || s.stalled s.me [⟨0, 0, key, 3⟩]) = false) : CanUpdate s i key :=
  ⟨h.1.1, by simpa [HeldBack] using h.2, h.1.2⟩

theorem test_witness_TileWordsBindAndMove :
    Passes (withS ts [(18, 0x0040010000000001), (19, 4)]) (.tbndBind 3 18) ∧ Passes ts (.tbndUnbind 2) ∧ Passes ts (.tbndQuery 3 2 true) ∧
    (Passes ts (.tsl 5 0 true 3 g7) ∧ CanSlice ts (ready ts (.tsl 5 0 true 3 g7)) (.tsl 5 0 true 3 g7) 0 ((ready ts (.tsl 5 0 true 3 g7)).eff g7)
      (sliceCells ts (ready ts (.tsl 5 0 true 3 g7)) ((ready ts (.tsl 5 0 true 3 g7)).t 0) true 3 ((ready ts (.tsl 5 0 true 3 g7)).eff g7))) ∧
    (Passes ts (.tss 5 0 false 3 g7) ∧ CanSlice ts (ready ts (.tss 5 0 false 3 g7)) (.tss 5 0 false 3 g7) 0 ((ready ts (.tss 5 0 false 3 g7)).eff g7)
      (sliceCells ts (ready ts (.tss 5 0 false 3 g7)) ((ready ts (.tss 5 0 false 3 g7)).t 0) false 3 ((ready ts (.tss 5 0 false 3 g7)).eff g7)) ∧
      Memory.wf ts.mem = true) :=
  ⟨by unfold Passes; decide +kernel, by unfold Passes; decide +kernel, by unfold Passes; decide +kernel,
   ⟨by unfold Passes; decide +kernel, canSlice (by decide +kernel) (by unfold Sound; decide +kernel)⟩,
   by unfold Passes; decide +kernel, canSlice (by decide +kernel) (by unfold Sound; decide +kernel), by decide +kernel⟩

/-- A barrier word that an acquire holds back. -/
def barAcq : State := withFlow ts fun f => { f with ops := [acq0] }

theorem test_witness_BarrierWordsUpdateTheBarrier :
    (Passes ts (.tbarTbinit 1 2) ∧ BarrierAt ts (ts.me.s 2).toNat (cstoreKey 0 0x40) ∧ CanUpdate ts (.tbarTbinit 1 2) (cstoreKey 0 0x40) ∧
      Memory.wf ts.mem = true) ∧
    (∃ s1, Passes barred (.tbarTbarr 2 .clu) ∧ BarrierAt barred (barred.me.s 2).toNat (cstoreKey 0 0x40) ∧
      CanUpdate barred (.tbarTbarr 2 .clu) (cstoreKey 0 0x40) ∧ barred.release barred.me.id.tid .clu = (s1, true) ∧
      Sound s1 (cstoreKey 0 0x40) 16 ∧ Memory.wf s1.mem = true) ∧
    (Passes barred (.tbarTbwait 4 2 2) ∧ Passes barred (.tbarTbwait 1 2 5) ∧ barred.me.placed = true) ∧
    (Passes barred (.tbarTbtest 4 2) ∧ CanUpdate barred (.tbarTbtest 4 2) (cstoreKey 0 0x40)) ∧
    (∀ i ∈ [Instr.tbarTbinit 1 2, .tbarTbtest 4 2, .tbarTbarr 2 .clu], Passes barAcq i ∧ barAcq.me.flow.fences = [] ∧ barAcq.dirty = [] ∧
      barAcq.me.orderHeld i (acqAt i 3) (relAt i 3) barAcq.nextId [⟨0, apertureVa 0x40, cstoreKey 0 0x40, 3⟩] = true) :=
  ⟨⟨by unfold Passes; decide +kernel, by unfold BarrierAt Sound; decide +kernel, canUpdate (by decide +kernel), by decide +kernel⟩,
   ⟨(barred.release barred.me.id.tid .clu).1, by unfold Passes; decide +kernel, by unfold BarrierAt Sound; decide +kernel, canUpdate (by decide +kernel),
    pair (by decide +kernel), by unfold Sound; decide +kernel, by decide +kernel⟩,
   by unfold Passes; decide +kernel, ⟨by unfold Passes; decide +kernel, canUpdate (by decide +kernel)⟩, by unfold Passes; decide +kernel⟩

theorem test_witness_tbwait_at_the_gate :
    (fetched barred (.tbarTbwait 3 2 5)).me.groupInstrs = [.tbarTbwait 3 2 5] ∧ Passes (fetched barred (.tbarTbwait 3 2 5)) (.tbarTbwait 3 2 5) ∧
    BarrierAt (fetched barred (.tbarTbwait 3 2 5)) 0x40 (cstoreKey 0 0x40) ∧
    (fetched barred (.tbarTbwait 3 2 5)).me.flow.group.open_ = false ∧ (fetched barred (.tbarTbwait 3 2 5)).me.deferred = none ∧
    (fetched barred (.tbarTbwait 3 2 5)).gateOpen (fetched barred (.tbarTbwait 3 2 5)).me = true ∧
    (fetched barred (.tbarTbwait 3 2 5)).me.flow.hold = .none ∧
    barPhase ((fetched barred (.tbarTbwait 3 2 5)).homeNat (cstoreKey 0 0x40) 1) = ((fetched barred (.tbarTbwait 3 2 5)).me.s 3).toNat % 16 ∧
    Memory.wf (fetched barred (.tbarTbwait 3 2 5)).mem = true :=
  ⟨by decide +kernel, by unfold Passes; decide +kernel, by unfold BarrierAt Sound; decide +kernel, by decide +kernel, by decide +kernel, by decide +kernel,
   by decide +kernel, by decide +kernel, by decide +kernel⟩

/-- small with a window of the B-store and core 0 as target, its completion record at 0x60. -/
def smallM : State := withT (withS small [(10, 0x6000000001)]) 2 (BitVec.ofNat 128 (2 + 3 * 16 + 2 * 2 ^ 40 + 8 * 2 ^ 52 + 8 * 2 ^ 64))

/-- Where no store to a record is open, it is seen as it stands. -/
theorem seen_home {s : State} {key : Nat} {snap : List Byte} (h : s.edits.all (fun e => (List.range 4).all fun j => e.key != key + 32 * j) = true)
    (h1 : SeenRecord s key snap) :
    snap = s.homeBytes (key + 32 * 0) 32 ++ s.homeBytes (key + 32 * 1) 32 ++ s.homeBytes (key + 32 * 2) 32 ++ s.homeBytes (key + 32 * 3) 32 := by
  obtain ⟨hl, hj⟩ := h1
  have c : ∀ j, j < 4 → (snap.drop (32 * j)).take 32 = s.homeBytes (key + 32 * j) 32 := fun j hj4 => by
    rcases hj j hj4 with h2 | ⟨e, he, hk, -⟩
    · exact h2
    · have h3 := List.all_eq_true.1 h e he
      have h4 := List.all_eq_true.1 h3 j (by simpa using hj4)
      simp [hk] at h4
  rw [← c 0 (by decide), ← c 1 (by decide), ← c 2 (by decide), ← c 3 (by decide)]
  have d : ∀ i j, snap.drop (i + j) = (snap.drop i).drop j := fun i j => by rw [List.drop_drop]
  rw [List.take_of_length_le (l := snap.drop (32 * 3)) (by simp [hl]), List.append_assoc, List.append_assoc, d 64 32,
    show snap.drop (32 * 2) = snap.drop 64 from rfl, List.take_append_drop, d 32 32, show snap.drop (32 * 1) = snap.drop 32 from rfl,
    List.take_append_drop, show snap.drop (32 * 0) = snap from rfl, List.take_append_drop]

theorem flush_none {s : State} (h : s.dirty = [] ∧ s.clean = []) (c x : Nat) (r : List Nat) : s.flushRange c x r = s := by
  cases s
  simp_all [State.flushRange, State.writeBackAll]

/-- The hypotheses of CopyWordsIssueTheirSlice for slice 0 of one, with the record at 0x80 and the barrier at 0x40. -/
def CopyReady (s : State) (i : Instr) (form : Nat) : Prop :=
  copyForm i = some (form, 2, 8) ∧ copyArgs s.me 8 = (0x80, 0x40, 0, 1) ∧ Passes s i ∧
  s.cstoreAt s.me.id.bundle s.me.cluster 0x80 128 = some (cstoreKey 0 0x80) ∧ BarrierAt s 0x40 (cstoreKey 0 0x40) ∧
  s.me.flow.hold = .none ∧ Sound s (cstoreKey 0 0x80) 128 ∧ (∀ e ∈ s.edits, e.old.length = 32) ∧ s.joinCopy form 0x80 (cstoreKey 0 0x40) 1 = none

theorem copy_seen {s : State} (i : Instr) (h : s.edits.all (fun e => (List.range 4).all fun j => e.key != cstoreKey 0 0x80 + 32 * j) = true)
    (h1 : s.dirty = [] ∧ s.clean = []) (h2 : s.poison = [] ∧ Memory.wf s.mem = true)
    (h3 : tlrBad (s.homeBytes (cstoreKey 0 0x80 + 32 * 0) 32 ++ s.homeBytes (cstoreKey 0 0x80 + 32 * 1) 32 ++
      s.homeBytes (cstoreKey 0 0x80 + 32 * 2) 32 ++ s.homeBytes (cstoreKey 0 0x80 + 32 * 3) 32) = false) :
    ∀ snap f, SeenRecord s (cstoreKey 0 0x80) snap → tlrBad snap = false ∧ (sliceFlushed s i snap 0 1 f).me = s.me ∧
      Sound (sliceFlushed s i snap 0 1 f) (cstoreKey 0 0x40) 16 ∧ Memory.wf (sliceFlushed s i snap 0 1 f).mem = true := by
  intro snap f h4
  have h5 : sliceFlushed s i snap 0 1 f = { s with fresh := f } := flush_none (s := { s with fresh := f }) h1 _ _ _
  rw [h5]
  exact ⟨by rw [seen_home h h4, h3], rfl, sound_all _ _ _ h2.1 (by decide), h2.2⟩

theorem test_witness_CopyWordsIssueTheirSlice :
    (CopyReady small (.xcpyIn 2 8) 0 ∧ CopyReady small (.xcpyOut 2 8) 1 ∧ CopyReady smallM (.xcpyMcin 2 8) 2) ∧
    ((smallM.me.s (Fin.ofNat 64 10)).toNat / 2 ^ 32 % 8 = 0 ∧
      smallM.cstoreAt smallM.me.id.bundle smallM.me.cluster ((smallM.me.s (Fin.ofNat 64 10)).toNat / 2 ^ 32) 8 = some (cstoreKey 0 0x60)) ∧
    (∀ i snap f, SeenRecord small (cstoreKey 0 0x80) snap → tlrBad snap = false ∧ (sliceFlushed small i snap 0 1 f).me = small.me ∧
      Sound (sliceFlushed small i snap 0 1 f) (cstoreKey 0 0x40) 16 ∧ Memory.wf (sliceFlushed small i snap 0 1 f).mem = true) ∧
    (∀ i snap f, SeenRecord smallM (cstoreKey 0 0x80) snap → tlrBad snap = false ∧ (sliceFlushed smallM i snap 0 1 f).me = smallM.me ∧
      Sound (sliceFlushed smallM i snap 0 1 f) (cstoreKey 0 0x40) 16 ∧ Memory.wf (sliceFlushed smallM i snap 0 1 f).mem = true) :=
  ⟨⟨by unfold CopyReady Passes BarrierAt Sound; decide +kernel, by unfold CopyReady Passes BarrierAt Sound; decide +kernel,
   by unfold CopyReady Passes BarrierAt Sound; decide +kernel⟩, by decide +kernel,
   fun i => copy_seen i (by decide +kernel) (by decide +kernel) (by decide +kernel) (by decide +kernel),
   fun i => copy_seen i (by decide +kernel) (by decide +kernel) (by decide +kernel) (by decide +kernel)⟩

/-- The same word fetched, on a full scoreboard, and behind an acquire. -/
def boardFull : State :=
  fetched { issued with copies := issued.copies.map fun c => { c with slices := c.slices.flatMap (List.replicate 64) } } (.xcpyIn 2 8)
def behind : State := fetched barAcq (.xcpyIn 2 8)

theorem test_witness_CopyWordsIssueTheirSlice_waits :
    (∀ s ∈ [boardFull, behind], .xcpyIn 2 8 ∈ s.me.groupInstrs ∧ s.me.flow.fetched = true ∧ s.me.resumes = false) ∧
    64 ≤ boardFull.boardUsed boardFull.me.cluster ∧ (acq0 ∈ behind.me.flow.ops ∧ acq0.id < behind.nextId ∧ acq0.acq.isSome = true ∧ acq0.ready = false) := by
  decide +kernel

/-- A copy of a state by its number. -/
def copyOf (s : State) (id : Nat) : Option Copy := s.copies.find? (·.id == id)

theorem test_witness_CopySectorsCountOff :
    (copyOf issued 42).any (fun c => decide (c.id = 42 ∧ c.n ≤ c.slices.length ∧ issued.copyBlocked c = false ∧ c.cores.any issued.halted = false)) = true ∧
    (copyOf (after (.xcpyIn 2 8) (withS small [(9, 0x20000)])) 42).any (fun c => decide (c.slices.length < c.n)) = true ∧
    (copyOf copied 42).any (fun c => decide (c.form = 0 ∧ c.fail = none ∧ copied.poison = [] ∧ copied.images = [] ∧ copied.linkDown c.bar = none ∧ Memory.wf copied.mem = true) &&
      (match c.jobs[1]? with
       | some (Job.mk _ (.near bs) _ _ false) => decide (bs ≠ [] ∧ (bs.map (·.1)).Nodup ∧ (∀ x ∈ bs, x.1 < c.bar ∨ c.bar + 16 ≤ x.1) ∧ ∀ x ∈ bs, copied.linkDown x.1 = none)
       | _ => false)) = true := by decide +kernel

theorem test_witness_RingWordsAndChunks_words :
    ((Passes ts (.ringRbind 3 10) ∧ (bindArgs ts.me 10).tlr % 128 = 0 ∧
      ts.cstoreAt ts.me.id.bundle ts.me.cluster (bindArgs ts.me 10).tlr 128 = some (cstoreKey 0 0x80) ∧
      ts.cstoreAt ts.me.id.bundle ts.me.cluster (bindArgs ts.me 10).first ((bindArgs ts.me 10).count * (bindArgs ts.me 10).len) = some (cstoreKey 0 0x2000) ∧
      (∀ e ∈ ts.edits, e.old.length = 32) ∧ ts.freeRing ts.me.id.bundle ts.me.cluster (bindArgs ts.me 10).pool = some 0) ∧
      Sound ts (cstoreKey 0 0x80) 128 ∧ ∀ snap, SeenRecord ts (cstoreKey 0 0x80) snap → tlrBad snap = false ∧ (parseTlr snap).depth = 0) ∧
    (Passes (withS ts [(12, 0x200001)]) (.ringRbind 3 10) ∧ ts.freeRing ts.me.id.bundle ts.me.cluster 0x200001 = none) ∧ Passes ring0 (.ringRunbind 0) ∧
    ((∃ s1, drain0.release drain0.me.id.tid .clu = (s1, true)) ∧ ∃ s1, filled.release filled.me.id.tid .clu = (s1, true)) ∧
    (Passes drain0 (.ringSpub 0 1) ∧ Passes drain0 (.ringSrel 0 1) ∧ drain0.me.flow.fences = [] ∧ drain0.ringWaits = [] ∧
      (drain0.ringAt? 0 0).any (fun r => r.drain && (match r.slots[1]? with | some x => x.state == .empty | none => false)) = true) ∧
    (Passes filled (.ringSrel 0 0) ∧ Passes filled (.ringSpub 0 0) ∧ Passes filled (.ringSrel 0 1) ∧ filled.me.flow.fences = [] ∧
      (filled.ringAt? 0 0).any (fun r => !r.drain && r.slots.map (·.state) == [.full, .empty]) = true) ∧
    (Passes filled (.ringSwait 5 0 0) ∧ Passes filled (.ringSwait 5 0 1) ∧ (filled.ringAt? 0 0).any (fun r => (r.waitValue 0).isSome && (r.waitValue 1).isNone) = true ∧
      filled.ringWaits = [] ∧ (∀ o ∈ filled.me.flow.ops, o.id < filled.nextId) ∧ filled.teams = []) ∧
    (∀ i ∈ [Instr.ringSpub 0 1, .ringSrel 0 1], ¬ HeldBack drain0 drain0.me i 0 []) ∧
    (∀ i ∈ [Instr.ringSrel 0 0, .ringSpub 0 0, .ringSrel 0 1, .ringSwait 5 0 0, .ringSwait 5 0 1], ¬ HeldBack filled filled.me i 0 []) :=
  ⟨⟨by unfold Passes; decide +kernel, by unfold Sound; decide +kernel, fun snap h => by rw [seen_home (by decide +kernel) h]; decide +kernel⟩,
   by unfold Passes; decide +kernel, by unfold Passes; decide +kernel, ⟨first (by decide +kernel), first (by decide +kernel)⟩,
   by unfold Passes; decide +kernel, by unfold Passes; decide +kernel, by unfold Passes; decide +kernel, by unfold HeldBack; decide +kernel,
   by unfold HeldBack; decide +kernel⟩

theorem test_witness_RingWordsAndChunks_chunks :
    (ring0.ringAt? 0 0).any (fun r => r.cluster == 0 && r.id == 0 && !r.drain && decide (r.next < r.chunks) && !ring0.halted r.core && !r.unbind && r.permit == 0 &&
      (r.slots[r.next % r.slots.length]?.any fun x => x.state == .empty) &&
      (let rows := rowsOfImage (parseTlr r.snap) r.rowBytes (r.next * r.slotLen) (min r.total (r.next * r.slotLen + r.slotLen))
       let img := imageOf (parseTlr r.snap) (ring0.fetchImage r.client r.eng [] (parseTlr r.snap) rows).1 rows
       img != [] && decide ((img.map (·.1)).Nodup) && img.all fun z => z.2.2.1 == 0)) = true ∧
    (ring0.poison = [] ∧ ring0.images = [] ∧ Memory.wf ring0.mem = true) ∧
    (filled.ringAt? 0 0).any (fun r => r.slots.any fun x => x.state == .full) = true ∧
    (drained.ringAt? 0 0).any (fun r => r.drain && !drained.halted r.core && !r.unbind && (r.slots[r.next % r.slots.length]?.any fun x => x.state == .full)) = true ∧
    (drain0.ringAt? 0 0).any (fun r => r.drain && (r.slots[r.next % r.slots.length]?.any fun x => x.state == .empty)) = true ∧
    (ring0.ringAt? 0 0).any (fun r => !r.unbind) = true ∧
    ((after (.ringRunbind 0) filled).ringAt? 0 0).any (fun r => r.unbind && r.slots.all fun x => x.state != .filling && x.state != .draining) = true := by
  decide +kernel

/-! ### Signals, groups, upcalls, gangs and queues (spec/10 R198; spec/14 R245 to R252; spec/15 R259 to R268) -/

/-- A signal of 2 at 0x100000, to which a1 points; s2 = 2^64 - 1, s3 = 2. -/
def sg : State := withS (withA (withMem base 0x100000 [2]) [(1, 0x100000)]) [(2, -1), (3, 2)]

theorem test_signals :
    got (.sigSigadd 4 1 2 .plain) sg (fun t => (opw2 t, t.homeNat 0x100000 8)) = some ([(true, [.s 4 2])], 1) ∧
    got (.sigSigrd 4 1 .plain) sg opw2 = some [(true, [.s 4 2])] ∧
    got (.sigSigwait 4 1 3 .plain) sg (fun t => t.waits.map fun w => (w.kind, w.hit)) = some [(0, some 2)] ∧
    got (.sigSigwait 4 1 2 .plain) sg (fun t => t.waits.map fun w => (w.kind, w.hit)) = some [(0, none)] ∧
    got (.sigWatch 4 1 3 .plain) sg (fun t => t.waits.map fun w => (w.kind, w.hit)) = some [(1, none)] := by decide +kernel

/-- A wait that is met, of the operation 40. -/
def met : State := after (.sigSigwait 4 1 3 .plain) sg

theorem test_signal_wait_satisfied : got (.signalWaitSatisfied 41) met (fun t => (t.me.s 4, t.waits.length)) = some (2, 0) := by decide +kernel

theorem test_witness_SignalWordsComplete :
    (∀ i ∈ [Instr.sigSigadd 4 1 2 (.at_ .sys), .sigSigrd 4 1 (.at_ .sys), .sigSigwait 4 1 3 .plain, .sigWatch 4 1 3 .plain],
      CanAccess sg i (sg.me.a 1) 8 0x100000 0 ∧ NothingToRelease sg i 0 ∧ Passes sg i) ∧
    ((∃ s1, sg.teamReach sg.me .atomic (sg.me.a 1) 8 = (.ok 0x100000 0, s1)) ∧ Sound sg 0x100000 8 ∧
      sg.dirtyAt sg.me.core 0x100000 = none ∧ Memory.wf sg.mem = true) ∧
    (met.waits.any (fun w => w.id == 41 && met.waits.find? (·.id == 41) == some w && w.hit == some 2 && w.tid == met.me.id.tid &&
      met.me.flow.ops.any fun o => o.id == w.op && !o.done) = true ∧ (met.me.flow.ops.map (·.id)).Nodup) := by
  refine ⟨?_, ⟨second (by decide +kernel), by unfold Sound; decide +kernel, by decide +kernel, by decide +kernel⟩, by decide +kernel⟩
  intro i hi
  simp only [List.mem_cons, List.not_mem_nil, or_false] at hi
  rcases hi with rfl | rfl | rfl | rfl <;>
    exact ⟨canAccess (by decide +kernel), fun _ _ _ => by decide +kernel, by unfold Passes; decide +kernel⟩

/-- Tables down to level 0: page 2 a page of the sample region with its frame record at 0x30000, page 256 the page of the records: a group of
two at 0x100000, its continuations at 0x100200, its region descriptor at 0x100400 with two ranges of one page from page 2, the first in use, its bitmap at 0x100480. -/
def gmem : List Host.Cell :=
  [(0x1000, 1), (0x100A, 8), (0x30000, 1), (0x80000, 1), (0x80009, 0x80), (0x8000A, 8), (0x88000, 1), (0x8800A, 9), (0x90000, 1), (0x90009, 0x80),
   (0x9000A, 9), (0x98000, 1), (0x9800A, 0xA), (0xA0000, 1), (0xA0009, 0x80), (0xA000A, 0xA), (0xA8080, 0xE3), (0xA8081, 0x20), (0xA808A, 2), (0xA809A, 3),
   (0xAC000, 0xE3), (0xAC00A, 0x10),
   (0x100001, 2), (0x100002, 2), (0x100039, 5), (0x10003A, 0x10), (0x100049, 4), (0x10004A, 0x10), (0x100059, 2), (0x10005A, 0x10),
   (0x100200, 9), (0x100209, 0x20), (0x100218, 16), (0x100222, 0x10), (0x1002A2, 0x10), (0x1002B0, 1), (0x100401, 0x20), (0x100411, 0x10), (0x100418, 2),
   (0x10041C, 1), (0x100420, 0x80), (0x100421, 4), (0x100422, 0x10), (0x100480, 1)]

/-- The team with that group: a1 the group, a2 and a3 its members; s2 = 2.0, s3 a NaN. Its queue is known. -/
def gs : State :=
  withS (withA { base with mem := gmem, queues := [⟨20, 1, 0, 0x800, 0x10000, 4, 0, 0, 0, 0, true, false, none, [], 0, false, false, false, false, none, [], []⟩] }
    [(1, 0x100000), (2, 0x100200), (3, 0x100280)]) [(2, 0x40000000), (3, 0x7FC00000)]
def arrived1 : State := after (.sgrpArr 4 2 2 .plain) gs
def failed : State := withMem gs 0x100000 [3]

theorem test_groups :
    got (.sgrpInfo 4 1 .plain) gs opw2 = some [(true, [.s 4 0x200])] ∧
    got (.sgrpArr 4 2 2 .plain) gs (fun t => (opw2 t, t.homeNat 0x100008 8, t.homeNat 0x100018 8, t.homeNat 0x100078 4, t.homeNat 0x100231 1)) =
      some ([(true, [.s 4 0])], 1, 0, 0x40000000, 1) ∧
    got (.sgrpArr 4 3 3 .plain) gs (fun t => (t.homeNat 0x100008 8, t.homeNat 0x100018 8, t.homeNat 0x10007C 4)) = some (2, 2, 0x7FC00000) := by decide +kernel

theorem test_group_codes :
    got (.sgrpArr 5 2 2 .plain) arrived1 opw2 = some [(true, [.s 4 0]), (true, [.s 5 3])] ∧
    got (.sgrpFree 4 2 .plain) gs opw2 = some [(true, [.s 4 6])] ∧
    got (.sgrpWait 4 1 .plain) gs (fun t => t.waits.map (·.kind)) = some [2] := by decide +kernel

theorem test_group_cancel :
    got (.sgrpCan 4 2 .plain) gs (fun t => (opw2 t, t.homeNat 0x100010 8, t.homeNat 0x30000 4)) = some ([(true, [.s 4 0])], 1, 0) ∧
    got (.sgrpCan 4 2 .plain) gs (fun t => (t.homeNat 0xA8080 8, t.homeNat 0x100480 1, t.homeNat 0x10041C 4)) = some (0, 0, 2) := by decide +kernel

theorem test_fork :
    got (.sgrpFork 4 1 .plain) gs (fun t => (opw2 t, t.homeNat 0xA8080 8, t.homeNat 0x30000 4, t.homeNat 0xA80C0 8, t.homeNat 0x100280 8)) =
      some ([(true, [.s 4 0])], 0x21A3, 2, 0x21A3, 9) ∧
    got (.sgrpFork 4 1 .plain) gs (fun t => (t.homeNat 0x100288 10, t.homeNat 0x100480 1, t.homeNat 0x10041C 4, t.groups.length, t.homeNat 0x100068 10)) =
      some (0x3000, 3, 0, 1, 0x800) := by decide +kernel

/-- Continuations that have been cancelled and freed; a group that is malformed, or that has a queue; the team with no lane in its mask. -/
def cancelled : State := withMem gs 0x100231 [2]
def freed : State := withMem gs 0x100231 [3]
def hasArrived : State := withMem gs 0x100008 [1]
def spoilt : State := withMem gs 0x100003 [1]
def forked : State := withMem gs 0x100069 [8]
def nobody : State := withCtl gs fun c => { c with em := 0 }

theorem test_witness_GroupWordsTakeEffect_words :
    (∀ i ∈ [Instr.sgrpFork 4 1 .plain, .sgrpArr 4 2 2 .plain, .sgrpCan 4 2 .plain, .sgrpWait 4 1 .plain, .sgrpFree 4 2 .plain, .sgrpInfo 4 1 .plain],
      Passes nobody i ∧ Passes gs i ∧ Passes cancelled i ∧ Passes failed i ∧ Passes freed i ∧ Passes hasArrived i ∧ Passes spoilt i) ∧ nobody.me.em = 0 ∧
    groupBad (gs.homeBytes 0x100000 512) = false ∧ groupBad (spoilt.homeBytes 0x100000 512) = true ∧
    (∀ s ∈ [gs, cancelled, failed, freed, hasArrived], MemberOk (s.homeBytes 0x100200 128) (s.homeBytes 0x100000 512) (s.me.a 2).toNat) ∧
    ¬ MemberOk (spoilt.homeBytes 0x100200 128) (spoilt.homeBytes 0x100000 512) (spoilt.me.a 2).toNat ∧
    (fieldAt (gs.homeBytes 0x100000 512) 0 1 = 0 ∧ fieldAt (gs.homeBytes 0x100000 512) 8 8 = 0 ∧ fieldAt (gs.homeBytes 0x100000 512) 16 8 = 0 ∧
      fieldAt (gs.homeBytes 0x100200 128) 49 1 = 0) ∧
    (fieldAt (cancelled.homeBytes 0x100200 128) 49 1 = 2 ∧ fieldAt (freed.homeBytes 0x100200 128) 49 1 = 3 ∧ 1 < fieldAt (failed.homeBytes 0x100000 512) 0 1 ∧
      (fieldAt (hasArrived.homeBytes 0x100000 512) 8 8).testBit 0 = true) := by
  unfold Passes MemberOk; decide +kernel

theorem canGroup {s : State} {a : AReg} {n key : Nat}
    (h : (s.me.em ≠ 0 ∧ s.me.flow.park = none ∧ (s.me.a a).toNat % n = 0) ∧ (s.teamReach s.me .atomic (s.me.a a) n).1 = .ok key 0 ∧
      (s.poison = [] ∧ Memory.wf s.mem = true ∧ s.dirty = [])) : CanGroup s (s.teamReach s.me .atomic (s.me.a a) n).2 a n key :=
  ⟨h.1.1, h.1.2.1, h.1.2.2, pair1 h.2.1, h.2.2.1, h.2.2.2.1, by simp [h.2.2.2.2]⟩

theorem test_witness_GroupWordsTakeEffect_access :
    ∀ s ∈ [gs, cancelled, failed, freed, hasArrived, spoilt], (∃ s1, CanGroup s s1 1 512 0x100000) ∧
      ∃ s1 s2, CanGroup s s1 2 128 0x100200 ∧ GroupOf s s1 s2 0x100200 0x100000 := by
  intro s hs
  simp only [List.mem_cons, List.not_mem_nil, or_false] at hs
  rcases hs with rfl | rfl | rfl | rfl | rfl | rfl <;>
    exact ⟨⟨_, canGroup (by decide +kernel)⟩, _, _, canGroup (by decide +kernel), by unfold GroupOf; exact pair1 (by decide +kernel)⟩

/-- The leaf of page 256, the page of the records, and that of page 2. -/
def leafR : Leaf := ⟨0x100000, 0, 0, 0, false, true, true, true, false, 0, 0, 0xAC000⟩
def leafS : Leaf := ⟨0x20000, 0, 0, 0, false, true, true, true, true, 0, 0x30000, 0xA8080⟩

/-- What the words on a group write, and the page of the records. -/
def groupPlaces : List (Nat × Nat) := [(0xA8080, 64), (0x30000, 24), (0x100400, 64), (0x100480, 1), (0x100200, 128), (0x100000, 512)]

theorem records_at (s : State) (hs : s ∈ [gs, failed]) : PageAt s ctx0 256 leafR groupPlaces := by
  have h : ∀ s ∈ [gs, failed], Memory.wf s.mem = true ∧ s.liveCtx? 1 0 = some ctx0 ∧ s.walkTables 0x1000 (4096 * 256) = .leaf leafR ∧
    ∀ pa ∈ walkPlaces s.entry (4096 * 256) levels 0x1000, ∀ w ∈ groupPlaces, pa + 64 ≤ w.1 ∨ w.1 + w.2 ≤ pa := by decide +kernel
  exact ⟨(h s hs).1, (h s hs).2.1, (h s hs).2.2.1, (h s hs).2.2.2⟩

/-- Member 0's range can be released, in a group that is OPEN and in one that has FAILED. -/
theorem test_witness_GroupWordsTakeEffect_release (s : State) (hs : s ∈ [gs, failed]) :
    RangeAt s (s.homeBytes 0x100200 128) (s.homeBytes 0x100000 512) [(0xA8080, 0x30000)] 0x100400 0x100480 [(0x100200, 128), (0x100000, 512)] ∧
    s.ctx? s.me.id.ctx = some ctx0 := by
  have q := records_at s hs
  have h : ∀ s ∈ [gs, failed], (fieldAt (s.homeBytes 0x100000 512) 72 10 = 0x100400 ∧ s.me.id.ctx = 1 ∧ s.me.id.gen = 0) ∧
      (s.homeNat 0x100420 10 + (fieldAt (s.homeBytes 0x100200 128) 8 10 - s.homeNat 0x100400 10) / s.homeNat 0x100410 8 / 8 = 0x100480 ∧
        pagesHolding (fieldAt (s.homeBytes 0x100200 128) 8 10) (fieldAt (s.homeBytes 0x100200 128) 24 8) = [0x2000]) ∧
      (∀ o < 64, ∀ k ∈ [Access.load, .store], s.permit leafR k (0x100400 + o) = .ok (0x100400 + o) 0) ∧
      (∀ k ∈ [Access.load, .store], s.permit leafR k 0x100480 = .ok 0x100480 0) ∧
      (regionBad (s.homeBytes 0x100400 64) = false ∧ s.homeNat 0x100400 10 ≤ fieldAt (s.homeBytes 0x100200 128) 8 10 ∧
        (fieldAt (s.homeBytes 0x100200 128) 8 10 - s.homeNat 0x100400 10) / s.homeNat (0x100400 + 16) 8 < s.homeNat (0x100400 + 24) 4) ∧
      (Memory.wf s.mem = true ∧ s.liveCtx? 1 0 = some ctx0 ∧ s.walkTables 0x1000 0x2000 = .leaf leafS ∧
        walkPlaces s.entry 0x2000 levels 0x1000 = [0x1000, 0x80000, 0x88000, 0x90000, 0x98000, 0xA0000, 0xA8080]) ∧ s.ctx? s.me.id.ctx = some ctx0 := by
    decide +kernel
  obtain ⟨⟨h1, h2, h3⟩, ⟨h4, h5⟩, h6, h7, h8, ⟨h9, h10, h11, h12⟩, h13⟩ := h s hs
  have e : ∀ o, o < 64 → (BitVec.ofNat 80 (0x100400 + o)).toNat = 0x100400 + o := fun o ho => by rw [BitVec.toNat_ofNat]; omega
  have st : ∀ o, o < 64 → ∀ k ∈ [Access.load, .store], Steady s (fun a => ∃ w ∈ groupPlaces, Within w.1 w.2 a) s.me.id.ctx s.me.id.gen k
      (BitVec.ofNat 80 (fieldAt (s.homeBytes 0x100000 512) 72 10 + o)) (0x100400 + o) := fun o ho k hk => by
    rw [h1, h2, h3]
    exact q.steady (fun a h => h) (by rw [e o ho]; omega) (by rw [e o ho]; exact h6 o ho k hk)
  refine ⟨⟨fun o ho => ⟨st o ho _ (by simp), st o ho _ (by simp)⟩, fun k hk => ?_, ⟨by rw [h5]; rfl, ?_⟩, ?_, h8⟩, h13⟩
  · rw [show s.homeNat (0x100400 + 32) 10 = s.homeNat 0x100420 10 from rfl, show s.homeNat (0x100400 + 16) 8 = s.homeNat 0x100410 8 from rfl, h4, h2, h3]
    exact q.steady (fun a h => h) (by decide) (h7 k (by rcases hk with rfl | rfl <;> simp))
  · intro j p va hj hva m hm he
    rw [h5] at hva
    obtain ⟨rfl, rfl⟩ : j = 0 ∧ p = (0xA8080, 0x30000) := by
      rcases j with _ | j <;> simp_all
    obtain rfl : va = 0x2000 := by simpa using hva.symm
    have h14 : ({ s with mem := m } : State).walkTables 0x1000 0x2000 = .leaf leafS := by
      rw [← h11]
      refine walkFrom_congr _ _ _ _ _ fun pa hpa => readNat_congr s m h9 hm pa 64 fun b h15 h16 => he b ?_
      rw [h12] at hpa
      intro w hw hb
      simp only [List.mem_cons, List.not_mem_nil, or_false, List.flatMap_cons, List.flatMap_nil, List.append_nil, List.cons_append,
        List.nil_append] at hpa hw
      simp only [Within] at hb ⊢
      rcases hpa with rfl | rfl | rfl | rfl | rfl | rfl | rfl <;> rcases hw with rfl | rfl | rfl | rfl | rfl | rfl <;> simp only at hb h15 h16 ⊢ <;> omega
    refine ⟨leafS, ?_, rfl, rfl⟩
    have h17 : ({ s with mem := m } : State).liveCtx? 1 0 = some ctx0 := h10
    unfold State.srLeaf State.leafEntry
    rw [h2, h3, h17]
    simp only [show ctx0.root = 0x1000 from rfl, h14]
    rfl
  · exact ⟨by decide, by decide⟩

/-- The places of a fork of the group: `e` the entry of continuation 0's page, `se` that of its sibling's. -/
def forkPlaces (e se : Nat) : List (Nat × Nat) :=
  [(0x100000, 512), (0x100400, 64), (0x100200, 128), (0x100280, 128), (0x100480, 1), (e, 64), (0x30000, 4), (se, 64)]
def conts (i : Nat) : Nat := 0x100200 + 128 * i

/-- A fork whose region and bitmap are full, its continuation's page being page 3; and one with a malformed continuation. -/
def noFree : State := withMem (withMem (withMem (withMem gs 0x100480 [3]) 0x100209 [0x30]) 0xA80C0 [0xE3, 0x20]) 0xA80CA ([2] ++ List.replicate 15 0 ++ [3])
def badCont : State := withMem gs 0x100212 [1]

/-- Each such state with its free ranges, the leaf of continuation 0's page and the entry of its sibling's. -/
def forks : List (State × List Nat × Leaf × Nat) :=
  [(gs, [1], leafS, 0xA80C0), (forked, [1], leafS, 0xA80C0), (badCont, [1], leafS, 0xA80C0), (noFree, [], { leafS with entry := 0xA80C0 }, 0xA8080)]

theorem test_witness_GroupWordsTakeEffect_fork (x : State × List Nat × Leaf × Nat) (hx : x ∈ forks) :
    ForkAt x.1 (x.1.homeBytes 0x100000 512) 0x100000 2 conts 0x100400 (fun _ => 0x100480) [x.2.2.1] (fun _ _ => x.2.2.2) x.2.1 := by
  have h : ∀ x ∈ forks,
      (Memory.wf x.1.mem = true ∧ x.1.liveCtx? 1 0 = some ctx0 ∧ x.1.walkTables 0x1000 (4096 * 256) = .leaf leafR ∧
        ∀ pa ∈ walkPlaces x.1.entry (4096 * 256) levels 0x1000, ∀ w ∈ forkPlaces x.2.2.1.entry x.2.2.2, pa + 64 ≤ w.1 ∨ w.1 + w.2 ≤ pa) ∧
      (fieldAt (x.1.homeBytes 0x100000 512) 72 10 = 0x100400 ∧ fieldAt (x.1.homeBytes 0x100000 512) 88 10 = 0x100200 ∧ x.1.me.id.ctx = 1 ∧ x.1.me.id.gen = 0) ∧
      (∀ o < 641, ∀ k ∈ [Access.load, .store], x.1.permit leafR k (0x100200 + o) = .ok (0x100200 + o) 0) ∧
      (x.1.homeNat 0x100418 4 = 2 ∧ x.1.homeNat 0x100420 10 = 0x100480) ∧
      x.2.1 = ((List.range 2).filter fun i => !(x.1.homeNat 0x100480 1).testBit (i % 8)) ∧
      x.1.entryPa 1 0 (x.1.homeNat 0x100400 10 + x.2.1.getD 0 0 * x.1.homeNat (0x100400 + 16) 8 + 4096 * 0) = some x.2.2.2 ∧
      x.2.2.1.frec = 0x30000 := by decide +kernel
  obtain ⟨⟨h1, h2, h3, h4⟩, ⟨h5, h6, h7, h8⟩, h9, ⟨h10, h11⟩, h12, h13, h14⟩ := h x hx
  have q : PageAt x.1 ctx0 256 leafR (forkPlaces x.2.2.1.entry x.2.2.2) := ⟨h1, h2, h3, h4⟩
  have e : ∀ o, o < 641 → (BitVec.ofNat 80 (0x100200 + o)).toNat = 0x100200 + o := fun o ho => by rw [BitVec.toNat_ofNat]; omega
  have n1 : x.1.homeNat (0x100400 + 24) 4 = 2 := h10
  have n2 : x.1.homeNat (0x100400 + 32) 10 = 0x100480 := h11
  have ho : ∀ a, (Within 0x100000 512 a ∨ Within 0x100400 64 a ∨ (∃ i, i < 2 ∧ Within (conts i) 128 a) ∨
      (∃ b, b < (x.1.homeNat (0x100400 + 24) 4 + 7) / 8 ∧ a = 0x100480) ∨
      (∃ l ∈ [x.2.2.1], Within l.entry 64 a ∨ Within l.frec 4 a) ∨ ∃ i j, i < 2 - 1 ∧ j < [x.2.2.1].length ∧ Within x.2.2.2 64 a) →
      ∃ w ∈ forkPlaces x.2.2.1.entry x.2.2.2, Within w.1 w.2 a := by
    rintro a (h | h | ⟨i, hi, h⟩ | ⟨b, -, rfl⟩ | ⟨l, hl, h⟩ | ⟨i, j, -, -, h⟩)
    · exact ⟨(0x100000, 512), by simp [forkPlaces], h⟩
    · exact ⟨(0x100400, 64), by simp [forkPlaces], h⟩
    · rcases (by omega : i = 0 ∨ i = 1) with rfl | rfl
      · exact ⟨(0x100200, 128), by simp [forkPlaces], h⟩
      · exact ⟨(0x100280, 128), by simp [forkPlaces], h⟩
    · exact ⟨(0x100480, 1), by simp [forkPlaces], by decide, by decide⟩
    · obtain rfl : l = x.2.2.1 := by simpa using hl
      rcases h with h | h
      · exact ⟨(x.2.2.1.entry, 64), by simp [forkPlaces], h⟩
      · rw [h14] at h
        exact ⟨(0x30000, 4), by simp [forkPlaces], h⟩
    · exact ⟨(x.2.2.2, 64), by simp [forkPlaces], h⟩
  have st : ∀ o, o < 641 → ∀ k, k = .load ∨ k = .store → Steady x.1 _ x.1.me.id.ctx x.1.me.id.gen k (BitVec.ofNat 80 (0x100200 + o)) (0x100200 + o) :=
    fun o hlt k hk => by
      rw [h7, h8]
      exact q.steady ho (by rw [e o hlt]; omega) (by rw [e o hlt]; exact h9 o hlt k (by rcases hk with rfl | rfl <;> simp))
  refine ⟨fun i o hi hlt k hk => ?_, fun o hlt k hk => ?_, fun b hb k hk => ?_, by rw [h12, n1], fun i j hi hj => ?_, ?_⟩
  · rw [h6]
    have := st (128 * i + o) (by omega) k hk
    rw [show 0x100200 + 128 * i + o = 0x100200 + (128 * i + o) by omega, show conts i + o = 0x100200 + (128 * i + o) by simp only [conts]; omega]
    exact this
  · rw [h5]
    have := st (0x200 + o) (by omega) k hk
    rw [show 0x100200 + (0x200 + o) = 0x100400 + o by omega] at this
    exact this
  · obtain rfl : b = 0 := by rw [n1] at hb; omega
    rw [n2]
    exact st 0x280 (by decide) k hk
  · obtain ⟨rfl, rfl⟩ : i = 0 ∧ j = 0 := ⟨by omega, by simpa using hj⟩
    rw [h7, h8]
    exact h13
  · have a : ∀ x ∈ forks, ApartRanges ([(0x100000, 512), (0x100400, 64)] ++ (List.range 2).map (fun i => (conts i, 128)) ++
        (List.range ((x.1.homeNat (0x100400 + 24) 4 + 7) / 8)).map (fun _ => (0x100480, 1)) ++ [x.2.2.1].flatMap (fun l => [(l.entry, 64), (l.frec, 4)]) ++
        (List.range (2 - 1)).flatMap fun _ => (List.range [x.2.2.1].length).map fun _ => (x.2.2.2, 64)) := by unfold ApartRanges; decide +kernel
    exact a x hx

theorem test_witness_GroupWordsTakeEffect_forks :
    (∀ x ∈ forks, Passes x.1 (.sgrpFork 4 1 .plain) ∧ x.1.dirty = [] ∧ groupBad (x.1.homeBytes 0x100000 512) = false ∧ x.1.homeNat 0x100001 1 = 2 ∧
      (reachEach (x.1.teamReach x.1.me .atomic (x.1.me.a 1) 512).2 ((List.range 2).map fun i => x.1.homeNat 0x100058 10 + 128 * i)).isSome = true ∧
      (pagesHolding (x.1.homeNat 0x100208 10) (x.1.homeNat 0x100218 8)).map (x.1.srLeaf 1 0) = [some x.2.2.1] ∧ regionBad (x.1.homeBytes 0x100400 64) = false ∧
      x.1.homeNat 0x100000 1 = 0) ∧
    ((gs.queue? 20).isSome = true ∧ gs.me.id.queue = some 20 ∧ contBad (gs.homeBytes 0x100200 128) = false ∧ contBad (badCont.homeBytes 0x100200 128) = true ∧
      gs.homeNat 0x100068 10 = 0 ∧ noFree.homeNat 0x100068 10 = 0 ∧ forked.homeNat 0x100068 10 ≠ 0 ∧ contBad (forked.homeBytes 0x100200 128) = false ∧
      contBad (noFree.homeBytes 0x100200 128) = false) ∧
    (∃ s1, CanGroup forked s1 1 512 0x100000) ∧ (∃ s1, CanGroup badCont s1 1 512 0x100000) ∧ ∃ s1, CanGroup noFree s1 1 512 0x100000 :=
  ⟨by unfold Passes; decide +kernel, by decide +kernel, ⟨_, canGroup (by decide +kernel)⟩, ⟨_, canGroup (by decide +kernel)⟩,
   ⟨_, canGroup (by decide +kernel)⟩⟩

/-! ### Handlers, gangs, deadlines and queue words (spec/13 R222 to R225; spec/14 R236 to R252; spec/15 R259 to R268) -/

/-- A walk record of FP32 tiles of 16 by 16 over K = 4, filled and drained by teams. -/
def rec16 : WalkRec :=
  { m := 16, n := 16, k := 4, afmt := 0, bfmt := 0, order := 0, band := 1, tileM := 16, tileN := 16, assign := 0, splitk := 1, finish := 0, look := 1,
    inflight := 1, prio := 0, flags := 0, taint := 0, asrc := 0, bsrc := 0, csink := 0, aentry := 0x300, bentry := 0x400, centry := 0x500, apool := 1,
    bpool := 1, cpool := 1, atlr := 0, btlr := 0, ctlr := 0, htab := 0, signal := 0, crec := 0, kbuf := 0, stall := 100, asnap := [], bsnap := [], csnap := [] }
def walk50 : Walk :=
  { id := 50, wid := 77, ctx := 1, gen := 0, queue := 20, bundle := 30, sub := 0, rec_ := rec16, kernel := .zero, cores := [0], tiles := 0, tainted := 0,
    ftaint := none, tTiles := [], flushed := [], upa := 0, upb := 0, upc := 0, reraise := 0, gcomp := 0, gskip := 0, stalls := 0, starve := 0, upwait := 0,
    err := none, ended := false }
def cslot : CSlot := ⟨3, 1, 2, 0, 1, 0, false, true, 0, 2, 0, 0, 0, 0, false, false, []⟩
def core50 : WalkCore :=
  { walk := 50, idx := 0, items := [(0, 0), (1, 0)], cursor := 1, array := none, aslots := [⟨true, 0, 0, false, false, false⟩], bslots := [⟨true, 0, 0, false, false, false⟩],
    cslots := [cslot, CSlot.free, CSlot.free, CSlot.free], fifoA := [], fifoB := [], fifoC := [], stopReq := false, stopped := false, starve := 11, upwait := 12,
    stalls := 13, gcomp := 14, gskip := 15, ksteps := 16, tiles := 17, lastAdv := 0, stalled := false, eng := ⟨[], []⟩ }

/-- Core 0 runs that walk; a handler of its pool runs an upcall of kind k. -/
def hs (k : Nat) : State :=
  let s := { base with walks := [walk50] }.updCore 0 fun c => { c with walk := some core50 }
  (withFlow s fun f => { f with upcall := some ⟨k, 0, 0, 0, false⟩ }).setMe fun t => { t with id := { t.id with pool := some ⟨50, k⟩ } }

theorem test_handlers :
    got (.hctlHret .ok) (hs 0) (fun t => (t.me.flow.hold, t.me.flow.upcall.isNone, (t.core 0).walk.map fun e => e.aslots.map fun o => (o.ready, o.taint))) =
      some (.poolIdle, true, some [(true, false)]) ∧
    got (.hctlHret .skip) (hs 1) (fun t => (t.core 0).walk.map fun e => (e.aslots.map (·.ready), e.bslots.map fun o => (o.ready, o.taint))) =
      some (some ([false], [(true, true)])) ∧
    got .hctlHtaint (hs 0) (fun t => t.me.flow.upcall.map (·.taint)) = some (some true) := by decide +kernel

theorem test_walk_reads :
    [0, 1, 2, 3, 4, 5, 6, 7].map (fun e => got (.hctlWstat 3 e) (hs 0) (·.me.s 3)) = [11, 12, 13, 14, 15, 16, 17, 77].map some ∧
    got (.hctlWpos 3 4 0) (hs 0) (·.me.s 3) = some 0x200000001 ∧ got (.hctlWpos 3 0 0) (hs 0) (·.me.s 3) = some 0x100000003 ∧
    got (.hctlWpos 3 0 1) (hs 0) (·.me.s 3) = some 0x0200010000000002 ∧ got (.hctlWpos 3 0 2) (hs 0) (·.me.s 3) = some 0x200000000 ∧
    got (.hctlWpos 3 0 0) base (·.me.s 3) = some 0 := by decide +kernel

/-- The group with hret fetched, a store still outstanding. -/
def hretStore : State := fetched (withFlow (hs 0) fun f => { f with ops := [op0 .st] }) (.hctlHret .ok)

theorem test_witness_HandlerWordsComplete :
    (∀ k ∈ [0, 1, 2], Passes (hs k) (.hctlHret .ok) ∧ Passes (hs k) .hctlHtaint ∧
      ((hs k).release 5 .sys).2 = true ∧ (hs k).dirtyOf 5 = [] ∧ (hs k).me.flow.upcall = some ⟨k, 0, 0, 0, false⟩ ∧ ((hs k).core 0).walk = some core50 ∧
      (hs k).walk? core50.walk = some walk50) ∧
    (core50.bslots[0]?.any (·.taken) = true ∧ core50.aslots[0]?.any (·.taken) = true ∧ walk50.rec_.taint ≠ 1) ∧
    (Passes ((hs 0).updCore 0 fun c => { c with walk := none }) (.hctlHret .ok)) ∧
    (hretStore.me.flow.fetched = true ∧ .hctlHret .ok ∈ hretStore.me.groupInstrs ∧ hretStore.me.flow.ops ≠ [] ∧ hretStore.me.resumes = false) ∧
    (Passes base (.hctlWstat 3 7) ∧ base.walkHere = none ∧ (hs 0).walkHere = some (core50, walk50) ∧ Passes (hs 0) (.hctlWstat 3 7)) ∧
    (∀ j ∈ [0, 1, 4], Passes (hs 0) (.hctlWpos 3 0 j)) ∧ Passes (hs 0) (.hctlWpos 3 4 0) ∧ core50.second 0 = false ∧ (core50.slotOf 0).state ≠ 0 := by
  unfold Passes; decide +kernel

/-- The team in gang 60 with one other, which has arrived or not. -/
def peer (b : Bool) : Team :=
  let f : Flow := { team.flow with arrived := b, hold := if b then .gbar .dev else .none }
  { team with id := { team.id with tid := 6, gang := some 60 }, place := .on 1 0 0, flow := f }
def ga (b : Bool) : State := withId { base with gangs := [⟨60, 4⟩], teams := [peer b] } fun i => { i with gang := some 60 }

theorem test_gang_barrier :
    got (.syncGbar .dev) (ga false) (fun t => (t.me.flow.hold, t.me.flow.arrived, t.gangs.map (·.gen))) = some (.gbar .dev, true, [4]) ∧
    got (.syncGbar .dev) (ga true) (fun t => (t.me.flow.hold, t.teams.map (·.flow.hold), t.gangs.map (·.gen))) = some (.none, [.none], [5]) := by decide +kernel

/-- The group of two at 0x100000 with deadline 10 and clock 9 or more, of which nothing or a mask has arrived with the rewards 1 and 3, its advantages
at 0x100500 or where nothing is mapped; its queue, whose descriptor it names. -/
def dl (clock arr : Byte) : State :=
  let s := withMem (withMem (withMem gs 0x100008 [arr]) 0x100020 [10, 0, 0, 0, 0, 0, 0, 0, clock]) 0x100069 [8]
  { withMem s 0x100078 [0, 0, 0x80, 0x3F, 0, 0, 0x40, 0x40] with groups := [⟨70, 0x100000, 1, 0, 20⟩] }
def unmapped : State := withMem (dl 9 3) 0x10003E [1]
def badEps : State := withMem (dl 9 3) 0x100033 [0xBF]

theorem test_group_deadline :
    got (.groupDeadline 70) (dl 10 0) (fun t => (t.homeNat 0x100000 1, t.homeNat 0x100004 4, t.groups.length)) = some (3, 8, 1) ∧
    got (.groupDeadline 70) (dl 9 1) (fun t => (t.homeNat 0x100000 1, t.groups.length)) = some (0, 1) := by decide +kernel

/-- R98: mean 2, standard deviation 1. -/
theorem test_group_advantages :
    got (.groupDeadline 70) (dl 9 3) (fun t => (t.homeNat 0x100000 1, t.homeNat 0x100500 4, t.homeNat 0x100504 4)) = some (2, 0xBF800000, 0x3F800000) ∧
    got (.groupDeadline 70) unmapped (fun t => (t.homeNat 0x100000 1, t.homeNat 0x100004 4)) = some (3, 32) ∧
    got (.groupDeadline 70) badEps (fun t => (t.homeNat 0x100000 1, t.homeNat 0x100004 4)) = some (3, 16) := by decide +kernel

theorem test_witness_GangBarriersAndGroupDeadlines :
    (∀ b, Passes (ga b) (.syncGbar .dev) ∧ (ga b).me.id.gang = some 60 ∧ (ga b).me.ended = false ∧ ((ga b).release 5 .dev).2 = true) ∧
    (∃ u ∈ ((ga false).release 5 .dev).1.teams, u.id.gang = some 60 ∧ u.ended = false ∧ u.flow.arrived = false) ∧
    (∀ u ∈ ((ga true).release 5 .dev).1.teams, u.id.gang = some 60 → u.ended = false → u.flow.arrived = true) ∧
    (base.groups.find? (·.id == 70) = none ∧ ∀ s ∈ [dl 9 0, dl 10 0, dl 10 1, dl 9 3, unmapped, badEps, withMem (dl 9 0) 0x100000 [2]],
      s.groups.find? (·.id == 70) = some ⟨70, 0x100000, 1, 0, 20⟩ ∧ s.groups = [⟨70, 0x100000, 1, 0, 20⟩] ∧ s.poison = [] ∧ Memory.wf s.mem = true) ∧
    (∃ q ∈ (dl 9 0).queues, q.id = 20 ∧ q.resident = true ∧ q.saving = false ∧ (dl 9 0).homeNat 0x100068 10 = q.desc.toNat) ∧
    (¬ ∃ q ∈ ({ dl 9 0 with queues := [] } : State).queues, q.id = 20 ∧ q.resident = true) ∧
    (∀ s ∈ [dl 9 0, dl 10 0, dl 9 3, unmapped, badEps], fieldAt (s.homeBytes 0x100000 512) 0 1 = 0) := by unfold Passes; decide +kernel

/-- What the test of a group goes by: due or not, late or not, an epsilon that is a number or not. -/
theorem test_witness_GangBarriersAndGroupDeadlines_due :
    ∀ x ∈ [(dl 9 0, false, false, true), (dl 10 0, false, true, true), (dl 9 3, true, false, true), (unmapped, true, false, true), (badEps, true, false, false)],
      ((List.range 2).all fun i => (fieldAt (x.1.homeBytes 0x100000 512) 8 8).testBit i || (fieldAt (x.1.homeBytes 0x100000 512) 16 8).testBit i) = x.2.1 ∧
      decide (fieldAt (x.1.homeBytes 0x100000 512) 32 8 ≠ 0 ∧ fieldAt (x.1.homeBytes 0x100000 512) 32 8 ≤ fieldAt (x.1.homeBytes 0x100000 512) 40 8) = x.2.2.1 ∧
      (fmtF32.value (fieldAt (x.1.homeBytes 0x100000 512) 48 4) = (if x.2.2.2 then .fin false 0 (-149) else .fin true (2 ^ 23) (-24))) := by decide +kernel

/-- An address whose walk ends in no leaf leads nowhere, whatever the bytes of a range are. -/
theorem never_stored {s : State} {c : Ctx} {key n : Nat} {va : W80} (hw : Memory.wf s.mem = true) (hc : s.liveCtx? c.id c.gen = some c)
    (hl : (match s.walkTables c.root va.toNat with | .leaf _ => false | _ => true) = true)
    (hp : ∀ pa ∈ walkPlaces s.entry va.toNat levels c.root, pa + 64 ≤ key ∨ key + n ≤ pa) : NeverStored s (Within key n) c.id c.gen va := by
  intro m hm he k hk
  have h1 := walk_steady s (Within key n) c.root va.toNat hw (fun pa hpa b hb hb2 hw => by
    have := hp pa hpa
    simp only [Within] at hw
    omega) m hm he
  have h2 : ({ s with mem := m } : State).liveCtx? c.id c.gen = some c := hc
  unfold State.agentKey at hk
  rw [h2] at hk
  simp only [h1] at hk
  split at hk
  · rename_i l h3
    rw [h3] at hl
    cases hl
  · cases hk

/-- The advantages go to their keys whatever the record and the advantages are; an address that nothing maps leads nowhere. -/
theorem test_witness_GangBarriersAndGroupDeadlines_places :
    (∀ j, j < 8 → Steady (dl 9 3) (fun a => Within 0x100000 512 a ∨ ∃ i, i < 8 ∧ 0x100500 + i = a) 1 0 .store
      (BitVec.ofNat 80 (fieldAt ((dl 9 3).homeBytes 0x100000 512) 56 10 + j)) (0x100500 + j)) ∧
    NeverStored unmapped (Within 0x100000 512) 1 0 (BitVec.ofNat 80 (fieldAt (unmapped.homeBytes 0x100000 512) 56 10 + 0)) := by
  constructor
  · have h : Memory.wf (dl 9 3).mem = true ∧ (dl 9 3).liveCtx? 1 0 = some ctx0 ∧ (dl 9 3).walkTables 0x1000 (4096 * 256) = .leaf leafR ∧
        (∀ pa ∈ walkPlaces (dl 9 3).entry (4096 * 256) levels 0x1000, ∀ w ∈ [(0x100000, 512), (0x100500, 8)], pa + 64 ≤ w.1 ∨ w.1 + w.2 ≤ pa) ∧
        fieldAt ((dl 9 3).homeBytes 0x100000 512) 56 10 = 0x100500 ∧ ∀ j < 8, (dl 9 3).permit leafR .store (0x100500 + j) = .ok (0x100500 + j) 0 := by
      decide +kernel
    intro j hj
    have e : (BitVec.ofNat 80 (0x100500 + j)).toNat = 0x100500 + j := by rw [BitVec.toNat_ofNat]; omega
    have q : PageAt (dl 9 3) ctx0 256 leafR [(0x100000, 512), (0x100500, 8)] := ⟨h.1, h.2.1, h.2.2.1, h.2.2.2.1⟩
    rw [h.2.2.2.2.1]
    refine q.steady (own := fun a => Within 0x100000 512 a ∨ ∃ i, i < 8 ∧ 0x100500 + i = a) ?_ (by rw [e]; omega) (by rw [e]; exact h.2.2.2.2.2 j hj)
    rintro a (h1 | ⟨i, h1, rfl⟩)
    · exact ⟨(0x100000, 512), by simp, h1⟩
    · exact ⟨(0x100500, 8), by simp, by simp only [Within]; omega⟩
  · have h : Memory.wf unmapped.mem = true ∧ unmapped.liveCtx? 1 0 = some ctx0 ∧
        (match unmapped.walkTables 0x1000 0x1000000100500 with | .leaf _ => false | _ => true) = true ∧
        (∀ pa ∈ walkPlaces unmapped.entry 0x1000000100500 levels 0x1000, pa + 64 ≤ 0x100000 ∨ 0x100200 ≤ pa) ∧
        fieldAt (unmapped.homeBytes 0x100000 512) 56 10 = 0x1000000100500 := by decide +kernel
    rw [h.2.2.2.2, show BitVec.ofNat 80 (0x1000000100500 + 0) = (0x1000000100500 : W80) from by decide]
    have e : (0x1000000100500 : W80).toNat = 0x1000000100500 := by decide
    exact never_stored (c := ctx0) h.1 h.2.1 (by rw [e]; exact h.2.2.1) (by rw [e]; exact h.2.2.2.1)

/-- A queue descriptor at 0x800 of context c in a state, with two slots at 0x10000 and its error signal at 0x900; a packet image at 0xA00; a1 the
descriptor, a2 the image, s2 = 1. -/
def qd (c st : Byte) (known : Bool) : State :=
  let q : Queue := ⟨20, 1, 0, 0x800, 0x10000, 1, 0, 0, 0x900, 1, true, false, none, [], 0, false, false, false, false, none, [], []⟩
  let s := withMem (withMem { base with queues := if known then [q] else [] } 0x800
    [0, 0, 1, 0, 0, 0, 0, 0, 0, 0, 0, 0, 0, 0, 0, 0, 1, st, 0, 0, c, 0, 0, 0, 1]) 0xA00 [1, 0, 0, 0, 0, 0, 0, 0, 9, 8, 7]
  withS (withA (withMem (withMem s 0x830 [0, 9]) 0x840 [1]) [(1, 0x800), (2, 0xA00)]) [(2, 1)]

theorem test_queue_words :
    got (.syncEnq 3 1 2) (qd 1 0 true) (fun t => (opw2 t, t.homeNat 0x10040 8, t.homeNat 0x10048 4, t.homeNat 0x818 8)) =
      some ([(true, [.s 3 1])], 1, 0x070809, 0) ∧
    got (.syncEnq 3 1 2) (qd 2 0 true) opw2 = some [(true, [.s 3 0x8000000000000002])] ∧
    got (.syncEnq 3 1 2) (qd 1 0 false) opw2 = some [(true, [.s 3 0x8000000000000003])] := by decide +kernel

theorem test_queue_controls :
    got (.syncQctlStop 3 1) (qd 1 0 true) (fun t => (opw2 t, t.homeNat 0x811 1)) = some ([(true, [.s 3 0])], 2) ∧
    got (.syncQctlCreate 3 1) (qd 1 0 false) (fun t => (opw2 t, t.queues.map (·.resident))) = some ([(true, [.s 3 0])], [true]) ∧
    got (.syncQctlCreate 3 1) (qd 1 0 true) opw2 = some [(true, [.s 3 5])] := by decide +kernel

theorem test_queue_resume_and_destroy :
    got (.syncQctlResume 3 1 2) (qd 1 2 true) (fun t => (opw2 t, t.homeNat 0x811 1, t.homeNat 0x820 8)) = some ([(true, [.s 3 0])], 0, 1) ∧
    got (.syncQctlDestroy 3 1) (qd 1 0 true) (fun t => (opw2 t, t.queues.length)) = some ([(true, [.s 3 0])], 0) := by decide +kernel

/-- qd with every link up. -/
def qu (c st : Byte) (known : Bool) : State := { qd c st known with links := Vector.replicate 33 ⟨1, 0, 0, false⟩ }

theorem links_up (k : Nat) : (qu 1 0 true).linkDown k = none := by
  have h : ∀ p : Fin 33, (qu 1 0 true).links[p].state ≠ 0 := by decide +kernel
  unfold State.linkDown
  split
  · rw [if_neg (h _)]
  · rfl

theorem canQueue {s : State} {a : AReg} {key : Nat} (h : s.me.flow.park = none ∧ (s.me.a a).toNat % 128 = 0 ∧
    (s.teamReach s.me .atomic (s.me.a a) 128).1 = .ok key 0 ∧ s.poison = [] ∧ Memory.wf s.mem = true ∧ s.dirty = []) (hk : key + 128 ≤ 2 ^ 64) :
    CanQueue s (s.teamReach s.me .atomic (s.me.a a) 128).2 a key 0 :=
  ⟨h.1, h.2.1, pair1 h.2.2.1, sound_all s key 128 h.2.2.2.1 (.inl hk), h.2.2.2.2.1, h.2.2.2.2.2⟩

def quq : Queue := ⟨20, 1, 0, 0x800, 0x10000, 1, 0, 0, 0x900, 1, true, false, none, [], 0, false, false, false, false, none, [], []⟩

/-- qu with a bad descriptor, a full table of queues, a queue that is DYING, an image with header 0, a slot in use. -/
def quBad : State := withMem (qu 1 0 false) 0x810 [0]
def quFull : State := { qu 1 0 false with queues := List.replicate 4096 { quq with ctx := 2 } }
def quDying : State := { qu 1 3 true with queues := (qu 1 3 true).queues.map fun q => { q with dying := true } }
def quEmpty : State := withMem (qu 1 0 true) 0xA00 [0]
def quUsed : State := withMem (qu 1 0 true) 0x10040 [1]

theorem test_witness_QueueWordsAnswerAndTakeEffect_access :
    ∀ s ∈ [qu 1 0 true, qu 1 2 true, qu 2 0 true, qu 1 0 false, quBad, quFull, quDying, quEmpty, quUsed], (∃ s1, CanQueue s s1 1 0x800 0) ∧
      ∀ i ∈ [Instr.syncEnq 3 1 2, .syncQctlCreate 3 1, .syncQctlStop 3 1, .syncQctlResume 3 1 2, .syncQctlDestroy 3 1], Passes s i := by
  intro s hs
  simp only [List.mem_cons, List.not_mem_nil, or_false] at hs
  rcases hs with rfl | rfl | rfl | rfl | rfl | rfl | rfl | rfl | rfl <;>
    exact ⟨⟨_, canQueue (by decide +kernel) (by decide)⟩, by unfold Passes; decide +kernel⟩

/-- A descriptor with two slots, all in the page of 1 GiB. -/
theorem desc_ok (s : State) (hs : s ∈ [qu 1 0 false, quFull]) : DescOk s s.me.id.ctx s.me.id.gen (s.homeBytes 0x800 128) := by
  have h : ∀ s ∈ [qu 1 0 false, quFull], ((1 ≤ fieldAt (s.homeBytes 0x800 128) 16 1 ∧ fieldAt (s.homeBytes 0x800 128) 16 1 ≤ 16 ∧ fieldAt (s.homeBytes 0x800 128) 18 1 ≤ 127 ∧
      fieldAt (s.homeBytes 0x800 128) 19 1 ≤ 2 ∧ fieldAt (s.homeBytes 0x800 128) 0 10 % 64 = 0 ∧
      fieldAt (s.homeBytes 0x800 128) 24 8 < 2 ^ fieldAt (s.homeBytes 0x800 128) 16 1 ∧ fieldAt (s.homeBytes 0x800 128) 10 6 = 0 ∧
      fieldAt (s.homeBytes 0x800 128) 58 6 = 0 ∧ fieldAt (s.homeBytes 0x800 128) 98 6 = 0 ∧ fieldAt (s.homeBytes 0x800 128) 112 16 = 0) ∧
      s.leafAt s.me.id.ctx s.me.id.gen (fieldAt (s.homeBytes 0x800 128) 48 10) = some leaf0 ∧ s.isDevice (leaf0.pa (fieldAt (s.homeBytes 0x800 128) 48 10)) = true ∧
      fieldAt (s.homeBytes 0x800 128) 16 1 = 1) ∧
      ∀ k < 2, s.leafAt s.me.id.ctx s.me.id.gen ((fieldAt (s.homeBytes 0x800 128) 0 10 + 64 * k) % 2 ^ 80) = some leaf0 ∧
        s.isDevice (leaf0.pa ((fieldAt (s.homeBytes 0x800 128) 0 10 + 64 * k) % 2 ^ 80)) = true := by decide +kernel
  obtain ⟨⟨⟨h1, h2, h3, h4, h5, h6, h7, h8, h9, h10⟩, h11, h12, h13⟩, h14⟩ := h s hs
  exact ⟨h1, h2, h3, h4, h5, h6, h7, h8, h9, h10, ⟨leaf0, h11, rfl, rfl, rfl, .inl ⟨rfl, h12⟩⟩, fun k hk =>
    have h15 := h14 k (by rwa [h13] at hk)
    ⟨leaf0, _, rfl, h15.1, rfl, rfl, rfl, rfl, rfl, h15.2⟩⟩

theorem qctl_foreign {s : State} {i : Instr} (h : s.homeNat (0x800 + 20) 4 ≠ s.me.id.ctx) : QctlCode s 0x800 i 2 := by
  unfold QctlCode
  rw [if_pos h]

theorem qctl_known {s : State} {i : Instr} {q : Queue} {code : Nat}
    (h : s.homeNat (0x800 + 20) 4 = s.me.id.ctx ∧ s.queueAt s.me.id.ctx 0x800 = some q ∧ s.homeNat 0x810 1 = 1)
    (hc : i = .syncQctlCreate 3 1 ∧ code = 5 ∨
      i = .syncQctlStop 3 1 ∧ code = (if q.dying = true ∨ 1 < s.homeNat 0x811 1 then 1 else 0) ∨
      i = .syncQctlResume 3 1 2 ∧ code = (if q.dying = true ∨ s.homeNat 0x811 1 ≠ 1 ∧ s.homeNat 0x811 1 ≠ 2 then 1 else if 2 ≤ (s.me.s 2).toNat then 3 else 0) ∨
      i = .syncQctlDestroy 3 1 ∧ code = 0) : QctlCode s 0x800 i code := by
  unfold QctlCode
  rw [if_neg (by simp [h.1]), h.2.1]
  rcases hc with ⟨rfl, rfl⟩ | ⟨rfl, rfl⟩ | ⟨rfl, rfl⟩ | ⟨rfl, rfl⟩
  · rfl
  · rfl
  · simp [h.2.2]
  · rfl

theorem qctl_unknown {s : State} {i : Instr} {code : Nat} (h : s.homeNat (0x800 + 20) 4 = s.me.id.ctx ∧ s.queueAt s.me.id.ctx 0x800 = none)
    (hc : (i = .syncQctlStop 3 1 ∨ i = .syncQctlResume 3 1 2 ∨ i = .syncQctlDestroy 3 1) ∧ code = 4 ∨
      i = .syncQctlCreate 3 1 ∧ (¬ DescOk s s.me.id.ctx s.me.id.gen (s.homeBytes 0x800 128) ∧ code = 3 ∨
        DescOk s s.me.id.ctx s.me.id.gen (s.homeBytes 0x800 128) ∧ code = if 4096 ≤ s.queues.length then 6 else 0)) : QctlCode s 0x800 i code := by
  unfold QctlCode
  rw [if_neg (by simp [h.1]), h.2]
  rcases hc with ⟨rfl | rfl | rfl, rfl⟩ | ⟨rfl, hc⟩
  · rfl
  · rfl
  · rfl
  · exact hc

theorem test_witness_QueueWordsAnswerAndTakeEffect_codes :
    (∀ i, QctlCode (qu 2 0 true) 0x800 i 2) ∧
    (∀ i, (i = .syncQctlStop 3 1 ∨ i = .syncQctlResume 3 1 2 ∨ i = .syncQctlDestroy 3 1) → QctlCode (qu 1 0 false) 0x800 i 4) ∧
    QctlCode (qu 1 0 true) 0x800 (.syncQctlCreate 3 1) 5 ∧ QctlCode quDying 0x800 (.syncQctlDestroy 3 1) 0 ∧
    QctlCode quDying 0x800 (.syncQctlStop 3 1) 1 ∧ QctlCode (qu 1 2 true) 0x800 (.syncQctlStop 3 1) 1 ∧
    QctlCode (qu 1 0 true) 0x800 (.syncQctlResume 3 1 2) 1 ∧ QctlCode (withS (qu 1 2 true) [(2, 2)]) 0x800 (.syncQctlResume 3 1 2) 3 ∧
    QctlCode (qu 1 0 true) 0x800 (.syncQctlStop 3 1) 0 ∧ QctlCode (qu 1 2 true) 0x800 (.syncQctlResume 3 1 2) 0 ∧
    QctlCode (qu 1 0 true) 0x800 (.syncQctlDestroy 3 1) 0 :=
  have d : quDying.homeNat (0x800 + 20) 4 = quDying.me.id.ctx ∧ quDying.queueAt quDying.me.id.ctx 0x800 = some { quq with dying := true } ∧
    quDying.homeNat 0x810 1 = 1 := by decide +kernel
  have a : (qu 1 0 true).homeNat (0x800 + 20) 4 = (qu 1 0 true).me.id.ctx ∧ (qu 1 0 true).queueAt (qu 1 0 true).me.id.ctx 0x800 = some quq ∧
    (qu 1 0 true).homeNat 0x810 1 = 1 := by decide +kernel
  have b : (qu 1 2 true).homeNat (0x800 + 20) 4 = (qu 1 2 true).me.id.ctx ∧ (qu 1 2 true).queueAt (qu 1 2 true).me.id.ctx 0x800 = some quq ∧
    (qu 1 2 true).homeNat 0x810 1 = 1 := by decide +kernel
  have c : (withS (qu 1 2 true) [(2, 2)]).homeNat (0x800 + 20) 4 = (withS (qu 1 2 true) [(2, 2)]).me.id.ctx ∧
    (withS (qu 1 2 true) [(2, 2)]).queueAt (withS (qu 1 2 true) [(2, 2)]).me.id.ctx 0x800 = some quq ∧ (withS (qu 1 2 true) [(2, 2)]).homeNat 0x810 1 = 1 := by decide +kernel
  ⟨fun _ => qctl_foreign (by decide +kernel), fun _ h => qctl_unknown (by decide +kernel) (.inl ⟨h, rfl⟩), qctl_known a (.inl ⟨rfl, rfl⟩),
   qctl_known d (.inr (.inr (.inr ⟨rfl, rfl⟩))), qctl_known d (.inr (.inl ⟨rfl, by decide +kernel⟩)), qctl_known b (.inr (.inl ⟨rfl, by decide +kernel⟩)),
   qctl_known a (.inr (.inr (.inl ⟨rfl, by decide +kernel⟩))), qctl_known c (.inr (.inr (.inl ⟨rfl, by decide +kernel⟩))),
   qctl_known a (.inr (.inl ⟨rfl, by decide +kernel⟩)), qctl_known b (.inr (.inr (.inl ⟨rfl, by decide +kernel⟩))), qctl_known a (.inr (.inr (.inr ⟨rfl, rfl⟩)))⟩

theorem test_witness_QueueWordsAnswerAndTakeEffect_create :
    QctlCode (qu 1 0 false) 0x800 (.syncQctlCreate 3 1) 0 ∧ QctlCode quBad 0x800 (.syncQctlCreate 3 1) 3 ∧ QctlCode quFull 0x800 (.syncQctlCreate 3 1) 6 := by
  have h : ∀ s ∈ [qu 1 0 false, quBad, quFull], s.homeNat (0x800 + 20) 4 = s.me.id.ctx ∧ s.queueAt s.me.id.ctx 0x800 = none := by decide +kernel
  have h1 : quFull.queues.length = 4096 := by
    simp only [quFull, List.length_replicate]
  have h2 : 6 = if 4096 ≤ quFull.queues.length then 6 else 0 := by rw [h1]; rfl
  have h3 := h quFull (.tail _ (.tail _ (.head _)))
  have h4 := desc_ok quFull (.tail _ (.head _))
  refine ⟨qctl_unknown (h _ (.head _)) (.inr ⟨rfl, .inr ⟨desc_ok _ (.head _), by decide +kernel⟩⟩),
    qctl_unknown (h _ (.tail _ (.head _))) (.inr ⟨rfl, .inl ⟨fun h => absurd h.1 (by decide +kernel), rfl⟩⟩), ?_⟩
  generalize quFull = s at *
  exact qctl_unknown h3 (.inr ⟨rfl, .inr ⟨h4, h2⟩⟩)

/-- What destroy writes, and where the words on a queue find it. -/
theorem test_witness_QueueWordsAnswerAndTakeEffect_destroy : DestroyAt (qu 1 0 true) quq 0x800 0x900 ∧ (qu 1 0 true).queueAt 1 0x800 = some quq ∧
    quDying.queueAt 1 0x800 = some { quq with dying := true } ∧ (qu 1 0 true).bundles = [] ∧ ((qu 1 0 true).queues.map (·.id)).Nodup := by
  have h : (Memory.wf (qu 1 0 true).mem = true ∧ (qu 1 0 true).liveCtx? 1 0 = some ctx0 ∧ (qu 1 0 true).walkTables 0x1000 (4096 * 0) = .leaf leaf0 ∧
      ∀ pa ∈ walkPlaces (qu 1 0 true).entry (4096 * 0) levels 0x1000, ∀ w ∈ [(0x800, 128), (0x900, 8)], pa + 64 ≤ w.1 ∨ w.1 + w.2 ≤ pa) ∧
    (∀ off ∈ [17, 96, 97], (qu 1 0 true).permit leaf0 .store (0x800 + off) = .ok (0x800 + off) 0) ∧
    (qu 1 0 true).permit leaf0 .atomic 0x900 = .ok 0x900 0 ∧ (qu 1 0 true).queueAt 1 0x800 = some quq ∧
    quDying.queueAt 1 0x800 = some { quq with dying := true } ∧ (qu 1 0 true).bundles = [] ∧ ((qu 1 0 true).queues.map (·.id)).Nodup := by decide +kernel
  have q : PageAt (qu 1 0 true) ctx0 0 leaf0 [(0x800, 128), (0x900, 8)] := ⟨h.1.1, h.1.2.1, h.1.2.2.1, h.1.2.2.2⟩
  have ho : ∀ a, Within 0x800 128 a ∨ Within 0x900 8 a → ∃ w ∈ [(0x800, 128), (0x900, 8)], Within w.1 w.2 a := fun a h => by
    rcases h with h | h
    · exact ⟨(0x800, 128), by simp, h⟩
    · exact ⟨(0x900, 8), by simp, h⟩
  refine ⟨⟨fun off hoff => ?_, q.steady ho (by decide) h.2.2.1, by decide, sound_all _ _ _ rfl (.inl (by decide)), by decide +kernel⟩, h.2.2.2⟩
  rcases hoff with rfl | rfl | rfl
  · exact q.steady ho (by decide) (h.2.1 17 (by simp))
  · exact q.steady ho (by decide) (h.2.1 96 (by simp))
  · exact q.steady ho (by decide) (h.2.1 97 (by simp))

theorem test_witness_QueueWordsAnswerAndTakeEffect_enq :
    (∀ s ∈ [qu 1 0 true, quEmpty, quUsed],
      ((imageKeys (s.teamReach s.me .atomic (s.me.a 1) 128).2 (s.me.a 2) [0, 8, 16, 24, 32, 40, 48, 56]).any
        fun x => x.1 == [0xA00, 0xA08, 0xA10, 0xA18, 0xA20, 0xA28, 0xA30, 0xA38] &&
          (x.2.teamReach x.2.me .atomic (BitVec.ofNat 80 (s.homeNat 0x800 10 + 64 * s.homeNat 0x818 8)) 64).1 == .ok 0x10040 0) = true ∧
      (s.clean = [] ∧ s.poison = [] ∧ s.homeNat 0x811 1 ≠ 3 ∧ (s.me.a 2).toNat % 8 = 0) ∧ s.homeNat 0x814 4 = s.me.id.ctx ∧ (s.queueAt 1 0x800).isSome = true) ∧
    (qu 2 0 true).homeNat 0x814 4 ≠ (qu 2 0 true).me.id.ctx ∧ (qu 1 0 false).queueAt 1 0x800 = none ∧ quDying.homeNat 0x811 1 = 3 ∧
    fieldAt (([0xA00, 0xA08, 0xA10, 0xA18, 0xA20, 0xA28, 0xA30, 0xA38].map fun k => (qu 1 0 true).homeBytes k 8).flatten) 0 1 ≠ 0 ∧
    fieldAt (([0xA00, 0xA08, 0xA10, 0xA18, 0xA20, 0xA28, 0xA30, 0xA38].map fun k => quEmpty.homeBytes k 8).flatten) 0 1 = 0 ∧
    (qu 1 0 true).homeNat 0x10040 8 = 0 ∧ quUsed.homeNat 0x10040 8 ≠ 0 := by decide +kernel

/-! ### Replies, events of teams, events of walks (spec/02 R36, R37; spec/07 R133; spec/12 R201 to R215; spec/13 R222 to R232) -/

/-- base with a load of s3 and v4 outstanding, and a second load after it. -/
def ldop (n : Nat) (ws : List RegWrite) (pv : List VReg) (ps : List SReg) : Op := ⟨n, .ld, true, false, ws, pv, ps, [.device], none, none, none⟩
def out2 : State :=
  (withFlow base fun f => { f with ops := [ldop 7 [.s 3 9, .v 4 2 8] [4] [3], ldop 8 [.s 5 1] [] [5]] }).setMe fun t =>
    { t with regs := { t.regs with pendS := 0x28, pendV := 0x10 } }

theorem test_completions :
    got (.loadComplete 5 7) out2 (fun t => (t.me.s 3, lanes 4 3 t, t.me.regs.pendS, t.me.regs.pendV, t.me.flow.ops.map (·.id))) =
      some (9, [0, 0, 8], 0x20, 0, [8]) := by decide +kernel

theorem test_completion_order :
    got (.loadComplete 5 8) out2 (fun t => (t.me.s 5, t.me.regs.pendS, t.me.flow.ops.map fun o => (o.id, o.done))) = some (1, 8, [(7, false), (8, true)]) ∧
    got (.storePerformed 5 7) out2 (fun t => t.me.flow.ops.length) = some 2 := by decide +kernel

/-- base waiting for a reply of the pipe that writes v2 and its tag, with a reply to the fill path behind it; and its group reconstructing v2 and v3. -/
def piped : State :=
  (withFlow base fun f => { f with hold := .xfrm }).updCore 0 fun c => { c with pipe := [⟨some 5, [(2, List.replicate 32 7, 3)], 0, 0, 0, 0⟩, ⟨none, [], 9, 1, 0, 0⟩] }
def rebuilds : State := withFlow piped fun f => { f with hold := .none, rebuild := [2, 3] }

theorem test_pipe_reply :
    got (.transformPipeReply 0) piped (fun t => (lanes 2 2 t, t.me.tag 2, t.me.flow.hold, (t.core 0).pipe.length)) = some ([7, 7], 3, .none, 1) := by decide +kernel

theorem test_witness_RepliesWriteTheirResults :
    (∃ q rest, (piped.core 0).pipe = q :: rest ∧ q.tid = some piped.me.id.tid ∧ piped.me.flow.hold = .xfrm ∧ piped.me.flow.rebuild = [] ∧ (q.regs.map (·.1)).Nodup) ∧
    (∃ q rest, (rebuilds.core 0).pipe = q :: rest ∧ q.tid = some rebuilds.me.id.tid ∧ rebuilds.me.flow.rebuild.tail = [3] ∧ (q.regs.map (·.1)).Nodup) ∧
    (∃ q, (((piped.updCore 0 fun c => { c with pipe := c.pipe.tail })).core 0).pipe = [q] ∧ q.tid = none) ∧
    completes 5 7 (.loadComplete 5 7) = some .ld ∧ completes 5 7 (.storePerformed 5 7) = some .st ∧ out2.team? 9 = none ∧ out2.team? 5 = some out2.me ∧
    (out2.me.flow.ops.find? (·.id == 9) = none ∧ out2.me.flow.ops.find? (·.id == 7) = some (ldop 7 [.s 3 9, .v 4 2 8] [4] [3]) ∧ (out2.me.flow.ops.map (·.id)).Nodup) :=
  ⟨⟨⟨some 5, [(2, List.replicate 32 7, 3)], 0, 0, 0, 0⟩, [⟨none, [], 9, 1, 0, 0⟩], by decide +kernel⟩,
   ⟨⟨some 5, [(2, List.replicate 32 7, 3)], 0, 0, 0, 0⟩, [⟨none, [], 9, 1, 0, 0⟩], by decide +kernel⟩, ⟨⟨none, [], 9, 1, 0, 0⟩, by decide +kernel⟩,
   by decide +kernel, by decide +kernel, by decide +kernel, by decide +kernel, by decide +kernel⟩

/-- A team that has ended, with and without a sibling of its sub-launch; a bundle of a gang and another sub-launch. -/
def gsub : Sub := ⟨⟨0, 1, 1, 0, 0, 0, 0, 0⟩, none, 1, none, 0, none, [], [0], true, false, false⟩
def ended : State := withFlow { base with bundles := [{ bund0 with subs := [gsub, gsub] }] } fun f => { f with ended := true }
def sibling : State := { ended with teams := [{ team with id := { team.id with tid := 6 } }] }

/-- A diverged team of two words, each with one lane; an aged team; two dirty sectors, one pinned. -/
def thin : State := withCtl base fun c => { c with em := 0x100000001, stack := [⟨false, 0x700, 0x300000003⟩] }
def old : State := base.setMe fun t => { t with sch := { t.sch with age := 65536 } }
def dirty1 (pinned : Bool) : State := { base with dirty := [⟨0, 0x100000, 5, some 20, 1, 0, 0x100000, [(0x100001, 7), (0x100003, 8)], pinned⟩] }

theorem test_team_events :
    got (.teamSlotRelease 5) sibling (fun t => (t.team? 5).isNone) = some true ∧
    got (.teamSlotRelease 5) ended (fun t => ((t.team? 5).isNone, t.bundles.map fun b => b.subs.map (·.done))) = some (true, [[true, false]]) ∧
    got (.teamAged 5) { old with now := 45 } (·.me.sch.aged) = some (some 9) ∧ got (.teamAged 5) base (·.me.sch.aged) = some none ∧
    got (.regather 5) thin (·.me.flow.regath.isSome) = some true ∧
    got (.l1Writeback 0 0x100000) (dirty1 false) (fun t => (t.homeNat 0x100000 4, t.dirty.length)) = some (0x08000700, 0) ∧
    got (.l1Writeback 0 0x100000) (dirty1 true) (fun t => (t.homeNat 0x100000 4, t.dirty.length)) = some (0, 1) := by decide +kernel

/-- An evicted team whose wait is over, with its queue and an image that has no chunks, its CRC32C worked out by hand. -/
def evicted : State :=
  { withMem (withMem base 0x800000 [0x46, 0x49, 0x52, 0x4E]) 0x8000FC [0xFE, 0x52, 0xF6, 0x68] with
    me := .absent, teams := [{ team with place := .evicted, sch := { team.sch with ready := some 3 } }], bundles := [bund0]
    queues := [⟨20, 1, 0, 0x800, 0x10000, 4, 0, 0, 0, 0xFF, true, false, none, [], 0, false, false, false, false, none, [], []⟩]
    images := [⟨1, 1, 0, 20, 0, 0x800000, 0x8000, [5], [], none⟩], parts := Vector.replicate 32 (some 0) }

/-- The CRC-32C of a header with only its magic number, its byte 7 and ffail as the check takes them, in steps of some bytes. -/
theorem crc_of_magic : crc32c ([0x46, 0x49, 0x52, 0x4E] ++ List.replicate 40 0 ++ [0xFF, 0xFF, 0xFF, 0xFF] ++ List.replicate 204 0) = 0x68F652FE := by
  have h0 : [(0x46 : Byte), 0x49, 0x52, 0x4E].foldl (fun c b => crcBits 8 (c ^^^ b.setWidth 32)) 0xFFFFFFFF = 0x889A703F := by decide +kernel
  have h1 : (List.replicate 20 (0 : Byte)).foldl (fun c b => crcBits 8 (c ^^^ b.setWidth 32)) 0x889A703F = 0x144D70E1 := by decide +kernel
  have h2 : (List.replicate 20 (0 : Byte)).foldl (fun c b => crcBits 8 (c ^^^ b.setWidth 32)) 0x144D70E1 = 0xE9FD0C0B := by decide +kernel
  have h3 : [(0xFF : Byte), 0xFF, 0xFF, 0xFF].foldl (fun c b => crcBits 8 (c ^^^ b.setWidth 32)) 0xE9FD0C0B = 0x9A55A383 := by decide +kernel
  have h4 : (List.replicate 34 (0 : Byte)).foldl (fun c b => crcBits 8 (c ^^^ b.setWidth 32)) 0x9A55A383 = 0x594419CA := by decide +kernel
  have h5 : (List.replicate 34 (0 : Byte)).foldl (fun c b => crcBits 8 (c ^^^ b.setWidth 32)) 0x594419CA = 0x82F06C15 := by decide +kernel
  have h6 : (List.replicate 34 (0 : Byte)).foldl (fun c b => crcBits 8 (c ^^^ b.setWidth 32)) 0x82F06C15 = 0x8A1C40AA := by decide +kernel
  have h7 : (List.replicate 34 (0 : Byte)).foldl (fun c b => crcBits 8 (c ^^^ b.setWidth 32)) 0x8A1C40AA = 0xF77282E4 := by decide +kernel
  have h8 : (List.replicate 34 (0 : Byte)).foldl (fun c b => crcBits 8 (c ^^^ b.setWidth 32)) 0xF77282E4 = 0x0AB114DC := by decide +kernel
  have h9 : (List.replicate 34 (0 : Byte)).foldl (fun c b => crcBits 8 (c ^^^ b.setWidth 32)) 0x0AB114DC = 0x9709AD01 := by decide +kernel
  have hl : List.replicate 204 (0 : Byte) = List.replicate 34 0 ++ (List.replicate 34 0 ++ (List.replicate 34 0 ++ (List.replicate 34 0 ++
      (List.replicate 34 0 ++ List.replicate 34 0)))) := by decide +kernel
  have hm : List.replicate 40 (0 : Byte) = List.replicate 20 0 ++ List.replicate 20 0 := by decide +kernel
  unfold crc32c
  rw [hl, hm]
  simp only [List.foldl_append]
  rw [h0, h1, h2, h3, h4, h5, h6, h7, h8, h9]
  decide +kernel

def theImage : Image := ⟨1, 1, 0, 20, 0, 0x800000, 0x8000, [5], [], none⟩
def theQueue : Queue := ⟨20, 1, 0, 0x800, 0x10000, 4, 0, 0, 0, 0xFF, true, false, none, [], 0, false, false, false, false, none, [], []⟩

/-- The bytes of a header that its check takes. -/
def headerOf (s : State) (im : Image) : List Byte :=
  let h := s.homeBytes im.addr 256
  h.take 7 ++ [0] ++ (h.drop 8).take 36 ++ leBytes 4 0xFFFFFFFF ++ (h.drop 48).take 204

theorem image_ok (s : State) (im : Image) (x : Nat) (h1 : fieldAt (s.homeBytes im.addr 256) 0 4 = 0x4E524946)
    (h2 : fieldAt (s.homeBytes im.addr 256) 252 4 = x) (h3 : (s.imageChunks im).any (·.2) = false)
    (h4 : (crc32c (headerOf s im)).toNat = x) : s.imageFault im = none := by
  have h5 : s.headerFails im = false := by
    unfold State.headerFails
    unfold headerOf at h4
    simp only [h1, h2, h4, bne_self_eq_false, Bool.or_self]
  unfold State.imageFault
  rw [h5]
  simp [h3]

theorem image_sound : evicted.imageFault theImage = none := by
  have h : headerOf evicted theImage = [0x46, 0x49, 0x52, 0x4E] ++ List.replicate 40 0 ++ [0xFF, 0xFF, 0xFF, 0xFF] ++ List.replicate 204 0 := by decide +kernel
  have h4 : (crc32c (headerOf evicted theImage)).toNat = 0x68F652FE :=
    (congrArg (fun l => (crc32c l).toNat) h).trans ((congrArg BitVec.toNat crc_of_magic).trans (by decide))
  exact image_ok evicted theImage 0x68F652FE (by decide +kernel) (by decide +kernel) (by decide +kernel) h4

theorem test_witness_TeamEventsTakeEffect :
    (base.team? 9 = none ∧ base.me.ended = false) ∧
    (ended.me.ended = true ∧ ended.me.quiet = true ∧ ended.me.flow.ops = [] ∧ ended.team? 5 = some ended.me ∧
      (∃ v ∈ sibling.all, v.id.tid ≠ 5 ∧ v.id.bundle = sibling.me.id.bundle ∧ v.id.sub = sibling.me.id.sub ∧ v.id.pool = none) ∧
      (∀ v ∈ ended.all, v.id.tid ≠ 5 → v.id.bundle = some 30 → v.id.sub = ended.me.id.sub → v.id.pool ≠ none) ∧
      (ended.bundle? 30).any (fun x => x.subs[0]? == some gsub && x.subs[1]? == some gsub && gsub.rec_.kind != 2 && !gsub.done) = true) ∧
    (old.me.placed = true ∧ old.me.isAgent = false ∧ old.me.sch.aged = none ∧ (old.core 0).ageivl.toNat ≤ old.me.sch.age ∧ base.me.sch.age < (base.core 0).ageivl.toNat) ∧
    (thin.me.placed = true ∧ thin.me.ended = false ∧ thin.me.ctl.stack ≠ [] ∧ thin.me.quiet = true ∧ thin.me.flow.hold ≠ .xfrm ∧ thin.me.flow.park = none ∧
      thin.me.flow.group.open_ = false ∧ thin.me.flow.rebuild = [] ∧ 2 * ((lanesUsed thin.me.ctl.em + 31) / 32) ≤ wordsUsed thin.me.ctl.em) := by decide +kernel

theorem test_witness_TeamEventsTakeEffect_caches :
    base.dirtyAt 0 0x100000 = none ∧ (∀ b, ∃ d, (dirty1 b).dirtyAt 0 0x100000 = some d ∧ d.pinned = b ∧ d.ctx ≠ noCtx ∧ (d.bytes.map (·.1 % 32)).Nodup ∧
      ∃ s1, (dirty1 b).translate (d.core / 8) d.ctx d.gen .store d.va.toNat = (.ok 0x100000 0, s1)) ∧ Sound (dirty1 false) 0x100000 32 ∧
    Memory.wf (dirty1 false).mem = true :=
  ⟨by decide +kernel, fun b => ⟨⟨0, 0x100000, 5, some 20, 1, 0, 0x100000, [(0x100001, 7), (0x100003, 8)], b⟩, by cases b <;> decide +kernel, rfl,
    by cases b <;> decide, by cases b <;> decide, second (by cases b <;> decide +kernel)⟩, by unfold Sound; decide +kernel, by decide +kernel⟩

theorem test_witness_TeamEventsTakeEffect_restore :
    (∃ u, evicted.readyTeams = [u] ∧ evicted.imageOf u.id.tid = some theImage ∧ u.id.queue.bind evicted.queue? = some theQueue ∧
      evicted.spotFor u [] = some (0, 0, 0) ∧ evicted.team? u.id.tid = some u) ∧
    (∃ y, evicted.liveCtx? theImage.ctx theImage.gen = some y) ∧ (∀ u ∈ base.readyTeams, u.id.tid ≠ 5) ∧ evicted.evictable 20 = [] ∧
    ({ evicted with parts := Vector.replicate 32 none } : State).spotFor team [] = none :=
  ⟨⟨{ team with place := .evicted, sch := { team.sch with ready := some 3 } }, by decide +kernel, by decide +kernel, by decide +kernel, by decide +kernel, by decide +kernel⟩,
   ⟨_, rfl⟩, by decide +kernel, by decide +kernel, by decide +kernel⟩

/-- A team of 16 scalar registers with something in each section of its record, and s20, which a save does not keep (R58, R335, R336). -/
def kept : State :=
  withCtl (withV (withA (withS (withId base fun i => { i with kernel := { i.kernel with sregs := 16, regs := 16 } }) [(3, 7), (20, 9), (63, 11)]) [(2, 0x1234500000000000#80)])
    [(5, [1, 2, 3])]) fun c => { c with srstate := 0x77, stack := [⟨true, 0x300, 12⟩] }

theorem test_record_read_back :
    (let v := ({ team with id := kept.me.id } : Team).load (kept.teamRecord kept.me)
     (v.ctl.pc, v.s 3, v.s 20, v.s 63, v.a 2, (v.v 5).take 3) = (0x1000, 7, 0, 11, 0x1234500000000000#80, [1, 2, 3]) ∧
     (v.ctl.srstate, v.ctl.em, v.ctl.stack) = (0x77, low 4, [⟨true, 0x300, 12⟩])) := by decide +kernel

/-! ### Events of walks (spec/05 R87, R92; spec/13 R222 to R232) -/

/-- A walk of 17 by 17 whose tile (1, 1) is one element, in C slot 0 of core 0, with both operands of its one K-step in slot 0: A's row is
1, 2, 3, 4 and B's column 1, 1, 1, 1; the element holds 0.5. -/
def rec17 : WalkRec :=
  { m := 17, n := 17, k := 4, afmt := 0, bfmt := 0, order := 0, band := 1, tileM := 16, tileN := 16, assign := 0, splitk := 1, finish := 0, look := 1,
    inflight := 1, prio := 0, flags := 0, taint := 0, asrc := 0, bsrc := 0, csink := 0, aentry := 0x300, bentry := 0x400, centry := 0x500, apool := 1,
    bpool := 1, cpool := 1, atlr := 0, btlr := 0, ctlr := 0, htab := 0, signal := 0, crec := 0, kbuf := 0x200000, stall := 100, asnap := [], bsnap := [],
    csnap := [] }
def walk17 (r : WalkRec) : Walk :=
  { id := 50, wid := 77, ctx := 1, gen := 0, queue := 20, bundle := 30, sub := 0, rec_ := r, kernel := .zero, cores := [0], tiles := 0, tainted := 0,
    ftaint := none, tTiles := [], flushed := [], upa := 0, upb := 0, upc := 0, reraise := 0, gcomp := 0, gskip := 0, stalls := 0, starve := 0, upwait := 0,
    err := none, ended := false }
def slot17 (st : Nat) : CSlot := ⟨3, 1, 1, 0, st, 0, false, true, 0, 1, 0, 0, 0, 0, false, false, []⟩
def eng17 (st : Nat) (ready : Bool) : WalkCore :=
  { walk := 50, idx := 0, items := [], cursor := 0, array := none, aslots := [⟨true, 0, 0, ready, false, true⟩], bslots := [⟨true, 0, 0, ready, false, true⟩],
    cslots := [slot17 st, CSlot.free, CSlot.free, CSlot.free], fifoA := [], fifoB := [], fifoC := [], stopReq := false, stopped := false, starve := 0, upwait := 0,
    stalls := 0, gcomp := 0, gskip := 0, ksteps := 0, tiles := 0, lastAdv := 0, stalled := false, eng := ⟨[], []⟩ }
def wk (r : WalkRec) (e : WalkCore) : State :=
  let s := withMem (withMem (withMem base (opKey 0 false 0 0) [0, 0, 0x80, 0x3F, 0, 0, 0, 0x40, 0, 0, 0x40, 0x40, 0, 0, 0x80, 0x40]) (opKey 0 true 0 0)
    [0, 0, 0x80, 0x3F, 0, 0, 0x80, 0x3F, 0, 0, 0x80, 0x3F, 0, 0, 0x80, 0x3F]) (cKey 0 0 0) [0, 0, 0, 0x3F]
  { s with walks := [walk17 r], now := 2500
           queues := [⟨20, 1, 0, 0x800, 0x10000, 4, 0, 0, 0x900, 1, true, false, none, [], 0, false, false, false, false, none, [], []⟩] }.updCore 0 fun c => { c with walk := some e }
def begun : State := after (.kstepBegin 0) (wk rec17 (eng17 1 true))

/-- 1 + 2 + 3 + 4 + 0.5 = 10.5; the one step done, the tile is due to its consumer. -/
theorem test_ksteps :
    got (.kstepBegin 0) (wk rec17 (eng17 1 true)) (fun t => (t.homeNat (cKey 0 0 0) 4, (t.core 0).walk.map (·.array))) = some (0x41280000, some (some 0)) ∧
    got (.kstepBegin 0) (wk rec17 (eng17 1 false)) (fun t => t.homeNat (cKey 0 0 0) 4) = some 0x3F000000 ∧
    got (.kstepBoundary 0) begun (fun t => (t.core 0).walk.map fun e => (e.array, e.ksteps, e.lastAdv)) = some (some (none, 1, 500)) ∧
    got (.kstepBoundary 0) begun (fun t => (t.core 0).walk.map fun e => e.cslots.map fun c => (c.state, c.kprog)) =
      some (some [(3, 1), (0, 0), (0, 0), (0, 0)]) := by decide +kernel

/-- The walk split in two parts, with a part that waits to merge: its tile's region at 0x200000 + 1088 counts 0. -/
def split : State := wk { rec17 with splitk := 2 } (eng17 2 true)

theorem test_split : got (.splitkArrival 0 0) split (fun t => (t.homeNat (0x200000 + 1088) 4, t.homeNat (0x200000 + 1152) 4, t.walks.map (·.flushed))) =
    some (1, 0x3F000000, [[1]]) := by decide +kernel

/-- A fill of slot 0 of the A-store from a record of 4 by 17 FP32 elements at 0x300000, whose last row is 1, 2, 3, 4. -/
def tlr17 : List Byte :=
  [0, 0, 0x30] ++ List.replicate 13 0 ++ [0, 2, 0, 0] ++ List.replicate 4 0 ++ [4, 0, 0, 0, 17, 0, 0, 0, 1, 0, 0, 0, 1, 0, 0, 0, 1, 0, 0, 0] ++ [4] ++ List.replicate 83 0
def filling : State := withMem (wk { rec17 with asrc := 1, asnap := tlr17, bsnap := tlr17 } (eng17 1 false)) 0x300100 [0, 0, 0x80, 0x3F, 0, 0, 0, 0x40, 0, 0, 0x40, 0x40, 0, 0, 0x80, 0x40]
/-- A drain of the tile through a record of 17 by 17 elements at 0x300000. -/
def ctlr17 : List Byte :=
  [0, 0, 0x30] ++ List.replicate 13 0 ++ [0, 2, 0, 0] ++ List.replicate 4 0 ++ [17, 0, 0, 0, 17, 0, 0, 0, 1, 0, 0, 0, 1, 0, 0, 0, 1, 0, 0, 0] ++ [17] ++ List.replicate 83 0
def draining : State := wk { rec17 with csink := 1, csnap := ctlr17 } (eng17 5 true)

theorem test_streams :
    got (.streamFillComplete 0 false 0) filling (fun t => ((t.core 0).walk.map fun e => e.aslots.map (·.ready), t.homeNat (opKey 0 false 0 8) 4)) =
      some (some [true], 0x40400000) ∧
    got (.streamDrainComplete 0 0) draining (fun t => (t.homeNat (0x300000 + 4 * (16 * 17 + 16)) 4, t.walks.map (·.tiles))) = some (0x3F000000, [1]) := by decide +kernel

/-- A producer's upcall that waits, and an idle team of the pool. -/
def idle : State :=
  (withFlow (wk rec17 { eng17 1 false with fifoA := [⟨0, 0, 0, false⟩] }) fun f => { f with hold := .poolIdle }).setMe fun t =>
    { t with id := { t.id with pool := some ⟨50, 0⟩ } }

theorem test_upcalls_and_stalls :
    got (.upcallDelivery 0 0) idle (fun t => (t.me.flow.upcall, pcOf t, t.me.ctl.em, t.me.s 5)) = some (some ⟨0, 0, 0, 0, false⟩, (0x300, 0), low 32, 77) ∧
    got (.walkStallReport 0) (wk rec17 (eng17 1 false)) (fun t => (t.homeNat 0x900 8, (t.core 0).walk.map fun e => (e.stalls, e.stalled))) =
      some (0xFFFFFFFFFFFFFFFF, some (1, true)) := by decide +kernel

theorem test_witness_WalkEventsAndUpcalls_upcalls :
    (idle.core 0).walk.isSome = true ∧ idle.idleTeam 50 0 0 = some idle.me ∧ ((idle.core 0).walk.any fun e => e.fifo 0 == [⟨0, 0, 0, false⟩] && e.fifo 1 == [] && !e.stopReq) = true ∧
    idle.walk? 50 = some (walk17 rec17) ∧ (base.core 0).walk = none := by decide +kernel

theorem test_witness_WalkEventsAndUpcalls_ksteps :
    Runs (wk rec17 (eng17 1 true)) 0 (eng17 1 true) (walk17 rec17) ∧ ((eng17 1 true).array = none ∧ (eng17 1 true).stopReq = false ∧
      ((wk rec17 (eng17 1 true)).core 0).dbg = .running ∧ (eng17 1 true).started.find? (eng17 1 true).stepReady = some 0 ∧ (eng17 1 true).cslots[0]? = some (slot17 1) ∧
      opSlotOf (eng17 1 true).aslots 0 0 = some (0, ⟨true, 0, 0, true, false, true⟩) ∧ opSlotOf (eng17 1 true).bslots 0 0 = some (0, ⟨true, 0, 0, true, false, true⟩)) ∧
    Memory.wf (wk rec17 (eng17 1 true)).mem = true ∧ (eng17 1 false).started.find? (eng17 1 false).stepReady = none ∧
    Runs begun 0 { eng17 1 true with array := some 0 } (walk17 rec17) := by unfold Runs; decide +kernel

theorem test_witness_WalkEventsAndUpcalls_elements : Sound (wk rec17 (eng17 1 true)) (cKey 0 0 0) 131072 ∧ 0 < rec17.rowsOf (slot17 1).trow ∧ 0 < rec17.colsOf (slot17 1).tcol ∧
    Sound split (cKey 0 0 0) (4 * 16 * 16) ∧ Sound split (0x200000 + 1088) rec17.regionLen :=
  ⟨sound_all _ _ _ (by decide +kernel) (.inr (by decide)), by decide, by decide, sound_all _ _ _ (by decide +kernel) (.inr (by decide)),
   sound_all _ _ _ (by decide +kernel) (.inl (by decide))⟩

/-- The keys that the engine of split reaches for its tile's region. -/
def regionKeys : Option (Option (List (Nat × Nat × Nat))) :=
  (split.engineKeys ((walk17 { rec17 with splitk := 2 }).client 0) ⟨[], []⟩ .atomic (pages (rec17.regionLen / 4096 + 2) (0x200000 + 1088) rec17.regionLen)).1

theorem test_witness_WalkEventsAndUpcalls_split :
    Runs split 0 (eng17 2 true) (walk17 { rec17 with splitk := 2 }) ∧ (slot17 2).state = 2 ∧ (slot17 2).arrived = false ∧ rec17.finish = 0 ∧
    { rec17 with splitk := 2 }.region ((slot17 2).tile { rec17 with splitk := 2 }) = 0x200000 + 1088 ∧ regionKeys = some (some [(0x200440, 1088, 0x200440)]) ∧
    homeWord split 0x200440 4 = 0 ∧ 0 + 1 ≠ { rec17 with splitk := 2 }.splitk ∧ Memory.wf split.mem = true := by unfold Runs; decide +kernel

theorem test_witness_WalkEventsAndUpcalls_streams :
    (Runs filling 0 (eng17 1 false) (walk17 { rec17 with asrc := 1, asnap := tlr17, bsnap := tlr17 }) ∧
      ((filling.fillRows ((walk17 rec17).client 0) ⟨[], []⟩ (parseTlr tlr17) 16 1 0 4).1.any fun x =>
        ((List.range 1).flatMap (slotRow x.2.1 x.2.2)).all (·.2 == 0) && decide (((List.range 1).flatMap (slotRow x.2.1 x.2.2)).length ≤ 18432)) = true) ∧
    (Runs draining 0 (eng17 5 true) (walk17 { rec17 with csink := 1, csnap := ctlr17 }) ∧ (slot17 5).state = 5 ∧
      ((draining.drainBytes 0 0 { rec17 with csink := 1, csnap := ctlr17 } (slot17 5)).any fun bs =>
        (let gs := (farSectors bs).filter (fun g => !(slot17 5).drained.contains g.1)
         let r := draining.drainSectors (walk17 { rec17 with csink := 1, csnap := ctlr17 }) 0 ⟨[], []⟩ gs
         r.1.length == gs.length && !gs.isEmpty && !r.2.1)) = true ∧
      draining.halted 0 = false ∧ 0 + 1 ≠ rec17.tiles) ∧
    (rec17.stall ≠ 0 ∧ (eng17 1 false).hasWork = true ∧ (eng17 1 false).lastAdv + rec17.stall ≤ (wk rec17 (eng17 1 false)).matCyc 0 ∧
      (wk rec17 (eng17 1 false)).agentKey 1 0 .atomic 0x900 = some 0x900) := by unfold Runs; decide +kernel

/-! ### Events of queues and pre-emption (spec/14 R236 to R248; spec/23 R330, R331; spec/24 R343) -/

/-- A queue of two slots at 0x10000 with its descriptor at 0x800 and its error signal at 0x900; core 0 holds ticket 0, and the packet of
slot 0 begins with the bytes given. Its context holds every cluster. -/
def qq : Queue := ⟨20, 1, 0, 0x800, 0x10000, 1, 0, 0, 0x900, 0xFF, true, false, none, [(0, 0)], 0, false, true, false, false, none, [], []⟩
def qs (packet : List Byte) : State :=
  { withMem (withMem (withMem (withMem base 0x800 [0, 0, 1, 0, 0, 0, 0, 0, 0, 0, 0, 0, 0, 0, 0, 0, 1, 0, 0, 0, 1]) 0x830 [0, 9]) 0x840 [0xFF]) 0x10000 packet with
    queues := [qq], parts := Vector.replicate 32 (some 0), me := .absent }
def nop : List Byte := [1]
def waits : List Byte := [3, 0, 1, 0, 0, 0, 0, 0, 0, 9]
def adds : List Byte := [4, 0, 0, 0, 0, 0, 0, 0, 0, 9, 0, 0, 0, 0, 0, 0, 0, 0, 0, 0, 0, 0, 0, 0, 5]

theorem test_queue_events :
    got (.ticketClaim 20 1) (qs nop) (fun t => (t.homeNat 0x828 8, t.queues.map (·.tickets))) = some (1, [[(0, 0), (1, 0)]]) ∧
    got (.packetDispatch 20) (qs nop) (fun t => (t.homeNat 0x10000 8, t.homeNat 0x820 8, t.queues.map (·.next))) = some (0, 1, [1]) ∧
    got (.packetDispatch 20) (qs [9]) (fun t => (t.homeNat 0x811 1, t.homeNat 0x860 1, t.homeNat 0x900 8)) = some (1, 1, 0xFFFFFFFFFFFFFFFF) ∧
    got (.waitSignalsDispatch 20) (qs waits) (fun t => t.queues.map (·.next)) = some [1] ∧
    got (.waitSignalsDispatch 20) (withMem (qs waits) 0x900 [1]) (fun t => t.queues.map (·.next)) = some [0] := by decide +kernel

theorem test_signal_packet : got (.signalPacketPerform 20) (qs adds) (fun t => (t.homeNat 0x900 8, t.homeNat 0x10000 8, t.queues.map (·.next))) = some (5, 0, [1]) := by
  decide +kernel

/-- A bundle that is to be placed, and one that is placed. -/
def waitingB : Bundle := { bund0 with ticket := 0, phase := 0, subs := [gsub1], nextTry := 5, backoff := 1000, since := 1, cstores := [] }
/-- The state at a time in nanoseconds. -/
def at_ (s : State) (n : Nat) : State := { s with time := { s.time with timeb := BitVec.ofNat 64 n } }
def placing : State := at_ { qs nop with bundles := [waitingB] } 100
def placedB : State :=
  at_ { qs nop with bundles := [{ waitingB with phase := 1, startAt := 50 }], me := { team with flow := { team.flow with hold := .unstarted } } } 100

theorem test_bundle_start :
    got (.bundleStart 30) placedB (fun t => (t.me.flow.hold, t.bundles.map (·.phase))) = some (.none, [2]) ∧
    got (.bundleStart 30) (at_ placedB 49) (fun t => (t.me.flow.hold, t.bundles.map (·.phase))) = some (.unstarted, [1]) := by decide +kernel

/-- A queue whose one team has waited for a signal for the whole interval. -/
def stuckQ : State :=
  { qs [] with me := { team with id := { team.id with gang := some 60 }, flow := { team.flow with ops := [⟨7, .sg, false, false, [], [], [3], [.device], none, none, none⟩] } },
               waits := [⟨8, 0, 5, 7, 3, 0x900, 0, none, none⟩], now := 12000000000 }

theorem test_stall_check : got .queueStallCheck stuckQ (fun t => (t.homeNat 0x860 1, t.homeNat 0x900 8, t.queues.map (·.reported))) =
    some (3, 0xFFFFFFFFFFFFFFFF, [true]) := by decide +kernel

/-- What the words and events on a queue touch: its descriptor, its first slot, its signal. -/
def queuePlaces : List (Nat × Nat) := [(0x800, 128), (0x10000, 64), (0x900, 8)]

/-- The agents reach such a queue whatever its bytes are. -/
theorem queue_at {s : State} {q : Queue}
    (h : (Memory.wf s.mem = true ∧ s.liveCtx? 1 0 = some ctx0 ∧ s.walkTables 0x1000 (4096 * 0) = .leaf leaf0 ∧ s.walkTables 0x1000 (4096 * 16) = .leaf leaf0) ∧
      (∀ p ∈ [0, 16], ∀ pa ∈ walkPlaces s.entry (4096 * p) levels 0x1000, ∀ w ∈ queuePlaces, pa + 64 ≤ w.1 ∨ w.1 + w.2 ≤ pa) ∧
      (∀ off < 128, s.permit leaf0 .store (0x800 + off) = .ok (0x800 + off) 0) ∧
      (s.permit leaf0 .store 0x10000 = .ok 0x10000 0 ∧ s.permit leaf0 .atomic 0x900 = .ok 0x900 0) ∧ (s.poison = [] ∧ s.linkWaits 0x900 = false) ∧
      q.ctx = 1 ∧ q.gen = 0 ∧ q.desc = 0x800 ∧ q.slotVa q.next = 0x10000) : QueueAt s q 0x900 0x800 0x10000 0x900 := by
  obtain ⟨⟨h1, h2, h3, h4⟩, h5, h6, ⟨h7, h8⟩, ⟨h9, h10⟩, h11, h12, h13, h14⟩ := h
  have q0 : PageAt s ctx0 0 leaf0 queuePlaces := ⟨h1, h2, h3, h5 0 (by simp)⟩
  have q1 : PageAt s ctx0 16 leaf0 queuePlaces := ⟨h1, h2, h4, h5 16 (by simp)⟩
  have ho : ∀ a, Within 0x800 128 a ∨ Within 0x10000 64 a ∨ Within 0x900 8 a → ∃ w ∈ queuePlaces, Within w.1 w.2 a := fun a h => by
    rcases h with h | h | h
    · exact ⟨(0x800, 128), by simp [queuePlaces], h⟩
    · exact ⟨(0x10000, 64), by simp [queuePlaces], h⟩
    · exact ⟨(0x900, 8), by simp [queuePlaces], h⟩
  refine ⟨h1, fun off hoff => ?_, ?_, ?_, fun a => ?_, ⟨?_, ?_, ?_⟩, by decide, h10⟩
  · have e : ((0x800 : W80) + BitVec.ofNat 80 off).toNat = 0x800 + off := by
      rw [BitVec.toNat_add, BitVec.toNat_ofNat, show (0x800 : W80).toNat = 0x800 from by decide]
      omega
    rw [h11, h12, h13]
    exact q0.steady ho (by rw [e]; omega) (by rw [e]; exact h6 off hoff)
  · rw [h11, h12, h14]
    exact q1.steady ho (by decide) h7
  · rw [h11, h12]
    exact q0.steady ho (by decide) h8
  · simp only [Within]; omega
  all_goals exact sound_all _ _ _ h9 (.inl (by decide))

/-- Packets whose signals lead nowhere: of a launch, a wait for signals, an addition. -/
def badLaunch : List Byte := [2, 0, 1] ++ List.replicate 21 0 ++ [1]
def badWaits : List Byte := [3, 0, 1, 0, 0, 0, 0, 0, 0, 0, 0, 0, 0, 0, 0, 0, 1]
def badAdds : List Byte := [4, 0, 0, 0, 0, 0, 0, 0, 0, 0, 0, 0, 0, 0, 0, 0, 1]

theorem test_witness_QueueEventsServeTheQueue_at (p : List Byte) (hp : p ∈ [nop, [9], waits, adds, badLaunch, badWaits, badAdds]) : QueueAt (qs p) qq 0x900 0x800 0x10000 0x900 := by
  simp only [List.mem_cons, List.not_mem_nil, or_false] at hp
  rcases hp with rfl | rfl | rfl | rfl | rfl | rfl | rfl <;> exact queue_at (by decide +kernel)

theorem test_witness_QueueEventsServeTheQueue_signals :
    (qs badLaunch).head qq = .packet (badLaunch ++ List.replicate 39 0) ∧
    (BitVec.ofNat 80 (fieldAt (badLaunch ++ List.replicate 39 0) 16 10) ::
      (qs badLaunch).recSignals qq ((qs badLaunch).chain qq (2 ^ 80) [] (fieldAt (badLaunch ++ List.replicate 39 0) 32 10)).1).all ((qs badLaunch).signalOk 1 0) = false ∧
    (qs badWaits).head qq = .packet (badWaits ++ List.replicate 47 0) ∧ (waitSigs (badWaits ++ List.replicate 47 0)).all ((qs badWaits).signalOk 1 0) = false ∧
    (qs badAdds).head qq = .packet (badAdds ++ List.replicate 47 0) ∧ (qs badAdds).signalOk 1 0 (BitVec.ofNat 80 (fieldAt (badAdds ++ List.replicate 47 0) 8 10)) = false := by
  decide +kernel

theorem test_witness_QueueEventsServeTheQueue_packets :
    (qs nop).queue? 20 = some qq ∧ (qs nop).queue? 9 = none ∧ (qs nop).serving qq = true ∧ 1 ∈ (qs nop).coresOf qq ∧ (∀ p ∈ qq.tickets, p.1 ≠ 1) ∧ 9 ∉ (qs nop).coresOf qq ∧
    (qs nop).descGet qq 17 1 ≠ none ∧ (qs nop).agentKey 1 0 .atomic (qq.desc + 40) = some 0x828 ∧
    (qs nop).head qq = .packet (nop ++ List.replicate 63 0) ∧ (qs [9]).head qq = .bad 1 ∧ (qs []).head qq = .idle ∧
    (qs waits).head qq = .packet (waits ++ List.replicate 54 0) ∧ (qs adds).head qq = .packet (adds ++ List.replicate 39 0) ∧
    (waitSigs (waits ++ List.replicate 54 0)).all ((qs waits).signalOk 1 0) = true ∧ (waitSigs (waits ++ List.replicate 54 0)).all ((qs waits).signalLow qq) = true ∧
    (waitSigs (waits ++ List.replicate 54 0)).all ((withMem (qs waits) 0x900 [1]).signalLow qq) = false ∧ (qs adds).signalOk 1 0 0x900 = true := by decide +kernel

/-- placing where no core can be used. -/
def noRoom : State := { placing with parts := Vector.replicate 32 none }

theorem test_placement :
    got (.placementRetry 20) placing (fun t => t.bundles.map fun b => (b.phase, b.placedAt, b.startAt)) = some [(1, 100, 1100)] ∧
    got (.placementRetry 20) noRoom (fun t => t.bundles.map fun b => (b.phase, b.backoff, b.nextTry)) = some [(0, 2000, 2100)] ∧
    got (.placementRetry 20) (at_ noRoom 4) (fun t => t.bundles.map fun b => (b.phase, b.backoff, b.nextTry)) = some [(0, 1000, 5)] := by decide +kernel

theorem test_witness_QueueEventsServeTheQueue_placement :
    placing.queue? 20 = some qq ∧ placing.placing 20 = [waitingB] ∧ placing.bundle? 30 = some waitingB ∧ (at_ placing 4).timeB < waitingB.nextTry ∧
    waitingB.nextTry ≤ placing.timeB ∧ placing.readyTeams = [] ∧ (placing.plan qq waitingB none []).isSome = true ∧ qq.spolicy ≠ 2 ∧
    noRoom.plan qq waitingB none [] = none ∧ noRoom.evictable 20 = [] ∧ noRoom.placing 20 = [waitingB] := by decide +kernel

/-- The bundle under strict, its start time past: it is aborted with its signal at 0x900. -/
def strict : State :=
  at_ { qs nop with queues := [{ qq with spolicy := 2 }], bundles := [{ waitingB with start := 50, signal := 0x900 }] } 100

theorem test_strict_abort : got (.placementRetry 20) strict (fun t => (t.bundles.length, t.homeNat 0x900 8)) = some (0, 0xFFFFFFFFFFFFFFFF) := by decide +kernel

theorem test_witness_QueueEventsServeTheQueue_strict :
    (strict.queue? 20 = some { qq with spolicy := 2 } ∧ strict.placing 20 = [{ waitingB with start := 50, signal := 0x900 }] ∧
      (strict.plan { qq with spolicy := 2 } { waitingB with start := 50, signal := 0x900 } none []).isSome = true ∧ waitingB.late = false ∧ waitingB.ticket = qq.next) ∧
    QueueAt strict { qq with spolicy := 2 } 0x900 0x800 0x10000 0x900 := ⟨by decide +kernel, queue_at (by decide +kernel)⟩

theorem test_witness_QueueEventsServeTheQueue_start :
    (placedB.bundle? 30).any (fun x => x.phase == 1 && decide (x.startAt ≤ placedB.timeB) && x.subs.all (fun y => y.rec_.kind != 3) &&
      x.subs.any fun y => y.rec_.kind != 2 && !y.done) = true ∧ (at_ placedB 49).timeB < 50 ∧ (∀ w ∈ placedB.walks, w.bundle ≠ 30) ∧ placedB.bundle? 9 = none := by decide +kernel

/-- The queue of the state that the watchdog finds stuck. -/
theorem test_witness_QueueEventsServeTheQueue_stall :
    stuckQ.stallivl.toNat * 12 ≤ (stuckQ.cyc - stuckQ.lastStall) * 5 ∧ stuckQ.queues = [qq] ∧ stuckQ.stuckQueue qq = true ∧ qq.reported = false ∧
    (base.cyc - base.lastStall) * 5 < base.stallivl.toNat * 12 ∧ QueueAt stuckQ qq 0x900 0x800 0x10000 0x900 :=
  ⟨by decide +kernel, by decide +kernel, by decide +kernel, by decide +kernel, by decide +kernel, queue_at (by decide +kernel)⟩

/-- Two queues, of which the second is to give way to the first's bundle, which could not be placed for 50 microseconds: core 0, all that
they may use, is held by a team of the second. -/
def q2 (saving : Bool) (drain : Option Nat) (victim : Option Nat) (resident : Bool) : Queue :=
  ⟨21, 1, 0, 0x1800, 0x20000, 1, 0, 0, 0x900, 1, resident, saving, drain, [], 0, false, true, false, false, victim, [], []⟩
def pressed : State :=
  let full : Team := { team with id := { team.id with queue := some 21, bundle := some 31, m := 32 } }
  let q1 : Queue := { qq with cmask := 1, prio := 5 }
  at_ { qs nop with queues := [q1, q2 false none none true], bundles := [{ waitingB with backoff := 64000, since := 1 }, { bund0 with id := 31, queue := 21, subs := [gsub1] }],
                    parts := (Vector.replicate 32 none).set 0 (some 0),
                    teams := (List.range 4).flatMap fun sc => (List.range 16).map fun k =>
                      { full with id := { full.id with tid := 100 + 16 * sc + k }, place := .on 0 sc k } } 60000
def saveQ (drain : Option Nat) : State := at_ { qs nop with queues := [q2 true drain none true] } 100
def resumeQ : State := { qs nop with queues := [q2 false none (some 33) false] }

theorem test_preemption_events :
    got (.drainLimitExpiry 21) (saveQ (some 100)) (fun t => t.queues.map (·.drainBy)) = some [none] ∧
    got (.drainLimitExpiry 21) (saveQ (some 101)) (fun t => t.queues.map (·.drainBy)) = some [some 101] ∧
    got (.preemptSaveComplete 21) (saveQ none) (fun t => t.queues.map fun q => (q.resident, q.saving)) = some [(false, false)] ∧
    got (.queueAutoResume 21) resumeQ (fun t => t.queues.map fun q => (q.resident, q.victimOf)) = some [(true, none)] := by decide +kernel

theorem test_placement_pressure :
    got (.placementPressurePreempt 20) pressed (fun t => t.queues.map fun q => (q.saving, q.victimOf, q.drainBy)) =
      some [(false, none, none), (true, some 30, some 80000)] := by decide +kernel

theorem test_witness_PreemptionEventsSaveAndResume :
    ((pressed.placing 20).all (fun b => b.backoff != 0 && decide (b.since + 50000 ≤ pressed.timeB) && pressed.bundle? b.id == some b && (pressed.queue? 20).any fun x =>
      x.resident && !x.saving && (pressed.evictSet x.id fun gone => (pressed.plan x b none gone).isSome).isNone && (pressed.victim x b).isSome)) = true ∧
    (∀ z ∈ pressed.queues, z.victimOf ≠ some 30) ∧ (qs nop).placing 20 = [] ∧ pressed.placing 20 ≠ [] ∧
    ((saveQ (some 100)).queue? 21 = some (q2 true (some 100) none true) ∧ (saveQ (some 100)).timeB = 100) ∧
    ((saveQ none).saveReady (q2 true none none true) = true ∧ (q2 true none none true).rsmOps = [] ∧ (saveQ none).placedOf 21 = [] ∧ (saveQ none).walksOf 21 = []) ∧
    (saveQ (some 101)).saveReady (q2 false none none true) = false ∧
    (resumeQ.queue? 21 = some (q2 false none (some 33) false) ∧ resumeQ.bundle? 33 = none ∧ ∀ im ∈ resumeQ.images, im.kind = 0 → im.queue ≠ 21) := by decide +kernel

/-! ### The host, energy, time, errors, reset (spec/01 R19, R20; spec/08 R156; spec/18 R285 to R287; spec/19; spec/20 R304, R305; spec/22; spec/23) -/

/-- base with links up and frame 0x100 exported to device 7. -/
def hb : State := { base with links := Vector.replicate 33 ⟨1, 0, 0, false⟩, exports := [(0x100, 7)] }

/-- A remote request over any link that is up, and over any that is DOWN. -/
theorem remote_up {α : Type} {s : State} {f : State → α} {dev pa : Nat} {k : RemoteKind} (h : s.links = Vector.replicate 33 ⟨1, 0, 0, false⟩) (hb : s.boot = .up) :
    got (.remoteRequest dev pa k) s f = some (f (if s.exported dev pa (remoteBytes k) then s.remoteServe pa k else s.remoteAnswer false [])) := by
  simp [got, exec, execRemoteRequest, State.arrive, h, hb]

theorem remote_down {α : Type} {s : State} {f : State → α} {dev pa : Nat} {k : RemoteKind} (h : s.links = Vector.replicate 33 ⟨0, 0, 0, false⟩) (hb : s.boot = .up)
    (hf : ∀ u i, f ((s.report 3 u i 0xFFFFFFFF 0 0 pa).remoteAnswer true (remotePoison k)) = f (s.remoteAnswer true (remotePoison k))) :
    got (.remoteRequest dev pa k) s f = some (f (s.remoteAnswer true (remotePoison k))) := by
  simp [got, exec, execRemoteRequest, State.arrive, h, hb, hf]

theorem test_host_and_remote :
    got (.hostStore 0x100004 [1, 2, 3]) hb (fun t => (t.homeNat 0x100000 8, t.outside.acked)) = some (0x03020100000000, 1) ∧
    got (.hostLoad 0x1000 2) hb (·.outside.hostData) = some [1, 0] ∧
    got (.remoteRequest 7 0x100008 (.atomic .add .w64 5 0)) (withMem hb 0x100008 [3]) (fun t => (t.homeNat 0x100008 8, t.outside.remoteData.take 1, t.outside.remoteOk)) =
      some (8, [3], true) ∧
    got (.remoteRequest 8 0x100008 (.store [5])) hb (fun t => (t.homeNat 0x100008 8, t.outside.remoteOk)) = some (0, false) ∧
    got (.remoteRequest 7 0x100008 (.store [5])) hb (fun t => (t.homeNat 0x100008 8, t.outside.remoteOk)) = some (5, true) ∧
    got (.frameExport 0x200000 9) hb (·.exports) = some [(0x200, 9), (0x100, 7)] := by
  rw [remote_up rfl rfl, remote_up rfl rfl, remote_up rfl rfl]
  decide +kernel

/-- Every other atomic of a remote device on 5, with the operand 3, answers 5; cas writes its second operand where the first is the old value. -/
theorem test_remote_atomics :
    [RemoteOp.sub, .min, .max, .minn, .maxn, .and, .or, .xor, .xchg].map (fun op => got (.remoteRequest 7 0x100008 (.atomic op .w32 3 0)) (withMem hb 0x100008 [5])
      fun t => (t.homeNat 0x100008 8, t.outside.remoteData)) = [2, 3, 5, 3, 5, 1, 7, 6, 3].map (fun x => some (x, [5, 0, 0, 0])) ∧
    got (.remoteRequest 7 0x100008 (.atomic .cas .w64 5 9)) (withMem hb 0x100008 [5]) (fun t => t.homeNat 0x100008 8) = some 9 ∧
    got (.remoteRequest 7 0x100008 (.atomic .cas .w64 4 9)) (withMem hb 0x100008 [5]) (fun t => t.homeNat 0x100008 8) = some 5 ∧
    got (.remoteRequest 7 0x100008 (.atomic .addF .w32 0x3F800000 0)) (withMem hb 0x10000A [0x80, 0x3F]) (fun t => t.homeNat 0x100008 8) = some 0x40000000 := by
  have h : ∀ a bs, (withMem hb a bs).links = Vector.replicate 33 ⟨1, 0, 0, false⟩ ∧ (withMem hb a bs).boot = .up := fun a bs => ⟨rfl, rfl⟩
  simp only [remote_up (h _ _).1 (h _ _).2]
  decide +kernel

/-- hb with its links DOWN, or retraining. -/
def hbl (st : Nat) : State := { hb with links := Vector.replicate 33 ⟨st, 0, 0, false⟩ }

theorem test_host_links :
    got (.hostLoad 0x1000 2) (hbl 0) (fun t => (t.outside.hostData, reps t)) = some ([0xFF, 0xFF], [(3, 0)]) ∧
    got (.hostStore 0x100004 [1]) (hbl 0) (fun t => (t.homeNat 0x100004 1, t.outside.acked, reps t)) = some (0, 0, [(3, 0)]) ∧
    got (.remoteRequest 7 0x100008 (.load 1)) (hbl 0) (·.outside.remoteData) = some [0xFF] := by
  rw [remote_down rfl rfl fun u i => rfl]
  decide +kernel

theorem port_states (st : Nat) : portState (hbl st) 7 = st := by
  simp [portState, hbl]

theorem test_witness_HostAndRemoteRequestsAtHome :
    (∀ st, (hbl st).links[32].state = st ∧ portState (hbl st) 7 = st) ∧ hbl 1 = hb ∧
    State.reset.boot ≠ .up ∧ hb.boot = .up ∧ (∀ a < 4, hb.isDevice (0x100004 + a) = true) ∧ Sound hb 0x100004 4 ∧ Memory.wf hb.mem = true ∧ hb.deviceRange 0x1000 4 = true ∧
    (∀ p ∈ hb.poison, p + 32 ≤ 0x1000 ∨ 0x1004 ≤ p) ∧ hb.exported 8 0x100008 1 = false ∧ hb.exported 7 0x100008 8 = true ∧ Sound hb 0x100008 8 :=
  ⟨fun st => ⟨by simp [hbl], port_states st⟩, rfl, by unfold Sound; decide +kernel⟩

/-- The team parked on entry 3 for page 0x400, with an answer for it, or for another, in the ring. -/
def answered (mte code : Byte) : State :=
  let s := withMem base 0x100000 [mte, 0, 0, code, 1, 0, 0, 0, 0, 0, 0, 0]
  withFlow { s with merges := [⟨80, 0, 3, 1, 0, 0x400, false⟩], io := { s.io with prabase := 0x100000, pralog := 1, prawr := 1 } } fun f =>
    { f with park := some ⟨[(0, 0x400008, some 80)], [], 0, [], [], true⟩ }
/-- The same, with lanes 2 and 5 on two entries. -/
def answered2 (code : Byte) : State :=
  withFlow (answered 3 code) fun f => { f with park := some ⟨[(2, 0x400008, some 80), (5, 0x401008, some 81)], [], 0, [], [], false⟩ }
/-- The same, the context not live. -/
def answeredDead : State := { answered 3 0 with ctxs := (answered 3 0).ctxs.map fun c => { c with cstate := 2 } }

theorem test_page_answers :
    got .pageAnswer (answered 3 0) (·.merges.length) = some 0 ∧ got .pageAnswer (answered 3 0) (·.me.flow.park.map (·.waits.length)) = some (some 0) ∧
    got .pageAnswer (answered 3 0) (·.me.flow.park.map (·.faults.length)) = some (some 0) := by decide +kernel

theorem test_page_failures :
    got .pageAnswer (answered 3 1) (·.me.flow.park.map (·.faults.map (·.1))) = some (some [0]) ∧
    got .pageAnswer (answered 3 1) (·.me.flow.park.map (·.faults.map (·.2.hostfail))) = some (some [true]) ∧
    got .pageAnswer (answered 4 0) (fun t => (t.merges.length, t.ctxs.map (·.lateans), t.io.taken)) = some (1, [1], 1) ∧
    got .pageAnswer answeredDead (fun t => (t.merges.length, t.ctxs.map (·.lateans))) = some (0, [1]) ∧
    got .pageAnswer (answered2 0) (·.me.flow.park.map fun p => (p.waits.map (·.1), p.replay)) = some (some ([5], 4)) ∧
    got .pageAnswer (answered2 1) (·.me.flow.park.map fun p => (p.waits.map (·.1), p.faults.map (·.1), p.replay)) = some (some ([5], [2], 0)) := by decide +kernel

/-- A halted core, quiet or not. -/
def halted (st : DbgState) : State := base.updCore 3 fun c => { c with dbg := st }

theorem test_host_registers :
    got (.pwrlimWrite 9000) base (·.pwrlim) = some 3000 ∧ got (.ringBaseWrite 0x305 9) base (·.io.prabase) = some 9 ∧
    got (.registerWrite 0x201 3 1) base (fun t => ((t.core 3).brken, (t.core 3).attach)) = some (true, false) ∧
    got (.registerWrite 0x300 0 5) base (·.stallivl) = some 1000000000 ∧
    got (.dbgctlHaltreq 3) base (fun t => (t.core 3).dbg) = some .haltedBusy ∧ got (.dbgctlResume 3) (halted .haltedQuiet) (fun t => (t.core 3).dbg) = some .running ∧
    got (.debugHaltQuiet 3) (halted .haltedBusy) (fun t => (t.core 3).dbg) = some .haltedQuiet := by decide +kernel

theorem test_witness_HostRegistersAndAnswers :
    (∀ i ∈ [Instr.pwrlimWrite 9, .prqheadWrite 9, .prawrWrite 9, .logheadWrite 9, .ringBaseWrite 0x302 9, .registerWrite 0x30B 0 9, .registerWrite 0x201 3 1],
      (hostEvent i).isSome = true) ∧ (base.io.heldReq = [] ∧ base.io.held = []) ∧
    ((base.core 3).dbg = .running ∧ ((halted .haltedBusy).core 3).dbg = .haltedBusy ∧ (halted .haltedBusy).coreQuiet 3 = true ∧
      (withFlow (base.updCore 0 fun c => { c with dbg := .haltedBusy }) fun f => { f with ops := [op0 .ld] }).coreQuiet 0 = false) ∧
    (base.io.prabase = 0 ∧ (answered 3 0).io.prabase ≠ 0 ∧ (answered 3 0).io.taken < (answered 3 0).io.prawr.toNat) ∧
    (∀ c ∈ [0, 1], fieldAt (answerBytes (answered 3 c)) 0 2 = 3 ∧ fieldAt (answerBytes (answered 3 c)) 2 1 = 0 ∧ fieldAt (answerBytes (answered 3 c)) 4 4 = 1 ∧
      fieldAt (answerBytes (answered 3 c)) 8 4 = 0 ∧ fieldAt (answerBytes (answered 3 c)) 3 1 = c.toNat) ∧
    fieldAt (answerBytes (answered 4 0)) 0 2 = 4 ∧ (answered 3 0).liveCtx? 1 0 ≠ none ∧ answeredDead.liveCtx? 1 0 = none ∧
    (∀ c ∈ [0, 1], (answered2 c).merges.map (·.uid) = [80] ∧ (answered2 c).liveCtx? 1 0 ≠ none ∧ (answered2 c).me.flow.park.isSome = true) ∧
    (∀ u ∈ (answered 3 0).all, u.placed = true ∨ u.flow.park = none) := by decide +kernel

/-- base a second in, with cluster 0 in partition 0 and one open interval. -/
def energised : State :=
  { base with time := { base.time with timeb := 1000000000 }, parts := (Vector.replicate 32 none).set 0 (some 0),
              energy := ⟨[], [{ Chain.reset 0 with held := true }, Chain.reset 0xFFFF], [], 0, 0⟩ }
def single (held : Bool) : State := { energised with energy := ⟨[], [{ Chain.reset 4 with held := held }], [], 0, 0⟩ }
def fullIo : State := let s := single true
  { s with io := { s.io with held := List.replicate 256 (.reading 4 []) } }

theorem test_energy :
    got (.energyTick [⟨0, 1, 2500, 0, []⟩]) energised (fun t => (t.energy.chains.map fun c => (c.part, c.account), t.energy.lastTick)) =
      some ([(0, 2), (0xFFFF, 0)], 1000000000) ∧
    got (.energyTick [⟨0, 9, 2500, 0, []⟩]) energised (fun t => t.energy.chains.map fun c => (c.part, c.account)) = some [(0, 0), (0xFFFF, 2)] ∧
    got .sealedIntervalClose (single false) (fun t => t.energy.chains.map fun c => (c.seq, c.t0)) = some [(0, 1000000000)] ∧
    got (.powerBudgetTick ⟨[2000, 9], 5⟩) base (fun t => ((t.core 5).clk.mhz, t.energy.budgets.take 3)) = some (2400, [2000, 9, 0]) := by decide +kernel

theorem test_witness_EnergyEventsKeepTheAccounts :
    base.timeB < base.energy.lastTick + 1000000 ∧ energised.energy.lastTick + 1000000 ≤ energised.timeB ∧ energised.measures ⟨0, 1, 2500, 0, []⟩ = true ∧
    base.timeB / 1000000000 ≤ base.energy.lastSec ∧ energised.energy.lastSec < energised.timeB / 1000000000 ∧
    (∀ b, ∃ c, (single b).energy.chains = [c] ∧ c.held = b ∧ (single b).io.logbase = 0 ∧ c.part ≠ 0xFFFF) ∧ (∀ i < 32, (single false).partAt i ≠ some 4) ∧
    ([2000].foldl (· + ·) 9 ≤ 1000 * base.pwrlim.toNat ∧ 1000 * base.pwrlim.toNat < [2900000].foldl (· + ·) 9 ∧ gs.corePrio 0 = some 0 ∧ 1 < (gs.core 0).clk.mhz) ∧
    (fullIo.energy.chains = [{ Chain.reset 4 with held := true }] ∧ fullIo.io.heldReadings 4 = 256) ∧ (single true).io.heldReadings 4 < 256 ∧ State.reset.boot ≠ .up ∧ State.reset.ctxs = [] ∧ base.ctxs ≠ [] :=
  ⟨by decide +kernel, by decide +kernel, by decide +kernel, by decide +kernel, by decide +kernel,
    fun b => ⟨{ Chain.reset 4 with held := b }, rfl, rfl, by cases b <;> decide +kernel, by cases b <;> decide⟩, by decide +kernel, by decide +kernel,
    by decide +kernel, by decide +kernel, by decide +kernel, by decide +kernel, by decide +kernel⟩

/-- base with a master selected, and with every offset before it good. -/
def synced (st good : Nat) : State :=
  { base with time := { base.time with master := some ⟨5, 1, 2, 3, 0, 0⟩, timest := st, good := good, epochSet := true, timeb := 3000000000, everLocked := true } }

theorem test_time :
    got (.ptpSyncReceive 5 .ipv4 0 0 ⟨100, 2999999960⟩) { synced 0 0 with time := { (synced 0 0).time with epochSet := false } } (fun t => (t.time.epochoff, t.time.epochSet)) =
      some (60, true) ∧
    got (.ptpSyncReceive 5 .ipv4 0 (-4) ⟨100, 2999999900⟩) (synced 0 15) (fun t => (t.time.timest, t.time.interval)) = some (1, 62500000) ∧
    got (.ptpSyncReceive 5 .ipv4 0 0 ⟨100, 2999999799⟩) (synced 0 15) (fun t => (t.time.timest, t.time.good)) = some (0, 0) ∧
    got (.ptpSyncReceive 5 .ipv4 0 2 ⟨100, 2999999900⟩) (synced 0 15) (fun t => t.time.timest) = some 0 ∧
    got (.ptpAnnounceReceive 6 1 ⟨2, 2, 9⟩ 9 .ipv4 0) (synced 0 0) (·.time.master) = some (some ⟨6, 1, 2, 2, 9, 9⟩) ∧
    got (.ptpAnnounceReceive 6 1 ⟨2, 3, 1⟩ 0 .ipv4 0) (synced 0 0) (·.time.master) = some (some ⟨5, 1, 2, 3, 0, 0⟩) := by decide +kernel

theorem test_time_service :
    got .ptpSyncTimeout (synced 1 0) (fun t => (t.time.timest, t.energy.chains.all (·.unsync))) = some (2, true) ∧ got .ppsEdge (synced 1 0) (·.time.pps) = some 3 ∧
    got (.ptpSyncReceive 5 .ipv4 1 0 ⟨100, 40⟩) (synced 0 0) (·.time.dropped) = some 0 ∧
    got (.ptpSyncReceive 5 .ipv4 0 0 ⟨100, 40⟩) { synced 0 0 with ptpcfg := 0 } (·.time.dropped) = some 1 := by decide +kernel

theorem test_witness_TimePortFollowsItsMaster :
    portTakes base.ptpcfg .ipv4 = true ∧ portTakes 0 .ipv4 = false ∧ base.ptpcfg.toNat % 2 ^ 8 = (0 : BitVec 8).toNat ∧ base.ptpcfg.toNat % 2 ^ 8 ≠ (1 : BitVec 8).toNat ∧
    base.time.master = none ∧ (synced 0 0).time.master = some ⟨5, 1, 2, 3, 0, 0⟩ ∧ Better ⟨6, 1, 2, 2, 9, 9⟩ ⟨5, 1, 2, 3, 0, 0⟩ ∧
    ¬ Better ⟨6, 1, 2, 3, 1, 0⟩ ⟨5, 1, 2, 3, 0, 0⟩ ∧
    ((synced 1 0).time.timest = 1 ∧ (synced 1 0).time.lastSync + 3 * (synced 1 0).time.interval ≤ (synced 1 0).timeB) ∧ (synced 1 0).time.everLocked = true ∧ base.time.timest ≠ 1 := by unfold Better; decide +kernel

/-- base with a link up, or in its second failed retrain. -/
def linked (st retries retrains : Nat) : State := { base with links := Vector.replicate 33 ⟨st, retries, retrains, false⟩ }

/-- The kind, unit, index and address of each report held. -/
def places (s : State) : List (Nat × Nat × Nat × Nat) := s.io.held.filterMap fun
  | .report r => some (r.kind, r.unit, r.index, r.addr)
  | .reading _ _ => none

/-- base whose unit 0, 3 has had a correctable error in this second, reported. -/
def ceState (w : Option Report) : State := { base with io := { base.io with lastCE := [((0, 3), 0, w)] } }

/-- base with a clean line of core 3. -/
def cleanState : State := { base with clean := [⟨3, 0x40, 1, 0, 0x40, List.replicate 32 5⟩] }

/-- base with the memory of another device in place of its own, every link retraining, and an addition to a signal there that waits for it. -/
def signalling : State := { linked 2 0 0 with mem := writePairs tables [(0x98001, 4)], sigq := [⟨1, 0, 0x900, 1, false⟩], members := [0], remotes := [(0, 0)] }

theorem test_errors :
    got (.correctableError 0 3 0x40) base (fun t => places t) = some [(1, 0, 3, 0x40)] := by decide +kernel

theorem test_errors_again :
    got (.correctableError 0 3 0x40) (ceState none) (fun t => (places t, t.io.lastCE.map fun x => x.2.2.map (·.count))) = some ([], [some 1]) := by decide +kernel

theorem test_uncorrectable :
    got (.uncorrectableError 2 3 0x44 none) base (fun t => (t.poisoned 0x40, t.poisoned 0x60)) = some (true, false) ∧
    got (.uncorrectableError 0 0 0 (some (.v 5 2 1))) base (lanes 2 3) = some [0, 0xFFFFFFFF, 0] ∧
    got (.uncorrectableError 0 0 0 (some (.s 5 2))) base (fun t => (t.me.s 2, t.me.s 3)) = some (-1, 0) ∧
    got (.uncorrectableError 0 3 0x44 none) cleanState (fun t => (t.poisoned 0x40, t.clean.length)) = some (false, 0) ∧
    got (.uncorrectableError 0 3 0x44 none) cleanState places = some [(1, 0, 3, 0x44)] := by decide +kernel

theorem test_links :
    got (.linkCrcError 4 true) (linked 1 7 0) (fun t => (t.links[4].state, t.links[4].retries, t.links[5].retries)) = some (1, 8, 7) ∧
    got (.linkCrcError 4 true) (linked 1 8 0) (fun t => (t.links[4].state, t.links[4].retries)) = some (2, 0) ∧
    got (.linkCrcError 4 false) (linked 1 8 0) (fun t => (t.links[4].state, t.links[4].retries)) = some (1, 1) ∧
    got (.linkRetrainEnd 32 false) (linked 2 0 2) (fun t => (t.links[32].state, places t)) = some (0, [(3, 5, 0, 0)]) ∧
    got (.linkCompressorSwitch 4 76) (linked 1 0 0) (fun t => (t.links[4].comp, t.links[5].comp)) = some (true, false) := by decide +kernel

theorem test_witness_ErrorsPoisonAndLinksRetrain :
    (∀ x ∈ base.io.lastCE, x.1 ≠ (0, 3)) ∧ base.io.logbase = 0 ∧ base.io.heldReports < 256 ∧
    (ceState none).io.lastCE.find? (·.1 == (0, 3)) = some ((0, 3), (ceState none).timeB / 1000000000, none) ∧
    (cleanState.dirtyAt 3 0x44 = none ∧ ∃ c ∈ cleanState.clean, c.core = 3 ∧ c.key = 0x44 / 32 * 32) ∧ (base.team? 5 = some base.me ∧ 31 < base.me.width ∧ 31 < (base.me.v 63).length) ∧
    base.dirtyAt 3 0x44 = none ∧ base.clean = [] ∧
    ({ base with dirty := [⟨0, 0x100000, 5, some 20, 1, 0, 0x100000, [(0x100001, 7)], false⟩] } : State).dirtyAt 0 0x100008 =
      some ⟨0, 0x100000, 5, some 20, 1, 0, 0x100000, [(0x100001, 7)], false⟩ ∧
    (linked 1 0 0).links[32].state ≠ 2 ∧ ((linked 2 0 1).links[32].state = 2 ∧ (linked 2 0 1).links[32].retrains < 2) ∧ 2 ≤ (linked 2 0 2).links[32].retrains := by
  decide +kernel

/-- The link of the signal's device, whichever it is. -/
theorem test_witness_ErrorsPoisonAndLinksRetrain_signal :
    ∃ (p : Nat) (h : p < 33), signalling.links[p].state = 2 ∧ signalling.agentKey 1 0 .atomic 0x900 = some (2 ^ 65 + 0x900) ∧
      linkOf (2 ^ 65 + 0x900) = some ⟨p, h⟩ ∧ Sound signalling (2 ^ 65 + 0x900) 8 ∧ Memory.wf signalling.mem = true ∧ signalling.io.heldReq = [] ∧
      signalling.io.held = [] := by
  have hl : signalling.links = Vector.replicate 33 ⟨2, 0, 0, false⟩ := rfl
  refine ⟨(Config.portOf 0).val, by omega, by simp [hl], by decide +kernel, rfl, fun b hb => ?_, by decide +kernel, rfl, rfl⟩
  have h1 : signalling.linkDown (2 ^ 65 + 0x900 + b) = none := by
    unfold State.linkDown
    split
    · simp [hl]
    · rfl
  unfold State.poisoned
  rw [h1, show signalling.poison = [] from rfl]
  rfl

theorem test_resets :
    got .powerLoss base (fun t => (t.boot, t.me.id.tid, t.mem, t.ctxs.length)) = some (.off, 0, [], 0) ∧ got (.powerGood true) base (·.boot) = some .waitImage ∧
    got .warmReset (withMem (synced 1 0) 0x100000 [7]) (fun t => (t.boot, t.homeNat 0x100000 1, t.time.timest, t.me.id.tid)) = some (.up, 7, 2, 0) := by
  decide +kernel

theorem test_firmware :
    got (.fwContextCreate 2 0x8000 3 1 2 4 5) base (fun t => t.ctxs.map fun c => (c.id, c.root, c.part, c.cstate)) = some [(2, 0x8000, 3, 1), (1, 0x1000, 0, 1)] ∧
    got (.fwContextCreate 1 0x8000 3 1 2 4 5) { base with ctxs := base.ctxs.map fun c => { c with cstate := 0 } } (fun t => t.ctxs.map fun c => (c.id, c.gen, c.cstate)) =
      some [(1, 1, 1)] ∧
    got (.fwContextKill 1) base (fun t => (t.ctxs.map fun c => (c.gen, c.cstate), t.me.id.tid)) = some ([(1, 2)], 0) ∧
    got (.fwPartitionAssign 4 (some 3)) base (fun t => t.parts[4]) = some (some 3) := by decide +kernel

theorem test_witness_ResetsAndFirmwareRequests :
    base.boot ≠ .waitImage ∧ ({ State.reset with boot := .waitImage } : State).teams = [] ∧ ({ State.reset with boot := .waitImage } : State).unpowered = [] ∧
    ({ State.reset with boot := .waitImage } : State).io.logbase = 0 ∧ State.reset.boot ≠ .up ∧ (base.boot = .up ∧ base.dirty = [] ∧ base.io.held = [] ∧ ∀ x ∈ base.io.lastCE, x.2.2 = none) ∧
    base.ctx? 2 = none ∧ (base.ctx? 1).any (fun c => c.cstate != 0) = true ∧ base.clusterBusy 0 = true ∧ base.clusterBusy 4 = false := by decide +kernel

/-! ### Words, steps and well-formedness (spec/02 R26 to R47; words from the listings of spec/03, 06, 07, 10, 11, 15, 16, 17, 21, 24) -/

/-- Whether each word decodes to its instruction, with its chain and switch bits. -/
def reads (l : List (W32 × Bool × Bool × Instr)) : Bool :=
  l.all fun x => (decode x.1).toOption = some ⟨x.2.1, x.2.2.1, x.2.2.2⟩

theorem test_decode_scalar :
    reads [(0x8128A28A, true, false, .sopXor 10 10 10), (0x011C20C4, false, false, .sopMulhn 7 2 3), (0x02104001, false, false, .sopiAddi 4 4 1),
      (0x021453FF, false, false, .sopiAddi 5 5 0x3FF), (0x02183C02, false, false, .sopiXori 6 3 2), (0x03641011, false, false, .sshiShli 25 1 17),
      (0x0413DEAD, false, false, .sinsInsert 4 3 0xDEAD), (0x05112CA0, false, false, .aopAset 1 1 11 true), (0x05213280, false, false, .aopAadd 2 1 12 5),
      (0x07500102, false, false, .cregCrd 20 0x102)] = true := by decide +kernel

theorem test_decode_lanes :
    reads [(0x880C1088, true, false, .variIadd 3 1 2 ⟨false, 2⟩), (0x0918115C, false, false, .vlogAnd 6 1 5 g7), (0x0A1C115D, false, false, .vsftShr 7 1 5 g7),
      (0x0C28109F, false, false, .vcmpLtn 1 2 1 2 g7), (0x0D081705, false, false, .vadi 2 1 g7 5), (0x0E15C07F, false, false, .vimmSx 5 g7 127),
      (0x0E11E7F0, false, false, .vimmHi 4 g7 0x7F0), (0x1C186128, false, false, .vsel 6 6 4 ⟨true, 2⟩), (0x5D14F05C, false, true, .vmovBcast 5 15 g7),
      (0x1D04011C, false, false, .vmovLaneid 1 g7), (0x1E08111C, false, false, .vxlnScan 2 1 g7 .i32), (0x1F0C100A, false, false, .plogPand 3 1 true 2),
      (0x1F0C1100, false, false, .plogPbal 3 1), (0x1F1401BF, false, false, .plogEmr 5 63)] = true := by decide +kernel

theorem test_decode_float :
    reads [(0x1010209C, false, false, .fadd 4 2 2 g7 .f32), (0x150C201C, false, false, .fmax 3 2 0 g7 .f32), (0x1728109D, false, false, .fclt 1 2 1 2 g7 .half),
      (0x1828615D, false, false, .fcle 1 2 6 5 g7 .half), (0x1A1850DC, false, false, .funaRsqrt 6 5 g7 .f32), (0x1B14419E, false, false, .fcvtConvert 5 4 6 g7 .sat),
      (0x1B041A5C, false, false, .fcvtWi32 1 1 g7 .rne), (0x210C3040, false, false, .domnDget 3 3)] = true := by decide +kernel

theorem test_decode_memory :
    reads [(0xA404407A, true, false, .vld 1 1 0 g7 true .u16), (0x2410423C, false, false, .vld 4 1 2 ⟨false, 3⟩ true .w32), (0x27188170, false, false, .vatmAddI 6 2 1 g7), (0x2519007A, false, false, .vst 6 4 0 g7 true .b16),
      (0x27044173, false, false, .vatmMaxI 1 1 1 g7), (0x2810A602, false, false, .sld 4 2 (.at_ .dev) .w64 2), (0x2961A600, false, false, .sst 24 6 (.at_ .dev) .w64 0),
      (0x2A184000, false, false, .satmAdd 6 1 0 .plain .w64), (0x2B043200, false, false, .fenceRel .dev 8), (0x2C0C0000, false, false, .wait .cp 0),
      (0x2C002000, false, false, .wait .ld 2), (0x6D082007, false, true, .tsl 2 0 true 0 g7), (0x2E041C07, false, false, .tss 1 0 false 0x38 g7),
      (0x351C8580, false, false, .sigSigadd 7 2 5 (.at_ .dev)), (0x755556C1, false, true, .sigSigwait 21 5 22 (.at_ .sys))] = true := by decide +kernel

theorem test_decode_control :
    reads [(0x00040000, false, false, .miscExit), (0x37088100, false, false, .hctlWstat 8 4), (0x37001000, false, false, .hctlHret .skip),
      (0x37040000, false, false, .hctlHtaint), (0x38100002, false, false, .brv g1 2), (0x39000003, false, false, .rcv 3), (0x3A000000, false, false, .join),
      (0x3B41FFFD, false, false, .brsBnez 16 0xFFFD), (0x3C000002, false, false, .jmpJmp 2), (0x7634CC01, false, true, .sgrpArr 13 3 12 .plain),
      (0x3E003000, false, false, .syncGbar .dev), (0x756DD6C1, false, true, .sigSigwait 27 7 22 (.at_ .sys)), (0x7F096240, false, true, .privPgref 22 9),
      (0x7F057000, false, true, .privPgcow 23), (0x3F000000, false, false, .privTretRetry)] = true := by decide +kernel

theorem test_decode_queue_words :
    reads [(0x7E094000, false, true, .syncQctlCreate 20 0)] = true ∧ (decode 0x3C410000#32).toOption = some ⟨false, false, .jmpCall 0x10000⟩ ∧
    (decode 0x3C850000#32).toOption = some ⟨false, false, .jmpJmpr 5⟩ ∧ (decode 0x3CC00000#32).toOption = some ⟨false, false, .jmpRet⟩ := by decide +kernel

/-- The encodings that R47 rejects: a reserved major, a code that a major does not define, and a reserved bit. -/
def refusedWith (w : W32) : Option Detail :=
  match decode w with
  | .error e => some e.detail
  | .ok _ => none

theorem test_decode_rejects :
    ([0x06000000, 0x0F000000, 0x22000000, 0x23000000, 0x26000000, 0x33000000, 0x34000000, 0x3D000001].all fun w => refusedWith w == some .rsvmaj) = true ∧
    ([0x00140000, 0x0100001A, 0x07020000, 0x1000001F, 0x1A00039C, 0x1B000A9C, 0x2400007F, 0x2700007A, 0x2A00000B, 0x2B100000, 0x3E180000, 0x3F1C0000].all
      fun w => refusedWith w == some .rsvfn) = true ∧
    ([0x00000001, 0x3A000001, 0x3CC00001, 0x1F008000].all fun w => refusedWith w == some .rsvbit) = true := by decide +kernel

/-- A term outside the numbering, for each check of `WellFormed`. -/
theorem test_ill_formed :
    ([.cregCrd 0 0x000B, .cregCwr 0 0x0320, .hctlWpos 0 4 1, .hctlWpos 0 5 0, .syncGbar .core, .hostStore (2 ^ 41 - 1) [1, 2], .hostLoad (2 ^ 41) 1,
      .remoteRequest 1024 0 (.load 1), .remoteRequest 0 (2 ^ 41) (.load 1), .fwContextKill 4096, .fwContextCreate 4096 0 0 0 0 0 0, .fwContextCreate 0 0 32 0 0 0 0,
      .fwPartitionAssign 32 none, .frameExport 0 1024, .ringBaseWrite 0x0303 0, .registerWrite 0x0302 0 0, .registerWrite 0x0200 256 0, .dbgctlHaltreq 256,
      .dbgctlResume 256, .debugHaltQuiet 256, .linkCrcError 33 false, .linkRetrainEnd 33 true, .linkCompressorSwitch 32 0] : List Instr).all
        (fun i => !WellFormed i) = true := by decide +kernel

theorem test_well_formed :
    ([.cregCrd 0 0x000A, .hctlWpos 0 4 0, .syncGbar .clu, .hostStore (2 ^ 41 - 2) [1, 2], .remoteRequest 1023 0 (.load 1), .fwContextCreate 4095 0 31 0 0 0 0,
      .ringBaseWrite 0x0308 0, .registerWrite 0x0200 255 0, .linkCrcError 32 true, .linkCompressorSwitch 31 0, .miscNop] : List Instr).all WellFormed = true := by
  decide +kernel

/-- base with a group of the team in issue under way, and with a turn named. -/
def issuing : State := withFlow base fun f => { f with group := { f.group with open_ := true } }
def turned (t : Turn) : State := { base with agenda := [t] }

/-- base with that group's words; the first is a nop, or one that decode rejects. -/
def issuingW (w : BitVec 96) : State := withFlow issuing fun f => { f with packet := w }

theorem test_witness_StepRunsTheDecodedWord :
    (∀ w ∈ [0, 0x00140000], (issuingW (BitVec.ofNat 96 w)).me.resumes = true ∧ (issuingW (BitVec.ofNat 96 w)).eligible (issuingW (BitVec.ofNat 96 w)).me = true ∧
      decide (w = 0) = (decode (packetWord (issuingW (BitVec.ofNat 96 w)).me.flow.packet (issuingW (BitVec.ofNat 96 w)).me.ctl.word)).toOption.isSome) ∧
    CanEnter (issuingW 0x00140000) 0 ∧
    (∀ i ∈ [Instr.ppsEdge, .miscNop], (turned (.event 5 i)).agenda = [.event 5 i] ∧ (turned (.event 5 i)).me.resumes = false) ∧
    hasWord .ppsEdge = false ∧ hasWord .miscNop = true := by unfold CanEnter; decide +kernel

/-- base with the packet at the team's position, the team named by the agenda, and v1 tagged. -/
def packetAt (p : Nat) : State := { withMem (turned (.pick 5)) 0xC000 (leBytes 12 p) with agenda := [.pick 5] }
def taggedAt (p : Nat) : State := (packetAt p).setMe fun t => { t with regs := { t.regs with tag := t.regs.tag.set 1 1 } }
def keys3 : List (Nat × Nat) := [(0xC000, 0xC000), (0xC004, 0xC004), (0xC008, 0xC008)]
/-- What its fetch leaves, its group checked or not. -/
def afterFetch (s : State) (p : Nat) (b : Bool) : State :=
  withPacket ((({ s with agenda := [] } : State).fetchKeys (pages 2 (packetVa s.me.ctl.pc).toNat 12)).2.fetchWords keys3).2 (BitVec.ofNat 96 p) b

theorem fetches {s : State} {p : Nat}
    (h : (s.agenda = [.pick s.me.id.tid] ∧ (s.pickOn s.me.core s.me.sched).map (·.id.tid) = some s.me.id.tid) ∧ (s.me.flow.group.open_ = false ∧ s.me.flow.fetched = false) ∧
      (s.me.flow.park = none ∧ s.me.flow.pinned = none ∧ s.me.ctl.pc.toNat < 2 ^ 62) ∧
      (({ s with agenda := [] } : State).fetchKeys (pages 2 (packetVa s.me.ctl.pc).toNat 12)).1 = .ok keys3 ∧
      (∀ k ∈ keys3, (({ s with agenda := [] } : State).fetchKeys (pages 2 (packetVa s.me.ctl.pc).toNat 12)).2.poisoned k.2 = false) ∧
      ((({ s with agenda := [] } : State).fetchKeys (pages 2 (packetVa s.me.ctl.pc).toNat 12)).2.fetchWords keys3).1 = p) : Fetches s [] (BitVec.ofNat 96 p) (afterFetch s p false) :=
  ⟨h.1.1, h.1.2, h.2.1, ⟨h.2.2.1.1, by simp [h.2.2.1.2.1], h.2.2.1.2.2⟩, keys3, _, _, p, pair1 h.2.2.2.1, h.2.2.2.2.1, pair1 h.2.2.2.2.2, rfl, rfl⟩

/-- Packets whose group runs past the packet; of a nop; of a word that decode rejects; that waits; that reads a tagged register. -/
theorem test_witness_StepRunsTheDecodedWord_fetch :
    (∀ p ∈ [0x800000008000000080000000, 0, 0x00140000, 0x2C002000, 0x0918115C], Fetches (packetAt p) [] (BitVec.ofNat 96 p) (afterFetch (packetAt p) p false)) ∧
    Fetches (taggedAt 0x0918115C) [] 0x0918115C (afterFetch (taggedAt 0x0918115C) 0x0918115C false) := by
  refine ⟨fun p hp => ?_, fetches (by decide +kernel)⟩
  simp only [List.mem_cons, List.not_mem_nil, or_false] at hp
  rcases hp with rfl | rfl | rfl | rfl | rfl <;> exact fetches (by decide +kernel)

/-- The wait for loads with three of them outstanding. -/
def waitingAt : State := withFlow (packetAt 0x2C002000) fun f => { f with ops := [op0 .ld, op0 .ld, op0 .ld] }

theorem test_witness_StepRunsTheDecodedWord_groups :
    (groupCheck 0x800000008000000080000000 0 ≠ none ∧ CanEnter (afterFetch (packetAt 0x800000008000000080000000) 0x800000008000000080000000 false) 0) ∧
    (∀ p ∈ [0, 0x00140000, 0x2C002000, 0x0918115C], groupCheck (BitVec.ofNat 96 p) 0 = none) ∧
    (afterFetch waitingAt 0x2C002000 true).me.groupWaits = true ∧
    (∀ g ∈ [afterFetch (packetAt 0) 0 true, afterFetch (packetAt 0x00140000) 0x00140000 true, afterFetch (taggedAt 0x0918115C) 0x0918115C true],
      g.me.groupWaits = false ∧ g.gateOpen g.me = true ∧ g.tbwaitOn = none ∧ g.takes g.me = true) ∧
    (∀ g ∈ [afterFetch (packetAt 0) 0 true, afterFetch (packetAt 0x00140000) 0x00140000 true], g.me.rebuilds (g.checked g.me.groupWords) = []) ∧
    (let g := afterFetch (taggedAt 0x0918115C) 0x0918115C true
     g.me.rebuilds (g.checked g.me.groupWords)) = [1] ∧
    CanEnter (afterFetch (packetAt 0x00140000) 0x00140000 false) 0 := by unfold CanEnter; decide +kernel

theorem test_witness_StepRunsTheDecodedWord_waits : Fetches waitingAt [] 0x2C002000 (afterFetch waitingAt 0x2C002000 false) := fetches (by decide +kernel)

theorem test_step_runs_a_placed_word :
    (match step (base.withFetchWord 32 0x02104001) with | .next t => some (t.me.s 4, t.me.ctl.pc, t.me.ctl.word) | _ => none) = some (1, 0x1000, 1) := by
  decide +kernel

theorem test_step_from_reset :
    (match step (State.reset.withFetchWord 32 0x0413DEAD) with | .next t => some (t.me.s 4) | _ => none) = some 0xDEAD000000000000 := by decide +kernel

/-- What the walk of a page table gives: base's leaf, and an address that no node covers. -/
theorem test_page_walk :
    (({ turned (.pick 5) with agenda := [] } : State).fetchKeys (pages 2 0x3FFFFFF8 4)).1.toOption = some [(0x3FFFFFF8, 0x3FFFFFF8)] ∧
    (({ turned (.pick 5) with agenda := [] } : State).fetchKeys (pages 2 0x40000000 4)).1.toOption = none := by decide +kernel

theorem test_witness_StepsKeepMemoryCanonical : Memory.wf base.mem = true ∧ Memory.wf State.reset.mem = true ∧
    (match step (turned (.event 5 .ppsEdge)) with | .next _ => true | _ => false) = true := by decide +kernel

/-- Wherever the decoder and the encoder are asked, some word and some instruction is meant. -/
theorem test_witness_DecodeAndEncodeAgree :
    (hasWord (.sopMulhn 7 2 3) = true ∧ WellFormed (.sopMulhn 7 2 3) = true ∧ encode false false (.sopMulhn 7 2 3) = 0x011C20C4) ∧
    (decode 0x011C20C4#32).toOption = some ⟨false, false, .sopMulhn 7 2 3⟩ := by decide +kernel

end Sys2Proof.Test
end

section
/-!
PROOFS. Shared laws of the events: the arms of `exec`, and what the operations that the events share leave unchanged.
-/
namespace Sys2Proof.Machine
open Sys2Proof

/-! ### The log ring, held records, chains -/

/-- With no log ring nothing can be written into it. -/
theorem State.logWrite_of_logbase_zero {s : State} (bs : List Byte) (h : s.io.logbase = 0) : s.logWrite bs = none := by
  have hp : s.io.logPlace bs.length = none := by simp [Rings.logPlace, h]
  simp [State.logWrite, hp]

/-- With no log ring held records stay held. -/
theorem State.flushLog_of_logbase_zero {s : State} (h : s.io.logbase = 0) : s.flushLog = s := by
  unfold State.flushLog
  cases s.io.held.length with
  | zero => rfl
  | succ n =>
    unfold State.flushLogN
    split
    · rw [State.logWrite_of_logbase_zero _ h]
    · rfl

/-- With no held record nothing is written. -/
theorem State.flushLog_of_held_nil {s : State} (h : s.io.held = []) : s.flushLog = s := by
  simp [State.flushLog, h, State.flushLogN]

/-- With no correctable report waiting none is taken up. -/
theorem State.flushCE_of_none_waiting {s : State} (all : Bool) (h : ∀ x ∈ s.io.lastCE, x.2.2 = none) : s.flushCE all = s := by
  have hf : (s.io.lastCE.filter fun x => (all || x.2.1 != s.time.timeb.toNat / 1000000000) && x.2.2.isSome) = [] :=
    List.filter_eq_nil_iff.2 fun x hx => by simp [h x hx]
  simp only [State.flushCE, hf, List.foldl_nil]

/-- With no log ring a report changes the rings alone, and leaves no log ring. -/
theorem State.report_of_logbase_zero {s : State} (kind unit index ctx gen detail addr : Nat) (h : s.io.logbase = 0) :
    ∃ io, s.report kind unit index ctx gen detail addr = { s with io := io } ∧ io.logbase = 0 := by
  unfold State.report State.post
  split
  · rw [State.flushLog_of_logbase_zero (by exact h)]
    exact ⟨_, rfl, h⟩
  · exact ⟨_, rfl, h⟩

/-- Marking the chains of partitions that hold a cluster changes the energy state alone. -/
theorem State.markHeld_eq (s : State) : s.markHeld = { s with energy := s.markHeld.energy } := rfl

/-- A chain is marked in its `held` alone. -/
theorem State.markHeld_chains_singleton {s : State} {c : Chain} (h : s.energy.chains = [c]) :
    ∃ b, s.markHeld.energy.chains = [{ c with held := b }] := by
  unfold State.markHeld
  simp only [h, List.map_cons, List.map_nil]
  split
  · exact ⟨true, rfl⟩
  · exact ⟨c.held, rfl⟩

/-! ### Links, cores, operations answered -/

/-- A link changed changes the links alone. -/
theorem State.updLink_eq (s : State) (p : Nat) (f : Link → Link) : ∃ l, s.updLink p f = { s with links := l } := by
  unfold State.updLink
  split
  · exact ⟨_, rfl⟩
  · exact ⟨s.links, rfl⟩

/-- The training of the Floe ports changes the links alone. -/
theorem State.trainPorts_eq (s : State) (ok : BitVec 32) : ∃ l, s.trainPorts ok = { s with links := l } := by
  refine foldl_keeps (P := fun t => ∃ l, t = ({ s with links := l } : State)) ?_ _ ⟨s.links, rfl⟩
  rintro t p ⟨l, rfl⟩
  obtain ⟨l', hl'⟩ := State.updLink_eq { s with links := l } p fun (k : Link) => { k with
    state := if s.fuses.floe.getLsbD p ∧ ok.getLsbD p then 1 else 0, retries := 0, retrains := 0 }
  exact ⟨l', hl'⟩

/-- Cores changed one after another change the cores alone. -/
theorem State.foldl_updCore_eq (f : Nat → Core → Core) (cs : List Nat) (s : State) :
    ∃ x, cs.foldl (fun t c => t.updCore c (f c)) s = { s with cores := x } := by
  refine foldl_keeps (P := fun t => ∃ x, t = ({ s with cores := x } : State)) ?_ _ ⟨s.cores, rfl⟩
  rintro t c ⟨x, rfl⟩
  exact ⟨_, rfl⟩

/-- Operations answered with a code change their teams alone. -/
theorem State.answerOps_eq (s : State) (code : Nat) (ops : List (Nat × Nat × SReg)) :
    ∃ m ts, s.answerOps code ops = { s with me := m, teams := ts } := by
  refine foldl_keeps (P := fun t => ∃ m ts, t = ({ s with me := m, teams := ts } : State)) ?_ _ ⟨s.me, s.teams, rfl⟩
  rintro t ⟨tid, op, d⟩ ⟨m, ts, rfl⟩
  exact ⟨_, _, rfl⟩

/-! ### Contexts -/

@[simp] theorem State.updCtx_mem (s : State) (c : Nat) (f : Ctx → Ctx) : (s.updCtx c f).mem = s.mem := rfl
@[simp] theorem State.updCtx_merges (s : State) (c : Nat) (f : Ctx → Ctx) : (s.updCtx c f).merges = s.merges := rfl
@[simp] theorem State.updCtx_all (s : State) (c : Nat) (f : Ctx → Ctx) : (s.updCtx c f).all = s.all := rfl
@[simp] theorem State.updCtx_queues (s : State) (c : Nat) (f : Ctx → Ctx) : (s.updCtx c f).queues = s.queues := rfl
@[simp] theorem State.updCtx_tlb (s : State) (c : Nat) (f : Ctx → Ctx) : (s.updCtx c f).tlb = s.tlb := rfl
@[simp] theorem State.updCtx_dtlb (s : State) (c : Nat) (f : Ctx → Ctx) : (s.updCtx c f).dtlb = s.dtlb := rfl

/-- A context looked up after it was changed, its number kept. -/
theorem State.updCtx_ctx? (s : State) (c : Nat) {f : Ctx → Ctx} (hf : ∀ x, (f x).id = x.id) :
    (s.updCtx c f).ctx? c = (s.ctx? c).map f := by
  have hp : ((fun x : Ctx => x.id == c) ∘ fun x => if x.id = c then f x else x) = fun x => x.id == c := by
    funext x
    by_cases hx : x.id = c <;> simp [hx, hf]
  simp only [State.ctx?, State.updCtx, List.find?_map, hp]
  cases h : s.ctxs.find? (·.id == c) with
  | none => rfl
  | some x =>
    have hx : x.id = c := by simpa using List.find?_some h
    simp [hx]

end Sys2Proof.Machine
end

section
/-!
PROOFS. Resets and firmware requests (spec/01 R20; spec/18 R273, R288; spec/19 R297; spec/23 R341, R342).
-/
namespace Sys2Proof.Machine
open Sys2Proof

/-! ### The arms -/

theorem exec_powerGood_eq (b : Bool) (s : State) : exec (.powerGood b) s = execPowerGood b s := rfl
theorem exec_firmwareImageVerify_eq (d g : Nat) (ports : BitVec 32) (failing : List (Nat × Nat)) (boot : BitVec 128) (s : State) :
    exec (.firmwareImageVerify d g ports failing boot) s = execFirmwareImageVerify d g ports failing boot s := rfl
theorem exec_warmReset_eq (s : State) : exec .warmReset s = execWarmReset s := rfl
theorem exec_fwContextCreate_eq (ctx root part ffl fflen pool len : Nat) (s : State) :
    exec (.fwContextCreate ctx root part ffl fflen pool len) s = execFwContextCreate ctx root part ffl fflen pool len s := rfl
theorem exec_fwContextKill_eq (ctx : Nat) (s : State) : exec (.fwContextKill ctx) s = execFwContextKill ctx s := rfl
theorem exec_fwPartitionAssign_eq (cluster : Nat) (part : Option (Fin 32)) (s : State) :
    exec (.fwPartitionAssign cluster part) s = execFwPartitionAssign cluster part s := rfl

/-! ### Loss of power and cold reset -/

/-- Every core of the reset state is as reset leaves a core. -/
@[simp] theorem State.reset_core (c : Nat) : State.reset.core c = .reset := by simp [State.core, State.reset]

/-- A loss of power and a cold reset leave the cold state, but for the links and the stage of bring-up. -/
theorem exec_power_eq (s : State) {i : Instr} {ok : Bool} (hi : i = .powerLoss ∨ i = .powerGood ok) :
    ∃ l, exec i s = .next { s.cold with
      links := l, boot := if i = .powerLoss then .off else if ok then .waitImage else .linkDown } := by
  rcases hi with rfl | rfl
  · exact ⟨s.cold.links, rfl⟩
  · cases ok with
    | false => exact ⟨s.cold.links, rfl⟩
    | true =>
      obtain ⟨l, hl⟩ := s.cold.updLink_eq 32 fun l => { l with state := 1 }
      refine ⟨l, ?_⟩
      rw [exec_powerGood_eq, execPowerGood, if_pos rfl, hl]
      rfl

/-! ### Bring-up -/

/-- A unit that fails changes the rings and the list of unpowered units, where there is no log ring. -/
theorem State.failUnit_eq {s : State} (u : Nat × Nat) (h : s.io.logbase = 0) :
    ∃ io, s.failUnit u = { s with unpowered := u :: s.unpowered, io := io } ∧ io.logbase = 0 :=
  State.report_of_logbase_zero (s := { s with unpowered := u :: s.unpowered }) 2 u.1 u.2 0xFFFFFFFF 0 0 0 h

/-- Units that fail one after another are added to the unpowered ones. -/
theorem State.foldl_failUnit_eq (us : List (Nat × Nat)) {s : State} (h : s.io.logbase = 0) :
    ∃ io, us.foldl State.failUnit s = { s with unpowered := us.reverse ++ s.unpowered, io := io } := by
  induction us generalizing s with
  | nil => exact ⟨s.io, rfl⟩
  | cons u us ih =>
    obtain ⟨io, hu, hio⟩ := State.failUnit_eq u h
    obtain ⟨io', hus⟩ := ih (s := { s with unpowered := u :: s.unpowered, io := io }) hio
    exact ⟨io', by rw [List.foldl_cons, hu, hus, List.reverse_cons, List.append_assoc]; rfl⟩

/-- Agents start on the cores that are enabled and powered. -/
theorem State.startAgents_agent_iff {s : State} (h : s.teams = []) {c : Nat} (hc : c < 256) :
    (∃ u ∈ s.startAgents.teams, u.place = .agent c) ↔ s.fuses.coren.getLsbD c = true ∧ (0, c) ∉ s.unpowered := by
  simp only [State.startAgents, h, List.nil_append, List.mem_map, List.mem_filter, List.mem_range, Bool.and_eq_true,
    Bool.not_eq_true', List.contains_eq_mem, decide_eq_false_iff_not]
  constructor
  · rintro ⟨_, ⟨d, ⟨_, hd⟩, rfl⟩, hp⟩
    obtain rfl : d = c := by simpa [agentTeam] using hp
    exact hd
  · intro hd
    exact ⟨_, ⟨c, ⟨hc, hd⟩, rfl⟩, rfl⟩

/-- An image that does not verify leaves the device waiting for another. -/
theorem exec_firmwareImageVerify_bad {s : State} {d g : Nat} (ports : BitVec 32) (failing : List (Nat × Nat)) (boot : BitVec 128)
    (hb : s.boot = .waitImage ∨ s.boot = .badImage) (hv : Config.firmwareVerify d g = false) :
    exec (.firmwareImageVerify d g ports failing boot) s = .next { s with boot := .badImage } := by
  rw [exec_firmwareImageVerify_eq, execFirmwareImageVerify, if_neg (by tauto), if_pos (by simp [hv])]

/-- An image that verifies brings the device up: device memory zero, the failing units unpowered, agents started. -/
theorem exec_firmwareImageVerify_good {s : State} {d g : Nat} (ports : BitVec 32) (failing : List (Nat × Nat)) (boot : BitVec 128)
    (hb : s.boot = .waitImage ∨ s.boot = .badImage) (hl : s.io.logbase = 0) (hv : Config.firmwareVerify d g = true) :
    ∃ l io e, exec (.firmwareImageVerify d g ports failing boot) s = .next (State.startAgents { s with
      links := l, io := io, energy := e, boot := .up
      unpowered := (failing.filter fun u => u.1 == 0 || u.1 == 3).reverse ++ s.unpowered
      mem := s.mem.filter fun x => outsideKey x.1
      poison := s.poison.filter outsideKey }) := by
  obtain ⟨l, htrain⟩ := s.trainPorts_eq ports
  obtain ⟨io, hfail⟩ := State.foldl_failUnit_eq (failing.filter fun u => u.1 == 0 || u.1 == 3) (s := { s with links := l }) hl
  rw [exec_firmwareImageVerify_eq, execFirmwareImageVerify, if_neg (by tauto), if_neg (by simp [hv]), htrain, hfail]
  exact ⟨_, _, _, rfl⟩

/-! ### Warm reset -/

/-- The time port after a warm reset. -/
def TimePort.warmed (p : TimePort) : TimePort :=
  { p with timest := if p.timest = 1 then 2 else p.timest, good := 0, bad := 0, master := none, pathDelay := 0, ipv4 := 0, ipv6 := 0, dropped := 0 }

/-- What a warm reset keeps of a state with nothing left to write back, before the links train and the agents start (`exec_warmReset_up`). -/
def State.warmed (s : State) (boot : W128) : State :=
  { s.cold with
    mem := s.mem.filter fun x => decide (x.1 < 2 ^ 66)
    poison := s.poison.filter fun k => decide (k < 2 ^ 66)
    unpowered := s.unpowered
    boot := .up
    time := s.time.warmed
    lastStall := s.cyc
    lastDrain := s.cyc
    io := { Rings.reset with held := s.io.held, lost := s.io.lost }
    energy := ⟨[], s.energy.chains.map (Chain.warmed s.timeB boot), [], s.timeB / 1000000 * 1000000, s.timeB / 1000000000⟩ }

/-- A warm reset of a device that is up, with nothing to write back and nothing held. -/
theorem exec_warmReset_up {s : State} (hb : s.boot = .up) (hd : s.dirty = []) (hh : s.io.held = [])
    (hc : ∀ x ∈ s.io.lastCE, x.2.2 = none) :
    ∃ l boot, exec .warmReset s = .next (State.startAgents { s.markHeld.draw.2.warmed boot with links := l }) := by
  have hback : (s.markHeld.draw.2.dirty.filter fun d => !d.pinned).foldl State.writeBackOld s.markHeld.draw.2 = s.markHeld.draw.2 := by
    rw [State.draw_dirty, State.markHeld_eq, hd]
    rfl
  have hce : s.markHeld.draw.2.flushCE true = s.markHeld.draw.2 := State.flushCE_of_none_waiting true hc
  have hlog : s.markHeld.draw.2.flushLog = s.markHeld.draw.2 := State.flushLog_of_held_nil hh
  obtain ⟨l, hl⟩ := (s.markHeld.draw.2.warmed (BitVec.ofNat 128 s.markHeld.draw.1)).updLink_eq 32 fun l => { l with state := 1 }
  obtain ⟨l', hl'⟩ := State.trainPorts_eq { s.markHeld.draw.2.warmed (BitVec.ofNat 128 s.markHeld.draw.1) with links := l } s.fuses.floe
  refine ⟨l', BitVec.ofNat 128 s.markHeld.draw.1, ?_⟩
  rw [exec_warmReset_eq, execWarmReset, if_neg (not_not.2 hb)]
  simp only [hback, hce, hlog]
  exact congrArg (fun t => Host.Outcome.next t.startAgents) ((congrArg (fun t => t.trainPorts s.fuses.floe) hl).trans hl')

/-! ### Contexts -/

/-- Pre-emptions answered change the teams that waited for them alone. -/
theorem State.answerSaves_eq (s : State) (ctx gen : Nat) :
    ∃ m ts, s.answerSaves ctx gen = { s with me := m, teams := ts } := by
  refine foldl_keeps (P := fun t => ∃ m ts, t = ({ s with me := m, teams := ts } : State)) ?_ _ ⟨s.me, s.teams, rfl⟩
  rintro t q ⟨m, ts, rfl⟩
  obtain ⟨m1, ts1, h1⟩ := State.answerOps_eq { s with me := m, teams := ts } 0 q.saveOps
  obtain ⟨m2, ts2, h2⟩ := State.answerOps_eq { s with me := m1, teams := ts1 } 1 q.rsmOps
  exact ⟨m2, ts2, by rw [h1, h2]⟩

/-- A context let go keeps memory, the merge table and the contexts. -/
theorem State.dropContext_kept (s : State) (ctx gen : Nat) :
    (s.dropContext ctx gen).mem = s.mem ∧ (s.dropContext ctx gen).merges = s.merges ∧ (s.dropContext ctx gen).ctxs = s.ctxs := by
  unfold State.dropContext
  extract_lets mine tids ws qs bs ys s1
  obtain ⟨cs, hcs⟩ : ∃ cs, s1 = { s with cores := cs } := State.foldl_updCore_eq _ _ s
  rw [hcs]
  exact ⟨rfl, rfl, rfl⟩

/-- An entry that a filter on a generation has kept is of another one. -/
theorem ne_of_not_mine {a b ctx gen : Nat} (h : (!(a == ctx && b == gen)) = true) : ¬ (a = ctx ∧ b = gen) := by
  rintro ⟨rfl, rfl⟩
  simp at h

/-- A context let go has no team. -/
theorem State.dropContext_all (s : State) (ctx gen : Nat) {u : Team} (h : u ∈ (s.dropContext ctx gen).all) :
    u = .absent ∨ ¬ (u.id.ctx = ctx ∧ u.id.gen = gen) := by
  rcases List.mem_cons.1 h with rfl | h
  · simp only [State.dropContext]
    split
    · exact .inl rfl
    · rename_i hmine
      exact .inr (by simpa using hmine)
  · exact .inr (ne_of_not_mine (List.mem_filter.1 h).2)

/-- A context let go has no queue. -/
theorem State.dropContext_queues (s : State) (ctx gen : Nat) {q : Queue} (h : q ∈ (s.dropContext ctx gen).queues) :
    ¬ (q.ctx = ctx ∧ q.gen = gen) := by
  unfold State.dropContext at h
  extract_lets mine tids ws qs bs ys s1 at h
  obtain ⟨cs, hcs⟩ : ∃ cs, s1 = { s with cores := cs } := State.foldl_updCore_eq _ _ s
  obtain ⟨hq, hid⟩ := List.mem_filter.1 h
  rw [hcs] at hq
  rintro ⟨hctx, hgen⟩
  have : q.id ∈ qs := List.mem_map.2 ⟨q, List.mem_filter.2 ⟨hq, by simp [hctx, hgen]⟩, rfl⟩
  simp [this] at hid

/-- A context let go has no translation. -/
theorem State.dropContext_tlb (s : State) (ctx gen : Nat) {x : TlbEntry}
    (h : x ∈ (s.dropContext ctx gen).tlb ++ (s.dropContext ctx gen).dtlb) : ¬ (x.ctx = ctx ∧ x.gen = gen) := by
  rcases List.mem_append.1 h with h | h <;> exact ne_of_not_mine (List.mem_filter.1 h).2

/-- The kill of a context that is not live changes nothing. -/
theorem exec_fwContextKill_not_live {s : State} {ctx : Nat} (h : ∀ c, s.ctx? ctx = some c → c.cstate ≠ 1) :
    exec (.fwContextKill ctx) s = .next s := by
  rw [exec_fwContextKill_eq, execFwContextKill]
  split
  · rfl
  · rename_i c hc
    rw [if_pos (h c hc)]

/-- What the kill of a live context leaves of it. -/
def Ctx.killed (c : Ctx) : Ctx := { c with gen := (c.gen + 1) % 2 ^ 32, cstate := 2, energy := 0, poolUsed := [] }

/-- The kill of a live context lets go of all that its generation runs, and leaves the context dying, with a raised generation. -/
theorem exec_fwContextKill_live {s : State} {ctx : Nat} {c : Ctx} (hc : s.ctx? ctx = some c) (h : c.cstate = 1) :
    exec (.fwContextKill ctx) s = .next (((s.answerSaves ctx c.gen).dropContext ctx c.gen).updCtx ctx Ctx.killed) := by
  rw [exec_fwContextKill_eq, execFwContextKill, hc]
  simp only [ne_eq, h, not_true_eq_false, if_false]
  rfl

/-- Creation of a context is refused before the device is up, for a number or partition out of range, and for a number in use. -/
theorem exec_fwContextCreate_refused {s : State} {ctx part : Nat} (root ffl fflen pool len : Nat)
    (h : s.boot ≠ .up ∨ 4096 ≤ ctx ∨ 32 ≤ part ∨ ∃ c, s.ctx? ctx = some c ∧ c.cstate ≠ 0) :
    exec (.fwContextCreate ctx root part ffl fflen pool len) s = .next s := by
  rw [exec_fwContextCreate_eq, execFwContextCreate, if_pos]
  rcases h with h | h | h | ⟨c, hc, h⟩
  · exact .inl h
  · exact .inr (.inl h)
  · exact .inr (.inr (.inl h))
  · exact .inr (.inr (.inr (by simp [hc, h])))

/-- A free number becomes a live context; one that is used again with a raised generation. -/
theorem exec_fwContextCreate_free {s : State} {ctx part : Nat} (root ffl fflen pool len : Nat) (hb : s.boot = .up) (hctx : ctx < 4096)
    (hpart : part < 32) (h : ∀ c, s.ctx? ctx = some c → c.cstate = 0) :
    exec (.fwContextCreate ctx root part ffl fflen pool len) s = .next { s with
      ctxs := ⟨ctx, root, (match s.ctx? ctx with | some c => (c.gen + 1) % 2 ^ 32 | none => 0), part, 1, ffl, fflen, 0, 0, pool, len, []⟩ ::
        s.ctxs.filter (·.id != ctx) } := by
  rw [exec_fwContextCreate_eq, execFwContextCreate]
  refine congrArg Host.Outcome.next (if_neg ?_)
  rintro (hn | hn | hn | hn)
  · exact hn hb
  · omega
  · omega
  · cases hc : s.ctx? ctx with
    | none => simp [hc] at hn
    | some c => simp [hc, h c hc] at hn

/-! ### Partitions -/

/-- No cluster past the last, none before the device is up and none that holds work changes its partition. -/
theorem exec_fwPartitionAssign_refused {s : State} {cluster : Nat} (part : Option (Fin 32))
    (h : 32 ≤ cluster ∨ s.boot ≠ .up ∨ s.clusterBusy cluster = true) : exec (.fwPartitionAssign cluster part) s = .next s := by
  rw [exec_fwPartitionAssign_eq, execFwPartitionAssign]
  split
  · rw [if_pos]
    rcases h with h | h | h
    · omega
    · exact .inl h
    · exact .inr h
  · rfl

/-- A cluster that holds no work changes its partition, and only the energy state beside it. -/
theorem exec_fwPartitionAssign_free {s : State} {cluster : Nat} (part : Option (Fin 32)) (h : cluster < 32) (hb : s.boot = .up)
    (hf : s.clusterBusy cluster = false) :
    exec (.fwPartitionAssign cluster part) s = .next (State.markHeld { s.markHeld with parts := s.parts.set cluster part }) := by
  rw [exec_fwPartitionAssign_eq, execFwPartitionAssign, dif_pos h, if_neg (by simp [hb, hf])]

end Sys2Proof.Machine

namespace Sys2Proof.Claim
open Sys2Proof Sys2Proof.Machine

/-- What lies outside the device, as the statements and as the model say it. -/
theorem outsideKey_iff (k : Nat) : outsideKey k = true ↔ Outer k := by simp [outsideKey, Outer]

/-- A byte of a memory of which what lies outside the device was kept. -/
theorem readCell_outer {m : List Host.Cell} {k : Nat} (h : Outer k) : readCell (m.filter fun x => outsideKey x.1) k = readCell m k := by
  rw [readCell_filter, if_pos ((outsideKey_iff k).2 h)]

theorem readCell_not_outer {m : List Host.Cell} {k : Nat} (h : ¬ Outer k) : readCell (m.filter fun x => outsideKey x.1) k = 0 := by
  rw [readCell_filter, if_neg fun hk => h ((outsideKey_iff k).1 hk)]

/-- A chain after a warm reset: it goes on from a last record that verifies, and starts anew from any other. -/
theorem warmed_chain (c : Chain) (now : Nat) (boot : W128) :
    (c.warmed now boot).part = c.part ∧
    (c.last ≠ [] → recordVerifies c.part c.last = true → (c.warmed now boot).seq = c.seq ∧ (c.warmed now boot).boot = c.boot ∧
      (c.warmed now boot).prev = c.prev ∧ (c.warmed now boot).account = c.cum ∧ (c.warmed now boot).t0 = fieldAt c.last 40 8 ∧
      (c.warmed now boot).warm = true ∧ (c.warmed now boot).gap = true) ∧
    (c.last = [] ∨ recordVerifies c.part c.last = false → (c.warmed now boot).seq = 0 ∧ (c.warmed now boot).account = 0 ∧
      (c.warmed now boot).t0 = now ∧ (c.warmed now boot).last = []) := by
  unfold Chain.warmed
  split
  · rename_i h
    exact ⟨rfl, fun _ _ => ⟨rfl, rfl, rfl, rfl, rfl, rfl, rfl⟩, by simp [h.1, h.2]⟩
  · rename_i h
    exact ⟨rfl, fun hl hv => absurd ⟨hl, hv⟩ h, fun _ => ⟨rfl, rfl, rfl, rfl⟩⟩

/-- Settles O55: each clause from what its event leaves, as the lemmas on the arms say it. -/
theorem resetsAndFirmwareRequests : Obligations.ResetsAndFirmwareRequests := by
  unfold Obligations.ResetsAndFirmwareRequests
  refine ⟨?power, ?verify, ?warm, ?create, ?kill, ?assign⟩
  case power =>
    intro s i ok hi
    obtain ⟨l, hl⟩ := exec_power_eq s hi
    exact ⟨_, hl, rfl, rfl, rfl, rfl, rfl, rfl, rfl, rfl, rfl, rfl, State.reset_core, fun k => readCell_outer, fun k => readCell_not_outer, rfl⟩
  case verify =>
    intro s d g ports failing boot
    refine ⟨fun h1 h2 => congrArg _ (if_pos ⟨h1, h2⟩), fun hb ht hu hl => ?_⟩
    cases hv : Config.firmwareVerify d g with
    | false => exact ⟨_, exec_firmwareImageVerify_bad ports failing boot hb hv, rfl, fun _ _ => rfl, by simp, by simp [ht]⟩
    | true =>
      obtain ⟨l, io, e, h⟩ := exec_firmwareImageVerify_good ports failing boot hb hl hv
      refine ⟨_, h, rfl, fun k hk => readCell_outer (by simpa using hk), fun k hk _ => readCell_not_outer hk, fun c hc => ?_⟩
      exact (State.startAgents_agent_iff (by exact ht) hc).trans (by simp [hu])
  case warm =>
    refine fun s => ⟨fun h => congrArg _ (if_pos h), fun hb hd hh hc => ?_⟩
    obtain ⟨l, boot, h⟩ := exec_warmReset_up hb hd hh hc
    refine ⟨_, h, rfl, rfl, rfl, rfl, rfl, rfl, rfl, rfl, fun k hk => ?_, fun k hk => ?_, fun c hs => ?_⟩
    · exact (readCell_filter (fun k => decide (k < 2 ^ 66)) s.mem k).trans (if_pos (decide_eq_true hk))
    · exact (readCell_filter (fun k => decide (k < 2 ^ 66)) s.mem k).trans (if_neg (by simpa using hk))
    · obtain ⟨b, hm⟩ := State.markHeld_chains_singleton hs
      exact ⟨_, congrArg (List.map _) hm, warmed_chain { c with held := b } s.timeB boot⟩
  case create =>
    exact fun s ctx root part ffl fflen pool len =>
      ⟨exec_fwContextCreate_refused root ffl fflen pool len, exec_fwContextCreate_free root ffl fflen pool len⟩
  case kill =>
    refine fun s ctx => ⟨exec_fwContextKill_not_live, fun c hc h => ⟨_, exec_fwContextKill_live hc h, ?_⟩⟩
    obtain ⟨m, ts, hsave⟩ := s.answerSaves_eq ctx c.gen
    obtain ⟨hmem, hmerges, hctxs⟩ := (s.answerSaves ctx c.gen).dropContext_kept ctx c.gen
    rw [State.updCtx_mem, State.updCtx_merges, State.updCtx_all, State.updCtx_queues, State.updCtx_tlb, State.updCtx_dtlb,
      State.updCtx_ctx? _ ctx (by exact fun _ => rfl), hmem, hmerges]
    refine ⟨?_, fun _ => by rw [hsave], by rw [hsave], fun u => State.dropContext_all _ ctx c.gen,
      fun q => State.dropContext_queues _ ctx c.gen, fun x => State.dropContext_tlb _ ctx c.gen⟩
    have hold : ((s.answerSaves ctx c.gen).dropContext ctx c.gen).ctx? ctx = some c := by
      rw [State.ctx?, hctxs, hsave]
      exact hc
    rw [hold]
    rfl
  case assign =>
    exact fun s cluster part => ⟨exec_fwPartitionAssign_refused part, fun h hb hf => ⟨_, exec_fwPartitionAssign_free part h hb hf, rfl⟩⟩

end Sys2Proof.Claim
end

section
/-!
PROOFS. What reset leaves (spec/01 R20; spec/12 R211; spec/20 R301, R304), and the time port (spec/01 R19, R20; log 25).
-/
namespace Sys2Proof.Machine
open Sys2Proof

/-! ### Messages of the time port -/

theorem exec_ptpSyncReceive_eq (src : Nat) (tr : PtpTransport) (d : BitVec 8) (li : Int) (times : SyncTimes) (s : State) :
    exec (.ptpSyncReceive src tr d li times) s = execPtpSyncReceive src tr d li times s := rfl
theorem exec_ptpAnnounceReceive_eq (src prio1 : Nat) (q : ClockQuality) (prio2 : Nat) (tr : PtpTransport) (d : BitVec 8) (s : State) :
    exec (.ptpAnnounceReceive src prio1 q prio2 tr d) s = execPtpAnnounceReceive src prio1 q prio2 tr d s := rfl
theorem exec_ptpDelayRespReceive_eq (src : Nat) (tr : PtpTransport) (d : BitVec 8) (del : Int) (s : State) :
    exec (.ptpDelayRespReceive src tr d del) s = execPtpDelayRespReceive src tr d del s := rfl
theorem exec_ptpSyncTimeout_eq (s : State) : exec .ptpSyncTimeout s = execPtpSyncTimeout s := rfl

/-- A message of a transport that is not enabled is dropped. -/
theorem State.ptp_dropped {s : State} {tr : PtpTransport} (d : BitVec 8) (k : State → State) (h : s.transportOn tr = false) :
    s.ptp tr d k = s.dropFrameAt := by simp [State.ptp, h]

/-- A message of another domain is ignored. -/
theorem State.ptp_ignored {s : State} {tr : PtpTransport} {d : BitVec 8} (k : State → State) (h : s.transportOn tr = true)
    (hd : s.ptpcfg.setWidth 8 ≠ d) : s.ptp tr d k = s := by simp [State.ptp, h, hd]

/-- A message of an enabled transport and of the port's domain is handled. -/
theorem State.ptp_handled {s : State} {tr : PtpTransport} {d : BitVec 8} (k : State → State) (h : s.transportOn tr = true)
    (hd : s.ptpcfg.setWidth 8 = d) : s.ptp tr d k = k s := by simp [State.ptp, h, hd]

/-- A clock is the selected master exactly where the master has its identity. -/
theorem TimePort.isMaster_iff {p : TimePort} {src : Nat} : p.isMaster src = true ↔ ∃ y, p.master = some y ∧ y.src = src := by
  cases h : p.master <;> simp [TimePort.isMaster, h]

/-- Marking the intervals outside LOCKED changes the energy state alone. -/
theorem State.markUnsync_eq (s : State) : ∃ e, s.markUnsync = { s with energy := e } := by
  unfold State.markUnsync
  split
  · exact ⟨s.energy, rfl⟩
  · exact ⟨_, rfl⟩

/-- Outside LOCKED every chain is marked. -/
theorem State.markUnsync_unsync {s : State} (h : s.time.timest ≠ 1) : ∀ c ∈ s.markUnsync.energy.chains, c.unsync = true := by
  intro c hc
  rw [State.markUnsync, if_neg h] at hc
  obtain ⟨c', _, rfl⟩ := List.mem_map.1 hc
  rfl

/-! ### The Sync interval and the servo -/

theorem syncInterval_none {li : Int} (h : li < -4 ∨ 1 < li) : syncInterval li = none := if_neg (by omega)
theorem syncInterval_some {li : Int} (h1 : -4 ≤ li) (h2 : li ≤ 1) : syncInterval li = some (62500000 * 2 ^ (li + 4).toNat) := if_pos ⟨h1, h2⟩

/-- A truncated quotient times a part of its divisor lies between 0 and the dividend. -/
theorem tdiv_mul_between (a : Int) {b n : Nat} (hn : n ≤ b) :
    (0 ≤ a → 0 ≤ a.tdiv b * n ∧ a.tdiv b * n ≤ a) ∧ (a ≤ 0 → a ≤ a.tdiv b * n ∧ a.tdiv b * n ≤ 0) := by
  have pos : ∀ x : Int, 0 ≤ x → 0 ≤ x.tdiv b * n ∧ x.tdiv b * n ≤ x := by
    intro x hx
    have hq : 0 ≤ x.tdiv b := Int.tdiv_nonneg hx (by omega)
    refine ⟨by positivity, ?_⟩
    calc x.tdiv b * n ≤ x.tdiv b * b := by gcongr
      _ ≤ x := by linarith [Int.mul_tdiv_add_tmod x b, Int.tmod_nonneg (b : Int) hx]
  refine ⟨pos a, fun ha => ?_⟩
  have := pos (-a) (by omega)
  rw [Int.neg_tdiv] at this
  constructor <;> linarith

/-- The rate that the servo sets within ±200 ns leads, at any moment of three Sync intervals, to an offset within ±200 ns. -/
theorem servoRate_keeps (x interval : Nat) {offset : Int} (h1 : -200 ≤ offset) (h2 : offset ≤ 200) {n : Nat} (hn : n ≤ 3 * interval) :
    -200 * 1000000000 ≤ offset * 1000000000 + servoRate x interval offset * n ∧
      offset * 1000000000 + servoRate x interval offset * n ≤ 200 * 1000000000 := by
  rw [servoRate, if_pos (by omega)]
  obtain ⟨hp, hm⟩ := tdiv_mul_between (((x % 401 : Nat) - 200 - offset) * 1000000000) hn
  have hx : x % 401 < 401 := Nat.mod_lt _ (by decide)
  push_cast at hp hm ⊢
  rcases le_total 0 (((x % 401 : Nat) - 200 - offset : Int)) with hs | hs
  · have := hp (by omega)
    omega
  · have := hm (by omega)
    omega

/-- The rate that the servo sets is at most 200 ppm, for an interval of at least 62.5 ms. -/
theorem servoRate_bounded (x : Nat) {interval : Nat} (offset : Int) (hi : 62500000 ≤ interval) :
    -200000 ≤ servoRate x interval offset ∧ servoRate x interval offset ≤ 200000 := by
  by_cases ho : offset.natAbs ≤ 200
  · have := servoRate_keeps x interval (offset := offset) (n := 187500000) (by omega) (by omega) (by omega)
    omega
  · rw [servoRate, if_neg ho]
    split <;> omega

/-- Beyond ±200 ns the rate that the servo sets does not widen the offset. -/
theorem servoRate_closes (x interval : Nat) (offset : Int) :
    (200 < offset → servoRate x interval offset ≤ 0) ∧ (offset < -200 → 0 ≤ servoRate x interval offset) := by
  constructor <;> intro h <;> rw [servoRate, if_neg (by omega)]
  · rw [if_pos (by omega)]; omega
  · rw [if_neg (by omega)]; omega

/-- The judgement of an offset changes the time state, its counts and the 1PPS output alone. -/
theorem TimePort.judge_eq (p : TimePort) (offset : Int) : ∃ st g b e q,
    p.judge offset = { p with timest := st, good := g, bad := b, everLocked := e, pps := q } := by
  unfold TimePort.judge
  extract_lets g b
  split
  · exact ⟨_, _, _, _, _, rfl⟩
  · split
    · exact ⟨_, _, _, p.everLocked, p.pps, rfl⟩
    · exact ⟨p.timest, _, _, p.everLocked, p.pps, rfl⟩

/-- The first lock starts the 1PPS output from the second that it falls in. -/
theorem TimePort.judge_first_lock {p : TimePort} {offset : Int} (he : p.everLocked = false) (h : p.timest ≠ 1)
    (hl : (p.judge offset).timest = 1) : (p.judge offset).everLocked = true ∧ (p.judge offset).pps = p.second := by
  unfold TimePort.judge at hl ⊢
  extract_lets at hl ⊢
  split at hl
  · rename_i hc
    rw [if_pos hc]
    exact ⟨rfl, by simp [he]⟩
  · rw [if_neg (fun hc => h hc.1)] at hl
    exact absurd hl h

/-! ### What a Sync does (`exec_ptpSyncReceive_master`) -/

/-- The time port as a Sync finds it: its interval taken, EPOCHOFF set if it was not. -/
def TimePort.synced (p : TimePort) (iv : Nat) (m rx : Int) : TimePort :=
  { p with
    interval := iv
    lastSync := p.timeb.toNat
    epochSet := true
    epochoff := if p.epochSet then p.epochoff else BitVec.ofInt 64 (m + p.pathDelay - rx) }

/-- The offset that a Sync finds. -/
def TimePort.offsetAt (p : TimePort) (iv : Nat) (m rx : Int) : Int := rx + (p.synced iv m rx).epochoff.toInt - (m + p.pathDelay)

/-- The time port after a Sync: judged by its offset, with a new rate. -/
def TimePort.followed (p : TimePort) (x iv : Nat) (m rx : Int) : TimePort :=
  let q := (p.synced iv m rx).judge (p.offsetAt iv m rx)
  { q with rate := if q.timest = 0 then 0 else servoRate x iv (p.offsetAt iv m rx) }

/-- A Sync of the selected master at an interval that the port supports. -/
theorem exec_ptpSyncReceive_master {s : State} {src : Nat} {tr : PtpTransport} {d : BitVec 8} {li : Int} (m : Int) (age : Nat)
    (ht : s.transportOn tr = true) (hd : s.ptpcfg.setWidth 8 = d) (hs : s.time.isMaster src = true) (h1 : -4 ≤ li) (h2 : li ≤ 1) :
    ∃ e x, exec (.ptpSyncReceive src tr d li ⟨m, age⟩) s = .next { s with
      energy := e, fresh := s.fresh + 1
      time := s.time.followed x (62500000 * 2 ^ (li + 4).toNat) m ((s.time.timeb.toNat : Int) - age) } := by
  rw [exec_ptpSyncReceive_eq, execPtpSyncReceive, State.ptp_handled _ ht hd, syncInterval_some h1 h2]
  simp only [hs, not_true_eq_false, if_false]
  obtain ⟨e, he⟩ := State.markUnsync_eq { s with
    fresh := s.fresh + 1, time := s.time.followed s.draw.1 (62500000 * 2 ^ (li + 4).toNat) m ((s.time.timeb.toNat : Int) - age) }
  refine ⟨e, s.draw.1, congrArg _ (Eq.trans (congrArg State.markUnsync ?_) he)⟩
  cases hset : s.time.epochSet <;> simp [TimePort.followed, TimePort.offsetAt, TimePort.synced, State.draw, hset]

/-- What a Sync leaves of the port: the moment, EPOCHOFF and the interval as the Sync found them. -/
theorem TimePort.followed_kept (p : TimePort) (x iv : Nat) (m rx : Int) :
    (p.followed x iv m rx).timeb = p.timeb ∧ (p.followed x iv m rx).epochSet = true ∧ (p.followed x iv m rx).lastSync = p.timeb.toNat ∧
    (p.followed x iv m rx).interval = iv ∧ (p.followed x iv m rx).epochoff = (p.synced iv m rx).epochoff := by
  obtain ⟨st, g, b, e, q, h⟩ := TimePort.judge_eq (p.synced iv m rx) (p.offsetAt iv m rx)
  unfold TimePort.followed
  rw [h]
  exact ⟨rfl, rfl, rfl, rfl, rfl⟩

/-- The rate after a Sync: nominal in FREERUN, else the servo's. -/
theorem TimePort.followed_rate (p : TimePort) (x iv : Nat) (m rx : Int) : (p.followed x iv m rx).rate =
    if (p.followed x iv m rx).timest = 0 then 0 else servoRate x iv (p.offsetAt iv m rx) := rfl

/-- A Sync that no clock but the master's sent, or at another interval, changes nothing. -/
theorem exec_ptpSyncReceive_ignored {s : State} {src : Nat} {tr : PtpTransport} {d : BitVec 8} {li : Int} (times : SyncTimes)
    (ht : s.transportOn tr = true) (hd : s.ptpcfg.setWidth 8 = d) (h : s.time.isMaster src = false ∨ syncInterval li = none) :
    exec (.ptpSyncReceive src tr d li times) s = .next s := by
  rw [exec_ptpSyncReceive_eq, execPtpSyncReceive, State.ptp_handled _ ht hd]
  cases hi : syncInterval li with
  | none => rfl
  | some iv =>
    have hs : s.time.isMaster src = false := h.resolve_right (by simp [hi])
    simp [hs]

/-- The path delay is taken from the selected master alone. -/
theorem exec_ptpDelayRespReceive_handled {s : State} {src : Nat} {tr : PtpTransport} {d : BitVec 8} (del : Int)
    (ht : s.transportOn tr = true) (hd : s.ptpcfg.setWidth 8 = d) : exec (.ptpDelayRespReceive src tr d del) s =
      .next (if s.time.isMaster src then { s with time := { s.time with pathDelay := del } } else s) := by
  rw [exec_ptpDelayRespReceive_eq, execPtpDelayRespReceive, State.ptp_handled _ ht hd]

/-- An announced clock becomes the master where there is none, where it is the master's own, and where it is better. -/
theorem exec_ptpAnnounceReceive_handled {s : State} {x : Gm} {tr : PtpTransport} {d : BitVec 8}
    (ht : s.transportOn tr = true) (hd : s.ptpcfg.setWidth 8 = d) :
    exec (.ptpAnnounceReceive x.src x.prio1 ⟨x.cls, x.acc, x.var⟩ x.prio2 tr d) s =
      .next (if ∀ y, s.time.master = some y → y.src = x.src ∨ betterClock x y = true
        then { s with time := { s.time with master := some x } } else s) := by
  rw [exec_ptpAnnounceReceive_eq, execPtpAnnounceReceive, State.ptp_handled _ ht hd]
  cases hm : s.time.master <;> simp

end Sys2Proof.Machine

namespace Sys2Proof.Claim
open Sys2Proof Sys2Proof.Machine

/-- The time state after an offset is that of the rule. -/
theorem judge_lockRule (p : TimePort) (offset : Int) :
    ((p.judge offset).timest, (p.judge offset).good, (p.judge offset).bad) = lockRule p.timest p.good p.bad offset := by
  have hbad : (if 1000 < offset.natAbs then p.bad + 1 else 0) = if offset.natAbs ≤ 1000 then 0 else p.bad + 1 := by
    split <;> split <;> omega
  unfold TimePort.judge lockRule
  rw [hbad]
  extract_lets g b
  by_cases h1 : p.timest = 1
  · by_cases hb : 16 ≤ b <;> simp [h1, hb]
  · by_cases hg : 16 ≤ g <;> simp [h1, hg]

theorem portTakes_eq (s : State) (tr : PtpTransport) : portTakes s.ptpcfg tr = s.transportOn tr := by cases tr <;> rfl

/-- Every PTP message is handled by the port's rule on transports and domains. -/
theorem exec_ptpMessage {i : Instr} {tr : PtpTransport} {d : BitVec 8} (h : ptpMessage i = some (tr, d)) (s : State) :
    ∃ k, exec i s = .next (s.ptp tr d k) := by
  unfold ptpMessage at h
  split at h
  · cases h; exact ⟨_, rfl⟩
  · cases h; exact ⟨_, rfl⟩
  · cases h; exact ⟨_, rfl⟩
  · cases h

/-- The domain of a message is the port's. -/
theorem domain_iff (s : State) (d : BitVec 8) : s.ptpcfg.setWidth 8 = d ↔ s.ptpcfg.toNat % 2 ^ 8 = d.toNat := by
  rw [← BitVec.toNat_inj, BitVec.toNat_setWidth]

/-- The lexicographic order of two lists of numbers of one length: the first that differs decides. -/
theorem lexLt_zip_iff (xs ys : List Nat) (h : xs.length = ys.length) : lexLt (xs.zip ys) = true ↔
    ∃ n < xs.length, (∀ m < n, xs.getD m 0 = ys.getD m 0) ∧ xs.getD n 0 < ys.getD n 0 := by
  induction xs generalizing ys with
  | nil => simp [lexLt]
  | cons x xs ih =>
    cases ys with
    | nil => simp at h
    | cons y ys =>
      simp only [List.zip_cons_cons, lexLt, Bool.or_eq_true, decide_eq_true_eq, Bool.and_eq_true, beq_iff_eq, ih ys (by simpa using h)]
      constructor
      · rintro (hlt | ⟨rfl, n, hn, heq, hlt⟩)
        · exact ⟨0, by simp, by simp, hlt⟩
        · refine ⟨n + 1, by simpa using hn, fun m hm => ?_, hlt⟩
          cases m with
          | zero => rfl
          | succ m => exact heq m (by omega)
      · rintro ⟨n, hn, heq, hlt⟩
        cases n with
        | zero => exact .inl hlt
        | succ n => exact .inr ⟨heq 0 (by omega), n, by simpa using hn, fun m hm => heq (m + 1) (by omega), hlt⟩

/-- The best master clock algorithm prefers the better clock. -/
theorem betterClock_iff (x y : Gm) : betterClock x y = true ↔ Better x y :=
  lexLt_zip_iff [x.prio1, x.cls, x.acc, x.var, x.prio2, x.src] [y.prio1, y.cls, y.acc, y.var, y.prio2, y.src] rfl

/-- Settles O60: reset is a record of values, and its memory lists nothing. -/
theorem resetLeavesTheTable : Obligations.ResetLeavesTheTable := by
  unfold Obligations.ResetLeavesTheTable
  have hreg : ∀ n, n ∈ [0x0302, 0x0303, 0x0304, 0x0305, 0x0306, 0x0307, 0x0308, 0x0309, 0x030A] → State.reset.deviceReg n = 0 := by
    intro n hn
    simp only [List.mem_cons, List.not_mem_nil, or_false] at hn
    rcases hn with rfl | rfl | rfl | rfl | rfl | rfl | rfl | rfl | rfl <;> rfl
  refine ⟨Memory.wf_nil, fun _ => rfl, rfl, rfl, fun c => ?_, rfl, rfl, rfl, rfl, rfl, rfl, rfl, hreg, rfl, rfl, rfl⟩
  rw [State.reset_core]
  exact ⟨rfl, rfl, rfl, rfl, rfl⟩

/-- A Sync of the selected master follows it: what the port holds then, by the laws of `TimePort.followed`. -/
theorem followed_laws (p : TimePort) (x : Nat) {iv : Nat} (m rx : Int) (hiv : 62500000 ≤ iv) :
    let q := p.followed x iv m rx
    let offset := p.offsetAt iv m rx;
    -200000 ≤ q.rate ∧ q.rate ≤ 200000 ∧ (q.timest = 0 → q.rate = 0) ∧
    q.epochoff = (if p.epochSet then p.epochoff else BitVec.ofInt 64 (m + p.pathDelay - rx)) ∧
    offset = rx + q.epochoff.toInt - (m + p.pathDelay) ∧
    (q.timest, q.good, q.bad) = lockRule p.timest p.good p.bad offset ∧
    (q.timest ≠ 0 → -200 ≤ offset → offset ≤ 200 → ∀ n : Nat, n ≤ 3 * q.interval →
      -200 * 1000000000 ≤ offset * 1000000000 + q.rate * n ∧ offset * 1000000000 + q.rate * n ≤ 200 * 1000000000) ∧
    (q.timest ≠ 0 → (200 < offset → q.rate ≤ 0) ∧ (offset < -200 → 0 ≤ q.rate)) ∧
    (p.everLocked = false → p.timest ≠ 1 → q.timest = 1 → q.everLocked = true ∧ q.pps = (q.timeb + q.epochoff).toNat / 1000000000) := by
  intro q offset
  obtain ⟨htimeb, -, -, hinterval, hepoch⟩ := p.followed_kept x iv m rx
  have hrate : q.rate = if q.timest = 0 then 0 else servoRate x iv offset := p.followed_rate x iv m rx
  have hbound : -200000 ≤ q.rate ∧ q.rate ≤ 200000 := by
    rw [hrate]
    split
    · decide
    · exact servoRate_bounded x offset hiv
  refine ⟨hbound.1, hbound.2, fun h => by rw [hrate, if_pos h], hepoch, by rw [hepoch]; rfl, judge_lockRule _ _,
    fun h h1 h2 n hn => ?_, fun h => ?_, fun he h hl => ?_⟩
  · rw [hrate, if_neg h]
    exact servoRate_keeps x iv h1 h2 (hinterval ▸ hn)
  · rw [hrate, if_neg h]
    exact servoRate_closes x iv offset
  · obtain ⟨hever, hpps⟩ := TimePort.judge_first_lock (p := p.synced iv m rx) he h hl
    exact ⟨hever, by rw [htimeb, hepoch]; exact hpps⟩

/-- Settles O53: a message is dropped, ignored or handled by the port's rule; a Sync by what `TimePort.followed` says of it. -/
theorem timePortFollowsItsMaster : Obligations.TimePortFollowsItsMaster := by
  unfold Obligations.TimePortFollowsItsMaster
  refine ⟨?message, ?frame, ?master, ?other⟩
  case message =>
    intro s i tr d hi
    obtain ⟨k, hk⟩ := exec_ptpMessage hi s
    rw [hk, portTakes_eq]
    exact ⟨fun ht => congrArg _ (State.ptp_dropped d k ht), fun ht hd => congrArg _ (State.ptp_ignored k ht (mt (domain_iff s d).1 hd))⟩
  case frame =>
    intro s b tr
    rw [portTakes_eq]
    rfl
  case master =>
    intro s x src age tr d li m del ht hd
    rw [portTakes_eq] at ht
    rw [← domain_iff] at hd
    refine ⟨fun h => ?_, fun h => exec_ptpSyncReceive_ignored _ ht hd (.inr (syncInterval_none h)),
      fun y hy hsrc => ?_, fun hn => ?_, fun y hy => ?_⟩
    · have hs : s.time.isMaster src = false := by
        rw [← Bool.not_eq_true, TimePort.isMaster_iff]
        rintro ⟨y, hy, hsrc⟩
        exact h y hy hsrc
      refine ⟨exec_ptpSyncReceive_ignored _ ht hd (.inl hs), ?_⟩
      rw [exec_ptpDelayRespReceive_handled del ht hd, hs]
      rfl
    · have hs : s.time.isMaster src = true := TimePort.isMaster_iff.2 ⟨y, hy, hsrc⟩
      refine ⟨by rw [exec_ptpDelayRespReceive_handled del ht hd, hs]; rfl, fun h1 h2 => ?_⟩
      obtain ⟨e, z, hex⟩ := exec_ptpSyncReceive_master m age ht hd hs h1 h2
      obtain ⟨htimeb, hset, hlast, hinterval, -⟩ := s.time.followed_kept z (62500000 * 2 ^ (li + 4).toNat) m (s.time.timeb.toNat - age)
      have hiv : 62500000 ≤ 62500000 * 2 ^ (li + 4).toNat := Nat.le_mul_of_pos_right _ (by positivity)
      exact ⟨_, s.time.offsetAt (62500000 * 2 ^ (li + 4).toNat) m (s.time.timeb.toNat - age), _, hex, rfl, rfl, htimeb, hset, hlast,
        by rw [hinterval]; ring, followed_laws s.time z m _ hiv⟩
    · rw [exec_ptpAnnounceReceive_handled ht hd, if_pos (by simp [hn])]
    · rw [exec_ptpAnnounceReceive_handled ht hd]
      refine ⟨fun h => ?_, fun h1 h2 => ?_⟩
      · rw [if_pos (by simpa [hy, betterClock_iff] using h)]
      · rw [if_neg (by simpa [hy, betterClock_iff] using ⟨h1, h2⟩)]
  case other =>
    refine fun s => ⟨fun h => ?_, fun h1 h2 => ?_, rfl, fun v4 v6 => rfl⟩
    · rw [exec_ptpSyncTimeout_eq, execPtpSyncTimeout, if_neg]
      rintro ⟨h1, h2⟩
      rcases h with h | h
      · exact h h1
      · omega
    · rw [exec_ptpSyncTimeout_eq, execPtpSyncTimeout, if_pos ⟨h1, h2⟩]
      obtain ⟨e, he⟩ := State.markUnsync_eq { s with time := { s.time with timest := 2, good := 0, bad := 0 } }
      have hu := State.markUnsync_unsync (s := { s with time := { s.time with timest := 2, good := 0, bad := 0 } }) (by simp)
      rw [he] at hu ⊢
      exact ⟨_, rfl, rfl, rfl, rfl, hu⟩

end Sys2Proof.Claim
end

section
/-!
PROOFS. The fields of an instruction word and the formats that they make (spec/02 R29, R42, R43).
-/
namespace Sys2Proof

/-! ### Fields of a word -/

theorem bits_lt (w lo n : Nat) : bits w lo n < 2 ^ n := Nat.mod_lt _ (Nat.two_pow_pos n)

/-- A field is its low part and its high part. -/
theorem bits_add (w lo m n : Nat) : bits w lo (m + n) = bits w lo m + 2 ^ m * bits w (lo + m) n := by
  simp only [bits, pow_add, Nat.mod_mul, Nat.div_div_eq_div_mul]

/-- A number of mixed radix in a field: its high and its low part are fields. -/
theorem bits_eq_iff (m n : Nat) {w lo k p x y : Nat} (hp : p = 2 ^ m) (hk : k = m + n) (hx : x < p) :
    bits w lo k = y * p + x ↔ bits w (lo + m) n = y ∧ bits w lo m = x := by
  have hb := bits_lt w lo m
  rw [hk, bits_add, ← hp]
  rw [← hp] at hb
  constructor
  · intro h
    have hlow : bits w lo m = x := by
      simpa [Nat.add_mul_mod_self_left, Nat.mul_add_mod_self_right, Nat.mod_eq_of_lt hx, Nat.mod_eq_of_lt hb] using congrArg (· % p) h
    rw [hlow, Nat.add_comm, Nat.mul_comm] at h
    exact ⟨Nat.eq_of_mul_eq_mul_right (by omega) (Nat.add_right_cancel h), hlow⟩
  · rintro ⟨rfl, rfl⟩
    rw [Nat.mul_comm, Nat.add_comm]

/-- A number of fewer bits in a field: the high part of the field is 0. -/
theorem bits_eq_low_iff (m n : Nat) {w lo k x : Nat} (hk : k = m + n) (hx : x < 2 ^ m) :
    bits w lo k = x ↔ bits w lo m = x ∧ bits w (lo + m) n = 0 := by
  simpa [and_comm] using bits_eq_iff (w := w) (lo := lo) (y := 0) m n rfl hk hx

/-- The body of a word, beside its chain and switch bits. -/
theorem body_eq (w : Nat) : w % 2 ^ 30 = bits w 0 30 := by simp [bits]

@[simp] theorem reg6_val (w lo : Nat) : (reg6 w lo).val = bits w lo 6 := rfl
@[simp] theorem reg4_val (w lo : Nat) : (reg4 w lo).val = bits w lo 4 := rfl
@[simp] theorem reg3_val (w lo : Nat) : (reg3 w lo).val = bits w lo 3 := rfl

theorem reg6_eq_iff {w lo : Nat} {d : Fin 64} : reg6 w lo = d ↔ bits w lo 6 = d.val := by rw [Fin.ext_iff, reg6_val]
theorem reg4_eq_iff {w lo : Nat} {d : Fin 16} : reg4 w lo = d ↔ bits w lo 4 = d.val := by rw [Fin.ext_iff, reg4_val]
theorem reg3_eq_iff {w lo : Nat} {d : Fin 8} : reg3 w lo = d ↔ bits w lo 3 = d.val := by rw [Fin.ext_iff, reg3_val]
theorem flag_eq_iff {w lo : Nat} {b : Bool} : flag w lo = b ↔ bits w lo 1 = b.toNat := by cases b <;> simp [flag, bits]
theorem guardAt_eq_iff {w lo : Nat} {g : Guard} : guardAt w lo = g ↔ bits w lo 4 = g.code := by
  obtain ⟨n, p⟩ := g
  rw [guardAt, Guard.mk.injEq, flag_eq_iff, reg3_eq_iff]
  exact (bits_eq_iff 3 1 rfl rfl p.isLt).symm
@[simp] theorem flag_toNat (w lo : Nat) : (flag w lo).toNat = bits w lo 1 := (flag_eq_iff.1 rfl).symm

/-- An immediate at bit `lo`. -/
theorem ofNat_eq_iff {w lo n : Nat} {k : BitVec n} : BitVec.ofNat n (w / 2 ^ lo) = k ↔ bits w lo n = k.toNat := by
  rw [← BitVec.toNat_inj, BitVec.toNat_ofNat, bits]
theorem ofNat_low_eq_iff {w n : Nat} {k : BitVec n} : BitVec.ofNat n w = k ↔ bits w 0 n = k.toNat := by
  rw [← ofNat_eq_iff, pow_zero, Nat.div_one]

/-! ### Codes of fields -/

@[simp] theorem ftypeOf_code (t : FType) : ftypeOf t.code = some t := by cases t <;> rfl
@[simp] theorem rtypeOf_code (t : RType) : rtypeOf t.code = some t := by cases t <;> rfl
@[simp] theorem rndOf_code (r : Rnd) : rndOf r.code = r := by cases r <;> rfl
@[simp] theorem mxfmtOf_code (m : MxFmt) : mxfmtOf m.code = some m := by cases m <;> rfl
@[simp] theorem scopeOf_code (o : Scope) : scopeOf o.code = some o := by cases o <;> rfl
@[simp] theorem orderingOf_code (r : Ordering3) : orderingOf r.code = some r := by
  cases r with
  | plain => rfl
  | at_ o => cases o <;> rfl
@[simp] theorem ldSizeOf_code (z : LdSize) : ldSizeOf z.code = some z := by cases z <;> rfl
@[simp] theorem stSizeOf_code (z : StSize) : stSizeOf z.code = some z := by cases z <;> rfl
@[simp] theorem ssizeOf_code (z : SSize) : ssizeOf z.code = z := by cases z <;> rfl
@[simp] theorem classOf_code (k : OpClass) : classOf k.code = some k := by cases k <;> rfl
@[simp] theorem hretOf_code (t : HretStatus) : hretOf t.code = some t := by cases t <;> rfl

theorem code_of_ftypeOf {n : Nat} {t : FType} (h : ftypeOf n = some t) : t.code = n := by
  unfold ftypeOf at h; split at h <;> cases h <;> rfl
theorem code_of_rtypeOf {n : Nat} {t : RType} (h : rtypeOf n = some t) : t.code = n := by
  unfold rtypeOf at h; split at h <;> cases h <;> rfl
theorem code_of_mxfmtOf {n : Nat} {m : MxFmt} (h : mxfmtOf n = some m) : m.code = n := by
  unfold mxfmtOf at h; split at h <;> cases h <;> rfl
theorem code_of_scopeOf {n : Nat} {o : Scope} (h : scopeOf n = some o) : o.code = n := by
  unfold scopeOf at h; split at h <;> cases h <;> rfl
theorem code_of_orderingOf {n : Nat} {r : Ordering3} (h : orderingOf n = some r) : r.code = n := by
  unfold orderingOf at h; split at h <;> cases h <;> rfl
theorem code_of_ldSizeOf {n : Nat} {z : LdSize} (h : ldSizeOf n = some z) : z.code = n := by
  unfold ldSizeOf at h; split at h <;> cases h <;> rfl
theorem code_of_stSizeOf {n : Nat} {z : StSize} (h : stSizeOf n = some z) : z.code = n := by
  unfold stSizeOf at h; split at h <;> cases h <;> rfl
theorem code_of_classOf {n : Nat} {k : OpClass} (h : classOf n = some k) : k.code = n := by
  unfold classOf at h; split at h <;> cases h <;> rfl
theorem code_of_hretOf {n : Nat} {t : HretStatus} (h : hretOf n = some t) : t.code = n := by
  unfold hretOf at h; split at h <;> cases h <;> rfl

/-- The rounding field of a word, back as its code. -/
@[simp] theorem rndOf_bits_code (w lo : Nat) : (rndOf (bits w lo 2)).code = bits w lo 2 := by
  have h := bits_lt w lo 2
  generalize bits w lo 2 = n at h ⊢
  interval_cases n <;> rfl
@[simp] theorem ssizeOf_bits_code (w lo : Nat) : (ssizeOf (bits w lo 2)).code = bits w lo 2 := by
  have h := bits_lt w lo 2
  generalize bits w lo 2 = n at h ⊢
  interval_cases n <;> rfl
theorem atWidthOf_eq_iff {b : Bool} {z : AtWidth} : atWidthOf b = z ↔ b.toNat = z.code := by cases b <;> cases z <;> decide

/-! ### Formats (spec/02 R43): the fields of a word that an encoding makes, and the word of its fields -/

theorem fVR_fields {w maj f : Nat} {d a b : Fin 64} {g : Guard} (hf : f < 4) :
    fVR maj d a b g f = w % 2 ^ 30 ↔
      bits w 24 6 = maj ∧ reg6 w 18 = d ∧ reg6 w 12 = a ∧ reg6 w 6 = b ∧ guardAt w 2 = g ∧ bits w 0 2 = f := by
  have := g.code_lt
  simp only [reg6_eq_iff, guardAt_eq_iff, fVR, Nat.add_assoc]
  rw [eq_comm, body_eq, bits_eq_iff 24 6 rfl rfl (by omega), bits_eq_iff 18 6 rfl rfl (by omega), bits_eq_iff 12 6 rfl rfl (by omega),
    bits_eq_iff 6 6 rfl rfl (by omega), bits_eq_iff 2 4 (p := 4) rfl rfl (by omega)]

theorem fVC_fields {w maj f : Nat} {p q : PReg} {a b : Fin 64} {g : Guard} (hf : f < 4) :
    fVC maj p q a b g f = w % 2 ^ 30 ↔
      bits w 24 6 = maj ∧ reg3 w 21 = p ∧ reg3 w 18 = q ∧ reg6 w 12 = a ∧ reg6 w 6 = b ∧ guardAt w 2 = g ∧ bits w 0 2 = f := by
  have := g.code_lt
  simp only [reg6_eq_iff, reg3_eq_iff, guardAt_eq_iff, fVC, Nat.add_assoc]
  rw [eq_comm, body_eq, bits_eq_iff 24 6 rfl rfl (by omega), bits_eq_iff 21 3 rfl rfl (by omega), bits_eq_iff 18 3 rfl rfl (by omega),
    bits_eq_iff 12 6 rfl rfl (by omega), bits_eq_iff 6 6 rfl rfl (by omega), bits_eq_iff 2 4 (p := 4) rfl rfl (by omega)]

theorem fVU_fields {w maj n f : Nat} {d a : Fin 64} {g : Guard} (hn : n < 64) (hf : f < 4) :
    fVU maj d a n g f = w % 2 ^ 30 ↔
      bits w 24 6 = maj ∧ reg6 w 18 = d ∧ reg6 w 12 = a ∧ bits w 6 6 = n ∧ guardAt w 2 = g ∧ bits w 0 2 = f := by
  have := g.code_lt
  simp only [reg6_eq_iff, guardAt_eq_iff, fVU, Nat.add_assoc]
  rw [eq_comm, body_eq, bits_eq_iff 24 6 rfl rfl (by omega), bits_eq_iff 18 6 rfl rfl (by omega), bits_eq_iff 12 6 rfl rfl (by omega),
    bits_eq_iff 6 6 rfl rfl (by omega), bits_eq_iff 2 4 (p := 4) rfl rfl (by omega)]

theorem fSR_fields {w maj x y z c : Nat} (hx : x < 64) (hy : y < 64) (hz : z < 64) (hc : c < 64) :
    fSR maj x y z c = w % 2 ^ 30 ↔
      bits w 24 6 = maj ∧ bits w 18 6 = x ∧ bits w 12 6 = y ∧ bits w 6 6 = z ∧ bits w 0 6 = c := by
  simp only [fSR, Nat.add_assoc]
  rw [eq_comm, body_eq, bits_eq_iff 24 6 rfl rfl (by omega), bits_eq_iff 18 6 rfl rfl (by omega), bits_eq_iff 12 6 rfl rfl (by omega),
    bits_eq_iff 6 6 rfl rfl (by omega)]

theorem fSI_fields {w maj f imm : Nat} {d a : Fin 64} (hf : f < 4) (hi : imm < 2 ^ 10) :
    fSI maj d a f imm = w % 2 ^ 30 ↔
      bits w 24 6 = maj ∧ reg6 w 18 = d ∧ reg6 w 12 = a ∧ bits w 10 2 = f ∧ bits w 0 10 = imm := by
  simp only [reg6_eq_iff, fSI, Nat.add_assoc]
  rw [eq_comm, body_eq, bits_eq_iff 24 6 rfl rfl (by omega), bits_eq_iff 18 6 rfl rfl (by omega), bits_eq_iff 12 6 rfl rfl (by omega),
    bits_eq_iff 10 2 rfl rfl (by omega)]

theorem fSQ_fields {w maj f imm : Nat} {d : Fin 64} (hf : f < 4) (hi : imm < 2 ^ 16) :
    fSQ maj d f imm = w % 2 ^ 30 ↔
      bits w 24 6 = maj ∧ reg6 w 18 = d ∧ bits w 16 2 = f ∧ bits w 0 16 = imm := by
  simp only [reg6_eq_iff, fSQ, Nat.add_assoc]
  rw [eq_comm, body_eq, bits_eq_iff 24 6 rfl rfl (by omega), bits_eq_iff 18 6 rfl rfl (by omega), bits_eq_iff 16 2 rfl rfl (by omega)]

theorem fAR_fields {w d a b sh f : Nat} (hd : d < 16) (ha : a < 16) (hb : b < 64) (hs : sh < 8) (hf : f < 4) :
    fAR d a b sh f = w % 2 ^ 30 ↔
      bits w 24 6 = 5 ∧ bits w 20 4 = d ∧ bits w 16 4 = a ∧ bits w 10 6 = b ∧ bits w 7 3 = sh ∧ bits w 5 2 = f ∧ bits w 0 5 = 0 := by
  rw [eq_comm, body_eq, ← Nat.add_zero (fAR d a b sh f)]
  simp only [fAR, Nat.add_assoc]
  rw [bits_eq_iff 24 6 rfl rfl (by omega), bits_eq_iff 20 4 rfl rfl (by omega), bits_eq_iff 16 4 rfl rfl (by omega),
    bits_eq_iff 10 6 rfl rfl (by omega), bits_eq_iff 7 3 rfl rfl (by omega), bits_eq_iff 5 2 rfl rfl (by omega)]

theorem fMV_fields {w maj z : Nat} {d o : VReg} {a : AReg} {g : Guard} (hz : z < 16) :
    fMV maj d a o g z = w % 2 ^ 30 ↔
      bits w 24 6 = maj ∧ reg6 w 18 = d ∧ reg4 w 14 = a ∧ reg6 w 8 = o ∧ guardAt w 4 = g ∧ bits w 0 4 = z := by
  have := g.code_lt
  simp only [reg6_eq_iff, reg4_eq_iff, guardAt_eq_iff, fMV, Nat.add_assoc]
  rw [eq_comm, body_eq, bits_eq_iff 24 6 rfl rfl (by omega), bits_eq_iff 18 6 rfl rfl (by omega), bits_eq_iff 14 4 rfl rfl (by omega),
    bits_eq_iff 8 6 rfl rfl (by omega), bits_eq_iff 4 4 rfl rfl (by omega)]

theorem fMS_fields {w maj : Nat} {d : SReg} {a : AReg} {r : Ordering3} {z : SSize} {i : BitVec 9} :
    fMS maj d a r z i = w % 2 ^ 30 ↔
      bits w 24 6 = maj ∧ reg6 w 18 = d ∧ reg4 w 14 = a ∧ bits w 11 3 = r.code ∧ bits w 9 2 = z.code ∧ BitVec.ofNat 9 w = i := by
  have := r.code_lt
  have := z.code_lt
  simp only [reg6_eq_iff, reg4_eq_iff, ofNat_low_eq_iff, fMS, Nat.add_assoc]
  rw [eq_comm, body_eq, bits_eq_iff 24 6 rfl rfl (by omega), bits_eq_iff 18 6 rfl rfl (by omega), bits_eq_iff 14 4 rfl rfl (by omega),
    bits_eq_iff 11 3 rfl rfl (by omega), bits_eq_iff 9 2 rfl rfl (by omega)]

theorem fMA_fields {w maj b op : Nat} {d : SReg} {a : AReg} {r : Ordering3} (hb : b < 64) (ho : op < 32) :
    fMA maj d a b r op = w % 2 ^ 30 ↔
      bits w 24 6 = maj ∧ reg6 w 18 = d ∧ reg4 w 14 = a ∧ bits w 8 6 = b ∧ bits w 5 3 = r.code ∧ bits w 0 5 = op := by
  have := r.code_lt
  simp only [reg6_eq_iff, reg4_eq_iff, fMA, Nat.add_assoc]
  rw [eq_comm, body_eq, bits_eq_iff 24 6 rfl rfl (by omega), bits_eq_iff 18 6 rfl rfl (by omega), bits_eq_iff 14 4 rfl rfl (by omega),
    bits_eq_iff 8 6 rfl rfl (by omega), bits_eq_iff 5 3 rfl rfl (by omega)]

/-- A slice number from its two fields (spec/10 R186). -/
theorem sliceNumber_eq_iff {w : Nat} {i : BitVec 9} :
    BitVec.ofNat 9 (bits w 4 3 * 64 + bits w 7 6) = i ↔ bits w 7 6 = i.toNat % 64 ∧ bits w 4 3 = i.toNat / 64 := by
  have hhi := bits_lt w 4 3
  have hlo := bits_lt w 7 6
  rw [← BitVec.toNat_inj, BitVec.toNat_ofNat]
  omega

theorem fTS_fields {w maj : Nat} {d : VReg} {t : TReg} {rc : Bool} {i : BitVec 9} {g : Guard} :
    fTS maj d t rc i g = w % 2 ^ 30 ↔
      bits w 24 6 = maj ∧ reg6 w 18 = d ∧ reg4 w 14 = t ∧ flag w 13 = rc ∧
        BitVec.ofNat 9 (bits w 4 3 * 64 + bits w 7 6) = i ∧ guardAt w 0 = g := by
  have := g.code_lt
  have := rc.toNat_lt
  simp only [reg6_eq_iff, reg4_eq_iff, flag_eq_iff, guardAt_eq_iff, sliceNumber_eq_iff, and_assoc, fTS, Nat.add_assoc]
  rw [eq_comm, body_eq, bits_eq_iff 24 6 rfl rfl (by omega), bits_eq_iff 18 6 rfl rfl (by omega), bits_eq_iff 14 4 rfl rfl (by omega),
    bits_eq_iff 13 1 rfl rfl (by omega), bits_eq_iff 7 6 rfl rfl (by omega), bits_eq_iff 4 3 rfl rfl (by omega)]

theorem fJ_fields {w maj f off : Nat} (hf : f < 4) (ho : off < 2 ^ 22) :
    fJ maj f off = w % 2 ^ 30 ↔
      bits w 24 6 = maj ∧ bits w 22 2 = f ∧ bits w 0 22 = off := by
  simp only [fJ, Nat.add_assoc]
  rw [eq_comm, body_eq, bits_eq_iff 24 6 rfl rfl (by omega), bits_eq_iff 22 2 rfl rfl (by omega)]

theorem fVR_of_fields {w maj f : Nat} {d a b : Fin 64} {g : Guard}
    (h : bits w 24 6 = maj ∧ reg6 w 18 = d ∧ reg6 w 12 = a ∧ reg6 w 6 = b ∧ guardAt w 2 = g ∧ bits w 0 2 = f) :
    fVR maj d a b g f = w % 2 ^ 30 := (fVR_fields (h.2.2.2.2.2 ▸ bits_lt w 0 2)).2 h

theorem fVC_of_fields {w maj f : Nat} {p q : PReg} {a b : Fin 64} {g : Guard}
    (h : bits w 24 6 = maj ∧ reg3 w 21 = p ∧ reg3 w 18 = q ∧ reg6 w 12 = a ∧ reg6 w 6 = b ∧ guardAt w 2 = g ∧ bits w 0 2 = f) :
    fVC maj p q a b g f = w % 2 ^ 30 := (fVC_fields (h.2.2.2.2.2.2 ▸ bits_lt w 0 2)).2 h

theorem fVU_of_fields {w maj n f : Nat} {d a : Fin 64} {g : Guard}
    (h : bits w 24 6 = maj ∧ reg6 w 18 = d ∧ reg6 w 12 = a ∧ bits w 6 6 = n ∧ guardAt w 2 = g ∧ bits w 0 2 = f) :
    fVU maj d a n g f = w % 2 ^ 30 := (fVU_fields (h.2.2.2.1 ▸ bits_lt w 6 6) (h.2.2.2.2.2 ▸ bits_lt w 0 2)).2 h

theorem fSR_of_fields {w maj x y z c : Nat}
    (h : bits w 24 6 = maj ∧ bits w 18 6 = x ∧ bits w 12 6 = y ∧ bits w 6 6 = z ∧ bits w 0 6 = c) :
    fSR maj x y z c = w % 2 ^ 30 := by
  obtain ⟨rfl, rfl, rfl, rfl, rfl⟩ := h
  exact (fSR_fields (bits_lt w 18 6) (bits_lt w 12 6) (bits_lt w 6 6) (bits_lt w 0 6)).2 ⟨rfl, rfl, rfl, rfl, rfl⟩

theorem fMV_of_fields {w maj z : Nat} {d o : VReg} {a : AReg} {g : Guard}
    (h : bits w 24 6 = maj ∧ reg6 w 18 = d ∧ reg4 w 14 = a ∧ reg6 w 8 = o ∧ guardAt w 4 = g ∧ bits w 0 4 = z) :
    fMV maj d a o g z = w % 2 ^ 30 := (fMV_fields (h.2.2.2.2.2 ▸ bits_lt w 0 4)).2 h

theorem fMA_of_fields {w maj b op : Nat} {d : SReg} {a : AReg} {r : Ordering3}
    (h : bits w 24 6 = maj ∧ reg6 w 18 = d ∧ reg4 w 14 = a ∧ bits w 8 6 = b ∧ bits w 5 3 = r.code ∧ bits w 0 5 = op) :
    fMA maj d a b r op = w % 2 ^ 30 := (fMA_fields (h.2.2.2.1 ▸ bits_lt w 8 6) (h.2.2.2.2.2 ▸ bits_lt w 0 5)).2 h

theorem fAR_of_fields {w d a b sh f : Nat}
    (h : bits w 24 6 = 5 ∧ bits w 20 4 = d ∧ bits w 16 4 = a ∧ bits w 10 6 = b ∧ bits w 7 3 = sh ∧ bits w 5 2 = f ∧ bits w 0 5 = 0) :
    fAR d a b sh f = w % 2 ^ 30 := by
  obtain ⟨hm, rfl, rfl, rfl, rfl, rfl, h0⟩ := h
  exact (fAR_fields (bits_lt w 20 4) (bits_lt w 16 4) (bits_lt w 10 6) (bits_lt w 7 3) (bits_lt w 5 2)).2 ⟨hm, rfl, rfl, rfl, rfl, rfl, h0⟩

/-! ### The words that follow no shared format -/

theorem miscTrap_fields {w : Nat} {k : BitVec 12} : encodeBody (.miscTrap k) = w % 2 ^ 30 ↔
    bits w 24 6 = 0 ∧ bits w 18 6 = 4 ∧ bits w 12 6 = 0 ∧ BitVec.ofNat 12 w = k := by
  show 0 * 2 ^ 24 + 4 * 2 ^ 18 + 0 * 2 ^ 12 + 0 * 2 ^ 6 + 0 + k.toNat = _ ↔ _
  simp only [ofNat_low_eq_iff, Nat.add_assoc]
  rw [eq_comm, body_eq, bits_eq_iff 24 6 rfl rfl (by omega), bits_eq_iff 18 6 rfl rfl (by omega), bits_eq_iff 12 6 rfl rfl (by omega)]
  simp only [Nat.zero_mul, Nat.zero_add]

theorem vadi_fields {w : Nat} {d a : VReg} {g : Guard} {i : BitVec 8} : encodeBody (.vadi d a g i) = w % 2 ^ 30 ↔
    bits w 24 6 = 13 ∧ reg6 w 18 = d ∧ reg6 w 12 = a ∧ guardAt w 8 = g ∧ BitVec.ofNat 8 w = i := by
  have := g.code_lt
  show 13 * 2 ^ 24 + d.val * 2 ^ 18 + a.val * 2 ^ 12 + g.code * 2 ^ 8 + i.toNat = _ ↔ _
  simp only [reg6_eq_iff, guardAt_eq_iff, ofNat_low_eq_iff, Nat.add_assoc]
  rw [eq_comm, body_eq, bits_eq_iff 24 6 rfl rfl (by omega), bits_eq_iff 18 6 rfl rfl (by omega), bits_eq_iff 12 6 rfl rfl (by omega),
    bits_eq_iff 8 4 rfl rfl (by omega)]

theorem vimm_fields {w : Nat} {d : VReg} {g : Guard} {i : BitVec 13} {hi : Bool} :
    encodeBody (if hi then .vimmHi d g i else .vimmSx d g i) = w % 2 ^ 30 ↔
      bits w 24 6 = 14 ∧ reg6 w 18 = d ∧ guardAt w 14 = g ∧ flag w 13 = hi ∧ BitVec.ofNat 13 w = i := by
  have := g.code_lt
  have := hi.toNat_lt
  have hb : encodeBody (if hi then .vimmHi d g i else .vimmSx d g i) =
      14 * 2 ^ 24 + (d.val * 2 ^ 18 + (g.code * 2 ^ 14 + (hi.toNat * 2 ^ 13 + i.toNat))) := by
    cases hi
    · show 14 * 2 ^ 24 + d.val * 2 ^ 18 + g.code * 2 ^ 14 + i.toNat = _
      rw [Bool.toNat_false]; omega
    · show 14 * 2 ^ 24 + d.val * 2 ^ 18 + g.code * 2 ^ 14 + 2 ^ 13 + i.toNat = _
      rw [Bool.toNat_true]; omega
  simp only [reg6_eq_iff, guardAt_eq_iff, flag_eq_iff, ofNat_low_eq_iff]
  rw [hb, eq_comm, body_eq, bits_eq_iff 24 6 rfl rfl (by omega), bits_eq_iff 18 6 rfl rfl (by omega), bits_eq_iff 14 4 rfl rfl (by omega),
    bits_eq_iff 13 1 rfl rfl (by omega)]

theorem brv_fields {w : Nat} {g : Guard} {o : BitVec 20} : encodeBody (.brv g o) = w % 2 ^ 30 ↔
    bits w 24 6 = 56 ∧ guardAt w 20 = g ∧ BitVec.ofNat 20 w = o := by
  have := g.code_lt
  show 56 * 2 ^ 24 + g.code * 2 ^ 20 + o.toNat = _ ↔ _
  simp only [guardAt_eq_iff, ofNat_low_eq_iff, Nat.add_assoc]
  rw [eq_comm, body_eq, bits_eq_iff 24 6 rfl rfl (by omega), bits_eq_iff 20 4 rfl rfl (by omega)]

theorem join_fields {w : Nat} : encodeBody .join = w % 2 ^ 30 ↔ bits w 24 6 = 58 ∧ bits w 0 24 = 0 := by
  show 58 * 2 ^ 24 + 0 = _ ↔ _
  rw [eq_comm, body_eq, bits_eq_iff 24 6 rfl rfl (by omega)]

/-! ### Parts of fields -/

theorem bits_add_eq_zero {w lo m n : Nat} : bits w lo (m + n) = 0 ↔ bits w lo m = 0 ∧ bits w (lo + m) n = 0 :=
  bits_eq_low_iff m n rfl (Nat.two_pow_pos m)

theorem bits_zero_twelve {w : Nat} : bits w 0 12 = 0 ↔ bits w 0 6 = 0 ∧ bits w 6 6 = 0 := bits_add_eq_zero (m := 6) (n := 6)
theorem bits_zero_eighteen {w : Nat} : bits w 0 18 = 0 ↔ (bits w 0 6 = 0 ∧ bits w 6 6 = 0) ∧ bits w 12 6 = 0 := by
  rw [← bits_zero_twelve]; exact bits_add_eq_zero (m := 12) (n := 6)
theorem bits_seven_nine {w : Nat} : bits w 7 9 = 0 ↔ bits w 7 3 = 0 ∧ bits w 10 6 = 0 := bits_add_eq_zero (m := 3) (n := 6)

/-- A field of six bits that holds a number of fewer. -/
theorem bits_six_four {w lo : Nat} {r : Fin 16} : bits w lo 6 = r.val ↔ reg4 w lo = r ∧ bits w (lo + 4) 2 = 0 := by
  rw [reg4_eq_iff, bits_eq_low_iff 4 2 rfl r.isLt]
theorem bits_six_three {w lo : Nat} {r : Fin 8} : bits w lo 6 = r.val ↔ reg3 w lo = r ∧ bits w (lo + 3) 3 = 0 := by
  rw [reg3_eq_iff, bits_eq_low_iff 3 3 rfl r.isLt]
theorem bits_six_two {w : Nat} {r : Fin 4} : bits w 0 6 = r.val ↔ Fin.ofNat 4 w = r ∧ bits w 2 4 = 0 := by
  rw [bits_eq_low_iff 2 4 rfl r.isLt, Fin.ext_iff, show (Fin.ofNat 4 w).val = bits w 0 2 by simp [bits]]
theorem bits_six_one {w lo : Nat} {b : Bool} : bits w lo 6 = b.toNat ↔ flag w lo = b ∧ bits w (lo + 1) 5 = 0 := by
  rw [flag_eq_iff, bits_eq_low_iff 1 5 rfl b.toNat_lt]
theorem bits_three_one {w lo : Nat} {b : Bool} : bits w lo 3 = b.toNat ↔ flag w lo = b ∧ bits w (lo + 1) 2 = 0 := by
  rw [flag_eq_iff, bits_eq_low_iff 1 2 rfl b.toNat_lt]
theorem bits_six_imm {w lo : Nat} {k : BitVec 5} :
    bits w lo 6 = k.toNat ↔ BitVec.ofNat 5 (w / 2 ^ lo) = k ∧ bits w (lo + 5) 1 = 0 := by
  rw [ofNat_eq_iff, bits_eq_low_iff 5 1 rfl k.isLt]
theorem bits_ten_imm {w : Nat} {k : BitVec 6} : bits w 0 10 = k.toNat ↔ BitVec.ofNat 6 w = k ∧ bits w 6 4 = 0 := by
  rw [ofNat_low_eq_iff, bits_eq_low_iff 6 4 rfl k.isLt]

/-- The complement and the second source of PLOG (spec/06 R116). -/
theorem bits_plog {w : Nat} {n : Bool} {b : PReg} :
    bits w 0 6 = n.toNat * 8 + b.val ↔ (flag w 3 = n ∧ bits w 4 2 = 0) ∧ reg3 w 0 = b := by
  rw [flag_eq_iff, reg3_eq_iff, bits_eq_iff 3 3 (p := 8) rfl rfl b.isLt, bits_eq_low_iff 1 2 rfl n.toNat_lt]
theorem bits_two_regs {w : Nat} {k p : Fin 8} : bits w 0 6 = k.val * 8 + p.val ↔ reg3 w 3 = k ∧ reg3 w 0 = p := by
  rw [reg3_eq_iff, reg3_eq_iff, bits_eq_iff 3 3 (p := 8) rfl rfl p.isLt]
/-- The element format of `xfrm.mxq` and `xfrm.mxdq` (spec/07 R134). -/
theorem bits_mxfmt {w r : Nat} {m : MxFmt} (hr : r < 4) :
    bits w 0 6 = m.code * 4 + r ↔ (bits w 2 2 = m.code ∧ bits w 4 2 = 0) ∧ bits w 0 2 = r := by
  rw [bits_eq_iff 2 4 (p := 4) rfl rfl hr, bits_eq_low_iff 2 2 rfl (m.code_lt.trans (by decide))]
/-- The width and the operation of SATM (spec/10 R181). -/
theorem bits_satm {w k : Nat} {z : AtWidth} (hk : k < 16) : bits w 0 5 = z.code * 16 + k ↔ atWidthOf (flag w 4) = z ∧ bits w 0 4 = k := by
  rw [atWidthOf_eq_iff, flag_toNat, bits_eq_iff 4 1 (p := 16) rfl rfl hk]
/-- The scale bit and the size of VLD and VST (spec/10 R177). -/
theorem bits_size {w k : Nat} {sc : Bool} (hk : k < 8) : bits w 0 4 = sc.toNat * 8 + k ↔ flag w 3 = sc ∧ bits w 0 3 = k := by
  rw [flag_eq_iff, bits_eq_iff 3 1 (p := 8) rfl rfl hk]
/-- The register of `jmp.jmpr` (spec/15 R258). -/
theorem bits_jmpr {w : Nat} {a : SReg} : bits w 0 22 = a.val * 2 ^ 16 ↔ reg6 w 16 = a ∧ bits w 0 16 = 0 := by
  rw [reg6_eq_iff, ← Nat.add_zero (a.val * 2 ^ 16), bits_eq_iff 16 6 rfl rfl (by decide)]

end Sys2Proof
end

section
/-!
PROOFS. What the decoder answers encodes to the word (spec/02 R44 to R47).
-/
namespace Sys2Proof

/-! ### What a decoding answers -/

/-- `P` of every instruction that a decoding answers. -/
def Yields (x : Except Reject Instr) (P : Instr → Prop) : Prop := ∀ i, x = .ok i → P i

theorem Yields.ok {i : Instr} {P : Instr → Prop} (h : P i) : Yields (.ok i) P := by rintro _ ⟨⟩; exact h
theorem Yields.error {e : Reject} {P : Instr → Prop} : Yields (.error e) P := by rintro _ ⟨⟩
theorem Yields.zeroThen {r : Nat} {i : Instr} {P : Instr → Prop} (h : r = 0 → P i) : Yields (zeroThen r i) P := by
  unfold Sys2Proof.zeroThen
  split
  · exact .ok (h ‹_›)
  · exact .error
theorem Yields.withField {α : Type} {o : Option α} {d : α} {f : α → Except Reject Instr} {P : Instr → Prop}
    (h : ∀ x, o = some x → Yields (f x) P) : Yields (withField o d f) P := by
  unfold Sys2Proof.withField
  split
  · exact h _ rfl
  · exact .error
theorem Yields.ite {c : Prop} [Decidable c] {x y : Except Reject Instr} {P : Instr → Prop} (hx : c → Yields x P) (hy : Yields y P) :
    Yields (if c then x else y) P := by
  split
  · exact hx ‹_›
  · exact hy
theorem Yields.orBad {c : Prop} [Decidable c] {x : Except Reject Instr} {P : Instr → Prop} (h : c → Yields x P) :
    Yields ((if c then id else badField) x) P := by
  split
  · exact h ‹_›
  · exact .error

/-- An instruction whose word has the body of `w`. -/
def Encodes (w : Nat) (i : Instr) : Prop := hasWord i = true ∧ WellFormed i = true ∧ encodeBody i = w % 2 ^ 30

theorem bits_two_cases (w lo : Nat) : bits w lo 2 = 0 ∨ bits w lo 2 = 1 ∨ bits w lo 2 = 2 ∨ bits w lo 2 = 3 := by
  have := bits_lt w lo 2
  omega

section
variable {w : Nat}

theorem decMisc_yields (hm : bits w 24 6 = 0) : Yields (decMisc w) (Encodes w) := by
  unfold decMisc
  split
  case h_5 => exact .zeroThen fun hz => ⟨rfl, rfl, miscTrap_fields.2 ⟨hm, ‹_›, hz, rfl⟩⟩
  case h_6 => exact .error
  all_goals
    refine .zeroThen fun hz => ⟨rfl, rfl, ?_⟩
    obtain ⟨⟨h0, h6⟩, h12⟩ := bits_zero_eighteen.1 hz
    exact fSR_of_fields ⟨hm, ‹_›, h12, h6, h0⟩

theorem decSop_yields (hm : bits w 24 6 = 1) : Yields (decSop w) (Encodes w) := by
  unfold decSop
  split
  case h_26 => exact .error
  case h_23 | h_24 | h_25 => exact .zeroThen fun hz => ⟨rfl, rfl, fSR_of_fields ⟨hm, rfl, rfl, hz, ‹_›⟩⟩
  all_goals exact .ok ⟨rfl, rfl, fSR_of_fields ⟨hm, rfl, rfl, rfl, ‹_›⟩⟩

theorem decSopi_yields (hm : bits w 24 6 = 2) : Yields (decSopi w) (Encodes w) := by
  unfold decSopi
  rcases bits_two_cases w 10 with h | h | h | h <;> rw [h] <;>
    exact .ok ⟨rfl, rfl, (fSI_fields (by decide) (BitVec.isLt _)).2 ⟨hm, rfl, rfl, h, ofNat_low_eq_iff.1 rfl⟩⟩

theorem decSshi_yields (hm : bits w 24 6 = 3) : Yields (decSshi w) (Encodes w) := by
  unfold decSshi
  rcases bits_two_cases w 10 with h | h | h | h <;> rw [h]
  case inr.inr.inr => exact .ok ⟨rfl, rfl, (fSI_fields (by decide) (BitVec.isLt _)).2 ⟨hm, rfl, rfl, h, ofNat_low_eq_iff.1 rfl⟩⟩
  all_goals exact .zeroThen fun hz => ⟨rfl, rfl, (fSI_fields (by decide) (by omega)).2 ⟨hm, rfl, rfl, h, bits_ten_imm.2 ⟨rfl, hz⟩⟩⟩

theorem decSins_yields (hm : bits w 24 6 = 4) : Yields (decSins w) (Encodes w) :=
  .ok ⟨rfl, rfl, (fSQ_fields (Fin.isLt _) (BitVec.isLt _)).2 ⟨hm, rfl, rfl, ofNat_low_eq_iff.1 rfl⟩⟩

theorem decAop_yields (hm : bits w 24 6 = 5) : Yields (decAop w) (Encodes w) := by
  unfold decAop
  rcases bits_two_cases w 5 with h | h | h | h <;> rw [h]
  · exact .zeroThen fun hz => ⟨rfl, rfl, fAR_of_fields ⟨hm, rfl, rfl, rfl, ofNat_eq_iff.1 rfl, h, hz⟩⟩
  · refine .ite (fun h8 => .zeroThen fun hz => ⟨rfl, rfl, fAR_of_fields ⟨hm, rfl, rfl, rfl, bits_three_one.2 ⟨rfl, h8⟩, h, hz⟩⟩) .error
  · refine .ite (fun h8 => .zeroThen fun hz => ⟨rfl, rfl, ?_⟩) .error
    obtain ⟨h0, h20⟩ := Nat.add_eq_zero_iff.1 hz
    exact fAR_of_fields ⟨hm, h20, rfl, rfl, bits_three_one.2 ⟨rfl, h8⟩, h, h0⟩
  · refine .zeroThen fun hz => ⟨rfl, rfl, ?_⟩
    obtain ⟨h0, h7⟩ := Nat.add_eq_zero_iff.1 hz
    obtain ⟨h7, h10⟩ := bits_seven_nine.1 h7
    exact fAR_of_fields ⟨hm, rfl, rfl, h10, h7, h, h0⟩

theorem decCreg_yields (hm : bits w 24 6 = 7) : Yields (decCreg w) (Encodes w) := by
  have hn : bits w 0 16 = (BitVec.ofNat 16 w).toNat := ofNat_low_eq_iff.1 rfl
  unfold decCreg
  split
  case h_3 => exact .error
  all_goals
    refine .ite (fun hk => .ok ⟨rfl, (congrArg cregKnown hn).symm.trans hk, ?_⟩) .error
    exact (fSQ_fields (by decide) (BitVec.isLt _)).2 ⟨hm, rfl, ‹_›, hn⟩

theorem decVari_yields (hm : bits w 24 6 = 8) : Yields (decVari w) (Encodes w) := by
  unfold decVari
  rcases bits_two_cases w 0 with h | h | h | h <;> rw [h] <;> exact .ok ⟨rfl, rfl, fVR_of_fields ⟨hm, rfl, rfl, rfl, rfl, h⟩⟩

theorem decVlog_yields (hm : bits w 24 6 = 9) : Yields (decVlog w) (Encodes w) := by
  unfold decVlog
  rcases bits_two_cases w 0 with h | h | h | h <;> rw [h] <;> exact .ok ⟨rfl, rfl, fVR_of_fields ⟨hm, rfl, rfl, rfl, rfl, h⟩⟩

theorem decVsft_yields (hm : bits w 24 6 = 10) : Yields (decVsft w) (Encodes w) := by
  unfold decVsft
  rcases bits_two_cases w 0 with h | h | h | h <;> rw [h] <;> exact .ok ⟨rfl, rfl, fVR_of_fields ⟨hm, rfl, rfl, rfl, rfl, h⟩⟩

theorem decVmnx_yields (hm : bits w 24 6 = 11) : Yields (decVmnx w) (Encodes w) := by
  unfold decVmnx
  rcases bits_two_cases w 0 with h | h | h | h <;> rw [h] <;> exact .ok ⟨rfl, rfl, fVR_of_fields ⟨hm, rfl, rfl, rfl, rfl, h⟩⟩

theorem decVcmp_yields (hm : bits w 24 6 = 12) : Yields (decVcmp w) (Encodes w) := by
  unfold decVcmp
  rcases bits_two_cases w 0 with h | h | h | h <;> rw [h] <;> exact .ok ⟨rfl, rfl, fVC_of_fields ⟨hm, rfl, rfl, rfl, rfl, rfl, h⟩⟩

theorem decVadi_yields (hm : bits w 24 6 = 13) : Yields (decVadi w) (Encodes w) :=
  .ok ⟨rfl, rfl, vadi_fields.2 ⟨hm, rfl, rfl, rfl, rfl⟩⟩

theorem decVimm_yields (hm : bits w 24 6 = 14) : Yields (decVimm w) (Encodes w) := by
  unfold decVimm
  split
  · exact .ok ⟨rfl, rfl, (vimm_fields (hi := true)).2 ⟨hm, rfl, rfl, ‹_›, rfl⟩⟩
  · exact .ok ⟨rfl, rfl, (vimm_fields (hi := false)).2 ⟨hm, rfl, rfl, eq_false_of_ne_true ‹_›, rfl⟩⟩

/-- The forms of three v registers with a type field. -/
theorem yields_fVR_ftype {mk : VReg → VReg → VReg → Guard → FType → Instr} {maj : Nat} (hm : bits w 24 6 = maj)
    (hmk : ∀ d a b g t, hasWord (mk d a b g t) = true ∧ WellFormed (mk d a b g t) = true ∧ encodeBody (mk d a b g t) = fVR maj d a b g t.code) :
    Yields (withField (ftypeOf (bits w 0 2)) .f32 fun t => .ok (mk (reg6 w 18) (reg6 w 12) (reg6 w 6) (guardAt w 2) t)) (Encodes w) :=
  .withField fun t ht => .ok ⟨(hmk _ _ _ _ t).1, (hmk _ _ _ _ t).2.1,
    (hmk _ _ _ _ t).2.2.trans (fVR_of_fields ⟨hm, rfl, rfl, rfl, rfl, (code_of_ftypeOf ht).symm⟩)⟩

/-- The forms of two predicates and two v registers with a type field. -/
theorem yields_fVC_ftype {mk : PReg → PReg → VReg → VReg → Guard → FType → Instr} {maj : Nat} (hm : bits w 24 6 = maj)
    (hmk : ∀ p q a b g t, hasWord (mk p q a b g t) = true ∧ WellFormed (mk p q a b g t) = true ∧
      encodeBody (mk p q a b g t) = fVC maj p q a b g t.code) :
    Yields (withField (ftypeOf (bits w 0 2)) .f32 fun t => .ok (mk (reg3 w 21) (reg3 w 18) (reg6 w 12) (reg6 w 6) (guardAt w 2) t)) (Encodes w) :=
  .withField fun t ht => .ok ⟨(hmk _ _ _ _ _ t).1, (hmk _ _ _ _ _ t).2.1,
    (hmk _ _ _ _ _ t).2.2.trans (fVC_of_fields ⟨hm, rfl, rfl, rfl, rfl, rfl, (code_of_ftypeOf ht).symm⟩)⟩

theorem decFadd_yields (hm : bits w 24 6 = 16) : Yields (decFadd w) (Encodes w) := yields_fVR_ftype hm fun _ _ _ _ _ => ⟨rfl, rfl, rfl⟩
theorem decFsub_yields (hm : bits w 24 6 = 17) : Yields (decFsub w) (Encodes w) := yields_fVR_ftype hm fun _ _ _ _ _ => ⟨rfl, rfl, rfl⟩
theorem decFmul_yields (hm : bits w 24 6 = 18) : Yields (decFmul w) (Encodes w) := yields_fVR_ftype hm fun _ _ _ _ _ => ⟨rfl, rfl, rfl⟩
theorem decFma_yields (hm : bits w 24 6 = 19) : Yields (decFma w) (Encodes w) := yields_fVR_ftype hm fun _ _ _ _ _ => ⟨rfl, rfl, rfl⟩
theorem decFmin_yields (hm : bits w 24 6 = 20) : Yields (decFmin w) (Encodes w) := yields_fVR_ftype hm fun _ _ _ _ _ => ⟨rfl, rfl, rfl⟩
theorem decFmax_yields (hm : bits w 24 6 = 21) : Yields (decFmax w) (Encodes w) := yields_fVR_ftype hm fun _ _ _ _ _ => ⟨rfl, rfl, rfl⟩
theorem decFceq_yields (hm : bits w 24 6 = 22) : Yields (decFceq w) (Encodes w) := yields_fVC_ftype hm fun _ _ _ _ _ _ => ⟨rfl, rfl, rfl⟩
theorem decFclt_yields (hm : bits w 24 6 = 23) : Yields (decFclt w) (Encodes w) := yields_fVC_ftype hm fun _ _ _ _ _ _ => ⟨rfl, rfl, rfl⟩
theorem decFcle_yields (hm : bits w 24 6 = 24) : Yields (decFcle w) (Encodes w) := yields_fVC_ftype hm fun _ _ _ _ _ _ => ⟨rfl, rfl, rfl⟩
theorem decFcun_yields (hm : bits w 24 6 = 25) : Yields (decFcun w) (Encodes w) := yields_fVC_ftype hm fun _ _ _ _ _ _ => ⟨rfl, rfl, rfl⟩

theorem decFuna_yields (hm : bits w 24 6 = 26) : Yields (decFuna w) (Encodes w) := by
  refine .withField fun t ht => ?_
  split
  case h_15 => exact .error
  all_goals exact .ok ⟨rfl, rfl, fVU_of_fields ⟨hm, rfl, rfl, ‹_›, rfl, (code_of_ftypeOf ht).symm⟩⟩

theorem decFcvt_yields (hm : bits w 24 6 = 27) : Yields (decFcvt w) (Encodes w) := by
  unfold decFcvt
  split
  · exact .ok ⟨rfl, rfl, fVU_of_fields ⟨hm, rfl, rfl, rfl, rfl, (rndOf_bits_code w 0).symm⟩⟩
  · refine .ite (fun h => .ok ⟨rfl, rfl, fVU_of_fields ⟨hm, rfl, rfl, h, rfl, (rndOf_bits_code w 0).symm⟩⟩) (.ite (fun h => ?_) .error)
    exact .ok ⟨rfl, rfl, fVU_of_fields ⟨hm, rfl, rfl, h, rfl, (rndOf_bits_code w 0).symm⟩⟩

theorem decVsel_yields (hm : bits w 24 6 = 28) : Yields (decVsel w) (Encodes w) := by
  unfold decVsel
  split
  · exact .ok ⟨rfl, rfl, fVR_of_fields ⟨hm, rfl, rfl, rfl, rfl, ‹_›⟩⟩
  · exact .error

theorem decVmov_yields (hm : bits w 24 6 = 29) : Yields (decVmov w) (Encodes w) := by
  refine .orBad fun h0 => ?_
  split
  case h_5 => exact .zeroThen fun hz => ⟨rfl, rfl, fVU_of_fields ⟨hm, rfl, reg6_eq_iff.2 hz, ‹_›, rfl, h0⟩⟩
  case h_6 => exact .error
  all_goals exact .ok ⟨rfl, rfl, fVU_of_fields ⟨hm, rfl, rfl, ‹_›, rfl, h0⟩⟩

theorem decVxln_yields (hm : bits w 24 6 = 30) : Yields (decVxln w) (Encodes w) := by
  unfold decVxln
  split
  case h_1 | h_2 => exact .orBad fun h0 => .ok ⟨rfl, rfl, fVU_of_fields ⟨hm, rfl, rfl, ‹_›, rfl, h0⟩⟩
  case h_6 => exact .error
  all_goals exact .withField fun t ht => .ok ⟨rfl, rfl, fVU_of_fields ⟨hm, rfl, rfl, ‹_›, rfl, (code_of_rtypeOf ht).symm⟩⟩

theorem decPlog_yields (hm : bits w 24 6 = 31) : Yields (decPlog w) (Encodes w) := by
  unfold decPlog
  split
  case h_1 | h_2 | h_3 =>
    refine .zeroThen fun hz => ⟨rfl, rfl, ?_⟩
    obtain ⟨h, h4⟩ := Nat.add_eq_zero_iff.1 hz
    obtain ⟨h21, h15⟩ := Nat.add_eq_zero_iff.1 h
    exact fSR_of_fields ⟨hm, bits_six_three.2 ⟨rfl, h21⟩, bits_six_three.2 ⟨rfl, h15⟩, ‹_›, bits_plog.2 ⟨⟨rfl, h4⟩, rfl⟩⟩
  case h_4 => exact .zeroThen fun hz => ⟨rfl, rfl, fSR_of_fields ⟨hm, rfl, bits_six_three.2 ⟨rfl, hz⟩, ‹_›, rfl⟩⟩
  case h_5 =>
    refine .zeroThen fun hz => ⟨rfl, rfl, ?_⟩
    obtain ⟨h15, h0⟩ := Nat.add_eq_zero_iff.1 hz
    exact fSR_of_fields ⟨hm, rfl, bits_six_three.2 ⟨rfl, h15⟩, ‹_›, h0⟩
  case h_6 =>
    refine .zeroThen fun hz => ⟨rfl, rfl, ?_⟩
    obtain ⟨h, h0⟩ := Nat.add_eq_zero_iff.1 hz
    obtain ⟨h18, h15⟩ := Nat.add_eq_zero_iff.1 h
    exact fSR_of_fields ⟨hm, h18, bits_six_three.2 ⟨rfl, h15⟩, ‹_›, h0⟩
  case h_7 => exact .zeroThen fun hz => ⟨rfl, rfl, fSR_of_fields ⟨hm, rfl, hz, ‹_›, rfl⟩⟩
  case h_8 => exact .error

theorem decXfrm_yields (hm : bits w 24 6 = 32) : Yields (decXfrm w) (Encodes w) := by
  unfold decXfrm
  split
  case h_1 | h_4 => exact .zeroThen fun hz => ⟨rfl, rfl, fSR_of_fields ⟨hm, rfl, rfl, ‹_›, bits_six_three.2 ⟨rfl, hz⟩⟩⟩
  case h_2 | h_6 | h_9 => exact .zeroThen fun hz => ⟨rfl, rfl, fSR_of_fields ⟨hm, rfl, rfl, ‹_›, hz⟩⟩
  case h_3 => exact .zeroThen fun hz => ⟨rfl, rfl, fSR_of_fields ⟨hm, rfl, rfl, ‹_›, bits_six_two.2 ⟨rfl, hz⟩⟩⟩
  case h_5 => exact .ok ⟨rfl, rfl, fSR_of_fields ⟨hm, rfl, rfl, ‹_›, bits_two_regs.2 ⟨rfl, rfl⟩⟩⟩
  case h_7 =>
    refine .withField fun m hf => .zeroThen fun hz => ⟨rfl, rfl, fSR_of_fields ⟨hm, rfl, rfl, ‹_›, ?_⟩⟩
    exact (bits_mxfmt (Rnd.code_lt _)).2 ⟨⟨(code_of_mxfmtOf hf).symm, hz⟩, (rndOf_bits_code w 0).symm⟩
  case h_8 =>
    refine .withField fun m hf => .zeroThen fun hz => ⟨rfl, rfl, fSR_of_fields ⟨hm, rfl, rfl, ‹_›, ?_⟩⟩
    obtain ⟨h4, h0⟩ := Nat.add_eq_zero_iff.1 hz
    exact (bits_mxfmt (r := 0) (by decide)).2 ⟨⟨(code_of_mxfmtOf hf).symm, h4⟩, h0⟩
  case h_10 => exact .error

theorem decDomn_yields (hm : bits w 24 6 = 33) : Yields (decDomn w) (Encodes w) := by
  unfold decDomn
  split
  case h_1 =>
    refine .zeroThen fun hz => ⟨rfl, rfl, ?_⟩
    obtain ⟨h12, h3⟩ := Nat.add_eq_zero_iff.1 hz
    exact fSR_of_fields ⟨hm, rfl, h12, ‹_›, bits_six_three.2 ⟨rfl, h3⟩⟩
  case h_2 => exact .zeroThen fun hz => ⟨rfl, rfl, fSR_of_fields ⟨hm, rfl, rfl, ‹_›, hz⟩⟩
  case h_5 => exact .error
  all_goals exact .ok ⟨rfl, rfl, fSR_of_fields ⟨hm, rfl, rfl, ‹_›, rfl⟩⟩

theorem decVld_yields (hm : bits w 24 6 = 36) : Yields (decVld w) (Encodes w) :=
  .withField fun z hz => .ok ⟨rfl, rfl, fMV_of_fields ⟨hm, rfl, rfl, rfl, rfl,
    (bits_size (z.code_lt.trans (by decide))).2 ⟨rfl, (code_of_ldSizeOf hz).symm⟩⟩⟩

theorem decVst_yields (hm : bits w 24 6 = 37) : Yields (decVst w) (Encodes w) :=
  .withField fun z hz => .ok ⟨rfl, rfl, fMV_of_fields ⟨hm, rfl, rfl, rfl, rfl,
    (bits_size (z.code_lt.trans (by decide))).2 ⟨rfl, (code_of_stSizeOf hz).symm⟩⟩⟩

theorem decVatm_yields (hm : bits w 24 6 = 39) : Yields (decVatm w) (Encodes w) := by
  unfold decVatm
  split
  case h_11 => exact .error
  all_goals exact .ok ⟨rfl, rfl, fMV_of_fields ⟨hm, rfl, rfl, rfl, rfl, ‹_›⟩⟩

theorem decSld_yields (hm : bits w 24 6 = 40) : Yields (decSld w) (Encodes w) :=
  .withField fun _ hr => .ok ⟨rfl, rfl, fMS_fields.2 ⟨hm, rfl, rfl, (code_of_orderingOf hr).symm, (ssizeOf_bits_code w 9).symm, rfl⟩⟩

theorem decSst_yields (hm : bits w 24 6 = 41) : Yields (decSst w) (Encodes w) :=
  .withField fun _ hr => .ok ⟨rfl, rfl, fMS_fields.2 ⟨hm, rfl, rfl, (code_of_orderingOf hr).symm, (ssizeOf_bits_code w 9).symm, rfl⟩⟩

theorem decSatm_yields (hm : bits w 24 6 = 42) : Yields (decSatm w) (Encodes w) := by
  refine .withField fun r hr => ?_
  split
  case h_12 => exact .error
  all_goals
    exact .ok ⟨rfl, rfl, fMA_of_fields ⟨hm, rfl, rfl, rfl, (code_of_orderingOf hr).symm, (bits_satm (by decide)).2 ⟨rfl, ‹_›⟩⟩⟩

theorem decFence_yields (hm : bits w 24 6 = 43) : Yields (decFence w) (Encodes w) := by
  refine .withField fun o ho => ?_
  have ho := (code_of_scopeOf ho).symm
  split
  case h_1 =>
    refine .zeroThen fun hz => ⟨rfl, rfl, ?_⟩
    obtain ⟨h0, h6⟩ := bits_zero_twelve.1 hz
    exact fSR_of_fields ⟨hm, ‹_›, ho, h6, h0⟩
  case h_5 => exact .error
  all_goals
    refine .zeroThen fun hz => ⟨rfl, rfl, ?_⟩
    obtain ⟨h11, h0⟩ := Nat.add_eq_zero_iff.1 hz
    exact fSR_of_fields ⟨hm, ‹_›, ho, bits_six_imm.2 ⟨rfl, h11⟩, h0⟩

theorem decWait_yields (hm : bits w 24 6 = 44) : Yields (decWait w) (Encodes w) := by
  refine .withField fun k hk => .zeroThen fun hz => ⟨rfl, rfl, ?_⟩
  obtain ⟨h0, h6⟩ := bits_zero_twelve.1 hz
  exact fSR_of_fields ⟨hm, (code_of_classOf hk).symm, rfl, h6, h0⟩

theorem decTsl_yields (hm : bits w 24 6 = 45) : Yields (decTsl w) (Encodes w) :=
  .ok ⟨rfl, rfl, fTS_fields.2 ⟨hm, rfl, rfl, rfl, rfl, rfl⟩⟩

theorem decTss_yields (hm : bits w 24 6 = 46) : Yields (decTss w) (Encodes w) :=
  .ok ⟨rfl, rfl, fTS_fields.2 ⟨hm, rfl, rfl, rfl, rfl, rfl⟩⟩

theorem decTbnd_yields (hm : bits w 24 6 = 47) : Yields (decTbnd w) (Encodes w) := by
  unfold decTbnd
  split
  case h_1 =>
    refine .zeroThen fun hz => ⟨rfl, rfl, ?_⟩
    obtain ⟨h22, h0⟩ := Nat.add_eq_zero_iff.1 hz
    exact fSR_of_fields ⟨hm, bits_six_four.2 ⟨rfl, h22⟩, rfl, ‹_›, h0⟩
  case h_2 =>
    refine .zeroThen fun hz => ⟨rfl, rfl, ?_⟩
    obtain ⟨h, h0⟩ := Nat.add_eq_zero_iff.1 hz
    obtain ⟨h22, h12⟩ := Nat.add_eq_zero_iff.1 h
    exact fSR_of_fields ⟨hm, bits_six_four.2 ⟨rfl, h22⟩, h12, ‹_›, h0⟩
  case h_3 =>
    refine .zeroThen fun hz => ⟨rfl, rfl, ?_⟩
    obtain ⟨h16, h1⟩ := Nat.add_eq_zero_iff.1 hz
    exact fSR_of_fields ⟨hm, rfl, bits_six_four.2 ⟨rfl, h16⟩, ‹_›, bits_six_one.2 ⟨rfl, h1⟩⟩
  case h_4 => exact .error

theorem decXcpy_yields (hm : bits w 24 6 = 48) : Yields (decXcpy w) (Encodes w) := by
  unfold decXcpy
  split
  case h_4 => exact .error
  all_goals
    refine .zeroThen fun hz => ⟨rfl, rfl, ?_⟩
    obtain ⟨h22, h0⟩ := Nat.add_eq_zero_iff.1 hz
    exact fSR_of_fields ⟨hm, bits_six_four.2 ⟨rfl, h22⟩, rfl, ‹_›, h0⟩

theorem decRing_yields (hm : bits w 24 6 = 49) : Yields (decRing w) (Encodes w) := by
  unfold decRing
  split
  case h_1 => exact .zeroThen fun hz => ⟨rfl, rfl, fSR_of_fields ⟨hm, rfl, rfl, ‹_›, hz⟩⟩
  case h_2 =>
    refine .zeroThen fun hz => ⟨rfl, rfl, ?_⟩
    obtain ⟨h18, h0⟩ := Nat.add_eq_zero_iff.1 hz
    exact fSR_of_fields ⟨hm, h18, rfl, ‹_›, h0⟩
  case h_3 | h_4 => exact .zeroThen fun hz => ⟨rfl, rfl, fSR_of_fields ⟨hm, hz, rfl, ‹_›, rfl⟩⟩
  case h_5 => exact .ok ⟨rfl, rfl, fSR_of_fields ⟨hm, rfl, rfl, ‹_›, rfl⟩⟩
  case h_6 => exact .error

theorem decTbar_yields (hm : bits w 24 6 = 50) : Yields (decTbar w) (Encodes w) := by
  unfold decTbar
  split
  case h_1 | h_4 => exact .zeroThen fun hz => ⟨rfl, rfl, fSR_of_fields ⟨hm, rfl, rfl, ‹_›, hz⟩⟩
  case h_2 =>
    exact .withField fun o ho => .zeroThen fun hz => ⟨rfl, rfl, fSR_of_fields ⟨hm, hz, rfl, ‹_›, (code_of_scopeOf ho).symm⟩⟩
  case h_3 => exact .ok ⟨rfl, rfl, fSR_of_fields ⟨hm, rfl, rfl, ‹_›, rfl⟩⟩
  case h_5 => exact .error

theorem decSig_yields (hm : bits w 24 6 = 53) : Yields (decSig w) (Encodes w) := by
  refine .withField fun r hr => ?_
  have hr := (code_of_orderingOf hr).symm
  split
  case h_3 => exact .zeroThen fun hz => ⟨rfl, rfl, fMA_of_fields ⟨hm, rfl, rfl, hz, hr, ‹_›⟩⟩
  case h_5 => exact .error
  all_goals exact .ok ⟨rfl, rfl, fMA_of_fields ⟨hm, rfl, rfl, rfl, hr, ‹_›⟩⟩

theorem decSgrp_yields (hm : bits w 24 6 = 54) : Yields (decSgrp w) (Encodes w) := by
  refine .withField fun r hr => ?_
  have hr := (code_of_orderingOf hr).symm
  split
  case h_2 => exact .ok ⟨rfl, rfl, fMA_of_fields ⟨hm, rfl, rfl, rfl, hr, ‹_›⟩⟩
  case h_7 => exact .error
  all_goals exact .zeroThen fun hz => ⟨rfl, rfl, fMA_of_fields ⟨hm, rfl, rfl, hz, hr, ‹_›⟩⟩

theorem decHctl_yields (hm : bits w 24 6 = 55) : Yields (decHctl w) (Encodes w) := by
  unfold decHctl
  split
  case h_1 =>
    refine .withField fun t ht => .zeroThen fun hz => ⟨rfl, rfl, ?_⟩
    obtain ⟨h0, h6⟩ := bits_zero_twelve.1 hz
    exact fSR_of_fields ⟨hm, ‹_›, (code_of_hretOf ht).symm, h6, h0⟩
  case h_2 =>
    refine .zeroThen fun hz => ⟨rfl, rfl, ?_⟩
    obtain ⟨⟨h0, h6⟩, h12⟩ := bits_zero_eighteen.1 hz
    exact fSR_of_fields ⟨hm, ‹_›, h12, h6, h0⟩
  case h_3 =>
    split
    · exact .zeroThen fun hz => ⟨rfl, rfl, fSR_of_fields ⟨hm, ‹_›, rfl, rfl, hz⟩⟩
    · exact .error
  case h_4 => exact .orBad fun hk => .ok ⟨rfl, hk, fSR_of_fields ⟨hm, ‹_›, rfl, rfl, rfl⟩⟩
  case h_5 => exact .error

theorem decBrv_yields (hm : bits w 24 6 = 56) : Yields (decBrv w) (Encodes w) := .ok ⟨rfl, rfl, brv_fields.2 ⟨hm, rfl, rfl⟩⟩

theorem decRcv_yields (hm : bits w 24 6 = 57) : Yields (decRcv w) (Encodes w) :=
  .orBad fun h => .ok ⟨rfl, rfl, (fJ_fields (by decide) (BitVec.isLt _)).2 ⟨hm, h, ofNat_low_eq_iff.1 rfl⟩⟩

theorem decJoin_yields (hm : bits w 24 6 = 58) : Yields (decJoin w) (Encodes w) := .zeroThen fun hz => ⟨rfl, rfl, join_fields.2 ⟨hm, hz⟩⟩

theorem decBrs_yields (hm : bits w 24 6 = 59) : Yields (decBrs w) (Encodes w) := by
  unfold decBrs
  rcases bits_two_cases w 16 with h | h | h | h <;> rw [h] <;>
    exact .ok ⟨rfl, rfl, (fSQ_fields (by decide) (BitVec.isLt _)).2 ⟨hm, rfl, h, ofNat_low_eq_iff.1 rfl⟩⟩

theorem decJmp_yields (hm : bits w 24 6 = 60) : Yields (decJmp w) (Encodes w) := by
  unfold decJmp
  rcases bits_two_cases w 22 with h | h | h | h <;> rw [h]
  case inr.inr.inl => exact .zeroThen fun hz => ⟨rfl, rfl, (fJ_fields (by decide) (by omega)).2 ⟨hm, h, bits_jmpr.2 ⟨rfl, hz⟩⟩⟩
  case inr.inr.inr => exact .zeroThen fun hz => ⟨rfl, rfl, (fJ_fields (by decide) (by decide)).2 ⟨hm, h, hz⟩⟩
  all_goals exact .ok ⟨rfl, rfl, (fJ_fields (by decide) (BitVec.isLt _)).2 ⟨hm, h, ofNat_low_eq_iff.1 rfl⟩⟩

theorem decSync_yields (hm : bits w 24 6 = 62) : Yields (decSync w) (Encodes w) := by
  unfold decSync
  split
  case h_1 =>
    refine .withField fun o ho => .orBad fun hg => .zeroThen fun hz => ⟨rfl, hg, ?_⟩
    obtain ⟨h0, h6⟩ := bits_zero_twelve.1 hz
    exact fSR_of_fields ⟨hm, ‹_›, (code_of_scopeOf ho).symm, h6, h0⟩
  case h_2 =>
    refine .zeroThen fun hz => ⟨rfl, rfl, ?_⟩
    obtain ⟨h10, h4⟩ := Nat.add_eq_zero_iff.1 hz
    exact fSR_of_fields ⟨hm, ‹_›, rfl, bits_six_four.2 ⟨rfl, h10⟩, bits_six_four.2 ⟨rfl, h4⟩⟩
  case h_5 => exact .zeroThen fun hz => ⟨rfl, rfl, fSR_of_fields ⟨hm, ‹_›, rfl, bits_six_four.2 ⟨rfl, hz⟩, rfl⟩⟩
  case h_7 => exact .error
  all_goals
    refine .zeroThen fun hz => ⟨rfl, rfl, ?_⟩
    obtain ⟨h10, h0⟩ := Nat.add_eq_zero_iff.1 hz
    exact fSR_of_fields ⟨hm, ‹_›, rfl, bits_six_four.2 ⟨rfl, h10⟩, h0⟩

theorem decTret_yields (hm : bits w 24 6 = 63) (h18 : bits w 18 6 = 0) : Yields (decTret w) (Encodes w) := by
  unfold decTret
  split
  case h_4 => exact .error
  all_goals
    refine .zeroThen fun hz => ⟨rfl, rfl, ?_⟩
    obtain ⟨h0, h6⟩ := bits_zero_twelve.1 hz
    exact fSR_of_fields ⟨hm, h18, ‹_›, h6, h0⟩

theorem decPreempt_yields (hm : bits w 24 6 = 63) (h18 : bits w 18 6 = 5) : Yields (decPreempt w) (Encodes w) := by
  unfold decPreempt
  split
  case h_3 => exact .error
  all_goals exact .zeroThen fun hz => ⟨rfl, rfl, fSR_of_fields ⟨hm, h18, rfl, bits_six_four.2 ⟨rfl, hz⟩, ‹_›⟩⟩

theorem decPriv_yields (hm : bits w 24 6 = 63) : Yields (decPriv w) (Encodes w) := by
  unfold decPriv
  split
  case h_1 => exact decTret_yields hm ‹_›
  case h_2 =>
    refine .zeroThen fun hz => ⟨rfl, rfl, ?_⟩
    obtain ⟨h0, h6⟩ := bits_zero_twelve.1 hz
    exact fSR_of_fields ⟨hm, ‹_›, rfl, h6, h0⟩
  case h_3 =>
    refine .zeroThen fun hz => ⟨rfl, rfl, ?_⟩
    obtain ⟨h10, h0⟩ := Nat.add_eq_zero_iff.1 hz
    exact fSR_of_fields ⟨hm, ‹_›, rfl, bits_six_four.2 ⟨rfl, h10⟩, h0⟩
  case h_4 => exact .zeroThen fun hz => ⟨rfl, rfl, fSR_of_fields ⟨hm, ‹_›, bits_six_four.2 ⟨rfl, hz⟩, rfl, rfl⟩⟩
  case h_5 => exact .zeroThen fun hz => ⟨rfl, rfl, fSR_of_fields ⟨hm, ‹_›, rfl, bits_six_four.2 ⟨rfl, hz⟩, rfl⟩⟩
  case h_6 => exact decPreempt_yields hm ‹_›
  case h_7 =>
    refine .zeroThen fun hz => ⟨rfl, rfl, ?_⟩
    obtain ⟨⟨h0, h6⟩, h12⟩ := bits_zero_eighteen.1 hz
    exact fSR_of_fields ⟨hm, ‹_›, h12, h6, h0⟩
  case h_8 => exact .error

/-- Every word that decodes, decodes to an instruction whose word has its body. -/
theorem decodeBody_yields (w : Nat) : Yields (decodeBody w) (Encodes w) := by
  unfold decodeBody
  split
  · exact decMisc_yields ‹_›
  · exact decSop_yields ‹_›
  · exact decSopi_yields ‹_›
  · exact decSshi_yields ‹_›
  · exact decSins_yields ‹_›
  · exact decAop_yields ‹_›
  · exact decCreg_yields ‹_›
  · exact decVari_yields ‹_›
  · exact decVlog_yields ‹_›
  · exact decVsft_yields ‹_›
  · exact decVmnx_yields ‹_›
  · exact decVcmp_yields ‹_›
  · exact decVadi_yields ‹_›
  · exact decVimm_yields ‹_›
  · exact decFadd_yields ‹_›
  · exact decFsub_yields ‹_›
  · exact decFmul_yields ‹_›
  · exact decFma_yields ‹_›
  · exact decFmin_yields ‹_›
  · exact decFmax_yields ‹_›
  · exact decFceq_yields ‹_›
  · exact decFclt_yields ‹_›
  · exact decFcle_yields ‹_›
  · exact decFcun_yields ‹_›
  · exact decFuna_yields ‹_›
  · exact decFcvt_yields ‹_›
  · exact decVsel_yields ‹_›
  · exact decVmov_yields ‹_›
  · exact decVxln_yields ‹_›
  · exact decPlog_yields ‹_›
  · exact decXfrm_yields ‹_›
  · exact decDomn_yields ‹_›
  · exact decVld_yields ‹_›
  · exact decVst_yields ‹_›
  · exact decVatm_yields ‹_›
  · exact decSld_yields ‹_›
  · exact decSst_yields ‹_›
  · exact decSatm_yields ‹_›
  · exact decFence_yields ‹_›
  · exact decWait_yields ‹_›
  · exact decTsl_yields ‹_›
  · exact decTss_yields ‹_›
  · exact decTbnd_yields ‹_›
  · exact decXcpy_yields ‹_›
  · exact decRing_yields ‹_›
  · exact decTbar_yields ‹_›
  · exact decSig_yields ‹_›
  · exact decSgrp_yields ‹_›
  · exact decHctl_yields ‹_›
  · exact decBrv_yields ‹_›
  · exact decRcv_yields ‹_›
  · exact decJoin_yields ‹_›
  · exact decBrs_yields ‹_›
  · exact decJmp_yields ‹_›
  · exact decSync_yields ‹_›
  · exact decPriv_yields ‹_›
  · exact .error

end

end Sys2Proof
end

section
/-!
PROOFS. The word of an instruction decodes to it (spec/02 R44 to R47).
-/
namespace Sys2Proof

/-! ### The decoder of each major (spec/02 R45) -/

section
variable {w : Nat}

theorem decodeBody_eq_decMisc (hm : bits w 24 6 = 0) : decodeBody w = decMisc w := by rw [decodeBody, hm]; rfl
theorem decodeBody_eq_decSop (hm : bits w 24 6 = 1) : decodeBody w = decSop w := by rw [decodeBody, hm]; rfl
theorem decodeBody_eq_decSopi (hm : bits w 24 6 = 2) : decodeBody w = decSopi w := by rw [decodeBody, hm]; rfl
theorem decodeBody_eq_decSshi (hm : bits w 24 6 = 3) : decodeBody w = decSshi w := by rw [decodeBody, hm]; rfl
theorem decodeBody_eq_decSins (hm : bits w 24 6 = 4) : decodeBody w = decSins w := by rw [decodeBody, hm]; rfl
theorem decodeBody_eq_decAop (hm : bits w 24 6 = 5) : decodeBody w = decAop w := by rw [decodeBody, hm]; rfl
theorem decodeBody_eq_decCreg (hm : bits w 24 6 = 7) : decodeBody w = decCreg w := by rw [decodeBody, hm]; rfl
theorem decodeBody_eq_decVari (hm : bits w 24 6 = 8) : decodeBody w = decVari w := by rw [decodeBody, hm]; rfl
theorem decodeBody_eq_decVlog (hm : bits w 24 6 = 9) : decodeBody w = decVlog w := by rw [decodeBody, hm]; rfl
theorem decodeBody_eq_decVsft (hm : bits w 24 6 = 10) : decodeBody w = decVsft w := by rw [decodeBody, hm]; rfl
theorem decodeBody_eq_decVmnx (hm : bits w 24 6 = 11) : decodeBody w = decVmnx w := by rw [decodeBody, hm]; rfl
theorem decodeBody_eq_decVcmp (hm : bits w 24 6 = 12) : decodeBody w = decVcmp w := by rw [decodeBody, hm]; rfl
theorem decodeBody_eq_decVadi (hm : bits w 24 6 = 13) : decodeBody w = decVadi w := by rw [decodeBody, hm]; rfl
theorem decodeBody_eq_decVimm (hm : bits w 24 6 = 14) : decodeBody w = decVimm w := by rw [decodeBody, hm]; rfl
theorem decodeBody_eq_decFadd (hm : bits w 24 6 = 16) : decodeBody w = decFadd w := by rw [decodeBody, hm]; rfl
theorem decodeBody_eq_decFsub (hm : bits w 24 6 = 17) : decodeBody w = decFsub w := by rw [decodeBody, hm]; rfl
theorem decodeBody_eq_decFmul (hm : bits w 24 6 = 18) : decodeBody w = decFmul w := by rw [decodeBody, hm]; rfl
theorem decodeBody_eq_decFma (hm : bits w 24 6 = 19) : decodeBody w = decFma w := by rw [decodeBody, hm]; rfl
theorem decodeBody_eq_decFmin (hm : bits w 24 6 = 20) : decodeBody w = decFmin w := by rw [decodeBody, hm]; rfl
theorem decodeBody_eq_decFmax (hm : bits w 24 6 = 21) : decodeBody w = decFmax w := by rw [decodeBody, hm]; rfl
theorem decodeBody_eq_decFceq (hm : bits w 24 6 = 22) : decodeBody w = decFceq w := by rw [decodeBody, hm]; rfl
theorem decodeBody_eq_decFclt (hm : bits w 24 6 = 23) : decodeBody w = decFclt w := by rw [decodeBody, hm]; rfl
theorem decodeBody_eq_decFcle (hm : bits w 24 6 = 24) : decodeBody w = decFcle w := by rw [decodeBody, hm]; rfl
theorem decodeBody_eq_decFcun (hm : bits w 24 6 = 25) : decodeBody w = decFcun w := by rw [decodeBody, hm]; rfl
theorem decodeBody_eq_decFuna (hm : bits w 24 6 = 26) : decodeBody w = decFuna w := by rw [decodeBody, hm]; rfl
theorem decodeBody_eq_decFcvt (hm : bits w 24 6 = 27) : decodeBody w = decFcvt w := by rw [decodeBody, hm]; rfl
theorem decodeBody_eq_decVsel (hm : bits w 24 6 = 28) : decodeBody w = decVsel w := by rw [decodeBody, hm]; rfl
theorem decodeBody_eq_decVmov (hm : bits w 24 6 = 29) : decodeBody w = decVmov w := by rw [decodeBody, hm]; rfl
theorem decodeBody_eq_decVxln (hm : bits w 24 6 = 30) : decodeBody w = decVxln w := by rw [decodeBody, hm]; rfl
theorem decodeBody_eq_decPlog (hm : bits w 24 6 = 31) : decodeBody w = decPlog w := by rw [decodeBody, hm]; rfl
theorem decodeBody_eq_decXfrm (hm : bits w 24 6 = 32) : decodeBody w = decXfrm w := by rw [decodeBody, hm]; rfl
theorem decodeBody_eq_decDomn (hm : bits w 24 6 = 33) : decodeBody w = decDomn w := by rw [decodeBody, hm]; rfl
theorem decodeBody_eq_decVld (hm : bits w 24 6 = 36) : decodeBody w = decVld w := by rw [decodeBody, hm]; rfl
theorem decodeBody_eq_decVst (hm : bits w 24 6 = 37) : decodeBody w = decVst w := by rw [decodeBody, hm]; rfl
theorem decodeBody_eq_decVatm (hm : bits w 24 6 = 39) : decodeBody w = decVatm w := by rw [decodeBody, hm]; rfl
theorem decodeBody_eq_decSld (hm : bits w 24 6 = 40) : decodeBody w = decSld w := by rw [decodeBody, hm]; rfl
theorem decodeBody_eq_decSst (hm : bits w 24 6 = 41) : decodeBody w = decSst w := by rw [decodeBody, hm]; rfl
theorem decodeBody_eq_decSatm (hm : bits w 24 6 = 42) : decodeBody w = decSatm w := by rw [decodeBody, hm]; rfl
theorem decodeBody_eq_decFence (hm : bits w 24 6 = 43) : decodeBody w = decFence w := by rw [decodeBody, hm]; rfl
theorem decodeBody_eq_decWait (hm : bits w 24 6 = 44) : decodeBody w = decWait w := by rw [decodeBody, hm]; rfl
theorem decodeBody_eq_decTsl (hm : bits w 24 6 = 45) : decodeBody w = decTsl w := by rw [decodeBody, hm]; rfl
theorem decodeBody_eq_decTss (hm : bits w 24 6 = 46) : decodeBody w = decTss w := by rw [decodeBody, hm]; rfl
theorem decodeBody_eq_decTbnd (hm : bits w 24 6 = 47) : decodeBody w = decTbnd w := by rw [decodeBody, hm]; rfl
theorem decodeBody_eq_decXcpy (hm : bits w 24 6 = 48) : decodeBody w = decXcpy w := by rw [decodeBody, hm]; rfl
theorem decodeBody_eq_decRing (hm : bits w 24 6 = 49) : decodeBody w = decRing w := by rw [decodeBody, hm]; rfl
theorem decodeBody_eq_decTbar (hm : bits w 24 6 = 50) : decodeBody w = decTbar w := by rw [decodeBody, hm]; rfl
theorem decodeBody_eq_decSig (hm : bits w 24 6 = 53) : decodeBody w = decSig w := by rw [decodeBody, hm]; rfl
theorem decodeBody_eq_decSgrp (hm : bits w 24 6 = 54) : decodeBody w = decSgrp w := by rw [decodeBody, hm]; rfl
theorem decodeBody_eq_decHctl (hm : bits w 24 6 = 55) : decodeBody w = decHctl w := by rw [decodeBody, hm]; rfl
theorem decodeBody_eq_decBrv (hm : bits w 24 6 = 56) : decodeBody w = decBrv w := by rw [decodeBody, hm]; rfl
theorem decodeBody_eq_decRcv (hm : bits w 24 6 = 57) : decodeBody w = decRcv w := by rw [decodeBody, hm]; rfl
theorem decodeBody_eq_decJoin (hm : bits w 24 6 = 58) : decodeBody w = decJoin w := by rw [decodeBody, hm]; rfl
theorem decodeBody_eq_decBrs (hm : bits w 24 6 = 59) : decodeBody w = decBrs w := by rw [decodeBody, hm]; rfl
theorem decodeBody_eq_decJmp (hm : bits w 24 6 = 60) : decodeBody w = decJmp w := by rw [decodeBody, hm]; rfl
theorem decodeBody_eq_decSync (hm : bits w 24 6 = 62) : decodeBody w = decSync w := by rw [decodeBody, hm]; rfl
theorem decodeBody_eq_decPriv (hm : bits w 24 6 = 63) : decodeBody w = decPriv w := by rw [decodeBody, hm]; rfl

end

/-- The body of the word of an instruction with a guard decodes to it. -/
theorem decodeBody_of_encodes_guarded {w : Nat} {i : Instr} (h : Encodes w i) (hg : i.guard?.isSome = true) : decodeBody w = .ok i := by
  obtain ⟨-, -, h⟩ := h
  cases i with
  | variIadd d a b g | variIsub d a b g | variImul d a b g | variImulh d a b g =>
    obtain ⟨hm, rfl, rfl, rfl, rfl, hf⟩ := (fVR_fields (by decide)).1 h
    simp [decodeBody_eq_decVari hm, decVari, hf]
  | vlogAnd d a b g | vlogOr d a b g | vlogXor d a b g | vlogAndn d a b g =>
    obtain ⟨hm, rfl, rfl, rfl, rfl, hf⟩ := (fVR_fields (by decide)).1 h
    simp [decodeBody_eq_decVlog hm, decVlog, hf]
  | vsftShl d a b g | vsftShr d a b g | vsftSar d a b g | vsftRol d a b g =>
    obtain ⟨hm, rfl, rfl, rfl, rfl, hf⟩ := (fVR_fields (by decide)).1 h
    simp [decodeBody_eq_decVsft hm, decVsft, hf]
  | vmnxImin d a b g | vmnxImax d a b g | vmnxNmin d a b g | vmnxNmax d a b g =>
    obtain ⟨hm, rfl, rfl, rfl, rfl, hf⟩ := (fVR_fields (by decide)).1 h
    simp [decodeBody_eq_decVmnx hm, decVmnx, hf]
  | vcmpEq p q a b g | vcmpLt p q a b g | vcmpLe p q a b g | vcmpLtn p q a b g =>
    obtain ⟨hm, rfl, rfl, rfl, rfl, rfl, hf⟩ := (fVC_fields (by decide)).1 h
    simp [decodeBody_eq_decVcmp hm, decVcmp, hf]
  | vadi d a g i =>
    obtain ⟨hm, rfl, rfl, rfl, rfl⟩ := vadi_fields.1 h
    simp [decodeBody_eq_decVadi hm, decVadi]
  | vimmSx d g i =>
    obtain ⟨hm, rfl, rfl, hf, rfl⟩ := (vimm_fields (hi := false)).1 h
    simp [decodeBody_eq_decVimm hm, decVimm, hf]
  | vimmHi d g i =>
    obtain ⟨hm, rfl, rfl, hf, rfl⟩ := (vimm_fields (hi := true)).1 h
    simp [decodeBody_eq_decVimm hm, decVimm, hf]
  | fadd d a b g t | fsub d a b g t | fmul d a b g t | fma d a b g t | fmin d a b g t | fmax d a b g t =>
    obtain ⟨hm, rfl, rfl, rfl, rfl, hf⟩ := (fVR_fields (t.code_lt.trans (by decide))).1 h
    simp [hm, decodeBody_eq_decFadd, decodeBody_eq_decFsub, decodeBody_eq_decFmul, decodeBody_eq_decFma, decodeBody_eq_decFmin,
      decodeBody_eq_decFmax, decFadd, decFsub, decFmul, decFma, decFmin, decFmax, hf, withField]
  | fceq p q a b g t | fclt p q a b g t | fcle p q a b g t | fcun p q a b g t =>
    obtain ⟨hm, rfl, rfl, rfl, rfl, rfl, hf⟩ := (fVC_fields (t.code_lt.trans (by decide))).1 h
    simp [hm, decodeBody_eq_decFceq, decodeBody_eq_decFclt, decodeBody_eq_decFcle, decodeBody_eq_decFcun, decFceq, decFclt, decFcle,
      decFcun, hf, withField]
  | funaExp2 d a g t | funaLog2 d a g t | funaRcp d a g t | funaRsqrt d a g t | funaSqrt d a g t | funaTanh d a g t | funaSigm d a g t
  | funaGelu d a g t | funaAbs d a g t | funaNeg d a g t | funaFloor d a g t | funaCeil d a g t | funaRint d a g t | funaFrac d a g t =>
    obtain ⟨hm, rfl, rfl, hn, rfl, hf⟩ := (fVU_fields (by decide) (t.code_lt.trans (by decide))).1 h
    simp [decodeBody_eq_decFuna hm, decFuna, hn, hf, withField]
  | fcvtConvert d a n g r =>
    obtain ⟨hm, rfl, rfl, hn, rfl, hf⟩ := (fVU_fields (by omega) r.code_lt).1 h
    simp [decodeBody_eq_decFcvt hm, decFcvt, hn, hf]
  | fcvtI32 d a g r | fcvtWi32 d a g r =>
    obtain ⟨hm, rfl, rfl, hn, rfl, hf⟩ := (fVU_fields (by decide) r.code_lt).1 h
    simp [decodeBody_eq_decFcvt hm, decFcvt, hn, hf]
  | vmovMov d a g | vmovBcast d a g | vmovRdlane d a g | vmovWrlane d a g =>
    obtain ⟨hm, rfl, rfl, hn, rfl, hf⟩ := (fVU_fields (by decide) (by decide)).1 h
    simp [decodeBody_eq_decVmov hm, decVmov, hn, hf]
  | vmovLaneid d g =>
    obtain ⟨hm, rfl, ha, hn, rfl, hf⟩ := (fVU_fields (by decide) (by decide)).1 h
    simp [decodeBody_eq_decVmov hm, decVmov, hn, hf, reg6_eq_iff.1 ha, zeroThen]
  | vxlnShfl d a g | vxlnBcl d a g =>
    obtain ⟨hm, rfl, rfl, hn, rfl, hf⟩ := (fVU_fields (by decide) (by decide)).1 h
    simp [decodeBody_eq_decVxln hm, decVxln, hn, hf]
  | vxlnRedadd d a g t | vxlnRedmax d a g t | vxlnScan d a g t =>
    obtain ⟨hm, rfl, rfl, hn, rfl, hf⟩ := (fVU_fields (by decide) (t.code_lt.trans (by decide))).1 h
    simp [decodeBody_eq_decVxln hm, decVxln, hn, hf, withField]
  | vld d a o g sc z =>
    have := z.code_lt
    have := sc.toNat_lt
    obtain ⟨hm, rfl, rfl, rfl, rfl, hz⟩ := (fMV_fields (by omega)).1 h
    obtain ⟨rfl, h0⟩ := (bits_size (by omega)).1 hz
    simp [decodeBody_eq_decVld hm, decVld, h0, withField]
  | vst d a o g sc z =>
    have := z.code_lt
    have := sc.toNat_lt
    obtain ⟨hm, rfl, rfl, rfl, rfl, hz⟩ := (fMV_fields (by omega)).1 h
    obtain ⟨rfl, h0⟩ := (bits_size (by omega)).1 hz
    simp [decodeBody_eq_decVst hm, decVst, h0, withField]
  | vatmAddI d a o g | vatmAddF d a o g | vatmMinI d a o g | vatmMaxI d a o g | vatmMaxF d a o g | vatmAnd d a o g | vatmOr d a o g
  | vatmXor d a o g | vatmXchg d a o g | vatmCas d a o g =>
    obtain ⟨hm, rfl, rfl, rfl, rfl, hf⟩ := (fMV_fields (by decide)).1 h
    simp [decodeBody_eq_decVatm hm, decVatm, hf]
  | tsl d t r i g =>
    obtain ⟨hm, rfl, rfl, rfl, rfl, rfl⟩ := fTS_fields.1 h
    simp [decodeBody_eq_decTsl hm, decTsl]
  | tss d t r i g =>
    obtain ⟨hm, rfl, rfl, rfl, rfl, rfl⟩ := fTS_fields.1 h
    simp [decodeBody_eq_decTss hm, decTss]
  | _ => exact absurd hg Bool.false_ne_true

/-- The body of the word of an instruction with no guard decodes to it. -/
theorem decodeBody_of_encodes_unguarded {w : Nat} {i : Instr} (h : Encodes w i) (hg : (hasWord i && i.guard?.isNone) = true) :
    decodeBody w = .ok i := by
  obtain ⟨-, hwf, h⟩ := h
  cases i with
  | miscTrap k =>
    obtain ⟨hm, hf, hz, rfl⟩ := miscTrap_fields.1 h
    simp [decodeBody_eq_decMisc hm, decMisc, hf, hz, zeroThen]
  | miscNop | miscExit | miscYield | miscBrk =>
    obtain ⟨hm, hf, h12, h6, h0⟩ := (fSR_fields (by decide) (by decide) (by decide) (by decide)).1 h
    simp [decodeBody_eq_decMisc hm, decMisc, hf, h12, h6, h0, bits_zero_eighteen, zeroThen]
  | sopAdd d a b | sopSub d a b | sopMul d a b | sopMulh d a b | sopMulhn d a b | sopDiv d a b | sopDivn d a b | sopRem d a b
  | sopAnd d a b | sopOr d a b | sopXor d a b | sopAndn d a b | sopShl d a b | sopShr d a b | sopSar d a b | sopMin d a b | sopMax d a b
  | sopMinn d a b | sopMaxn d a b | sopSlt d a b | sopSltn d a b | sopSeq d a b =>
    obtain ⟨hm, hd, ha, hb, hf⟩ := (fSR_fields d.isLt a.isLt b.isLt (by decide)).1 h
    rw [← reg6_eq_iff] at hd ha hb
    simp [decodeBody_eq_decSop hm, decSop, hf, hd, ha, hb]
  | sopPopc d a | sopClz d a | sopCtz d a =>
    obtain ⟨hm, hd, ha, hz, hf⟩ := (fSR_fields d.isLt a.isLt (by decide) (by decide)).1 h
    rw [← reg6_eq_iff] at hd ha
    simp [decodeBody_eq_decSop hm, decSop, hf, hd, ha, hz, zeroThen]
  | sopiAddi d a i | sopiAndi d a i | sopiOri d a i | sopiXori d a i =>
    obtain ⟨hm, rfl, rfl, hf, hi⟩ := (fSI_fields (by decide) i.isLt).1 h
    simp [decodeBody_eq_decSopi hm, decSopi, hf, ofNat_low_eq_iff.2 hi]
  | sshiSlti d a i =>
    obtain ⟨hm, rfl, rfl, hf, hi⟩ := (fSI_fields (by decide) i.isLt).1 h
    simp [decodeBody_eq_decSshi hm, decSshi, hf, ofNat_low_eq_iff.2 hi]
  | sshiShli d a i | sshiShri d a i | sshiSari d a i =>
    obtain ⟨hm, rfl, rfl, hf, hi⟩ := (fSI_fields (by decide) (by omega)).1 h
    obtain ⟨rfl, hz⟩ := bits_ten_imm.1 hi
    simp [decodeBody_eq_decSshi hm, decSshi, hf, hz, zeroThen]
  | sinsInsert d q i =>
    obtain ⟨hm, rfl, hq, hi⟩ := (fSQ_fields q.isLt i.isLt).1 h
    rw [decodeBody_eq_decSins hm, decSins, ofNat_low_eq_iff.2 hi, show Fin.ofNat 4 (w / 2 ^ 16) = q from Fin.ext hq]
  | aopAadd d a b k =>
    obtain ⟨hm, hd, ha, hb, hk, hf, hz⟩ := (fAR_fields d.isLt a.isLt b.isLt k.isLt (by decide)).1 h
    rw [← reg4_eq_iff] at hd ha
    rw [← ofNat_eq_iff] at hk
    simp only [decodeBody_eq_decAop hm, decAop, hf, hd, ha, reg6_eq_iff.2 hb, hk, hz, zeroThen, if_true]
  | aopAset d a b k =>
    obtain ⟨hm, hd, ha, hb, hk, hf, hz⟩ := (fAR_fields d.isLt a.isLt b.isLt (by have := k.toNat_lt; omega) (by decide)).1 h
    rw [← reg4_eq_iff] at hd ha
    obtain ⟨rfl, h8⟩ := bits_three_one.1 hk
    simp [decodeBody_eq_decAop hm, decAop, hf, hd, ha, reg6_eq_iff.2 hb, h8, hz, zeroThen]
  | aopAget a b k =>
    obtain ⟨hm, hd, ha, hb, hk, hf, hz⟩ := (fAR_fields (by decide) a.isLt b.isLt (by have := k.toNat_lt; omega) (by decide)).1 h
    obtain ⟨rfl, h8⟩ := bits_three_one.1 hk
    simp [decodeBody_eq_decAop hm, decAop, hf, hd, reg4_eq_iff.2 ha, reg6_eq_iff.2 hb, h8, hz, zeroThen]
  | aopAmov d a =>
    obtain ⟨hm, hd, ha, hb, hk, hf, hz⟩ := (fAR_fields d.isLt a.isLt (by decide) (by decide) (by decide)).1 h
    rw [← reg4_eq_iff] at hd ha
    simp [decodeBody_eq_decAop hm, decAop, hf, hd, ha, hz, bits_seven_nine, hk, hb, zeroThen]
  | cregCrd d n | cregCwr d n =>
    obtain ⟨hm, rfl, hf, hn⟩ := (fSQ_fields (by decide) n.isLt).1 h
    have hk : cregKnown n.toNat = true := hwf
    simp [decodeBody_eq_decCreg hm, decCreg, hf, hn, hk, ofNat_low_eq_iff.2 hn]
  | vsel d a b g =>
    obtain ⟨hm, rfl, rfl, rfl, rfl, hf⟩ := (fVR_fields (by decide)).1 h
    simp [decodeBody_eq_decVsel hm, decVsel, hf]
  | plogPand d a n b | plogPor d a n b | plogPxor d a n b =>
    obtain ⟨hm, hd, ha, hf, hb⟩ := (fSR_fields (by omega) (by omega) (by decide) (by have := n.toNat_lt; omega)).1 h
    obtain ⟨rfl, h21⟩ := bits_six_three.1 hd
    obtain ⟨rfl, h15⟩ := bits_six_three.1 ha
    obtain ⟨⟨rfl, h4⟩, rfl⟩ := bits_plog.1 hb
    simp [decodeBody_eq_decPlog hm, decPlog, hf, h21, h15, h4, zeroThen]
  | plogPmovs d a n =>
    obtain ⟨hm, hd, ha, hf, hn⟩ := (fSR_fields d.isLt (by omega) (by decide) n.isLt).1 h
    obtain ⟨rfl, h15⟩ := bits_six_three.1 ha
    simp [decodeBody_eq_decPlog hm, decPlog, hf, reg6_eq_iff.2 hd, reg6_eq_iff.2 hn, h15, zeroThen]
  | plogPbal d a =>
    obtain ⟨hm, hd, ha, hf, h0⟩ := (fSR_fields d.isLt (by omega) (by decide) (by decide)).1 h
    obtain ⟨rfl, h15⟩ := bits_six_three.1 ha
    simp [decodeBody_eq_decPlog hm, decPlog, hf, reg6_eq_iff.2 hd, h0, h15, zeroThen]
  | plogEmw a =>
    obtain ⟨hm, h18, ha, hf, h0⟩ := (fSR_fields (by decide) (by omega) (by decide) (by decide)).1 h
    obtain ⟨rfl, h15⟩ := bits_six_three.1 ha
    simp [decodeBody_eq_decPlog hm, decPlog, hf, h18, h0, h15, zeroThen]
  | plogEmr d n =>
    obtain ⟨hm, hd, h12, hf, hn⟩ := (fSR_fields d.isLt (by decide) (by decide) n.isLt).1 h
    simp [decodeBody_eq_decPlog hm, decPlog, hf, reg6_eq_iff.2 hd, reg6_eq_iff.2 hn, h12, zeroThen]
  | xfrmHfwd d a k | xfrmHpack d a k =>
    obtain ⟨hm, hd, ha, hf, hk⟩ := (fSR_fields d.isLt a.isLt (by decide) (by omega)).1 h
    obtain ⟨rfl, h3⟩ := bits_six_three.1 hk
    simp [decodeBody_eq_decXfrm hm, decXfrm, hf, reg6_eq_iff.2 hd, reg6_eq_iff.2 ha, h3, zeroThen]
  | xfrmHinv d a | xfrmXpose d a | xfrmI4dq d a =>
    obtain ⟨hm, hd, ha, hf, h0⟩ := (fSR_fields d.isLt a.isLt (by decide) (by decide)).1 h
    simp [decodeBody_eq_decXfrm hm, decXfrm, hf, reg6_eq_iff.2 hd, reg6_eq_iff.2 ha, h0, zeroThen]
  | xfrmHthr d a k =>
    obtain ⟨hm, hd, ha, hf, hk⟩ := (fSR_fields d.isLt a.isLt (by decide) (by omega)).1 h
    obtain ⟨rfl, h2⟩ := bits_six_two.1 hk
    simp [decodeBody_eq_decXfrm hm, decXfrm, hf, reg6_eq_iff.2 hd, reg6_eq_iff.2 ha, h2, zeroThen]
  | xfrmHunpk d a k p =>
    obtain ⟨hm, hd, ha, hf, hk⟩ := (fSR_fields d.isLt a.isLt (by decide) (by omega)).1 h
    obtain ⟨rfl, rfl⟩ := bits_two_regs.1 hk
    simp [decodeBody_eq_decXfrm hm, decXfrm, hf, reg6_eq_iff.2 hd, reg6_eq_iff.2 ha]
  | xfrmMxq d a m r =>
    have := m.code_lt
    have := r.code_lt
    obtain ⟨hm, hd, ha, hf, hk⟩ := (fSR_fields d.isLt a.isLt (by decide) (by omega)).1 h
    obtain ⟨⟨h2, h4⟩, h0⟩ := (bits_mxfmt r.code_lt).1 hk
    simp [decodeBody_eq_decXfrm hm, decXfrm, hf, reg6_eq_iff.2 hd, reg6_eq_iff.2 ha, h2, h4, h0, withField, zeroThen]
  | xfrmMxdq d a m =>
    have := m.code_lt
    obtain ⟨hm, hd, ha, hf, hk⟩ := (fSR_fields d.isLt a.isLt (by decide) (by omega)).1 h
    obtain ⟨⟨h2, h4⟩, h0⟩ := (bits_mxfmt (r := 0) (by decide)).1 hk
    simp [decodeBody_eq_decXfrm hm, decXfrm, hf, reg6_eq_iff.2 hd, reg6_eq_iff.2 ha, h2, h4, h0, withField, zeroThen]
  | domnDtag d k =>
    obtain ⟨hm, hd, h12, hf, hk⟩ := (fSR_fields d.isLt (by decide) (by decide) (by omega)).1 h
    obtain ⟨rfl, h3⟩ := bits_six_three.1 hk
    simp [decodeBody_eq_decDomn hm, decDomn, hf, reg6_eq_iff.2 hd, h12, h3, zeroThen]
  | domnDget d a =>
    obtain ⟨hm, hd, ha, hf, h0⟩ := (fSR_fields d.isLt a.isLt (by decide) (by decide)).1 h
    simp [decodeBody_eq_decDomn hm, decDomn, hf, reg6_eq_iff.2 hd, reg6_eq_iff.2 ha, h0, zeroThen]
  | domnHscl d a b | domnHbia d a b =>
    obtain ⟨hm, hd, ha, hf, hb⟩ := (fSR_fields d.isLt a.isLt (by decide) b.isLt).1 h
    rw [← reg6_eq_iff] at hd ha hb
    simp [decodeBody_eq_decDomn hm, decDomn, hf, hd, ha, hb]
  | sld d a r z i =>
    obtain ⟨hm, rfl, rfl, hr, hz, rfl⟩ := fMS_fields.1 h
    simp [decodeBody_eq_decSld hm, decSld, hr, hz, withField]
  | sst d a r z i =>
    obtain ⟨hm, rfl, rfl, hr, hz, rfl⟩ := fMS_fields.1 h
    simp [decodeBody_eq_decSst hm, decSst, hr, hz, withField]
  | satmAdd d a b r z | satmSub d a b r z | satmAnd d a b r z | satmOr d a b r z | satmXor d a b r z | satmMin d a b r z | satmMax d a b r z
  | satmMinn d a b r z | satmMaxn d a b r z | satmXchg d a b r z | satmCas d a b r z =>
    have := z.code_lt
    obtain ⟨hm, rfl, rfl, hb, hr, ho⟩ := (fMA_fields b.isLt (by omega)).1 h
    obtain ⟨rfl, hf⟩ := (bits_satm (by decide)).1 ho
    simp [decodeBody_eq_decSatm hm, decSatm, reg6_eq_iff.2 hb, hr, hf, withField]
  | fenceAcq o =>
    have := o.code_lt
    obtain ⟨hm, hf, ho, h6, h0⟩ := (fSR_fields (by decide) (by omega) (by decide) (by decide)).1 h
    simp [decodeBody_eq_decFence hm, decFence, hf, ho, h6, h0, bits_zero_twelve, withField, zeroThen]
  | fenceRel o k | fenceAr o k | fenceSc o k =>
    have := o.code_lt
    obtain ⟨hm, hf, ho, hk, h0⟩ := (fSR_fields (by decide) (by omega) (by omega) (by decide)).1 h
    obtain ⟨hk, h11⟩ := bits_six_imm.1 hk
    simp only [decodeBody_eq_decFence hm, decFence, hf, ho, hk, h11, h0, scopeOf_code, withField, zeroThen, if_true]
  | wait k n =>
    have := k.code_lt
    obtain ⟨hm, hk, hn, h6, h0⟩ := (fSR_fields (by omega) n.isLt (by decide) (by decide)).1 h
    simp [decodeBody_eq_decWait hm, decWait, hk, reg6_eq_iff.2 hn, h6, h0, bits_zero_twelve, withField, zeroThen]
  | tbndBind t a =>
    obtain ⟨hm, ht, ha, hf, h0⟩ := (fSR_fields (by omega) a.isLt (by decide) (by decide)).1 h
    obtain ⟨rfl, h22⟩ := bits_six_four.1 ht
    simp [decodeBody_eq_decTbnd hm, decTbnd, hf, reg6_eq_iff.2 ha, h22, h0, zeroThen]
  | tbndUnbind t =>
    obtain ⟨hm, ht, h12, hf, h0⟩ := (fSR_fields (by omega) (by decide) (by decide) (by decide)).1 h
    obtain ⟨rfl, h22⟩ := bits_six_four.1 ht
    simp [decodeBody_eq_decTbnd hm, decTbnd, hf, h12, h22, h0, zeroThen]
  | tbndQuery d t k =>
    obtain ⟨hm, hd, ht, hf, hk⟩ := (fSR_fields d.isLt (by omega) (by decide) (by have := k.toNat_lt; omega)).1 h
    obtain ⟨rfl, h16⟩ := bits_six_four.1 ht
    obtain ⟨rfl, h1⟩ := bits_six_one.1 hk
    simp [decodeBody_eq_decTbnd hm, decTbnd, hf, reg6_eq_iff.2 hd, h16, h1, zeroThen]
  | xcpyIn t a | xcpyOut t a | xcpyMcin t a =>
    obtain ⟨hm, ht, ha, hf, h0⟩ := (fSR_fields (by omega) a.isLt (by decide) (by decide)).1 h
    obtain ⟨rfl, h22⟩ := bits_six_four.1 ht
    simp [decodeBody_eq_decXcpy hm, decXcpy, hf, reg6_eq_iff.2 ha, h22, h0, zeroThen]
  | ringRbind d a =>
    obtain ⟨hm, hd, ha, hf, h0⟩ := (fSR_fields d.isLt a.isLt (by decide) (by decide)).1 h
    simp [decodeBody_eq_decRing hm, decRing, hf, reg6_eq_iff.2 hd, reg6_eq_iff.2 ha, h0, zeroThen]
  | ringRunbind a =>
    obtain ⟨hm, h18, ha, hf, h0⟩ := (fSR_fields (by decide) a.isLt (by decide) (by decide)).1 h
    simp [decodeBody_eq_decRing hm, decRing, hf, h18, reg6_eq_iff.2 ha, h0, zeroThen]
  | ringSpub a k | ringSrel a k =>
    obtain ⟨hm, h18, ha, hf, hk⟩ := (fSR_fields (by decide) a.isLt (by decide) k.isLt).1 h
    rw [← reg6_eq_iff] at ha hk
    simp [decodeBody_eq_decRing hm, decRing, hf, h18, ha, hk, zeroThen]
  | ringSwait d a k =>
    obtain ⟨hm, hd, ha, hf, hk⟩ := (fSR_fields d.isLt a.isLt (by decide) k.isLt).1 h
    rw [← reg6_eq_iff] at hd ha hk
    simp [decodeBody_eq_decRing hm, decRing, hf, hd, ha, hk]
  | tbarTbinit d a | tbarTbtest d a =>
    obtain ⟨hm, hd, ha, hf, h0⟩ := (fSR_fields d.isLt a.isLt (by decide) (by decide)).1 h
    simp [decodeBody_eq_decTbar hm, decTbar, hf, reg6_eq_iff.2 hd, reg6_eq_iff.2 ha, h0, zeroThen]
  | tbarTbarr a o =>
    have := o.code_lt
    obtain ⟨hm, h18, ha, hf, ho⟩ := (fSR_fields (by decide) a.isLt (by decide) (by omega)).1 h
    simp [decodeBody_eq_decTbar hm, decTbar, hf, h18, reg6_eq_iff.2 ha, ho, withField, zeroThen]
  | tbarTbwait d a k =>
    obtain ⟨hm, hd, ha, hf, hk⟩ := (fSR_fields d.isLt a.isLt (by decide) k.isLt).1 h
    rw [← reg6_eq_iff] at hd ha hk
    simp [decodeBody_eq_decTbar hm, decTbar, hf, hd, ha, hk]
  | sigSigadd d a b r | sigSigwait d a b r | sigWatch d a b r =>
    obtain ⟨hm, rfl, rfl, hb, hr, hf⟩ := (fMA_fields b.isLt (by decide)).1 h
    simp [decodeBody_eq_decSig hm, decSig, reg6_eq_iff.2 hb, hr, hf, withField]
  | sigSigrd d a r =>
    obtain ⟨hm, rfl, rfl, hz, hr, hf⟩ := (fMA_fields (by decide) (by decide)).1 h
    simp [decodeBody_eq_decSig hm, decSig, hz, hr, hf, withField, zeroThen]
  | sgrpArr d a b r =>
    obtain ⟨hm, rfl, rfl, hb, hr, hf⟩ := (fMA_fields b.isLt (by decide)).1 h
    simp [decodeBody_eq_decSgrp hm, decSgrp, reg6_eq_iff.2 hb, hr, hf, withField]
  | sgrpFork d a r | sgrpCan d a r | sgrpWait d a r | sgrpFree d a r | sgrpInfo d a r =>
    obtain ⟨hm, rfl, rfl, hz, hr, hf⟩ := (fMA_fields (by decide) (by decide)).1 h
    simp [decodeBody_eq_decSgrp hm, decSgrp, hz, hr, hf, withField, zeroThen]
  | hctlHret t =>
    have := t.code_lt
    obtain ⟨hm, hf, ht, h6, h0⟩ := (fSR_fields (by decide) (by omega) (by decide) (by decide)).1 h
    simp [decodeBody_eq_decHctl hm, decHctl, hf, ht, h6, h0, bits_zero_twelve, withField, zeroThen]
  | hctlHtaint =>
    obtain ⟨hm, hf, h12, h6, h0⟩ := (fSR_fields (by decide) (by decide) (by decide) (by decide)).1 h
    simp [decodeBody_eq_decHctl hm, decHctl, hf, h12, h6, h0, bits_zero_eighteen, zeroThen]
  | hctlWstat d e =>
    obtain ⟨hm, hf, hd, he, h0⟩ := (fSR_fields (by decide) d.isLt (by omega) (by decide)).1 h
    simp [decodeBody_eq_decHctl hm, decHctl, hf, reg6_eq_iff.2 hd, he, h0, zeroThen]
  | hctlWpos d k n =>
    obtain ⟨hm, hf, hd, hk, hn⟩ := (fSR_fields (by decide) d.isLt k.isLt n.isLt).1 h
    have hp : wposKnown k.val n.val = true := hwf
    simp [decodeBody_eq_decHctl hm, decHctl, hf, reg6_eq_iff.2 hd, reg6_eq_iff.2 hk, reg6_eq_iff.2 hn, hk, hn, hp]
  | brv g o =>
    obtain ⟨hm, rfl, rfl⟩ := brv_fields.1 h
    simp [decodeBody_eq_decBrv hm, decBrv]
  | rcv o =>
    obtain ⟨hm, hf, ho⟩ := (fJ_fields (by decide) o.isLt).1 h
    simp [decodeBody_eq_decRcv hm, decRcv, hf, ofNat_low_eq_iff.2 ho]
  | join =>
    obtain ⟨hm, hz⟩ := join_fields.1 h
    simp [decodeBody_eq_decJoin hm, decJoin, hz, zeroThen]
  | brsBeqz k o | brsBnez k o | brsBltz k o | brsBgez k o =>
    obtain ⟨hm, rfl, hf, ho⟩ := (fSQ_fields (by decide) o.isLt).1 h
    simp [decodeBody_eq_decBrs hm, decBrs, hf, ofNat_low_eq_iff.2 ho]
  | jmpJmp o | jmpCall o =>
    obtain ⟨hm, hf, ho⟩ := (fJ_fields (by decide) o.isLt).1 h
    simp [decodeBody_eq_decJmp hm, decJmp, hf, ofNat_low_eq_iff.2 ho]
  | jmpJmpr a =>
    obtain ⟨hm, hf, ha⟩ := (fJ_fields (by decide) (by omega)).1 h
    obtain ⟨rfl, hz⟩ := bits_jmpr.1 ha
    simp [decodeBody_eq_decJmp hm, decJmp, hf, hz, zeroThen]
  | jmpRet =>
    obtain ⟨hm, hf, hz⟩ := (fJ_fields (by decide) (by decide)).1 h
    simp [decodeBody_eq_decJmp hm, decJmp, hf, hz, zeroThen]
  | syncGbar o =>
    have := o.code_lt
    obtain ⟨hm, hf, ho, h6, h0⟩ := (fSR_fields (by decide) (by omega) (by decide) (by decide)).1 h
    have hg : gbarScope o = true := hwf
    simp [decodeBody_eq_decSync hm, decSync, hf, ho, h6, h0, hg, bits_zero_twelve, withField, zeroThen]
  | syncEnq d q p =>
    obtain ⟨hm, hf, hd, hq, hp⟩ := (fSR_fields (by decide) d.isLt (by omega) (by omega)).1 h
    obtain ⟨rfl, h10⟩ := bits_six_four.1 hq
    obtain ⟨rfl, h4⟩ := bits_six_four.1 hp
    simp [decodeBody_eq_decSync hm, decSync, hf, reg6_eq_iff.2 hd, h10, h4, zeroThen]
  | syncQctlCreate d q | syncQctlStop d q | syncQctlDestroy d q =>
    obtain ⟨hm, hf, hd, hq, h0⟩ := (fSR_fields (by decide) d.isLt (by omega) (by decide)).1 h
    obtain ⟨rfl, h10⟩ := bits_six_four.1 hq
    simp [decodeBody_eq_decSync hm, decSync, hf, reg6_eq_iff.2 hd, h10, h0, zeroThen]
  | syncQctlResume d q a =>
    obtain ⟨hm, hf, hd, hq, ha⟩ := (fSR_fields (by decide) d.isLt (by omega) a.isLt).1 h
    obtain ⟨rfl, h10⟩ := bits_six_four.1 hq
    simp [decodeBody_eq_decSync hm, decSync, hf, reg6_eq_iff.2 hd, reg6_eq_iff.2 ha, h10, zeroThen]
  | privTretRetry | privTretSkip | privTretKill =>
    obtain ⟨hm, hf, h12, h6, h0⟩ := (fSR_fields (by decide) (by decide) (by decide) (by decide)).1 h
    simp [decodeBody_eq_decPriv hm, decPriv, hf, decTret, h12, h6, h0, bits_zero_twelve, zeroThen]
  | privPgcow d =>
    obtain ⟨hm, hf, hd, h6, h0⟩ := (fSR_fields (by decide) d.isLt (by decide) (by decide)).1 h
    simp [decodeBody_eq_decPriv hm, decPriv, hf, reg6_eq_iff.2 hd, h6, h0, bits_zero_twelve, zeroThen]
  | privPgref d a =>
    obtain ⟨hm, hf, hd, ha, h0⟩ := (fSR_fields (by decide) d.isLt (by omega) (by decide)).1 h
    obtain ⟨rfl, h10⟩ := bits_six_four.1 ha
    simp [decodeBody_eq_decPriv hm, decPriv, hf, reg6_eq_iff.2 hd, h10, h0, zeroThen]
  | privTlbinv a b k =>
    obtain ⟨hm, hf, ha, hb, hk⟩ := (fSR_fields (by decide) (by omega) b.isLt k.isLt).1 h
    obtain ⟨rfl, h16⟩ := bits_six_four.1 ha
    simp [decodeBody_eq_decPriv hm, decPriv, hf, reg6_eq_iff.2 hb, reg6_eq_iff.2 hk, h16, zeroThen]
  | privEseal d a b =>
    obtain ⟨hm, hf, hd, ha, hb⟩ := (fSR_fields (by decide) d.isLt (by omega) b.isLt).1 h
    obtain ⟨rfl, h10⟩ := bits_six_four.1 ha
    simp [decodeBody_eq_decPriv hm, decPriv, hf, reg6_eq_iff.2 hd, reg6_eq_iff.2 hb, h10, zeroThen]
  | privPreemptSave d q | privPreemptRsm d q =>
    obtain ⟨hm, hf, hd, hq, h0⟩ := (fSR_fields (by decide) d.isLt (by omega) (by decide)).1 h
    obtain ⟨rfl, h10⟩ := bits_six_four.1 hq
    simp [decodeBody_eq_decPriv hm, decPriv, hf, decPreempt, reg6_eq_iff.2 hd, h10, h0, zeroThen]
  | privHalt =>
    obtain ⟨hm, hf, h12, h6, h0⟩ := (fSR_fields (by decide) (by decide) (by decide) (by decide)).1 h
    simp [decodeBody_eq_decPriv hm, decPriv, hf, h12, h6, h0, bits_zero_eighteen, zeroThen]
  | _ => exact absurd hg Bool.false_ne_true

end Sys2Proof
end

section
/-!
PROOFS. Decode and encode agree (spec/02 R29, R43 to R47).
-/
namespace Sys2Proof

open Laws.BodyFits in
/-- The body of a word lies below its chain and switch bits (the family `BodyFits`). -/
theorem encodeBody_lt (i : Instr) : encodeBody i < 2 ^ 30 := by
  cases i with
  | miscNop => exact miscNop .. | miscExit => exact miscExit .. | miscYield => exact miscYield .. | miscBrk => exact miscBrk ..
  | miscTrap => exact miscTrap .. | sopAdd => exact sopAdd .. | sopSub => exact sopSub .. | sopMul => exact sopMul ..
  | sopMulh => exact sopMulh .. | sopMulhn => exact sopMulhn .. | sopDiv => exact sopDiv .. | sopDivn => exact sopDivn ..
  | sopRem => exact sopRem .. | sopAnd => exact sopAnd .. | sopOr => exact sopOr .. | sopXor => exact sopXor ..
  | sopAndn => exact sopAndn .. | sopShl => exact sopShl .. | sopShr => exact sopShr .. | sopSar => exact sopSar ..
  | sopMin => exact sopMin .. | sopMax => exact sopMax .. | sopMinn => exact sopMinn .. | sopMaxn => exact sopMaxn ..
  | sopSlt => exact sopSlt .. | sopSltn => exact sopSltn .. | sopSeq => exact sopSeq .. | sopPopc => exact sopPopc ..
  | sopClz => exact sopClz .. | sopCtz => exact sopCtz .. | sopiAddi => exact sopiAddi .. | sopiAndi => exact sopiAndi ..
  | sopiOri => exact sopiOri .. | sopiXori => exact sopiXori .. | sshiShli => exact sshiShli .. | sshiShri => exact sshiShri ..
  | sshiSari => exact sshiSari .. | sshiSlti => exact sshiSlti .. | sinsInsert => exact sinsInsert .. | aopAadd => exact aopAadd ..
  | aopAset => exact aopAset .. | aopAget => exact aopAget .. | aopAmov => exact aopAmov .. | cregCrd => exact cregCrd ..
  | cregCwr => exact cregCwr .. | variIadd => exact variIadd .. | variIsub => exact variIsub .. | variImul => exact variImul ..
  | variImulh => exact variImulh .. | vlogAnd => exact vlogAnd .. | vlogOr => exact vlogOr .. | vlogXor => exact vlogXor ..
  | vlogAndn => exact vlogAndn .. | vsftShl => exact vsftShl .. | vsftShr => exact vsftShr .. | vsftSar => exact vsftSar ..
  | vsftRol => exact vsftRol .. | vmnxImin => exact vmnxImin .. | vmnxImax => exact vmnxImax .. | vmnxNmin => exact vmnxNmin ..
  | vmnxNmax => exact vmnxNmax .. | vcmpEq => exact vcmpEq .. | vcmpLt => exact vcmpLt .. | vcmpLe => exact vcmpLe ..
  | vcmpLtn => exact vcmpLtn .. | vadi => exact vadi .. | vimmSx => exact vimmSx .. | vimmHi => exact vimmHi .. | fadd => exact fadd ..
  | fsub => exact fsub .. | fmul => exact fmul .. | fma => exact fma .. | fmin => exact fmin .. | fmax => exact fmax ..
  | fceq => exact fceq .. | fclt => exact fclt .. | fcle => exact fcle .. | fcun => exact fcun .. | funaExp2 => exact funaExp2 ..
  | funaLog2 => exact funaLog2 .. | funaRcp => exact funaRcp .. | funaRsqrt => exact funaRsqrt .. | funaSqrt => exact funaSqrt ..
  | funaTanh => exact funaTanh .. | funaSigm => exact funaSigm .. | funaGelu => exact funaGelu .. | funaAbs => exact funaAbs ..
  | funaNeg => exact funaNeg .. | funaFloor => exact funaFloor .. | funaCeil => exact funaCeil .. | funaRint => exact funaRint ..
  | funaFrac => exact funaFrac .. | fcvtConvert => exact fcvtConvert .. | fcvtI32 => exact fcvtI32 .. | fcvtWi32 => exact fcvtWi32 ..
  | vsel => exact vsel .. | vmovMov => exact vmovMov .. | vmovBcast => exact vmovBcast .. | vmovRdlane => exact vmovRdlane ..
  | vmovWrlane => exact vmovWrlane .. | vmovLaneid => exact vmovLaneid .. | vxlnShfl => exact vxlnShfl .. | vxlnBcl => exact vxlnBcl ..
  | vxlnRedadd => exact vxlnRedadd .. | vxlnRedmax => exact vxlnRedmax .. | vxlnScan => exact vxlnScan .. | plogPand => exact plogPand ..
  | plogPor => exact plogPor .. | plogPxor => exact plogPxor .. | plogPmovs => exact plogPmovs .. | plogPbal => exact plogPbal ..
  | plogEmw => exact plogEmw .. | plogEmr => exact plogEmr .. | xfrmHfwd => exact xfrmHfwd .. | xfrmHinv => exact xfrmHinv ..
  | xfrmHthr => exact xfrmHthr .. | xfrmHpack => exact xfrmHpack .. | xfrmHunpk => exact xfrmHunpk .. | xfrmXpose => exact xfrmXpose ..
  | xfrmMxq => exact xfrmMxq .. | xfrmMxdq => exact xfrmMxdq .. | xfrmI4dq => exact xfrmI4dq .. | domnDtag => exact domnDtag ..
  | domnDget => exact domnDget .. | domnHscl => exact domnHscl .. | domnHbia => exact domnHbia .. | vld => exact vld ..
  | vst => exact vst .. | vatmAddI => exact vatmAddI .. | vatmAddF => exact vatmAddF .. | vatmMinI => exact vatmMinI ..
  | vatmMaxI => exact vatmMaxI .. | vatmMaxF => exact vatmMaxF .. | vatmAnd => exact vatmAnd .. | vatmOr => exact vatmOr ..
  | vatmXor => exact vatmXor .. | vatmXchg => exact vatmXchg .. | vatmCas => exact vatmCas .. | sld => exact sld .. | sst => exact sst ..
  | satmAdd => exact satmAdd .. | satmSub => exact satmSub .. | satmAnd => exact satmAnd .. | satmOr => exact satmOr ..
  | satmXor => exact satmXor .. | satmMin => exact satmMin .. | satmMax => exact satmMax .. | satmMinn => exact satmMinn ..
  | satmMaxn => exact satmMaxn .. | satmXchg => exact satmXchg .. | satmCas => exact satmCas .. | fenceAcq => exact fenceAcq ..
  | fenceRel => exact fenceRel .. | fenceAr => exact fenceAr .. | fenceSc => exact fenceSc .. | wait => exact wait .. | tsl => exact tsl ..
  | tss => exact tss .. | tbndBind => exact tbndBind .. | tbndUnbind => exact tbndUnbind .. | tbndQuery => exact tbndQuery ..
  | xcpyIn => exact xcpyIn .. | xcpyOut => exact xcpyOut .. | xcpyMcin => exact xcpyMcin .. | ringRbind => exact ringRbind ..
  | ringRunbind => exact ringRunbind .. | ringSpub => exact ringSpub .. | ringSrel => exact ringSrel .. | ringSwait => exact ringSwait ..
  | tbarTbinit => exact tbarTbinit .. | tbarTbarr => exact tbarTbarr .. | tbarTbwait => exact tbarTbwait ..
  | tbarTbtest => exact tbarTbtest .. | sigSigadd => exact sigSigadd .. | sigSigwait => exact sigSigwait .. | sigSigrd => exact sigSigrd ..
  | sigWatch => exact sigWatch .. | sgrpFork => exact sgrpFork .. | sgrpArr => exact sgrpArr .. | sgrpCan => exact sgrpCan ..
  | sgrpWait => exact sgrpWait .. | sgrpFree => exact sgrpFree .. | sgrpInfo => exact sgrpInfo .. | hctlHret => exact hctlHret ..
  | hctlHtaint => exact hctlHtaint .. | hctlWstat => exact hctlWstat .. | hctlWpos => exact hctlWpos .. | brv => exact brv ..
  | rcv => exact rcv .. | join => exact join .. | brsBeqz => exact brsBeqz .. | brsBnez => exact brsBnez .. | brsBltz => exact brsBltz ..
  | brsBgez => exact brsBgez .. | jmpJmp => exact jmpJmp .. | jmpCall => exact jmpCall .. | jmpJmpr => exact jmpJmpr ..
  | jmpRet => exact jmpRet .. | syncGbar => exact syncGbar .. | syncEnq => exact syncEnq .. | syncQctlCreate => exact syncQctlCreate ..
  | syncQctlStop => exact syncQctlStop .. | syncQctlResume => exact syncQctlResume .. | syncQctlDestroy => exact syncQctlDestroy ..
  | privTretRetry => exact privTretRetry .. | privTretSkip => exact privTretSkip .. | privTretKill => exact privTretKill ..
  | privPgcow => exact privPgcow .. | privPgref => exact privPgref .. | privTlbinv => exact privTlbinv .. | privEseal => exact privEseal ..
  | privPreemptSave => exact privPreemptSave .. | privPreemptRsm => exact privPreemptRsm .. | privHalt => exact privHalt ..
  | _ => exact zero_fits

theorem encode_toNat (chain switch : Bool) (i : Instr) :
    (encode chain switch i).toNat = chain.toNat * 2 ^ 31 + switch.toNat * 2 ^ 30 + encodeBody i := by
  have hb := encodeBody_lt i
  have hc := chain.toNat_lt
  have hs := switch.toNat_lt
  rw [encode, BitVec.toNat_ofNat, Nat.mod_eq_of_lt (by omega)]

/-- The chain bit, the switch bit and the body of a word (spec/02 R29). -/
theorem encode_eq_iff {chain switch : Bool} {i : Instr} {w : W32} :
    encode chain switch i = w ↔ flag w.toNat 31 = chain ∧ flag w.toNat 30 = switch ∧ encodeBody i = w.toNat % 2 ^ 30 := by
  have hb := encodeBody_lt i
  have hc := chain.toNat_lt
  have hs := switch.toNat_lt
  have hw := w.isLt
  rw [← BitVec.toNat_inj, encode_toNat, flag_eq_iff, flag_eq_iff, bits, bits]
  omega

theorem decodeBody_of_encodes {w : Nat} {i : Instr} (h : Encodes w i) : decodeBody w = .ok i := by
  obtain ⟨hword, -, -⟩ := id h
  cases hg : i.guard? with
  | some g => exact decodeBody_of_encodes_guarded h (by rw [hg]; rfl)
  | none => exact decodeBody_of_encodes_unguarded h (by rw [hg, hword]; rfl)

/-- A word that decodes gives its chain bit, its switch bit and what its body decodes to. -/
theorem decode_eq_ok_iff {w : W32} {sl : Slot} :
    decode w = .ok sl ↔ sl.chain = flag w.toNat 31 ∧ sl.switch = flag w.toNat 30 ∧ decodeBody w.toNat = .ok sl.instr := by
  obtain ⟨c, s, i⟩ := sl
  unfold decode
  cases decodeBody w.toNat with
  | ok j => simp [eq_comm]
  | error e => simp

end Sys2Proof

namespace Sys2Proof.Claim
open Sys2Proof

/-- Settles O56: both directions are the equation of the body (`Encodes`), beside the chain and switch bits. -/
theorem decodeAndEncodeAgree : Obligations.DecodeAndEncodeAgree := by
  unfold Obligations.DecodeAndEncodeAgree
  constructor
  · intro chain switch i hword hwf
    obtain ⟨hc, hs, hb⟩ := (encode_eq_iff (chain := chain) (switch := switch) (i := i)).1 rfl
    exact decode_eq_ok_iff.2 ⟨hc.symm, hs.symm, decodeBody_of_encodes ⟨hword, hwf, hb⟩⟩
  · intro w sl h
    obtain ⟨hc, hs, hi⟩ := decode_eq_ok_iff.1 h
    obtain ⟨hword, hwf, hb⟩ := decodeBody_yields _ _ hi
    exact ⟨hword, hwf, encode_eq_iff.2 ⟨hc.symm, hs.symm, hb⟩⟩

end Sys2Proof.Claim
end

section
/-!
PROOFS. What a word that fails a check does, by the one equation that every word's meaning begins with.
-/
namespace Sys2Proof.Machine
open Sys2Proof

/-- A word that fails a check takes the trap of that check, with none of its effects: the meaning of every word begins with its checks. -/
theorem exec_of_check_some {i : Instr} {s : State} {f : FaultInfo} (hw : hasWord i = true) (h : s.check i = some f) :
    exec i s = .next (s.trapHere f) := by
  cases i with
  | trapEntry | transformPipeReply | loadComplete | storePerformed | atomicPerformed | teamSlotRelease | regather | teamAged
  | l1Writeback | signalWaitSatisfied | evictedTeamRestore | copyStart | copySectorPerformed | ringFillChunk | ringDrainChunk
  | ringUnbindComplete | pageAnswer | hostStore | hostLoad | remoteRequest | ticketClaim | packetDispatch | placementRetry
  | placementPressurePreempt | waitSignalsDispatch | signalPacketPerform | bundleStart | queueStallCheck | kstepBegin | kstepBoundary
  | splitkArrival | upcallDelivery | streamFillComplete | streamDrainComplete | walkStallReport | groupDeadline | preemptSaveComplete
  | drainLimitExpiry | queueAutoResume | dbgctlHaltreq | dbgctlResume | debugHaltQuiet | energyTick | sealedIntervalClose
  | powerBudgetTick | ptpSyncReceive | ptpFrameDrop | ptpSyncTimeout | ppsEdge | correctableError | uncorrectableError | linkCrcError
  | linkRetrainEnd | pwrlimWrite | prqheadWrite | prawrWrite | logheadWrite | ringBaseWrite | registerWrite | powerGood
  | firmwareImageVerify | warmReset | fwSetPtpAddress | fwReadPublicKey | fwSupplyLastRecord | fwContextKill | fwPartitionAssign
  | powerLoss | fwContextCreate | frameExport | sgOperationPerformed | ptpAnnounceReceive | ptpDelayRespReceive | linkCompressorSwitch => exact absurd hw Bool.false_ne_true
  | _ =>
    conv_lhs => whnf
    rw [h]

/-! ### The first check that fails (spec/02 R38, R47, R48) -/

section
variable {s : State} {i : Instr}

theorem State.check_ill_formed (h1 : WellFormed i = false) : s.check i = some (illegal .rsvfn) := by simp [State.check, h1]

theorem State.check_unallocated (h1 : WellFormed i = true) (h2 : s.me.allocOk i.names = false) : s.check i = some (illegal .regalloc) := by
  simp [State.check, h1, h2]

theorem State.check_level (h1 : WellFormed i = true) (h2 : s.me.allocOk i.names = true) (h3 : i.levelOk s.me.ctl.level.code = false) :
    s.check i = some (illegal .privlvl) := by simp [State.check, h1, h2, h3]

theorem State.check_operand (h1 : WellFormed i = true) (h2 : s.me.allocOk i.names = true) (h3 : i.levelOk s.me.ctl.level.code = true)
    (h4 : s.operandOk i = false) : s.check i = some (illegal .operand) := by simp [State.check, h1, h2, h3, h4]

theorem State.check_unmarked {n : Nat} (h1 : WellFormed i = true) (h2 : s.me.allocOk i.names = true)
    (h3 : i.levelOk s.me.ctl.level.code = true) (h4 : s.operandOk i = true) (h5 : s.me.unmarked i.names = some n) :
    s.check i = some ⟨1, n, 0, false, 0⟩ := by simp [State.check, h1, h2, h3, h4, h5]

end

end Sys2Proof.Machine

namespace Sys2Proof.Claim
open Sys2Proof Sys2Proof.Machine

/-- Settles O14: the trap is that of `State.check`, which tests the five in order. -/
theorem failedChecksTrapInOrder : Obligations.FailedChecksTrapInOrder := by
  unfold Obligations.FailedChecksTrapInOrder
  intro s i hw
  exact ⟨fun h1 => exec_of_check_some hw (State.check_ill_formed h1),
    fun h1 h2 => exec_of_check_some hw (State.check_unallocated h1 h2),
    fun h1 h2 h3 => exec_of_check_some hw (State.check_level h1 h2 h3),
    fun h1 h2 h3 h4 => exec_of_check_some hw (State.check_operand h1 h2 h3 h4),
    fun n h1 h2 h3 h4 h5 => exec_of_check_some hw (State.check_unmarked h1 h2 h3 h4 h5)⟩

end Sys2Proof.Claim
end

section
/-!
PROOFS. Words of the encoding tables, decoded.
-/
namespace Sys2Proof.Claim
open Sys2Proof

/-- Settles O57: the decoder evaluated on each word. -/
theorem decodedWordsFollowTheTables : Obligations.DecodedWordsFollowTheTables :=
  ⟨rfl, rfl, rfl, rfl, rfl, rfl, rfl, rfl, rfl, rfl, rfl, rfl, rfl, rfl, rfl⟩

end Sys2Proof.Claim
end

section
/-!
PROOFS. The outcomes of a trap: what an agent's read depends on, the handler entered, the trap that waits, the kill with its report.
-/
namespace Sys2Proof.Machine
open Sys2Proof Claim

/-! ### What an agent's read depends on (spec/18 R274 to R277) -/

/-- Two states with the same memory, poison, links, fuses, devices and contexts: what an address leads to, and what is read there, depends
on nothing else. -/
structure SameReach (s t : State) : Prop where
  mem       : t.mem = s.mem
  poison    : t.poison = s.poison
  links     : t.links = s.links
  fuses     : t.fuses = s.fuses
  unpowered : t.unpowered = s.unpowered
  members   : t.members = s.members
  remotes   : t.remotes = s.remotes
  ctxs      : t.ctxs = s.ctxs

section
variable {s t : State} (h : SameReach s t)
include h

theorem SameReach.linkDown (a : Nat) : t.linkDown a = s.linkDown a := by simp only [State.linkDown, h.links]

theorem SameReach.poisoned (a : Nat) : t.poisoned a = s.poisoned a := by simp only [State.poisoned, h.poison, h.linkDown]

theorem SameReach.homeBytes (a n : Nat) : t.homeBytes a n = s.homeBytes a n := by
  induction n generalizing a with
  | zero => rfl
  | succ n ih => simp only [State.homeBytes, State.homeByte, h.poisoned, h.mem, ih]

theorem SameReach.readNat (a n : Nat) : t.readNat a n = s.readNat a n := by
  simp only [State.readNat, State.homeNat, h.mem, h.poison, h.linkDown, h.homeBytes]

theorem SameReach.walkTables (root va : Nat) : t.walkTables root va = s.walkTables root va := by
  have he : t.entry = s.entry := funext fun pa => h.readNat pa 64
  simp only [State.walkTables, he]

theorem SameReach.liveCtx? (ctx gen : Nat) : t.liveCtx? ctx gen = s.liveCtx? ctx gen := by simp only [State.liveCtx?, h.ctxs]

theorem SameReach.permit (l : Leaf) (k : Access) (va : Nat) : t.permit l k va = s.permit l k va := by
  have hd (pa : Nat) : t.isDevice pa = s.isDevice pa := by simp only [State.isDevice, h.fuses, h.unpowered]
  simp only [State.permit, hd, h.members, h.remotes]

theorem SameReach.agentKey (ctx gen : Nat) (k : Access) (va : W80) : t.agentKey ctx gen k va = s.agentKey ctx gen k va := by
  simp only [State.agentKey, h.liveCtx?, h.walkTables, h.permit]

theorem SameReach.agentRead (ctx gen : Nat) (va : W80) (n : Nat) : t.agentRead ctx gen va n = s.agentRead ctx gen va n := by
  simp only [State.agentRead, h.agentKey, h.readNat]

/-- The entry of a handler depends on the team's identity and trap base alone, beside what reads depend on. -/
theorem SameReach.trapEntry {u v : Team} (hid : v.id = u.id) (hb : v.ctl.trapbase = u.ctl.trapbase) (cls : Nat) :
    t.trapEntry v cls = s.trapEntry u cls := by
  simp only [State.trapEntry, Team.trapTable, hid, hb, h.agentRead]

end

theorem SameReach.updTeam (s : State) (tid : Nat) (f : Team → Team) : SameReach s (s.updTeam tid f) :=
  ⟨rfl, rfl, rfl, rfl, rfl, rfl, rfl, rfl⟩

/-! ### The team in issue by its identifier -/

@[simp] theorem State.team?_me (s : State) : s.team? s.me.id.tid = some s.me := by simp [State.team?, State.all]

/-- A change of the team in issue that keeps identifiers leaves every other team as it was. -/
theorem othersKept_updTeam (s : State) {f : Team → Team} (hf : ∀ t, (f t).id = t.id) : OthersKept s (s.updTeam s.me.id.tid f) where
  rest := rfl
  teams := by
    rw [State.updTeam_teams, List.filter_map]
    have hp : ((·.id.tid != s.me.id.tid) ∘ fun t : Team => if t.id.tid = s.me.id.tid then f t else t) =
        fun t => t.id.tid != s.me.id.tid := by
      funext t
      by_cases ht : t.id.tid = s.me.id.tid <;> simp [ht, hf]
    rw [hp]
    calc _ = (s.teams.filter (·.id.tid != s.me.id.tid)).map id :=
          List.map_congr_left fun t ht => by simp [bne_iff_ne.1 (List.mem_filter.1 ht).2]
      _ = _ := List.map_id _

/-! ### The five outcomes of a trap of the team in issue (spec/22 R318 to R320) -/

@[simp] theorem Team.enter_id (t : Team) (p : PendTrap) (entry : W64) : (t.enter p entry).id = t.id := rfl

section
variable {s : State} {p : PendTrap}

theorem State.raise_of_canEnter (h : CanEnter s p.info.cls) :
    s.raise s.me.id.tid p = s.updTeam s.me.id.tid fun u => u.enter p (s.trapEntry s.me p.info.cls) := by
  obtain ⟨hl, ht, he⟩ := h
  simp only [State.raise, State.team?_me, hl, ht, he, or_self, reduceCtorEq, if_false, not_true_eq_false]

theorem State.raise_of_not_trappable (hl : s.me.ctl.level ≠ .trap) (ht : s.me.trappable = false) :
    s.raise s.me.id.tid p = s.updTeam s.me.id.tid fun u =>
      u.updFlow fun f => { f with trapPend := some p, group := .none, fetched := false, park := none } := by
  simp [State.raise, hl, ht]

theorem State.raise_nested (hl : s.me.ctl.level = .trap) : s.raise s.me.id.tid p =
    (s.kill s.me.id.tid).report 8 0 s.me.core s.me.id.ctx s.me.id.gen (p.info.tcause.toNat % 2 ^ 32) p.info.addr.toNat := by
  simp [State.raise, hl]

theorem State.raise_unhandled (hl : s.me.ctl.level = .user) (ht : s.me.trappable = true)
    (he : s.trapEntry s.me p.info.cls = BitVec.allOnes 64) : s.raise s.me.id.tid p =
    (s.kill s.me.id.tid).report 7 0 s.me.core s.me.id.ctx s.me.id.gen (p.info.tcause.toNat % 2 ^ 32) p.info.addr.toNat := by
  simp only [State.raise, State.team?_me, hl, ht, he, or_true, reduceCtorEq, if_false, not_true_eq_false, if_true]

/-- TCAUSE of a fault, by its fields. -/
theorem FaultInfo.tcause_eq (f : FaultInfo) :
    f.tcause = BitVec.ofNat 64 (f.cls + f.detail * 2 ^ 8 + (if f.hostfail then 2 ^ 21 else 0)) := by
  cases h : f.hostfail <;> simp [FaultInfo.tcause, h]

/-- A trap of a team that can enter its handler enters it. -/
theorem State.raise_enters (h : CanEnter s p.info.cls) : Entered s (s.raise s.me.id.tid p) p := by
  rw [State.raise_of_canEnter h]
  have hme : (s.updTeam s.me.id.tid fun u => u.enter p (s.trapEntry s.me p.info.cls)).me = s.me.enter p (s.trapEntry s.me p.info.cls) := by
    simp
  exact {
    others := othersKept_updTeam s fun _ => rfl
    pc := by rw [hme]; exact ⟨rfl, rfl⟩
    level := by rw [hme]; rfl
    mask := by rw [hme]; exact ⟨rfl, rfl⟩
    aside := by rw [hme]; exact ⟨rfl, rfl⟩
    tcause := by rw [hme]; exact p.info.tcause_eq
    tpc := by rw [hme]; rfl
    taddr := by rw [hme]; rfl
    twords := by rw [hme]; rfl
    tbmask := by rw [hme]; rfl
    tlanem := by rw [hme]; rfl
    kept := by rw [hme]; exact ⟨rfl, rfl⟩
    regs := by rw [hme]; rfl
    ops := by rw [hme]; rfl
    self := by rw [hme]; exact ⟨rfl, rfl, rfl⟩ }

end

/-! ### A kill of the team in issue (spec/12 R201, spec/20 R307) -/

@[simp] theorem Team.apply_id (t : Team) (w : RegWrite) : (t.apply w).id = t.id := by cases w <;> rfl

theorem Team.foldl_apply_id (ws : List RegWrite) (t : Team) : (ws.foldl Team.apply t).id = t.id :=
  foldl_keeps (P := fun u : Team => u.id = t.id) (fun u w hu => (u.apply_id w).trans hu) ws rfl

@[simp] theorem Team.complete_id (t : Team) (id : Nat) : (t.complete id).id = t.id := by
  unfold Team.complete
  split
  · rfl
  · next o _ =>
    cases o.done
    · exact Team.foldl_apply_id o.writes t
    · rfl

@[simp] theorem Team.dropOp_id (t : Team) (id : Nat) : (t.dropOp id).id = t.id := Team.complete_id _ _

theorem Team.foldl_dropOp_id (ids : List Nat) (t : Team) : (ids.foldl Team.dropOp t).id = t.id :=
  foldl_keeps (P := fun u : Team => u.id = t.id) (fun u i hu => (u.dropOp_id i).trans hu) ids rfl

/-- The team in issue has ended, and the rings of the machine are those of an earlier state: what a kill of it comes to. -/
def EndedQuietly (s t : State) : Prop := t.me.flow.ended = true ∧ t.io = s.io

theorem State.acquireAll_kept (s : State) (ts : List Team) : (s.acquireAll ts).me = s.me ∧ (s.acquireAll ts).io = s.io := by
  refine foldl_keeps (P := fun t : State => t.me = s.me ∧ t.io = s.io) (fun t u ht => ?_) ts ⟨rfl, rfl⟩
  split
  · split
    · exact ht
    · exact ht
  · exact ht

theorem EndedQuietly.gangCheck {s t : State} (h : EndedQuietly s t) (g : Nat) : EndedQuietly s (t.gangCheck g) := by
  obtain ⟨he, hio⟩ := h
  obtain ⟨hm, hi⟩ := t.acquireAll_kept (t.gangLive g)
  simp only [State.gangCheck]
  split
  · refine ⟨?_, hi.trans hio⟩
    have hend : t.me.ended = true := by simp [Team.ended, he]
    simp [hm, hend, he]
  · exact ⟨he, hio⟩

/-- Once its pinned data is dropped, the end of the team in issue loses no sector. -/
theorem State.endTeam_dropPinnedOf (s : State) : EndedQuietly s ((s.dropPinnedOf s.me.id.tid).endTeam s.me.id.tid true) := by
  have hnone : ((s.dropPinnedOf s.me.id.tid).cancelWaits s.me.id.tid).pinnedOf s.me.id.tid = [] := by
    simp [State.pinnedOf, State.cancelWaits, State.dropPinnedOf]
  have hstop : EndedQuietly s ((((s.dropPinnedOf s.me.id.tid).cancelWaits s.me.id.tid).unbindRings s.me.id.tid).updTeam s.me.id.tid Team.stop) := by
    refine ⟨?_, rfl⟩
    simp [State.unbindRings, State.cancelWaits, State.dropPinnedOf, Team.foldl_dropOp_id, Team.stop]
  have hme : (s.dropPinnedOf s.me.id.tid).team? s.me.id.tid = some s.me := State.team?_me (s.dropPinnedOf s.me.id.tid)
  simp only [State.endTeam, if_true, hnone, List.foldl_nil, hme]
  split
  · exact hstop.gangCheck _
  · exact hstop

/-- A kill of the team in issue, of no handler pool, ends it and reports nothing. -/
theorem State.kill_me {s : State} (hp : s.me.id.pool = none) : EndedQuietly s (s.kill s.me.id.tid) := by
  simp only [State.kill, State.team?_me, hp]
  split
  · exact s.endTeam_dropPinnedOf
  · exact s.endTeam_dropPinnedOf

/-! ### One report written (spec/22 R327) -/

theorem State.logWrite_kept {s t : State} {bs : List Byte} (h : s.logWrite bs = some t) : t.me = s.me ∧ t.io.repSeq = s.io.repSeq := by
  unfold State.logWrite at h
  split at h
  · simp at h
  · obtain rfl := Option.some.inj h
    exact ⟨rfl, rfl⟩

theorem State.flushLogN_kept (n : Nat) (s : State) : (s.flushLogN n).me = s.me ∧ (s.flushLogN n).io.repSeq = s.io.repSeq := by
  induction n generalizing s with
  | zero => exact ⟨rfl, rfl⟩
  | succ n ih =>
    unfold State.flushLogN
    split
    · split
      · next h =>
        obtain ⟨hm, hr⟩ := State.logWrite_kept h
        exact ⟨(ih _).1.trans hm, (ih _).2.trans hr⟩
      · exact ⟨rfl, rfl⟩
    · exact ⟨rfl, rfl⟩

/-- A report changes nothing of the team in issue, and takes one number. -/
theorem State.report_kept (s : State) (kind unit index ctx gen detail addr : Nat) :
    (s.report kind unit index ctx gen detail addr).me = s.me ∧
      (s.report kind unit index ctx gen detail addr).io.repSeq = s.io.repSeq + 1 := by
  unfold State.report State.post
  split
  · exact State.flushLogN_kept _ _
  · exact ⟨rfl, rfl⟩

/-- With room and no log ring a report is held, last. -/
theorem State.report_held {s : State} (kind unit index ctx gen detail addr : Nat) (hl : s.io.logbase = 0) (hr : s.io.heldReports < 256) :
    (s.report kind unit index ctx gen detail addr).io.held =
      s.io.held ++ [.report { s.mkReport kind unit index ctx gen detail addr with seq := s.io.repSeq }] := by
  unfold State.report State.post
  rw [if_pos hr, State.flushLog_of_logbase_zero (by exact hl)]

/-- A kill of the team in issue, of no handler pool, with its report. -/
theorem State.kill_report {s : State} (hp : s.me.id.pool = none) (kind unit index detail addr : Nat) :
    ((s.kill s.me.id.tid).report kind unit index s.me.id.ctx s.me.id.gen detail addr).me.flow.ended = true ∧
      ((s.kill s.me.id.tid).report kind unit index s.me.id.ctx s.me.id.gen detail addr).io.repSeq = s.io.repSeq + 1 ∧
      Reported s ((s.kill s.me.id.tid).report kind unit index s.me.id.ctx s.me.id.gen detail addr) kind detail := by
  obtain ⟨he, hio⟩ := State.kill_me hp
  obtain ⟨hm, hr⟩ := (s.kill s.me.id.tid).report_kept kind unit index s.me.id.ctx s.me.id.gen detail addr
  refine ⟨by rw [hm, he], by rw [hr, hio], fun hl hroom => ?_⟩
  have hheld := (s.kill s.me.id.tid).report_held kind unit index s.me.id.ctx s.me.id.gen detail addr (by rw [hio, hl]) (by rw [hio]; exact hroom)
  rw [hio] at hheld
  exact ⟨_, hheld, rfl, rfl, rfl⟩

/-- The low 32 bits of TCAUSE are what reports carry. -/
theorem FaultInfo.tcause_low (f : FaultInfo) : f.tcause.toNat % 2 ^ 32 = cause32 f := by
  rw [FaultInfo.tcause_eq, BitVec.toNat_ofNat, cause32]
  exact Nat.mod_mod_of_dvd _ (by decide)

/-! ### TRAP_ENTRY (spec/02 R39) -/

theorem exec_trapEntry_of_not_trappable {s : State} (h : s.me.trappable = false) : exec (.trapEntry s.me.id.tid) s = .next s := by
  change execTrapEntry s.me.id.tid s = .next s
  simp only [execTrapEntry, State.team?_me, h]
  split <;> simp

/-- A team without the trap that it waited to take, as TRAP_ENTRY raises it. -/
def Team.forgetTrap (t : Team) : Team := t.updFlow fun f => { f with trapPend := none }

/-- A trap that waited is raised once the team is trappable. -/
theorem exec_trapEntry_of_trappable {s : State} {p : PendTrap} (hp : s.me.flow.trapPend = some p) (hpl : s.me.placed = true)
    (he : s.me.ended = false) (ht : s.me.trappable = true) :
    exec (.trapEntry s.me.id.tid) s = .next ((s.updTeam s.me.id.tid Team.forgetTrap).raise s.me.id.tid p) := by
  change execTrapEntry s.me.id.tid s = _
  simp only [execTrapEntry, State.team?_me, hp, hpl, he, ht, Bool.false_eq_true, not_false_eq_true, and_self, if_true]
  rfl

/-- A handler entered forgets the trap that waited. -/
theorem updTeam_enter_of_forgetTrap (s : State) (p : PendTrap) (entry : W64) :
    (s.updTeam s.me.id.tid Team.forgetTrap).updTeam s.me.id.tid (·.enter p entry) = s.updTeam s.me.id.tid (·.enter p entry) := by
  have hteam (u : Team) : u.forgetTrap.enter p entry = u.enter p entry := rfl
  have hid (u : Team) : u.forgetTrap.id = u.id := rfl
  simp only [State.updTeam, hid, if_true, hteam, List.map_map]
  congr 1
  refine List.map_congr_left fun t _ => ?_
  by_cases ht : t.id.tid = s.me.id.tid <;> simp [ht, hid, hteam]

/-- TRAP_ENTRY takes the trap that waited into its handler. -/
theorem exec_trapEntry_enters {s : State} {p : PendTrap} (hp : s.me.flow.trapPend = some p) (hpl : s.me.placed = true)
    (he : s.me.ended = false) (h : CanEnter s p.info.cls) : exec (.trapEntry s.me.id.tid) s = .next (s.raise s.me.id.tid p) := by
  obtain ⟨hl, ht, hentry⟩ := h
  have hme : (s.updTeam s.me.id.tid Team.forgetTrap).me = s.me.forgetTrap := by simp
  have hsame (cls : Nat) := (SameReach.updTeam s s.me.id.tid Team.forgetTrap).trapEntry (u := s.me) (v := s.me.forgetTrap) rfl rfl cls
  have hcan : CanEnter (s.updTeam s.me.id.tid Team.forgetTrap) p.info.cls := by
    unfold CanEnter
    rw [hme, hsame]
    exact ⟨hl, ht, hentry⟩
  have hraise := State.raise_of_canEnter hcan
  rw [hme, hsame] at hraise
  rw [exec_trapEntry_of_trappable hp hpl he ht, State.raise_of_canEnter ⟨hl, ht, hentry⟩, ← updTeam_enter_of_forgetTrap]
  exact congrArg Host.Outcome.next hraise

end Sys2Proof.Machine

namespace Sys2Proof.Claim
open Sys2Proof Sys2Proof.Machine

/-- Settles O17: TRAP_ENTRY leaves or raises the trap that waits; a trap with no handler to enter is a kill and one report. -/
theorem waitingNestedAndUnhandledTraps : Obligations.WaitingNestedAndUnhandledTraps := by
  unfold Obligations.WaitingNestedAndUnhandledTraps
  refine ⟨fun s p hl => ⟨fun ht => ?_, fun _ ht => exec_trapEntry_of_not_trappable ht, fun hp hpl he hcan => ?_⟩,
    fun s p hpool => ⟨fun hl => ?_, fun hl ht he => ?_⟩⟩
  · rw [State.raise_of_not_trappable hl ht]
    exact ⟨by simp, by simp, by simp, othersKept_updTeam s fun _ => rfl⟩
  · refine ⟨_, exec_trapEntry_enters hp hpl he hcan, State.raise_enters hcan, ?_⟩
    rw [State.raise_of_canEnter hcan, State.updTeam_me, if_pos rfl]
    rfl
  · rw [State.raise_nested hl, FaultInfo.tcause_low]
    exact State.kill_report hpool ..
  · rw [State.raise_unhandled hl ht he, FaultInfo.tcause_low]
    exact State.kill_report hpool ..

end Sys2Proof.Claim
end

section
/-!
PROOFS. Steps: what a fetch leaves unchanged, the turn, the word at the team's position, a new group.
-/
namespace Sys2Proof.Machine
open Sys2Proof Claim

/-! ### What a fetch leaves unchanged (spec/02 R27, R28; spec/18 R282) -/

/-- A fetch may change the cached translations, the instruction caches and the count of free values, and nothing else. -/
def FetchKept (s t : State) : Prop :=
  ∃ tlb dtlb icache fresh, t = { s with tlb := tlb, dtlb := dtlb, icache := icache, fresh := fresh }

theorem FetchKept.refl (s : State) : FetchKept s s := ⟨_, _, _, _, rfl⟩

theorem FetchKept.trans {s t u : State} (h : FetchKept s t) (h' : FetchKept t u) : FetchKept s u := by
  obtain ⟨_, _, _, _, rfl⟩ := h
  obtain ⟨_, _, _, _, rfl⟩ := h'
  exact ⟨_, _, _, _, rfl⟩

theorem State.draw_fetchKept (s : State) : FetchKept s s.draw.2 := ⟨_, _, _, _, rfl⟩

theorem State.dropLeaf_fetchKept (s : State) (cl ctx gen va : Nat) : FetchKept s (s.dropLeaf cl ctx gen va) := ⟨_, _, _, _, rfl⟩

theorem State.cacheLeaf_fetchKept (s : State) (cl ctx gen va : Nat) (l : Leaf) (walked : Bool) :
    FetchKept s (s.cacheLeaf cl ctx gen va l walked) := by
  simp only [State.cacheLeaf]
  split
  · exact s.draw_fetchKept.trans ⟨_, _, _, _, rfl⟩
  · exact ⟨_, _, _, _, rfl⟩

theorem State.lookup_fetchKept (s : State) (cl ctx gen va : Nat) : FetchKept s (s.lookup cl ctx gen va).2 := by
  simp only [State.lookup]
  split
  · exact .refl s
  · split
    · split
      · exact s.cacheLeaf_fetchKept ..
      · exact .refl s
    · split_ifs
      · exact .refl s
      · exact s.cacheLeaf_fetchKept ..
      · exact s.draw_fetchKept
      · exact s.draw_fetchKept.trans (s.draw.2.cacheLeaf_fetchKept ..)
      · have hdrop := s.draw_fetchKept.trans (s.draw.2.dropLeaf_fetchKept cl ctx gen va)
        split
        · exact hdrop.trans ((s.draw.2.dropLeaf cl ctx gen va).cacheLeaf_fetchKept ..)
        · exact hdrop

theorem State.translate_fetchKept (s : State) (cl ctx gen : Nat) (k : Access) (va : Nat) : FetchKept s (s.translate cl ctx gen k va).2 := by
  have h := s.lookup_fetchKept cl ctx gen va
  unfold State.translate
  generalize s.lookup cl ctx gen va = x at h ⊢
  obtain ⟨r, s1⟩ := x
  cases r <;> exact h

theorem State.teamReach_fetchKept (s : State) (t : Team) (k : Access) (va : W80) (n : Nat) : FetchKept s (s.teamReach t k va n).2 := by
  unfold State.teamReach
  split
  · exact .refl s
  · unfold State.reach
    split
    · split
      · exact .refl s
      · split
        · exact .refl s
        · exact .refl s
    · exact s.translate_fetchKept ..

theorem State.fetchKeys_fetchKept (ps : List (Nat × Nat)) (s : State) : FetchKept s (s.fetchKeys ps).2 := by
  induction ps generalizing s with
  | nil => exact .refl s
  | cons x ps ih =>
    have h := s.teamReach_fetchKept s.me .fetch (BitVec.ofNat 80 x.1) x.2
    unfold State.fetchKeys
    generalize s.teamReach s.me .fetch (BitVec.ofNat 80 x.1) x.2 = y at h ⊢
    obtain ⟨r, s1⟩ := y
    cases r with
    | ok key =>
      have h2 := h.trans (ih s1)
      simp only
      generalize s1.fetchKeys ps = z at h2 ⊢
      obtain ⟨ks, s2⟩ := z
      cases ks <;> exact h2
    | host | fault => exact h

theorem State.fetchWord_fetchKept (s : State) (va key : Nat) : FetchKept s (s.fetchWord va key).2 := by
  simp only [State.fetchWord]
  split_ifs
  · exact .refl s
  · exact ⟨_, _, _, _, rfl⟩
  · exact s.draw_fetchKept.trans ⟨_, _, _, _, rfl⟩

theorem State.fetchWords_fetchKept (ks : List (Nat × Nat)) (s : State) : FetchKept s (s.fetchWords ks).2 := by
  induction ks generalizing s with
  | nil => exact .refl s
  | cons k ks ih => exact (s.fetchWord_fetchKept k.1 k.2).trans (ih _)

/-! ### Steps and turns (log 1) -/

theorem step_of_turn_run {s t : State} {i : Instr} (h : s.turn = (t, .run i)) : step s = exec i t := by simp only [step, h]

theorem step_of_turn_done {s t : State} (h : s.turn = (t, .done)) : step s = .next t := by simp only [step, h]

theorem State.go_of_word {s t : State} {i : Instr} (h : s.nextWord = (t, some i)) : s.go = (t, .run i) := by simp only [State.go, h]

theorem State.go_of_none {s t : State} (h : s.nextWord = (t, none)) : s.go = (t, .done) := by simp only [State.go, h]

/-- A team that can go on with its group has the turn, whatever the agenda names. -/
theorem State.turn_of_resumes {s : State} (h : s.me.resumes = true) (he : s.eligible s.me = true) : s.turn = s.go := by
  simp only [State.turn, h, he, and_self, if_true]

theorem Team.open_of_resumes {t : Team} (h : t.resumes = true) : t.flow.group.open_ = true := by
  simp only [Team.resumes, Bool.and_eq_true] at h
  exact h.1.1.1

theorem Team.resumes_of_not_open {t : Team} (h : t.flow.group.open_ = false) : t.resumes = false := by simp [Team.resumes, h]

/-- The turn that the agenda names of the team in issue, where its scheduler would issue it and it is in no group. -/
theorem State.turn_of_pick {s : State} {rest : List Turn} (ht : s.agenda = .pick s.me.id.tid :: rest)
    (hc : (s.pickOn s.me.core s.me.sched).map (·.id.tid) = some s.me.id.tid) (ho : s.me.flow.group.open_ = false) :
    s.turn = ({ s with agenda := rest } : State).go := by
  have hfind : s.all.find? (fun t => t.id.tid == s.me.id.tid) = some s.me := s.team?_me
  have hsel : ({ s with agenda := rest } : State).select s.me.id.tid = { s with agenda := rest } := if_pos rfl
  simp only [State.turn, Team.resumes_of_not_open ho, Bool.false_eq_true, false_and, if_false, ht, hfind, hc, if_true, hsel]

/-- The turn of an event that the agenda names. -/
theorem State.turn_of_event {s : State} {rest : List Turn} {dt : Nat} {i : Instr} (hr : s.me.resumes = false ∨ s.eligible s.me = false)
    (ha : s.agenda = .event dt i :: rest) :
    s.turn = if hasWord i then (s, .bad) else (({ s with agenda := rest } : State).pass dt, .run i) := by
  have hn : ¬ (s.me.resumes = true ∧ s.eligible s.me = true) := by
    rintro ⟨h1, h2⟩
    rcases hr with h | h
    · simp [h1] at h
    · simp [h2] at h
  simp only [State.turn, hn, if_false, ha]

/-! ### The word at the team's position -/

theorem State.wordHere_ok {s : State} {sl : Slot} (h : decode (packetWord s.me.flow.packet s.me.ctl.word) = .ok sl) :
    s.wordHere = (withWord s sl, some sl.instr) := by
  simp only [State.wordHere, h]
  rfl

theorem State.wordHere_error {s : State} {e : Reject} (h : decode (packetWord s.me.flow.packet s.me.ctl.word) = .error e) :
    s.wordHere = (s.trapHere (illegal e.detail), none) := by
  simp only [State.wordHere, h]

/-! ### A new group -/

theorem Team.deferred_none {t : Team} (h : ∀ x, t.flow.pinned = some x → x.taken = true) : t.deferred = none := by
  unfold Team.deferred
  split
  · next x hx => simp [h x hx]
  · rfl

/-- A fetch that reads its words, none of them poisoned, goes on with the packet. -/
theorem State.fetchThen_of_words {s u b : State} {ks : List (Nat × Nat)} {n : Nat} (k : State → State × Option Instr)
    (hpc : s.me.ctl.pc.toNat < 2 ^ 62) (hk : s.fetchKeys (pages 2 (packetVa s.me.ctl.pc).toNat 12) = (.ok ks, u))
    (hpo : ∀ x ∈ ks, u.poisoned x.2 = false) (hw : u.fetchWords ks = (n, b)) :
    s.fetchThen k = k (b.setMe fun t => t.updFlow fun f => { f with packet := BitVec.ofNat 96 n }) := by
  have hfind : (ks.find? fun x => u.poisoned x.2) = none := List.find?_eq_none.2 fun x hx => by simp [hpo x hx]
  simp only [State.fetchThen, Nat.not_le.2 hpc, if_false, hk, hw, hfind]

theorem State.fetch_fetchKept {s u b : State} {ps ks : List (Nat × Nat)} {n : Nat} (hk : s.fetchKeys ps = (.ok ks, u))
    (hw : u.fetchWords ks = (n, b)) : FetchKept s b := by
  have h1 := s.fetchKeys_fetchKept ps
  have h2 := u.fetchWords_fetchKept ks
  rw [hk] at h1
  rw [hw] at h2
  exact h1.trans h2

/-- The group of a team that has still to begin it is taken only where its gate is open. -/
theorem State.takes_false {s : State} (ho : s.me.flow.group.open_ = false) (hf : s.me.flow.fetched = true)
    (h : s.me.groupWaits = true ∨ s.gateOpen s.me = false) : s.takes s.me = false := by
  have hr := Team.resumes_of_not_open ho
  rcases h with h | h
  · simp [State.takes, State.choosable, State.eligible, hr, h]
  · simp [State.takes, State.choosable, hr, hf, h]

/-- The checks of a group that fail trap at their word. -/
theorem State.groupHere_of_bad {s : State} {d : Detail} {w : Nat} (h : groupCheck s.me.flow.packet s.me.ctl.word = some (d, w)) :
    s.groupHere = (s.raise s.me.id.tid ⟨illegal d, s.me.ctl.pc, w, 0, false⟩, none) := by
  simp only [State.groupHere, h]

/-- A group that passes its checks is tried, its packet noted as checked. -/
theorem State.groupHere_of_good {s : State} (h : groupCheck s.me.flow.packet s.me.ctl.word = none) :
    s.groupHere = (withPacket s s.me.flow.packet true).tryGroup := by
  simp only [State.groupHere, h]
  rfl

/-- A group that its gate or its scheduler holds stays where it is. -/
theorem State.tryGroup_held {s : State} (ht : s.takes s.me = false)
    (h : s.me.groupWaits = true ∨ s.gateOpen s.me = false ∨ s.tbwaitOn = none) : s.tryGroup = (s, none) := by
  have hw : (if s.gateOpen s.me ∧ ¬ s.me.groupWaits then s.tbwaitOn else none) = none := by
    rcases h with h | h | h <;> simp [h]
  simp only [State.tryGroup, hw, ht, Bool.false_eq_true, if_false]

theorem State.tryGroup_taken {s : State} (ht : s.takes s.me = true) (h : s.tbwaitOn = none) : s.tryGroup = s.beginGroup := by
  simp only [State.tryGroup, h, ite_self, ht, if_true]

/-- The registers that the group of the team in issue reconstructs before its first word. -/
def State.groupRebuilds (s : State) : List VReg := s.me.rebuilds (s.checked s.me.groupWords)

/-- The state in which the group of the team in issue has begun, before its first reconstruction or word. -/
def State.withGroup (s : State) : State :=
  ((s.noteIssue s.me).updCore s.me.core (·.issue s.me (s.coreCyc s.me.core))).setMe fun t =>
    { t with
      sch := ⟨s.coreCyc s.me.core, 0, none, none⟩
      flow := { t.flow with
        group := ⟨if 1 < s.me.groupWords.length then some s.view else none, false, true⟩, sw := false, rebuild := s.groupRebuilds } }

theorem State.beginGroup_eq (s : State) :
    s.beginGroup = if s.groupRebuilds = [] then s.withGroup.wordHere else (s.withGroup.sendRebuild s.withGroup.me.id.tid, none) := rfl

/-- A group that begins is noted with its team, its queue and its core, and nowhere else. -/
theorem State.withGroup_eq (s : State) : ∃ sch view queues cores, s.withGroup = { s with
    me := { s.me with sch := sch, flow := { s.me.flow with group := ⟨view, false, true⟩, sw := false, rebuild := s.groupRebuilds } }
    queues := queues
    cores := cores } := by
  unfold State.withGroup State.noteIssue
  split <;> exact ⟨_, _, _, _, rfl⟩

/-- A request to the transform pipe changes the cores alone. -/
theorem State.sendRebuild_eq (s : State) (tid : Nat) : ∃ cores, s.sendRebuild tid = { s with cores := cores } := by
  unfold State.sendRebuild
  split
  · split <;> exact ⟨_, rfl⟩
  · exact ⟨_, rfl⟩

/-- Whether a team can enter a handler is the same after its packet is noted as checked and its group has begun. -/
theorem State.withGroup_canEnter {f : State} {p : BitVec 96} {b : Bool} {cls : Nat} (h : CanEnter f cls) :
    CanEnter (withPacket f p b).withGroup cls ∧ (withPacket f p b).withGroup.trapEntry (withPacket f p b).withGroup.me cls = f.trapEntry f.me cls := by
  obtain ⟨hl, ht, he⟩ := h
  obtain ⟨_, _, _, _, hb⟩ := (withPacket f p b).withGroup_eq
  have hreach : SameReach f (withPacket f p b).withGroup := by
    rw [hb]
    exact ⟨rfl, rfl, rfl, rfl, rfl, rfl, rfl, rfl⟩
  have hentry := hreach.trapEntry (u := f.me) (v := (withPacket f p b).withGroup.me) (by rw [hb]; rfl) (by rw [hb]; rfl) cls
  have hl' : (withPacket f p b).withGroup.me.ctl.level = f.me.ctl.level := by rw [hb]; rfl
  have ht' : (withPacket f p b).withGroup.me.trappable = f.me.trappable := by rw [hb]; rfl
  exact ⟨⟨hl'.trans hl, ht'.trans ht, hentry ▸ he⟩, hentry⟩

end Sys2Proof.Machine

namespace Sys2Proof.Claim
open Sys2Proof Sys2Proof.Machine

section
variable {s f : State} {rest : List Turn} {p : BitVec 96} (h : Fetches s rest p f)
include h

/-- Beside the packet in it, the state after a fetch differs in caches and free values alone. -/
theorem Fetches.fetchKept : FetchKept (withPacket { s with agenda := rest } p false) f := by
  obtain ⟨ks, u, b, n, hk, -, hw, -, rfl⟩ := h.words
  obtain ⟨_, _, _, _, rfl⟩ := State.fetch_fetchKept hk hw
  exact ⟨_, _, _, _, rfl⟩

theorem Fetches.nextWord : ({ s with agenda := rest } : State).nextWord = f.groupHere := by
  obtain ⟨ks, u, b, n, hk, hpo, hw, rfl, rfl⟩ := h.words
  obtain ⟨ho, hfe⟩ := h.group
  obtain ⟨hp, hd, hpc⟩ := h.calm
  have hset : (b.setMe fun t => t.updFlow fun f => { f with packet := BitVec.ofNat 96 n }) = withPacket b (BitVec.ofNat 96 n) false := by
    obtain ⟨_, _, _, _, rfl⟩ := State.fetch_fetchKept hk hw
    simp [withPacket, State.setMe, Team.updFlow, hfe]
  simp only [State.nextWord, ho, Team.deferred_none hd, hfe, hp, Bool.false_eq_true, if_false]
  rw [State.fetchThen_of_words (s := { s with agenda := rest }) _ hpc hk hpo hw, hset]

theorem Fetches.step_of_none {t : State} (hg : f.groupHere = (t, none)) : step s = .next t :=
  step_of_turn_done ((State.turn_of_pick h.turn h.chosen h.group.1).trans (State.go_of_none (h.nextWord.trans hg)))

theorem Fetches.step_of_word {t : State} {i : Instr} (hg : f.groupHere = (t, some i)) : step s = exec i t :=
  step_of_turn_run ((State.turn_of_pick h.turn h.chosen h.group.1).trans (State.go_of_word (h.nextWord.trans hg)))

/-- The group checks see the packet fetched, at the position of the team. -/
theorem Fetches.packet_word : f.me.flow.packet = p ∧ f.me.ctl.word = s.me.ctl.word := by
  obtain ⟨_, _, _, _, rfl⟩ := h.fetchKept
  exact ⟨rfl, rfl⟩

/-- A group check that fails takes its trap, with nothing of the group run. -/
theorem Fetches.step_bad {d : Detail} {w : Nat} (hb : groupCheck p s.me.ctl.word = some (d, w)) (hcan : CanEnter f 0) :
    ∃ t, step s = .next t ∧ Entered f t ⟨⟨0, d.code, 0, false, 0⟩, s.me.ctl.pc, w, 0, false⟩ := by
  obtain ⟨hp, hw⟩ := h.packet_word
  refine ⟨_, h.step_of_none (State.groupHere_of_bad (by rw [hp, hw]; exact hb)), ?_⟩
  have hpc : f.me.ctl.pc = s.me.ctl.pc := by
    obtain ⟨_, _, _, _, rfl⟩ := h.fetchKept
    rfl
  rw [hpc]
  exact State.raise_enters (p := ⟨illegal d, s.me.ctl.pc, w, 0, false⟩) hcan

section
variable (hb : groupCheck p s.me.ctl.word = none)
include hb

theorem Fetches.groupHere_good : f.groupHere = (withPacket f p true).tryGroup := by
  obtain ⟨hp, hw⟩ := h.packet_word
  have hgood := State.groupHere_of_good (s := f) (by rw [hp, hw]; exact hb)
  rwa [hp] at hgood

/-- A group that is held stays at its position. -/
theorem Fetches.step_held {g : State} (hg : g = withPacket f p true)
    (hh : g.me.groupWaits = true ∨ g.gateOpen g.me = false ∨ g.tbwaitOn = none ∧ g.takes g.me = false) : step s = .next g := by
  subst hg
  refine h.step_of_none ((h.groupHere_good hb).trans ?_)
  have ho : (withPacket f p true).me.flow.group.open_ = false := by
    obtain ⟨_, _, _, _, rfl⟩ := h.fetchKept
    exact h.group.1
  rcases hh with hw | hgate | ⟨htb, ht⟩
  · exact State.tryGroup_held (State.takes_false ho rfl (.inl hw)) (.inl hw)
  · exact State.tryGroup_held (State.takes_false ho rfl (.inr hgate)) (.inr (.inl hgate))
  · exact State.tryGroup_held ht (.inr (.inr htb))

variable (htb : (withPacket f p true).tbwaitOn = none) (ht : (withPacket f p true).takes (withPacket f p true).me = true)
include htb ht

theorem Fetches.groupHere_begins : f.groupHere = (withPacket f p true).beginGroup :=
  (h.groupHere_good hb).trans (State.tryGroup_taken ht htb)

/-- A group with registers to reconstruct sends the first to the transform pipe. -/
theorem Fetches.step_rebuilds {r : VReg} {rs : List VReg} (hr : (withPacket f p true).groupRebuilds = r :: rs) :
    ∃ t, step s = .next t ∧ t.me.flow.rebuild = r :: rs ∧
      t.me.flow.group.open_ = true ∧ t.me.ctl = s.me.ctl ∧ t.me.regs = s.me.regs ∧ t.mem = s.mem := by
  have hbegin := h.groupHere_begins hb htb ht
  rw [State.beginGroup_eq, if_neg (by simp [hr])] at hbegin
  refine ⟨_, h.step_of_none hbegin, ?_⟩
  obtain ⟨_, hsend⟩ := (withPacket f p true).withGroup.sendRebuild_eq (withPacket f p true).withGroup.me.id.tid
  obtain ⟨_, _, _, _, hgroup⟩ := (withPacket f p true).withGroup_eq
  rw [hsend, hgroup]
  obtain ⟨_, _, _, _, rfl⟩ := h.fetchKept
  exact ⟨hr, rfl, rfl, rfl, rfl⟩

variable (hr : (withPacket f p true).groupRebuilds = [])
include hr

theorem Fetches.groupHere_word : f.groupHere = (withPacket f p true).withGroup.wordHere := by
  rw [h.groupHere_begins hb htb ht, State.beginGroup_eq, if_pos hr]

/-- The first word of a group that begins runs. -/
theorem Fetches.step_word {sl : Slot} (hd : decode (packetWord p s.me.ctl.word) = .ok sl) :
    ∃ t, step s = exec sl.instr t ∧ t.me.ctl = s.me.ctl ∧ t.me.id = s.me.id ∧
      t.me.place = s.me.place ∧ t.me.regs = s.me.regs ∧ t.me.flow.packet = p ∧ t.me.flow.cur = ⟨sl.chain, sl.switch⟩ ∧
      t.me.flow.ops = s.me.flow.ops ∧ t.me.flow.group.open_ = true ∧ t.dirty = s.dirty ∧ t.mem = s.mem ∧ t.now = s.now ∧
      t.agenda = rest := by
  have hword := h.groupHere_word hb htb ht hr
  obtain ⟨_, _, _, _, hgroup⟩ := (withPacket f p true).withGroup_eq
  obtain ⟨_, _, _, _, hf⟩ := h.fetchKept
  rw [State.wordHere_ok (sl := sl) (by rw [hgroup, hf]; exact hd)] at hword
  refine ⟨_, h.step_of_word hword, ?_⟩
  rw [hgroup, hf]
  exact ⟨rfl, rfl, rfl, rfl, rfl, rfl, rfl, rfl, rfl, rfl, rfl, rfl⟩

/-- The first word of a group that begins takes its trap if it does not decode. -/
theorem Fetches.step_bad_word {e : Reject} (hd : decode (packetWord p s.me.ctl.word) = .error e) (hcan : CanEnter f 0) :
    ∃ t, step s = .next t ∧ t.me.ctl.level = .trap ∧
      t.me.ctl.pc = f.trapEntry s.me 0 ∧ t.me.ctl.trap.tcause = BitVec.ofNat 64 (e.detail.code * 2 ^ 8) ∧
      t.me.ctl.trap.tpc = s.me.ctl.pc <<< 2 ||| BitVec.ofNat 64 s.me.ctl.word ∧ t.me.ctl.trap.twords = p ∧
      t.me.regs = s.me.regs ∧ t.mem = s.mem := by
  have hword := h.groupHere_word hb htb ht hr
  obtain ⟨hcan', hentry⟩ := State.withGroup_canEnter (p := p) (b := true) hcan
  have henter := State.raise_enters
    (p := ⟨illegal e.detail, (withPacket f p true).withGroup.me.ctl.pc, (withPacket f p true).withGroup.me.ctl.word, 0, false⟩) hcan'
  obtain ⟨_, _, _, _, hgroup⟩ := (withPacket f p true).withGroup_eq
  obtain ⟨_, _, _, _, hf⟩ := h.fetchKept
  rw [State.wordHere_error (e := e) (by rw [hgroup, hf]; exact hd)] at hword
  refine ⟨_, h.step_of_none hword, henter.level, henter.pc.1.trans (hentry.trans ?_), ?_, ?_, ?_, ?_, ?_⟩
  · exact SameReach.trapEntry ⟨rfl, rfl, rfl, rfl, rfl, rfl, rfl, rfl⟩ (by rw [hf]; rfl) (by rw [hf]; rfl) 0
  · refine henter.tcause.trans ?_
    simp [illegal]
  · refine henter.tpc.trans ?_
    rw [hgroup, hf]
    rfl
  · refine henter.twords.trans ?_
    rw [hgroup, hf]
    rfl
  · refine henter.regs.trans ?_
    rw [hgroup, hf]
    rfl
  · refine (congrArg State.mem henter.others.rest).trans ?_
    rw [hgroup, hf]
    rfl

end

end

/-- Settles O58: the turn of a step comes to the word at the team's position, to the checks of a new group, or to the agenda's event. -/
theorem stepRunsTheDecodedWord : Obligations.StepRunsTheDecodedWord := by
  unfold Obligations.StepRunsTheDecodedWord
  refine ⟨fun s hr he => ?_, fun s f rest p h => ⟨fun d w hb hcan => h.step_bad hb hcan, fun g hb hg => ⟨h.step_held hb hg, ?_⟩⟩,
    fun s rest dt i hr ha => ?_⟩
  · have hgo : s.turn = s.go := State.turn_of_resumes hr he
    have hword : s.nextWord = s.wordHere := by simp only [State.nextWord, Team.open_of_resumes hr, if_true]
    refine ⟨fun sl hd => ?_, fun e hd hcan => ⟨_, ?_, State.raise_enters hcan⟩⟩
    · exact step_of_turn_run (hgo.trans (State.go_of_word (hword.trans (State.wordHere_ok hd))))
    · exact step_of_turn_done (hgo.trans (State.go_of_none (hword.trans (State.wordHere_error hd))))
  · subst hg
    exact fun _ _ htb ht => ⟨fun r rs hr => h.step_rebuilds hb htb ht hr,
      fun hr => ⟨fun sl hd => h.step_word hb htb ht hr hd, fun e hd hcan => h.step_bad_word hb htb ht hr hd hcan⟩⟩
  · have hturn := State.turn_of_event hr ha
    refine ⟨fun hw => ?_, fun hw => ?_⟩
    · exact step_of_turn_run (hturn.trans (by simp [hw]))
    · simp only [step, hturn, hw, if_true]

end Sys2Proof.Claim
end

section
/-!
PROOFS. Shared laws of the words that pass their checks: what a word that goes on leaves, and the integer operations by their numbers.
-/
namespace Sys2Proof.Machine
open Sys2Proof Claim

/-! ### Words that reconstruct nothing -/

theorem Instr.vReads_eq_nil {i : Instr} (h : ∀ r : VReg, i.reads.contains (.v r.val) = false) : i.vReads = [] := by
  simp only [Instr.vReads, h, List.filter_false]

/-- A word that passes its checks and reconstructs nothing has its effect on the state as it stands. -/
theorem run_of_prepare_eq {i : Instr} {s : State} (body : State → State) (h : Passes s i) (hp : s.me.prepare i = s.me) :
    run i s body = .next (body s) := by
  rw [run_of_check_none body h, State.setMe, hp]

theorem run_of_vReads_nil {i : Instr} {s : State} (body : State → State) (h : Passes s i) (hv : ∀ r : VReg, i.reads.contains (.v r.val) = false) :
    run i s body = .next (body s) :=
  run_of_prepare_eq body h (s.me.prepare_of_vReads_nil (Instr.vReads_eq_nil hv))

end Sys2Proof.Machine

namespace Sys2Proof.Claim
open Sys2Proof Sys2Proof.Machine

/-! ### Registers kept -/

theorem RegsKept.refl (u : Team) (ws : List Reg) : RegsKept u u ws :=
  ⟨fun _ _ => ⟨rfl, rfl⟩, fun _ _ => rfl, fun _ _ => rfl, fun _ _ => rfl, fun _ _ => rfl, fun _ => rfl, rfl, rfl⟩

theorem RegsKept.of_regs {u v w : Team} {ws : List Reg} (h : RegsKept u v ws) (he : w.regs = v.regs) : RegsKept u w ws := by
  obtain ⟨hv, hs, ha, hp, ht, hh, hpend⟩ := h
  refine ⟨?_, ?_, ?_, ?_, ?_, ?_, ?_⟩ <;> simpa only [Team.v, Team.tag, Team.s, Team.a, Team.p, Team.t, Team.h, he] using by assumption

theorem RegsKept.setS (u : Team) (d : SReg) (x : W64) : RegsKept u (u.setS d x) [.s d.val] :=
  { RegsKept.refl u [.s d.val] with
    onS := fun r hr => u.setS_s_ne x fun e => hr (by simp [e]) }

theorem RegsKept.setA (u : Team) (d : AReg) (x : W80) : RegsKept u (u.setA d x) [.a d.val] :=
  { RegsKept.refl u [.a d.val] with
    onA := fun r hr => u.setA_a_ne x fun e => hr (by simp [e]) }

theorem RegsKept.setTag (u : Team) (d : VReg) (x : BitVec 4) : RegsKept u (u.setTag d x) [.v d.val] :=
  { RegsKept.refl u [.v d.val] with
    onV := fun r hr => ⟨rfl, u.setTag_tag_ne x fun e => hr (by simp [e])⟩ }

theorem RegsKept.writeV (u : Team) (d : VReg) (m : Mask) (ys : List W32) (x : BitVec 4) : RegsKept u (u.writeV d m ys x) [.v d.val] := by
  unfold Team.writeV
  split
  · exact RegsKept.refl u _
  · exact { RegsKept.refl u [.v d.val] with
      onV := fun r hr =>
        have hne : d ≠ r := fun e => hr (by simp [e])
        ⟨u.setV_v_ne _ hne, (u.setV d _).setTag_tag_ne x hne⟩ }

/-- A predicate written leaves every register but itself. -/
theorem RegsKept.setP {u v : Team} {ws : List Reg} (h : RegsKept u v ws) {d : PReg} (hd : .p d.val ∈ ws) (m x : Mask) :
    RegsKept u (v.setP d m x) ws := by
  have hp (r : PReg) (hr : .p r.val ∉ ws) : (v.setP d m x).p r = u.p r := by
    rw [v.setP_p_ne m x fun (e : d = r) => hr (e ▸ hd), h.onP r hr]
  unfold Team.setP at hp ⊢
  split
  · exact h
  · next h7 =>
    simp only [h7, if_false] at hp
    exact { h with onP := hp }

/-! ### Words that go on -/

/-- A word that leaves a team with other registers, and goes on. -/
theorem writesOnly_advance (s : State) {u v : Team} {ws : List Reg} (hr : RegsKept u v ws) (hv : v = { u with regs := v.regs }) :
    WritesOnly s { s with me := v.advance } u ws := by
  obtain ⟨g, rfl⟩ : ∃ g, v = { u with regs := g } := ⟨_, hv⟩
  exact {
    others := rfl
    pos := Team.advance_pos _
    regs := hr.of_regs (Team.advance_regs _)
    ctl := Team.advance_ctl { u with regs := g }
    flow := Team.advance_flow { u with regs := g }
    self := ⟨Team.advance_id _, Team.advance_place _, Team.advance_sch _⟩ }

/-- A word that writes a scalar register and goes on. -/
theorem writesOnly_putS (s : State) (u : Team) (d : SReg) (x : W64) : WritesOnly s (State.putS { s with me := u } d x) u [.s d.val] :=
  writesOnly_advance s (RegsKept.setS u d x) rfl

/-- A word that writes an address register and goes on. -/
theorem writesOnly_putA (s : State) (d : AReg) (x : W80) : WritesOnly s (s.putA d x) s.me [.a d.val] :=
  writesOnly_advance s (RegsKept.setA s.me d x) rfl

end Sys2Proof.Claim

namespace Sys2Proof.Machine
open Sys2Proof

@[simp] theorem State.putS_s (s : State) (d : SReg) (x : W64) : (s.putS d x).me.s d = x := by simp [State.putS_eq]
@[simp] theorem State.putA_a (s : State) (d : AReg) (x : W80) : (s.putA d x).me.a d = x := by simp [State.putA_eq]

end Sys2Proof.Machine
end

section
/-!
PROOFS. The integer operations of the words by their numbers: what the rules of spec/06 write as numbers is the operation on words.
-/
namespace Sys2Proof.Machine
open Sys2Proof Claim

/-! ### Words of any width as numbers -/

section
variable {w : Nat} (x y : BitVec w) (n : Nat)

theorem ofNat_add_eq : BitVec.ofNat w (x.toNat + y.toNat) = x + y := by simp [BitVec.ofNat_add]

theorem ofInt_sub_eq : BitVec.ofInt w (x.toNat - y.toNat) = x - y := by
  rw [sub_eq_add_neg, BitVec.ofInt_add, BitVec.ofInt_neg]
  simp [BitVec.sub_eq_add_neg]

theorem ofNat_mul_eq : BitVec.ofNat w (x.toNat * y.toNat) = x * y := by simp [BitVec.ofNat_mul]

theorem ofNat_shl_eq : BitVec.ofNat w (x.toNat * 2 ^ n) = x <<< n := by
  apply BitVec.eq_of_toNat_eq
  simp [Nat.shiftLeft_eq]

theorem ofNat_shr_eq : BitVec.ofNat w (x.toNat / 2 ^ n) = x >>> n := by
  apply BitVec.eq_of_toNat_eq
  have : x.toNat / 2 ^ n < 2 ^ w := lt_of_le_of_lt (Nat.div_le_self _ _) x.isLt
  simp [Nat.shiftRight_eq_div_pow, Nat.mod_eq_of_lt this]

theorem ofInt_sar_eq : BitVec.ofInt w (x.toInt / 2 ^ n) = x.sshiftRight n := by
  simp [BitVec.sshiftRight, Int.shiftRight_eq_div_pow]

theorem ofNat_min_eq : BitVec.ofNat w (min x.toNat y.toNat) = if x.toNat ≤ y.toNat then x else y := by
  rw [Nat.min_def]
  split <;> simp

theorem ofNat_max_eq : BitVec.ofNat w (max x.toNat y.toNat) = if x.toNat ≤ y.toNat then y else x := by
  rw [Nat.max_def]
  split <;> simp

theorem ofInt_min_eq : BitVec.ofInt w (min x.toInt y.toInt) = if x.toInt ≤ y.toInt then x else y := by
  rw [Int.min_def]
  split <;> simp

theorem ofInt_max_eq : BitVec.ofInt w (max x.toInt y.toInt) = if x.toInt ≤ y.toInt then y else x := by
  rw [Int.max_def]
  split <;> simp

/-- A sum with an immediate, both taken as signed. -/
theorem ofInt_add_signExtend {m : Nat} (i : BitVec m) : BitVec.ofInt w (x.toInt + i.toInt) = x + i.signExtend w := by
  simp [BitVec.ofInt_add, BitVec.signExtend]

theorem ofNat_append_eq {m : Nat} (z : BitVec m) : BitVec.ofNat (w + m) (x.toNat * 2 ^ m + z.toNat) = x ++ z := by
  apply BitVec.eq_of_toNat_eq
  have hlt : x.toNat * 2 ^ m + z.toNat < 2 ^ (w + m) := by
    rw [pow_add]
    nlinarith [x.isLt, z.isLt]
  rw [BitVec.toNat_append, ← Nat.shiftLeft_add_eq_or_of_lt z.isLt, Nat.shiftLeft_eq, BitVec.toNat_ofNat, Nat.mod_eq_of_lt hlt]

end

/-! ### Scalar operations (spec/06 R104 to R106) -/

theorem divS_eq (x y : W64) : divS x y =
    if y = 0 then -1 else if x.toInt = -2 ^ 63 ∧ y.toInt = -1 then 0x8000000000000000 else BitVec.ofInt 64 (x.toInt.tdiv y.toInt) := by
  unfold divS
  split
  · rfl
  · split
    · next h =>
      obtain ⟨hx, hy⟩ := h
      rw [hx, hy]
      rfl
    · rfl

theorem remU_eq (x y : W64) : remU x y = if y = 0 then x else BitVec.ofNat 64 (x.toNat - y.toNat * (x.toNat / y.toNat)) := by
  have hmod : x.toNat % y.toNat = x.toNat - y.toNat * (x.toNat / y.toNat) := by
    have := Nat.mod_add_div x.toNat y.toNat
    omega
  rw [remU, hmod]

theorem ofBit_decide (p : Prop) [Decidable p] : ofBit (decide p) = if p then 1 else 0 := by
  by_cases h : p <;> simp [ofBit, h]

theorem popN_eq_countP (x n : Nat) : popN x n = (List.range n).countP x.testBit := by
  induction n with
  | zero => rfl
  | succ n ih =>
    rw [popN, ih, List.range_succ, List.countP_append, add_comm, List.countP_singleton, Nat.testBit_eq_decide_div_mod_eq]
    rcases Nat.mod_two_eq_zero_or_one (x / 2 ^ n) with h | h <;> simp [h]

theorem clzN_eq_zerosFirst (x n : Nat) : clzN x n = zerosFirst ((List.range n).map x.testBit).reverse := by
  induction n with
  | zero => rfl
  | succ n ih =>
    rw [clzN, ih, List.range_succ, List.map_append, List.reverse_append, List.map_singleton, List.reverse_singleton,
      List.singleton_append, zerosFirst, zerosFirst, List.takeWhile_cons, Nat.testBit_eq_decide_div_mod_eq]
    rcases Nat.mod_two_eq_zero_or_one (x / 2 ^ n) with h | h <;> simp [h, add_comm]

theorem ctzN_eq_zerosFirst (x i n : Nat) : ctzN x i n = zerosFirst ((List.range' i n).map x.testBit) := by
  induction n generalizing i with
  | zero => rfl
  | succ n ih =>
    rw [ctzN, ih, List.range'_succ, List.map_cons, zerosFirst, zerosFirst, List.takeWhile_cons, Nat.testBit_eq_decide_div_mod_eq]
    rcases Nat.mod_two_eq_zero_or_one (x / 2 ^ i) with h | h <;> simp [h, add_comm]

/-- The 64 bits of a word, as bits of its number. -/
theorem bits64_eq (x : W64) : bits64 x = (List.range 64).map x.toNat.testBit := rfl

theorem popc_eq (x : W64) : popc x = BitVec.ofNat 64 ((bits64 x).count true) := by
  rw [popc, popN_eq_countP, bits64_eq, List.count, List.countP_map]
  congr 1
  exact List.countP_congr fun l _ => by simp

theorem insertQuarter_eq (x : W64) (q : Fin 4) (i : BitVec 16) : insertQuarter x q i = BitVec.ofNat 64
    (x.toNat % 2 ^ (16 * q.val) + i.toNat * 2 ^ (16 * q.val) + x.toNat / 2 ^ (16 * q.val + 16) * 2 ^ (16 * q.val + 16)) := by
  have hsum (k : Nat) : x.toNat % 2 ^ k + i.toNat * 2 ^ k + x.toNat / 2 ^ (k + 16) * 2 ^ (k + 16) =
      2 ^ k * (2 ^ 16 * (x.toNat / 2 ^ (k + 16)) + i.toNat) + x.toNat % 2 ^ k := by ring
  have hones : ∀ j < 64, (0xFFFF#64).getLsbD j = decide (j < 16) := by decide
  have hx (j : Nat) : x.toNat.testBit j = x.getLsbD j := rfl
  have hi (j : Nat) : i.toNat.testBit j = i.getLsbD j := rfl
  refine BitVec.eq_of_getLsbD_eq fun l hl => ?_
  rw [hsum, BitVec.getLsbD_ofNat, Nat.testBit_two_pow_mul_add _ (Nat.mod_lt _ (Nat.two_pow_pos _)),
    Nat.testBit_two_pow_mul_add _ i.isLt, Nat.testBit_mod_two_pow, Nat.testBit_div_two_pow, insertQuarter]
  simp only [BitVec.getLsbD_or, BitVec.getLsbD_and, BitVec.getLsbD_not, BitVec.getLsbD_shiftLeft, BitVec.getLsbD_setWidth, hl, hx, hi,
    hones _ (lt_of_le_of_lt (Nat.sub_le _ _) hl)]
  rcases lt_or_ge l (16 * q.val) with h1 | h1
  · simp [h1]
  · rcases lt_or_ge (l - 16 * q.val) 16 with h2 | h2
    · have h3 : l - 16 * q.val < 64 := by omega
      simp [h2, h3, Nat.not_lt.2 h1]
    · have h3 : l - 16 * q.val - 16 + (16 * q.val + 16) = l := by omega
      simp [Nat.not_lt.2 h1, Nat.not_lt.2 h2, h3, BitVec.getLsbD_of_ge _ _ h2]

/-- A comparison with an immediate, both taken as signed. -/
theorem ofBit_slt_signExtend (x : W64) (i : BitVec 10) : ofBit (x.slt (i.signExtend 64)) = if x.toInt < i.toInt then 1 else 0 := by
  rw [BitVec.slt_eq_decide, BitVec.toInt_signExtend_of_le (by decide), ofBit_decide]

/-! ### Addresses (spec/06 R107) -/

theorem toNat_extractLsb'_high (x : W80) : (x.extractLsb' 64 16).toNat = x.toNat / 2 ^ 64 := by
  have := x.isLt
  rw [BitVec.extractLsb'_toNat, Nat.shiftRight_eq_div_pow]
  omega

theorem toNat_extractLsb'_low {w : Nat} (x : BitVec w) (n : Nat) : (x.extractLsb' 0 n).toNat = x.toNat % 2 ^ n := by
  simp [BitVec.extractLsb'_toNat]

theorem ofInt_add_shiftLeft (x : W80) (y : W64) (n : Nat) :
    BitVec.ofInt 80 (x.toNat + y.toInt * 2 ^ n) = x + y.signExtend 80 <<< n := by
  have hpow : BitVec.ofInt 80 (2 ^ n) = BitVec.twoPow 80 n := by
    rw [show (2 : Int) ^ n = ((2 ^ n : Nat) : Int) by norm_cast, BitVec.ofInt_natCast]
    apply BitVec.eq_of_toNat_eq
    simp
  rw [BitVec.ofInt_add, BitVec.ofInt_mul, hpow, ← BitVec.shiftLeft_eq_mul_twoPow, BitVec.ofInt_natCast, BitVec.ofNat_toNat,
    BitVec.setWidth_eq, BitVec.signExtend]

theorem aget_eq (x : W80) (h : Bool) : (if h then (x.extractLsb' 64 16).setWidth 64 else x.extractLsb' 0 64 : W64) =
    BitVec.ofNat 64 (if h then x.toNat / 2 ^ 64 else x.toNat % 2 ^ 64) := by
  cases h with
  | false => exact BitVec.eq_of_toNat_eq (by simp [BitVec.extractLsb'_toNat])
  | true => rw [if_pos rfl, if_pos rfl, ← toNat_extractLsb'_high, BitVec.ofNat_toNat]

theorem aset_low_eq (x : W80) (y : W64) : x.extractLsb' 64 16 ++ y = BitVec.ofNat 80 (x.toNat / 2 ^ 64 * 2 ^ 64 + y.toNat) := by
  rw [← ofNat_append_eq, toNat_extractLsb'_high]

theorem aset_high_eq (x : W80) (y : W64) : y.extractLsb' 0 16 ++ x.extractLsb' 0 64 =
    BitVec.ofNat 80 (y.toNat % 2 ^ 16 * 2 ^ 64 + x.toNat % 2 ^ 64) := by
  rw [← ofNat_append_eq, toNat_extractLsb'_low, toNat_extractLsb'_low]

end Sys2Proof.Machine
end

section
/-!
PROOFS. Scalar and address words (spec/06 R104 to R107): each writes the value of its rule's table.
-/
namespace Sys2Proof.Claim
open Sys2Proof Sys2Proof.Machine

section
variable {s : State} {i : Instr} (h : Passes s i) (hv : ∀ r : VReg, i.reads.contains (.v r.val) = false)
include h hv

theorem exec_scalar2 {d a b : SReg} {f : W64 → W64 → W64} {x : W64} (hx : x = f (s.me.s a) (s.me.s b)) :
    scalar2 i d a b f s = .next (s.putS d x) := by
  rw [hx]
  exact run_of_vReads_nil _ h hv

theorem exec_scalar1 {d a : SReg} {f : W64 → W64} {x : W64} (hx : x = f (s.me.s a)) : scalar1 i d a f s = .next (s.putS d x) := by
  rw [hx]
  exact run_of_vReads_nil _ h hv

end

/-- Each word of R104 to R106, and `aop.aget`, puts the value of its table into s(D). -/
theorem exec_of_scalarRule {s : State} {i : Instr} {d : SReg} {x : W64} (hr : scalarRule s.me i = some (d, x)) (h : Passes s i) :
    exec i s = .next (s.putS d x) := by
  cases i with
  | sopAdd d a b => cases hr; exact (exec_scalar2 h (fun _ => rfl) (ofNat_add_eq _ _) : execSopAdd d a b s = _)
  | sopSub d a b => cases hr; exact (exec_scalar2 h (fun _ => rfl) (ofInt_sub_eq _ _) : execSopSub d a b s = _)
  | sopMul d a b => cases hr; exact (exec_scalar2 h (fun _ => rfl) (ofNat_mul_eq _ _) : execSopMul d a b s = _)
  | sopMulh d a b => cases hr; exact (exec_scalar2 h (fun _ => rfl) rfl : execSopMulh d a b s = _)
  | sopMulhn d a b => cases hr; exact (exec_scalar2 h (fun _ => rfl) rfl : execSopMulhn d a b s = _)
  | sopDiv d a b => cases hr; exact (exec_scalar2 h (fun _ => rfl) rfl : execSopDiv d a b s = _)
  | sopDivn d a b => cases hr; exact (exec_scalar2 h (fun _ => rfl) (divS_eq _ _).symm : execSopDivn d a b s = _)
  | sopRem d a b => cases hr; exact (exec_scalar2 h (fun _ => rfl) (remU_eq _ _).symm : execSopRem d a b s = _)
  | sopAnd d a b => cases hr; exact (exec_scalar2 h (fun _ => rfl) rfl : execSopAnd d a b s = _)
  | sopOr d a b => cases hr; exact (exec_scalar2 h (fun _ => rfl) rfl : execSopOr d a b s = _)
  | sopXor d a b => cases hr; exact (exec_scalar2 h (fun _ => rfl) rfl : execSopXor d a b s = _)
  | sopAndn d a b => cases hr; exact (exec_scalar2 h (fun _ => rfl) rfl : execSopAndn d a b s = _)
  | sopShl d a b => cases hr; exact (exec_scalar2 h (fun _ => rfl) (ofNat_shl_eq _ _) : execSopShl d a b s = _)
  | sopShr d a b => cases hr; exact (exec_scalar2 h (fun _ => rfl) (ofNat_shr_eq _ _) : execSopShr d a b s = _)
  | sopSar d a b => cases hr; exact (exec_scalar2 h (fun _ => rfl) (ofInt_sar_eq _ _) : execSopSar d a b s = _)
  | sopMin d a b => cases hr; exact (exec_scalar2 h (fun _ => rfl) (ofNat_min_eq _ _) : execSopMin d a b s = _)
  | sopMax d a b => cases hr; exact (exec_scalar2 h (fun _ => rfl) (ofNat_max_eq _ _) : execSopMax d a b s = _)
  | sopMinn d a b => cases hr; exact (exec_scalar2 h (fun _ => rfl) (ofInt_min_eq _ _) : execSopMinn d a b s = _)
  | sopMaxn d a b => cases hr; exact (exec_scalar2 h (fun _ => rfl) (ofInt_max_eq _ _) : execSopMaxn d a b s = _)
  | sopSlt d a b => cases hr; exact (exec_scalar2 h (fun _ => rfl) (ofBit_decide _).symm : execSopSlt d a b s = _)
  | sopSltn d a b => cases hr; exact (exec_scalar2 h (fun _ => rfl) (ofBit_decide _).symm : execSopSltn d a b s = _)
  | sopSeq d a b => cases hr; exact (exec_scalar2 h (fun _ => rfl) (ofBit_decide _).symm : execSopSeq d a b s = _)
  | sopPopc d a => cases hr; exact (exec_scalar1 h (fun _ => rfl) (popc_eq _).symm : execSopPopc d a s = _)
  | sopClz d a => cases hr; exact (exec_scalar1 h (fun _ => rfl) (congrArg (BitVec.ofNat 64) (clzN_eq_zerosFirst _ _)).symm : execSopClz d a s = _)
  | sopCtz d a => cases hr; exact (exec_scalar1 h (fun _ => rfl) (congrArg (BitVec.ofNat 64) (ctzN_eq_zerosFirst _ _ _)).symm : execSopCtz d a s = _)
  | sopiAddi d a k => cases hr; exact (exec_scalar1 h (fun _ => rfl) (ofInt_add_signExtend _ _) : execSopiAddi d a k s = _)
  | sopiAndi d a k => cases hr; exact (exec_scalar1 h (fun _ => rfl) rfl : execSopiAndi d a k s = _)
  | sopiOri d a k => cases hr; exact (exec_scalar1 h (fun _ => rfl) rfl : execSopiOri d a k s = _)
  | sopiXori d a k => cases hr; exact (exec_scalar1 h (fun _ => rfl) rfl : execSopiXori d a k s = _)
  | sshiShli d a k => cases hr; exact (exec_scalar1 h (fun _ => rfl) (ofNat_shl_eq _ _) : execSshiShli d a k s = _)
  | sshiShri d a k => cases hr; exact (exec_scalar1 h (fun _ => rfl) (ofNat_shr_eq _ _) : execSshiShri d a k s = _)
  | sshiSari d a k => cases hr; exact (exec_scalar1 h (fun _ => rfl) (ofInt_sar_eq _ _) : execSshiSari d a k s = _)
  | sshiSlti d a k => cases hr; exact (exec_scalar1 h (fun _ => rfl) (ofBit_slt_signExtend _ _).symm : execSshiSlti d a k s = _)
  | sinsInsert d q k => cases hr; exact (exec_scalar1 h (fun _ => rfl) (insertQuarter_eq _ _ _).symm : execSinsInsert d q k s = _)
  | aopAget a d k =>
    cases hr
    rw [← aget_eq]
    exact (run_of_vReads_nil _ h fun _ => rfl : execAopAget a d k s = _)
  | _ => cases hr

/-- Each word of R107 that writes an address register puts the value of its table into a(AD). -/
theorem exec_of_addressRule {s : State} {i : Instr} {d : AReg} {x : W80} (hr : addressRule s.me i = some (d, x)) (h : Passes s i) :
    exec i s = .next (s.putA d x) := by
  cases i with
  | aopAadd d a b k =>
    cases hr
    rw [ofInt_add_shiftLeft]
    exact (run_of_vReads_nil _ h fun _ => rfl : execAopAadd d a b k s = _)
  | aopAset d a b k =>
    cases k with
    | false =>
      cases hr
      rw [← aset_low_eq]
      exact (run_of_vReads_nil _ h fun _ => rfl : execAopAset d a b false s = _)
    | true =>
      cases hr
      rw [← aset_high_eq]
      exact (run_of_vReads_nil _ h fun _ => rfl : execAopAset d a b true s = _)
  | aopAmov d a => cases hr; exact (run_of_vReads_nil _ h fun _ => rfl : execAopAmov d a s = _)
  | _ => cases hr

/-- Settles O1: each word puts the value of its table into its register, by the operation that the table writes as a number. -/
theorem scalarAndAddressWordsWriteTheirResult : Obligations.ScalarAndAddressWordsWriteTheirResult := by
  unfold Obligations.ScalarAndAddressWordsWriteTheirResult
  exact ⟨fun s i d x hr h => ⟨_, exec_of_scalarRule hr h, s.putS_s d x, writesOnly_putS s s.me d x⟩,
    fun s i d x hr h => ⟨_, exec_of_addressRule hr h, s.putA_a d x, writesOnly_putA s d x⟩⟩

end Sys2Proof.Claim
end

section
/-!
PROOFS. Integer lane words and moves (spec/06 R100, R108 to R113): each lane of the mask takes the value of its rule.
-/
namespace Sys2Proof.Machine
open Sys2Proof

theorem ofNat_rol_eq (x : W32) {k : Nat} (hk : k < 32) : BitVec.ofNat 32 (x.toNat * 2 ^ k + x.toNat / 2 ^ (32 - k)) = x.rotateLeft k := by
  apply BitVec.eq_of_toNat_eq
  have hlow : x.toNat / 2 ^ (32 - k) < 2 ^ k := by
    rw [Nat.div_lt_iff_lt_mul (Nat.two_pow_pos _), ← pow_add, Nat.add_sub_cancel' hk.le]
    exact x.isLt
  rw [BitVec.toNat_rotateLeft, Nat.mod_eq_of_lt hk, BitVec.toNat_ofNat, Nat.shiftRight_eq_div_pow, ← Nat.shiftLeft_eq,
    Nat.shiftLeft_add_eq_or_of_lt hlow, Nat.or_mod_two_pow]
  congr 1
  exact Nat.mod_eq_of_lt (lt_of_le_of_lt (Nat.div_le_self _ _) x.isLt)

theorem vimm_hi_eq (k : BitVec 13) : BitVec.ofNat 32 (k.toNat * 2 ^ 19) = k.setWidth 32 <<< 19 := by
  apply BitVec.eq_of_toNat_eq
  have := k.isLt
  simp only [BitVec.toNat_ofNat, BitVec.toNat_shiftLeft, BitVec.toNat_setWidth, Nat.shiftLeft_eq]
  omega

theorem low_word_eq (x : W64) : BitVec.ofNat 32 (x.toNat % 2 ^ 32) = x.setWidth 32 := by
  apply BitVec.eq_of_toNat_eq
  simp

/-- The lowest lane of a mask is the first of the team's lanes that it holds. -/
theorem lowestLane_eq_lowest (u : Team) (m : Mask) : lowestLane m u.width = Claim.lowest u m := List.head?_filter

end Sys2Proof.Machine

namespace Sys2Proof.Claim
open Sys2Proof Sys2Proof.Machine

/-! ### A lane word's effect -/

theorem HasLane.getElem? {u : Team} {l : Nat} (h : HasLane u l) (r : VReg) : (u.v r)[l]? = some (lane u r l) := by
  obtain ⟨_, hr⟩ := h
  simp [lane, List.getD_eq_getElem?_getD, List.getElem?_eq_getElem (hr r)]

theorem HasLane.zipWith {u : Team} {l : Nat} (h : HasLane u l) {α : Type} (op : W32 → W32 → α) (a b : VReg) :
    (List.zipWith op (u.v a) (u.v b))[l]? = some (op (lane u a l) (lane u b l)) := by
  rw [List.getElem?_zipWith, h.getElem? a, h.getElem? b]

theorem blend_getElem?_some {m : Mask} {xs ys : List W32} {l : Nat} {x y : W32} (hx : xs[l]? = some x) (hy : ys[l]? = some y) :
    (blend m 0 xs ys)[l]? = some (if m.getLsbD l then y else x) := by
  obtain ⟨hlt, rfl⟩ := List.getElem?_eq_some_iff.1 hy
  rw [blend_getElem? m xs ys 0 l hlt, hx, Nat.zero_add]
  rfl

/-- A v register written in the lanes of a mask: those lanes hold the new values, the others the old ones. -/
theorem lane_writeV {u : Team} {d : VReg} {m : Mask} {ys : List W32} {tag : BitVec 4} {l : Nat} {y : W32} (hl : HasLane u l)
    (hy : ys[l]? = some y) : lane (u.writeV d m ys tag) d l = if m.getLsbD l then y else lane u d l := by
  unfold Team.writeV
  split
  · next h0 => simp [h0]
  · rw [lane, Team.setTag_v, Team.setV_v_self, List.getD_eq_getElem?_getD, blend_getElem?_some (hl.getElem? d) hy]
    rfl

theorem length_writeV (u : Team) (d : VReg) (m : Mask) (ys : List W32) (tag : BitVec 4) :
    ((u.writeV d m ys tag).v d).length = (u.v d).length := by
  unfold Team.writeV
  split
  · rfl
  · rw [Team.setTag_v, Team.setV_v_self, blend_length]

theorem tag_writeV (u : Team) (d : VReg) (m : Mask) (ys : List W32) (tag : BitVec 4) :
    (u.writeV d m ys tag).tag d = if m = 0 then u.tag d else tag := by
  unfold Team.writeV
  split
  · rfl
  · rw [Team.setTag_tag_self]

theorem writeV_eq (u : Team) (d : VReg) (m : Mask) (ys : List W32) (tag : BitVec 4) :
    u.writeV d m ys tag = { u with regs := (u.writeV d m ys tag).regs } := by
  unfold Team.writeV
  split <;> rfl

/-- A word that writes a v register in the lanes of its mask and goes on has the effect of its rule, where the values that it writes are those of the
rule. -/
theorem laneEffect_putV (s : State) {u : Team} {r : LaneRule} {ys : List W32}
    (hy : ∀ l, HasLane u l → ∃ y, ys[l]? = some y ∧ (r.m.getLsbD l = true → r.f l = y)) :
    LaneEffect s (({ s with me := u } : State).putV r.d r.m ys r.tag) u r where
  lanes l hl := by
    obtain ⟨y, hy, hf⟩ := hy l hl
    rw [State.putV_eq, lane, Team.advance_v, ← lane, lane_writeV hl hy]
    by_cases hm : r.m.getLsbD l = true
    · rw [if_pos hm, if_pos hm, hf hm]
    · rw [if_neg hm, if_neg hm]
  size := by rw [State.putV_eq, Team.advance_v, length_writeV]
  tag := by rw [State.putV_eq, Team.advance_tag, tag_writeV]
  rest := writesOnly_advance s (RegsKept.writeV u r.d r.m ys r.tag) (writeV_eq u r.d r.m ys r.tag)

/-- A word that goes on with no lane to write. -/
theorem laneEffect_advance (s : State) (u : Team) (d : VReg) (f : Nat → W32) :
    LaneEffect s (({ s with me := u } : State).advance) u ⟨d, 0, f, 0⟩ where
  lanes l _ := by simp [lane, State.advance_eq]
  size := by rw [State.advance_eq, Team.advance_v]
  tag := by rw [State.advance_eq, Team.advance_tag, if_pos rfl]
  rest := writesOnly_advance s (RegsKept.refl u _) rfl

section
variable {s : State} {i : Instr} (h : Passes s i)
include h

/-- A word that passes its checks and writes a v register has the effect of its rule. -/
theorem run_putV {d : VReg} {m : Team → Mask} {ys : Team → List W32} {f : Nat → W32}
    (hy : ∀ l, HasLane (ready s i) l → ∃ y, (ys (ready s i))[l]? = some y ∧ ((m (ready s i)).getLsbD l = true → f l = y)) :
    ∃ t, run i s (fun s => s.putV d (m s.me) (ys s.me) 0) = .next t ∧ LaneEffect s t (ready s i) ⟨d, m (ready s i), f, 0⟩ :=
  ⟨_, run_of_check_none _ h, laneEffect_putV s (r := ⟨d, m (ready s i), f, 0⟩) hy⟩

theorem vector2_effect {d a b : VReg} {g : Guard} {op : W32 → W32 → W32} {f : Nat → W32}
    (hf : ∀ l, f l = op (lane (ready s i) a l) (lane (ready s i) b l)) :
    ∃ t, vector2 i d a b g op s = .next t ∧ LaneEffect s t (ready s i) ⟨d, (ready s i).eff g, f, 0⟩ :=
  run_putV h (m := fun u => u.eff g) (ys := fun u => List.zipWith op (u.v a) (u.v b)) fun l hl =>
    ⟨_, hl.zipWith op a b, fun _ => hf l⟩

theorem vector1_effect {d a : VReg} {g : Guard} {op : W32 → W32} {f : Nat → W32} (hf : ∀ l, f l = op (lane (ready s i) a l)) :
    ∃ t, vector1 i d a g op s = .next t ∧ LaneEffect s t (ready s i) ⟨d, (ready s i).eff g, f, 0⟩ :=
  run_putV h (m := fun u => u.eff g) (ys := fun u => (u.v a).map op) fun l hl =>
    ⟨_, by rw [List.getElem?_map, hl.getElem? a]; rfl, fun _ => hf l⟩

/-- A word that writes one value in every lane of its mask. -/
theorem splat_effect {d : VReg} {g : Guard} {x : Team → W32} {y : W32} (hy : y = x (ready s i)) :
    ∃ t, run i s (fun s => s.putV d (s.me.eff g) (s.me.splat (x s.me)) 0) = .next t ∧
      LaneEffect s t (ready s i) ⟨d, (ready s i).eff g, fun _ => y, 0⟩ :=
  run_putV h (m := fun u => u.eff g) (ys := fun u => u.splat (x u)) fun l hl =>
    ⟨_, by rw [Team.splat, List.getElem?_replicate, if_pos hl.1], fun _ => hy⟩

end

/-- A word that writes the lowest lane of its mask, or no lane where the mask is empty. -/
theorem vmovWrlane_effect {s : State} {d : VReg} {a : SReg} {g : Guard} (h : Passes s (.vmovWrlane d a g)) :
    ∃ t, execVmovWrlane d a g s = .next t ∧ LaneEffect s t (ready s (.vmovWrlane d a g))
      ⟨d, (match lowest (ready s (.vmovWrlane d a g)) ((ready s (.vmovWrlane d a g)).eff g) with | some k => BitVec.twoPow 1024 k | none => 0),
        fun _ => BitVec.ofNat 32 (((ready s (.vmovWrlane d a g)).s a).toNat % 2 ^ 32), 0⟩ := by
  refine ⟨_, run_of_check_none _ h, ?_⟩
  cases hk : lowest (s.me.prepare (.vmovWrlane d a g)) ((s.me.prepare (.vmovWrlane d a g)).eff g) with
  | some k =>
    simp only [State.setMe_me, lowestLane_eq_lowest, hk, low_word_eq, BitVec.twoPow_eq]
    exact laneEffect_putV s (r := ⟨d, 1#1024 <<< k, _, 0⟩) fun l hl =>
      ⟨_, by rw [Team.splat, List.getElem?_replicate, if_pos hl.1], fun _ => rfl⟩
  | none =>
    simp only [State.setMe_me, lowestLane_eq_lowest, hk]
    exact laneEffect_advance s _ d _

/-- Each integer lane word has the effect of its rule. -/
theorem exec_of_integerRule {s : State} {i : Instr} {r : LaneRule} (hr : integerRule (ready s i) i = some r) (h : Passes s i) :
    ∃ t, exec i s = .next t ∧ LaneEffect s t (ready s i) r := by
  cases i with
  | variIadd d a b g => cases hr; rw [exec, execVariIadd]; exact vector2_effect h fun _ => ofNat_add_eq _ _
  | variIsub d a b g => cases hr; rw [exec, execVariIsub]; exact vector2_effect h fun _ => ofInt_sub_eq _ _
  | variImul d a b g => cases hr; rw [exec, execVariImul]; exact vector2_effect h fun _ => ofNat_mul_eq _ _
  | variImulh d a b g => cases hr; rw [exec, execVariImulh]; exact vector2_effect h fun _ => rfl
  | vlogAnd d a b g => cases hr; rw [exec, execVlogAnd]; exact vector2_effect h fun _ => rfl
  | vlogOr d a b g => cases hr; rw [exec, execVlogOr]; exact vector2_effect h fun _ => rfl
  | vlogXor d a b g => cases hr; rw [exec, execVlogXor]; exact vector2_effect h fun _ => rfl
  | vlogAndn d a b g => cases hr; rw [exec, execVlogAndn]; exact vector2_effect h fun _ => rfl
  | vsftShl d a b g => cases hr; rw [exec, execVsftShl]; exact vector2_effect h fun _ => ofNat_shl_eq _ _
  | vsftShr d a b g => cases hr; rw [exec, execVsftShr]; exact vector2_effect h fun _ => ofNat_shr_eq _ _
  | vsftSar d a b g => cases hr; rw [exec, execVsftSar]; exact vector2_effect h fun _ => ofInt_sar_eq _ _
  | vsftRol d a b g => cases hr; rw [exec, execVsftRol]; exact vector2_effect h fun _ => ofNat_rol_eq _ (Nat.mod_lt _ (by decide))
  | vmnxImin d a b g => cases hr; rw [exec, execVmnxImin]; exact vector2_effect h fun _ => ofNat_min_eq _ _
  | vmnxImax d a b g => cases hr; rw [exec, execVmnxImax]; exact vector2_effect h fun _ => ofNat_max_eq _ _
  | vmnxNmin d a b g => cases hr; rw [exec, execVmnxNmin]; exact vector2_effect h fun _ => ofInt_min_eq _ _
  | vmnxNmax d a b g => cases hr; rw [exec, execVmnxNmax]; exact vector2_effect h fun _ => ofInt_max_eq _ _
  | vadi d a g k => cases hr; rw [exec, execVadi]; exact vector1_effect h fun _ => ofInt_add_signExtend _ _
  | vimmSx d g k => cases hr; rw [exec, execVimmSx]; exact splat_effect (x := fun _ => k.signExtend 32) h rfl
  | vimmHi d g k => cases hr; rw [exec, execVimmHi]; exact splat_effect (x := fun _ => k.setWidth 32 <<< 19) h (vimm_hi_eq k)
  | vmovMov d a g => cases hr; rw [exec, execVmovMov]; exact vector1_effect h fun _ => rfl
  | vmovBcast d a g => cases hr; rw [exec, execVmovBcast]; exact splat_effect (x := fun u => (u.s a).setWidth 32) h (low_word_eq _)
  | vsel d a b g =>
    cases hr
    rw [exec, execVsel]
    exact run_putV h (m := Team.em) (ys := fun u => blend (u.guardMask g) 0 (u.v b) (u.v a)) fun l hl =>
      ⟨_, blend_getElem?_some (hl.getElem? b) (hl.getElem? a), fun _ => rfl⟩
  | vmovWrlane d a g => cases hr; rw [exec]; exact vmovWrlane_effect h
  | vmovLaneid d g =>
    cases hr
    rw [exec, execVmovLaneid]
    exact run_putV h (m := fun u => u.eff g) (ys := fun u => (List.range u.width).map (BitVec.ofNat 32)) fun l hl =>
      ⟨_, by rw [List.getElem?_map, List.getElem?_range hl.1]; rfl, fun _ => rfl⟩
  | _ => cases hr

/-- Settles O2: each word writes in the lanes of its mask what its operation makes of the lanes that it reads. -/
theorem integerLaneWordsWriteTheirLanes : Obligations.IntegerLaneWordsWriteTheirLanes := by
  unfold Obligations.IntegerLaneWordsWriteTheirLanes
  exact fun s i r => exec_of_integerRule

end Sys2Proof.Claim
end

section
/-!
PROOFS. Cross-lane words (spec/06 R114, R115): shuffles, the lowest lane, reductions and scans.
-/
namespace Sys2Proof.Machine
open Sys2Proof Claim

/-! ### Reductions (spec/06 R115) -/

theorem canonF32_eq (x : W32) : canonF32 x = if fmtF32.value x.toNat = .nan then 0x7FC00000 else x := by
  simp [canonF32, Fmt.isNaN]

theorem minmax_eq_minmaxRule (F : Fmt) (up : Bool) (x y : Nat) : F.minmax up x y = minmaxRule F up x y := by
  have hnan {z : Nat} (h : F.value z ≠ .nan) : (F.value z == .nan) = false := by simp [h]
  unfold Fmt.minmax minmaxRule Fmt.isNaN
  by_cases hx : F.value x = .nan
  · by_cases hy : F.value y = .nan
    · simp [hx, hy]
    · simp [hx, hy, hnan hy]
  · by_cases hy : F.value y = .nan
    · simp [hx, hy, hnan hx]
    · cases up <;> cases (F.value x).below (F.value y) <;> simp [hx, hy, hnan hx, hnan hy]

theorem addOf_eq_stepRule (t : RType) : addOf t = stepRule false t := by cases t <;> rfl

theorem maxOf_eq_stepRule (t : RType) : maxOf t = stepRule true t := by
  funext x y
  cases t with
  | i32 =>
    by_cases h : x.toInt = y.toInt
    · simp [maxOf, stepRule, BitVec.eq_of_toInt_eq h]
    · have hlt : x.toInt ≤ y.toInt ↔ x.toInt < y.toInt := ⟨fun hle => lt_of_le_of_ne hle h, le_of_lt⟩
      simp only [maxOf, stepRule, hlt]
  | f32 => simp only [maxOf, stepRule, maxF32, minmax_eq_minmaxRule]

/-- The fold of the rule is the model's reduction by the step of its type. -/
theorem foldRule_eq (max : Bool) (t : RType) (xs : List W32) : foldRule max t xs = resultOf t (reduce (stepRule max t) xs) := by
  cases t with
  | i32 => cases xs <;> rfl
  | f32 => cases xs <;> simp only [foldRule, resultOf, canonF32_eq, reduce]

theorem active_eq_inMask (u : Team) (a : VReg) (m : Mask) : u.active a m = inMask u a m u.width := rfl

/-! ### Scans (spec/06 R115) -/

/-- The values of a list in the lanes of a mask, its first n values being those of lanes l and up. -/
def valuesFrom (m : Mask) (xs : List W32) (l n : Nat) : List W32 := ((List.range' l n).filter m.getLsbD).map fun k => xs.getD (k - l) 0

theorem valuesFrom_cons (m : Mask) (x : W32) (xs : List W32) (l n : Nat) : valuesFrom m (x :: xs) l (n + 1) =
    if m.getLsbD l then x :: valuesFrom m xs (l + 1) n else valuesFrom m xs (l + 1) n := by
  have htail : (((List.range' (l + 1) n).filter m.getLsbD).map fun k => (x :: xs).getD (k - l) 0) = valuesFrom m xs (l + 1) n := by
    refine List.map_congr_left fun k hk => ?_
    have hle : l + 1 ≤ k := (List.mem_range'_1.1 (List.mem_filter.1 hk).1).1
    rw [show k - l = k - (l + 1) + 1 by omega, List.getD_cons_succ]
  rw [valuesFrom, List.range'_succ, List.filter_cons]
  split
  · rw [List.map_cons, htail, Nat.sub_self, List.getD_cons_zero]
  · exact htail

theorem inMask_eq_valuesFrom (u : Team) (a : VReg) (m : Mask) (n : Nat) : inMask u a m n = valuesFrom m (u.v a) 0 n := by
  rw [inMask, valuesFrom, List.range_eq_range']
  rfl

/-- Values added one at a time to what lower lanes came to, if there were any. -/
def addUp (t : RType) : Option W32 → List W32 → W32
  | none, xs => reduce (addOf t) xs
  | some z, xs => xs.foldl (addOf t) z

theorem length_scanLanes (t : RType) (m : Mask) (l : Nat) (acc : Option W32) (xs : List W32) : (scanLanes t m l acc xs).length = xs.length := by
  induction xs generalizing l acc with
  | nil => rfl
  | cons x xs ih =>
    unfold scanLanes
    split <;> simp [ih]

/-- A lane of the mask takes the sum of the lanes of the mask up to it. -/
theorem scanLanes_getElem? (t : RType) (m : Mask) (l : Nat) (acc : Option W32) {xs : List W32} {j : Nat} (hj : j < xs.length)
    (hm : m.getLsbD (l + j) = true) :
    (scanLanes t m l acc xs)[j]? = some (resultOf t (addUp t acc (valuesFrom m xs l (j + 1)))) := by
  induction xs generalizing l acc j with
  | nil => exact absurd hj (Nat.not_lt_zero _)
  | cons x xs ih =>
    rw [valuesFrom_cons]
    unfold scanLanes
    cases j with
    | zero =>
      rw [Nat.add_zero] at hm
      simp only [hm, if_true, List.getElem?_cons_zero]
      cases acc <;> rfl
    | succ j =>
      have hm' : m.getLsbD (l + 1 + j) = true := by rwa [Nat.add_right_comm, Nat.add_assoc]
      have hj' : j < xs.length := Nat.lt_of_succ_lt_succ hj
      split
      · rw [List.getElem?_cons_succ, ih _ _ hj' hm']
        cases acc <;> rfl
      · rw [List.getElem?_cons_succ, ih _ _ hj' hm']

end Sys2Proof.Machine

namespace Sys2Proof.Claim
open Sys2Proof Sys2Proof.Machine

/-! ### The words of R114 -/

/-- The lane of A that lane l of D names, modulo the width. -/
theorem HasLane.shuffled {u : Team} {l : Nat} (hl : HasLane u l) (d a : VReg) :
    ((u.v d).map fun j => (u.v a).getD (j.toNat % u.width) 0)[l]? = some (lane u a ((lane u d l).toNat % u.width)) := by
  rw [List.getElem?_map, hl.getElem? d]
  rfl

/-- A word that copies the lowest lane of its mask, or goes on where the mask is empty. -/
theorem vxlnBcl_effect {s : State} {d a : VReg} {g : Guard} {r : LaneRule} (hr : crossRule (ready s (.vxlnBcl d a g)) (.vxlnBcl d a g) = some r)
    (h : Passes s (.vxlnBcl d a g)) :
    ∃ t, execVxlnBcl d a g s = .next t ∧ LaneEffect s t (ready s (.vxlnBcl d a g)) r := by
  refine ⟨_, run_of_check_none _ h, ?_⟩
  unfold crossRule at hr
  cases hk : lowest (s.me.prepare (.vxlnBcl d a g)) ((s.me.prepare (.vxlnBcl d a g)).eff g) with
  | some k =>
    simp only [hk] at hr
    cases hr
    simp only [State.setMe_me, lowestLane_eq_lowest, hk]
    exact laneEffect_putV s (r := ⟨d, _, _, 0⟩) fun l hl =>
      ⟨lane _ a k, by rw [Team.splat, List.getElem?_replicate, if_pos hl.1]; rfl, fun _ => rfl⟩
  | none =>
    simp only [hk] at hr
    cases hr
    simp only [State.setMe_me, lowestLane_eq_lowest, hk]
    exact laneEffect_advance s _ d _

/-- Each cross-lane word has the effect of its rule. -/
theorem exec_of_crossRule {s : State} {i : Instr} {r : LaneRule} (hr : crossRule (ready s i) i = some r) (h : Passes s i) :
    ∃ t, exec i s = .next t ∧ LaneEffect s t (ready s i) r := by
  cases i with
  | vxlnShfl d a g =>
    cases hr
    rw [exec, execVxlnShfl]
    exact (run_putV h (m := fun u => u.eff g) (ys := fun u => (u.v d).map fun j => (u.v a).getD (j.toNat % u.width) 0) fun l hl =>
      ⟨_, hl.shuffled d a, fun _ => rfl⟩ :)
  | vxlnBcl d a g => rw [exec]; exact vxlnBcl_effect hr h
  | vxlnRedadd d a g t =>
    cases hr
    rw [exec, execVxlnRedadd]
    exact splat_effect (x := fun u => resultOf t (reduce (addOf t) (u.active a (u.eff g)))) h
      (by rw [foldRule_eq, addOf_eq_stepRule, active_eq_inMask])
  | vxlnRedmax d a g t =>
    cases hr
    rw [exec, execVxlnRedmax]
    exact splat_effect (x := fun u => resultOf t (reduce (maxOf t) (u.active a (u.eff g)))) h
      (by rw [foldRule_eq, maxOf_eq_stepRule, active_eq_inMask])
  | vxlnScan d a g t =>
    cases hr
    rw [exec, execVxlnScan]
    refine run_putV h (m := fun u => u.eff g) (ys := fun u => scanLanes t (u.eff g) 0 none (u.v a)) fun l hl => ?_
    by_cases hm : ((ready s (.vxlnScan d a g t)).eff g).getLsbD l = true
    · refine ⟨_, scanLanes_getElem? t _ 0 none (hl.2 a) (by rwa [Nat.zero_add]), fun _ => ?_⟩
      rw [foldRule_eq, inMask_eq_valuesFrom, ← addOf_eq_stepRule]
      rfl
    · exact ⟨_, List.getElem?_eq_getElem (by rw [length_scanLanes]; exact hl.2 a), fun hc => absurd hc hm⟩
  | _ => cases hr

/-- Settles O3: a reduction is a fold of the lanes of the mask in order, and a scan leaves the fold up to each of them. -/
theorem crossLaneWordsWriteTheirLanes : Obligations.CrossLaneWordsWriteTheirLanes := by
  unfold Obligations.CrossLaneWordsWriteTheirLanes
  exact fun s i r => exec_of_crossRule

end Sys2Proof.Claim
end

section
/-!
PROOFS. Compares (spec/06 R111; spec/07 R123, R124): bits of a mask, predicates written in the lanes of a mask, the relations of the tables.
-/
namespace Sys2Proof.Machine
open Sys2Proof

/-! ### Masks of truth values -/

theorem testBit_bitNum (bs : List Bool) (l : Nat) : (bitNum bs).testBit l = bs.getD l false := by
  induction bs generalizing l with
  | nil => simp [bitNum]
  | cons b bs ih =>
    have hsum : bitNum (b :: bs) = Nat.bit b (bitNum bs) := by rw [bitNum, Nat.bit_val, add_comm]
    cases l with
    | zero => rw [hsum, Nat.testBit_bit_zero, List.getD_cons_zero]
    | succ l => rw [hsum, Nat.testBit_bit_succ, ih, List.getD_cons_succ]

theorem getLsbD_bitMask {bs : List Bool} {l : Nat} {b : Bool} (hl : l < 1024) (h : bs[l]? = some b) : (bitMask bs).getLsbD l = b := by
  rw [bitMask, BitVec.getLsbD_ofNat, testBit_bitNum, List.getD_eq_getElem?_getD, h]
  simp [hl]

/-! ### Predicates -/

/-- A predicate after a write: the lanes of the mask take the new bits, the others keep theirs. -/
theorem Team.getLsbD_setP_self (t : Team) {r : PReg} (m x : Mask) (l : Nat) (h : r ≠ 7) :
    ((t.setP r m x).p r).getLsbD l = if m.getLsbD l then x.getLsbD l else (t.p r).getLsbD l := by
  rw [t.setP_p_self r m x h]
  by_cases hl : l < 1024
  · cases hm : m.getLsbD l <;> simp only [BitVec.getLsbD_or, BitVec.getLsbD_and, BitVec.getLsbD_not, hl, hm] <;> simp
  · rw [BitVec.getLsbD_of_ge _ _ (Nat.not_lt.1 hl), BitVec.getLsbD_of_ge m _ (Nat.not_lt.1 hl), if_neg Bool.false_ne_true,
      BitVec.getLsbD_of_ge _ _ (Nat.not_lt.1 hl)]

/-- Outside the mask of a write every predicate keeps its bits. -/
theorem Team.getLsbD_setP_outside (t : Team) (r k : PReg) {m : Mask} (x : Mask) {l : Nat} (hm : m.getLsbD l = false) :
    ((t.setP r m x).p k).getLsbD l = (t.p k).getLsbD l := by
  by_cases h7 : r = 7
  · rw [h7, t.setP_seven]
  · by_cases hk : r = k
    · rw [← hk, t.getLsbD_setP_self m x l h7, hm, if_neg Bool.false_ne_true]
    · rw [t.setP_p_ne m x hk]

theorem Team.setP_eq (t : Team) (r : PReg) (m x : Mask) : t.setP r m x = { t with regs := (t.setP r m x).regs } := by
  unfold Team.setP
  split <;> rfl

/-! ### Relations of values (spec/07 R123) -/

/-- Of two values at most one is below the other. -/
theorem Val.lt_asymm {x y : Val} (h : x.lt y = true) : y.lt x = false := by
  cases x with
  | nan => exact absurd h Bool.false_ne_true
  | inf a => cases y <;> simp_all [Val.lt]
  | fin sa na ea =>
    cases y with
    | nan => rfl
    | inf b => simp_all [Val.lt]
    | fin sb nb eb =>
      simp only [Val.lt, decide_eq_true_eq] at h
      simp only [Val.lt, min_comm eb ea, decide_eq_false_iff_not]
      omega

theorem Val.eqv_of_numbers {x y : Val} (hx : x ≠ .nan) (hy : y ≠ .nan) : x.eqv y = (!x.lt y && !y.lt x) := by
  cases x with
  | nan => exact absurd rfl hx
  | inf | fin =>
    cases y with
    | nan => exact absurd rfl hy
    | inf | fin => rfl

theorem cmpEq_iff (x y : Val) : cmpEq x y = true ↔ x ≠ .nan ∧ y ≠ .nan ∧ x.lt y = false ∧ y.lt x = false := by
  unfold cmpEq
  by_cases hx : x = .nan
  · simp [hx, Val.eqv]
  · by_cases hy : y = .nan
    · cases x <;> simp [hy, Val.eqv]
    · simp [Val.eqv_of_numbers hx hy, hx, hy]

theorem cmpLt_iff (x y : Val) : cmpLt x y = true ↔ x ≠ .nan ∧ y ≠ .nan ∧ x.lt y = true := by
  unfold cmpLt
  cases x <;> cases y <;> simp [Val.lt]

theorem cmpLe_iff (x y : Val) : cmpLe x y = true ↔ x ≠ .nan ∧ y ≠ .nan ∧ y.lt x = false := by
  unfold cmpLe
  by_cases hx : x = .nan
  · simp [hx, Val.eqv, Val.lt]
  · by_cases hy : y = .nan
    · cases x <;> simp [hy, Val.eqv, Val.lt]
    · cases h : x.lt y
      · simp [Val.eqv_of_numbers hx hy, hx, hy, h]
      · simp [hx, hy, Val.lt_asymm h]

theorem cmpUn_iff (x y : Val) : cmpUn x y = true ↔ x = .nan ∨ y = .nan := by simp [cmpUn]

end Sys2Proof.Machine

namespace Sys2Proof.Claim
open Sys2Proof Sys2Proof.Machine

/-! ### A compare's effect -/

/-- What a compare leaves: both predicates in the lanes of its mask, p7 as it is, every other lane and register as it was. -/
def CmpEffect (s t : State) (u : Team) (r : CmpRule) : Prop :=
  (∀ l, HasLane u l → r.m.getLsbD l = true →
    (r.p ≠ 7 → (t.me.p r.p).getLsbD l = r.c l) ∧ (r.q ≠ 7 → (t.me.p r.q).getLsbD l = !r.c l)) ∧
  (∀ l k, r.m.getLsbD l = false → (t.me.p k).getLsbD l = (u.p k).getLsbD l) ∧
  t.me.p 7 = BitVec.allOnes 1024 ∧ WritesOnly s t u [.p r.p.val, .p r.q.val]

theorem lt_of_getLsbD {m : Mask} {l : Nat} (h : m.getLsbD l = true) : l < 1024 := by
  by_contra hl
  rw [BitVec.getLsbD_of_ge m l (Nat.not_lt.1 hl)] at h
  exact Bool.false_ne_true h

/-- Two predicates written with c and its complement, where they are not one predicate. -/
theorem cmpEffect_putCmp (s : State) (u : Team) {r : CmpRule} {c : Mask} (hpq : r.p ≠ r.q ∨ r.p = 7)
    (hc : ∀ l, HasLane u l → r.m.getLsbD l = true → c.getLsbD l = r.c l) :
    CmpEffect s (({ s with me := u } : State).putCmp r.p r.q r.m c) u r := by
  have hme : (({ s with me := u } : State).putCmp r.p r.q r.m c) =
      { s with me := ((u.setP r.p r.m c).setP r.q r.m (~~~c)).advance } := rfl
  rw [hme]
  refine ⟨fun l hl hm => ⟨fun hp => ?_, fun hq => ?_⟩, fun l k hm => ?_, ?_, ?_⟩
  · have hne : r.q ≠ r.p := fun e => hpq.elim (· e.symm) hp
    rw [Team.advance_p, Team.setP_p_ne _ _ _ hne, Team.getLsbD_setP_self _ _ _ _ hp, if_pos hm, hc l hl hm]
  · rw [Team.advance_p, Team.getLsbD_setP_self _ _ _ _ hq, if_pos hm, BitVec.getLsbD_not, hc l hl hm]
    simp [lt_of_getLsbD hm]
  · rw [Team.advance_p, Team.getLsbD_setP_outside _ _ _ _ hm, Team.getLsbD_setP_outside _ _ _ _ hm]
  · rw [Team.advance_p]
    rfl
  · refine writesOnly_advance s (((RegsKept.refl u _).setP (by simp) r.m c).setP (by simp) r.m (~~~c)) ?_
    rw [Team.setP_eq, Team.setP_eq u]

section
variable {s : State} {i : Instr} (h : Passes s i)
include h

theorem compare2_effect {p q : PReg} {a b : VReg} {g : Guard} {rel : W32 → W32 → Bool} {c : Nat → Bool} (hpq : p ≠ q ∨ p = 7)
    (hc : ∀ l, c l = rel (lane (ready s i) a l) (lane (ready s i) b l)) :
    ∃ t, compare2 i p q a b g rel s = .next t ∧ CmpEffect s t (ready s i) ⟨p, q, (ready s i).eff g, c⟩ :=
  ⟨_, run_of_check_none _ h, cmpEffect_putCmp s (ready s i) (r := ⟨p, q, (ready s i).eff g, c⟩) hpq fun l hl hm =>
    getLsbD_bitMask (lt_of_getLsbD hm) ((hl.zipWith rel a b).trans (congrArg some (hc l).symm))⟩

end

/-- The operand check of a compare: its destinations differ, or both are p7. -/
theorem destinations_of_passes {s : State} {i : Instr} {p q : PReg} (h : Passes s i) (hi : s.operandOk i = (p != q || p == 7)) :
    p ≠ q ∨ p = 7 := by
  obtain ⟨_, _, _, hop, _⟩ := (s.check_none_iff i).1 h
  rw [hi] at hop
  simpa using hop

/-- Each compare has the effect of its rule. -/
theorem exec_of_cmpRule {s : State} {i : Instr} {r : CmpRule} (hr : cmpRule (ready s i) i = some r) (h : Passes s i) :
    ∃ t, exec i s = .next t ∧ CmpEffect s t (ready s i) r := by
  cases i with
  | vcmpEq p q a b g => cases hr; rw [exec, execVcmpEq]; exact compare2_effect h (destinations_of_passes h rfl) fun _ => rfl
  | vcmpLt p q a b g => cases hr; rw [exec, execVcmpLt]; exact compare2_effect h (destinations_of_passes h rfl) fun _ => rfl
  | vcmpLe p q a b g => cases hr; rw [exec, execVcmpLe]; exact compare2_effect h (destinations_of_passes h rfl) fun _ => rfl
  | vcmpLtn p q a b g => cases hr; rw [exec, execVcmpLtn]; exact compare2_effect h (destinations_of_passes h rfl) fun _ => rfl
  | fceq p q a b g t =>
    cases hr
    rw [exec, execFceq]
    exact compare2_effect h (destinations_of_passes h rfl) fun _ => (Bool.decide_congr (cmpEq_iff _ _).symm).trans (Bool.decide_coe _)
  | fclt p q a b g t =>
    cases hr
    rw [exec, execFclt]
    exact compare2_effect h (destinations_of_passes h rfl) fun _ => (Bool.decide_congr (cmpLt_iff _ _).symm).trans (Bool.decide_coe _)
  | fcle p q a b g t =>
    cases hr
    rw [exec, execFcle]
    exact compare2_effect h (destinations_of_passes h rfl) fun _ => (Bool.decide_congr (cmpLe_iff _ _).symm).trans (Bool.decide_coe _)
  | fcun p q a b g t =>
    cases hr
    rw [exec, execFcun]
    exact compare2_effect h (destinations_of_passes h rfl) fun _ => (Bool.decide_congr (cmpUn_iff _ _).symm).trans (Bool.decide_coe _)
  | _ => cases hr

/-- Settles O6: the predicates hold the relation of the table, lane by lane, and its complement. -/
theorem comparesWriteBothPredicates : Obligations.ComparesWriteBothPredicates := by
  unfold Obligations.ComparesWriteBothPredicates
  exact fun s i r => exec_of_cmpRule

end Sys2Proof.Claim
end

section
/-!
PROOFS. Predicate and mask words (spec/06 R113, R116 to R119; spec/07 R141): predicates, words of a mask, the execute mask, a domain tag.
-/
namespace Sys2Proof.Machine
open Sys2Proof Claim

/-! ### Words of a mask (spec/12 R202) -/

theorem toNat_maskWord (m : Mask) (w : Nat) : (maskWord m w).toNat = m.toNat / 2 ^ (32 * w) % 2 ^ 32 := by
  rw [maskWord, BitVec.extractLsb'_toNat, Nat.shiftRight_eq_div_pow]

theorem setWidth_maskWord (m : Mask) (w : Nat) : (maskWord m w).setWidth 64 = BitVec.ofNat 64 (m.toNat / 2 ^ (32 * w) % 2 ^ 32) := by
  rw [← toNat_maskWord, BitVec.ofNat_toNat]

theorem summaryN_eq_sum (m : Mask) (n : Nat) :
    summaryN m n = (((List.range n).filter fun w => m.toNat / 2 ^ (32 * w) % 2 ^ 32 ≠ 0).map (2 ^ ·)).sum := by
  induction n with
  | zero => rfl
  | succ n ih =>
    have hz : maskWord m n = 0 ↔ m.toNat / 2 ^ (32 * n) % 2 ^ 32 = 0 := by
      rw [← toNat_maskWord, BitVec.toNat_eq]
      rfl
    rw [summaryN, ih, List.range_succ, List.filter_append, List.map_append, List.sum_append, add_comm, List.filter_cons,
      List.filter_nil]
    by_cases h : m.toNat / 2 ^ (32 * n) % 2 ^ 32 = 0
    · rw [if_pos (hz.2 h), if_neg (by simpa using h)]
      rfl
    · rw [if_neg (mt hz.1 h), if_pos (by simpa using h)]
      simp

theorem setWidth_summary (u : Team) (m : Mask) : (u.summary m).setWidth 64 =
    BitVec.ofNat 64 ((((List.range u.id.m).filter fun w => m.toNat / 2 ^ (32 * w) % 2 ^ 32 ≠ 0).map (2 ^ ·)).sum % 2 ^ 32) := by
  rw [Team.summary, summaryN_eq_sum, ← BitVec.toNat_ofNat, BitVec.ofNat_toNat]

/-- The number of lanes in two masks. -/
theorem popN_and (x y : Mask) : popN (x &&& y).toNat 1024 = (List.range 1024).countP fun l => y.getLsbD l && x.getLsbD l := by
  rw [popN_eq_countP]
  refine List.countP_congr fun l _ => ?_
  rw [show (x &&& y).toNat.testBit l = (x &&& y).getLsbD l from rfl, BitVec.getLsbD_and, Bool.and_comm]

end Sys2Proof.Machine

namespace Sys2Proof.Claim
open Sys2Proof Sys2Proof.Machine

/-! ### Predicates (spec/06 R116, R117) -/

/-- What a predicate word leaves: its bits in the lanes of the execute mask; p7 is not written. -/
def PredicateEffect (s t : State) (d : PReg) (f : Nat → Bool) : Prop :=
  (d ≠ 7 → ∀ l, (t.me.p d).getLsbD l = if s.me.em.getLsbD l then f l else (s.me.p d).getLsbD l) ∧
  (d = 7 → ∀ k, t.me.p k = s.me.p k) ∧ WritesOnly s t s.me [.p d.val]

theorem predicate2_effect {s : State} {i : Instr} {d a b : PReg} {n : Bool} {op : Mask → Mask → Mask} {f : Nat → Bool} (h : Passes s i)
    (hv : ∀ r : VReg, i.reads.contains (.v r.val) = false)
    (hf : ∀ l < 1024, f l = (op (s.me.p a) (if n then ~~~(s.me.p b) else s.me.p b)).getLsbD l) :
    ∃ t, predicate2 i d a n b op s = .next t ∧ PredicateEffect s t d f := by
  refine ⟨_, run_of_vReads_nil _ h hv, fun hd l => ?_, fun hd k => ?_, ?_⟩
  · rw [State.advance_eq, Team.advance_p, State.setMe_me, Team.getLsbD_setP_self _ _ _ _ hd]
    by_cases hm : s.me.em.getLsbD l = true
    · rw [if_pos hm, if_pos hm, hf l (lt_of_getLsbD hm)]
    · rw [if_neg hm, if_neg hm]
  · rw [State.advance_eq, Team.advance_p, State.setMe_me, hd, Team.setP_seven]
  · exact writesOnly_advance s ((RegsKept.refl s.me _).setP (by simp) _ _) (Team.setP_eq ..)

/-- B or its complement, lane by lane. -/
theorem getLsbD_complement (x : Mask) (n : Bool) {l : Nat} (hl : l < 1024) : (if n then ~~~x else x : Mask).getLsbD l = (x.getLsbD l ^^ n) := by
  cases n with
  | false => simp
  | true => simp [hl]

theorem exec_of_predicateRule {s : State} {i : Instr} {d : PReg} {f : Nat → Bool} (hr : predicateRule s.me i = some (d, f)) (h : Passes s i) :
    ∃ t, exec i s = .next t ∧ PredicateEffect s t d f := by
  cases i with
  | plogPand d a n b =>
    cases hr
    rw [exec, execPlogPand]
    exact predicate2_effect h (fun _ => rfl) fun l hl => by rw [BitVec.getLsbD_and, getLsbD_complement _ _ hl]
  | plogPor d a n b =>
    cases hr
    rw [exec, execPlogPor]
    exact predicate2_effect h (fun _ => rfl) fun l hl => by rw [BitVec.getLsbD_or, getLsbD_complement _ _ hl]
  | plogPxor d a n b =>
    cases hr
    rw [exec, execPlogPxor]
    exact predicate2_effect h (fun _ => rfl) fun l hl => by rw [BitVec.getLsbD_xor, getLsbD_complement _ _ hl]
  | _ => cases hr

/-! ### Words that write s(D) from masks (spec/06 R113, R119; spec/07 R141) -/

/-- A word that passes its checks and writes a scalar register from the prepared team. -/
theorem run_putS {s : State} {i : Instr} {d : SReg} {x : Team → W64} {y : W64} (h : Passes s i) (hy : x (ready s i) = y) :
    ∃ t, run i s (fun s => s.putS d (x s.me)) = .next t ∧ t.me.s d = y ∧ WritesOnly s t (ready s i) [.s d.val] := by
  refine ⟨_, run_of_check_none _ h, ?_, writesOnly_putS s (ready s i) d _⟩
  rw [State.putS_s, ← hy]
  rfl

theorem vmovRdlane_effect {s : State} {d : SReg} {a : VReg} {g : Guard} (h : Passes s (.vmovRdlane d a g)) {x : W64}
    (hr : maskRule (ready s (.vmovRdlane d a g)) (.vmovRdlane d a g) = some (d, x)) :
    ∃ t, execVmovRdlane d a g s = .next t ∧ t.me.s d = x ∧ WritesOnly s t (ready s (.vmovRdlane d a g)) [.s d.val] := by
  refine ⟨_, run_of_check_none _ h, ?_⟩
  unfold maskRule at hr
  cases hk : lowest (s.me.prepare (.vmovRdlane d a g)) ((s.me.prepare (.vmovRdlane d a g)).eff g) with
  | some k =>
    simp only [hk] at hr
    cases hr
    simp only [State.setMe_me, lowestLane_eq_lowest, hk]
    refine ⟨?_, writesOnly_putS s _ d _⟩
    rw [State.putS_s, BitVec.ofNat_toNat]
    rfl
  | none =>
    simp only [hk] at hr
    cases hr
    simp only [State.setMe_me, lowestLane_eq_lowest, hk]
    exact ⟨by rw [State.advance_eq, Team.advance_s]; rfl, writesOnly_advance s (RegsKept.refl _ _) rfl⟩

theorem exec_of_maskRule {s : State} {i : Instr} {d : SReg} {x : W64} (hr : maskRule (ready s i) i = some (d, x)) (h : Passes s i) :
    ∃ t, exec i s = .next t ∧ t.me.s d = x ∧ WritesOnly s t (ready s i) [.s d.val] := by
  cases i with
  | vmovRdlane d a g =>
    cases hr
    rw [exec]
    exact vmovRdlane_effect h rfl
  | plogPmovs d a w =>
    cases hr
    rw [exec, execPlogPmovs]
    exact (run_putS (x := fun u => (maskWord (u.p a &&& u.em) w.val).setWidth 64) h (setWidth_maskWord _ _) :)
  | plogPbal d a =>
    cases hr
    rw [exec, execPlogPbal]
    exact (run_putS (x := fun u => BitVec.ofNat 64 (popN (u.p a &&& u.em).toNat 1024)) h (congrArg _ (popN_and _ _)) :)
  | plogEmr d w =>
    cases hr
    rw [exec, execPlogEmr]
    exact (run_putS (x := fun u => if w = 63 then (u.summary u.em).setWidth 64 else (maskWord u.em w.val).setWidth 64) h
      (by rw [setWidth_summary, setWidth_maskWord]) :)
  | domnDget d a =>
    cases hr
    rw [exec, execDomnDget]
    exact (run_putS (x := fun u => (u.tag a).setWidth 64) h (BitVec.ofNat_toNat _ _).symm :)
  | _ => cases hr

/-! ### The execute mask and a domain tag (spec/06 R118; spec/07 R141) -/

/-- A team with the execute mask that `plog.emw` leaves. -/
def narrowed (u : Team) (a : PReg) : Team := u.updCtl fun c => { c with em := u.em &&& u.p a }

theorem execPlogEmw_eq {s : State} {a : PReg} (h : Passes s (.plogEmw a)) :
    execPlogEmw a s = .next { s with me := (narrowed s.me a).advance } := run_of_vReads_nil _ h fun _ => rfl

/-- A word that reads coefficients reconstructs nothing. -/
theorem prepare_of_readsCoeffs {u : Team} {i : Instr} (h : u.readsCoeffs i = true) : u.prepare i = u := if_pos (.inr h)

/-- A team with D's tag as `domn.dtag` leaves it. -/
def tagged (u : Team) (d : VReg) (k : Fin 8) : Team := if u.em = 0 then u else u.setTag d (BitVec.ofNat 4 k.val)

theorem execDomnDtag_eq {s : State} {d : VReg} {k : Fin 8} (h : Passes s (.domnDtag d k)) :
    execDomnDtag d k s = .next { s with me := (tagged s.me d k).advance } := run_of_prepare_eq _ h (prepare_of_readsCoeffs rfl)

theorem writesOnly_tagged (s : State) (d : VReg) (k : Fin 8) :
    WritesOnly s { s with me := (tagged s.me d k).advance } s.me [.v d.val] := by
  refine writesOnly_advance s ?_ ?_
  · unfold tagged
    split
    · exact RegsKept.refl s.me _
    · exact RegsKept.setTag s.me d _
  · unfold tagged
    split <;> rfl

/-- Settles O7: predicates in the lanes of the execute mask, s(D) from the words of a mask, the mask narrowed, the tag set. -/
theorem predicateAndMaskWords : Obligations.PredicateAndMaskWords := by
  unfold Obligations.PredicateAndMaskWords
  refine ⟨⟨fun s i d f => exec_of_predicateRule, fun s i d x => exec_of_maskRule⟩,
    fun s a h => ⟨_, execPlogEmw_eq h, ?_⟩, fun s d k h => ⟨_, execDomnDtag_eq h, ?_, ?_, writesOnly_tagged s d k⟩⟩
  · exact ⟨rfl, Team.advance_pos _, Team.advance_ctl (narrowed s.me a), (RegsKept.refl s.me _).of_regs (Team.advance_regs _),
      Team.advance_flow (narrowed s.me a), Team.advance_id _, Team.advance_place _, Team.advance_sch _⟩
  · rw [Team.advance_tag]
    unfold tagged
    split
    · rfl
    · rw [Team.setTag_tag_self]
  · rw [Team.advance_v]
    unfold tagged
    split <;> rfl

end Sys2Proof.Claim
end

section
/-!
PROOFS. MISC words (spec/06 R103): `nop`, `yield`, `brk` and `trap`.
-/
namespace Sys2Proof.Machine
open Sys2Proof

/-! ### One core's record -/

@[simp] theorem State.updCore_core_self (s : State) (c : Nat) (f : Core → Core) : (s.updCore c f).core c = f (s.core c) := by
  simp [State.core]

theorem State.updCore_core_ne (s : State) {c d : Nat} (f : Core → Core) (h : d % 256 ≠ c % 256) : (s.updCore c f).core d = s.core d := by
  simp only [State.core, State.updCore_cores]
  exact Vector.getElem_set_ne _ _ (Ne.symm h)

end Sys2Proof.Machine

namespace Sys2Proof.Claim
open Sys2Proof Sys2Proof.Machine

/-- A word that goes on and writes nothing. -/
theorem writesOnly_advance_nothing (s : State) : WritesOnly s s.advance s.me [] := writesOnly_advance s (RegsKept.refl s.me []) rfl

theorem miscYield_effect {s : State} (h : Passes s .miscYield) : ∃ t, execMiscYield s = .next t ∧
    t.me.sch = { s.me.sch with last := s.coreCyc s.me.core } ∧ OnlyMe s t ∧ (t.me.ctl.pc, t.me.ctl.word) = nextPos s.me ∧
    RegsKept s.me t.me [] ∧ CtlKept s.me t.me ∧ FlowKept s.me t.me ∧ t.me.id = s.me.id ∧ t.me.place = s.me.place :=
  ⟨_, run_of_vReads_nil _ h fun _ => rfl, Team.advance_sch _, rfl, Team.advance_pos _,
    (RegsKept.refl s.me _).of_regs (Team.advance_regs _), Team.advance_ctl { s.me with sch := _ }, Team.advance_flow { s.me with sch := _ },
    Team.advance_id _, Team.advance_place _⟩

theorem miscBrk_effect {s : State} (h : Passes s .miscBrk) : ∃ t, execMiscBrk s = .next t ∧
    (s.brken = false → WritesOnly s t s.me []) ∧
    (s.brken = true → WritesOnly s { t with cores := s.cores } s.me [] ∧ (∀ c, c % 256 ≠ s.me.core % 256 → t.core c = s.core c) ∧
      t.core s.me.core = { s.core s.me.core with
        dbg := if (s.core s.me.core).dbg = .running then .haltedBusy else (s.core s.me.core).dbg }) := by
  refine ⟨_, run_of_vReads_nil _ h fun _ => rfl, fun hb => ?_, fun hb => ?_⟩
  · rw [hb, if_neg Bool.false_ne_true]
    exact writesOnly_advance_nothing s
  · rw [hb, if_pos rfl]
    refine ⟨writesOnly_advance_nothing s, fun c hc => State.updCore_core_ne _ _ hc, ?_⟩
    refine (State.updCore_core_self s.advance s.me.core _).trans ?_
    change (if (s.core s.me.core).dbg = .running then _ else s.core s.me.core) = _
    split <;> rfl

theorem miscTrap_effect {s : State} {k : BitVec 12} (h : Passes s (.miscTrap k)) (hcan : CanEnter s 9) :
    ∃ t, execMiscTrap k s = .next t ∧ Entered s t ⟨⟨9, k.toNat, 0, false, 0⟩, s.me.ctl.pc, s.me.ctl.word, 0, false⟩ :=
  ⟨_, run_of_vReads_nil _ h fun _ => rfl, State.raise_enters (p := ⟨⟨9, k.toNat, 0, false, 0⟩, _, _, _, _⟩) hcan⟩

/-- Settles O16: each word goes on, `brk` halts the core where breaks are enabled, and `trap` enters the handler of class 9. -/
theorem miscWordsComplete : Obligations.MiscWordsComplete := by
  unfold Obligations.MiscWordsComplete
  exact ⟨⟨fun s h => ⟨_, (run_of_vReads_nil _ h fun _ => rfl : execMiscNop s = _), writesOnly_advance_nothing s⟩,
    fun s => miscYield_effect, fun s => miscBrk_effect⟩, fun s k => miscTrap_effect⟩

end Sys2Proof.Claim
end

section
/-!
PROOFS. The end of a team (spec/06 R103; spec/12 R201; spec/22 R323): what work at home leaves unchanged, a sector lost, the gang's barrier tested,
`misc.exit`.
-/
namespace Sys2Proof.Machine
open Sys2Proof Claim

/-! ### Work at home: stores, signals, reports -/

/-- Beside memory, poison, the waits and the signals that watch it, and the rings of the host, everything is as it was. -/
def HomeWork (s t : State) : Prop :=
  ∃ mem poison sigq waits io, t = { s with mem := mem, poison := poison, sigq := sigq, waits := waits, io := io }

theorem HomeWork.refl (s : State) : HomeWork s s := ⟨_, _, _, _, _, rfl⟩

theorem HomeWork.trans {s t u : State} (h : HomeWork s t) (h' : HomeWork t u) : HomeWork s u := by
  obtain ⟨_, _, _, _, _, rfl⟩ := h
  obtain ⟨_, _, _, _, _, rfl⟩ := h'
  exact ⟨_, _, _, _, _, rfl⟩

theorem State.perform_homeWork (s : State) (bs : List (Nat × Byte)) : HomeWork s (s.perform bs) := ⟨_, _, _, _, _, rfl⟩

theorem State.logWrite_homeWork {s t : State} {bs : List Byte} (h : s.logWrite bs = some t) : HomeWork s t := by
  unfold State.logWrite at h
  split at h
  · simp at h
  · obtain rfl := Option.some.inj h
    exact ⟨_, _, _, _, _, rfl⟩

theorem State.flushLogN_homeWork (n : Nat) (s : State) : HomeWork s (s.flushLogN n) := by
  induction n generalizing s with
  | zero => exact .refl s
  | succ n ih =>
    unfold State.flushLogN
    split
    · split
      · next h => exact (State.logWrite_homeWork h).trans (HomeWork.trans ⟨_, _, _, _, _, rfl⟩ (ih _))
      · exact .refl s
    · exact .refl s

theorem State.post_homeWork (s : State) (r : Report) : HomeWork s (s.post r) := by
  unfold State.post
  split
  · exact HomeWork.trans ⟨_, _, _, _, _, rfl⟩ (State.flushLogN_homeWork _ _)
  · exact ⟨_, _, _, _, _, rfl⟩

theorem State.report_homeWork (s : State) (kind unit index ctx gen detail addr : Nat) :
    HomeWork s (s.report kind unit index ctx gen detail addr) := s.post_homeWork _

theorem State.poisonReport_homeWork (s : State) (ctx gen va a : Nat) : HomeWork s (s.poisonReport ctx gen va a) := by
  unfold State.poisonReport
  split
  · exact s.report_homeWork ..
  · exact s.report_homeWork ..

theorem State.homeAtomic_homeWork (s : State) (ctx gen va a n : Nat) (f : Nat → Nat) : HomeWork s (s.homeAtomic ctx gen va a n f).2 := by
  unfold State.homeAtomic
  split
  · exact s.poisonReport_homeWork ..
  · exact s.perform_homeWork _

theorem State.signalAdd_homeWork (s : State) (ctx gen : Nat) (va : W80) (x : W64) (mark : Bool) :
    HomeWork s (s.signalAdd ctx gen va x mark) := by
  unfold State.signalAdd
  split
  · split
    · exact ⟨_, _, _, _, _, rfl⟩
    · exact s.homeAtomic_homeWork ..
  · exact s.report_homeWork ..

theorem State.errsig_homeWork (s : State) (q : Nat) : HomeWork s (s.errsig q) := by
  unfold State.errsig
  split
  · exact s.signalAdd_homeWork ..
  · exact .refl s

/-- A sector lost leaves the dirty sectors of the other places, beside work at home. -/
theorem State.lose_homeWork (s : State) (d : Dirty) : HomeWork (s.dropDirty d) (s.lose d) := by
  unfold State.lose
  refine HomeWork.trans ?_ (State.report_homeWork ..)
  split
  · exact State.errsig_homeWork ..
  · exact .refl _

/-- Beside the dirty sectors and work at home everything is as it was. -/
def LossWork (s t : State) : Prop := ∃ dirty, HomeWork { s with dirty := dirty } t

theorem State.lose_lossWork (s : State) (d : Dirty) : LossWork s (s.lose d) := ⟨_, s.lose_homeWork d⟩

theorem LossWork.trans {s t u : State} (h : LossWork s t) (h' : LossWork t u) : LossWork s u := by
  obtain ⟨_, _, _, _, _, _, rfl⟩ := h
  obtain ⟨_, _, _, _, _, _, rfl⟩ := h'
  exact ⟨_, _, _, _, _, _, rfl⟩

theorem State.foldl_lose_lossWork (s : State) (ds : List Dirty) : LossWork s (ds.foldl State.lose s) :=
  foldl_keeps (P := LossWork s) (fun t d ht => ht.trans (t.lose_lossWork d)) ds ⟨_, .refl s⟩

/-! ### The gang's barrier (spec/15 R266) -/

theorem State.acquireAll_eq (s : State) (ts : List Team) : ∃ clean edits, s.acquireAll ts = { s with clean := clean, edits := edits } := by
  refine foldl_keeps (P := fun t : State => ∃ clean edits, t = { s with clean := clean, edits := edits }) (fun t u ht => ?_) ts ⟨_, _, rfl⟩
  obtain ⟨_, _, rfl⟩ := ht
  split
  · split
    · exact ⟨_, _, rfl⟩
    · exact ⟨_, _, rfl⟩
  · exact ⟨_, _, rfl⟩

/-- Beside the clean copies and edits that an acquire forgets, the other teams and the gangs, everything is as it was. -/
def BarrierWork (s t : State) : Prop := ∃ clean edits teams gangs, t = { s with clean := clean, edits := edits, teams := teams, gangs := gangs }

/-- The barrier tested once the team in issue has ended leaves that team. -/
theorem State.gangCheck_barrierWork {s : State} (h : s.me.ended = true) (g : Nat) : BarrierWork s (s.gangCheck g) := by
  unfold State.gangCheck
  obtain ⟨_, _, ha⟩ := s.acquireAll_eq (s.gangLive g)
  simp only [ha, h, not_true_eq_false, and_false, if_false]
  split
  · exact ⟨_, _, _, _, rfl⟩
  · exact ⟨_, _, _, _, rfl⟩

/-! ### The end of the team in issue (spec/12 R201) -/

/-- The team in issue ended with its waits left, before its gang's barrier is tested. -/
def State.endedMe (s : State) : State :=
  (((s.pinnedOf s.me.id.tid).foldl State.lose s).unbindRings s.me.id.tid).updTeam s.me.id.tid Team.stop

theorem State.endedMe_me (s : State) : s.endedMe.me = s.me.stop := by
  obtain ⟨_, _, _, _, _, _, hl⟩ := s.foldl_lose_lossWork (s.pinnedOf s.me.id.tid)
  rw [State.endedMe, hl]
  exact if_pos rfl

theorem State.endTeam_me (s : State) : BarrierWork s.endedMe (s.endTeam s.me.id.tid false) := by
  have hend : s.endedMe.me.ended = true := by
    rw [State.endedMe_me]
    rfl
  unfold State.endTeam
  simp only [State.team?_me, Bool.false_eq_true, if_false]
  split
  · exact State.gangCheck_barrierWork hend _
  · exact ⟨_, _, _, _, rfl⟩

/-- The rings of the team in issue are to be unbound once it has ended. -/
theorem State.endedMe_rings {s : State} {r : Ring} (h : r ∈ s.endedMe.rings) (ht : r.tid = s.me.id.tid) : r.unbind = true := by
  obtain ⟨r0, _, rfl⟩ := List.mem_map.1 h
  by_cases h0 : r0.tid = s.me.id.tid
  · rw [if_pos h0]
  · rw [if_neg h0] at ht
    exact absurd ht h0

/-- With no sector pinned, nothing is stored. -/
theorem State.endedMe_mem {s : State} (h : s.pinnedOf s.me.id.tid = []) : s.endedMe.mem = s.mem := by
  rw [State.endedMe, h]
  rfl

/-- With one sector pinned, that sector is lost. -/
theorem State.endedMe_of_pinned {s : State} {x : Dirty} (h : s.pinnedOf s.me.id.tid = [x]) (hq : x.queue = none) :
    (∀ y ∈ s.endedMe.dirty, y.core = x.core → y.key ≠ x.key) ∧
      s.endedMe.io = ((s.dropDirty x).report 9 0 x.core x.ctx x.gen 0 x.va.toNat).io := by
  have hd : s.endedMe.dirty = (s.lose x).dirty := by rw [State.endedMe, h]; rfl
  obtain ⟨_, _, _, _, _, hl⟩ := s.lose_homeWork x
  refine ⟨fun y hy hc hk => ?_, ?_⟩
  · rw [hd, hl] at hy
    have := (List.mem_filter.1 hy).2
    simp [hc, hk] at this
  · rw [State.endedMe, h]
    simp only [List.foldl_cons, List.foldl_nil, State.lose, hq]
    rfl

end Sys2Proof.Machine

namespace Sys2Proof.Claim
open Sys2Proof Sys2Proof.Machine

/-- A team whose loads are discarded keeps its operations, but for the results of its loads. -/
theorem discardLoads_ops (u : Team) : (∀ o ∈ u.discardLoads.flow.ops, o.cls = .ld → o.writes = []) ∧
    u.discardLoads.flow.ops.map (·.id) = u.flow.ops.map (·.id) := by
  refine ⟨fun o ho hc => ?_, ?_⟩
  · obtain ⟨p, _, rfl⟩ := List.mem_map.1 ho
    by_cases hp : p.cls = .ld
    · rw [if_pos hp]
    · rw [if_neg hp] at hc
      exact absurd hc hp
  · refine List.map_map.trans (List.map_congr_left fun p _ => ?_)
    by_cases hp : p.cls = .ld <;> simp [hp]

theorem execMiscExit_eq {s : State} (h : Passes s .miscExit) (hp : s.me.id.pool = none) :
    execMiscExit s = .next ((s.setMe Team.discardLoads).endTeam s.me.id.tid false) := by
  refine (run_of_vReads_nil _ h fun _ => rfl).trans ?_
  have hpool : (s.setMe Team.discardLoads).me.id.pool.isSome = false := by
    show s.me.id.pool.isSome = false
    rw [hp]
    rfl
  simp only [hpool, Bool.false_eq_true, if_false]
  rfl

/-- Settles O9: the team is stopped with its loads discarded, its pinned sectors are lost, its rings unbound. -/
theorem exitEndsTheTeam : Obligations.ExitEndsTheTeam := by
  unfold Obligations.ExitEndsTheTeam
  intro s h hp
  obtain ⟨hw, hids⟩ := discardLoads_ops s.me
  obtain ⟨_, _, _, _, he⟩ := (s.setMe Team.discardLoads).endTeam_me
  have hme : (s.setMe Team.discardLoads).endedMe.me = s.me.discardLoads.stop := State.endedMe_me _
  refine ⟨_, (execMiscExit_eq h hp : exec .miscExit s = _), ?_⟩
  rw [show (s.setMe Team.discardLoads).endTeam s.me.id.tid false = _ from he]
  simp only [hme]
  refine ⟨rfl, rfl, rfl, ⟨rfl, rfl, rfl⟩, hw, hids, fun r hr => State.endedMe_rings (s := s.setMe Team.discardLoads) hr, fun hn a => ?_, fun x hx hq hc => ?_⟩
  · exact congrArg (readCell · a) (State.endedMe_mem hn)
  · obtain ⟨hd, hio⟩ := State.endedMe_of_pinned (s := s.setMe Team.discardLoads) hx hq
    refine ⟨hd, fun hl hroom => ?_⟩
    have hheld := ((s.setMe Team.discardLoads).dropDirty x).report_held 9 0 x.core x.ctx x.gen 0 x.va.toNat hl hroom
    exact ⟨_, (congrArg Rings.held hio).trans hheld, rfl, rfl, hc⟩

end Sys2Proof.Claim
end

section
/-!
PROOFS. Events of teams (spec/06 R103; spec/08 R155; spec/12 R201, R207, R208, R211, R215): a team by identifier after one has changed or gone, the
last team of a gang, what a store at home leaves at its keys, a team read back from its record.
-/
namespace Sys2Proof.Machine
open Sys2Proof Claim

/-! ### Teams by identifier -/

theorem State.team?_tid {s : State} {tid : Nat} {u : Team} (h : s.team? tid = some u) : u.id.tid = tid := by
  simpa using List.find?_some h

theorem State.team?_updTeam (s : State) (tid n : Nat) {f : Team → Team} (hf : ∀ t, (f t).id = t.id) :
    (s.updTeam tid f).team? n = (s.team? n).map fun t => if t.id.tid = tid then f t else t := by
  have hid (t : Team) : (if t.id.tid = tid then f t else t).id = t.id := by split_ifs; exacts [hf t, rfl]
  have hall : (s.updTeam tid f).all = s.all.map fun t => if t.id.tid = tid then f t else t := rfl
  rw [State.team?, hall, List.find?_map]
  exact congrArg (Option.map _) (List.find?_congr fun t _ => by simp only [Function.comp, hid])

theorem State.team?_updTeam_same {s : State} {tid : Nat} {u : Team} {f : Team → Team} (hf : ∀ t, (f t).id = t.id)
    (h : s.team? tid = some u) : (s.updTeam tid f).team? tid = some (f u) := by
  rw [s.team?_updTeam tid tid hf, h, Option.map_some, if_pos (State.team?_tid h)]

theorem State.team?_updTeam_ne (s : State) {tid n : Nat} {f : Team → Team} (hf : ∀ t, (f t).id = t.id) (h : n ≠ tid) :
    (s.updTeam tid f).team? n = s.team? n := by
  rw [s.team?_updTeam tid n hf]
  cases hn : s.team? n with
  | none => rfl
  | some v => rw [Option.map_some, if_neg (State.team?_tid hn ▸ h)]

/-! ### The slot of an ended team (spec/06 R103, spec/12 R201) -/

/-- A state with no team of an identifier: no team in issue stands for the one that held it. -/
def State.withoutTeam (s : State) (tid : Nat) : State :=
  { s with me := if s.me.id.tid = tid then .absent else s.me, teams := s.teams.filter (·.id.tid != tid) }

/-- The teams that stay: those of other identifiers, and the stand-in for the team in issue. -/
theorem State.mem_withoutTeam {s : State} {tid : Nat} {v : Team} :
    v ∈ (s.withoutTeam tid).all ↔ (v ∈ s.all ∧ v.id.tid ≠ tid) ∨ (s.me.id.tid = tid ∧ v = .absent) := by
  by_cases h : s.me.id.tid = tid
  · have hme : v = s.me → v.id.tid = tid := fun hv => hv ▸ h
    simp only [State.all, State.withoutTeam, List.mem_cons, List.mem_filter, bne_iff_ne, h, true_and]
    tauto
  · have hme : v = s.me → v.id.tid ≠ tid := fun hv => hv ▸ h
    simp only [State.all, State.withoutTeam, List.mem_cons, List.mem_filter, bne_iff_ne, h, false_and, or_false]
    tauto

theorem State.team?_withoutTeam_same (s : State) {tid : Nat} (h : tid ≠ 0) : (s.withoutTeam tid).team? tid = none := by
  refine List.find?_eq_none.2 fun v hv => ?_
  rcases State.mem_withoutTeam.1 hv with ⟨_, hne⟩ | ⟨_, rfl⟩
  · simpa using hne
  · exact mt beq_iff_eq.1 h.symm

theorem State.team?_withoutTeam_ne (s : State) {tid n : Nat} (h0 : n ≠ 0) (hn : n ≠ tid) : (s.withoutTeam tid).team? n = s.team? n := by
  have hteams : (s.teams.filter (·.id.tid != tid)).find? (·.id.tid == n) = s.teams.find? (·.id.tid == n) := by
    rw [List.find?_filter]
    refine List.find?_congr fun v _ => ?_
    by_cases hv : v.id.tid = n
    · simp [hv, hn]
    · simp [hv]
  simp only [State.team?, State.all, State.withoutTeam, List.find?_cons, hteams]
  by_cases h : s.me.id.tid = tid
  · rw [if_pos h, show (Team.absent.id.tid == n) = false from beq_false_of_ne h0.symm, h, beq_false_of_ne hn.symm]
  · rw [if_neg h]

section
variable {s : State} {tid : Nat} {u : Team}

theorem State.releaseSlot_of_outstanding (h : s.team? tid = some u) (hn : u.ended = false ∨ u.quiet = false ∨ u.flow.ops ≠ []) :
    s.releaseSlot tid = s := by
  have hno : ¬ (u.ended = true ∧ u.quiet = true ∧ u.flow.ops = []) := by
    rintro ⟨he, hq, ho⟩
    rcases hn with h | h | h
    · simp [he] at h
    · simp [hq] at h
    · exact h ho
  simp only [State.releaseSlot, h]
  exact if_neg hno

variable (h : s.team? tid = some u) (he : u.ended = true) (hq : u.quiet = true) (ho : u.flow.ops = [])
include h he hq ho

/-- A team of no bundle, of a handler pool, or with another team of its sub-launch left frees its slot and nothing else. -/
theorem State.releaseSlot_of_others (hv : (∃ v ∈ s.all, v.id.tid ≠ tid ∧ v.id.bundle = u.id.bundle ∧ v.id.sub = u.id.sub ∧
    v.id.pool = none) ∨ u.id.bundle = none ∨ u.id.pool ≠ none) : s.releaseSlot tid = s.withoutTeam tid := by
  simp only [State.releaseSlot, h]
  rw [if_pos ⟨he, hq, ho⟩]
  cases hb : u.id.bundle with
  | none => rfl
  | some b =>
    cases hp : u.id.pool with
    | some p => rfl
    | none =>
      obtain ⟨v, hmem, hne, hvb, hvs, hvp⟩ := hv.resolve_right (by simp [hb, hp])
      refine if_pos (List.any_eq_true.2 ⟨v, State.mem_withoutTeam.2 (.inl ⟨hmem, hne⟩), ?_⟩)
      simp [hvb, hb, hvs, hvp]

/-- The last team of a sub-launch frees its slot and retires the sub-launch. -/
theorem State.releaseSlot_of_last {b : Nat} (hb : u.id.bundle = some b) (hp : u.id.pool = none)
    (hv : ∀ v ∈ s.all, v.id.tid ≠ tid → v.id.bundle = some b → v.id.sub = u.id.sub → v.id.pool ≠ none) :
    s.releaseSlot tid = (s.withoutTeam tid).subDone b u.id.sub false := by
  simp only [State.releaseSlot, h]
  rw [if_pos ⟨he, hq, ho⟩]
  simp only [hb, hp]
  refine if_neg fun hany => ?_
  obtain ⟨v, hmem, hv'⟩ := List.any_eq_true.1 hany
  simp only [Bool.and_eq_true, beq_iff_eq, Option.isNone_iff_eq_none] at hv'
  obtain ⟨⟨hvb, hvs⟩, hvp⟩ := hv'
  rcases State.mem_withoutTeam.1 hmem with ⟨hmem, hne⟩ | ⟨_, rfl⟩
  · exact hv v hmem hne hvb hvs hvp
  · cases hvb

end

/-! ### Sub-launches (spec/14 R244) -/

theorem State.bundle?_id {s : State} {b : Nat} {x : Bundle} (h : s.bundle? b = some x) : x.id = b := by
  simpa using List.find?_some h

theorem State.bundle?_updBundle {s : State} {b : Nat} {x : Bundle} {f : Bundle → Bundle} (hf : ∀ y, (f y).id = y.id) (h : s.bundle? b = some x) :
    (s.updBundle b f).bundle? b = some (f x) := by
  have hid (y : Bundle) : (if y.id = b then f y else y).id = y.id := by split_ifs; exacts [hf y, rfl]
  have hfind : (s.updBundle b f).bundle? b = (s.bundle? b).map fun y => if y.id = b then f y else y := by
    rw [State.bundle?, State.updBundle, List.find?_map]
    exact congrArg (Option.map _) (List.find?_congr fun y _ => by simp only [Function.comp, hid])
  rw [hfind, h, Option.map_some, if_pos (State.bundle?_id h)]

/-- A sub-launch of a list marked as retired. -/
def retireSub (subs : List Sub) (i : Nat) (abort : Bool) : List Sub :=
  subs.zipIdx.map fun (x, j) => if j = i then { x with done := true, aborted := x.aborted || abort } else x

theorem retireSub_getElem? (subs : List Sub) (i : Nat) (abort : Bool) (j : Nat) : (retireSub subs i abort)[j]? =
    subs[j]?.map fun x => if j = i then { x with done := true, aborted := x.aborted || abort } else x := by
  simp only [retireSub, List.getElem?_map, List.getElem?_zipIdx, Option.map_map, Function.comp_def, Nat.zero_add]

/-- With another sub-launch not retired, the bundle stays. -/
theorem State.subDone_of_other {s : State} {b i : Nat} {abort : Bool} {x : Bundle} (h : s.bundle? b = some x) {j : Nat} {z : Sub}
    (hz : x.subs[j]? = some z) (hj : j ≠ i) (hk : z.rec_.kind ≠ 2) (hd : z.done = false) :
    s.subDone b i abort = s.updBundle b fun y => { y with subs := retireSub y.subs i abort } := by
  have hb : (s.updBundle b fun y => { y with subs := retireSub y.subs i abort }).bundle? b = some { x with subs := retireSub x.subs i abort } :=
    State.bundle?_updBundle (fun _ => rfl) h
  show State.bundleCheck (s.updBundle b fun y => { y with subs := retireSub y.subs i abort }) b = _
  simp only [State.bundleCheck, hb]
  refine if_neg fun hall => ?_
  have hmem : z ∈ retireSub x.subs i abort := List.mem_of_getElem? ((retireSub_getElem? x.subs i abort j).trans (by rw [hz, Option.map_some, if_neg hj]))
  have := List.all_eq_true.1 hall.2 z hmem
  simp [hk, hd] at this

/-! ### Regathering (spec/12 R207, R208) -/

theorem wordsOf_eq (m : Mask) : wordsOf m = wordsUsed m := by
  rw [wordsOf, wordsUsed, List.countP_eq_length_filter]
  refine congrArg List.length (List.filter_congr fun w _ => ?_)
  rw [← toNat_maskWord, bne, bne, Bool.not_inj_iff, Bool.eq_iff_iff, beq_iff_eq, beq_iff_eq, BitVec.toNat_eq]
  rfl

theorem bitsIn_eq (m : Mask) : bitsIn m = lanesUsed m := List.countP_eq_length_filter.symm

/-- A team whose lanes return when its innermost RECONV frame is popped. -/
def Team.regathered (t : Team) : Team :=
  { t with flow := { t.flow with regath := some (t.ctl.level, (t.ctl.stack.dropWhile (·.sibling)).length) } }

theorem reconvDepth_eq (fs : List Frame) : reconvDepth fs = (fs.dropWhile (·.sibling)).length := by
  induction fs with
  | nil => rfl
  | cons f fs ih => by_cases hf : f.sibling <;> simp [reconvDepth, hf, ih]

/-- What the model tests of a team before its lanes move, in the terms of the rule. -/
theorem Team.regatherable_iff (t : Team) : t.regatherable = true ↔ t.placed = true ∧ t.isAgent = false ∧ t.ended = false ∧ t.ctl.stack ≠ [] ∧
    2 * ((lanesUsed t.ctl.em + 31) / 32) ≤ wordsUsed t.ctl.em ∧ t.quiet = true ∧ t.flow.hold ≠ .xfrm ∧ t.flow.group.open_ = false ∧
    t.flow.rebuild = [] ∧ t.parked = false := by
  simp only [Team.regatherable, wordsOf_eq, bitsIn_eq, Bool.and_eq_true, Bool.not_eq_true', decide_eq_true_eq, bne_iff_ne, beq_iff_eq, ne_eq, and_assoc]

/-! ### Stores at home (spec/08 R149, R155) -/

theorem splitSectors_flatten (bs : List (Nat × Byte)) : (splitSectors bs).flatten = bs := by
  induction bs with
  | nil => rfl
  | cons c t ih =>
    obtain ⟨a, x⟩ := c
    unfold splitSectors
    split
    · next h => simpa [h] using ih
    · next h => simpa [h] using ih
    · next h =>
      rw [h] at ih
      split_ifs
      · simpa using ih
      · simpa using ih

theorem writePairs_append (m : List Host.Cell) (xs ys : List (Nat × Byte)) : writePairs m (xs ++ ys) = writePairs (writePairs m xs) ys := by
  induction xs generalizing m with
  | nil => rfl
  | cons c t ih => exact ih _

/-- Bytes performed at home: beside memory and what the waits have seen of it, everything is as it was. -/
def Performed (s t : State) (bs : List (Nat × Byte)) : Prop := ∃ waits, t = { s with mem := writePairs s.mem bs, waits := waits }

theorem Performed.append {s t u : State} {xs ys : List (Nat × Byte)} (h : Performed s t xs) (h' : Performed t u ys) : Performed s u (xs ++ ys) := by
  obtain ⟨_, rfl⟩ := h
  obtain ⟨w, rfl⟩ := h'
  exact ⟨w, by rw [writePairs_append]⟩

theorem Performed.poisoned {s t : State} {bs : List (Nat × Byte)} (h : Performed s t bs) (k : Nat) : t.poisoned k = s.poisoned k := by
  obtain ⟨_, rfl⟩ := h
  rfl

/-- A store of bytes that are not poisoned, in one sector, is performed. -/
theorem State.storeSector_of_sound {s : State} {g : List (Nat × Byte)} (hs : ∀ x ∈ g, s.poisoned x.1 = false) (ctx gen va : Nat) :
    Performed s (s.storeSector ctx gen va g) g := by
  cases g with
  | nil => exact ⟨_, rfl⟩
  | cons c t =>
    have hp := hs c (by simp)
    have hl : (s.linkDown c.1).isSome = false := by
      rw [State.poisoned, Bool.or_eq_false_iff] at hp
      exact hp.2
    simp only [State.storeSector, hl, hp, Bool.false_eq_true, if_false]
    exact ⟨_, rfl⟩

theorem State.foldl_storeSector_of_sound {gs : List (List (Nat × Byte))} {s : State} (hs : ∀ g ∈ gs, ∀ x ∈ g, s.poisoned x.1 = false)
    (ctx gen : Nat) (va : List (Nat × Byte) → Nat) : Performed s (gs.foldl (fun s g => s.storeSector ctx gen (va g) g) s) gs.flatten := by
  induction gs generalizing s with
  | nil => exact ⟨_, rfl⟩
  | cons g gs ih =>
    have h := s.storeSector_of_sound (hs g (by simp)) ctx gen (va g)
    exact h.append (ih fun g' hg x hx => (h.poisoned x.1).trans (hs g' (List.mem_cons_of_mem _ hg) x hx))

/-- A store at home of bytes that are not poisoned is performed. -/
theorem State.homeStore_of_sound {s : State} {bs : List (Nat × Byte)} (hs : ∀ x ∈ bs, s.poisoned x.1 = false) (ctx gen va : Nat) :
    Performed s (s.homeStore ctx gen va bs) bs := by
  cases bs with
  | nil => exact ⟨_, rfl⟩
  | cons c t =>
    have h := State.foldl_storeSector_of_sound (gs := splitSectors (c :: t)) (s := s)
      (fun g hg x hx => hs x (splitSectors_flatten (c :: t) ▸ List.mem_flatten.2 ⟨g, hg, hx⟩)) ctx gen
      fun g => va + ((g.headD (c.1, 0)).1 - c.1)
    rwa [splitSectors_flatten] at h

/-! ### Write-backs (spec/08 R155) -/

/-- A sector of a core dropped is no longer dirty there. -/
theorem State.dirtyAt_dropDirty {s : State} {core key : Nat} {d : Dirty} (h : s.dirtyAt core key = some d) :
    (s.dropDirty d).dirtyAt core key = none := by
  have hd := List.find?_some h
  refine List.find?_eq_none.2 fun x hx hxk => ?_
  have hne := (List.mem_filter.1 hx).2
  simp only [Bool.and_eq_true, beq_iff_eq] at hd hxk
  simp [hd, hxk] at hne

/-- The bytes of a dirty sector at the place that its address names. -/
def Dirty.at_ (d : Dirty) (home : Nat) : List (Nat × Byte) := d.bytes.map fun (k, b) => (home + k % 32, b)

/-- A write-back whose address can be stored to writes the sector's bytes and drops it. -/
theorem State.writeBack_of_ok {s s1 : State} {d : Dirty} {home loc : Nat} (hc : d.ctx ≠ noCtx)
    (ht : s.translate (d.core / 8) d.ctx d.gen .store d.va.toNat = (.ok home loc, s1)) (hs : Sound s home 32) (byRel : Bool) :
    (s.writeBack d byRel).1.dirty = (s.dropDirty d).dirty ∧ (s.writeBack d byRel).1.mem = writePairs s.mem (d.at_ home) := by
  have hk := s.translate_fetchKept (d.core / 8) d.ctx d.gen .store d.va.toNat
  simp only [State.writeBack, if_neg hc, ht] at hk ⊢
  have hsound : ∀ x ∈ d.at_ home, ((s1.dropDirty d).dropClean d.core d.key).poisoned x.1 = false := by
    obtain ⟨_, _, _, _, rfl⟩ := hk
    intro x hx
    obtain ⟨y, _, rfl⟩ := List.mem_map.1 hx
    exact hs _ (Nat.mod_lt _ (by decide))
  obtain ⟨_, h⟩ := State.homeStore_of_sound hsound d.ctx d.gen (d.va.toNat + (d.bytes.headD (0, 0)).1 % 32)
  rw [show (d.bytes.map fun (k, b) => (home + k % 32, b)) = d.at_ home from rfl, h]
  obtain ⟨_, _, _, _, rfl⟩ := hk
  exact ⟨rfl, rfl⟩

/-! ### A team read back from its record (spec/23 R335, R336) -/

/-- A team with a place and the counts of its scheduler. -/
def Team.onSlot (t : Team) (p : Place) (x : Sched) : Team := { t with place := p, sch := x }

theorem leNat_lt (bs : List Byte) : leNat bs < 256 ^ bs.length := by
  induction bs with
  | nil => exact Nat.one_pos
  | cons b t ih =>
    have hb := b.isLt
    rw [leNat, List.length_cons, Nat.pow_succ]
    omega

theorem fieldAt_lt (b : List Byte) (off n : Nat) : fieldAt b off n < 256 ^ n :=
  (leNat_lt _).trans_le (Nat.pow_le_pow_right (by decide) (List.length_take_le ..))

/-- A number of 32-bit words, the lowest first. -/
def ofWords (f : Nat → Nat) (m : Nat) : Nat := (List.range m).foldl (fun x w => x + f w * 2 ^ (32 * w)) 0

theorem ofWords_succ (f : Nat → Nat) (m : Nat) : ofWords f (m + 1) = 2 ^ (32 * m) * f m + ofWords f m := by
  rw [ofWords, List.range_succ, List.foldl_append, add_comm, mul_comm]
  rfl

theorem ofWords_lt {f : Nat → Nat} (hf : ∀ w, f w < 2 ^ 32) (m : Nat) : ofWords f m < 2 ^ (32 * m) := by
  induction m with
  | zero => exact Nat.one_pos
  | succ m ih =>
    rw [ofWords_succ, show 32 * (m + 1) = 32 * m + 32 by ring, pow_add]
    calc 2 ^ (32 * m) * f m + ofWords f m < 2 ^ (32 * m) * f m + 2 ^ (32 * m) := by omega
      _ = 2 ^ (32 * m) * (f m + 1) := by ring
      _ ≤ 2 ^ (32 * m) * 2 ^ 32 := Nat.mul_le_mul_left _ (hf m)

/-- Bit l is bit l mod 32 of word l / 32. -/
theorem testBit_ofWords {f : Nat → Nat} (hf : ∀ w, f w < 2 ^ 32) {m l : Nat} (hl : l < 32 * m) :
    (ofWords f m).testBit l = (f (l / 32)).testBit (l % 32) := by
  induction m with
  | zero => omega
  | succ m ih =>
    rw [ofWords_succ, Nat.testBit_two_pow_mul_add _ (ofWords_lt hf m)]
    by_cases h : l < 32 * m
    · rw [if_pos h, ih h]
    · rw [if_neg h, show l / 32 = m by omega, show l % 32 = l - 32 * m by omega]

/-- A mask of a record has its lanes by 32, each word in its own lane section. -/
theorem getLsbD_recMask (b : List Byte) (lanes off : Nat) {m l : Nat} (hm : l < 32 * m) (hl : l < 1024) :
    (recMask b lanes m off).getLsbD l = (fieldAt b (lanes + 512 * (l / 32) + off) 4).testBit (l % 32) := by
  have hbit := testBit_ofWords (f := fun w => fieldAt b (lanes + 512 * w + off) 4) (fun w => fieldAt_lt ..) hm
  rw [recMask, BitVec.getLsbD_ofNat, decide_eq_true hl, Bool.true_and]
  exact hbit

@[simp] theorem Team.load_id (t : Team) (b : List Byte) : (t.load b).id = t.id := by simp only [Team.load]
@[simp] theorem Team.load_flow (t : Team) (b : List Byte) : (t.load b).flow = t.flow := by simp only [Team.load]
@[simp] theorem Team.onSlot_place (t : Team) (p : Place) (x : Sched) : (t.onSlot p x).place = p := rfl
@[simp] theorem Team.onSlot_id (t : Team) (p : Place) (x : Sched) : (t.onSlot p x).id = t.id := rfl
@[simp] theorem Team.onSlot_flow (t : Team) (p : Place) (x : Sched) : (t.onSlot p x).flow = t.flow := rfl

end Sys2Proof.Machine

namespace Sys2Proof.Claim
open Sys2Proof Sys2Proof.Machine

/-- What a record holds of a team is what the team read back from it holds. -/
theorem restoredFrom_load (u : Team) (b : List Byte) : RestoredFrom u (u.load b) b where
  pos := ⟨by simp [Team.load]; omega, rfl, by simp [Team.load, recFrames], Nat.mod_eq_of_lt (fieldAt_lt b 24 4)⟩
  onS i := by
    simp only [Team.load, Team.s, Team.loadRegs, recScalars, Fin.getElem_fin, Vector.getElem_ofFn]
    split_ifs
    · exact Nat.mod_eq_of_lt (fieldAt_lt ..)
    · exact Nat.mod_eq_of_lt (fieldAt_lt ..)
    · rfl
  onA i := by
    simp only [Team.load, Team.a, Team.loadRegs, Fin.getElem_fin, Vector.getElem_ofFn]
    rw [show 1032 + 8 * u.id.kernel.sregs - 512 = 512 + 8 * (u.id.kernel.sregs + 1) by omega]
    exact Nat.mod_eq_of_lt (fieldAt_lt ..)
  onT i := by
    simp only [Team.load, Team.t, Team.loadRegs, Fin.getElem_fin, Vector.getElem_ofFn]
    rw [show 1032 + 8 * u.id.kernel.sregs - 256 = 512 + 8 * (u.id.kernel.sregs + 1) + 256 by omega]
    exact Nat.mod_eq_of_lt (fieldAt_lt ..)
  onEm l hm hl := by
    rw [show 1032 + 8 * u.id.kernel.sregs + 512 * (l / 32) = 512 + 8 * (u.id.kernel.sregs + 1) + 512 + 512 * (l / 32) + 0 by omega]
    exact getLsbD_recMask b _ 0 hm hl
  onP i l hi hm hl := by
    have hne : i.val ≠ 7 := hi.ne
    simp only [Team.load, Team.p, Team.loadRegs, Fin.getElem_fin, Vector.getElem_ofFn, if_neg hne, if_neg (show i ≠ 7 from fun h => hne (h ▸ rfl))]
    rw [show 1032 + 8 * u.id.kernel.sregs + 512 * (l / 32) + 4 + 4 * i.val =
      512 + 8 * (u.id.kernel.sregs + 1) + 512 + 512 * (l / 32) + (4 + 4 * i.val) by omega]
    exact getLsbD_recMask b _ _ hm hl
  onV i l hi hm := by
    simp only [lane, Team.load, Team.v, Team.loadRegs, Fin.getElem_fin, Vector.getElem_ofFn, if_pos hi]
    rw [List.getD_eq_getElem _ _ (by simpa using hm), List.getElem_map, List.getElem_range,
      show 1032 + 8 * u.id.kernel.sregs + 512 * u.id.m = 512 + 8 * (u.id.kernel.sregs + 1) + 512 + 512 * u.id.m by omega]
    exact Nat.mod_eq_of_lt (fieldAt_lt ..)
  tags i := by
    simp only [Team.load, Team.tag, Team.loadRegs, Fin.getElem_fin, Vector.getElem_ofFn]
    rfl

/-- A team's place and its counts are not part of its record. -/
theorem RestoredFrom.onSlot {u v : Team} {b : List Byte} (h : RestoredFrom u v b) (p : Place) (x : Sched) : RestoredFrom u (v.onSlot p x) b :=
  ⟨h.pos, h.onS, h.onA, h.onT, h.onEm, h.onP, h.onV, h.tags⟩

end Sys2Proof.Claim

namespace Sys2Proof.Machine
open Sys2Proof Claim

/-! ### Restore of an evicted team (spec/12 R215) -/

theorem State.evictSet_of_fits (s : State) (q : Nat) {test : List Nat → Bool} (h : test [] = true) : s.evictSet q test = some [] := by
  rw [State.evictSet]
  cases (s.evictable q).map (·.id.tid) with
  | nil => rw [prefixFor, if_pos h]; rfl
  | cons t ts => rw [prefixFor, if_pos h]; rfl

theorem State.evictSet_of_evictable_nil {s : State} {q : Nat} {test : List Nat → Bool} (he : s.evictable q = []) (h : test [] = false) :
    s.evictSet q test = none := by
  simp [State.evictSet, he, prefixFor, h]

section
variable {s : State} {u : Team} {im : Image} {q : Queue}
variable (hi : s.imageOf u.id.tid = some im) (hq : u.id.queue.bind s.queue? = some q)
include hi hq

theorem State.tryRestore_of_no_room (he : s.evictable q.id = []) (hs : s.spotFor u [] = none) : s.tryRestore u = none := by
  simp only [State.tryRestore, hi, hq]
  rw [State.evictSet_of_evictable_nil he (by rw [hs]; rfl)]

theorem State.tryRestore_of_room {c x k : Nat} (hs : s.spotFor u [] = some (c, x, k)) : s.tryRestore u = some (s.restoreTeam u im c x k) := by
  simp only [State.tryRestore, hi, hq]
  rw [State.evictSet_of_fits s q.id (by rw [hs]; rfl)]
  simp only [hs]
  rfl

end

/-- With one ready team, that team is restored or nothing is. -/
theorem execEvictedTeamRestore_of_one {s : State} {u : Team} (h : s.readyTeams = [u]) :
    execEvictedTeamRestore u.id.tid s = .next ((s.tryRestore u).getD s) := by
  simp only [execEvictedTeamRestore, h, List.any_cons, BEq.rfl, Bool.true_or, if_true, List.takeWhile_cons, bne_self_eq_false,
    Bool.false_eq_true, if_false, List.nil_append, List.filter_cons, List.filter_nil, State.restoreList]
  cases s.tryRestore u <;> rfl

theorem State.restoreTeam_of_ok {s : State} {u : Team} {im : Image} {c x k : Nat} {y : Ctx} (hy : s.liveCtx? im.ctx im.gen = some y)
    (hf : s.imageFault im = none) : s.restoreTeam u im c x k =
      ((s.updTeam u.id.tid (·.load ((s.imageRaw im).map (·.1)))).dropImage im).placeTeam u.id.tid c x k := by
  simp only [State.restoreTeam, hy, hf]

@[simp] theorem State.placeTeam_mem (s : State) (tid c x k : Nat) : (s.placeTeam tid c x k).mem = s.mem := rfl
@[simp] theorem State.dropImage_mem (s : State) (im : Image) : (s.dropImage im).mem = s.mem := rfl

/-- A team placed stands on its slot, its counts begun again. -/
theorem State.team?_placeTeam {s : State} {tid : Nat} {u : Team} (h : s.team? tid = some u) (c x k : Nat) :
    (s.placeTeam tid c x k).team? tid = some (u.onSlot (.on c x k) ⟨s.coreCyc c, 0, none, none⟩) :=
  State.team?_updTeam_same (s := { s with dirty := s.dirty.map fun d => if d.tid = tid then { d with core := c } else d })
    (f := fun t => t.onSlot (.on c x k) ⟨s.coreCyc c, 0, none, none⟩) (fun _ => rfl) h

end Sys2Proof.Machine

namespace Sys2Proof.Claim
open Sys2Proof Sys2Proof.Machine

theorem slotRelease_last {s : State} {tid b : Nat} {u : Team} {x : Bundle} {y : Sub} (h : s.team? tid = some u) (he : u.ended = true)
    (hq : u.quiet = true) (ho : u.flow.ops = []) (ht : tid ≠ 0) (hb : u.id.bundle = some b) (hp : u.id.pool = none)
    (hv : ∀ v ∈ s.all, v.id.tid ≠ tid → v.id.bundle = some b → v.id.sub = u.id.sub → v.id.pool ≠ none) (hx : s.bundle? b = some x)
    (hy : x.subs[u.id.sub]? = some y) (hz : ∃ j z, x.subs[j]? = some z ∧ j ≠ u.id.sub ∧ z.rec_.kind ≠ 2 ∧ z.done = false) :
    ∃ t x', exec (.teamSlotRelease tid) s = .next t ∧ t.team? tid = none ∧ t.bundle? b = some x' ∧
      x'.subs[u.id.sub]? = some { y with done := true } ∧ ∀ j, j ≠ u.id.sub → x'.subs[j]? = x.subs[j]? := by
  obtain ⟨j, z, hz, hj, hk, hd⟩ := hz
  have hsub : s.releaseSlot tid = (s.withoutTeam tid).updBundle b fun w => { w with subs := retireSub w.subs u.id.sub false } :=
    (State.releaseSlot_of_last h he hq ho hb hp hv).trans (State.subDone_of_other (s := s.withoutTeam tid) hx hz hj hk hd)
  refine ⟨_, { x with subs := retireSub x.subs u.id.sub false }, congrArg Host.Outcome.next hsub, s.team?_withoutTeam_same ht,
    State.bundle?_updBundle (s := s.withoutTeam tid) (fun _ => rfl) hx, ?_, fun i hi => ?_⟩
  · simp [retireSub_getElem?, hy]
  · simp [retireSub_getElem?, hi]

theorem teamAged_marks {s : State} {tid : Nat} {u : Team} (h : s.team? tid = some u) (hp : u.placed = true) (ha : u.isAgent = false)
    (hn : u.sch.aged = none) (hc : (s.core u.core).ageivl.toNat ≤ u.sch.age) :
    exec (.teamAged tid) s = .next (s.updTeam tid fun t => { t with sch := { t.sch with aged := some (s.coreCyc u.core) } }) := by
  have hcond : u.placed ∧ ¬ u.isAgent ∧ u.sch.aged.isNone ∧ (s.core u.core).ageivl.toNat ≤ u.sch.age := ⟨hp, by simp [ha], by simp [hn], hc⟩
  show execTeamAged tid s = _
  simp only [execTeamAged, h]
  rw [if_pos hcond]

theorem teamAged_below {s : State} {tid : Nat} {u : Team} (h : s.team? tid = some u) (hc : u.sch.age < (s.core u.core).ageivl.toNat) :
    exec (.teamAged tid) s = .next s := by
  show execTeamAged tid s = _
  simp only [execTeamAged, h]
  rw [if_neg fun hcond => hc.not_ge hcond.2.2.2]

theorem regather_eq {s : State} {tid : Nat} {u : Team} (h : s.team? tid = some u) : exec (.regather tid) s =
    .next (if u.regatherable then s.updTeam tid Team.regathered else s) := by
  show execRegather tid s = _
  simp only [execRegather, h, reconvDepth_eq]
  rfl

theorem l1Writeback_eq {s : State} {core key : Nat} {d : Dirty} (h : s.dirtyAt core key = some d) :
    exec (.l1Writeback core key) s = .next (if d.pinned then s else (s.writeBack d false).1) := by
  show execL1Writeback core key s = _
  simp only [execL1Writeback, h]

/-- A sector written back: it is dirty no longer, and its bytes alone have changed at home. -/
theorem l1Writeback_writes {s s1 : State} {core key home loc : Nat} {d : Dirty} (h : s.dirtyAt core key = some d) (hp : d.pinned = false)
    (hc : d.ctx ≠ noCtx) (ht : s.translate (d.core / 8) d.ctx d.gen .store d.va.toNat = (.ok home loc, s1)) (hs : Sound s home 32)
    (hw : Memory.wf s.mem = true) (hn : (d.bytes.map (·.1 % 32)).Nodup) : ∃ t, exec (.l1Writeback core key) s = .next t ∧
      t.dirtyAt core key = none ∧ (∀ x ∈ d.bytes, t.homeByte (home + x.1 % 32) = x.2) ∧
      ∀ k, (∀ x ∈ d.bytes, k ≠ home + x.1 % 32) → t.homeByte k = s.homeByte k := by
  obtain ⟨hdirty, hmem⟩ := State.writeBack_of_ok hc ht hs false
  have hkeys : ((d.at_ home).map (·.1)).Nodup := by
    rw [show (d.at_ home).map (·.1) = (d.bytes.map (·.1 % 32)).map (home + ·) by simp [Dirty.at_, Function.comp_def]]
    exact hn.map (add_right_injective home)
  refine ⟨(s.writeBack d false).1, (l1Writeback_eq h).trans (by rw [hp]; rfl), ?_, fun x hx => ?_, fun k hk => ?_⟩
  · exact (congrArg (List.find? _) hdirty).trans (State.dirtyAt_dropDirty h)
  · exact (congrArg (readCell · _) hmem).trans (readCell_writePairs_mem hw _ hkeys (List.mem_map.2 ⟨x, hx, rfl⟩))
  · refine (congrArg (readCell · _) hmem).trans (readCell_writePairs_other hw _ k fun y hy hyk => ?_)
    obtain ⟨x, hx, rfl⟩ := List.mem_map.1 hy
    exact hk x hx hyk.symm

theorem evictedTeamRestore_places {s : State} {u : Team} {im : Image} {q : Queue} {c x k : Nat} {y : Ctx} (hr : s.readyTeams = [u])
    (hi : s.imageOf u.id.tid = some im) (hq : u.id.queue.bind s.queue? = some q) (hs : s.spotFor u [] = some (c, x, k))
    (hy : s.liveCtx? im.ctx im.gen = some y) (hf : s.imageFault im = none) (hu : s.team? u.id.tid = some u) :
    ∃ t v, exec (.evictedTeamRestore u.id.tid) s = .next t ∧ t.team? u.id.tid = some v ∧ v.place = .on c x k ∧ v.id = u.id ∧ v.flow = u.flow ∧
      RestoredFrom u v ((s.imageRaw im).map (·.1)) ∧ t.mem = s.mem := by
  have hrun : exec (.evictedTeamRestore u.id.tid) s =
      .next (((s.updTeam u.id.tid (·.load ((s.imageRaw im).map (·.1)))).dropImage im).placeTeam u.id.tid c x k) := by
    refine (execEvictedTeamRestore_of_one hr).trans ?_
    rw [State.tryRestore_of_room hi hq hs, State.restoreTeam_of_ok hy hf]
    rfl
  have hload : ((s.updTeam u.id.tid (·.load ((s.imageRaw im).map (·.1)))).dropImage im).team? u.id.tid =
      some (u.load ((s.imageRaw im).map (·.1))) := State.team?_updTeam_same (s := s) (fun t => t.load_id _) hu
  exact ⟨_, _, hrun, State.team?_placeTeam hload c x k, by simp, by simp, by simp, (restoredFrom_load u _).onSlot .., by simp⟩

/-- Settles O46: each event by what it does to the team or sector that it names. -/
theorem teamEventsTakeEffect : Obligations.TeamEventsTakeEffect := by
  unfold Obligations.TeamEventsTakeEffect
  refine ⟨fun s tid => ⟨fun hn => ⟨?_, ?_, ?_⟩, fun u hu => ⟨?_, ?_, ?_, ?_, ?_, ?_, ?_⟩⟩, ?_, ?_, ?_, ?_, ?_⟩
  · show execTeamSlotRelease tid s = _
    simp only [execTeamSlotRelease, State.releaseSlot, hn]
  · show execRegather tid s = _
    simp only [execRegather, hn]
  · show execTeamAged tid s = _
    simp only [execTeamAged, hn]
  · exact fun h => congrArg Host.Outcome.next (State.releaseSlot_of_outstanding hu h)
  · exact fun he hq ho ht hv => ⟨s.withoutTeam tid, congrArg Host.Outcome.next (State.releaseSlot_of_others hu he hq ho hv),
      s.team?_withoutTeam_same ht, rfl, fun n h0 hne => s.team?_withoutTeam_ne h0 hne⟩
  · exact fun b x y he hq ho ht hb hp hv hx hy hz => slotRelease_last hu he hq ho ht hb hp hv hx hy hz
  · exact fun hp ha hn hc => ⟨_, teamAged_marks hu hp ha hn hc, rfl, State.team?_updTeam_same (fun _ => rfl) hu,
      fun n hne => s.team?_updTeam_ne (fun _ => rfl) hne⟩
  · exact teamAged_below hu
  · intro h
    rw [regather_eq hu, if_neg]
    rw [Team.regatherable_iff]
    rintro ⟨_, _, _, hst, hlanes, hq, _⟩
    rcases h with h | h | h
    · exact hst h
    · simp [hq] at h
    · omega
  · intro hp ha he hst hq hx hpark hg hr hl
    have hreg := u.regatherable_iff.2 ⟨hp, ha, he, hst, hl, hq, hx, hg, hr, by rw [Team.parked, hpark]⟩
    exact ⟨s.updTeam tid Team.regathered, _, (regather_eq hu).trans (by rw [if_pos hreg]), rfl,
      State.team?_updTeam_same (f := Team.regathered) (fun _ => rfl) hu, rfl, fun n hne => s.team?_updTeam_ne (fun _ => rfl) hne⟩
  · intro s core key h
    show execL1Writeback core key s = _
    simp only [execL1Writeback, h]
  · exact fun s core key d h hp => (l1Writeback_eq h).trans (by rw [hp]; rfl)
  · exact fun s s1 core key home loc d h hp hc ht _ hs hw hn => l1Writeback_writes h hp hc ht hs hw hn
  · intro s tid h
    refine congrArg Host.Outcome.next (if_neg ?_)
    simpa using h
  · intro s u im q hr hi hq
    refine ⟨fun he hs => ?_, fun c x k y hs hy hf hu => evictedTeamRestore_places hr hi hq hs hy hf hu⟩
    refine (execEvictedTeamRestore_of_one hr).trans ?_
    rw [State.tryRestore_of_no_room hi hq he hs]
    rfl

end Sys2Proof.Claim
end

section
/-!
PROOFS. Floating-point lane words (spec/07 R120 to R122, R125, R141): each element of a lane is rounded once.
-/
namespace Sys2Proof.Claim
open Sys2Proof Sys2Proof.Machine

theorem onElems1_eq_each1 (t : FType) (f : Fmt → Nat → Nat) (x : W32) : onElems1 t f x = each1 t f x := by cases t <;> rfl

theorem onElems2_eq_each3 (t : FType) (f : Fmt → Nat → Nat → Nat) (x y z : W32) : onElems2 t f x y = each3 t (fun F x y _ => f F x y) x y z := by
  cases t <;> rfl

theorem onElems3_eq_each3 (t : FType) (f : Fmt → Nat → Nat → Nat → Nat) (x y z : W32) : onElems3 t f x y z = each3 t f x y z := by cases t <;> rfl

/-- FMIN and FMAX on the elements of a lane. -/
theorem onElems2_minmax (t : FType) (up : Bool) (x y z : W32) :
    each3 t (fun F x y _ => minmaxRule F up x y) x y z = onElems2 t (fun F => F.minmax up) x y := by
  simp only [onElems2_eq_each3 t _ x y z, minmax_eq_minmaxRule]

/-- D's tag after FADD: the common tag of two FP32 sources, which is 0 as well where their tags are 0. -/
theorem sumTag_fadd (u : Team) (d a b : VReg) (g : Guard) (t : FType) :
    u.sumTag (.fadd d a b g t) a = if t = .f32 ∧ u.tag a = u.tag b then u.tag a else 0 := by
  cases t <;> by_cases ha : u.tag a = 0#4 <;> simp [Team.sumTag, Team.readsCoeffs, ha]

theorem sumTag_fsub (u : Team) (d a b : VReg) (g : Guard) (t : FType) :
    u.sumTag (.fsub d a b g t) a = if t = .f32 ∧ u.tag a = u.tag b then u.tag a else 0 := by
  cases t <;> by_cases ha : u.tag a = 0#4 <;> simp [Team.sumTag, Team.readsCoeffs, ha]

theorem HasLane.zipWith3 {u : Team} {l : Nat} (hl : HasLane u l) (op : W32 → W32 → W32 → W32) (a b c : VReg) :
    (List.zipWith (fun f z => f z) (List.zipWith op (u.v a) (u.v b)) (u.v c))[l]? = some (op (lane u a l) (lane u b l) (lane u c l)) := by
  rw [List.getElem?_zipWith, hl.zipWith op a b, hl.getElem? c]

/-- Whether a lane is an approximation position: with tag 0 every lane is. -/
theorem HasLane.approx {u : Team} {l : Nat} (hl : HasLane u l) (tag : Nat) :
    u.approx tag l = decide (l % min u.width 128 < min u.width 128 / 2 ^ tag) := by
  obtain ⟨hw, _⟩ := hl
  have hlt : l % min u.width 128 < min u.width 128 := Nat.mod_lt _ (by omega)
  rcases Nat.eq_zero_or_pos tag with rfl | h
  · simp [Team.approx, hlt]
  · simp only [Team.approx, Team.blockLen, beq_eq_false_iff_ne.2 h.ne', Bool.false_or]
    rfl

/-- A lane scaled by s(b). -/
theorem HasLane.scaled {u : Team} {l : Nat} (hl : HasLane u l) (a : VReg) (b : SReg) :
    ((u.v a).map fun x => onElems2 .f32 Fmt.mul x ((u.s b).setWidth 32))[l]? =
      some (each3 .f32 prodRule (lane u a l) (BitVec.ofNat 32 ((u.s b).toNat % 2 ^ 32)) 0) := by
  rw [List.getElem?_map, hl.getElem? a, low_word_eq]
  rfl

/-- A lane with s(b) added where it is an approximation position. -/
theorem HasLane.biased {u : Team} {l : Nat} (hl : HasLane u l) (a : VReg) (b : SReg) :
    ((u.v a).zipIdx.map fun (x, l) => if u.approx (u.tag a).toNat l then addF32 x ((u.s b).setWidth 32) else x)[l]? =
      some (if l % min u.width 128 < min u.width 128 / 2 ^ (u.tag a).toNat
        then sumF32 (lane u a l) (BitVec.ofNat 32 ((u.s b).toNat % 2 ^ 32)) else lane u a l) := by
  rw [List.getElem?_map, List.getElem?_zipIdx, hl.getElem? a, low_word_eq]
  simp only [Option.map_some, Nat.zero_add, hl.approx, decide_eq_true_eq]
  rfl

section
variable {s : State} {i : Instr} (h : Passes s i)
include h

/-- A word that passes its checks and writes a v register with a tag has the effect of its rule. -/
theorem run_putV_tag {d : VReg} {m : Team → Mask} {ys : Team → List W32} {tag : Team → BitVec 4} {f : Nat → W32}
    (hy : ∀ l, HasLane (ready s i) l → ∃ y, (ys (ready s i))[l]? = some y ∧ ((m (ready s i)).getLsbD l = true → f l = y)) :
    ∃ t, run i s (fun s => s.putV d (m s.me) (ys s.me) (tag s.me)) = .next t ∧
      LaneEffect s t (ready s i) ⟨d, m (ready s i), f, tag (ready s i)⟩ :=
  ⟨_, run_of_check_none _ h, laneEffect_putV s (r := ⟨d, m (ready s i), f, tag (ready s i)⟩) hy⟩

/-- FADD and FSUB: two sources, one rounding of each element, and a tag. -/
theorem sum_effect {d a b : VReg} {g : Guard} {t : FType} {op : Fmt → Nat → Nat → Nat} {tag : BitVec 4} {f : Nat → W32} (htag : (ready s i).sumTag i a = tag)
    (hf : ∀ l, f l = onElems2 t op (lane (ready s i) a l) (lane (ready s i) b l)) :
    ∃ t', run i s (fun s => s.putV d (s.me.eff g) (List.zipWith (onElems2 t op) (s.me.v a) (s.me.v b)) (s.me.sumTag i a)) = .next t' ∧
      LaneEffect s t' (ready s i) ⟨d, (ready s i).eff g, f, tag⟩ :=
  htag ▸ run_putV_tag h (m := fun u => u.eff g) (ys := fun u => List.zipWith (onElems2 t op) (u.v a) (u.v b)) (tag := fun u => u.sumTag i a)
    fun l hl => ⟨_, hl.zipWith _ a b, fun _ => hf l⟩

/-- A word of three sources. -/
theorem vector3_effect {d a b c : VReg} {g : Guard} {op : W32 → W32 → W32 → W32} {f : Nat → W32}
    (hf : ∀ l, f l = op (lane (ready s i) a l) (lane (ready s i) b l) (lane (ready s i) c l)) :
    ∃ t, run i s (fun s => s.putV d (s.me.eff g) (List.zipWith (fun f z => f z) (List.zipWith op (s.me.v a) (s.me.v b)) (s.me.v c)) 0) = .next t ∧
      LaneEffect s t (ready s i) ⟨d, (ready s i).eff g, f, 0⟩ :=
  (run_putV h (m := fun u => u.eff g) (ys := fun u => List.zipWith (fun f z => f z) (List.zipWith op (u.v a) (u.v b)) (u.v c)) (f := f) fun l hl =>
    ⟨_, hl.zipWith3 op a b c, fun _ => hf l⟩ :)

/-- A word on coefficients: whatever its lanes become, D keeps the tag of A. -/
theorem coefficient_effect (d a : VReg) (ys : Team → List W32) (f : Nat → W32) (hf : ∀ l, HasLane (ready s i) l → (ys (ready s i))[l]? = some (f l)) :
    ∃ t, run i s (fun s => s.putV d s.me.em (ys s.me) (s.me.tag a)) = .next t ∧
      LaneEffect s t (ready s i) ⟨d, (ready s i).em, f, (ready s i).tag a⟩ :=
  run_putV_tag h (m := Team.em) (tag := fun u => u.tag a) fun l hl => ⟨f l, hf l hl, fun _ => rfl⟩

/-- A special function of each element of a lane. -/
theorem special_effect {d a : VReg} {g : Guard} {t : FType} (f : Fmt → Nat → Nat) :
    ∃ t', vector1 i d a g (onElems1 t f) s = .next t' ∧
      LaneEffect s t' (ready s i) ⟨d, (ready s i).eff g, fun l => each1 t f (lane (ready s i) a l), 0⟩ :=
  vector1_effect h fun _ => (onElems1_eq_each1 t f _).symm

end

/-- Each floating-point word has the effect of its rule. -/
theorem exec_of_floatRule {s : State} {i : Instr} {r : LaneRule} (hr : floatRule (ready s i) i = some r) (h : Passes s i) :
    ∃ t, exec i s = .next t ∧ LaneEffect s t (ready s i) r := by
  cases i with
  | fadd d a b g t => cases hr; rw [exec, execFadd]; exact sum_effect h (sumTag_fadd ..) fun _ => (onElems2_eq_each3 t Fmt.add _ _ _).symm
  | fsub d a b g t => cases hr; rw [exec, execFsub]; exact sum_effect h (sumTag_fsub ..) fun _ => (onElems2_eq_each3 t Fmt.sub _ _ _).symm
  | fmul d a b g t => cases hr; rw [exec, execFmul]; exact vector2_effect h fun _ => (onElems2_eq_each3 t Fmt.mul _ _ _).symm
  | fmin d a b g t => cases hr; rw [exec, execFmin]; exact vector2_effect h fun _ => onElems2_minmax ..
  | fmax d a b g t => cases hr; rw [exec, execFmax]; exact vector2_effect h fun _ => onElems2_minmax ..
  | fma d a b g t => cases hr; rw [exec, execFma]; exact vector3_effect h fun _ => (onElems3_eq_each3 t Fmt.fma _ _ _).symm
  | domnHscl d a b =>
    cases hr
    rw [exec, execDomnHscl]
    exact (coefficient_effect h d a (fun u => (u.v a).map fun x => onElems2 .f32 Fmt.mul x ((u.s b).setWidth 32)) _ fun l hl => hl.scaled a b :)
  | domnHbia d a b =>
    cases hr
    rw [exec, execDomnHbia]
    exact (coefficient_effect h d a (fun u => (u.v a).zipIdx.map fun (x, l) =>
      if u.approx (u.tag a).toNat l then addF32 x ((u.s b).setWidth 32) else x) _ fun l hl => hl.biased a b :)
  | _ => cases hr

/-- Each special function has the effect of its rule. -/
theorem exec_of_specialRule {s : State} {i : Instr} {r : LaneRule} (hr : specialRule (ready s i) i = some r) (h : Passes s i) :
    ∃ t, exec i s = .next t ∧ LaneEffect s t (ready s i) r := by
  cases i with
  | funaExp2 d a g t => cases hr; rw [exec, execFunaExp2]; exact special_effect h _
  | funaLog2 d a g t => cases hr; rw [exec, execFunaLog2]; exact special_effect h _
  | funaRcp d a g t => cases hr; rw [exec, execFunaRcp]; exact special_effect h _
  | funaRsqrt d a g t => cases hr; rw [exec, execFunaRsqrt]; exact special_effect h _
  | funaSqrt d a g t => cases hr; rw [exec, execFunaSqrt]; exact special_effect h _
  | funaTanh d a g t => cases hr; rw [exec, execFunaTanh]; exact special_effect h _
  | funaSigm d a g t => cases hr; rw [exec, execFunaSigm]; exact special_effect h _
  | funaGelu d a g t => cases hr; rw [exec, execFunaGelu]; exact special_effect h _
  | funaAbs d a g t => cases hr; rw [exec, execFunaAbs]; exact special_effect h _
  | funaNeg d a g t => cases hr; rw [exec, execFunaNeg]; exact special_effect h _
  | funaFloor d a g t => cases hr; rw [exec, execFunaFloor]; exact special_effect h _
  | funaCeil d a g t => cases hr; rw [exec, execFunaCeil]; exact special_effect h _
  | funaRint d a g t => cases hr; rw [exec, execFunaRint]; exact special_effect h _
  | funaFrac d a g t => cases hr; rw [exec, execFunaFrac]; exact special_effect h _
  | _ => cases hr

/-- Settles O4: each word writes in the lanes of its mask the elements of its rule, each of them rounded once. -/
theorem floatLaneWordsRoundOnce : Obligations.FloatLaneWordsRoundOnce := by
  unfold Obligations.FloatLaneWordsRoundOnce
  exact ⟨fun s i r => exec_of_floatRule, fun s i r => exec_of_specialRule⟩

end Sys2Proof.Claim
end

section
/-!
PROOFS. Reconstruction of tagged sources (spec/05 R95; spec/07 R129 to R131): a register by its lanes, blocks of lanes, the inverse transform,
and what the preparation of a word leaves unchanged.
-/
namespace Sys2Proof.Machine
open Sys2Proof Claim

/-! ### Lists of values by position -/

/-- The values of a function at the first n positions. -/
def tabulate {α : Type} (n : Nat) (x : Nat → α) : List α := (List.range n).map x

section
variable {α β γ : Type} {n : Nat}

@[simp] theorem length_tabulate (n : Nat) (x : Nat → α) : (tabulate n x).length = n := by simp [tabulate]

theorem tabulate_zero (x : Nat → α) : tabulate 0 x = [] := rfl

theorem tabulate_succ (n : Nat) (x : Nat → α) : tabulate (n + 1) x = x 0 :: tabulate n fun i => x (i + 1) := by
  rw [tabulate, List.range_succ_eq_map, List.map_cons, List.map_map]
  rfl

theorem tabulate_add (m n : Nat) (x : Nat → α) : tabulate (m + n) x = tabulate m x ++ tabulate n fun i => x (m + i) := by
  rw [tabulate, List.range_add, List.map_append, List.map_map]
  rfl

theorem tabulate_congr {x y : Nat → α} (h : ∀ i, i < n → x i = y i) : tabulate n x = tabulate n y :=
  List.map_congr_left fun i hi => h i (List.mem_range.1 hi)

theorem getElem?_tabulate (x : Nat → α) {i : Nat} (h : i < n) : (tabulate n x)[i]? = some (x i) := by
  rw [tabulate, List.getElem?_map, List.getElem?_range h, Option.map_some]

theorem getD_tabulate (x : Nat → α) (y : α) {i : Nat} (h : i < n) : (tabulate n x).getD i y = x i := by
  rw [List.getD_eq_getElem?_getD, getElem?_tabulate x h, Option.getD_some]

theorem map_tabulate (f : α → β) (x : Nat → α) : (tabulate n x).map f = tabulate n fun i => f (x i) := by
  rw [tabulate, List.map_map]
  rfl

theorem zipWith_tabulate (f : α → β → γ) (x : Nat → α) (y : Nat → β) :
    List.zipWith f (tabulate n x) (tabulate n y) = tabulate n fun i => f (x i) (y i) := by
  rw [tabulate, tabulate, List.zipWith_map, List.zipWith_self]
  rfl

theorem take_tabulate {m : Nat} (h : m ≤ n) (x : Nat → α) : (tabulate n x).take m = tabulate m x := by
  obtain ⟨k, rfl⟩ := Nat.exists_eq_add_of_le h
  rw [tabulate_add, List.take_left' (length_tabulate m x)]

theorem drop_tabulate {m : Nat} (h : m ≤ n) (x : Nat → α) : (tabulate n x).drop m = tabulate (n - m) fun i => x (m + i) := by
  obtain ⟨k, rfl⟩ := Nat.exists_eq_add_of_le h
  rw [tabulate_add, List.drop_left' (length_tabulate m x), Nat.add_sub_cancel_left]

/-- A list by its length and its values. -/
theorem eq_tabulate {xs : List α} {x : Nat → α} (hn : xs.length = n) (h : ∀ i, i < n → xs[i]? = some (x i)) : xs = tabulate n x := by
  refine List.ext_getElem? fun i => ?_
  rcases lt_or_ge i n with hi | hi
  · rw [h i hi, getElem?_tabulate x hi]
  · rw [List.getElem?_eq_none (hn.trans_le hi), List.getElem?_eq_none ((length_tabulate n x).trans_le hi)]

/-- Lists of one length in a row. -/
theorem flatten_tabulate (k n : Nat) (y : Nat → Nat → α) :
    (tabulate k fun j => tabulate n (y j)).flatten = tabulate (k * n) fun l => y (l / n) (l % n) := by
  induction k generalizing y with
  | zero => simp [tabulate]
  | succ k ih =>
    rw [tabulate_succ, List.flatten_cons, ih, Nat.succ_mul, Nat.add_comm (k * n) n, tabulate_add]
    congr 1
    · exact tabulate_congr fun i hi => by rw [Nat.div_eq_of_lt hi, Nat.mod_eq_of_lt hi]
    · refine tabulate_congr fun i hi => ?_
      have hn : 0 < n := Nat.pos_of_ne_zero fun h0 => by simp [h0] at hi
      rw [Nat.add_div_left _ hn, Nat.add_mod_left]

end

/-! ### Blocks (spec/07 R129) -/

/-- The blocks of a list. -/
theorem blocksOf_tabulate (n k : Nat) (x : Nat → W32) :
    blocksOf n k (tabulate (k * n) x) = tabulate k fun j => tabulate n fun i => x (j * n + i) := by
  induction k generalizing x with
  | zero => rfl
  | succ k ih =>
    have hle : n ≤ (k + 1) * n := Nat.le_mul_of_pos_left n (Nat.succ_pos k)
    rw [blocksOf, take_tabulate hle, drop_tabulate hle, Nat.succ_mul, Nat.add_sub_cancel, ih, tabulate_succ]
    congr 1
    · exact tabulate_congr fun i _ => by rw [Nat.zero_mul, Nat.zero_add]
    · exact tabulate_congr fun j _ => tabulate_congr fun i _ => by rw [Nat.succ_mul, Nat.add_comm (j * n) n, Nat.add_assoc]

end Sys2Proof.Machine

namespace Sys2Proof.Claim
open Sys2Proof Sys2Proof.Machine

/-! ### The lanes of a team's registers (spec/07 R129; spec/12 R200) -/

theorem Sized.width_eq {u : Team} (h : Sized u) : u.width / u.blockLen * u.blockLen = u.width := by
  obtain ⟨hm, _, _⟩ := h
  simp only [List.mem_cons, List.not_mem_nil, or_false] at hm
  rcases hm with h | h | h | h | h | h <;> simp only [Team.blockLen, Team.width, h] <;> decide

theorem Sized.blockLen_eq {u : Team} (h : Sized u) : ∃ k, k ≤ 7 ∧ u.blockLen = 2 ^ k := by
  obtain ⟨hm, _, _⟩ := h
  simp only [List.mem_cons, List.not_mem_nil, or_false] at hm
  rcases hm with h | h | h | h | h | h <;> simp only [Team.blockLen, Team.width, h] <;> decide

/-- A block of a depth that its lanes allow halves evenly at each level. -/
theorem Sized.blockLen_of_le {u : Team} (h : Sized u) {d : Nat} (hd : 2 ^ d ≤ u.blockLen) : ∃ m, u.blockLen = 2 ^ d * m := by
  obtain ⟨k, _, hk⟩ := h.blockLen_eq
  rw [hk] at hd ⊢
  exact pow_dvd_pow 2 ((Nat.pow_le_pow_iff_right Nat.one_lt_two).1 hd)

/-- A register by its lanes. -/
theorem v_eq_tabulate {u : Team} {r : VReg} (h : (u.v r).length = u.width) : u.v r = tabulate u.width (lane u r) := by
  refine eq_tabulate h fun i hi => ?_
  rw [lane, List.getD_eq_getElem?_getD, List.getElem?_eq_getElem (h.symm ▸ hi), Option.getD_some]

theorem Sized.v_eq {u : Team} (h : Sized u) (r : VReg) : u.v r = tabulate u.width (lane u r) := by
  obtain ⟨_, hv, _⟩ := h
  exact v_eq_tabulate (hv r)

/-- A transform of blocks, by what it makes of each of them. -/
theorem Sized.inBlocks {u : Team} (h : Sized u) {f : List W32 → List W32} {x : Nat → W32} {y : Nat → Nat → W32}
    (hf : ∀ j, f (tabulate u.blockLen fun i => x (j * u.blockLen + i)) = tabulate u.blockLen (y j)) :
    u.inBlocks f (tabulate u.width x) = tabulate u.width fun l => y (l / u.blockLen) (l % u.blockLen) := by
  have hw := h.width_eq
  calc u.inBlocks f (tabulate u.width x)
      = ((blocksOf u.blockLen (u.width / u.blockLen) (tabulate (u.width / u.blockLen * u.blockLen) x)).map f).flatten := by rw [hw]; rfl
    _ = (tabulate (u.width / u.blockLen) fun j => tabulate u.blockLen (y j)).flatten := by
        rw [blocksOf_tabulate, map_tabulate, tabulate_congr fun j _ => hf j]
    _ = tabulate u.width fun l => y (l / u.blockLen) (l % u.blockLen) := by rw [flatten_tabulate, hw]

end Sys2Proof.Claim

namespace Sys2Proof.Machine
open Sys2Proof Claim

/-! ### The inverse transform (spec/05 R95) -/

theorem haarInv_eq (s d : W32) : haarInv s d = (sumF32 s d, diffF32 s d) := rfl

theorem haarUnlevel_tabulate (n : Nat) (s t : Nat → W32) : haarUnlevel (tabulate n s) (tabulate n t) =
    tabulate (2 * n) fun i => if i % 2 = 0 then sumF32 (s (i / 2)) (t (i / 2)) else diffF32 (s (i / 2)) (t (i / 2)) := by
  induction n generalizing s t with
  | zero => rfl
  | succ n ih =>
    rw [tabulate_succ, tabulate_succ, haarUnlevel, ih, Nat.mul_succ, tabulate_succ, tabulate_succ]
    refine congrArg (_ :: _ :: ·) (tabulate_congr fun i _ => ?_)
    rw [Nat.add_assoc, Nat.add_mod_right, Nat.add_div_right _ Nat.two_pos]

/-- The first levels of an inverse rebuild the first half of the coefficients alone. -/
theorem rebuiltOf_half (c : Nat → W32) (n d : Nat) {k : Nat} (hk : k ≤ d) : rebuiltOf c (2 * n) (d + 1) k = rebuiltOf c n d k := by
  induction k with
  | zero => rfl
  | succ k ih =>
    have hsub : d + 1 - k = d - k + 1 := by omega
    have hdiv : 2 * n / 2 ^ (d - k + 1) = n / 2 ^ (d - k) := by rw [pow_succ', Nat.mul_div_mul_left _ _ Nat.two_pos]
    funext i
    simp only [rebuiltOf, ih (Nat.le_of_succ_le hk), hsub, hdiv]

/-- The inverse of a block is what its levels rebuild. -/
theorem haarInverse_tabulate (d m : Nat) (c : Nat → W32) :
    haarInverse d (tabulate (2 ^ d * m) c) = tabulate (2 ^ d * m) (rebuiltOf c (2 ^ d * m) d d) := by
  induction d with
  | zero => rfl
  | succ d ih =>
    have hn : 2 ^ (d + 1) * m = 2 * (2 ^ d * m) := by rw [pow_succ', Nat.mul_assoc]
    have hle : 2 ^ d * m ≤ 2 * (2 ^ d * m) := Nat.le_mul_of_pos_left _ Nat.two_pos
    have hrest : 2 * (2 ^ d * m) - 2 ^ d * m = 2 ^ d * m := by omega
    rw [haarInverse, length_tabulate, hn, Nat.mul_div_cancel_left _ Nat.two_pos, take_tabulate hle, drop_tabulate hle, hrest, ih,
      haarUnlevel_tabulate]
    refine tabulate_congr fun i _ => ?_
    simp only [rebuiltOf, rebuiltOf_half c _ d le_rfl, Nat.add_sub_cancel_left, pow_one, Nat.mul_div_cancel_left _ Nat.two_pos]

end Sys2Proof.Machine

namespace Sys2Proof.Claim
open Sys2Proof Sys2Proof.Machine

theorem plainLane_of_plain {u : Team} {r : VReg} (h : u.tag r = 0) (l : Nat) : plainLane u r l = lane u r l := if_pos (by rw [h]; rfl)

theorem plainLane_of_tagged {u : Team} {r : VReg} (h : u.tag r ≠ 0) (l : Nat) : plainLane u r l =
    rebuiltOf (fun i => lane u r (l / u.blockLen * u.blockLen + i)) u.blockLen (u.tag r).toNat (u.tag r).toNat (l % u.blockLen) :=
  if_neg fun e => h (BitVec.eq_of_toNat_eq e)

theorem Sized.plain_eq {u : Team} (h : Sized u) (r : VReg) : u.plain r = tabulate u.width (plainLane u r) := by
  unfold Team.plain
  split
  · next h0 => rw [h.v_eq r, tabulate_congr fun l _ => (plainLane_of_plain h0 l).symm]
  · next h0 =>
    obtain ⟨_, _, htag⟩ := id h
    obtain ⟨m, hm⟩ := h.blockLen_of_le (htag r)
    rw [h.v_eq r, h.inBlocks (y := fun j => rebuiltOf (fun i => lane u r (j * u.blockLen + i)) u.blockLen (u.tag r).toNat (u.tag r).toNat)
      fun j => by rw [hm, haarInverse_tabulate]]
    exact tabulate_congr fun l _ => (plainLane_of_tagged h0 l).symm

end Sys2Proof.Claim

namespace Sys2Proof.Machine
open Sys2Proof Claim

/-! ### What a preparation leaves (spec/07 R131) -/

section
variable (u : Team) (i : Instr)

/-- What a rebuilt register leaves unchanged, every preparation does. -/
theorem Team.prepare_keeps {α : Type} (f : Team → α) (hf : ∀ t r, f (Team.rebuild t r) = f t) : f (u.prepare i) = f u := by
  have hfold (rs : List VReg) (t : Team) : f (rs.foldl Team.rebuild t) = f t := by
    induction rs generalizing t with
    | nil => rfl
    | cons r rs ih => rw [List.foldl_cons, ih, hf]
  unfold Team.prepare
  split
  · rfl
  · exact hfold _ u

/-- A register rebuilt changes its lanes and its tag. -/
theorem Team.rebuild_eq (r : VReg) : u.rebuild r = { u with regs := { u.regs with v := (u.rebuild r).regs.v, tag := (u.rebuild r).regs.tag } } := by
  unfold Team.rebuild
  split <;> rfl

@[simp] theorem Team.prepare_id : (u.prepare i).id = u.id := u.prepare_keeps i Team.id fun t r => by rw [t.rebuild_eq]
@[simp] theorem Team.prepare_place : (u.prepare i).place = u.place := u.prepare_keeps i Team.place fun t r => by rw [t.rebuild_eq]
@[simp] theorem Team.prepare_ctl : (u.prepare i).ctl = u.ctl := u.prepare_keeps i Team.ctl fun t r => by rw [t.rebuild_eq]
@[simp] theorem Team.prepare_flow : (u.prepare i).flow = u.flow := u.prepare_keeps i Team.flow fun t r => by rw [t.rebuild_eq]
@[simp] theorem Team.prepare_sch : (u.prepare i).sch = u.sch := u.prepare_keeps i Team.sch fun t r => by rw [t.rebuild_eq]
@[simp] theorem Team.prepare_regs_s : (u.prepare i).regs.s = u.regs.s := u.prepare_keeps i (·.regs.s) fun t r => by rw [t.rebuild_eq]
@[simp] theorem Team.prepare_regs_p : (u.prepare i).regs.p = u.regs.p := u.prepare_keeps i (·.regs.p) fun t r => by rw [t.rebuild_eq]
@[simp] theorem Team.prepare_width : (u.prepare i).width = u.width := by simp [Team.width]
@[simp] theorem Team.prepare_blockLen : (u.prepare i).blockLen = u.blockLen := by simp [Team.blockLen]
@[simp] theorem Team.prepare_em : (u.prepare i).em = u.em := by simp [Team.em]
@[simp] theorem Team.prepare_sr : (u.prepare i).sr = u.sr := by simp [Team.sr]
@[simp] theorem Team.prepare_core : (u.prepare i).core = u.core := by simp [Team.core]
@[simp] theorem Team.prepare_sched : (u.prepare i).sched = u.sched := by simp [Team.sched]

end

/-! ### The registers that a preparation rebuilds (spec/07 R131) -/

section
variable {u : Team} {r q : VReg}

theorem Team.rebuild_self : (u.rebuild r).v r = u.plain r ∧ (u.rebuild r).tag r = 0 := by
  unfold Team.rebuild
  split
  · next h0 => exact ⟨by rw [Team.plain, if_pos h0], h0⟩
  · exact ⟨by rw [Team.setTag_v, Team.setV_v_self], Team.setTag_tag_self ..⟩

theorem Team.rebuild_ne (h : r ≠ q) : (u.rebuild r).v q = u.v q ∧ (u.rebuild r).tag q = u.tag q := by
  unfold Team.rebuild
  split
  · exact ⟨rfl, rfl⟩
  · exact ⟨by rw [Team.setTag_v, Team.setV_v_ne _ _ h], by rw [Team.setTag_tag_ne _ _ h, Team.setV_tag]⟩

theorem Team.rebuild_id : (u.rebuild r).id = u.id := by rw [u.rebuild_eq]

/-- The plain values of a register depend on its lanes, its tag and the width. -/
theorem Team.plain_congr {t : Team} (hid : t.id = u.id) (hv : t.v q = u.v q) (ht : t.tag q = u.tag q) : t.plain q = u.plain q := by
  simp only [Team.plain, Team.inBlocks, Team.blockLen, Team.width, hid, hv, ht]

theorem Team.foldl_rebuild_not_mem {rs : List VReg} (h : q ∉ rs) (u : Team) :
    (rs.foldl Team.rebuild u).v q = u.v q ∧ (rs.foldl Team.rebuild u).tag q = u.tag q := by
  induction rs generalizing u with
  | nil => exact ⟨rfl, rfl⟩
  | cons r rs ih =>
    obtain ⟨hne, hrs⟩ := not_or.1 (List.mem_cons.not.1 h)
    obtain ⟨hv, ht⟩ := ih hrs (u.rebuild r)
    obtain ⟨hv', ht'⟩ := Team.rebuild_ne (u := u) (Ne.symm hne)
    exact ⟨hv.trans hv', ht.trans ht'⟩

/-- Each register of a list is rebuilt once. -/
theorem Team.foldl_rebuild_mem {rs : List VReg} (hn : rs.Nodup) (h : q ∈ rs) (u : Team) :
    (rs.foldl Team.rebuild u).v q = u.plain q ∧ (rs.foldl Team.rebuild u).tag q = 0 := by
  induction rs generalizing u with
  | nil => exact absurd h List.not_mem_nil
  | cons r rs ih =>
    obtain ⟨hr, hrs⟩ := List.nodup_cons.1 hn
    rw [List.foldl_cons]
    by_cases hq : q = r
    · subst hq
      obtain ⟨hv, ht⟩ := Team.foldl_rebuild_not_mem hr (u.rebuild q)
      obtain ⟨hv', ht'⟩ := Team.rebuild_self (u := u) (r := q)
      exact ⟨hv.trans hv', ht.trans ht'⟩
    · obtain ⟨hv, ht⟩ := ih hrs ((List.mem_cons.1 h).resolve_left hq) (u.rebuild r)
      obtain ⟨hv', ht'⟩ := Team.rebuild_ne (u := u) (Ne.symm hq)
      exact ⟨hv.trans (Team.plain_congr Team.rebuild_id hv' ht'), ht⟩

theorem vReads_nodup (i : Instr) : i.vReads.Nodup := (List.nodup_finRange 64).filter _

theorem Team.prepare_not_mem {i : Instr} (h : q ∉ i.vReads) : (u.prepare i).v q = u.v q ∧ (u.prepare i).tag q = u.tag q := by
  unfold Team.prepare
  split
  · exact ⟨rfl, rfl⟩
  · exact Team.foldl_rebuild_not_mem h u

theorem Team.prepare_mem {i : Instr} (he : u.effOf i ≠ 0) (hc : u.readsCoeffs i = false) (h : q ∈ i.vReads) :
    (u.prepare i).v q = u.plain q ∧ (u.prepare i).tag q = 0 := by
  unfold Team.prepare
  rw [if_neg (not_or.2 ⟨he, by simp [hc]⟩)]
  exact Team.foldl_rebuild_mem (vReads_nodup i) h u

theorem Team.prepare_of_eff_empty {i : Instr} (h : u.effOf i = 0) : u.prepare i = u := if_pos (.inl h)

end

end Sys2Proof.Machine

namespace Sys2Proof.Claim
open Sys2Proof Sys2Proof.Machine

/-- Settles O33: each source that is not read as coefficients is rebuilt once, to the values that its levels give, and nothing else changes. -/
theorem reconstructionRewritesTheSource : Obligations.ReconstructionRewritesTheSource := by
  unfold Obligations.ReconstructionRewritesTheSource
  intro u i hu
  refine ⟨Team.prepare_of_eff_empty, fun r he hc hr => ?_, fun r hr => (Team.prepare_not_mem hr).symm, u.prepare_regs_s i, u.prepare_regs_p i,
    u.prepare_ctl i, u.prepare_flow i, u.prepare_id i, u.prepare_place i, u.prepare_sch i⟩
  obtain ⟨hv, ht⟩ := Team.prepare_mem he hc hr
  refine ⟨ht, fun l hl => ?_⟩
  rw [lane, hv, hu.plain_eq, getD_tabulate _ _ hl]

end Sys2Proof.Claim
end

section
/-!
PROOFS. Conversions (spec/07 R127, R128): the fields of the pairs, and the rounding state from lane to lane (spec/04 R83).
-/
namespace Sys2Proof.Machine
open Sys2Proof Claim

/-! ### The rounding state (spec/04 R83) -/

/-- The rounding state after n elements: only `sr` advances it. -/
def srAfter (sel : Rnd) (n : Nat) (st : W32) : W32 := if sel = .sr then stepSr^[n] st else st

theorem srAfter_zero (sel : Rnd) (st : W32) : srAfter sel 0 st = st := by simp [srAfter]

theorem srAfter_add (sel : Rnd) (m n : Nat) (st : W32) : srAfter sel (m + n) st = srAfter sel n (srAfter sel m st) := by
  unfold srAfter
  split
  · rw [Nat.add_comm, Function.iterate_add_apply]
  · rfl

/-- The step of the model is the step of the rule. -/
theorem srAfter_one (sel : Rnd) (st : W32) : srAfter sel 1 st = if sel = .sr then xorshift st else st := rfl

/-! ### Lanes converted in ascending order -/

/-- The lanes of a mask among n lanes from lane l on. -/
def maskCount (m : Mask) (l n : Nat) : Nat := (List.range' l n).countP m.getLsbD

theorem maskCount_succ (m : Mask) (l n : Nat) : maskCount m l (n + 1) = maskCount m (l + 1) n + if m.getLsbD l then 1 else 0 := by
  rw [maskCount, List.range'_succ, List.countP_cons]
  rfl

theorem maskCount_zero (m : Mask) (l : Nat) : maskCount m l 0 = 0 := rfl

theorem maskCount_range (m : Mask) (n : Nat) : maskCount m 0 n = (List.range n).countP m.getLsbD := by
  rw [maskCount, List.range_eq_range']

/-- A lane of the mask is converted with the rounding state advanced once for each lane of the mask up to it. -/
theorem cvtLanes_tabulate (m : Mask) (sel : Rnd) (f : W32 → W32 → W32 → W32) (n l : Nat) (st : W32) (x y : Nat → W32) :
    cvtLanes m sel f l st (tabulate n x) (tabulate n y) =
      (tabulate n fun j => if m.getLsbD (l + j) then f (srAfter sel (maskCount m l (j + 1)) st) (x j) (y j) else x j,
        srAfter sel (maskCount m l n) st) := by
  induction n generalizing l st x y with
  | zero =>
    rw [tabulate_zero, tabulate_zero, cvtLanes, tabulate_zero, maskCount_zero, srAfter_zero]
    exact fun _ _ _ _ h => absurd h (by simp)
  | succ n ih =>
    simp only [tabulate_succ, cvtLanes, ih, ← srAfter_one, maskCount_succ m l, Nat.add_zero, Nat.add_assoc, Nat.add_comm 1]
    split
    · simp only [Nat.add_comm _ 1, srAfter_add, maskCount_zero, srAfter_zero]
    · simp only [Nat.add_zero]

/-! ### The fields of the pairs (spec/07 R127) -/

theorem pairTable_eq_cvtField : ∀ n < 40, pairTable.getD (n % 20) (fmtF16, 0, 16) = cvtField n := by decide

theorem pairValue_eq_cvtLane {n : Nat} (hn : n < 40) (sel : Rnd) (st d a : W32) : pairValue n sel st d a = cvtLane n sel st d a := by
  simp only [pairValue, cvtLane, pairTable_eq_cvtField n hn, putField]

/-! ### SRSTATE after a word -/

theorem setSr_eq (u : Team) (sel : Rnd) (m : Mask) (st : W32) : u.setSr sel m st =
    { u with ctl := { u.ctl with srstate := if sel = .sr ∧ m ≠ 0 then st else u.ctl.srstate } } := by
  unfold Team.setSr
  split <;> rfl

end Sys2Proof.Machine

namespace Sys2Proof.Claim
open Sys2Proof Sys2Proof.Machine

/-! ### The words of R127 -/

theorem srAt_eq (u : Team) (r : CvtRule) (n : Nat) : srAt u r n = srAfter r.sel (maskCount r.m 0 n) u.sr := by
  rw [maskCount_range]
  rfl

/-- What a conversion leaves; `u` is the team after the reconstruction of its sources. -/
def CvtEffect (s t : State) (u : Team) (r : CvtRule) : Prop :=
  (∀ l, l < u.width → lane t.me r.d l = if r.m.getLsbD l then r.f (srAt u r (l + 1)) l else lane u r.d l) ∧
  (t.me.v r.d).length = (u.v r.d).length ∧ t.me.tag r.d = (if r.m = 0 then u.tag r.d else 0) ∧
  t.me.ctl = { s.me.ctl with
    pc := t.me.ctl.pc, word := t.me.ctl.word,
    srstate := if r.sel = .sr ∧ r.m ≠ 0 then srAt u r u.width else s.me.ctl.srstate } ∧
  OnlyMe s t ∧ (t.me.ctl.pc, t.me.ctl.word) = nextPos s.me ∧ RegsKept u t.me [.v r.d.val] ∧ FlowKept s.me t.me ∧ SelfKept s.me t.me

/-- A register written in the lanes of a mask and SRSTATE after it, where the values are those of the rule. -/
theorem cvtEffect_advance {s : State} {u : Team} {r : CvtRule} (hctl : u.ctl = s.me.ctl) (hflow : u.flow = s.me.flow) (hself : SelfKept s.me u)
    (hw : ∀ v, (u.v v).length = u.width) :
    CvtEffect s { s with me := ((u.writeV r.d r.m (tabulate u.width fun l => if r.m.getLsbD l then r.f (srAt u r (l + 1)) l else lane u r.d l) 0).setSr
      r.sel r.m (srAt u r u.width)).advance } u r := by
  obtain ⟨hid, hplace, hsch⟩ := hself
  rw [writeV_eq, setSr_eq]
  refine ⟨fun l hl => ?_, ?_, ?_, ?_, rfl, ?_, (RegsKept.writeV u r.d r.m _ 0).of_regs (Team.advance_regs _), ?_, ?_⟩
  · have hlane : HasLane u l := ⟨hl, fun v => (hw v).symm ▸ hl⟩
    rw [lane, Team.advance_v]
    refine (lane_writeV hlane (getElem?_tabulate _ hl)).trans ?_
    split <;> rfl
  · rw [Team.advance_v]
    exact length_writeV ..
  · rw [Team.advance_tag]
    exact tag_writeV ..
  · rw [Team.advance_ctl]
    simp only [hctl]
  · rw [Team.advance_pos]
    simp only [hctl, hflow]
    rfl
  · rw [FlowKept, Team.advance_flow]
    simp only [hflow]
  · exact ⟨(Team.advance_id _).trans hid, (Team.advance_place _).trans hplace, (Team.advance_sch _).trans hsch⟩

section
variable {s : State} {i : Instr} (h : Passes s i) (hw : ∀ v, ((ready s i).v v).length = (ready s i).width)
include h hw

theorem convert_effect {d a : VReg} {g : Guard} {sel : Rnd} {f : W32 → W32 → W32 → W32} {c : W32 → Nat → W32}
    (hc : ∀ st l, c st l = f st (lane (ready s i) d l) (lane (ready s i) a l)) :
    ∃ t, convert i d a g sel f s = .next t ∧ CvtEffect s t (ready s i) ⟨d, (ready s i).eff g, sel, c⟩ := by
  refine ⟨_, run_of_check_none _ h, ?_⟩
  simp only [State.setMe_me, v_eq_tabulate (hw _), cvtLanes_tabulate, Nat.zero_add]
  have he := cvtEffect_advance (s := s) (r := ⟨d, (ready s i).eff g, sel, c⟩) (Team.prepare_ctl ..) (Team.prepare_flow ..)
    ⟨Team.prepare_id .., Team.prepare_place .., Team.prepare_sch ..⟩ hw
  simp only [srAt_eq, hc] at he
  exact he

end

/-- Each conversion has the effect of its rule. -/
theorem exec_of_cvtRule {s : State} {i : Instr} {r : CvtRule} (hr : cvtRule (ready s i) i = some r) (h : Passes s i)
    (hw : ∀ v, ((ready s i).v v).length = (ready s i).width) : ∃ t, exec i s = .next t ∧ CvtEffect s t (ready s i) r := by
  cases i with
  | fcvtConvert d a n g sel => cases hr; rw [exec, execFcvtConvert]; exact convert_effect h hw fun _ _ => pairValue_eq_cvtLane n.isLt ..
  | fcvtI32 d a g sel => cases hr; rw [exec, execFcvtI32]; exact convert_effect h hw fun _ _ => rfl
  | fcvtWi32 d a g sel => cases hr; rw [exec, execFcvtWi32]; exact convert_effect h hw fun _ _ => rfl
  | _ => cases hr

/-- Settles O8: the lanes of the mask are converted in ascending order, each with the rounding state that the lanes before it leave. -/
theorem conversionsRoundLaneByLane : Obligations.ConversionsRoundLaneByLane := by
  unfold Obligations.ConversionsRoundLaneByLane
  exact fun s i r => exec_of_cvtRule

end Sys2Proof.Claim
end

section
/-!
PROOFS. What the transform pipe computes (spec/05 R94 to R96; spec/07 R135 to R140): each transform of a register by its lanes.
-/
namespace Sys2Proof.Machine
open Sys2Proof Claim

/-! ### The forward transform (spec/05 R95) -/

theorem haarFwd_eq (a b : W32) : haarFwd a b = (halfSum a b, halfDiff a b) := rfl

theorem haarLevel_tabulate (n : Nat) (x : Nat → W32) : haarLevel (tabulate (2 * n) x) =
    (tabulate n fun i => halfSum (x (2 * i)) (x (2 * i + 1)), tabulate n fun i => halfDiff (x (2 * i)) (x (2 * i + 1))) := by
  induction n generalizing x with
  | zero => rfl
  | succ n ih =>
    rw [Nat.mul_succ, tabulate_succ, tabulate_succ, haarLevel, ih, haarFwd_eq, tabulate_succ, tabulate_succ]
    rfl

/-- The approximations of the first level. -/
def firstLevel (x : Nat → W32) (i : Nat) : W32 := halfSum (x (2 * i)) (x (2 * i + 1))

theorem approxOf_firstLevel (x : Nat → W32) (j : Nat) : approxOf (firstLevel x) j = approxOf x (j + 1) := by
  induction j with
  | zero => rfl
  | succ j ih =>
    funext i
    rw [approxOf, ih]
    rfl

theorem detailOf_firstLevel (x : Nat → W32) (j : Nat) : detailOf (firstLevel x) j = detailOf x (j + 1) := by
  funext i
  rw [detailOf, approxOf_firstLevel]
  rfl

/-- In coefficient-tree order the first half holds the tree of the first level. -/
theorem treeOf_low (x : Nat → W32) (n d : Nat) {i : Nat} (hi : i < n) : treeOf x (2 * n) (d + 1) i = treeOf (firstLevel x) n d i := by
  have hdiv (k : Nat) : 2 * n / 2 ^ (k + 1) = n / 2 ^ k := by rw [pow_succ', Nat.mul_div_mul_left _ _ Nat.two_pos]
  induction d with
  | zero =>
    simp only [treeOf, hdiv, pow_zero, Nat.div_one, hi, if_true]
    rfl
  | succ d ih => rw [treeOf, hdiv, hdiv, ih, treeOf, approxOf_firstLevel, detailOf_firstLevel]

/-- And the second half the details of the first level. -/
theorem treeOf_high (x : Nat → W32) (n d i : Nat) (hi : i < n) : treeOf x (2 * n) (d + 1) (n + i) = halfDiff (x (2 * i)) (x (2 * i + 1)) := by
  have hdiv (k : Nat) : 2 * n / 2 ^ (k + 1) = n / 2 ^ k := by rw [pow_succ', Nat.mul_div_mul_left _ _ Nat.two_pos]
  have hle (k : Nat) : ¬ n + i < n / 2 ^ k := fun h => absurd (h.trans_le (Nat.div_le_self n _)) (by omega)
  induction d with
  | zero =>
    rw [treeOf, hdiv, if_neg (hle 0), if_pos (by omega), pow_zero, Nat.div_one, Nat.add_sub_cancel_left]
    rfl
  | succ d ih => rw [treeOf, hdiv, hdiv, if_neg (hle _), if_neg (hle _), ih]

/-- The transform of a block is its coefficient tree. -/
theorem haarForward_tabulate (d m : Nat) (x : Nat → W32) :
    haarForward d (tabulate (2 ^ d * m) x) = tabulate (2 ^ d * m) (treeOf x (2 ^ d * m) d) := by
  induction d generalizing x with
  | zero => rfl
  | succ d ih =>
    have hn : 2 ^ (d + 1) * m = 2 * (2 ^ d * m) := by rw [pow_succ', Nat.mul_assoc]
    rw [haarForward, hn, haarLevel_tabulate]
    refine (congrArg (· ++ _) (ih (firstLevel x))).trans ?_
    rw [Nat.two_mul, tabulate_add]
    congr 1
    · exact tabulate_congr fun i hi => by rw [← Nat.two_mul, treeOf_low x _ d hi]
    · exact tabulate_congr fun i hi => by rw [← Nat.two_mul, treeOf_high x _ d i hi]

/-! ### Thresholds (spec/05 R96) -/

theorem survives_eq_keepsLane (h x : W32) : survives h [x] = keepsLane h x := by
  unfold survives keepsLane
  by_cases hv : fmtF32.value x.toNat = .nan
  · simp [hv]
  · by_cases ht : fmtF32.value h.toNat = .nan <;> simp [hv, ht]

theorem threshold_eq (h x : W32) : (if survives h [x] then x else 0) = if keepsLane h x then x else 0 := by rw [survives_eq_keepsLane]

theorem blend_tabulate (m : Mask) (n : Nat) (x y : Nat → W32) :
    blend m 0 (tabulate n x) (tabulate n y) = tabulate n fun l => if m.getLsbD l then y l else x l := by
  refine eq_tabulate (by rw [blend_length, length_tabulate]) fun l hl => ?_
  exact blend_getElem?_some (getElem?_tabulate x hl) (getElem?_tabulate y hl)

/-! ### Lanes packed and unpacked (spec/07 R137) -/

/-- Values in order at the first positions, then 0. -/
theorem packed_tabulate {n : Nat} {ys : List Nat} (x : Nat → W32) (h : ys.length ≤ n) : ys.map x ++ List.replicate (n - ys.length) 0 =
    tabulate n fun i => match ys[i]? with | some k => x k | none => 0 := by
  refine eq_tabulate (by rw [List.length_append, List.length_map, List.length_replicate]; omega) fun i hi => ?_
  rcases lt_or_ge i ys.length with hl | hl
  · rw [List.getElem?_append_left (by rwa [List.length_map]), List.getElem?_map, List.getElem?_eq_getElem hl]
    rfl
  · rw [List.getElem?_append_right (by rwa [List.length_map]), List.getElem?_eq_none hl, List.getElem?_replicate, List.length_map,
      if_pos (by omega)]

theorem packBlock_tabulate (n : Nat) (p : Nat → Bool) (x : Nat → W32) : packBlock (tabulate n p) (tabulate n x) =
    tabulate n fun i => match ((List.range n).filter p)[i]? with | some k => x k | none => 0 := by
  have hones : (((tabulate n p).zip (tabulate n x)).filter (·.1)).map (·.2) = ((List.range n).filter p).map x := by
    rw [List.zip, zipWith_tabulate, tabulate, List.filter_map, List.map_map]
    rfl
  rw [packBlock, hones, length_tabulate, List.length_map]
  exact packed_tabulate x ((List.length_filter_le _ _).trans_eq List.length_range)

/-- A position takes the values in the order of the positions whose predicate is 1. -/
theorem unpackBlock_tabulate (n : Nat) (p : Nat → Bool) (xs : List W32) : unpackBlock (tabulate n p) xs =
    tabulate n fun i => if p i then xs.getD ((List.range i).countP p) 0 else 0 := by
  induction n generalizing p xs with
  | zero => rfl
  | succ n ih =>
    have hcount (i : Nat) : (List.range (i + 1)).countP p = ((List.range i).countP fun k => p (k + 1)) + if p 0 then 1 else 0 := by
      rw [List.range_succ_eq_map, List.countP_cons, List.countP_map]
      rfl
    rw [tabulate_succ, tabulate_succ]
    cases hp : p 0 with
    | false => simp [unpackBlock, ih, hcount, hp]
    | true => cases xs <;> simp [unpackBlock, ih, hcount, hp]

/-- The positions before one whose predicate is 1, counted in the block or up to it. -/
theorem countP_filter_range {n i : Nat} (hi : i ≤ n) (p : Nat → Bool) : ((List.range n).filter p).countP (· < i) = (List.range i).countP p := by
  obtain ⟨k, rfl⟩ := Nat.exists_eq_add_of_le hi
  rw [List.countP_filter, List.range_add, List.countP_append, List.countP_map]
  have hlow : (List.range i).countP (fun k => decide (k < i) && p k) = (List.range i).countP p :=
    List.countP_congr fun k hk => by simp [List.mem_range.1 hk]
  have hhigh : (List.range k).countP ((fun k => decide (k < i) && p k) ∘ (i + ·)) = 0 :=
    List.countP_eq_zero.2 fun j _ => by simp
  rw [hlow, hhigh, Nat.add_zero]

/-! ### Quantisation (spec/07 R139) -/

theorem mxElems_tabulate (f : Fmt) (sel : Rnd) (sb n : Nat) (st : W32) (x : Nat → W32) : mxElems f sel sb st (tabulate n x) =
    (tabulate n fun i => mxElem f sel (srAfter sel (i + 1) st) sb (x i), srAfter sel n st) := by
  induction n generalizing st x with
  | zero => rw [tabulate_zero, mxElems, tabulate_zero, srAfter_zero]
  | succ n ih =>
    simp only [tabulate_succ, mxElems, ih, ← srAfter_one, ← srAfter_add, Nat.add_comm 1]

/-- Blocks of n values quantised one after another, with one rounding state for each value. -/
theorem mxBlocks_tabulate (f : Fmt) (emax : Nat) (sel : Rnd) (k n : Nat) (st : W32) (x : Nat → Nat → W32) :
    mxBlocks f emax sel st (tabulate k fun j => tabulate n (x j)) =
      ((tabulate k fun j => tabulate n fun i => mxElem f sel (srAfter sel (j * n + i + 1) st) (mxScale emax (tabulate n (x j))) (x j i)).flatten,
        srAfter sel (k * n) st) := by
  induction k generalizing st x with
  | zero => rw [tabulate_zero, mxBlocks, tabulate_zero, Nat.zero_mul, srAfter_zero]; rfl
  | succ k ih =>
    simp only [tabulate_succ, mxBlocks, ih, mxElems_tabulate, ← srAfter_add, List.flatten_cons, Nat.succ_mul, Nat.zero_mul, Nat.zero_add,
      Nat.add_comm _ n, Nat.add_assoc]

theorem mxScale_eq_scaleByte (m : MxFmt) (xs : List W32) : mxScale (mxFmt m).2.1 xs = scaleByte (mxOf m).2.1 xs := by cases m <;> rfl

theorem mxElem_eq (m : MxFmt) (sel : Rnd) (st : W32) (sb : Nat) (x : W32) : mxElem (mxFmt m).1 sel st sb x =
    BitVec.ofNat 32 (sb * 2 ^ 8 + if sb = 0xFF then 0
      else (mxOf m).1.round (if sel = .rne then .sat else sel) st ((fmtF32.value x.toNat).scale (127 - sb))) := by
  unfold mxElem
  split
  · next h => simp only [h]; rfl
  · cases m <;> rfl

/-! ### Dequantisation (spec/07 R140) -/

theorem mxdqLane_eq (m : MxFmt) (x : W32) : mxdqLane m x = BitVec.ofNat 32 (fmtF32.rne (
    let sb : Nat := x.toNat / 2 ^ 8 % 2 ^ 8
    let q := (mxOf m).1.value (x.toNat % 2 ^ (mxOf m).2.2)
    if sb = 0xFF then .nan else q.scale ((sb : Int) - 127))) := by cases m <;> rfl

theorem signedOf_four (x : Nat) : signedOf 4 x = (BitVec.ofNat 4 x).toInt := by
  rw [BitVec.toInt_eq_toNat_cond, BitVec.toNat_ofNat, signedOf]
  split <;> split <;> omega

theorem i4dqLane_eq (x : W32) : i4dqLane x = BitVec.ofNat 32 (fmtF32.rne ((fmtF16.value (x.toNat / 2 ^ 16)).mul
    (let k : Int := (BitVec.ofNat 4 x.toNat).toInt - (BitVec.ofNat 4 (x.toNat / 2 ^ 4)).toInt
     .fin (decide (k < 0)) k.natAbs 0))) := by
  rw [← signedOf_four, ← signedOf_four]
  rfl

end Sys2Proof.Machine

namespace Sys2Proof.Claim
open Sys2Proof Sys2Proof.Machine

/-! ### A request of the pipe (spec/07 R133, R134) -/

theorem request_pipe (c : Core) (q : PipeReq) :
    (c.request q).pipe = c.pipe.filter (arrivedBy q) ++ q :: c.pipe.filter fun x => !arrivedBy q x := by
  have hearly (x : PipeReq) : (decide (x.at_ < q.at_) || (x.at_ == q.at_ && decide (x.from_ ≤ q.from_))) = arrivedBy q x := by
    simp [arrivedBy, Bool.decide_or, Bool.decide_and, beq_eq_decide]
  simp only [Core.request, hearly]

/-- What a transform leaves. -/
def XfrmEffect (s : State) (i : Instr) (o : Host.Outcome State Fault Refusal) (r : XfrmRule) : Prop :=
  (s.me.em = 0 → ∃ t, o = .next t ∧ WritesOnly s t s.me []) ∧
  (s.me.em ≠ 0 → ∃ t q, o = .next t ∧
    (t.core s.me.core).pipe = (s.core s.me.core).pipe.filter (arrivedBy q) ++ q :: (s.core s.me.core).pipe.filter (fun x => !arrivedBy q x) ∧
    q.at_ = s.coreCyc s.me.core ∧ q.from_ = s.me.sched ∧
    q.tid = some s.me.id.tid ∧ Writes (ready s i) q r ∧ t = { s with me := t.me, cores := t.cores } ∧
    (∀ c, c % 256 ≠ s.me.core % 256 → t.core c = s.core c) ∧ RegsKept (ready s i) t.me [] ∧
    t.me.ctl = { s.me.ctl with
      pc := (nextPos s.me).1, word := (nextPos s.me).2, srstate := r.next.getD s.me.ctl.srstate } ∧
    t.me.flow = { s.me.flow with
      hold := .xfrm, group := t.me.flow.group, sw := t.me.flow.sw, fetched := t.me.flow.fetched, park := t.me.flow.park } ∧ SelfKept s.me t.me)

/-- The destinations of a rule, with the lanes of a team. -/
def XfrmRule.results (r : XfrmRule) (u : Team) : List (VReg × List W32 × BitVec 4) := r.regs.map fun y => (y.1, tabulate u.width y.2.1, y.2.2)

theorem XfrmRule.writes_results (r : XfrmRule) (u : Team) {q : PipeReq} (h : q.regs = r.results u) : Writes u q r := by
  rw [Writes, h, XfrmRule.results, List.forall₂_map_left_iff, List.forall₂_same]
  exact fun y _ => ⟨rfl, rfl, length_tabulate .., fun l hl => getD_tabulate _ _ hl⟩

/-- The request of a team that names its destinations, and the team that waits for the reply. -/
def xfrmRequest (s : State) (r : XfrmRule) (u : Team) : PipeReq := ⟨some s.me.id.tid, r.results u, 0, 0, s.coreCyc s.me.core, s.me.sched⟩
def xfrmWaiting (s : State) (r : XfrmRule) (u : Team) : Team :=
  { u with ctl := { s.me.ctl with srstate := r.next.getD s.me.ctl.srstate }, flow := { s.me.flow with hold := .xfrm } }

section
variable {s : State} {i : Instr} (h : Passes s i) (hg : i.guard? = none) {results : Team → List (VReg × List W32 × BitVec 4)} {after : Team → Team}
  {r : XfrmRule} (hres : results (ready s i) = r.results (ready s i))
  (hafter : s.me.em ≠ 0 → after (ready s i) = { ready s i with ctl := { s.me.ctl with srstate := r.next.getD s.me.ctl.srstate } })

include h hg in
theorem transform_idle (h0 : s.me.em = 0) : transform i results after s = .next s.advance := by
  have hp : s.me.prepare i = s.me := Team.prepare_of_eff_empty (by rw [Team.effOf, hg, h0])
  refine (run_of_prepare_eq _ h hp).trans ?_
  rw [if_pos h0]

include h hres hafter in
theorem transform_asks (h0 : s.me.em ≠ 0) : transform i results after s =
    .next { s.updCore s.me.core (·.request (xfrmRequest s r (ready s i))) with me := (xfrmWaiting s r (ready s i)).advance } := by
  have hwait : ((after (ready s i)).updFlow fun f => { f with hold := .xfrm }) = xfrmWaiting s r (ready s i) := by
    rw [hafter h0, Team.updFlow, Team.prepare_flow]
    rfl
  refine (run_of_check_none _ h).trans (congrArg Host.Outcome.next ?_)
  simp only [State.setMe_me, Team.prepare_em, h0, if_false, State.pipeSend, Team.prepare_core, Team.prepare_sched, Team.prepare_id, hres]
  exact congrArg (fun u : Team => { s.updCore s.me.core (·.request (xfrmRequest s r (ready s i))) with me := u.advance }) hwait

include h hg hres hafter in
/-- A transform whose request holds the destinations of its rule. -/
theorem transform_effect : XfrmEffect s i (transform i results after s) r := by
  refine ⟨fun h0 => ⟨_, transform_idle h hg h0, writesOnly_advance s (RegsKept.refl s.me []) rfl⟩, fun h0 =>
    ⟨_, xfrmRequest s r (ready s i), transform_asks h hres hafter h0, ?_, rfl, rfl, rfl, r.writes_results _ rfl, rfl,
      fun c hc => s.updCore_core_ne (·.request (xfrmRequest s r (ready s i))) hc, (RegsKept.refl _ _).of_regs (Team.advance_regs (xfrmWaiting s r (ready s i))), ?_, ?_, ?_⟩⟩
  · exact (congrArg Core.pipe (s.updCore_core_self s.me.core (·.request (xfrmRequest s r (ready s i))))).trans (request_pipe _ _)
  · have hpos := (xfrmWaiting s r (ready s i)).advance_pos
    rw [Team.advance_ctl, ← show _ = nextPos s.me from hpos]
    rfl
  · rw [Team.advance_flow]
    rfl
  · exact ⟨(Team.advance_id _).trans (Team.prepare_id ..), (Team.advance_place _).trans (Team.prepare_place ..),
      (Team.advance_sch _).trans (Team.prepare_sch ..)⟩

end

/-! ### The lanes of each transform (spec/07 R135 to R140) -/

section
variable {u : Team} (h : Sized u) (a : VReg)
include h

theorem Sized.blocks_eq : blocksOf u.blockLen (u.width / u.blockLen) (u.v a) =
    tabulate (u.width / u.blockLen) fun j => tabulate u.blockLen fun i => lane u a (j * u.blockLen + i) := by
  rw [← blocksOf_tabulate, h.width_eq, h.v_eq a]

theorem Sized.forward_eq {k : Nat} (hk : 2 ^ k ≤ u.blockLen) : u.inBlocks (haarForward k) (u.v a) = tabulate u.width fun l =>
    treeOf (fun i => lane u a (l / blockOf u * blockOf u + i)) (blockOf u) k (l % blockOf u) := by
  obtain ⟨m, hm⟩ := h.blockLen_of_le hk
  rw [h.v_eq a, h.inBlocks (y := fun j => treeOf (fun i => lane u a (j * u.blockLen + i)) u.blockLen k) fun j => by rw [hm, haarForward_tabulate]]
  rfl

/-- A transform of each lane of the execute mask. -/
theorem Sized.lanewise_eq (d : VReg) {f g : W32 → W32} (hf : ∀ x, f x = g x) :
    blend u.em 0 (u.v d) ((u.v a).map f) = tabulate u.width fun l => if u.em.getLsbD l then g (lane u a l) else lane u d l := by
  rw [h.v_eq d, h.v_eq a, map_tabulate, blend_tabulate]
  simp only [hf]

theorem Sized.pack_eq (p : PReg) : (List.zipWith packBlock (u.predBlocks p) (blocksOf u.blockLen (u.width / u.blockLen) (u.v a))).flatten =
    tabulate u.width fun l => match (onesOf u p l)[l % blockOf u]? with
      | some i => lane u a (l / blockOf u * blockOf u + i)
      | none => 0 := by
  have hp : u.predBlocks p = tabulate (u.width / u.blockLen) fun j => tabulate u.blockLen fun i => (u.p p).getLsbD (j * u.blockLen + i) := rfl
  rw [hp, h.blocks_eq a, zipWith_tabulate, tabulate_congr fun j _ => packBlock_tabulate _ _ _, flatten_tabulate, h.width_eq]
  rfl

theorem Sized.unpack_eq (p : PReg) : (List.zipWith unpackBlock (u.predBlocks p) (blocksOf u.blockLen (u.width / u.blockLen) (u.v a))).flatten =
    tabulate u.width fun l =>
      if (u.p p).getLsbD l then lane u a (l / blockOf u * blockOf u + (onesOf u p l).countP (· < l % blockOf u)) else 0 := by
  have hp : u.predBlocks p = tabulate (u.width / u.blockLen) fun j => tabulate u.blockLen fun i => (u.p p).getLsbD (j * u.blockLen + i) := rfl
  rw [hp, h.blocks_eq a, zipWith_tabulate, tabulate_congr fun j _ => unpackBlock_tabulate _ _ _, flatten_tabulate, h.width_eq]
  refine tabulate_congr fun l hl => ?_
  have hlt : l % u.blockLen < u.blockLen := Nat.mod_lt _ (by obtain ⟨k, _, hk⟩ := h.blockLen_eq; simp [hk])
  have hcount : (List.range (l % u.blockLen)).countP (fun i => (u.p p).getLsbD (l / u.blockLen * u.blockLen + i)) < u.blockLen :=
    (List.countP_le_length.trans_eq List.length_range).trans_lt hlt
  rw [Nat.div_add_mod', getD_tabulate _ _ hcount, ← countP_filter_range hlt.le]
  rfl

theorem Sized.mxq_eq (m : MxFmt) (sel : Rnd) : u.mxq a m sel =
    (tabulate u.width fun l => quantised u a m sel (srAfter sel (l + 1) u.sr) l, srAfter sel u.width u.sr) := by
  have hw : u.id.m * 32 = u.width := Nat.mul_comm ..
  have hblocks : blocksOf 32 u.id.m (u.v a) = tabulate u.id.m fun j => tabulate 32 fun i => lane u a (j * 32 + i) := by
    rw [← blocksOf_tabulate, hw, h.v_eq a]
  rw [Team.mxq, hblocks, mxBlocks_tabulate, flatten_tabulate, hw]
  refine congrArg (·, _) (tabulate_congr fun l _ => ?_)
  rw [Nat.div_add_mod', mxScale_eq_scaleByte, mxElem_eq]
  rfl

end

/-! ### The XFRM words (spec/07 R135 to R140) -/

/-- A word that leaves SRSTATE. -/
theorem ready_keeps_srstate (s : State) (i : Instr) : ready s i = { ready s i with ctl := { s.me.ctl with srstate := s.me.ctl.srstate } } := by
  rw [← Team.prepare_ctl s.me i]

/-- A transform of one register that leaves SRSTATE. -/
theorem oneReg_effect {s : State} {i : Instr} (h : Passes s i) (hg : i.guard? = none) {d : VReg} {xs : Team → List W32} {f : Nat → W32}
    {tag : Team → BitVec 4} (hxs : xs (ready s i) = tabulate (ready s i).width f) :
    XfrmEffect s i (transform i (fun t => [(d, xs t, tag t)]) (fun t => t) s) (oneReg d f (tag (ready s i))) :=
  transform_effect h hg (by simp only [hxs, XfrmRule.results, oneReg, List.map_cons, List.map_nil]) fun _ => ready_keeps_srstate s i

theorem mxq_effect {s : State} {d a : VReg} {m : MxFmt} {sel : Rnd} (h : Passes s (.xfrmMxq d a m sel)) (hu : Sized (ready s (.xfrmMxq d a m sel)))
    {r : XfrmRule} (hr : xfrmRule (ready s (.xfrmMxq d a m sel)) (.xfrmMxq d a m sel) = some r) :
    XfrmEffect s (.xfrmMxq d a m sel) (execXfrmMxq d a m sel s) r := by
  cases hr
  refine transform_effect h rfl ?_ fun h0 => ?_
  · simp only [hu.mxq_eq, XfrmRule.results, List.map_cons, List.map_nil]
    rfl
  · rw [setSr_eq, hu.mxq_eq, Team.prepare_em, Team.prepare_ctl, srAfter]
    by_cases hs : sel = .sr
    · simp only [hs, h0, ne_eq, not_false_eq_true, and_self, if_true, Option.getD_some, Team.prepare_sr, Team.prepare_width]
    · simp only [hs, false_and, if_false, Option.getD_none]

/-- The operand check of hfwd: the lanes of a block allow its depth. -/
theorem depth_of_passes {s : State} {d a : VReg} {k : Fin 8} (h : Passes s (.xfrmHfwd d a k)) : 2 ^ k.val ≤ (ready s (.xfrmHfwd d a k)).blockLen := by
  obtain ⟨_, _, _, hop, _⟩ := (s.check_none_iff _).1 h
  have hk : (k != 0 && decide (2 ^ k.val ≤ s.me.blockLen)) = true := hop
  rw [Team.prepare_blockLen]
  exact of_decide_eq_true (Bool.and_eq_true_iff.1 hk).2

/-- Each transform has the effect of its rule. -/
theorem exec_of_xfrmRule {s : State} {i : Instr} {r : XfrmRule} (hr : xfrmRule (ready s i) i = some r) (h : Passes s i) (hu : Sized (ready s i)) :
    XfrmEffect s i (exec i s) r := by
  cases i with
  | xfrmHfwd d a k =>
    cases hr
    rw [exec, execXfrmHfwd]
    exact oneReg_effect h rfl (hu.forward_eq a (depth_of_passes h))
  | xfrmHinv d a => cases hr; rw [exec, execXfrmHinv]; exact oneReg_effect h rfl (hu.plain_eq a)
  | xfrmHthr d a k => cases hr; rw [exec, execXfrmHthr]; exact oneReg_effect h rfl (hu.lanewise_eq a d (threshold_eq _))
  | xfrmHpack d a p => cases hr; rw [exec, execXfrmHpack]; exact oneReg_effect h rfl (hu.pack_eq a p)
  | xfrmHunpk d a k p => cases hr; rw [exec, execXfrmHunpk]; exact oneReg_effect h rfl (hu.unpack_eq a p)
  | xfrmXpose d a =>
    cases hr
    rw [exec, execXfrmXpose]
    refine transform_effect h rfl ?_ fun _ => ready_keeps_srstate s _
    rw [XfrmRule.results, List.map_map]
    rfl
  | xfrmMxq d a m sel => rw [exec]; exact mxq_effect h hu hr
  | xfrmMxdq d a m => cases hr; rw [exec, execXfrmMxdq]; exact oneReg_effect h rfl (hu.lanewise_eq a d (mxdqLane_eq m))
  | xfrmI4dq d a => cases hr; rw [exec, execXfrmI4dq]; exact oneReg_effect h rfl (hu.lanewise_eq a d i4dqLane_eq)
  | _ => cases hr

/-- Settles O34: a transform's request holds the lanes of its rule, and the team waits for the reply with its registers as they were. -/
theorem transformWordsRequestTheirResults : Obligations.TransformWordsRequestTheirResults := by
  unfold Obligations.TransformWordsRequestTheirResults
  exact fun s i r => exec_of_xfrmRule

end Sys2Proof.Claim
end

section
/-!
PROOFS. Replies of the transform pipe and ends of operations (spec/02 R36, R37; spec/07 R131 to R134; spec/09 R161).
-/
namespace Sys2Proof.Machine
open Sys2Proof Claim

/-! ### Registers written by a reply (spec/07 R134) -/

/-- The destinations of a request, in order, with their lanes and tags. -/
def Team.writeRegs (rs : List (VReg × List W32 × BitVec 4)) (t : Team) : Team := rs.foldl (fun t (r, xs, tag) => (t.setV r xs).setTag r tag) t

theorem Team.writeRegs_cons (x : VReg × List W32 × BitVec 4) (rs : List (VReg × List W32 × BitVec 4)) (t : Team) :
    t.writeRegs (x :: rs) = ((t.setV x.1 x.2.1).setTag x.1 x.2.2).writeRegs rs := rfl

theorem Team.writeRegs_eq (rs : List (VReg × List W32 × BitVec 4)) (t : Team) :
    t.writeRegs rs = { t with regs := { t.regs with v := (t.writeRegs rs).regs.v, tag := (t.writeRegs rs).regs.tag } } := by
  induction rs generalizing t with
  | nil => rfl
  | cons x rs ih =>
    rw [Team.writeRegs_cons, ih]
    rfl

theorem Team.writeRegs_not_mem {rs : List (VReg × List W32 × BitVec 4)} {r : VReg} (h : r ∉ rs.map (·.1)) (t : Team) :
    (t.writeRegs rs).v r = t.v r ∧ (t.writeRegs rs).tag r = t.tag r := by
  induction rs generalizing t with
  | nil => exact ⟨rfl, rfl⟩
  | cons x rs ih =>
    obtain ⟨hne, hrs⟩ := not_or.1 (List.mem_cons.not.1 h)
    obtain ⟨hv, ht⟩ := ih hrs ((t.setV x.1 x.2.1).setTag x.1 x.2.2)
    rw [Team.writeRegs_cons, hv, ht, Team.setTag_v, Team.setV_v_ne _ _ (Ne.symm hne), Team.setTag_tag_ne _ _ (Ne.symm hne), Team.setV_tag]
    exact ⟨rfl, rfl⟩

theorem Team.writeRegs_mem {rs : List (VReg × List W32 × BitVec 4)} (hn : (rs.map (·.1)).Nodup) {x : VReg × List W32 × BitVec 4} (h : x ∈ rs)
    (t : Team) : (t.writeRegs rs).v x.1 = x.2.1 ∧ (t.writeRegs rs).tag x.1 = x.2.2 := by
  induction rs generalizing t with
  | nil => exact absurd h List.not_mem_nil
  | cons y rs ih =>
    obtain ⟨hy, hrs⟩ := List.nodup_cons.1 hn
    rw [Team.writeRegs_cons]
    rcases List.mem_cons.1 h with rfl | hx
    · obtain ⟨hv, ht⟩ := Team.writeRegs_not_mem hy ((t.setV x.1 x.2.1).setTag x.1 x.2.2)
      rw [hv, ht, Team.setTag_v, Team.setV_v_self, Team.setTag_tag_self]
      exact ⟨rfl, rfl⟩
    · exact ih hrs hx _

theorem Team.regsKept_writeRegs (rs : List (VReg × List W32 × BitVec 4)) (t : Team) :
    RegsKept t (t.writeRegs rs) (rs.map fun x => .v x.1.val) := by
  have hv (r : VReg) (h : Reg.v r.val ∉ rs.map fun x => .v x.1.val) : (t.writeRegs rs).v r = t.v r ∧ (t.writeRegs rs).tag r = t.tag r := by
    refine Team.writeRegs_not_mem (fun hr => h ?_) t
    obtain ⟨x, hx, rfl⟩ := List.mem_map.1 hr
    exact List.mem_map.2 ⟨x, hx, rfl⟩
  rw [Team.writeRegs_eq] at hv ⊢
  exact { RegsKept.refl t _ with onV := hv }

/-! ### A team that a reply serves (spec/07 R131, R134) -/

/-- A team after the reply of its request: it reconstructs the next register of its group, or goes on; a team that waits for no reply takes none. -/
def Team.replied (q : PipeReq) (t : Team) : Team :=
  if t.flow.rebuild ≠ [] then (t.writeRegs q.regs).updFlow fun f => { f with rebuild := f.rebuild.tail }
  else if t.flow.hold = .xfrm then (t.writeRegs q.regs).updFlow fun f => { f with hold := .none }
  else t

theorem Team.replied_rebuilds (q : PipeReq) {t : Team} (h : t.flow.rebuild ≠ []) :
    t.replied q = { t.writeRegs q.regs with flow := { t.flow with rebuild := t.flow.rebuild.tail } } := by
  rw [Team.replied, if_pos h, t.writeRegs_eq]
  rfl

theorem Team.replied_goes_on (q : PipeReq) {t : Team} (h : t.flow.rebuild = []) (hx : t.flow.hold = .xfrm) :
    t.replied q = { t.writeRegs q.regs with flow := { t.flow with hold := .none } } := by
  rw [Team.replied, if_neg (not_not.2 h), if_pos hx, t.writeRegs_eq]
  rfl

theorem Team.replied_keeps (q : PipeReq) (t : Team) : (t.replied q).id = t.id ∧ (t.replied q).place = t.place := by
  unfold Team.replied
  rw [t.writeRegs_eq]
  split
  · exact ⟨rfl, rfl⟩
  · split <;> exact ⟨rfl, rfl⟩

/-! ### The requests of a pipe -/

theorem mem_pipe_request {c : Core} {q x : PipeReq} : x ∈ (c.request q).pipe ↔ x = q ∨ x ∈ c.pipe := by
  rw [request_pipe, List.mem_append, List.mem_cons, List.mem_filter, List.mem_filter]
  cases arrivedBy q x <;> simp [or_comm]

/-- A change of one core that drops no request of its pipe drops none of any. -/
theorem State.mem_pipe_updCore {s : State} {c : Nat} {f : Core → Core} {x : PipeReq} (hf : ∀ k : Core, x ∈ k.pipe → x ∈ (f k).pipe) (d : Nat)
    (h : x ∈ (s.core d).pipe) : x ∈ ((s.updCore c f).core d).pipe := by
  by_cases hd : d % 256 = c % 256
  · have hcore (s : State) : s.core d = s.core c := by simp only [State.core, hd]
    rw [hcore, State.updCore_core_self, ← hcore]
    exact hf _ h
  · rwa [State.updCore_core_ne _ _ hd]

theorem State.sendRebuild_none {s : State} {tid : Nat} {u : Team} (h : s.team? tid = some u) (hr : u.flow.rebuild = []) : s.sendRebuild tid = s := by
  simp only [State.sendRebuild, h, hr]

theorem State.sendRebuild_cons {s : State} {tid : Nat} {u : Team} {r : VReg} {rs : List VReg} (h : s.team? tid = some u)
    (hr : u.flow.rebuild = r :: rs) : s.sendRebuild tid = s.pipeSend u [(r, u.plain r, 0)] := by
  simp only [State.sendRebuild, h, hr]

/-- The next register of a group, where there is one, is a request more; nothing but the pipes changes. -/
theorem State.sendRebuild_keeps (s : State) (tid : Nat) : s.sendRebuild tid = { s with cores := (s.sendRebuild tid).cores } ∧
    ∀ c x, x ∈ (s.core c).pipe → x ∈ ((s.sendRebuild tid).core c).pipe := by
  unfold State.sendRebuild
  split
  · split
    · exact ⟨rfl, fun c x h => State.mem_pipe_updCore (fun _ => fun hx => mem_pipe_request.2 (.inr hx)) c h⟩
    · exact ⟨rfl, fun _ _ h => h⟩
  · exact ⟨rfl, fun _ _ h => h⟩

theorem State.fillNext_keeps (s : State) (core : Nat) : s.fillNext core = { s with cores := (s.fillNext core).cores } ∧
    ∀ c x, x ∈ (s.core c).pipe → x ∈ ((s.fillNext core).core c).pipe := by
  refine ⟨rfl, fun c x h => State.mem_pipe_updCore (fun k hx => ?_) c h⟩
  split
  · split
    · exact hx
    · exact mem_pipe_request.2 (.inr hx)
  · exact hx

/-! ### What a reply does -/

section
variable {s : State} {c : Nat} {q : PipeReq} {rest : List PipeReq} (h : (s.core c).pipe = q :: rest)
include h

theorem execTransformPipeReply_team {tid : Nat} (hq : q.tid = some tid) : execTransformPipeReply c s =
    .next (((s.updCore c fun x => { x with pipe := rest }).updTeam tid (·.replied q)).sendRebuild tid) := by
  simp only [execTransformPipeReply, h, hq]
  rfl

theorem execTransformPipeReply_fill (hq : q.tid = none) : execTransformPipeReply c s =
    .next (((s.updCore c fun x => { x with pipe := rest }).updCopy q.copy fun c => { c with
      jobs := c.jobs.map fun j => if j.tile = q.job then { j with piped := false } else j }).fillNext c) := by
  simp only [execTransformPipeReply, h, hq]

end

/-! ### Results written (spec/02 R36) -/

theorem Team.apply_eq (t : Team) (w : RegWrite) :
    t.apply w = { t with regs := { t.regs with v := (t.apply w).regs.v, s := (t.apply w).regs.s } } := by cases w <;> rfl

theorem Team.foldl_apply_eq (ws : List RegWrite) (t : Team) : ws.foldl Team.apply t =
    { t with regs := { t.regs with v := (ws.foldl Team.apply t).regs.v, s := (ws.foldl Team.apply t).regs.s } } := by
  induction ws generalizing t with
  | nil => rfl
  | cons w ws ih =>
    rw [List.foldl_cons, ih, t.apply_eq]

theorem lane_set (t : Team) (r : VReg) (l k : Nat) (x : W32) : ((t.v r).set l x).getD k 0 = if l = k ∧ l < (t.v r).length then x else lane t r k := by
  rw [lane, List.getD_eq_getElem?_getD, List.getD_eq_getElem?_getD, List.getElem?_set]
  by_cases hk : l = k <;> by_cases hl : l < (t.v r).length
  · simp [hk, hk ▸ hl]
  · subst hk
    simp [hl]
  · simp [hk]
  · simp [hk]

theorem Team.apply_lane (t : Team) (w : RegWrite) (r : VReg) (l : Nat) (h : resultPlace w ≠ (.v r.val, l)) : lane (t.apply w) r l = lane t r l := by
  cases w with
  | s d x => rfl
  | v d k x =>
    by_cases hd : d = r
    · subst hd
      have hk : k ≠ l := fun e => h (by rw [e]; rfl)
      rw [lane, Team.apply, Team.setV_v_self, lane_set, if_neg fun e => hk e.1]
    · rw [lane, Team.apply, Team.setV_v_ne _ _ hd, lane]

theorem Team.apply_length (t : Team) (w : RegWrite) (r : VReg) : ((t.apply w).v r).length = (t.v r).length := by
  cases w with
  | s d x => rfl
  | v d k x =>
    by_cases hd : d = r
    · rw [hd, Team.apply, Team.setV_v_self, List.length_set]
    · rw [Team.apply, Team.setV_v_ne _ _ hd]

theorem Team.apply_s (t : Team) (w : RegWrite) (r : SReg) (h : resultPlace w ≠ (.s r.val, 0)) : (t.apply w).s r = t.s r := by
  cases w with
  | v d k x => rfl
  | s d x => exact t.setS_s_ne x fun e => h (by rw [e]; rfl)

theorem Team.apply_holds (t : Team) (w : RegWrite) : Holds (t.apply w) w := by
  cases w with
  | s d x => exact t.setS_s_self d x
  | v d k x =>
    intro hk
    rw [Team.apply_length] at hk
    rw [lane, Team.apply, Team.setV_v_self, lane_set, if_pos ⟨rfl, hk⟩]

section
variable {ws : List RegWrite}

theorem Team.foldl_apply_lane (t : Team) (r : VReg) (l : Nat) (h : (.v r.val, l) ∉ ws.map resultPlace) :
    lane (ws.foldl Team.apply t) r l = lane t r l := by
  induction ws generalizing t with
  | nil => rfl
  | cons w ws ih =>
    obtain ⟨hne, hws⟩ := not_or.1 (List.mem_cons.not.1 h)
    rw [List.foldl_cons, ih _ hws, t.apply_lane w r l (Ne.symm hne)]

theorem Team.foldl_apply_length (t : Team) (r : VReg) : ((ws.foldl Team.apply t).v r).length = (t.v r).length := by
  induction ws generalizing t with
  | nil => rfl
  | cons w ws ih => rw [List.foldl_cons, ih, t.apply_length]

theorem Team.foldl_apply_s (t : Team) (r : SReg) (h : (.s r.val, 0) ∉ ws.map resultPlace) : (ws.foldl Team.apply t).s r = t.s r := by
  induction ws generalizing t with
  | nil => rfl
  | cons w ws ih =>
    obtain ⟨hne, hws⟩ := not_or.1 (List.mem_cons.not.1 h)
    rw [List.foldl_cons, ih _ hws, t.apply_s w r (Ne.symm hne)]

/-- A result stays in its place while other places are written. -/
theorem Team.foldl_apply_holds {t : Team} {w : RegWrite} (h : Holds t w) (hw : resultPlace w ∉ ws.map resultPlace) : Holds (ws.foldl Team.apply t) w := by
  cases w with
  | s d x => exact (t.foldl_apply_s d hw).trans h
  | v d k x =>
    intro hk
    rw [t.foldl_apply_length] at hk
    exact (t.foldl_apply_lane d k hw).trans (h hk)

theorem Team.foldl_apply_named (hn : (ws.map resultPlace).Nodup) (t : Team) : ∀ w ∈ ws, Holds (ws.foldl Team.apply t) w := by
  induction ws generalizing t with
  | nil => exact fun w hw => absurd hw List.not_mem_nil
  | cons w ws ih =>
    obtain ⟨hw, hws⟩ := List.nodup_cons.1 hn
    intro x hx
    rcases List.mem_cons.1 hx with rfl | hx
    · exact Team.foldl_apply_holds (t := t.apply x) (t.apply_holds x) hw
    · exact ih hws _ x hx

end

/-! ### Operations that retire (spec/09 R161) -/

section
variable {p o : Op} {os : List Op} {seen : List OpClass}

theorem mem_of_mem_retired (h : p ∈ retired seen os) : p ∈ os := by
  induction os generalizing seen with
  | nil => exact absurd h List.not_mem_nil
  | cons a os ih =>
    unfold retired at h
    split at h
    · exact List.mem_cons_of_mem a (ih h)
    · rcases List.mem_cons.1 h with rfl | h
      · exact List.mem_cons_self
      · exact List.mem_cons_of_mem a (ih h)

theorem mem_retired_of_not_done (h : p ∈ os) (hd : p.done = false) : p ∈ retired seen os := by
  induction os generalizing seen with
  | nil => exact absurd h List.not_mem_nil
  | cons a os ih =>
    unfold retired
    rcases List.mem_cons.1 h with rfl | h
    · simp [hd]
    · split
      · exact ih h
      · exact List.mem_cons_of_mem a (ih h)

/-- An operation marked as done. -/
def marked (n : Nat) (x : Op) : Op := if x.id = n then { x with done := true } else x

theorem marked_id (n : Nat) (x : Op) : (marked n x).id = x.id := by unfold marked; split <;> rfl

theorem marked_of_ne {n : Nat} {x : Op} (h : x.id ≠ n) : marked n x = x := if_neg h

/-- A done operation retires where no older one of its class is before it. -/
theorem not_mem_retired_of_oldest (hf : os.find? (·.id == o.id) = some o) (hn : (os.map (·.id)).Nodup) (hs : o.cls ∉ seen)
    (ho : ((os.takeWhile (·.id != o.id)).all (·.cls != o.cls)) = true) (h : p ∈ retired seen (os.map (marked o.id))) : p.id ≠ o.id := by
  induction os generalizing seen with
  | nil => exact absurd hf (by simp)
  | cons a os ih =>
    obtain ⟨ha, hos⟩ := List.nodup_cons.1 hn
    rw [List.map_cons, retired] at h
    by_cases hid : a.id = o.id
    · obtain rfl : a = o := by simpa [hid] using hf
      have hm : marked a.id a = { a with done := true } := if_pos rfl
      rw [hm, if_pos (by simpa using hs)] at h
      obtain ⟨x, hx, rfl⟩ := List.mem_map.1 (mem_of_mem_retired h)
      rw [marked_id]
      exact fun e => ha (List.mem_map.2 ⟨x, hx, e⟩)
    · rw [marked_of_ne hid] at h
      simp only [List.find?_cons, beq_eq_false_iff_ne.2 hid] at hf
      rw [List.takeWhile_cons_of_pos (by simpa using hid), List.all_cons, Bool.and_eq_true] at ho
      obtain ⟨hcls, ho⟩ := ho
      split at h
      · exact ih hf hos hs ho h
      · rcases List.mem_cons.1 h with rfl | h
        · exact hid
        · exact ih hf hos (by simp [hs, Ne.symm (bne_iff_ne.1 hcls)]) ho h

end

/-! ### Pending bits (spec/02 R37) -/

theorem getLsbD_bitsOf (rs : List (Fin 64)) (r : Fin 64) : (bitsOf rs).getLsbD r.val = rs.contains r := by
  have hfold (m : W64) : (rs.foldl (fun m r => m ||| (1#64 <<< r.val)) m).getLsbD r.val = (m.getLsbD r.val || rs.contains r) := by
    induction rs generalizing m with
    | nil => simp
    | cons q rs ih =>
      have hq : (1#64 <<< q.val).getLsbD r.val = (r == q) := by
        rw [← BitVec.twoPow_eq, BitVec.getLsbD_twoPow, beq_eq_decide]
        simp [q.isLt, Fin.ext_iff, eq_comm]
      rw [List.foldl_cons, ih, BitVec.getLsbD_or, hq, List.contains_cons, Bool.or_assoc]
  rw [bitsOf, hfold]
  simp

theorem getLsbD_clear (m : W64) (rs : List (Fin 64)) (r : Fin 64) :
    (m &&& ~~~(bitsOf rs)).getLsbD r.val = (m.getLsbD r.val && !rs.contains r) := by
  rw [BitVec.getLsbD_and, BitVec.getLsbD_not, getLsbD_bitsOf]
  simp [r.isLt]

/-! ### An operation complete (spec/09 R161) -/

theorem Team.complete_keeps (t : Team) (n : Nat) : (t.complete n).id = t.id ∧ (t.complete n).place = t.place ∧ (t.complete n).sch = t.sch ∧
    (t.complete n).ctl = t.ctl ∧ (t.complete n).flow = { t.flow with ops := (t.complete n).flow.ops } := by
  unfold Team.complete
  split
  · exact ⟨rfl, rfl, rfl, rfl, rfl⟩
  · next o _ =>
    have hw : (if o.done then t else o.writes.foldl Team.apply t) = { t with regs := (if o.done then t else o.writes.foldl Team.apply t).regs } := by
      split
      · rfl
      · rw [Team.foldl_apply_eq]
    rw [hw]
    exact ⟨rfl, rfl, rfl, rfl, rfl⟩

/-- A team with an operation complete that was not done: its results written, its pending bits clear, what has retired gone. -/
theorem Team.complete_eq {t : Team} {n : Nat} {o : Op} (h : t.flow.ops.find? (·.id == n) = some o) (hd : o.done = false) : t.complete n =
    { t with
      regs := { t.regs with
        v := (o.writes.foldl Team.apply t).regs.v, s := (o.writes.foldl Team.apply t).regs.s,
        pendV := t.regs.pendV &&& ~~~(bitsOf o.pv), pendS := t.regs.pendS &&& ~~~(bitsOf o.ps) }
      flow := { t.flow with ops := retired [] (t.flow.ops.map (marked n)) } } := by
  simp only [Team.complete, h, hd, Bool.false_eq_true, if_false]
  rw [Team.foldl_apply_eq]
  rfl

section
variable {s : State} {cls : OpClass} {tid op : Nat}

theorem State.performed_no_team (h : s.team? tid = none) : s.performed cls tid op = s := by simp only [State.performed, h]

section
variable {u : Team} (hu : s.team? tid = some u)
include hu

theorem State.performed_no_op (h : u.flow.ops.find? (·.id == op) = none) : s.performed cls tid op = s := by simp only [State.performed, hu, h]

variable {o : Op} (ho : u.flow.ops.find? (·.id == op) = some o)
include ho

/-- An operation of another class, or one that is done, is left as it is. -/
theorem State.performed_refused (h : o.cls ≠ cls ∨ o.done = true) : s.performed cls tid op = s := by
  simp only [State.performed, hu, ho]
  rw [if_pos h]

/-- An operation that nothing holds ends once its results are fixed. -/
theorem State.performed_not_held (hc : o.cls = cls) (hd : o.done = false) (hh : o.held = none) :
    s.performed cls tid op = if o.ready then s.finishOp tid op else s := by
  simp only [State.performed, hu, ho]
  rw [if_neg (by simp [hc, hd])]
  simp [hh, hu, ho]

end

/-- With no fence under way and no image of the team, the end of an operation changes its team alone. -/
theorem State.finishOp_eq {u : Team} (hu : s.team? tid = some u) (hf : u.flow.fences = []) (hi : s.images = [] ∨ u.placed = true) :
    s.finishOp tid op = s.updTeam tid (·.complete op) := by
  obtain ⟨_, hplace, _, _, hflow⟩ := u.complete_keeps op
  have ht : (s.updTeam tid (·.complete op)).team? tid = some (u.complete op) := State.team?_updTeam_same (fun t => (t.complete_keeps op).1) hu
  have hfences : (u.complete op).flow.fences = [] := by rw [hflow, hf]
  have hsettle : (s.updTeam tid (·.complete op)).settleFences tid = s.updTeam tid (·.complete op) := by
    simp only [State.settleFences, ht]
    rw [if_pos hfences]
  rw [State.finishOp, hsettle, State.refreshImage, ht]
  rcases hi with hi | hp
  · rw [State.updTeam_images, hi]
    rfl
  · have hplaced : (u.complete op).placed = true := by rw [Team.placed, hplace]; exact hp
    split
    · next t _ hsome _ =>
      obtain rfl := Option.some.inj hsome
      split
      · rfl
      · simp [hplaced]
    · rfl

end

end Sys2Proof.Machine

namespace Sys2Proof.Claim
open Sys2Proof Sys2Proof.Machine

theorem exec_of_completes {i : Instr} {tid op : Nat} {cls : OpClass} (h : completes tid op i = some cls) (s : State) :
    exec i s = .next (s.performed cls tid op) := by
  cases i with
  | loadComplete | storePerformed | atomicPerformed | sgOperationPerformed =>
    obtain ⟨⟨rfl, rfl⟩, hcls⟩ := Option.ite_some_none_eq_some.1 h
    cases hcls
    rfl
  | _ => cases h

theorem resultsWritten_complete {u : Team} {n : Nat} {o : Op} (h : u.flow.ops.find? (·.id == n) = some o) (hd : o.done = false) :
    ResultsWritten u (u.complete n) o.writes := by
  rw [Team.complete_eq h hd]
  exact {
    named := fun hn w hw => by
      have := Team.foldl_apply_named hn u w hw
      rw [Team.foldl_apply_eq] at this
      cases w <;> exact this
    onV := fun r l hr => u.foldl_apply_lane r l hr
    len := fun r => u.foldl_apply_length r
    onS := fun r hr => u.foldl_apply_s r hr
    rest := rfl }

theorem countedOff_complete {u : Team} {n : Nat} {o : Op} (h : u.flow.ops.find? (·.id == n) = some o) (hd : o.done = false)
    (hn : (u.flow.ops.map (·.id)).Nodup) : CountedOff u (u.complete n) o := by
  obtain rfl : o.id = n := by simpa using List.find?_some h
  have hops : (u.complete o.id).flow.ops = retired [] (u.flow.ops.map (marked o.id)) := by rw [Team.complete_eq h hd]
  obtain ⟨_, _, _, _, hflow⟩ := u.complete_keeps o.id
  refine ⟨hflow, fun p hp => ?_, fun p hp hd hne => ?_, fun ho p hp => ?_⟩
  · rw [hops] at hp
    obtain ⟨x, hx, rfl⟩ := List.mem_map.1 (mem_of_mem_retired hp)
    by_cases hid : x.id = o.id
    · have hxo : x = o := List.inj_on_of_nodup_map hn hx (List.mem_of_find?_eq_some h) hid
      exact .inr (by rw [hxo, marked, if_pos rfl])
    · rw [marked_of_ne hid]
      exact .inl ⟨hx, hid⟩
  · rw [hops]
    exact mem_retired_of_not_done (List.mem_map.2 ⟨p, hp, marked_of_ne hne⟩) hd
  · rw [hops] at hp
    exact not_mem_retired_of_oldest h hn List.not_mem_nil ho hp

/-- What the end of an operation does to its team and to every other. -/
theorem performed_completes {s : State} {cls : OpClass} {tid op : Nat} {u : Team} {o : Op} (hu : s.team? tid = some u)
    (ho : u.flow.ops.find? (·.id == op) = some o) (hn : (u.flow.ops.map (·.id)).Nodup) (hc : o.cls = cls) (hr : o.ready = true)
    (hh : o.held = none) (hd : o.done = false) (hf : u.flow.fences = []) (hi : s.images = [] ∨ u.placed = true) :
    ∃ t v, Host.Outcome.next (s.performed cls tid op) = (.next t : Host.Outcome State Fault Refusal) ∧ t.team? tid = some v ∧ OnlyTeams s t ∧
      ResultsWritten u v o.writes ∧ CountedOff u v o ∧ v.ctl = u.ctl ∧ SelfKept u v ∧
      (∀ r : VReg, v.regs.pendV.getLsbD r.val = (u.regs.pendV.getLsbD r.val && !o.pv.contains r)) ∧
      (∀ r : SReg, v.regs.pendS.getLsbD r.val = (u.regs.pendS.getLsbD r.val && !o.ps.contains r)) ∧
      (∀ n, n ≠ tid → t.team? n = s.team? n) := by
  obtain ⟨hid, hplace, hsch, hctl, _⟩ := u.complete_keeps op
  refine ⟨s.updTeam tid (·.complete op), u.complete op, ?_, State.team?_updTeam_same (fun t => (t.complete_keeps op).1) hu, rfl,
    resultsWritten_complete ho hd, countedOff_complete ho hd hn, hctl, ⟨hid, hplace, hsch⟩, fun r => ?_, fun r => ?_,
    fun n hne => s.team?_updTeam_ne (fun t => (t.complete_keeps op).1) hne⟩
  · rw [State.performed_not_held hu ho hc hd hh, if_pos hr, State.finishOp_eq hu hf hi]
  · rw [Team.complete_eq ho hd]
    exact getLsbD_clear _ _ r
  · rw [Team.complete_eq ho hd]
    exact getLsbD_clear _ _ r

/-! ### TRANSFORM_PIPE_REPLY (spec/07 R131 to R134) -/

/-- What the reply of its request leaves of the team in issue. -/
structure TeamReplied (s t : State) (c : Nat) (q : PipeReq) (rest : List PipeReq) : Prop where
  regs : ∀ x ∈ q.regs, t.me.v x.1 = x.2.1 ∧ t.me.tag x.1 = x.2.2
  kept : RegsKept s.me t.me (q.regs.map fun x => .v x.1.val)
  ctl  : t.me.ctl = s.me.ctl
  self : SelfKept s.me t.me
  last : s.me.flow.rebuild = [] → (t.core c).pipe = rest ∧ t.me.flow = { s.me.flow with hold := .none }
  more : s.me.flow.rebuild ≠ [] → t.me.flow = { s.me.flow with rebuild := s.me.flow.rebuild.tail }
  next : ∀ r rs, s.me.flow.rebuild.tail = r :: rs → ∃ x ∈ (t.core s.me.core).pipe, x.tid = some s.me.id.tid ∧ x.regs.map (·.1) = [r]

/-- The state in which the oldest request of a pipe is served for the team in issue. -/
abbrev served (s : State) (c : Nat) (q : PipeReq) (rest : List PipeReq) : State :=
  (s.updCore c fun x => { x with pipe := rest }).updTeam s.me.id.tid (·.replied q)

theorem served_me (s : State) (c : Nat) (q : PipeReq) (rest : List PipeReq) : (served s c q rest).me = s.me.replied q := if_pos rfl

theorem served_team? (s : State) (c : Nat) (q : PipeReq) (rest : List PipeReq) :
    (served s c q rest).team? s.me.id.tid = some (s.me.replied q) :=
  State.team?_updTeam_same (fun t => (t.replied_keeps q).1) (s.updCore c _).team?_me

theorem teamReplied_served {s : State} {c : Nat} {q : PipeReq} {rest : List PipeReq} (hn : (q.regs.map (·.1)).Nodup)
    (hw : s.me.flow.hold = .xfrm ∨ s.me.flow.rebuild ≠ []) : TeamReplied s ((served s c q rest).sendRebuild s.me.id.tid) c q rest := by
  obtain ⟨hkeep, _⟩ := (served s c q rest).sendRebuild_keeps s.me.id.tid
  have hme : ((served s c q rest).sendRebuild s.me.id.tid).me = s.me.replied q := (congrArg State.me hkeep).trans (served_me ..)
  obtain ⟨f, hf⟩ : ∃ f, s.me.replied q = { s.me.writeRegs q.regs with flow := f } := by
    by_cases hr : s.me.flow.rebuild = []
    · exact ⟨_, Team.replied_goes_on q hr (hw.resolve_right (not_not.2 hr))⟩
    · exact ⟨_, Team.replied_rebuilds q hr⟩
  have hregs : (s.me.replied q).regs = (s.me.writeRegs q.regs).regs := by rw [hf]
  have hrest := s.me.writeRegs_eq q.regs
  refine ⟨fun x hx => ?_, ?_, ?_, ?_, fun hr => ?_, fun hr => ?_, fun r rs hr => ?_⟩
  · rw [hme, Team.v, Team.tag, hregs]
    exact Team.writeRegs_mem hn hx s.me
  · rw [hme]
    exact (s.me.regsKept_writeRegs q.regs).of_regs hregs
  · rw [hme, hf, hrest]
  · rw [hme, hf, hrest]
    exact ⟨rfl, rfl, rfl⟩
  · have hgo := Team.replied_goes_on q hr (hw.resolve_right (not_not.2 hr))
    rw [State.sendRebuild_none (served_team? ..) (by rw [hgo]; exact hr), served_me, hgo]
    exact ⟨congrArg Core.pipe (s.updCore_core_self c fun x => { x with pipe := rest }), rfl⟩
  · rw [hme, Team.replied_rebuilds q hr]
  · have hne : s.me.flow.rebuild ≠ [] := fun h0 => by simp [h0] at hr
    have hcore : (s.me.replied q).core = s.me.core := by rw [Team.core, (s.me.replied_keeps q).2, Team.core]
    have hid := (s.me.replied_keeps q).1
    rw [State.sendRebuild_cons (r := r) (rs := rs) (served_team? ..) (by rw [Team.replied_rebuilds q hne]; exact hr), State.pipeSend, hcore,
      State.updCore_core_self]
    exact ⟨_, mem_pipe_request.2 (.inl rfl), by rw [hid], rfl⟩

/-- A request of a team served: the other requests stay, and the team in issue takes what is its own. -/
theorem reply_to_team {s : State} {c tid : Nat} {q : PipeReq} {rest : List PipeReq} (h : (s.core c).pipe = q :: rest) (hq : q.tid = some tid) :
    ∃ t, exec (.transformPipeReply c) s = .next t ∧ (∀ x ∈ rest, x ∈ (t.core c).pipe) ∧ t.mem = s.mem ∧
      (tid = s.me.id.tid → (q.regs.map (·.1)).Nodup → s.me.flow.hold = .xfrm ∨ s.me.flow.rebuild ≠ [] → TeamReplied s t c q rest) := by
  obtain ⟨hkeep, hpipe⟩ := State.sendRebuild_keeps ((s.updCore c fun x => { x with pipe := rest }).updTeam tid (·.replied q)) tid
  refine ⟨_, execTransformPipeReply_team h hq, fun x hx => hpipe c x ?_, (congrArg State.mem hkeep).trans rfl, ?_⟩
  · have hcore := s.updCore_core_self c fun x => { x with pipe := rest }
    exact (congrArg Core.pipe hcore).symm ▸ hx
  · rintro rfl hn hw
    exact teamReplied_served hn hw

/-- A request of the fill path served: the tile's sectors may be written. -/
theorem reply_to_fill {s : State} {c : Nat} {q : PipeReq} {rest : List PipeReq} (h : (s.core c).pipe = q :: rest) (hq : q.tid = none) :
    ∃ t, exec (.transformPipeReply c) s = .next t ∧ (∀ x ∈ rest, x ∈ (t.core c).pipe) ∧ t.mem = s.mem ∧ t.me = s.me ∧ t.teams = s.teams ∧
      t.copies = s.copies.map fun x =>
        if x.id = q.copy then { x with jobs := x.jobs.map fun j => if j.tile = q.job then { j with piped := false } else j } else x := by
  refine ⟨_, execTransformPipeReply_fill h hq, fun x hx => (State.fillNext_keeps _ c).2 c x ?_, rfl, rfl, rfl, rfl⟩
  have hcore := s.updCore_core_self c fun x => { x with pipe := rest }
  exact (congrArg Core.pipe hcore).symm ▸ hx

/-- Settles O45: a reply writes what its request holds, and the end of an operation what its results say. -/
theorem repliesWriteTheirResults : Obligations.RepliesWriteTheirResults := by
  unfold Obligations.RepliesWriteTheirResults
  refine ⟨fun s c q rest h => ?_, fun s i tid op cls hi => ?_⟩
  · cases hq : q.tid with
    | some tid =>
      obtain ⟨t, hrun, hpipe, hmem, hteam⟩ := reply_to_team h hq
      refine ⟨t, hrun, hpipe, fun htid hn hw => ?_, fun h0 => absurd h0 (by simp), hmem⟩
      obtain ⟨hregs, hkept, hctl, hself, hlast, hmore, hnext⟩ := hteam (Option.some.inj htid) hn hw
      exact ⟨hregs, hkept, hctl, hself, hlast, hmore, hnext⟩
    | none =>
      obtain ⟨t, hrun, hpipe, hmem, hme, hteams, hcopies⟩ := reply_to_fill h hq
      exact ⟨t, hrun, hpipe, fun h0 => absurd h0 (by simp), fun _ => ⟨hme, hteams, hcopies⟩, hmem⟩
  · rw [exec_of_completes hi s]
    refine ⟨fun hn => by rw [State.performed_no_team hn], fun u hu => ⟨fun hn => by rw [State.performed_no_op hu hn], fun o ho hn =>
      ⟨fun hno => ?_, fun hc hr hh hd hf hi => performed_completes hu ho hn hc hr hh hd hf hi⟩⟩⟩
    by_cases hrefused : o.cls ≠ cls ∨ o.done = true
    · rw [State.performed_refused hu ho hrefused]
    · obtain ⟨hc, hd⟩ := not_or.1 hrefused
      obtain ⟨hr, hh⟩ := (hno.resolve_left hc).resolve_right hd
      rw [State.performed_not_held hu ho (not_not.1 hc) (Bool.not_eq_true _ ▸ hd) hh, if_neg (by simp [hr])]

end Sys2Proof.Claim
end

section
/-!
PROOFS. Rounding to nearest even (spec/04 R73, R82): what a pattern of a format is to the exact value that it rounds, and that rounding follows the
order of the values.
-/
namespace Sys2Proof.Machine
open Sys2Proof

/-! ### Powers of two -/

theorem two_pow_toNat (k : ℤ) : (2 : ℚ) ^ k.toNat = 2 ^ k * 2 ^ (-k).toNat := by
  rcases le_total 0 k with h | h
  · rw [Int.toNat_of_nonpos (neg_nonpos.2 h), pow_zero, mul_one, ← zpow_natCast, Int.toNat_of_nonneg h]
  · rw [Int.toNat_of_nonpos h, pow_zero, ← zpow_natCast, Int.toNat_of_nonneg (neg_nonneg.2 h), ← zpow_add₀ two_ne_zero, add_neg_cancel, zpow_zero]

theorem two_zpow_pos (k : ℤ) : (0 : ℚ) < 2 ^ k := zpow_pos two_pos k

theorem two_zpow_lt_iff {j k : ℤ} : (2 : ℚ) ^ j < 2 ^ k ↔ j < k := zpow_lt_zpow_iff_right₀ one_lt_two

theorem two_zpow_le_iff {j k : ℤ} : (2 : ℚ) ^ j ≤ 2 ^ k ↔ j ≤ k := zpow_le_zpow_iff_right₀ one_lt_two

/-- The binary logarithm of a quotient lies between its powers of two. -/
theorem floorLog_spec {n d : Nat} (hn : n ≠ 0) (hd : d ≠ 0) (e : ℤ) :
    (2 : ℚ) ^ floorLog n d e ≤ n / d * 2 ^ e ∧ (n / d * 2 ^ e : ℚ) < 2 ^ (floorLog n d e + 1) := by
  have hd0 : (0 : ℚ) < d := by exact_mod_cast Nat.pos_of_ne_zero hd
  have hnl : ((2 : ℚ) ^ (n.log2 : ℤ)) ≤ n := by rw [zpow_natCast]; exact_mod_cast Nat.log2_self_le hn
  have hnh : (n : ℚ) < 2 ^ ((n.log2 : ℤ) + 1) := by rw [← Nat.cast_succ, zpow_natCast]; exact_mod_cast Nat.lt_log2_self
  have hdl : ((2 : ℚ) ^ (d.log2 : ℤ)) ≤ d := by rw [zpow_natCast]; exact_mod_cast Nat.log2_self_le hd
  have hdh : (d : ℚ) < 2 ^ ((d.log2 : ℤ) + 1) := by rw [← Nat.cast_succ, zpow_natCast]; exact_mod_cast Nat.lt_log2_self
  generalize hl : (n.log2 : ℤ) - d.log2 = l
  have hcmp : d * 2 ^ l.toNat ≤ n * 2 ^ (-l).toNat ↔ (d : ℚ) * 2 ^ l ≤ n := by
    rw [← Nat.cast_le (α := ℚ), Nat.cast_mul, Nat.cast_mul, Nat.cast_pow, Nat.cast_pow, Nat.cast_ofNat, two_pow_toNat l, ← mul_assoc]
    exact mul_le_mul_iff_left₀ (by positivity)
  have hlow : (2 : ℚ) ^ (l - 1) * d < n := by
    calc (2 : ℚ) ^ (l - 1) * d < 2 ^ (l - 1) * 2 ^ ((d.log2 : ℤ) + 1) := mul_lt_mul_of_pos_left hdh (two_zpow_pos _)
      _ = 2 ^ (n.log2 : ℤ) := by rw [← zpow_add₀ two_ne_zero, ← hl]; ring_nf
      _ ≤ n := hnl
  have hhigh : (n : ℚ) < 2 ^ (l + 1) * d := by
    calc (n : ℚ) < 2 ^ ((n.log2 : ℤ) + 1) := hnh
      _ = 2 ^ (l + 1) * 2 ^ (d.log2 : ℤ) := by rw [← zpow_add₀ two_ne_zero, ← hl]; ring_nf
      _ ≤ 2 ^ (l + 1) * d := mul_le_mul_of_nonneg_left hdl (two_zpow_pos _).le
  have hscale (k : ℤ) : ((2 : ℚ) ^ (k + e) ≤ n / d * 2 ^ e ↔ 2 ^ k * (d : ℚ) ≤ n) ∧ ((n / d * 2 ^ e : ℚ) < 2 ^ (k + e) ↔ n < 2 ^ k * (d : ℚ)) := by
    rw [zpow_add₀ two_ne_zero]
    exact ⟨(mul_le_mul_iff_left₀ (two_zpow_pos e)).trans (le_div_iff₀ hd0), (mul_lt_mul_iff_left₀ (two_zpow_pos e)).trans (div_lt_iff₀ hd0)⟩
  unfold floorLog
  simp only [hl, hcmp]
  split
  · next h =>
    rw [add_right_comm l e 1]
    exact ⟨(hscale l).1.2 (by rwa [mul_comm]), (hscale (l + 1)).2.2 hhigh⟩
  · next h =>
    rw [add_right_comm (l - 1) e 1, sub_add_cancel]
    exact ⟨(hscale (l - 1)).1.2 hlow.le, (hscale l).2.2 (by rw [mul_comm]; exact not_le.1 h)⟩

/-! ### The pattern below a value -/

/-- The exponent of a format's subnormal values (spec/04 R68). -/
def Fmt.leastExp (F : Fmt) : ℤ := 1 - (F.bias : ℤ) - F.m

/-- The pattern of s × 2^q, its exponent taken as unbounded above. -/
def Fmt.patternOf (F : Fmt) (q : ℤ) (s : Nat) : Nat := (q - F.leastExp).toNat * 2 ^ F.m + s

/-- The value v lies in the step from s × 2^q to (s + 1) × 2^q, where q is the exponent that a format has for it. -/
structure Stepped (F : Fmt) (v : ℚ) (q : ℤ) (s : Nat) : Prop where
  least : F.leastExp ≤ q
  below : v < 2 ^ (q + F.m + 1)
  above : F.leastExp < q → 2 ^ (q + F.m) ≤ v
  lo    : s * 2 ^ q ≤ v
  hi    : v < (s + 1) * 2 ^ q

section
variable {F : Fmt} {v v' : ℚ} {q q' : ℤ} {s s' : Nat}

theorem Stepped.exp_le (h : Stepped F v q s) (h' : Stepped F v' q' s') (hv : v ≤ v') : q ≤ q' := by
  rcases h.least.eq_or_lt with hq | hq
  · exact hq ▸ h'.least
  · have := two_zpow_lt_iff.1 (((h.above hq).trans hv).trans_lt h'.below)
    omega

theorem Stepped.lt_of_exp_lt (h : Stepped F v q s) (h' : Stepped F v' q' s') (hq : q < q') : F.patternOf q s < F.patternOf q' s' := by
  have hs : s < 2 ^ (F.m + 1) := by
    have hlt : (s : ℚ) * 2 ^ q < 2 ^ (F.m + 1) * 2 ^ q := by
      refine (h.lo.trans_lt h.below).trans_eq ?_
      rw [add_assoc, zpow_add₀ two_ne_zero, mul_comm]
      norm_cast
    exact_mod_cast lt_of_mul_lt_mul_right hlt (two_zpow_pos q).le
  have hs' : 2 ^ F.m < s' + 1 := by
    have hlt : (2 : ℚ) ^ F.m * 2 ^ q' < (s' + 1) * 2 ^ q' := by
      refine ((h'.above (h.least.trans_lt hq)).trans_lt h'.hi).trans_eq' ?_
      rw [zpow_add₀ two_ne_zero, mul_comm]
      norm_cast
    exact_mod_cast lt_of_mul_lt_mul_right hlt (two_zpow_pos q').le
  have hleast := h.least
  obtain ⟨a, ha⟩ : ∃ a : Nat, (q - F.leastExp).toNat = a := ⟨_, rfl⟩
  obtain ⟨b, hb⟩ : ∃ b : Nat, (q' - F.leastExp).toNat = a + 1 + b := ⟨(q' - F.leastExp).toNat - (a + 1), by omega⟩
  rw [Fmt.patternOf, Fmt.patternOf, ha, hb]
  rw [pow_succ] at hs
  nlinarith [Nat.zero_le (b * 2 ^ F.m)]

theorem Stepped.mantissa_le (h : Stepped F v q s) (h' : Stepped F v' q s') (hv : v ≤ v') : s ≤ s' := by
  have hlt : (s : ℚ) * 2 ^ q < (s' + 1) * 2 ^ q := (h.lo.trans hv).trans_lt h'.hi
  exact Nat.lt_succ_iff.1 (by exact_mod_cast lt_of_mul_lt_mul_right hlt (two_zpow_pos q).le)

/-- A larger value lies in no lower step; its pattern is above, or the step is the same. -/
theorem Stepped.order (h : Stepped F v q s) (h' : Stepped F v' q' s') (hv : v ≤ v') : F.patternOf q s < F.patternOf q' s' ∨ q = q' ∧ s = s' := by
  rcases (h.exp_le h' hv).eq_or_lt with rfl | hq
  · rcases (h.mantissa_le h' hv).eq_or_lt with rfl | hs
    · exact .inr ⟨rfl, rfl⟩
    · exact .inl (Nat.add_lt_add_left hs _)
  · exact .inl (h.lt_of_exp_lt h' hq)

end

/-! ### The nearest pattern (spec/04 R82) -/

/-- The pattern that a value half-way between two takes. -/
def Fmt.tiePattern (F : Fmt) (lo : Nat) : Nat := if lo = F.top then lo + 1 else lo + lo % 2

theorem Fmt.tiePattern_bounds (F : Fmt) (lo : Nat) : lo ≤ F.tiePattern lo ∧ F.tiePattern lo ≤ lo + 1 := by
  unfold Fmt.tiePattern
  split <;> omega

/-- The pattern p is the nearest to v, before the overflow rule. -/
def Nearest (F : Fmt) (v : ℚ) (p : Nat) : Prop :=
  ∃ q s, Stepped F v q s ∧ (v < (s + 1 / 2) * 2 ^ q → p = F.patternOf q s) ∧
    (v = (s + 1 / 2) * 2 ^ q → p = F.tiePattern (F.patternOf q s)) ∧ ((s + 1 / 2) * 2 ^ q < v → p = F.patternOf q s + 1)

section
variable {F : Fmt} {v v' : ℚ} {p p' : Nat}

/-- Rounding follows the order of the values. -/
theorem Nearest.mono (h : Nearest F v p) (h' : Nearest F v' p') (hv : v ≤ v') : p ≤ p' := by
  obtain ⟨q, s, hst, hlt, heq, hgt⟩ := h
  obtain ⟨q', s', hst', hlt', heq', hgt'⟩ := h'
  have hb := F.tiePattern_bounds (F.patternOf q s)
  have hb' := F.tiePattern_bounds (F.patternOf q' s')
  have hp : p ≤ F.patternOf q s + 1 := by
    rcases lt_trichotomy v ((s + 1 / 2) * 2 ^ q) with h | h | h
    · rw [hlt h]; omega
    · rw [heq h]; omega
    · rw [hgt h]
  have hp' : F.patternOf q' s' ≤ p' := by
    rcases lt_trichotomy v' ((s' + 1 / 2) * 2 ^ q') with h | h | h
    · rw [hlt' h]
    · rw [heq' h]; omega
    · rw [hgt' h]; omega
  rcases hst.order hst' hv with h | ⟨rfl, rfl⟩
  · omega
  · rcases lt_trichotomy v ((s + 1 / 2) * 2 ^ q) with h | h | h
    · rw [hlt h]; omega
    · rcases (h.symm.le.trans hv).eq_or_lt with h1 | h1
      · rw [heq h, heq' h1.symm]
      · rw [heq h, hgt' h1]; omega
    · rw [hgt h, hgt' (h.trans_le hv)]

theorem pick_rne (F : Fmt) (st : W32) (x : Steps) :
    pick F .rne st x = if x.tie then F.tiePattern x.lo else if x.half then x.lo + 1 else x.lo := rfl

/-- What a step of num / den leaves over decides between its pattern and the next. -/
theorem nearest_of_quotient {q : ℤ} {num den : Nat} (hden : 0 < den) (hv : v = num / den * 2 ^ q) (hleast : F.leastExp ≤ q)
    (hbelow : v < 2 ^ (q + F.m + 1)) (habove : F.leastExp < q → 2 ^ (q + F.m) ≤ v) (st : W32) :
    Nearest F v (pick F .rne st
      ⟨F.patternOf q (num / den), num % den ≠ 0, den ≤ 2 * (num % den), 2 * (num % den) == den, num % den, den⟩) := by
  have hdenQ : (0 : ℚ) < den := by exact_mod_cast hden
  have hdiv : (num : ℚ) = (num / den : Nat) * den + (num % den : Nat) := by exact_mod_cast (Nat.div_add_mod' num den).symm
  have hmod : ((num % den : Nat) : ℚ) < den := by exact_mod_cast Nat.mod_lt num hden
  have hle (x : ℚ) : x * 2 ^ q ≤ v ↔ x * den ≤ num := by
    rw [hv]
    exact (mul_le_mul_iff_left₀ (two_zpow_pos q)).trans (le_div_iff₀ hdenQ)
  have hge (x : ℚ) : v ≤ x * 2 ^ q ↔ num ≤ x * den := by
    rw [hv]
    exact (mul_le_mul_iff_left₀ (two_zpow_pos q)).trans (div_le_iff₀ hdenQ)
  have hlow : ((num / den : Nat) + 1 / 2) * 2 ^ q ≤ v ↔ den ≤ 2 * (num % den) := by
    rw [hle, hdiv, ← Nat.cast_le (α := ℚ), Nat.cast_mul, Nat.cast_ofNat]
    constructor <;> intro h <;> linarith
  have hhigh : v ≤ ((num / den : Nat) + 1 / 2) * 2 ^ q ↔ 2 * (num % den) ≤ den := by
    rw [hge, hdiv, ← Nat.cast_le (α := ℚ), Nat.cast_mul, Nat.cast_ofNat]
    constructor <;> intro h <;> linarith
  refine ⟨q, num / den, ⟨hleast, hbelow, habove, (hle _).2 (by linarith [Nat.cast_nonneg (α := ℚ) (num % den)]),
    lt_of_not_ge fun h => absurd ((hle _).1 h) (by linarith)⟩, fun h => ?_, fun h => ?_, fun h => ?_⟩
  · have hlt : 2 * (num % den) < den := not_le.1 (hlow.not.1 h.not_ge)
    rw [pick_rne, if_neg (by simpa using hlt.ne), if_neg (by simpa using hlt)]
  · rw [pick_rne, if_pos (by simpa using le_antisymm (hhigh.1 h.le) (hlow.1 h.ge))]
  · have hgt : den < 2 * (num % den) := not_le.1 (hhigh.not.1 h.not_ge)
    rw [pick_rne, if_neg (by simpa using hgt.ne'), if_pos (by simpa using hgt.le)]

/-- A quotient in units of another power of two, as the model forms it. -/
theorem quotient_scaled (n : Nat) {d : Nat} (hd : d ≠ 0) (e q : ℤ) :
    (n / d * 2 ^ e : ℚ) = (n * 2 ^ (e - q).toNat : Nat) / (d * 2 ^ (q - e).toNat : Nat) * 2 ^ q := by
  have hd0 : (d : ℚ) ≠ 0 := by exact_mod_cast hd
  have hpow : (2 : ℚ) ^ (-(e - q)).toNat ≠ 0 := by positivity
  have hqe : (2 : ℚ) ^ e = 2 ^ (e - q) * 2 ^ q := by rw [← zpow_add₀ two_ne_zero, sub_add_cancel]
  rw [Nat.cast_mul, Nat.cast_mul, Nat.cast_pow, Nat.cast_pow, Nat.cast_ofNat, two_pow_toNat, ← neg_sub e q, div_mul_eq_mul_div, div_mul_eq_mul_div,
    div_eq_div_iff hd0 (mul_ne_zero hd0 hpow), hqe]
  ring

/-- The pattern that the model picks is the nearest. -/
theorem nearest_pick (F : Fmt) {n d : Nat} (hn : n ≠ 0) (hd : d ≠ 0) (e : ℤ) (st : W32) :
    Nearest F (n / d * 2 ^ e) (pick F .rne st (steps F n d e)) := by
  obtain ⟨hlow, hhigh⟩ := floorLog_spec hn hd e
  have hq := le_max_left (floorLog n d e - F.m) F.leastExp
  refine nearest_of_quotient (q := max (floorLog n d e - F.m) F.leastExp) (Nat.mul_pos (Nat.pos_of_ne_zero hd) (Nat.two_pow_pos _))
    (quotient_scaled n hd e _) (le_max_right _ _) (hhigh.trans_le (two_zpow_le_iff.2 (by omega))) (fun hlt => ?_) st
  exact (two_zpow_le_iff.2 (by omega)).trans hlow

end

end Sys2Proof.Machine
end

section
/-!
PROOFS. Special functions (spec/07 R125, R126): magnitudes in a format, values that a format holds, roots, and the special operands.
-/
namespace Sys2Proof.Machine
open Sys2Proof

/-! ### The formats of the special functions (spec/04 R68, R71) -/

/-- A format with an infinity and a NaN above its finite magnitudes. -/
structure Usual (F : Fmt) (inf nan : Nat) : Prop where
  frac  : F.m ≤ 23
  isInf : F.inf = some inf
  isNan : F.nan = some nan
  above : F.top < inf
  beyond : F.top < nan
  apart : inf ≠ nan

theorem usual_of_mem : ∀ F ∈ [fmtF32, fmtF16, fmtBf16], Usual F (F.inf.getD 0) (F.nan.getD 0) := by
  intro F hF
  simp only [List.mem_cons, List.not_mem_nil, or_false] at hF
  rcases hF with rfl | rfl | rfl <;> exact ⟨by decide, rfl, rfl, by decide, by decide, by decide⟩

/-! ### Magnitudes -/

/-- The pattern of a magnitude rounded, without its sign (spec/04 R82). -/
def Fmt.magnitude (F : Fmt) (n d : Nat) (e : ℤ) : Nat :=
  if n = 0 then 0 else if pick F .rne 0 (steps F n d e) ≤ F.top then pick F .rne 0 (steps F n d e) else overflow F .rne

theorem roundQ_eq_signed (F : Fmt) (neg : Bool) (n d : Nat) (e : ℤ) : roundQ F .rne 0 neg n d e = F.signed neg (F.magnitude n d e) := by
  unfold roundQ Fmt.magnitude
  split <;> rfl

theorem rne_fin (F : Fmt) (neg : Bool) (n : Nat) (e : ℤ) : F.rne (.fin neg n e) = F.signed neg (F.magnitude n 1 e) := roundQ_eq_signed F neg n 1 e

theorem magnitude_zero (F : Fmt) (d : Nat) (e : ℤ) : F.magnitude 0 d e = 0 := rfl

theorem magnitude_of_nearest {F : Fmt} {n d p : Nat} {e : ℤ} (hn : n ≠ 0) (hd : d ≠ 0) (h : Nearest F (n / d * 2 ^ e) p) :
    F.magnitude n d e = if p ≤ F.top then p else overflow F .rne := by
  have hp := nearest_pick F hn hd e 0
  rw [Fmt.magnitude, if_neg hn, le_antisymm (hp.mono h le_rfl) (h.mono hp le_rfl)]

namespace Usual
variable {F : Fmt} {inf nan : Nat} (hF : Usual F inf nan)
include hF

theorem overflow_eq : overflow F .rne = inf := by simp only [overflow, hF.isInf]

theorem magnitude_ne_nan (n d : Nat) (e : ℤ) : F.magnitude n d e ≠ nan := by
  have := hF.beyond
  have := hF.apart
  unfold Fmt.magnitude
  rw [hF.overflow_eq]
  split_ifs <;> omega

/-- Rounding follows the order of magnitudes. -/
theorem magnitude_mono {n d n' d' : Nat} {e e' : ℤ} (hd : d ≠ 0) (hd' : d' ≠ 0) (h : (n / d * 2 ^ e : ℚ) ≤ n' / d' * 2 ^ e') :
    F.magnitude n d e ≤ F.magnitude n' d' e' := by
  by_cases hn : n = 0
  · rw [hn, magnitude_zero]
    exact Nat.zero_le _
  · have hpos : (0 : ℚ) < n / d * 2 ^ e := by positivity
    have hn' : n' ≠ 0 := by
      rintro rfl
      simp at h
      exact absurd hpos h.not_gt
    have hp := (nearest_pick F hn hd e 0).mono (nearest_pick F hn' hd' e' 0) h
    have := hF.above
    rw [Fmt.magnitude, Fmt.magnitude, if_neg hn, if_neg hn', hF.overflow_eq]
    split_ifs <;> omega

theorem signed_eq {p : Nat} (hp : p ≠ nan) (neg : Bool) : F.signed neg p = if neg then p + F.signBit else p := by
  cases neg <;> simp [Fmt.signed, hF.isNan, hp]

theorem signed_inj {p p' : Nat} (hp : p ≠ nan) (hp' : p' ≠ nan) {neg : Bool} (h : F.signed neg p = F.signed neg p') : p = p' := by
  rw [hF.signed_eq hp, hF.signed_eq hp'] at h
  cases neg
  · exact h
  · exact Nat.add_right_cancel h

theorem rne_eq (neg : Bool) (n : Nat) (e : ℤ) : F.rne (.fin neg n e) = if neg then F.magnitude n 1 e + F.signBit else F.magnitude n 1 e := by
  rw [rne_fin, hF.signed_eq (hF.magnitude_ne_nan n 1 e)]

/-- Two neighbouring multiples of a power of two that round alike, and a quotient between them. -/
theorem magnitude_between {n d t : Nat} {e f : ℤ} (hd : d ≠ 0) {neg : Bool} (hlo : (t * 2 ^ f : ℚ) ≤ n / d * 2 ^ e)
    (hhi : (n / d * 2 ^ e : ℚ) ≤ (t + 1) * 2 ^ f) (h : F.rne (.fin neg t f) = F.rne (.fin neg (t + 1) f)) :
    F.magnitude n d e = F.magnitude t 1 f := by
  rw [rne_fin, rne_fin] at h
  have heq := hF.signed_inj (hF.magnitude_ne_nan _ _ _) (hF.magnitude_ne_nan _ _ _) h
  refine le_antisymm ?_ (hF.magnitude_mono one_ne_zero hd (by simpa using hlo))
  rw [heq]
  exact hF.magnitude_mono hd one_ne_zero (by simpa using hhi)

theorem rne_nan : F.rne .nan = nan := by simp [Fmt.rne, Fmt.round, hF.isNan]

theorem rne_inf (neg : Bool) : F.rne (.inf neg) = if neg then inf + F.signBit else inf := by
  simp only [Fmt.rne, Fmt.round, infinity, hF.isInf, hF.signed_eq hF.apart]

theorem rne_zero (neg : Bool) (e : ℤ) : F.rne (.fin neg 0 e) = if neg then F.signBit else 0 := by
  rw [hF.rne_eq, magnitude_zero, Nat.zero_add]

end Usual

/-! ### Values that a format holds (spec/04 R67, R68) -/

/-- A finite value by its pattern: the sign bit, and a magnitude in the step that its exponent gives it. -/
theorem value_eq_fin {F : Fmt} {x n : Nat} {sg : Bool} {e : ℤ} (h : F.value x = .fin sg n e) :
    sg = (x / F.signBit % 2 == 1) ∧ x % F.signBit ≤ F.top ∧ F.leastExp ≤ e ∧ n < 2 ^ (F.m + 1) ∧ (F.leastExp < e → 2 ^ F.m ≤ n) ∧
      F.patternOf e n = x % F.signBit := by
  have hdiv := Nat.div_add_mod' (x % F.signBit) (2 ^ F.m)
  have hmod : x % F.signBit % 2 ^ F.m < 2 ^ F.m := Nat.mod_lt _ (Nat.two_pow_pos _)
  simp only [Fmt.value] at h
  rw [Fmt.patternOf, pow_succ]
  split at h
  · next htop =>
    split at h
    · next hex =>
      obtain ⟨rfl, rfl, rfl⟩ := Val.fin.inj h
      rw [hex] at hdiv
      refine ⟨rfl, htop, le_rfl, by omega, fun h0 => absurd h0 (lt_irrefl _), ?_⟩
      have : (1 - (F.bias : ℤ) - F.m - F.leastExp).toNat = 0 := by simp [Fmt.leastExp]
      rw [this]
      omega
    · next hex =>
      obtain ⟨rfl, rfl, rfl⟩ := Val.fin.inj h
      obtain ⟨k, hk⟩ := Nat.exists_eq_succ_of_ne_zero hex
      have hsub : (((x % F.signBit / 2 ^ F.m : Nat) : ℤ) - F.bias - F.m - F.leastExp).toNat = k := by
        rw [hk, Fmt.leastExp]
        push_cast
        omega
      refine ⟨rfl, htop, ?_, by omega, fun _ => by omega, ?_⟩
      · rw [hk, Fmt.leastExp]
        push_cast
        omega
      · rw [hk, Nat.succ_mul] at hdiv
        rw [hsub]
        omega
  · split at h <;> cases h

end Sys2Proof.Machine
end

section
/-!
PROOFS. Special functions on finite operands (spec/07 R125, R126): values held exactly, integers, quotients and roots.
-/
namespace Sys2Proof.Machine
open Sys2Proof

/-! ### Values held exactly -/

/-- A value that a format holds lies at the foot of its own step. -/
theorem nearest_of_value {F : Fmt} {x n : Nat} {sg : Bool} {e : ℤ} (h : F.value x = .fin sg n e) : Nearest F (n * 2 ^ e) (x % F.signBit) := by
  obtain ⟨-, -, hleast, hlt, hnormal, hpat⟩ := value_eq_fin h
  have he := two_zpow_pos e
  have hscale (k : Nat) : (2 : ℚ) ^ (e + k) = (2 ^ k : Nat) * 2 ^ e := by
    rw [zpow_add₀ two_ne_zero, mul_comm, zpow_natCast, Nat.cast_pow, Nat.cast_ofNat]
  have hmid : (n * 2 ^ e : ℚ) < (n + 1 / 2) * 2 ^ e := mul_lt_mul_of_pos_right (by linarith) he
  refine ⟨e, n, ⟨hleast, ?_, fun hq => ?_, le_rfl, mul_lt_mul_of_pos_right (by linarith) he⟩, fun _ => hpat.symm, fun h => absurd h hmid.ne,
    fun h => absurd h hmid.not_gt⟩
  · rw [add_assoc, ← Nat.cast_succ, hscale]
    exact mul_lt_mul_of_pos_right (by exact_mod_cast hlt) he
  · rw [hscale]
    exact mul_le_mul_of_nonneg_right (by exact_mod_cast hnormal hq) he.le

/-- The magnitude of a value that a format holds is its pattern without the sign. -/
theorem magnitude_of_value {F : Fmt} {x n : Nat} {sg : Bool} {e : ℤ} (h : F.value x = .fin sg n e) (hn : n ≠ 0) :
    F.magnitude n 1 e = x % F.signBit := by
  obtain ⟨-, htop, -⟩ := value_eq_fin h
  rw [magnitude_of_nearest hn one_ne_zero (by simpa using nearest_of_value h), if_pos htop]

/-- The sign of a value of two halves of patterns. -/
theorem value_sign {F : Fmt} {x n : Nat} {sg : Bool} {e : ℤ} (h : F.value x = .fin sg n e) (hx : x < 2 * F.signBit) :
    sg = false ∧ x < F.signBit ∧ x % F.signBit = x ∨ sg = true ∧ F.signBit ≤ x ∧ x % F.signBit = x - F.signBit := by
  obtain ⟨hsg, -⟩ := value_eq_fin h
  rcases lt_or_ge x F.signBit with hlt | hge
  · exact .inl ⟨by rw [hsg, Nat.div_eq_of_lt hlt]; rfl, hlt, Nat.mod_eq_of_lt hlt⟩
  · have hone : x / F.signBit = 1 := Nat.div_eq_of_lt_le (by omega) (by omega)
    refine .inr ⟨by rw [hsg, hone]; rfl, hge, ?_⟩
    rw [Nat.mod_eq_sub_mod hge, Nat.mod_eq_of_lt (by omega)]

/-! ### A function by its case -/

theorem fn_of_special {F : Fmt} {f : Fn} {x : Nat} {v : Val} (h : f.special (F.value x) = some v) : F.fn f x = F.rne v := by
  simp only [Fmt.fn, h]

theorem fn_rcp {F : Fmt} {x n : Nat} {sg : Bool} {e : ℤ} (h : F.value x = .fin sg n e) (hn : n ≠ 0) :
    F.fn .rcp x = F.signed sg (F.magnitude 1 n (-e)) := by
  rw [← roundQ_eq_signed]
  simp [Fmt.fn, h, Fn.special, hn]

theorem fn_sqrt {F : Fmt} {x n : Nat} {e : ℤ} (h : F.value x = .fin false n e) (hn : n ≠ 0) :
    F.fn .sqrt x = F.roundEncl Fn.sqrt.code x (sqrtEncl n e) := by
  simp [Fmt.fn, h, Fn.special, hn, Fn.encl]

theorem fn_negative {F : Fmt} {f : Fn} {x n : Nat} {e : ℤ} (h : F.value x = .fin true n e) (hn : n ≠ 0) (hf : f = .log2 ∨ f = .rsqrt ∨ f = .sqrt) :
    F.fn f x = F.rne .nan := by
  refine fn_of_special ?_
  rcases hf with rfl | rfl | rfl <;> simp [h, Fn.special, hn]

/-! ### Integers and fractions -/

theorem toIntegral_floor (sg : Bool) (n : Nat) (e : ℤ) :
    toIntegral 0 sg n e = .fin sg (if sg = true ∧ n * 2 ^ e.toNat % 2 ^ (-e).toNat ≠ 0 then n * 2 ^ e.toNat / 2 ^ (-e).toNat + 1
      else n * 2 ^ e.toNat / 2 ^ (-e).toNat) 0 := by
  simp [toIntegral]

theorem toIntegral_ceil (sg : Bool) (n : Nat) (e : ℤ) :
    toIntegral 1 sg n e = .fin sg (if sg = false ∧ n * 2 ^ e.toNat % 2 ^ (-e).toNat ≠ 0 then n * 2 ^ e.toNat / 2 ^ (-e).toNat + 1
      else n * 2 ^ e.toNat / 2 ^ (-e).toNat) 0 := by
  simp [toIntegral]

theorem toIntegral_rint (sg : Bool) (n : Nat) (e : ℤ) {q r : Nat} (hq : q = n * 2 ^ e.toNat / 2 ^ (-e).toNat)
    (hr : r = n * 2 ^ e.toNat % 2 ^ (-e).toNat) :
    toIntegral 2 sg n e = .fin sg (if 2 ^ (-e).toNat < 2 * r ∨ 2 * r = 2 ^ (-e).toNat ∧ q % 2 = 1 then q + 1 else q) 0 := by
  simp [toIntegral, hq, hr]

theorem fracPart_of_integer (sg : Bool) {n : Nat} {e : ℤ} (h : 0 ≤ e ∨ 2 ^ (-e).toNat ∣ n) : fracPart sg n e = .fin false 0 0 := by
  have hdvd : 2 ^ (-e).toNat ∣ n * 2 ^ e.toNat := by
    rcases h with he | hn
    · rw [Int.toNat_of_nonpos (neg_nonpos.2 he), pow_zero]
      exact one_dvd _
    · exact hn.mul_right _
  simp only [fracPart, Nat.mod_eq_zero_of_dvd hdvd, if_true]

theorem fracPart_of_ne_zero (sg : Bool) {n : Nat} {e : ℤ} (h : n * 2 ^ e.toNat % 2 ^ (-e).toNat ≠ 0) :
    fracPart sg n e = .fin sg (n * 2 ^ e.toNat % 2 ^ (-e).toNat) e := by
  have he : e ≤ 0 := by
    by_contra hpos
    rw [Int.toNat_of_nonpos (by omega : -e ≤ 0), pow_zero, Nat.mod_one] at h
    exact h rfl
  simp only [fracPart, if_neg h, min_eq_left he]

/-! ### Roots -/

theorem isqrtFrom_spec (n k acc : Nat) (hlo : acc * acc ≤ n) (hhi : n < (acc + 2 ^ (k + 1)) * (acc + 2 ^ (k + 1))) :
    isqrtFrom n k acc * isqrtFrom n k acc ≤ n ∧ n < (isqrtFrom n k acc + 1) * (isqrtFrom n k acc + 1) := by
  induction k generalizing acc with
  | zero =>
    unfold isqrtFrom
    split
    · next h => exact ⟨h, hhi⟩
    · next h => exact ⟨hlo, not_le.1 h⟩
  | succ k ih =>
    unfold isqrtFrom
    split
    · next h =>
      refine ih _ h ?_
      rwa [add_assoc, ← two_mul, ← pow_succ']
    · next h => exact ih _ hlo (not_le.1 h)

theorem isqrt_eq_sqrt (n : Nat) : isqrt n = n.sqrt := by
  refine Nat.eq_sqrt.2 (isqrtFrom_spec n _ 0 (Nat.zero_le _) (Nat.lt_log2_self.trans_le ?_))
  rw [zero_add, ← pow_add]
  exact Nat.pow_le_pow_right two_pos (by omega)

/-- A multiple of M^2 that is no square is far from the squares of multiples of M. -/
theorem not_dvd_sqrt {M x : Nat} (hM : M * M ∣ x) (hne : x.sqrt * x.sqrt ≠ x) (hlt : 2 * x.sqrt + 1 < M * M) : ¬ M ∣ x.sqrt ∧ ¬ M ∣ x.sqrt + 1 := by
  have hlo := Nat.sqrt_le x
  have hhi : x < (x.sqrt + 1) * (x.sqrt + 1) := Nat.lt_succ_sqrt x
  have hsq : (x.sqrt + 1) * (x.sqrt + 1) = x.sqrt * x.sqrt + (2 * x.sqrt + 1) := by ring
  refine ⟨fun h => ?_, fun h => ?_⟩
  · have := Nat.le_of_dvd (by omega) (Nat.dvd_sub hM (Nat.mul_dvd_mul h h))
    omega
  · have := Nat.le_of_dvd (by omega) (Nat.dvd_sub (Nat.mul_dvd_mul h h) hM)
    omega

/-- Between two neighbours t and t + 1 far finer than a format's steps lies no boundary of its rounding, unless one of them is a coarse multiple. -/
theorem Nearest.next {F : Fmt} {t j p : Nat} {f : ℤ} (ht : 2 ^ (j + F.m + 1) ≤ t) (h0 : ¬ 2 ^ j ∣ t) (h1 : ¬ 2 ^ j ∣ t + 1)
    (h : Nearest F (t * 2 ^ f) p) : Nearest F ((t + 1) * 2 ^ f) p := by
  obtain ⟨q, s, ⟨hleast, hbelow, habove, hlo, hhi⟩, hlt, heq, hgt⟩ := h
  have hf := two_zpow_pos f
  have hstep : ((t : ℚ) * 2 ^ f) < (t + 1) * 2 ^ f := mul_lt_mul_of_pos_right (by linarith) hf
  have hjq : (j : ℤ) + f < q := by
    have hle : (2 : ℚ) ^ (((j + F.m + 1 : Nat) : ℤ) + f) ≤ t * 2 ^ f := by
      rw [zpow_add₀ two_ne_zero, zpow_natCast]
      exact mul_le_mul_of_nonneg_right (by exact_mod_cast ht) hf.le
    have := two_zpow_lt_iff.1 (hle.trans_lt hbelow)
    push_cast at this
    omega
  obtain ⟨i, hi⟩ : ∃ i : Nat, q = i + 1 + j + f := ⟨(q - 1 - j - f).toNat, by omega⟩
  have hunit (k : Nat) : (k / 2 * 2 ^ q : ℚ) = (k * 2 ^ i * 2 ^ j : Nat) * 2 ^ f := by
    rw [hi, zpow_add₀ two_ne_zero, zpow_add₀ two_ne_zero, zpow_add₀ two_ne_zero]
    push_cast
    simp only [zpow_natCast]
    ring
  have hlt_iff (k : Nat) : ((t + 1) * 2 ^ f : ℚ) < k / 2 * 2 ^ q ↔ (t * 2 ^ f : ℚ) < k / 2 * 2 ^ q := by
    rw [hunit, mul_lt_mul_iff_left₀ hf, mul_lt_mul_iff_left₀ hf, ← Nat.cast_succ, Nat.cast_lt, Nat.cast_lt]
    have hne : t + 1 ≠ k * 2 ^ i * 2 ^ j := fun h => h1 (h ▸ Nat.dvd_mul_left _ _)
    omega
  have hne (k : Nat) : (t * 2 ^ f : ℚ) ≠ k / 2 * 2 ^ q := by
    rw [hunit]
    intro h
    exact h0 (by rw [Nat.cast_injective (mul_right_cancel₀ hf.ne' h)]; exact Nat.dvd_mul_left _ _)
  have hne' (k : Nat) : ((t + 1) * 2 ^ f : ℚ) ≠ k / 2 * 2 ^ q := by
    rw [hunit, ← Nat.cast_succ]
    intro h
    exact h1 (by rw [← Nat.succ_eq_add_one, Nat.cast_injective (mul_right_cancel₀ hf.ne' h)]; exact Nat.dvd_mul_left _ _)
  have hmid : (s + 1 / 2 : ℚ) = (2 * s + 1 : Nat) / 2 := by push_cast; ring
  have htop : (s + 1 : ℚ) = (2 * s + 2 : Nat) / 2 := by push_cast; ring
  have hexp : (2 : ℚ) ^ (q + F.m + 1) = (2 ^ (F.m + 2) : Nat) / 2 * 2 ^ q := by
    rw [add_assoc, zpow_add₀ two_ne_zero, ← Nat.cast_succ, zpow_natCast, Nat.succ_eq_add_one]
    push_cast
    ring
  rw [hmid] at hlt heq hgt
  rw [htop] at hhi
  rw [hexp] at hbelow
  refine ⟨q, s, ⟨hleast, ?_, fun hq => (habove hq).trans hstep.le, hlo.trans hstep.le, ?_⟩, ?_⟩
  · rw [hexp]
    exact (hlt_iff _).2 hbelow
  · rw [htop]
    exact (hlt_iff _).2 hhi
  · rw [hmid]
    refine ⟨fun h => hlt (hstep.trans h), fun h => absurd h (hne' _), fun h => hgt ?_⟩
    exact lt_of_le_of_ne (not_lt.1 ((hlt_iff _).not.1 h.not_gt)) (hne _).symm

/-- A root taken to 160 bits below its operand's unit rounds as the root does: no boundary lies between it and its successor. -/
theorem magnitude_sqrt_next {F : Fmt} (hm : F.m ≤ 23) {n : Nat} (hn : n ≠ 0) (hlt : n < 2 ^ 25) (f : ℤ)
    (hne : (n * 2 ^ 320).sqrt * (n * 2 ^ 320).sqrt ≠ n * 2 ^ 320) :
    F.magnitude (n * 2 ^ 320).sqrt 1 f = F.magnitude ((n * 2 ^ 320).sqrt + 1) 1 f := by
  have hlow : 2 ^ 160 ≤ (n * 2 ^ 320).sqrt := Nat.le_sqrt.2 (by omega)
  have hhigh : (n * 2 ^ 320).sqrt < 2 ^ 173 := Nat.sqrt_lt.2 (by omega)
  have hdvd : 2 ^ 136 * 2 ^ 136 ∣ n * 2 ^ 320 := by
    rw [← pow_add]
    exact (pow_dvd_pow 2 (by omega)).mul_left n
  obtain ⟨h0, h1⟩ := not_dvd_sqrt hdvd hne (by omega)
  generalize (n * 2 ^ 320).sqrt = t at *
  have ht : 2 ^ (136 + F.m + 1) ≤ t := (Nat.pow_le_pow_right two_pos (by omega)).trans hlow
  have hpick := nearest_pick F (n := t) (by omega) one_ne_zero f 0
  rw [magnitude_of_nearest (by omega) one_ne_zero hpick]
  rw [Nat.cast_one, div_one] at hpick
  refine (magnitude_of_nearest (by omega) one_ne_zero ?_).symm
  simpa using hpick.next ht h0 h1

end Sys2Proof.Machine
end

section
/-!
PROOFS. The special operands of spec/07 R126 and the exact functions on finite operands (R125).
-/
namespace Sys2Proof.Machine
open Sys2Proof

/-! ### The square root between two neighbours -/

/-- A root as the model takes it: n is n' or 2 n', at an even exponent. -/
theorem sqrtEncl_eq (n : Nat) (e : ℤ) :
    ∃ n' k, (n' = n ∨ n' = 2 * n) ∧ (n * 2 ^ e : ℚ) = n' * (2 ^ k) ^ 2 ∧
      sqrtEncl n e = if (n' * 2 ^ 320).sqrt * (n' * 2 ^ 320).sqrt = n' * 2 ^ 320 then .exact (.fin false (n' * 2 ^ 320).sqrt (k - 160))
        else .near false (n' * 2 ^ 320).sqrt ((n' * 2 ^ 320).sqrt + 1) (k - 160) := by
  by_cases he : e % 2 = 0
  · refine ⟨n, e / 2, .inl rfl, ?_, ?_⟩
    · rw [← zpow_natCast, ← zpow_mul, Nat.cast_ofNat, Int.ediv_mul_cancel (Int.dvd_of_emod_eq_zero he)]
    · simp only [sqrtEncl, if_pos he, isqrt_eq_sqrt]
  · refine ⟨2 * n, (e - 1) / 2, .inr rfl, ?_, ?_⟩
    · rw [← zpow_natCast, ← zpow_mul, Nat.cast_ofNat, Int.ediv_mul_cancel (by omega), zpow_sub_one₀ two_ne_zero]
      push_cast
      ring
    · simp only [sqrtEncl, if_neg he, isqrt_eq_sqrt]

/-- What the model answers for a root: the rounding of a lower bound that rounds as an upper bound does. -/
theorem sqrt_enclosed {F : Fmt} (hm : F.m ≤ 23) {n : Nat} (hn : n ≠ 0) (hlt : n < 2 ^ 24) (e : ℤ) (pat : Nat) :
    ∃ lo hi f, F.roundEncl Fn.sqrt.code pat (sqrtEncl n e) = F.rne (.fin false lo f) ∧ F.magnitude lo 1 f = F.magnitude hi 1 f ∧
      (lo * 2 ^ f : ℚ) ^ 2 ≤ n * 2 ^ e ∧ (n * 2 ^ e : ℚ) ≤ (hi * 2 ^ f) ^ 2 := by
  obtain ⟨n', k, hn', hv, hencl⟩ := sqrtEncl_eq n e
  have hk : (2 : ℚ) ^ (k - 160) * 2 ^ 160 = 2 ^ k := by
    rw [← zpow_natCast, ← zpow_add₀ two_ne_zero, Nat.cast_ofNat, sub_add_cancel]
  have hscale (t : Nat) : (t * 2 ^ (k - 160) : ℚ) ^ 2 * 2 ^ 320 = (t * t : Nat) * (2 ^ k) ^ 2 := by
    rw [← hk, show (2 : ℚ) ^ 320 = (2 ^ 160) ^ 2 from (pow_mul 2 160 2), Nat.cast_mul]
    ring
  have hvs : (n * 2 ^ e : ℚ) * 2 ^ 320 = (n' * 2 ^ 320 : Nat) * (2 ^ k) ^ 2 := by
    rw [hv, Nat.cast_mul, Nat.cast_pow, Nat.cast_ofNat, mul_right_comm]
  have hpow : (0 : ℚ) < 2 ^ 320 := by positivity
  have hkpos : (0 : ℚ) ≤ (2 ^ k) ^ 2 := by positivity
  have hle {t : Nat} (h : t * t ≤ n' * 2 ^ 320) : (t * 2 ^ (k - 160) : ℚ) ^ 2 ≤ n * 2 ^ e := by
    refine le_of_mul_le_mul_right ?_ hpow
    rw [hscale, hvs]
    exact mul_le_mul_of_nonneg_right (Nat.cast_le.2 h) hkpos
  have hge {t : Nat} (h : n' * 2 ^ 320 ≤ t * t) : (n * 2 ^ e : ℚ) ≤ (t * 2 ^ (k - 160)) ^ 2 := by
    refine le_of_mul_le_mul_right ?_ hpow
    rw [hscale, hvs]
    exact mul_le_mul_of_nonneg_right (Nat.cast_le.2 h) hkpos
  by_cases hx : (n' * 2 ^ 320).sqrt * (n' * 2 ^ 320).sqrt = n' * 2 ^ 320
  · exact ⟨_, _, k - 160, by rw [hencl, if_pos hx, Fmt.roundEncl], rfl, hle (Nat.sqrt_le _), hge hx.ge⟩
  · have hnext := magnitude_sqrt_next hm (by omega) (by omega) (k - 160) hx
    refine ⟨_, _, k - 160, ?_, hnext, hle (Nat.sqrt_le _), hge (Nat.lt_succ_sqrt _).le⟩
    rw [hencl, if_neg hx, rne_fin]
    simp only [Fmt.roundEncl, roundQ_eq_signed, hnext, if_true]

/-! ### Exact functions on finite operands -/

namespace Usual
variable {F : Fmt} {inf nan x n : Nat} {sg : Bool} {e : ℤ} (hF : Usual F inf nan)
include hF

theorem fn_abs (h : F.value x = .fin sg n e) (hn : n ≠ 0) : F.fn .abs x = x % F.signBit := by
  rw [fn_of_special (v := .fin false n e) (by rw [h]; rfl), hF.rne_eq, magnitude_of_value h hn]
  rfl

theorem fn_neg (h : F.value x = .fin sg n e) (hn : n ≠ 0) (hx : x < 2 * F.signBit) :
    F.fn .neg x = if x < F.signBit then x + F.signBit else x - F.signBit := by
  rw [fn_of_special (v := .fin (!sg) n e) (by rw [h]; rfl), hF.rne_eq, magnitude_of_value h hn]
  rcases value_sign h hx with ⟨rfl, hlt, hmod⟩ | ⟨rfl, hge, hmod⟩
  · rw [if_pos hlt, hmod]
    rfl
  · rw [if_neg hge.not_gt, hmod]
    rfl

theorem fn_rcp_between (h : F.value x = .fin sg n e) (hn : n ≠ 0) {t : Nat} {f : ℤ} (hlo : (t : ℚ) * 2 ^ f ≤ 1 / (n * 2 ^ e))
    (hhi : 1 / (n * 2 ^ e) ≤ ((t : ℚ) + 1) * 2 ^ f) (ht : F.rne (.fin sg t f) = F.rne (.fin sg (t + 1) f)) :
    F.fn .rcp x = F.rne (.fin sg t f) := by
  have hv : (1 / (n * 2 ^ e) : ℚ) = (1 : Nat) / n * 2 ^ (-e) := by
    rw [zpow_neg]
    field_simp
    norm_num
  rw [hv] at hlo hhi
  rw [fn_rcp h hn, rne_fin, hF.magnitude_between hn hlo hhi ht]

theorem fn_sqrt_between (h : F.value x = .fin false n e) (hn : n ≠ 0) {t : Nat} {f : ℤ} (hlo : ((t : ℚ) * 2 ^ f) ^ 2 ≤ n * 2 ^ e)
    (hhi : n * 2 ^ e ≤ (((t : ℚ) + 1) * 2 ^ f) ^ 2) (ht : F.rne (.fin false t f) = F.rne (.fin false (t + 1) f)) :
    F.fn .sqrt x = F.rne (.fin false t f) := by
  obtain ⟨-, -, -, hlt, -⟩ := value_eq_fin h
  have hlt24 : n < 2 ^ 24 := hlt.trans_le (Nat.pow_le_pow_right two_pos (Nat.succ_le_succ hF.frac))
  obtain ⟨lo, hi, g, hfn, heq, hlo', hhi'⟩ := sqrt_enclosed hF.frac hn hlt24 e x
  have hpos (k : ℤ) : (0 : ℚ) ≤ 2 ^ k := (two_zpow_pos k).le
  have hup : (t * 2 ^ f : ℚ) ≤ hi * 2 ^ g := (pow_le_pow_iff_left₀ (by positivity) (by positivity) two_ne_zero).1 (hlo.trans hhi')
  have hdown : (lo * 2 ^ g : ℚ) ≤ (t + 1 : Nat) * 2 ^ f :=
    (pow_le_pow_iff_left₀ (by positivity) (by positivity) two_ne_zero).1 (hlo'.trans (by push_cast; exact hhi))
  rw [rne_fin, rne_fin] at ht
  have ht' := hF.signed_inj (hF.magnitude_ne_nan _ _ _) (hF.magnitude_ne_nan _ _ _) ht
  have hle : F.magnitude t 1 f ≤ F.magnitude lo 1 g := heq ▸ hF.magnitude_mono one_ne_zero one_ne_zero (by simpa using hup)
  have hge : F.magnitude lo 1 g ≤ F.magnitude t 1 f := ht' ▸ hF.magnitude_mono one_ne_zero one_ne_zero (by simpa using hdown)
  rw [fn_sqrt h hn, hfn, rne_fin, rne_fin, le_antisymm hle hge]

end Usual

/-- floor, ceil, rint and frac by the integer below an operand's magnitude and what is left of it. -/
theorem fn_integral {F : Fmt} {x n q r : Nat} {sg : Bool} {e : ℤ} (h : F.value x = .fin sg n e) (hq : q = n * 2 ^ e.toNat / 2 ^ (-e).toNat)
    (hr : r = n * 2 ^ e.toNat % 2 ^ (-e).toNat) :
    F.fn .floor x = F.rne (.fin sg (if sg = true ∧ r ≠ 0 then q + 1 else q) 0) ∧
    F.fn .ceil x = F.rne (.fin sg (if sg = false ∧ r ≠ 0 then q + 1 else q) 0) ∧
    F.fn .rint x = F.rne (.fin sg (if 2 ^ (-e).toNat < 2 * r ∨ 2 * r = 2 ^ (-e).toNat ∧ q % 2 = 1 then q + 1 else q) 0) ∧
    (r ≠ 0 → F.fn .frac x = F.rne (.fin sg r e)) := by
  subst hq hr
  refine ⟨fn_of_special ?_, fn_of_special ?_, fn_of_special ?_, fun hr0 => fn_of_special ?_⟩ <;> rw [h]
  · rw [← toIntegral_floor]
    rfl
  · rw [← toIntegral_ceil]
    rfl
  · rw [← toIntegral_rint sg n e rfl rfl]
    rfl
  · rw [← fracPart_of_ne_zero sg hr0]
    rfl

/-! ### The table -/

/-- The pattern of 1. -/
def Fmt.one (F : Fmt) : Nat := F.bias * 2 ^ F.m

/-- Rounding 1 and one half, and the operands of R126 that each format holds. -/
theorem table_at_one : ∀ F ∈ [fmtF32, fmtF16, fmtBf16],
    F.value F.one = .fin false (2 ^ F.m) (-F.m) ∧ F.magnitude 1 1 0 = F.one ∧ F.magnitude 1 1 (-1) = F.one - 2 ^ F.m ∧
    F.fn .log2 F.one = 0 ∧ F.fn .floor (F.one - 2 ^ F.m + F.signBit) = F.one + F.signBit ∧
    F.fn .ceil (F.one - 2 ^ F.m + F.signBit) = F.signBit ∧ F.fn .rint (F.one - 2 ^ F.m + F.signBit) = F.signBit ∧
    F.fn .rint (F.one + 2 ^ F.m + 2 ^ F.m / 4) = F.one + 2 ^ F.m ∧
    F.fn .frac (F.one + 2 ^ F.m + 2 ^ F.m / 4 + F.signBit) = F.one - 2 ^ F.m + F.signBit := by
  decide +kernel

theorem fn_of_nan {F : Fmt} {x : Nat} (h : F.value x = .nan) (f : Fn) : F.fn f x = F.rne .nan := by
  refine fn_of_special ?_
  rw [h]
  cases f <;> rfl

end Sys2Proof.Machine

namespace Sys2Proof.Claim
open Sys2Proof Sys2Proof.Machine

/-- Settles O5: rounding follows the order of the values, so a quotient or root between two neighbours that round alike rounds as they do; the
model's own root is within 2^-160 of its operand's unit and no boundary lies so near an inexact root. -/
theorem specialOperandsFollowTheTable : Obligations.SpecialOperandsFollowTheTable := by
  intro F hmem
  have hF := usual_of_mem F hmem
  obtain ⟨hone, hmag1, hmagHalf, hlog, hfloor, hceil, hrint, hrint', hfrac⟩ := table_at_one F hmem
  have hrneOne (sg : Bool) : F.rne (.fin sg 1 0) = if sg then F.one + F.signBit else F.one := by rw [hF.rne_eq, hmag1]
  have hrneHalf : F.rne (.fin false 1 (-1)) = F.one - 2 ^ F.m := by
    rw [hF.rne_eq, hmagHalf]
    rfl
  refine ⟨_, _, F.one, hF.isInf, hF.isNan, hone, fun f x hx => (fn_of_nan hx f).trans hF.rne_nan, fun f sg x hx => ?_, fun f sg x e hx => ?_,
    fun f x n e hx hn hf => (fn_negative hx hn hf).trans hF.rne_nan, hlog, hfloor, hceil, hrint, hrint', hfrac,
    fun x sg n e hx hi => ?_, fun x sg n e hx hn hlt => ⟨hF.fn_abs hx hn, hF.fn_neg hx hn hlt, fun q r hq hr => fn_integral hx hq hr,
      fun t f => hF.fn_rcp_between hx hn, fun t f hsg => ?_⟩⟩
  · cases f <;> cases sg <;> simp [Fmt.fn, hx, Fn.special, hF.rne_nan, hF.rne_inf, hF.rne_zero, hrneOne]
  · cases f <;> cases sg <;>
      simp [Fmt.fn, hx, Fn.special, toIntegral, fracPart, hF.rne_inf, hF.rne_zero, hrneOne, hrneHalf]
  · rw [fn_of_special (v := .fin false 0 0) (by rw [hx, ← fracPart_of_integer sg hi]; rfl), hF.rne_zero]
    rfl
  · subst hsg
    exact hF.fn_sqrt_between hx hn

end Sys2Proof.Claim
end

section
/-!
O59, part 1 of 8: memory, teams and words of one team.
Each function of the model that gives a state keeps memory canonical. There is one lemma `State.MemOk.f` for each such function `f`, so that the lemma
for a function chains those of the functions it calls, in the order in which the model chains them: `h.updTeam.finishOp` shows that
`(s.updTeam ..).finishOp ..` keeps what `h` says of `s`. Only functions that store through `Memory.write` or drop cells need more.
-/
namespace Sys2Proof.Machine
open Sys2Proof
-- Elaborated one at a time: as tasks of their own, hundreds of short proofs want more threads than the memory limit leaves room for.
set_option Elab.async false

/-! ### What it is to keep memory canonical -/

/-- What an outcome must be: a next state with canonical memory or a fault, and no refusal. -/
def Outcome.Ok : Host.Outcome State Fault Refusal → Prop
  | .next t => t.MemOk
  | .fault _ => True
  | .refused _ => False

/-- An effect of an access keeps memory canonical. -/
def Effect.Keeps (eff : Effect) : Prop := ∀ u xs op t, t.MemOk → (eff u xs op t).s.MemOk

section
variable {s : State} {α β γ : Type}

/-- The state of a pair named by a pattern. -/
theorem State.MemOk.snd {p : α × State} (h : p.2.MemOk) {a : α} (e : p = (a, s)) : s.MemOk := by rw [e] at h; exact h

/-- A state with the same memory. -/
theorem State.MemOk.same {t : State} (h : s.MemOk) (e : t.mem = s.mem := by rfl) : t.MemOk := by rw [State.MemOk, e]; exact h

theorem State.MemOk.fst {p : State × α} (h : p.1.MemOk) {a : α} (e : p = (s, a)) : s.MemOk := by rw [e] at h; exact h

theorem State.MemOk.mid {p : α × State × β} (h : p.2.1.MemOk) {a : α} {b : β} (e : p = (a, s, b)) : s.MemOk := by rw [e] at h; exact h

/-- A fold keeps what its steps keep. -/
theorem State.MemOk.foldl {f : State → α → State} {l : List α} (h : s.MemOk) (hf : ∀ {t x}, t.MemOk → (f t x).MemOk) : (l.foldl f s).MemOk :=
  foldl_keeps (P := State.MemOk) (fun _ _ => hf) l h

/-! ### Memory and stores (Machine/Mem) -/

theorem State.MemOk.draw (h : s.MemOk) : s.draw.2.MemOk :=
  h

theorem State.MemOk.newId (h : s.MemOk) : s.newId.2.MemOk :=
  h

theorem State.MemOk.flushCE (h : s.MemOk) {all : Bool} : (s.flushCE all).MemOk :=
  h.foldl fun h => by
    dsimp only
    split
    · exact State.post_wf _ h.same
    · exact h

/-! ### Translation (Machine/Trans) -/

theorem State.MemOk.updCtx (h : s.MemOk) {c : Nat} {f : Ctx → Ctx} : (s.updCtx c f).MemOk :=
  h

theorem State.MemOk.dropLeaf (h : s.MemOk) {cl ctx gen va : Nat} : (s.dropLeaf cl ctx gen va).MemOk :=
  h

theorem State.MemOk.cacheLeaf (h : s.MemOk) {cl ctx gen va : Nat} {l : Leaf} {walked : Bool} : (s.cacheLeaf cl ctx gen va l walked).MemOk := by
  unfold State.cacheLeaf
  dsimp only
  split
  · exact h.draw
  · exact h

theorem State.MemOk.lookup (h : s.MemOk) {cl ctx gen va : Nat} : (s.lookup cl ctx gen va).2.MemOk := by
  unfold State.lookup
  dsimp only
  split
  · exact h
  · split
    · split
      · exact h.cacheLeaf
      · exact h
    · split
      · split
        · exact h
        · exact h.cacheLeaf
      · split
        · split
          · exact h.draw
          · exact h.draw.cacheLeaf
        · split
          · exact h.draw.dropLeaf.cacheLeaf
          · exact h.draw.dropLeaf

theorem State.MemOk.translate (h : s.MemOk) {cl ctx gen : Nat} {k : Access} {va : Nat} : (s.translate cl ctx gen k va).2.MemOk := by
  unfold State.translate
  split <;> exact h.lookup.snd ‹_›

theorem State.MemOk.flushPrqN (h : s.MemOk) (n : Nat) : (s.flushPrqN n).MemOk := by
  induction n generalizing s with
  | zero => exact h
  | succ n ih =>
    unfold State.flushPrqN
    split
    · exact h
    · dsimp only
      split
      · exact ih (State.perform_wf _ h)
      · exact h

theorem State.MemOk.flushPrq (h : s.MemOk) : s.flushPrq.MemOk := h.flushPrqN _

theorem State.MemOk.merge (h : s.MemOk) {die ctx gen page : Nat} {k : Access} {cause : Nat} {engine : Bool} :
    (s.merge die ctx gen page k cause engine).2.MemOk := by
  unfold State.merge
  dsimp only
  split
  · exact h
  · split
    · exact h
    · exact h.same.flushPrq

theorem State.MemOk.retrySignals (h : s.MemOk) : s.retrySignals.MemOk :=
  h.same.foldl fun h => State.signalAdd_wf _ _ _ _ _ h

/-! ### The L1 of each core (Machine/Cache) -/

theorem State.MemOk.updTeam (h : s.MemOk) {tid : Nat} {f : Team → Team} : (s.updTeam tid f).MemOk :=
  h

theorem State.MemOk.updCore (h : s.MemOk) {c : Nat} {f : Core → Core} : (s.updCore c f).MemOk :=
  h

theorem State.MemOk.updQueue (h : s.MemOk) {q : Nat} {f : Queue → Queue} : (s.updQueue q f).MemOk :=
  h

theorem State.MemOk.updBundle (h : s.MemOk) {b : Nat} {f : Bundle → Bundle} : (s.updBundle b f).MemOk :=
  h

theorem State.MemOk.errsig (h : s.MemOk) {q : Nat} : (s.errsig q).MemOk := by
  unfold State.errsig
  split
  · exact State.signalDec_wf _ _ _ _ h
  · exact h

theorem State.MemOk.dropClean (h : s.MemOk) {core key : Nat} : (s.dropClean core key).MemOk :=
  h

theorem State.MemOk.dropDirty (h : s.MemOk) {d : Dirty} : (s.dropDirty d).MemOk :=
  h

theorem State.MemOk.pin (h : s.MemOk) {d : Dirty} {byRel : Bool} : (s.pin d byRel).MemOk :=
  h.same.dropClean.updTeam

theorem State.MemOk.lose (h : s.MemOk) {d : Dirty} : (s.lose d).MemOk := by
  unfold State.lose
  dsimp only
  split
  · exact State.report_wf _ _ _ _ _ _ _ h.dropDirty.errsig
  · exact State.report_wf _ _ _ _ _ _ _ h.dropDirty

theorem State.MemOk.writeBackOld (h : s.MemOk) {d : Dirty} : (s.writeBackOld d).MemOk :=
  State.homeStore_wf _ _ _ _ h.dropDirty.dropClean

theorem State.MemOk.writeBack (h : s.MemOk) {d : Dirty} {byRel : Bool} : (s.writeBack d byRel).1.MemOk := by
  unfold State.writeBack
  dsimp only
  split
  · exact h.writeBackOld
  · split
    · rename_i e
      have h1 := h.translate.snd e
      exact State.homeStore_wf _ _ _ _ h1.dropDirty.dropClean
    · rename_i e
      have h1 := h.translate.snd e
      split
      · exact h1.pin
      · exact h1.lose

theorem State.MemOk.writeBackAll (h : s.MemOk) {byRel : Bool} {ds : List Dirty} : (s.writeBackAll byRel ds).1.MemOk := by
  induction ds generalizing s with
  | nil => exact h
  | cons d ds ih => exact ih h.writeBack

theorem State.MemOk.touch (h : s.MemOk) {core tid key : Nat} : (s.touch core tid key).MemOk := by
  unfold State.touch
  split
  · split
    · exact h
    · exact h.writeBack
  · exact h

theorem State.MemOk.retag (h : s.MemOk) {core key ctx gen : Nat} {va : W80} : (s.retag core key ctx gen va).MemOk :=
  h.writeBackAll

theorem State.MemOk.fillSector (h : s.MemOk) {core ctx gen : Nat} {va : W80} {sec : Nat} : (s.fillSector core ctx gen va sec).2.MemOk := by
  unfold State.fillSector
  dsimp only
  split
  · split
    · exact h
    · split <;> exact h.draw
  · exact h

theorem State.MemOk.loadSector (h : s.MemOk) {core tid ctx gen : Nat} {va : W80} {key loc : Nat} :
    (s.loadSector core tid ctx gen va key loc).2.MemOk := by
  unfold State.loadSector
  dsimp only
  split
  · exact h
  · split
    · split
      · exact h.touch.retag.fillSector
      · exact h.touch.retag
    · exact h.touch.retag.fillSector

theorem State.MemOk.loadBytes (h : s.MemOk) {core tid ctx gen : Nat} {va : W80} {key loc n : Nat} :
    (s.loadBytes core tid ctx gen va key loc n).2.MemOk := by
  unfold State.loadBytes
  dsimp only
  exact h.loadSector

theorem State.MemOk.noteEdit (h : s.MemOk) {tid key : Nat} : (s.noteEdit tid key).MemOk :=
  h

theorem State.MemOk.storeBytes (h : s.MemOk) {core tid ctx gen : Nat} {va : W80} {key loc : Nat} {new : List (Nat × Byte)} :
    (s.storeBytes core tid ctx gen va key loc new).MemOk := by
  unfold State.storeBytes
  dsimp only
  split
  · exact State.homeStore_wf _ _ _ _ h.noteEdit
  · split
    · split
      · split
        · exact h.touch.retag
        · exact State.homeStore_wf _ _ _ _ h.touch.retag.dropClean
      · exact h.touch.retag
    · exact State.homeStore_wf _ _ _ _ h.dropClean

theorem State.MemOk.atomicAt (h : s.MemOk) {core tid ctx gen : Nat} {va : W80} {key loc n : Nat} {f : Nat → Nat} :
    (s.atomicAt core tid ctx gen va key loc n f).2.MemOk := by
  unfold State.atomicAt
  dsimp only
  split
  · exact State.homeAtomic_wf _ _ _ _ _ _ h
  · split
    · split
      · exact State.homeAtomic_wf _ _ _ _ _ _ h.dropClean
      · exact State.homeAtomic_wf _ _ _ _ _ _ h.writeBack.dropClean
    · exact State.homeAtomic_wf _ _ _ _ _ _ h.dropClean

theorem State.MemOk.release (h : s.MemOk) {tid : Nat} {sc : Scope} : (s.release tid sc).1.MemOk := by
  unfold State.release
  split
  · exact h.writeBackAll
  · exact h.same.writeBackAll

theorem State.MemOk.acquire (h : s.MemOk) {core : Nat} {sc : Scope} : (s.acquire core sc).MemOk :=
  h

theorem State.MemOk.shootdown (h : s.MemOk) {ctx lo n : Nat} {drop : Bool} : (s.shootdown ctx lo n drop).MemOk := by
  unfold State.shootdown
  dsimp only
  split
  · exact h.same.foldl fun h => h.dropDirty
  · exact h.same.foldl fun h => h.writeBackOld

/-! ### The registers that a word names (Machine/Operands) -/

theorem State.MemOk.setMe (h : s.MemOk) {f : Team → Team} : (s.setMe f).MemOk :=
  h

/-! ### Outstanding operations and addresses (Machine/Retire) -/

theorem State.MemOk.reach (h : s.MemOk) {ctx gen : Nat} {bundle : Option Nat} {cluster : Nat} {k : Access} {va : W80} {n : Nat} :
    (s.reach ctx gen bundle cluster k va n).2.MemOk := by
  unfold State.reach
  split
  · split
    · exact h
    · split <;> exact h
  · exact h.translate

theorem State.MemOk.teamReach (h : s.MemOk) {t : Team} {k : Access} {va : W80} {n : Nat} : (s.teamReach t k va n).2.MemOk := by
  unfold State.teamReach
  split
  · exact h
  · exact h.reach

theorem State.MemOk.acquireAll (h : s.MemOk) {ts : List Team} : (s.acquireAll ts).MemOk :=
  h.foldl fun h => by
    split
    · split
      · exact h.acquire
      · exact h
    · exact h

theorem State.MemOk.gangCheck (h : s.MemOk) {g : Nat} : (s.gangCheck g).MemOk := by
  unfold State.gangCheck
  dsimp only
  split
  · exact h.acquireAll
  · exact h

theorem State.MemOk.descPut (h : s.MemOk) {q : Queue} {off n x : Nat} : (s.descPut q off n x).MemOk :=
  State.agentWrite_wf _ _ _ _ _ h

theorem State.MemOk.drainCheck (h : s.MemOk) {q : Nat} : (s.drainCheck q).MemOk := by
  unfold State.drainCheck
  dsimp only
  split
  · exact h
  · split
    · exact State.signalDec_wf _ _ _ _ h.descPut.descPut
    · exact h

theorem State.MemOk.dropBundle (h : s.MemOk) {b : Bundle} : (s.dropBundle b).MemOk :=
  h

theorem State.MemOk.flushEnded (h : s.MemOk) {ctx gen : Nat} : (s.flushEnded ctx gen).MemOk :=
  h.writeBackAll

theorem State.MemOk.retireBundle (h : s.MemOk) {b : Bundle} : (s.retireBundle b).MemOk := by
  unfold State.retireBundle
  dsimp only
  split
  · exact h.dropBundle
  · exact ((State.signalDec_wf _ _ _ _ h.flushEnded).dropBundle).drainCheck

theorem State.MemOk.bundleCheck (h : s.MemOk) {id : Nat} : (s.bundleCheck id).MemOk := by
  unfold State.bundleCheck
  split
  · exact h
  · split
    · exact h.retireBundle
    · exact h

theorem State.MemOk.subDone (h : s.MemOk) {bundle sub : Nat} {abort : Bool} : (s.subDone bundle sub abort).MemOk := by
  unfold State.subDone
  dsimp only
  exact h.updBundle.bundleCheck

theorem State.MemOk.subAbort (h : s.MemOk) {bundle sub : Nat} : (s.subAbort bundle sub).MemOk := by
  unfold State.subAbort
  dsimp only
  exact h.updBundle

theorem State.MemOk.cancelWaits (h : s.MemOk) {tid : Nat} : (s.cancelWaits tid).MemOk :=
  h.same.updTeam

theorem State.MemOk.unbindRings (h : s.MemOk) {tid : Nat} : (s.unbindRings tid).MemOk :=
  h

theorem State.MemOk.dropPinnedOf (h : s.MemOk) {tid : Nat} : (s.dropPinnedOf tid).MemOk :=
  h

theorem State.MemOk.endTeam (h : s.MemOk) {tid : Nat} {cancel : Bool} : (s.endTeam tid cancel).MemOk := by
  unfold State.endTeam
  dsimp only
  split
  · split
    · split
      · exact (((h.cancelWaits.foldl fun h => h.lose).unbindRings).updTeam).gangCheck
      · exact (((h.foldl fun h => h.lose).unbindRings).updTeam).gangCheck
    · split
      · exact ((h.cancelWaits.foldl fun h => h.lose).unbindRings).updTeam
      · exact ((h.foldl fun h => h.lose).unbindRings).updTeam
  · split
    · exact ((h.cancelWaits.foldl fun h => h.lose).unbindRings).updTeam
    · exact ((h.foldl fun h => h.lose).unbindRings).updTeam

theorem State.MemOk.updWalk (h : s.MemOk) {id : Nat} {f : Walk → Walk} : (s.updWalk id f).MemOk :=
  h

theorem State.MemOk.updWalkCore (h : s.MemOk) {c : Nat} {f : WalkCore → WalkCore} : (s.updWalkCore c f).MemOk :=
  h.updCore

theorem State.MemOk.walkStore (h : s.MemOk) {w : Walk} {va : W80} {bs : List Byte} : (s.walkStore w va bs).MemOk := by
  unfold State.walkStore
  split
  · exact State.homeStore_wf _ _ _ _ h
  · exact h

theorem State.MemOk.walkSignal (h : s.MemOk) {w : Walk} {mark : Bool} : (s.walkSignal w mark).MemOk :=
  State.signalDec_wf _ _ _ _ h

theorem State.MemOk.freeWalkCore (h : s.MemOk) {id c : Nat} : (s.freeWalkCore id c).MemOk := by
  unfold State.freeWalkCore
  split
  · split
    · exact h.updWalk.updCore
    · exact h
  · exact h

theorem State.MemOk.finishWalk (h : s.MemOk) {id status detail : Nat} {mark : Bool} : (s.finishWalk id status detail mark).MemOk := by
  unfold State.finishWalk
  dsimp only
  split
  · exact h
  · split
    · exact (h.foldl fun h => h.freeWalkCore).foldl fun h => h.endTeam
    · exact (((((h.foldl fun h => h.freeWalkCore).foldl fun h => h.endTeam).walkStore).walkSignal).same).subDone

theorem State.MemOk.deliverWalkerr (h : s.MemOk) {w : Walk} {cause core : Nat} : (s.deliverWalkerr w cause core).MemOk := by
  unfold State.deliverWalkerr
  dsimp only
  split
  · exact h
  · split
    · exact h
    · split
      · exact h
      · exact h.updTeam

theorem State.MemOk.walkErrCheck (h : s.MemOk) {id : Nat} : (s.walkErrCheck id).MemOk := by
  unfold State.walkErrCheck
  split
  · split
    · split
      · exact h
      · exact h.finishWalk
    · exact h
  · exact h

theorem State.MemOk.walkError (h : s.MemOk) {id tile cause : Nat} : (s.walkError id tile cause).MemOk := by
  unfold State.walkError
  dsimp only
  split
  · exact h
  · split
    · exact h
    · exact (((h.updWalk.foldl fun h => h.deliverWalkerr).foldl fun h => h.updWalkCore).foldl fun h => h.endTeam).walkErrCheck

theorem State.MemOk.kill (h : s.MemOk) {tid : Nat} : (s.kill tid).MemOk := by
  unfold State.kill
  dsimp only
  split
  · exact h
  · split
    · split
      · exact h.dropPinnedOf.endTeam.walkErrCheck
      · exact h.dropPinnedOf.endTeam.walkError
    · split
      · exact h.dropPinnedOf.endTeam.subAbort
      · exact h.dropPinnedOf.endTeam

theorem State.MemOk.raise (h : s.MemOk) {tid : Nat} {p : PendTrap} : (s.raise tid p).MemOk := by
  unfold State.raise
  dsimp only
  split
  · exact h
  · split
    · exact State.report_wf _ _ _ _ _ _ _ h.kill
    · split
      · exact h.updTeam
      · split
        · exact State.report_wf _ _ _ _ _ _ _ h.kill
        · exact h.updTeam

theorem State.MemOk.releaseSlot (h : s.MemOk) {tid : Nat} : (s.releaseSlot tid).MemOk := by
  unfold State.releaseSlot
  split
  · exact h
  · split
    · extract_lets s1
      have h1 : s1.MemOk := h
      split
      · split
        · exact h1
        · exact h1.subDone
      · exact h1
    · exact h

/-! ### What every instruction shares (Machine/Ops) -/

theorem State.MemOk.unbindWindows (h : s.MemOk) {core : Nat} : (s.unbindWindows core).MemOk :=
  h

theorem State.MemOk.trapHere (h : s.MemOk) {f : FaultInfo} : (s.trapHere f).MemOk :=
  h.raise

theorem State.MemOk.trapLanes (h : s.MemOk) {f : FaultInfo} {m : Mask} : (s.trapLanes f m).MemOk :=
  h.raise

theorem State.MemOk.run (h : s.MemOk) {i : Instr} {body : State → State} (hbody : ∀ {t}, t.MemOk → (body t).MemOk) : Outcome.Ok (run i s body) := by
  unfold Machine.run
  split
  · exact h.trapHere
  · exact hbody h.setMe

theorem State.MemOk.advance (h : s.MemOk) : s.advance.MemOk :=
  h.setMe

theorem State.MemOk.putS (h : s.MemOk) {d : SReg} {x : W64} : (s.putS d x).MemOk :=
  h.setMe.advance

theorem State.MemOk.putA (h : s.MemOk) {d : AReg} {x : W80} : (s.putA d x).MemOk :=
  h.setMe.advance

theorem State.MemOk.putV (h : s.MemOk) {d : VReg} {m : Mask} {ys : List W32} {tag : BitVec 4} : (s.putV d m ys tag).MemOk :=
  h.setMe.advance

theorem State.MemOk.pipeSend (h : s.MemOk) {t : Team} {regs : List (VReg × List W32 × BitVec 4)} : (s.pipeSend t regs).MemOk :=
  h.updCore

theorem State.MemOk.sendRebuild (h : s.MemOk) {tid : Nat} : (s.sendRebuild tid).MemOk := by
  unfold State.sendRebuild
  split
  · split
    · exact h.pipeSend
    · exact h
  · exact h

theorem State.MemOk.releaseThen (h : s.MemOk) {sc : Scope} {k : State → State} (hk : ∀ {t}, t.MemOk → (k t).MemOk) : (s.releaseThen sc k).MemOk := by
  unfold State.releaseThen
  dsimp only
  split
  · split
    · exact hk h.release
    · exact hk h.release.setMe.newId.setMe
  · split
    · exact h.release.trapHere
    · exact hk h.release

theorem State.MemOk.relThen (h : s.MemOk) {sc : Option Scope} {k : State → State} (hk : ∀ {t}, t.MemOk → (k t).MemOk) : (s.relThen sc k).MemOk := by
  unfold State.relThen
  split
  · exact hk h
  · exact h.releaseThen hk

theorem State.MemOk.acqBy (h : s.MemOk) {t : Team} {sc : Option Scope} : (s.acqBy t sc).MemOk := by
  unfold State.acqBy
  split
  · exact h
  · split
    · exact h.acquire
    · exact h

theorem State.MemOk.fencedEdits (h : s.MemOk) {tid : Nat} : (s.fencedEdits tid).MemOk :=
  h

theorem State.MemOk.settleFences (h : s.MemOk) {tid : Nat} : (s.settleFences tid).MemOk := by
  unfold State.settleFences
  dsimp only
  split
  · exact h
  · split
    · exact h
    · split
      · exact (h.fencedEdits.foldl fun h => h.acqBy).updTeam
      · exact (h.foldl fun h => h.acqBy).updTeam

/-- The poison report of an access performed. -/
theorem Done.report_wf {d : Done} (h : d.s.MemOk) {t : Team} : (d.report t).MemOk := by
  unfold Done.report
  split
  · exact State.poisonReport_wf _ _ _ _ h
  · exact h

theorem State.MemOk.issueAcc (h : s.MemOk) {i : Instr} {cls : OpClass} {acq rel : Option Scope} {lanes : List LaneAt} {ws : List RegWrite}
    {pv : List VReg} {ps : List SReg} {eff : Effect} (heff : eff.Keeps) : (s.issueAcc i cls acq rel lanes ws pv ps eff).MemOk := by
  unfold State.issueAcc
  dsimp only [State.newId]
  split
  · exact h.settleFences
  · exact State.MemOk.setMe (Done.report_wf (heff _ _ _ _ (State.MemOk.same h.settleFences)))

theorem State.MemOk.tryLanes (h : s.MemOk) {i : Instr} {lanes : List LaneAt} {ws : List RegWrite} {eff : Effect} (heff : eff.Keeps) :
    (s.tryLanes i lanes ws eff).1.MemOk := by
  unfold State.tryLanes
  dsimp only
  split
  · exact h.settleFences
  · exact Done.report_wf (heff _ _ _ _ h.settleFences)

theorem LaneAcc.step_wf {k : Access} {n : Nat} {ea : Nat → W80} {a : LaneAcc} {l : Nat} (h : a.s.MemOk) : (laneStep k n ea a l).s.MemOk := by
  unfold laneStep
  dsimp only
  split
  · exact h.teamReach.snd ‹_›
  · rename_i e
    exact (h.teamReach.snd e).merge
  · exact h.teamReach.snd ‹_›

theorem LaneAcc.finish_wf {a : LaneAcc} (h : a.s.MemOk) {i : Instr} {cls : OpClass} {late : List LaneAt} {ws : List RegWrite}
    {rs : List VReg} {tag : BitVec 4} {eff : Effect} (heff : eff.Keeps) : (a.finish i cls late ws rs tag eff).MemOk := by
  unfold LaneAcc.finish
  dsimp only
  split
  · exact h.tryLanes heff
  · split
    · split
      · exact State.MemOk.trapLanes (State.MemOk.setMe (State.MemOk.tryLanes h heff))
      · exact State.MemOk.trapLanes (State.MemOk.issueAcc (State.MemOk.setMe (State.MemOk.tryLanes h heff)) heff)
    · exact State.MemOk.advance (State.MemOk.issueAcc (State.MemOk.setMe h) heff)

theorem State.MemOk.vectorAccess (h : s.MemOk) {i : Instr} {cls : OpClass} {k : Access} {n : Nat} {ea : Nat → W80} {rs : List VReg}
    {tag : BitVec 4} {eff : Effect} (heff : eff.Keeps) : (s.vectorAccess i cls k n ea rs tag eff).MemOk := by
  have lanes (ls : List Nat) {a : LaneAcc} (ha : a.s.MemOk) : (ls.foldl (laneStep k n ea) a).s.MemOk :=
    foldl_keeps (P := fun a : LaneAcc => a.s.MemOk) (fun _ _ h => LaneAcc.step_wf h) ls ha
  unfold State.vectorAccess
  split
  · exact LaneAcc.finish_wf (lanes _ h) heff
  · split
    · exact h
    · split
      · exact h.trapHere
      · exact LaneAcc.finish_wf (lanes _ h) heff

theorem State.MemOk.parkUniform (h : s.MemOk) {k : Access} {va : W80} {cause : Nat} : (s.parkUniform k va cause).MemOk := by
  unfold State.parkUniform
  dsimp only
  exact h.merge.setMe

theorem State.MemOk.access (h : s.MemOk) {k : Access} {va : W80} {n : Nat} {act : State → Nat → Nat → State} (hact : ∀
    {t a b}, t.MemOk → (act t a b).MemOk) : (s.access k va n act).MemOk := by
  unfold State.access
  split
  · exact hact (h.teamReach.snd ‹_›)
  · rename_i e
    have h1 := h.teamReach.snd e
    exact h1.parkUniform
  · rename_i e
    have h1 := h.teamReach.snd e
    exact h1.trapHere

theorem State.MemOk.unparked (h : s.MemOk) {k : State → State} (hk : ∀ {t}, t.MemOk → (k t).MemOk) : (s.unparked k).MemOk := by
  unfold State.unparked
  split
  · split
    · exact h.trapHere
    · exact hk h.setMe
  · exact hk h

theorem State.MemOk.uniform (h : s.MemOk) {va : W80} {align : Nat} {go : State → State} (hgo : ∀ {t}, t.MemOk → (go t).MemOk) :
    (s.uniform va align go).MemOk :=
  h.unparked (fun h => by
    split
    · exact h.trapHere
    · exact hgo h)

theorem State.MemOk.accessAt (h : s.MemOk) {i : Instr} {cls : OpClass} {x : LaneAt} {ps : List SReg} {eff : Effect} (heff : eff.Keeps) :
    (s.accessAt i cls x ps eff).MemOk :=
  h.relThen fun h => (h.issueAcc heff).advance

theorem State.MemOk.uniformAcc (h : s.MemOk) {i : Instr} {cls : OpClass} {k : Access} {va : W80} {n : Nat} {ps : List SReg} {eff : Effect}
    (heff : eff.Keeps) : (s.uniformAcc i cls k va n ps eff).MemOk :=
  h.uniform fun h => h.access fun h => h.accessAt heff

theorem State.MemOk.issueOp (h : s.MemOk) {cls : OpClass} {ready : Bool} {ws : List RegWrite} {ps : List SReg} {dests : List Dest}
    {acq : Option Scope} : (s.issueOp cls ready ws ps dests acq).2.MemOk := by
  unfold State.issueOp
  dsimp only
  exact h.newId.setMe.advance

/-! ### MISC and the branches (Machine/Control) -/

theorem State.MemOk.execMiscExit (h : s.MemOk) : Outcome.Ok (execMiscExit s) :=
  h.run (fun h => by
    dsimp only
    split
    · exact h.setMe.kill
    · exact h.setMe.endTeam)

theorem State.MemOk.haltCore (h : s.MemOk) {c : Nat} : (s.haltCore c).MemOk :=
  h.updCore

theorem State.MemOk.execMiscBrk (h : s.MemOk) : Outcome.Ok (execMiscBrk s) :=
  h.run (fun h => by
    split
    · exact h.advance.haltCore
    · exact h.advance)

theorem State.MemOk.goto (h : s.MemOk) {pc : W64} : (s.goto pc).MemOk :=
  h.setMe

theorem State.MemOk.stackTrap (h : s.MemOk) {detail : Nat} : (s.stackTrap detail).MemOk :=
  h.trapHere

theorem State.MemOk.execBrv (h : s.MemOk) {g : Guard} {o : BitVec 20} : Outcome.Ok (execBrv g o s) :=
  h.run (fun h => by
    dsimp only
    split
    · exact h.goto
    · split
      · exact h.goto
      · split
        · exact h.stackTrap
        · exact h.setMe.goto)

theorem State.MemOk.execRcv (h : s.MemOk) {o : BitVec 22} : Outcome.Ok (execRcv o s) :=
  h.run (fun h => by
    dsimp only
    split
    · exact h.stackTrap
    · exact h.setMe.advance)

theorem State.MemOk.execJoin (h : s.MemOk) : Outcome.Ok (execJoin s) :=
  h.run (fun h => by
    dsimp only
    split
    · exact h.stackTrap
    · exact h.setMe.goto)

theorem State.MemOk.scalarBranch (h : s.MemOk) {i : Instr} {k : SReg} {o : BitVec 16} {test : W64 → Bool} : Outcome.Ok (scalarBranch i k o test s) :=
  h.run fun h => h.goto

/-! ### Packed team records (Machine/Record) -/

theorem State.MemOk.refreshImage (h : s.MemOk) {tid : Nat} : (s.refreshImage tid).MemOk := by
  unfold State.refreshImage
  dsimp only
  split
  · split
    · exact h
    · split
      · exact h
      · split
        · exact h
        · dsimp only [State.MemOk]
          exact State.homeStore_wf _ _ _ _ h
  · exact h

end
end Sys2Proof.Machine
end

section
/-!
O59, part 2 of 8: lane words, accesses, fences, tiles and barriers.
-/
namespace Sys2Proof.Machine
open Sys2Proof
-- Elaborated one at a time: as tasks of their own, hundreds of short proofs want more threads than the memory limit leaves room for.
set_option Elab.async false
section
variable {s : State}

/-! ### Packed team records (Machine/Record) -/

theorem State.MemOk.finishOp (h : s.MemOk) {tid op : Nat} : (s.finishOp tid op).MemOk :=
  h.updTeam.settleFences.refreshImage

/-! ### Predicates (Machine/Flags) -/

theorem State.MemOk.putCmp (h : s.MemOk) {p q : PReg} {m c : Mask} : (s.putCmp p q m c).MemOk :=
  h.setMe.advance

theorem State.MemOk.compare2 (h : s.MemOk) {i : Instr} {p q : PReg} {a b : VReg} {g : Guard} {rel : W32 → W32 → Bool} :
    Outcome.Ok (compare2 i p q a b g rel s) :=
  h.run fun h => h.putCmp

theorem State.MemOk.predicate2 (h : s.MemOk) {i : Instr} {d a : PReg} {n : Bool} {b : PReg} {f : Mask → Mask → Mask} :
    Outcome.Ok (predicate2 i d a n b f s) :=
  h.run fun h => h.setMe.advance

/-! ### Integer lane words (Machine/Vector) -/

theorem State.MemOk.vector2 (h : s.MemOk) {i : Instr} {d a b : VReg} {g : Guard} {f : W32 → W32 → W32} : Outcome.Ok (vector2 i d a b g f s) :=
  h.run fun h => h.putV

theorem State.MemOk.vector1 (h : s.MemOk) {i : Instr} {d a : VReg} {g : Guard} {f : W32 → W32} : Outcome.Ok (vector1 i d a g f s) :=
  h.run fun h => h.putV

theorem State.MemOk.execVmovRdlane (h : s.MemOk) {d : SReg} {a : VReg} {g : Guard} : Outcome.Ok (execVmovRdlane d a g s) :=
  h.run (fun h => by
    split
    · exact h.putS
    · exact h.advance)

theorem State.MemOk.execVmovWrlane (h : s.MemOk) {d : VReg} {a : SReg} {g : Guard} : Outcome.Ok (execVmovWrlane d a g s) :=
  h.run (fun h => by
    split
    · exact h.putV
    · exact h.advance)

theorem State.MemOk.execVxlnBcl (h : s.MemOk) {d a : VReg} {g : Guard} : Outcome.Ok (execVxlnBcl d a g s) :=
  h.run (fun h => by
    split
    · exact h.putV
    · exact h.advance)

/-- A fold over what is done keeps what its steps keep. -/
theorem Done.foldl_wf {α : Type} {f : Done → α → Done} {l : List α} {d : Done} (h : d.s.MemOk) (hf : ∀ d x, d.s.MemOk → (f d x).s.MemOk) :
    (l.foldl f d).s.MemOk := foldl_keeps (P := fun d : Done => d.s.MemOk) hf l h

theorem ldLane_wf {t : Team} {d : VReg} {z : LdSize} {a : Done × List (Nat × List Byte)} (h : a.1.s.MemOk) {x : LaneAt} :
    (ldLane t d z a x).1.s.MemOk := by
  unfold ldLane
  dsimp only
  split
  · exact h
  · exact State.MemOk.loadSector h

/-! ### Loads, stores, atomics and fences (Machine/Memory) -/

theorem vldEffect_keeps (d : VReg) (z : LdSize) : (vldEffect d z).Keeps := fun _ _ _ _ h =>
  Done.foldl_wf h fun _ _ h => foldl_keeps (P := fun a : Done × List (Nat × List Byte) => a.1.s.MemOk) (fun _ _ h => ldLane_wf h) _ h

theorem State.MemOk.execVld (h : s.MemOk) {d : VReg} {a : AReg} {o : VReg} {g : Guard} {sc : Bool} {z : LdSize} :
    Outcome.Ok (execVld d a o g sc z s) :=
  h.run fun h => h.vectorAccess (vldEffect_keeps _ _)

theorem storeEffect_keeps (f : Team → LaneAt → List Byte) : (storeEffect f).Keeps := fun _ _ _ _ h =>
  h.foldl fun h => h.foldl fun h => h.storeBytes

theorem vstEffect_keeps (d : VReg) (z : StSize) : (vstEffect d z).Keeps := storeEffect_keeps _

theorem State.MemOk.execVst (h : s.MemOk) {d : VReg} {a : AReg} {o : VReg} {g : Guard} {sc : Bool} {z : StSize} :
    Outcome.Ok (execVst d a o g sc z s) :=
  h.run fun h => h.vectorAccess (vstEffect_keeps _ _)

theorem vatmEffect_keeps (i : Instr) (d : VReg) : (vatmEffect i d).Keeps := fun _ _ _ _ h =>
  Done.foldl_wf h fun _ _ h => State.MemOk.atomicAt h

theorem State.MemOk.vectorAtomic (h : s.MemOk) {i : Instr} {d : VReg} {a : AReg} {o : VReg} : Outcome.Ok (vectorAtomic i d a o s) :=
  h.run fun h => h.vectorAccess (vatmEffect_keeps i d)

theorem sldEffect_keeps (i : Instr) (d : SReg) (n : Nat) : (sldEffect i d n).Keeps := fun _ _ _ _ h =>
  Done.foldl_wf h fun d x h => by
    dsimp only
    refine State.MemOk.acqBy (State.MemOk.loadBytes ?_)
    split
    · exact State.MemOk.dropClean h
    · exact h

theorem State.MemOk.execSld (h : s.MemOk) {d : SReg} {a : AReg} {r : Ordering3} {z : SSize} {i : BitVec 9} : Outcome.Ok (execSld d a r z i s) :=
  h.run fun h => h.uniformAcc (sldEffect_keeps _ _ _)

theorem sstEffect_keeps (i : Instr) (d : SReg) (n : Nat) : (sstEffect i d n).Keeps := fun _ _ _ _ h =>
  h.foldl fun h => by
    dsimp only
    split
    · exact State.homeStore_wf _ _ _ _ h.touch.retag.dropClean
    · exact h.storeBytes

theorem State.MemOk.execSst (h : s.MemOk) {d : SReg} {a : AReg} {r : Ordering3} {z : SSize} {i : BitVec 9} : Outcome.Ok (execSst d a r z i s) :=
  h.run fun h => h.uniformAcc (sstEffect_keeps _ _ _)

theorem satmEffect_keeps (i : Instr) (d b : SReg) (n : Nat) : (satmEffect i d b n).Keeps := fun _ _ _ _ h =>
  Done.foldl_wf h fun _ _ h => State.MemOk.acqBy (State.MemOk.atomicAt h)

theorem State.MemOk.scalarAtomic (h : s.MemOk) {i : Instr} {d : SReg} {a : AReg} {b : SReg} {w : AtWidth} : Outcome.Ok (scalarAtomic i d a b w s) :=
  h.run fun h => h.uniformAcc (satmEffect_keeps i d b w.bytes)

theorem State.MemOk.fence (h : s.MemOk) {o : Scope} {parts : Nat → List FenceHold} : (s.fence o parts).MemOk := by
  unfold State.fence
  dsimp only
  split
  · exact h.releaseThen fun h => h.setMe.settleFences.advance
  · exact h.setMe.settleFences.advance

/-! ### Tile registers and slices (Machine/Tiles) -/

theorem State.MemOk.slice (h : s.MemOk) {i : Instr} {cls : OpClass} {t : TReg} {r : Bool} {n : Nat} {rs : List VReg} {tag : BitVec 4}
    {eff : Effect} (heff : eff.Keeps) : (s.slice i cls t r n rs tag eff).MemOk := by
  unfold State.slice
  dsimp only
  split
  · exact h.advance
  · split
    · exact h.trapHere
    · exact (h.setMe.issueAcc heff).advance

theorem tslEffect_keeps (d : VReg) : (tslEffect d).Keeps := fun _ _ _ _ h => Done.foldl_wf h fun _ _ h => h

theorem State.MemOk.execTsl (h : s.MemOk) {d : VReg} {t : TReg} {r : Bool} {i : BitVec 9} {g : Guard} : Outcome.Ok (execTsl d t r i g s) :=
  h.run fun h => h.slice (tslEffect_keeps _)

theorem tssEffect_keeps (d : VReg) : (tssEffect d).Keeps := storeEffect_keeps _

theorem State.MemOk.execTss (h : s.MemOk) {d : VReg} {t : TReg} {r : Bool} {i : BitVec 9} {g : Guard} : Outcome.Ok (execTss d t r i g s) :=
  h.run fun h => h.slice (tssEffect_keeps _)

/-! ### Tensor layouts (Machine/Layout) -/

theorem State.MemOk.engineReach (h : s.MemOk) {c : Client} {e : EngWait} {k : Access} {va n : Nat} : (s.engineReach c e k va n).2.1.MemOk := by
  unfold State.engineReach
  dsimp only
  split
  · exact h
  · split
    · exact h
    · split
      · exact h.reach.snd ‹_›
      · rename_i e
        have h1 := h.reach.snd e
        split <;> exact h1.merge.snd ‹_›
      · exact h.reach.snd ‹_›

theorem State.fetchSec_wf {c : Client} {x : Memo × State × EngWait} (h : x.2.1.MemOk) {sec : Nat} : (State.fetchSec c x sec).2.1.MemOk := by
  unfold State.fetchSec
  dsimp only
  split
  · exact h
  · split <;> exact h.engineReach.mid ‹_›

theorem State.MemOk.fetchSecs (h : s.MemOk) {c : Client} {e : EngWait} {m : Memo} {secs : List Nat} : (s.fetchSecs c e m secs).2.1.MemOk :=
  foldl_keeps (P := fun x : Memo × State × EngWait => x.2.1.MemOk) (fun _ _ h => State.fetchSec_wf h) _ h

theorem State.MemOk.fetchTiles (h : s.MemOk) {c : Client} {e : EngWait} {m : Memo} {t : Tlr} {k len : Nat} {ns : List Nat} :
    (s.fetchTiles c e m t k len ns).2.1.MemOk := by
  unfold State.fetchTiles
  dsimp only
  exact h.fetchSecs.fetchSecs

/-! ### Transaction barriers (Machine/Barrier) -/

theorem State.MemOk.barRelease (h : s.MemOk) {key : Nat} : (s.barRelease key).MemOk :=
  h

theorem State.MemOk.barUpdate (h : s.MemOk) {ctx gen key : Nat} {f : Nat → Nat} : (s.barUpdate ctx gen key f).MemOk :=
  (State.homeAtomic_wf _ _ _ _ _ _ h).barRelease

theorem State.MemOk.barAddSectors (h : s.MemOk) {ctx gen key n : Nat} : (s.barAddSectors ctx gen key n).MemOk := by
  unfold State.barAddSectors
  dsimp only
  split
  · exact h.same.barUpdate
  · exact h.barUpdate

theorem State.MemOk.local (h : s.MemOk) {off n align : Nat} {k : Nat → State} (hk : ∀ key, (k key).MemOk) : (s.local off n align k).MemOk := by
  unfold State.local
  split
  · exact h.trapHere
  · split
    · exact hk _
    · exact h.trapHere

theorem State.MemOk.barAccess (h : s.MemOk) {i : Instr} {cls : OpClass} {a : SReg} {ps : List SReg} {eff : Effect} (heff : eff.Keeps) :
    (s.barAccess i cls a ps eff).MemOk :=
  h.local fun _ => h.accessAt heff

theorem tbinitEffect_keeps (d : SReg) : (tbinitEffect d).Keeps := fun _ _ _ _ h =>
  h.foldl fun h => (State.homeStore_wf _ _ _ _ h.same).barRelease

theorem State.MemOk.execTbarTbinit (h : s.MemOk) {d a : SReg} : Outcome.Ok (execTbarTbinit d a s) :=
  h.run fun h => h.barAccess (tbinitEffect_keeps _)

theorem tbarrEffect_keeps : tbarrEffect.Keeps := fun _ _ _ _ h => h.foldl fun h => h.barUpdate

theorem State.MemOk.execTbarTbarr (h : s.MemOk) {a : SReg} {o : Scope} : Outcome.Ok (execTbarTbarr a o s) :=
  h.run fun h => h.barAccess tbarrEffect_keeps

theorem State.MemOk.execTbarTbwait (h : s.MemOk) {d a : SReg} {o : Fin 64} : Outcome.Ok (execTbarTbwait d a o s) :=
  h.run (fun h => h.local fun _ => (by
    dsimp only
    split
    · exact (((State.loadPoison_wf _ _ _ _ _ h).acqBy).setMe).advance
    · exact ((State.loadPoison_wf _ _ _ _ _ h).setMe).advance))

theorem tbtestEffect_keeps (d : SReg) : (tbtestEffect d).Keeps := fun _ _ _ _ h => Done.foldl_wf h fun _ _ h => h

theorem State.MemOk.execTbarTbtest (h : s.MemOk) {d a : SReg} : Outcome.Ok (execTbarTbtest d a s) :=
  h.run fun h => h.barAccess (tbtestEffect_keeps _)

/-! ### Copies (Machine/Copies) -/

theorem State.MemOk.flushRange (h : s.MemOk) {cluster ctx : Nat} {range : List Nat} : (s.flushRange cluster ctx range).MemOk :=
  h.writeBackAll

theorem State.MemOk.issueSlice (h : s.MemOk) {form bar n i mask rec_ tlr : Nat} {x : W128} {snap : List Byte} :
    (s.issueSlice form bar n i mask rec_ tlr x snap).MemOk := by
  unfold State.issueSlice
  dsimp only
  split
  · exact h.flushRange.issueOp.barAddSectors
  · exact h.flushRange.issueOp.barAddSectors.newId

theorem State.MemOk.snapSector (h : s.MemOk) {key : Nat} : (s.snapSector key).2.MemOk := by
  unfold State.snapSector
  dsimp only
  split
  · exact h
  · exact h.draw

theorem State.MemOk.snapSectors (h : s.MemOk) {keys : List Nat} : (s.snapSectors keys).2.MemOk := by
  induction keys generalizing s with
  | nil => exact h
  | cons k ks ih => exact ih h.snapSector

theorem State.MemOk.snapshot (h : s.MemOk) {off key : Nat} : (s.snapshot off key).2.MemOk := by
  unfold State.snapshot
  dsimp only
  generalize e : s.snapSectors _ = p
  have h1 : p.2.MemOk := by rw [← e]; exact h.snapSectors
  split
  · exact State.poisonReport_wf _ _ _ _ h1
  · exact h1

theorem State.MemOk.xcpy (h : s.MemOk) {form : Nat} {r : TReg} {a : SReg} : (s.xcpy form r a).MemOk := by
  unfold State.xcpy
  dsimp only
  refine h.local fun _ => h.local fun _ => ?_
  split
  · refine h.local fun _ => ?_
    split
    · exact h.snapshot.trapHere
    · split
      · split
        · exact h.snapshot.barUpdate.advance
        · exact h.snapshot.issueSlice
      · exact h.snapshot.issueSlice
  · split
    · exact h.snapshot.trapHere
    · split
      · split
        · exact h.snapshot.barUpdate.advance
        · exact h.snapshot.issueSlice
      · exact h.snapshot.issueSlice

theorem State.MemOk.fetchImage (h : s.MemOk) {c : Client} {e : EngWait} {m : Memo} {t : Tlr} {rows : List Nat} :
    (s.fetchImage c e m t rows).2.1.MemOk := by
  unfold State.fetchImage
  split
  · exact h.fetchSecs
  · exact h.fetchTiles

end
end Sys2Proof.Machine
end

section
/-!
O59, part 3 of 8: copies, rings, signals and groups.
-/
namespace Sys2Proof.Machine
open Sys2Proof
-- Elaborated one at a time: as tasks of their own, hundreds of short proofs want more threads than the memory limit leaves room for.
set_option Elab.async false
section
variable {s : State}

/-! ### Copies (Machine/Copies) -/

theorem State.MemOk.updCopy (h : s.MemOk) {id : Nat} {f : Copy → Copy} : (s.updCopy id f).MemOk :=
  h

theorem State.MemOk.fillNext (h : s.MemOk) {core : Nat} : (s.fillNext core).MemOk :=
  h.updCore

theorem State.MemOk.pipeTiles (h : s.MemOk) {core copy : Nat} {tiles : List Nat} : (s.pipeTiles core copy tiles).MemOk :=
  h.updCore.fillNext

theorem State.MemOk.readIn (h : s.MemOk) {c : Copy} {sl : CopySlice} {t : Tlr} {rows : List Nat} : (s.readIn c sl t rows).MemOk := by
  unfold State.readIn
  dsimp only
  split
  · exact h.fetchImage.updCopy.pipeTiles
  · exact h.fetchImage.updCopy

theorem State.MemOk.readSlice (h : s.MemOk) {id idx : Nat} : (s.readSlice id idx).MemOk := by
  unfold State.readSlice
  dsimp only
  split
  · exact h
  · split
    · exact h
    · split
      · exact h.updCopy
      · split
        · exact h.updCopy
        · exact h.readIn

theorem State.MemOk.dropRange (h : s.MemOk) {c : Copy} : (s.dropRange c).MemOk :=
  h

theorem State.MemOk.sliceCheck (h : s.MemOk) {id idx : Nat} : (s.sliceCheck id idx).MemOk := by
  unfold State.sliceCheck
  split
  · exact h
  · split
    · exact h
    · split
      · exact h
      · extract_lets s1
        have h1 : s1.MemOk := h.finishOp.updCopy
        clear_value s1
        split
        · exact h1
        · split
          · extract_lets s2 s3
            have h3 : s3.MemOk := h1
            clear_value s3
            split
            · exact State.report_wf _ _ _ _ _ _ _ h3
            · exact h3
          · exact h1

theorem State.MemOk.execCopyStart (h : s.MemOk) {id : Nat} : Outcome.Ok (execCopyStart id s) := by
  unfold Machine.execCopyStart
  change State.MemOk _
  split
  · exact h
  · split
    · exact h
    · extract_lets _ _ _ _ _ s1 s2
      have h1 : s1.MemOk := by
        unfold s1
        split
        · exact h
        · split
          · exact h.writeBackAll.updCopy.barUpdate
          · exact h.writeBackAll.updCopy
      clear_value s1
      have h2 : s2.MemOk := h1.foldl fun h => h.readSlice
      exact h2.foldl fun h => h.sliceCheck

theorem State.MemOk.addPoison (h : s.MemOk) {keys : List Nat} : (s.addPoison keys).MemOk :=
  h

theorem State.MemOk.destKey (h : s.MemOk) {c : Copy} {va : Nat} : (s.destKey c va).2.1.MemOk :=
  h.engineReach

theorem State.MemOk.countOff (h : s.MemOk) {c : Copy} {job slice st : Nat} {fail : Option Nat} : (s.countOff c job slice st fail).MemOk := by
  unfold State.countOff
  dsimp only
  split
  · exact (((State.homeStore_wf _ _ _ _ h).barUpdate).updCopy).sliceCheck
  · exact h.barUpdate.updCopy.sliceCheck

theorem State.MemOk.performFar (h : s.MemOk) {c : Copy} {job : Nat} {j : Job} {va : Nat} {go : State → Nat → State} {st : Nat}
    {fail : Option Nat} (hgo : ∀ {t a}, t.MemOk → (go t a).MemOk) : (s.performFar c job j va go st fail).MemOk := by
  unfold State.performFar
  split
  · exact (hgo (h.destKey.mid ‹_›)).countOff
  · rename_i e
    have h1 := h.destKey.mid e
    exact h1.updCopy
  · rename_i e
    have h1 := h.destKey.mid e
    exact h1.countOff

theorem State.MemOk.reachTarget (h : s.MemOk) {c : Copy} {job : Nat} {j : Job} {go : State → Copy → State} (hgo : ∀
    {t a}, t.MemOk → (go t a).MemOk) : (s.reachTarget c job j go).MemOk := by
  unfold State.reachTarget
  dsimp only
  split
  · exact h.updCopy.countOff
  · exact hgo h.updCopy

theorem State.MemOk.execCopySectorPerformed (h : s.MemOk) {id job : Nat} : Outcome.Ok (execCopySectorPerformed id job s) := by
  unfold Machine.execCopySectorPerformed
  dsimp only
  change State.MemOk _
  split
  · exact h
  · split
    · exact h
    · split
      · exact h
      · split
        · exact h.reachTarget fun h => (State.homeStore_wf _ _ _ _ h).countOff
        · exact h.reachTarget fun h => h.addPoison.countOff
        · exact h.performFar fun h => State.homeStore_wf _ _ _ _ h
        · exact h.performFar fun h => h.addPoison
        · split <;> exact h.countOff

theorem State.MemOk.execTransformPipeReply (h : s.MemOk) {core : Nat} : Outcome.Ok (execTransformPipeReply core s) := by
  unfold Machine.execTransformPipeReply
  dsimp only
  change State.MemOk _
  split
  · exact h
  · split
    · exact h.updCore.updTeam.sendRebuild
    · exact h.updCore.updCopy.fillNext

/-! ### Rings (Machine/Rings) -/

theorem State.MemOk.updRing (h : s.MemOk) {cluster id : Nat} {f : Ring → Ring} : (s.updRing cluster id f).MemOk :=
  h

theorem State.MemOk.fixWait (h : s.MemOk) {w : RingWait} {x : W64} : (s.fixWait w x).MemOk := by
  unfold State.fixWait
  dsimp only
  split
  · split <;> exact h.same.updTeam
  · exact h.same.updTeam

theorem State.MemOk.ringCheck (h : s.MemOk) {cluster id : Nat} : (s.ringCheck cluster id).MemOk := by
  unfold State.ringCheck
  split
  · exact h
  · exact h.foldl fun h => by
      split
      · exact h.fixWait
      · exact h

theorem State.MemOk.execRingRbind (h : s.MemOk) {d a : SReg} : Outcome.Ok (execRingRbind d a s) := by
  unfold Machine.execRingRbind
  refine h.run fun h => ?_
  extract_lets
  refine h.local fun _ => h.local fun _ => ?_
  split
  rename_i e
  have h1 := h.snapshot.snd e
  extract_lets
  split
  · exact h1.trapHere
  · split
    · exact h1.issueOp
    · split
      rename_i e2
      have h2 := h1.newId.snd e2
      extract_lets s2 _
      have hs : s2.MemOk := h2
      clear_value s2
      exact hs.setMe.issueOp

theorem State.MemOk.slotOp (h : s.MemOk) {i : Instr} {eff : Effect} (heff : eff.Keeps) : (s.slotOp i eff).MemOk :=
  h.relThen fun h => (h.issueAcc heff).advance

theorem slotEffect_keeps (a : SReg) (k : Nat) (ok : Ring → RSlot → Bool) (f : Ring → Ring) : (slotEffect a k ok f).Keeps := fun _ _ _ s h => by
  unfold slotEffect
  dsimp only [Done.start]
  split
  · exact h
  · split
    · exact h
    · split
      · exact State.MemOk.ringCheck (State.MemOk.updRing h)
      · exact h

theorem spubEffect_keeps (a : SReg) (k : Nat) : (spubEffect a k).Keeps := slotEffect_keeps _ _ _ _

theorem State.MemOk.execRingSpub (h : s.MemOk) {a : SReg} {k : Fin 64} : Outcome.Ok (execRingSpub a k s) :=
  h.run fun h => h.slotOp (spubEffect_keeps _ _)

theorem srelEffect_keeps (a : SReg) (k : Nat) : (srelEffect a k).Keeps := slotEffect_keeps _ _ _ _

theorem State.MemOk.execRingSrel (h : s.MemOk) {a : SReg} {k : Fin 64} : Outcome.Ok (execRingSrel a k s) :=
  h.run fun h => h.slotOp (srelEffect_keeps _ _)

theorem swaitEffect_keeps (d a : SReg) (k : Nat) : (swaitEffect d a k).Keeps := fun _ _ _ _ h => h

theorem State.MemOk.execRingSwait (h : s.MemOk) {d a : SReg} {k : Fin 64} : Outcome.Ok (execRingSwait d a k s) :=
  h.run fun h => ((h.issueAcc (swaitEffect_keeps _ _ _)).ringCheck).advance

theorem State.MemOk.fillGroup (h : s.MemOk) {r : Ring} {g : Nat × Nat × Nat × List (Nat × Byte)} : (s.fillGroup r g).MemOk := by
  unfold State.fillGroup
  split
  · exact State.homeStore_wf _ _ _ _ h
  · exact h.addPoison
  · exact h

theorem State.MemOk.execRingFillChunk (h : s.MemOk) {cluster id : Nat} : Outcome.Ok (execRingFillChunk cluster id s) := by
  unfold Machine.execRingFillChunk
  dsimp only
  change State.MemOk _
  split
  · exact h
  · split
    · exact h
    · split
      · exact h
      · exact ((h.fetchImage.foldl fun h => h.fillGroup).updRing).ringCheck

theorem State.MemOk.drainJobs (h : s.MemOk) {r : Ring} {e : EngWait} {js : List Job} : (s.drainJobs r e js).2.2.1.MemOk := by
  induction js generalizing s e with
  | nil => exact h
  | cons j js ih =>
    unfold State.drainJobs
    dsimp only
    split
    · rename_i e
      have h1 := h.engineReach.mid e
      refine ih ?_
      split
      · exact State.homeStore_wf _ _ _ _ h1
      · exact h1
      · exact h1
    · exact ih (h.engineReach.mid ‹_›)
    · exact ih (h.engineReach.mid ‹_›)

theorem State.MemOk.execRingDrainChunk (h : s.MemOk) {cluster id : Nat} : Outcome.Ok (execRingDrainChunk cluster id s) := by
  unfold Machine.execRingDrainChunk
  dsimp only
  change State.MemOk _
  split
  · exact h
  · split
    · exact h
    · split
      · exact h
      · split
        · exact h
        · exact h.drainJobs.updRing.ringCheck

theorem State.MemOk.execRingUnbindComplete (h : s.MemOk) {cluster id : Nat} : Outcome.Ok (execRingUnbindComplete cluster id s) := by
  unfold Machine.execRingUnbindComplete
  dsimp only
  change State.MemOk _
  split
  · exact h
  · split
    · exact h
    · split
      · exact (State.report_wf _ _ _ _ _ _ _ (((h.foldl fun h => h.fixWait).same).finishOp)).bundleCheck
      · exact (((h.foldl fun h => h.fixWait).same).finishOp).bundleCheck

/-! ### Signals (Machine/Signals) -/

theorem State.MemOk.register (h : s.MemOk) {kind tid op : Nat} {d : SReg} {key : Nat} {arg : W64} {sc : Option Scope} :
    (s.register kind tid op d key arg sc).MemOk := by
  unfold State.register
  dsimp only
  exact h.newId

theorem sigaddEffect_keeps (d b : SReg) : (sigaddEffect d b).Keeps := fun _ _ _ _ h => Done.foldl_wf h fun _ _ h => State.MemOk.atomicAt h

theorem State.MemOk.execSigSigadd (h : s.MemOk) {d : SReg} {a : AReg} {b : SReg} {r : Ordering3} : Outcome.Ok (execSigSigadd d a b r s) :=
  h.run fun h => h.uniformAcc (sigaddEffect_keeps _ _)

theorem sigrdEffect_keeps (i : Instr) (d : SReg) : (sigrdEffect i d).Keeps := fun _ _ _ _ h =>
  Done.foldl_wf h fun _ _ h => State.MemOk.acqBy (State.MemOk.atomicAt h)

theorem State.MemOk.execSigSigrd (h : s.MemOk) {d : SReg} {a : AReg} {r : Ordering3} : Outcome.Ok (execSigSigrd d a r s) :=
  h.run fun h => h.uniformAcc (sigrdEffect_keeps _ _)

theorem waitEffect_keeps (i : Instr) (kind : Nat) (d b : SReg) : (waitEffect i kind d b).Keeps := fun _ _ _ _ h =>
  h.foldl fun h => State.MemOk.register h.atomicAt

theorem State.MemOk.execSigSigwait (h : s.MemOk) {d : SReg} {a : AReg} {b : SReg} {r : Ordering3} : Outcome.Ok (execSigSigwait d a b r s) :=
  h.run fun h => h.uniformAcc (waitEffect_keeps _ _ _ _)

theorem State.MemOk.execSigWatch (h : s.MemOk) {d : SReg} {a : AReg} {b : SReg} {r : Ordering3} : Outcome.Ok (execSigWatch d a b r s) :=
  h.run fun h => h.uniformAcc (waitEffect_keeps _ _ _ _)

theorem State.MemOk.execSignalWaitSatisfied (h : s.MemOk) {w : Nat} : Outcome.Ok (execSignalWaitSatisfied w s) := by
  unfold Machine.execSignalWaitSatisfied
  dsimp only
  change State.MemOk _
  split
  · exact h
  · split
    · exact h
    · split
      · split
        · exact h.same.dropClean.acqBy.updTeam.finishOp
        · exact h.same.updTeam.finishOp
      · exact h.same.updTeam.finishOp

/-! ### Frame records and sample groups (Machine/Groups) -/

theorem State.MemOk.pushFrame (h : s.MemOk) {ctx frec : Nat} : (s.pushFrame ctx frec).MemOk := by
  unfold State.pushFrame
  split
  · exact h
  · exact (State.homePut_wf _ _ _ h).updCtx

theorem State.MemOk.popFrame (h : s.MemOk) {ctx : Nat} : (s.popFrame ctx).2.MemOk := by
  unfold State.popFrame
  split
  · exact h
  · split
    · exact h
    · exact h.updCtx

theorem State.MemOk.dropFrame (h : s.MemOk) {ctx frec : Nat} : (s.dropFrame ctx frec).MemOk := by
  unfold State.dropFrame
  extract_lets n s1
  have h1 : s1.MemOk := State.homePut_wf _ _ _ h
  clear_value s1
  split
  · exact h1.pushFrame
  · exact h1

theorem State.MemOk.cowBreak (h : s.MemOk) {ctx gen va : Nat} : (s.cowBreak ctx gen va).2.MemOk := by
  unfold State.cowBreak
  split
  · exact h
  · split
    · exact h
    · extract_lets
      split
      · exact (State.homePut_wf _ _ _ h).shootdown
      · split
        · exact h
        · rename_i e
          have h1 := h.popFrame.snd e
          extract_lets s2 _ _ s3 s4 s5
          have h2 : s2.MemOk := h1.shootdown
          clear_value s2
          have h3 : s3.MemOk := State.homeStore_wf _ _ _ _ h2
          clear_value s3
          have h4 : s4.MemOk := State.homePut_wf _ _ _ (State.homePut_wf _ _ _ h3)
          clear_value s4
          have h5 : s5.MemOk := State.homePut_wf _ _ _ (State.homePut_wf _ _ _ (State.homePut_wf _ _ _ h4))
          clear_value s5
          exact h5.shootdown

theorem State.MemOk.recStore (h : s.MemOk) {ctx gen va : Nat} {bs : List Byte} : (s.recStore ctx gen va bs).MemOk := by
  unfold State.recStore
  dsimp only
  exact h.foldl fun h => by
    split
    · exact State.homeStore_wf _ _ _ _ h
    · exact h

theorem State.MemOk.closeGroup (h : s.MemOk) {key status state : Nat} : (s.closeGroup key status state).MemOk :=
  State.homePut_wf _ _ _ (State.homePut_wf _ _ _ h)

theorem State.MemOk.normaliseGroup (h : s.MemOk) {ctx gen key status : Nat} : (s.normaliseGroup ctx gen key status).MemOk := by
  unfold State.normaliseGroup
  dsimp only
  split
  · exact h.closeGroup
  · split
    · exact h.recStore.closeGroup
    · exact h.closeGroup

theorem State.MemOk.groupTest (h : s.MemOk) {ctx gen key : Nat} : (s.groupTest ctx gen key).MemOk := by
  unfold State.groupTest
  dsimp only
  split
  · exact h
  · split
    · exact (State.homePut_wf _ _ _ h).normaliseGroup
    · split
      · split
        · exact (State.homePut_wf _ _ _ h).normaliseGroup
        · exact h.closeGroup
      · exact h

theorem State.MemOk.execGroupDeadline (h : s.MemOk) {id : Nat} : Outcome.Ok (execGroupDeadline id s) := by
  unfold Machine.execGroupDeadline
  change State.MemOk _
  split
  · exact h
  · exact h.groupTest

theorem State.MemOk.releasePage (h : s.MemOk) {ctx gen va : Nat} : (s.releasePage ctx gen va).MemOk := by
  unfold State.releasePage
  dsimp only
  split
  · split
    · exact State.homePut_wf _ _ _ h
    · exact h
  · split
    · exact h
    · split
      · exact State.homePut_wf _ _ _ h.dropFrame
      · exact State.homePut_wf _ _ _ h

theorem State.MemOk.releaseRange (h : s.MemOk) {ctx gen : Nat} {g c : List Byte} : (s.releaseRange ctx gen g c).MemOk := by
  unfold State.releaseRange
  dsimp only
  split
  · exact (h.foldl fun h => h.releasePage).shootdown
  · split
    · exact (h.foldl fun h => h.releasePage).shootdown
    · split
      · exact (h.foldl fun h => h.releasePage).shootdown
      · exact (((h.foldl fun h => h.releasePage).recStore).recStore).shootdown

theorem State.MemOk.groupReach (h : s.MemOk) {va : W80} {n : Nat} {k : State → Nat → State} (hk : ∀ {t a}, t.MemOk → (k t a).MemOk) :
    (s.groupReach va n k).MemOk := by
  unfold State.groupReach
  split
  · exact hk (h.teamReach.snd ‹_›)
  · rename_i e
    have h1 := h.teamReach.snd e
    exact h1.trapHere
  · rename_i e
    have h1 := h.teamReach.snd e
    exact h1.parkUniform
  · rename_i e
    have h1 := h.teamReach.snd e
    exact h1.trapHere

theorem State.MemOk.settleAt (h : s.MemOk) {core key n : Nat} : (s.settleAt core key n).MemOk :=
  h.writeBackAll

theorem State.MemOk.settleVas (h : s.MemOk) {vas : List (Nat × Nat)} : (s.settleVas vas).MemOk := by
  unfold State.settleVas
  dsimp only
  exact h.foldl fun h => by
    split
    · exact h.settleAt
    · exact h

theorem State.MemOk.settleRegion (h : s.MemOk) {g : List Byte} : (s.settleRegion g).MemOk := by
  unfold State.settleRegion
  dsimp only
  split
  · exact h.settleVas.settleVas
  · exact h.settleVas

theorem State.MemOk.groupReachAll (h : s.MemOk) {k : State → State} (hk : ∀ {t}, t.MemOk → (k t).MemOk) {vas : List Nat} :
    (s.groupReachAll k vas).MemOk := by
  induction vas generalizing s with
  | nil => exact hk h
  | cons va vas ih => exact h.groupReach fun h => ih h.settleAt

theorem State.MemOk.groupAfter (h : s.MemOk) {gkey : Nat} : (s.groupAfter gkey).MemOk := by
  unfold State.groupAfter
  split
  · exact h
  · exact h.groupTest

theorem State.MemOk.groupEnd (h : s.MemOk) {d : SReg} {r : Ordering3} {x : Nat} : (s.groupEnd d r x).MemOk :=
  h.acqBy.issueOp

theorem State.MemOk.groupDone (h : s.MemOk) {gkey : Nat} {d : SReg} {r : Ordering3} {x : Nat} : (s.groupDone gkey d r x).MemOk :=
  h.groupAfter.groupEnd

theorem State.MemOk.groupAccess (h : s.MemOk) {i : Instr} {d : SReg} {a : AReg} {r : Ordering3} {n : Nat} {act : State → Nat → State} (hact : ∀
    {t a}, t.MemOk → (act t a).MemOk) : Outcome.Ok (groupAccess i d a r n act s) :=
  h.run (fun h => by
    dsimp only
    split
    · exact h.advance
    · exact h.uniform (fun h => h.relThen (fun h => h.groupReach (fun h => by
    split
    · exact (State.poisonReport_wf _ _ _ _ h).groupEnd
    · exact hact h.settleAt))))

theorem State.MemOk.member (h : s.MemOk) {d : SReg} {r : Ordering3} {va : W80} {ckey : Nat}
    {k : State → List Byte → Nat → List Byte → Bool → State} (hk : ∀ {t a b c d}, t.MemOk → (k t a b c d).MemOk) : (s.member d r va ckey k).MemOk :=
  h.groupReach (fun h => by
    dsimp only
    split
    · exact (State.poisonReport_wf _ _ _ _ h).groupEnd
    · exact hk h.settleAt)

theorem State.MemOk.execSgrpArr (h : s.MemOk) {d : SReg} {a : AReg} {b : SReg} {r : Ordering3} : Outcome.Ok (execSgrpArr d a b r s) :=
  h.groupAccess (fun h => h.member (fun h => by
    dsimp only
    split
    · exact h.groupDone
    · split
      · exact (State.homePut_wf _ _ _ (State.homePut_wf _ _ _ (State.homePut_wf _ _ _ h))).groupDone
      · exact (State.homePut_wf _ _ _ (State.homePut_wf _ _ _ (State.homePut_wf _ _ _ (State.homePut_wf _ _ _ h)))).groupDone))

theorem State.MemOk.execSgrpCan (h : s.MemOk) {d : SReg} {a : AReg} {r : Ordering3} : Outcome.Ok (execSgrpCan d a r s) :=
  h.groupAccess (fun h => h.member (fun h => by
    dsimp only
    split
    · exact h.groupDone
    · exact (((State.homePut_wf _ _ _ (State.homePut_wf _ _ _ h)).settleRegion).releaseRange).groupDone))

theorem State.MemOk.execSgrpFree (h : s.MemOk) {d : SReg} {a : AReg} {r : Ordering3} : Outcome.Ok (execSgrpFree d a r s) :=
  h.groupAccess (fun h => h.member (fun h => by
    dsimp only
    split
    · exact h.groupDone
    · split
      · exact (State.homePut_wf _ _ _ h).groupDone
      · exact (((State.homePut_wf _ _ _ h).settleRegion).releaseRange).groupDone))

theorem State.MemOk.execSgrpWait (h : s.MemOk) {d : SReg} {a : AReg} {r : Ordering3} : Outcome.Ok (execSgrpWait d a r s) := by
  unfold Machine.execSgrpWait
  dsimp only
  exact h.groupAccess fun h => h.groupAfter.issueOp.register

end
end Sys2Proof.Machine
end

section
/-!
O59, part 4 of 8: accesses that waited, issue and walks.
-/
namespace Sys2Proof.Machine
open Sys2Proof
-- Elaborated one at a time: as tasks of their own, hundreds of short proofs want more threads than the memory limit leaves room for.
set_option Elab.async false
section
variable {s : State}

/-! ### Frame records and sample groups (Machine/Groups) -/

theorem State.MemOk.forkAll (h : s.MemOk) {ctx gen gkey gva cva : Nat} {g c0 : List Byte} {p : ForkPlan} {es : List (Nat × Leaf)} :
    (s.forkAll ctx gen gkey gva cva g c0 p es).MemOk := by
  unfold State.forkAll
  extract_lets _ _ used s1 s2 s3 s4 _ s5 s6 q _ s7 s8 s9
  have h1 : s1.MemOk := h.foldl fun h => State.homePut_wf _ _ _ (State.homePut_wf _ _ _ h)
  clear_value s1
  have h2 : s2.MemOk := h1.foldl fun h => State.homeStore_wf _ _ _ _ h
  clear_value s2
  have h6 : s6.MemOk := (((h2.foldl fun h => h.recStore).foldl fun h => h.recStore).foldl fun h => h.recStore).recStore
  clear_value s6
  have h7 : s7.MemOk := State.homePut_wf _ _ _ (State.homePut_wf _ _ _ h6)
  clear_value s7
  have h9 : s9.MemOk := h7.shootdown.foldl fun h => h.shootdown
  clear_value s9 q
  cases q with
  | none => exact h9
  | some x => exact h9.same

theorem State.MemOk.execSgrpFork (h : s.MemOk) {d : SReg} {a : AReg} {r : Ordering3} : Outcome.Ok (execSgrpFork d a r s) :=
  h.groupAccess (fun h => by
    dsimp only
    split
    · exact h.groupEnd
    · exact h.groupReachAll (fun h => by
    split
    · exact h.settleRegion.groupDone
    · split
      · exact h.settleRegion.groupDone
      · split
        · exact h.settleRegion.groupDone
        · split
          · exact h.settleRegion.groupDone
          · exact h.settleRegion.forkAll.groupDone))

/-! ### Accesses that waited (Machine/Held) -/

theorem State.MemOk.sendHome (h : s.MemOk) {t : Team} {lanes : List LaneAt} : (s.sendHome t lanes).MemOk :=
  h.foldl fun h => h.writeBackOld

theorem State.MemOk.afterWait (h : s.MemOk) {t : Team} {i : Instr} : (s.afterWait t i).MemOk := by
  unfold State.afterWait
  split
  · exact h.ringCheck
  · exact h

/-- Every effect of a word keeps memory canonical. -/
theorem effectOf_keeps (i : Instr) : (effectOf i).Keeps := by
  unfold effectOf
  split
  · exact vldEffect_keeps _ _
  · exact vstEffect_keeps _ _
  iterate 10 · exact vatmEffect_keeps _ _
  · exact sldEffect_keeps _ _ _
  · exact sstEffect_keeps _ _ _
  iterate 11 · exact satmEffect_keeps _ _ _ _
  · exact tslEffect_keeps _
  · exact tssEffect_keeps _
  · exact tbinitEffect_keeps _
  · exact tbarrEffect_keeps
  · exact tbtestEffect_keeps _
  · exact spubEffect_keeps _ _
  · exact srelEffect_keeps _ _
  · exact swaitEffect_keeps _ _ _
  · exact sigaddEffect_keeps _ _
  · exact sigrdEffect_keeps _ _
  · exact waitEffect_keeps _ _ _ _
  · exact waitEffect_keeps _ _ _ _
  · exact fun _ _ _ _ h => h

theorem State.MemOk.performHeld (h : s.MemOk) {tid op : Nat} : (s.performHeld tid op).MemOk := by
  have h0 := h.settleFences (tid := tid)
  unfold State.performHeld
  dsimp only
  split
  · exact h0
  · split
    · exact h0
    · split
      · exact h0
      · split
        · exact h0
        · exact ((Done.report_wf (effectOf_keeps _ _ _ _ _ h0)).sendHome.updTeam.afterWait).settleFences

theorem State.MemOk.performed (h : s.MemOk) {cls : OpClass} {tid op : Nat} : (s.performed cls tid op).MemOk := by
  unfold State.performed
  dsimp only
  split
  · exact h
  · split
    · exact h
    · split
      · exact h
      · split
        · split
          · split
            · exact h.performHeld.finishOp
            · exact h.finishOp
          · split
            · exact h.performHeld
            · exact h
        · split
          · exact h.performHeld
          · exact h

/-! ### Issue and the passing of time (Machine/Issue) -/

theorem State.MemOk.freeDying (h : s.MemOk) : s.freeDying.MemOk :=
  h

theorem State.MemOk.advanceClocks (h : s.MemOk) {ns : Nat} : (s.advanceClocks ns).MemOk := by
  unfold State.advanceClocks
  split
  · exact h
  · exact (h.foldl fun h => by
    split
    · exact State.homePut_wf _ _ _ h
    · exact h).freeDying

theorem State.MemOk.walkClocks (h : s.MemOk) {u : Nat} : (s.walkClocks u).MemOk :=
  h.foldl fun h => h.foldl fun h => h.updCore

theorem State.MemOk.select (h : s.MemOk) {tid : Nat} : (s.select tid).MemOk := by
  unfold State.select
  dsimp only
  split
  · exact h
  · split <;> exact h

theorem State.MemOk.elapse (h : s.MemOk) {u : Nat} : (s.elapse u).MemOk := by
  unfold State.elapse
  split
  · exact h
  · extract_lets s1
    have h1 : s1.MemOk := h
    clear_value s1
    split
    exact State.MemOk.advanceClocks h1.walkClocks.same

theorem State.MemOk.tick (h : s.MemOk) {cycles : Nat} : (s.tick cycles).MemOk :=
  h.elapse

theorem State.MemOk.pass (h : s.MemOk) {ns : Nat} : (s.pass ns).MemOk :=
  h.elapse

theorem State.MemOk.fetchKeys (h : s.MemOk) {ranges : List (Nat × Nat)} : (s.fetchKeys ranges).2.MemOk := by
  induction ranges generalizing s with
  | nil => exact h
  | cons r rs ih =>
    unfold State.fetchKeys
    split
    · rename_i e
      have h1 := h.teamReach.snd e
      split <;> exact (ih h1).snd ‹_›
    · exact h.teamReach.snd ‹_›

theorem State.MemOk.fetchWord (h : s.MemOk) {va key : Nat} : (s.fetchWord va key).2.MemOk := by
  unfold State.fetchWord
  extract_lets core ctx gen mine cached keep
  have hk {w : W32} {t : State} (h : t.MemOk) : (keep w t).2.MemOk := h
  clear_value keep
  split
  extract_lets
  split
  · split
    · exact h
    · exact hk h
  · exact hk h.draw

theorem State.MemOk.fetchWords (h : s.MemOk) {places : List (Nat × Nat)} : (s.fetchWords places).2.MemOk := by
  induction places generalizing s with
  | nil => exact h
  | cons p ps ih => exact ih h.fetchWord

theorem State.MemOk.freePacket (h : s.MemOk) : s.freePacket.MemOk := by
  unfold State.freePacket
  dsimp only
  exact h.draw.setMe

theorem State.MemOk.notePacket (h : s.MemOk) : s.notePacket.MemOk := by
  unfold State.notePacket
  dsimp only
  split
  · exact h.freePacket
  · split
    · rename_i e
      have h1 := h.fetchKeys.snd e
      exact h1.fetchWords.setMe
    · rename_i e
      have h1 := h.fetchKeys.snd e
      exact h.freePacket

theorem State.MemOk.fetchThen (h : s.MemOk) {k : State → State × Option Instr} (hk : ∀ {t}, t.MemOk → (k t).1.MemOk) : (s.fetchThen k).1.MemOk := by
  unfold State.fetchThen
  dsimp only
  split
  · exact h.freePacket.trapHere
  · split
    · rename_i e
      have h1 := h.fetchKeys.snd e
      split
      · exact hk ((State.loadPoison_wf _ _ _ _ _ h1.fetchWords).setMe)
      · exact hk h1.fetchWords.setMe
    · rename_i e
      have h1 := h.fetchKeys.snd e
      exact h1.merge.setMe
    · rename_i e
      have h1 := h.fetchKeys.snd e
      exact h1.freePacket.trapHere
    · exact h.fetchKeys.snd ‹_›

theorem State.MemOk.wordHere (h : s.MemOk) : s.wordHere.1.MemOk := by
  unfold State.wordHere
  split
  · exact h.setMe
  · exact h.trapHere

theorem State.MemOk.noteIssue (h : s.MemOk) {t : Team} : (s.noteIssue t).MemOk := by
  unfold State.noteIssue
  split
  · exact h.updQueue
  · exact h

theorem State.MemOk.beginGroup (h : s.MemOk) : s.beginGroup.1.MemOk := by
  unfold State.beginGroup
  dsimp only
  split
  · exact h.noteIssue.updCore.setMe.wordHere
  · exact h.noteIssue.updCore.setMe.sendRebuild

theorem State.MemOk.tryGroup (h : s.MemOk) : s.tryGroup.1.MemOk := by
  unfold State.tryGroup
  split
  · exact h.setMe
  · split
    · exact h.beginGroup
    · exact h

theorem State.MemOk.groupHere (h : s.MemOk) : s.groupHere.1.MemOk := by
  unfold State.groupHere
  split
  · exact h.raise
  · exact h.setMe.tryGroup

theorem State.MemOk.nextWord (h : s.MemOk) : s.nextWord.1.MemOk := by
  unfold State.nextWord
  split
  · exact h.wordHere
  · split
    · exact h.notePacket.trapHere
    · split
      · exact h.tryGroup
      · split
        · split
          · split
            · exact h.notePacket.trapHere
            · exact h.setMe.fetchThen fun h => h.groupHere
          · exact h.fetchThen fun h => h.groupHere
        · exact h.fetchThen fun h => h.groupHere

/-! ### The matrix walk engine (Machine/Walks) -/

theorem State.MemOk.startItem (h : s.MemOk) {core : Nat} {r : WalkRec} {t : State} (e : s.startItem core r = some t) : t.MemOk := by
  unfold State.startItem at e
  split at e
  · cases e
  · split at e
    · cases e
    · dsimp only at e
      split at e
      · cases e
        exact State.clearKeys_wf _ _ h
      · cases e

theorem State.MemOk.startItems (h : s.MemOk) {core : Nat} {r : WalkRec} {n : Nat} : (State.startItems core r n s).MemOk := by
  induction n generalizing s with
  | zero => exact h
  | succ n ih =>
    unfold State.startItems
    split
    · exact ih (h.startItem ‹_›)
    · exact h

theorem State.MemOk.engineFill (h : s.MemOk) {core : Nat} : (s.engineFill core).MemOk := by
  unfold State.engineFill
  split
  · exact h
  · split
    · exact h
    · split
      · exact h
      · exact h.startItems.updWalkCore

theorem State.MemOk.taintTile (h : s.MemOk) {core i id q : Nat} : (s.taintTile core i id q).MemOk :=
  h.updWalk.updWalkCore

theorem State.MemOk.walkEndCheck (h : s.MemOk) {id : Nat} : (s.walkEndCheck id).MemOk := by
  unfold State.walkEndCheck
  split
  · exact h
  · split
    · exact h.finishWalk
    · exact h

theorem State.MemOk.tileDone (h : s.MemOk) {core i id : Nat} : (s.tileDone core i id).MemOk :=
  h.updWalk.updWalkCore.engineFill.walkEndCheck

theorem State.MemOk.slotReady (h : s.MemOk) {core : Nat} {isB : Bool} {slot : Nat} {taint : Bool} : (s.slotReady core isB slot taint).MemOk := by
  unfold State.slotReady
  dsimp only
  split
  · exact h
  · split
    · split
      · exact h.updWalkCore.walkError
      · exact h.updWalkCore.engineFill
    · exact h

theorem State.MemOk.sweep (h : s.MemOk) {core i : Nat} {r : WalkRec} {c : CSlot} {sa sb : Nat} : (s.sweep core i r c sa sb).MemOk := by
  unfold State.sweep
  dsimp only
  exact State.poke_wf _ h

theorem State.MemOk.execKstepBegin (h : s.MemOk) {core : Nat} : Outcome.Ok (execKstepBegin core s) := by
  unfold Machine.execKstepBegin
  dsimp only
  change State.MemOk _
  split
  · exact h
  · split
    · exact h
    · split
      · exact h
      · split
        · exact h
        · split
          · exact h
          · split
            · split
              · exact h.sweep.updWalkCore.taintTile
              · exact h.sweep.updWalkCore
            · exact h

theorem State.MemOk.execKstepBoundary (h : s.MemOk) {core : Nat} : Outcome.Ok (execKstepBoundary core s) := by
  unfold Machine.execKstepBoundary
  dsimp only
  change State.MemOk _
  split
  · exact h
  · split
    · split
      · exact h
      · exact h.updWalkCore.engineFill
    · exact h

theorem State.MemOk.engineKeys (h : s.MemOk) {c : Client} {e : EngWait} {k : Access} {ranges : List (Nat × Nat)} :
    (s.engineKeys c e k ranges).2.1.MemOk := by
  induction ranges generalizing s e with
  | nil => exact h
  | cons r rs ih =>
    unfold State.engineKeys
    dsimp only
    split <;> exact ih h.engineReach

theorem State.MemOk.nearAdd (h : s.MemOk) {isInt first : Bool} {key x : Nat} : (s.nearAdd isInt first key x).MemOk := by
  unfold State.nearAdd
  dsimp only
  split
  · exact h
  · exact State.perform_wf _ h

theorem State.MemOk.flushPart (h : s.MemOk) {core i : Nat} {w : Walk} {c : CSlot} {ks : List (Nat × Nat × Nat)} :
    (s.flushPart core i w c ks).MemOk := by
  unfold State.flushPart
  dsimp only
  exact (h.foldl fun h => h.nearAdd).updWalk

theorem State.MemOk.mergeTile (h : s.MemOk) {core i : Nat} {w : Walk} {c : CSlot} {ks : List (Nat × Nat × Nat)} :
    (s.mergeTile core i w c ks).MemOk := by
  unfold State.mergeTile
  dsimp only
  split
  · exact ((((State.perform_wf _ (State.poke_wf _ h)).updWalk).updWalkCore).taintTile).updWalkCore
  · exact (((State.perform_wf _ (State.poke_wf _ h)).updWalk).updWalkCore).updWalkCore

theorem State.MemOk.mergeOrWait (h : s.MemOk) {core i : Nat} {w : Walk} {c : CSlot} {ks : List (Nat × Nat × Nat)} :
    (s.mergeOrWait core i w c ks).MemOk := by
  unfold State.mergeOrWait
  split
  · exact h.updWalkCore
  · exact h.mergeTile

theorem State.MemOk.arrivalEnd (h : s.MemOk) {core i : Nat} {w : Walk} {c : CSlot} {ks : List (Nat × Nat × Nat)} {n : Nat} :
    (s.arrivalEnd core i w c ks n).MemOk := by
  unfold State.arrivalEnd
  dsimp only
  split
  · split
    · exact h.mergeOrWait
    · exact h.updWalkCore.engineFill
  · split
    · split
      · exact h.mergeOrWait
      · exact h.updWalkCore
    · split
      · split
        · exact h.updWalkCore.engineFill.mergeOrWait
        · exact h.updWalkCore.engineFill
      · exact h.updWalkCore.engineFill

theorem State.MemOk.execSplitkArrival (h : s.MemOk) {core slot : Nat} : Outcome.Ok (execSplitkArrival core slot s) := by
  unfold Machine.execSplitkArrival
  dsimp only
  change State.MemOk _
  split
  · exact h
  · split
    · split
      · exact h
      · split
        · rename_i e
          have h1 := h.engineKeys.mid e
          exact h1.updWalkCore
        · rename_i e
          have h1 := h.engineKeys.mid e
          exact h1.walkError
        · rename_i e
          have h1 := h.engineKeys.mid e
          split
          · split
            · exact h1.updWalkCore.mergeTile
            · exact h1.updWalkCore
          · split
            · exact (State.homeAtomic_wf _ _ _ _ _ _ h1.updWalkCore.flushPart).arrivalEnd
            · exact State.homeAtomic_wf _ _ _ _ _ _ h1.updWalkCore.flushPart
    · exact h

theorem State.MemOk.fillRows (h : s.MemOk) {c : Client} {e : EngWait} {t : Tlr} {row0 n k len : Nat} : (s.fillRows c e t row0 n k len).2.1.MemOk := by
  unfold State.fillRows
  dsimp only
  split
  · exact h.fetchSecs
  · exact h.fetchTiles.fetchSecs

theorem State.MemOk.layRaw (h : s.MemOk) {key : Nat} {bs : Raw} : (s.layRaw key bs).MemOk := by
  unfold State.layRaw
  dsimp only
  exact h.foldl fun h => by
    split
    · exact State.poke_wf _ h.same
    · exact h.addPoison

theorem State.MemOk.dropFill (h : s.MemOk) {core : Nat} {isB : Bool} {slot : Nat} : (s.dropFill core isB slot).MemOk :=
  h.updWalkCore

theorem State.MemOk.execStreamFillComplete (h : s.MemOk) {core : Nat} {isB : Bool} {slot : Nat} :
    Outcome.Ok (execStreamFillComplete core isB slot s) := by
  unfold Machine.execStreamFillComplete
  change State.MemOk _
  split
  · exact h
  · split
    · split
      · exact h
      · split
        · exact h
        · split
          · split
            · exact h.dropFill.walkErrCheck
            · exact h
          · extract_lets
            split
            · exact (h.fillRows.mid ‹_›).updWalkCore
            · rename_i e
              have h1 := h.fillRows.mid e
              extract_lets raw s2
              have h2 : s2.MemOk := h1.updWalkCore
              clear_value s2
              split
              · exact h2.dropFill.walkError
              · exact h2.layRaw.slotReady
    · exact h

theorem State.MemOk.drainSectors (h : s.MemOk) {w : Walk} {core : Nat} {e : EngWait} {gs : List (Nat × Nat × Nat × List (Nat × Byte × Byte))} :
    (s.drainSectors w core e gs).2.2.1.MemOk := by
  induction gs generalizing s e with
  | nil => exact h
  | cons g gs ih =>
    unfold State.drainSectors
    split
    · rename_i e
      have h1 := h.engineReach.mid e
      refine ih ?_
      split
      · exact State.homeStore_wf _ _ _ _ h1
      · exact h1
    · exact ih (h.engineReach.mid ‹_›)
    · exact ih (h.engineReach.mid ‹_›)

theorem State.MemOk.drainFails (h : s.MemOk) {core slot : Nat} {w : Walk} {c : CSlot} : (s.drainFails core slot w c).MemOk := by
  unfold State.drainFails
  dsimp only
  split
  · exact h.updWalkCore.walkErrCheck
  · exact h.updWalkCore.walkError

theorem State.MemOk.execStreamDrainComplete (h : s.MemOk) {core slot : Nat} : Outcome.Ok (execStreamDrainComplete core slot s) := by
  unfold Machine.execStreamDrainComplete
  dsimp only
  change State.MemOk _
  split
  · exact h
  · split
    · split
      · exact h
      · split
        · exact h.drainFails
        · split
          · exact h.drainSectors.updWalkCore.drainFails
          · split
            · exact h.drainSectors.updWalkCore.tileDone.walkErrCheck
            · exact h.drainSectors.updWalkCore
    · exact h

theorem State.MemOk.execWalkStallReport (h : s.MemOk) {core : Nat} : Outcome.Ok (execWalkStallReport core s) := by
  unfold Machine.execWalkStallReport
  change State.MemOk _
  split
  · exact h
  · split
    · exact h
    · extract_lets
      split
      · exact h.errsig.updWalkCore
      · exact h

/-! ### Upcalls (Machine/Handler) -/

theorem State.MemOk.execUpcallDelivery (h : s.MemOk) {core pool : Nat} : Outcome.Ok (execUpcallDelivery core pool s) := by
  unfold Machine.execUpcallDelivery
  dsimp only
  change State.MemOk _
  split
  · exact h
  · split
    · exact h
    · split
      · exact h
      · split
        · exact h.updWalkCore.updWalk.updTeam
        · exact h

theorem State.MemOk.upcallEnd (h : s.MemOk) {core : Nat} {u : Upcall} {st : HretStatus} {tile : Nat} : (s.upcallEnd core u st tile).MemOk := by
  unfold State.upcallEnd
  dsimp only
  split
  · exact h
  · split
    · exact h
    · split
      · exact h.walkError
      · split
        · split
          · split
            · exact h.taintTile.walkError
            · exact h.walkError
          · split
            · exact h.taintTile.tileDone
            · exact h.tileDone
        · exact h.slotReady

theorem State.MemOk.execHctlHret (h : s.MemOk) {t : HretStatus} : Outcome.Ok (execHctlHret t s) :=
  h.run (fun h => h.releaseThen (fun h => by
    split
    · exact h
    · exact h.setMe.upcallEnd))

theorem State.MemOk.headerWord (h : s.MemOk) {w0 : WalkCore} {i w : Nat} : (s.headerWord w0 i w).2.MemOk := by
  unfold State.headerWord
  dsimp only
  split
  · exact h.draw
  · split
    · exact h.draw
    · exact h

theorem State.MemOk.execHctlWpos (h : s.MemOk) {d : SReg} {k w : Fin 64} : Outcome.Ok (execHctlWpos d k w s) := by
  unfold Machine.execHctlWpos
  dsimp only
  exact h.run (fun h => by
    split
    · exact h.putS
    · split
      · exact h.putS
      · exact h.headerWord.putS)

end
end Sys2Proof.Machine
end

section
/-!
O59, part 5 of 8: images, placement and queues.
-/
namespace Sys2Proof.Machine
open Sys2Proof
-- Elaborated one at a time: as tasks of their own, hundreds of short proofs want more threads than the memory limit leaves room for.
set_option Elab.async false
section
variable {s : State}

/-! ### Context images (Machine/Images) -/

theorem State.MemOk.saveImage (h : s.MemOk) {kind ctx gen q core : Nat} {desc : W80} {ts : List Team} {anew : List Nat} {w : Option WalkCore} :
    (s.saveImage kind ctx gen q core desc ts anew w).MemOk := by
  unfold State.saveImage
  split
  · exact h
  · extract_lets _ _ bs a s1
    have h1 : s1.MemOk := State.homeStore_wf _ _ _ _ h
    clear_value s1
    exact h1.same

theorem State.MemOk.dropImage (h : s.MemOk) {im : Image} : (s.dropImage im).MemOk :=
  h

theorem State.MemOk.imageFailed (h : s.MemOk) {im : Image} {k : Nat} : (s.imageFailed im k).MemOk :=
  State.report_wf _ _ _ _ _ _ _ (State.homePut_wf _ _ _ (State.homePut_wf _ _ _ h))

theorem State.MemOk.flushTeam (h : s.MemOk) {tid : Nat} : (s.flushTeam tid).MemOk :=
  h.writeBackAll

theorem State.MemOk.evict (h : s.MemOk) {tid : Nat} : (s.evict tid).MemOk := by
  unfold State.evict
  dsimp only
  split
  · exact h.flushTeam
  · exact h.flushTeam.saveImage.updTeam

theorem State.MemOk.placeTeam (h : s.MemOk) {tid core sched slot : Nat} : (s.placeTeam tid core sched slot).MemOk :=
  h.same.updTeam.acquire

/-! ### Placement (Machine/Agents) -/

theorem State.MemOk.addTeams (h : s.MemOk) {make : Nat → Put → Team} {ps : List Put} : (s.addTeams make ps).MemOk :=
  h.foldl fun h => h

theorem State.MemOk.commitSub (h : s.MemOk) {q : Queue} {b : Bundle} {i : Nat} {x : Sub} {p : Plan} : (s.commitSub q b i x p).1.MemOk := by
  unfold State.commitSub
  dsimp only
  split
  · exact h.newId.addTeams
  · exact (h.newId.foldl fun h => h.unbindWindows).addTeams
  · exact h

theorem State.MemOk.commitSubs (h : s.MemOk) {q : Queue} {b : Bundle} {xs : List (Sub × Nat)} {ps : List Plan} :
    (s.commitSubs q b xs ps).1.MemOk := by
  induction xs generalizing s ps with
  | nil => exact h
  | cons x xs ih =>
    cases ps with
    | nil => exact h
    | cons p ps => exact ih h.commitSub

theorem State.MemOk.commit (h : s.MemOk) {q : Queue} {b : Bundle} {ps : List Plan} {o : Occ} : (s.commit q b ps o).MemOk := by
  unfold State.commit
  dsimp only
  exact h.commitSubs.updBundle.updCtx

theorem State.MemOk.restoreTeam (h : s.MemOk) {t : Team} {im : Image} {c sc k : Nat} : (s.restoreTeam t im c sc k).MemOk := by
  unfold State.restoreTeam
  split
  · exact h.dropImage.kill
  · split
    · exact h.imageFailed.dropImage.kill
    · exact h.updTeam.dropImage.placeTeam

theorem State.MemOk.tryRestore (h : s.MemOk) {t : Team} {u : State} (e : s.tryRestore t = some u) : u.MemOk := by
  unfold State.tryRestore at e
  split at e
  · split at e
    · cases e
    · obtain ⟨_, _, rfl⟩ := Option.map_eq_some_iff.1 e
      exact State.MemOk.restoreTeam (h.foldl fun h => h.evict)
  · cases e

theorem State.MemOk.restoreList (h : s.MemOk) {ts : List Team} : (State.restoreList ts s).MemOk := by
  induction ts generalizing s with
  | nil => exact h
  | cons t ts ih =>
    unfold State.restoreList
    split
    · exact ih (h.tryRestore ‹_›)
    · exact h

theorem State.MemOk.restoreReady (h : s.MemOk) : s.restoreReady.MemOk :=
  h.restoreList

theorem State.MemOk.execEvictedTeamRestore (h : s.MemOk) {tid : Nat} : Outcome.Ok (execEvictedTeamRestore tid s) := by
  unfold Machine.execEvictedTeamRestore
  change State.MemOk _
  split
  · exact h.restoreList
  · exact h

/-! ### Queues and tickets (Machine/Queues) -/

theorem State.MemOk.noteUnread (h : s.MemOk) {q : Queue} : (s.noteUnread q).MemOk := by
  unfold State.noteUnread
  split
  · exact h.updQueue
  · exact h

theorem State.MemOk.execTicketClaim (h : s.MemOk) {q core : Nat} : Outcome.Ok (execTicketClaim q core s) := by
  unfold Machine.execTicketClaim
  dsimp only
  change State.MemOk _
  split
  · exact h
  · split
    · split
      · exact (State.homeAtomic_wf _ _ _ _ _ _ h).updQueue
      · exact h.updQueue
    · exact h.noteUnread

theorem State.MemOk.slotDone (h : s.MemOk) {q : Queue} {t : Nat} : (s.slotDone q t).MemOk :=
  State.agentWrite_wf _ _ _ _ _ h

theorem State.MemOk.dispatched (h : s.MemOk) {q : Queue} {t : Nat} : (s.dispatched q t).MemOk :=
  h.slotDone.descPut.updQueue

theorem State.MemOk.bundleOut (h : s.MemOk) {q : Queue} {b : Bundle} : (s.bundleOut q b).MemOk := by
  unfold State.bundleOut
  split
  · exact h.slotDone.updQueue
  · exact h.dispatched

theorem State.MemOk.reject (h : s.MemOk) {q : Queue} {t code : Nat} : (s.reject q t code).MemOk :=
  State.signalDec_wf _ _ _ _ h.descPut.descPut.descPut.updQueue

theorem State.MemOk.walkMalformed (h : s.MemOk) {q : Queue} {r : WalkRec} {off : Nat} : (s.walkMalformed q r off).MemOk := by
  unfold State.walkMalformed
  dsimp only
  split
  · split
    · exact h.recStore
    · exact h
  · split
    · exact State.signalDec_wf _ _ _ _ h.recStore
    · exact State.signalDec_wf _ _ _ _ h

theorem State.MemOk.backOff (h : s.MemOk) {b : Bundle} : (s.backOff b).MemOk :=
  h.updBundle

theorem State.MemOk.tryPlace (h : s.MemOk) {q : Queue} {b : Bundle} : (s.tryPlace q b).MemOk := by
  unfold State.tryPlace
  have h1 := h.restoreReady
  extract_lets t
  change t.MemOk at h1
  clear_value t
  split
  · exact h1.backOff
  · split
    · refine State.signalDec_wf _ _ _ _ (State.MemOk.bundleOut ?_)
      exact h1.same
    · extract_lets s1
      have h2 : s1.MemOk := h1.foldl fun h => h.evict
      clear_value s1
      split
      · exact h2.backOff
      · exact h2.commit.bundleOut

theorem State.MemOk.takeBundle (h : s.MemOk) {q : Queue} {b : List Byte} : (s.takeBundle q b).MemOk := by
  unfold State.takeBundle
  extract_lets
  split
  split
  · exact h.reject
  · extract_lets
    split
    · refine State.signalDec_wf _ _ _ _ (State.MemOk.foldl h.dispatched fun h => ?_)
      split
      · exact h.walkMalformed
      · exact h
    · refine State.MemOk.tryPlace ?_
      exact h.same

theorem State.MemOk.execPacketDispatch (h : s.MemOk) {q : Nat} : Outcome.Ok (execPacketDispatch q s) := by
  unfold Machine.execPacketDispatch
  change State.MemOk _
  split
  · exact h
  · split
    · exact h.noteUnread
    · exact h
    · exact h.reject
    · split
      · exact h.dispatched
      · exact h.takeBundle
      · split
        · exact h
        · exact h.reject
      · split
        · exact h
        · exact h.reject

theorem State.MemOk.execWaitSignalsDispatch (h : s.MemOk) {q : Nat} : Outcome.Ok (execWaitSignalsDispatch q s) := by
  unfold Machine.execWaitSignalsDispatch
  change State.MemOk _
  split
  · exact h
  · split
    · split
      · exact h.dispatched
      · exact h
    · exact h

theorem State.MemOk.execSignalPacketPerform (h : s.MemOk) {q : Nat} : Outcome.Ok (execSignalPacketPerform q s) := by
  unfold Machine.execSignalPacketPerform
  dsimp only
  change State.MemOk _
  split
  · exact h
  · split
    · split
      · exact (State.signalAdd_wf _ _ _ _ _ h).dispatched
      · exact h
    · exact h

theorem State.MemOk.execPlacementRetry (h : s.MemOk) {q : Nat} : Outcome.Ok (execPlacementRetry q s) := by
  unfold Machine.execPlacementRetry
  change State.MemOk _
  split
  · split
    · exact h.tryPlace
    · exact h
  · exact h

theorem State.MemOk.startWalk (h : s.MemOk) {w : Walk} : (s.startWalk w).MemOk := by
  unfold State.startWalk
  dsimp only
  exact h.foldl fun h => h.updCore.engineFill

theorem State.MemOk.signalSubs (h : s.MemOk) {q : Queue} {b : Bundle} : (s.signalSubs q b).MemOk :=
  h.foldl fun h => by
    split
    · exact State.signalAdd_wf _ _ _ _ _ h
    · exact h

theorem State.MemOk.execBundleStart (h : s.MemOk) {b : Nat} : Outcome.Ok (execBundleStart b s) := by
  unfold Machine.execBundleStart
  dsimp only
  change State.MemOk _
  split
  · exact h
  · split
    · exact h
    · split
      · exact h
      · exact (((h.same.foldl fun h => h.startWalk).signalSubs).updBundle).bundleCheck

theorem State.MemOk.judge (h : s.MemOk) {q : Queue} : (s.judge q).MemOk := by
  unfold State.judge
  dsimp only
  split
  · exact h.updQueue
  · split
    · split
      · exact h.updQueue
      · exact (State.signalDec_wf _ _ _ _ h.descPut).updQueue
    · split
      · exact h
      · exact h.updQueue

theorem State.MemOk.execQueueStallCheck (h : s.MemOk) : Outcome.Ok (execQueueStallCheck s) := by
  unfold Machine.execQueueStallCheck
  dsimp only
  change State.MemOk _
  split
  · exact h.foldl fun h => h.judge
  · exact h

theorem State.MemOk.discardSub (h : s.MemOk) {b : Bundle} {i : Nat} {x : Sub} : (s.discardSub b i x).MemOk := by
  unfold State.discardSub
  split
  · exact h
  · split
    · exact h.subAbort.foldl fun h => h.endTeam
    · exact h.finishWalk
    · exact h

theorem State.MemOk.dropWalk (h : s.MemOk) {told : Bool} {w : Walk} : (s.dropWalk told w).MemOk := by
  unfold State.dropWalk
  dsimp only
  split
  · exact h.walkStore.walkSignal
  · exact h

theorem State.MemOk.discardBundle (h : s.MemOk) {told : Bool} {b : Bundle} : (s.discardBundle told b).MemOk := by
  unfold State.discardBundle
  dsimp only
  split
  · exact h
  · split
    · exact (h.updBundle.foldl fun h => h.discardSub).bundleCheck
    · exact (State.signalDec_wf _ _ _ _ (h.same.foldl fun h => h.dropWalk)).dropBundle

theorem State.MemOk.discardAll (h : s.MemOk) {q : Nat} : (s.discardAll q).MemOk :=
  h.foldl fun h => h.discardBundle

theorem State.MemOk.answerOps (h : s.MemOk) {code : Nat} {ops : List (Nat × Nat × SReg)} : (s.answerOps code ops).MemOk := by
  unfold State.answerOps
  dsimp only
  exact h.foldl fun h => h.updTeam

theorem State.MemOk.destroyQueue (h : s.MemOk) {q : Queue} : (s.destroyQueue q).MemOk :=
  h.descPut.answerOps.answerOps.updQueue.discardAll.same.drainCheck

theorem State.MemOk.execSyncGbar (h : s.MemOk) {o : Scope} : Outcome.Ok (execSyncGbar o s) :=
  h.run (fun h => h.releaseThen (fun h => by
    split
    · exact h
    · exact h.advance.setMe.gangCheck))

theorem State.MemOk.descReach (h : s.MemOk) {a : AReg} {k : State → Nat → List Byte → State} (hk : ∀ {t a b}, t.MemOk → (k t a b).MemOk) :
    (s.descReach a k).MemOk :=
  h.access fun h => hk h.settleAt

theorem State.MemOk.sgResult (h : s.MemOk) {d : SReg} {x : Nat} : (s.sgResult d x).MemOk :=
  h.issueOp

theorem State.MemOk.loadImage (h : s.MemOk) {k : State → List Byte → State} (hk : ∀ {t a}, t.MemOk → (k t a).MemOk) {va : W80}
    {os : List Nat} {acc : List Byte} : (State.loadImage k va os acc s).MemOk := by
  induction os generalizing s acc with
  | nil => exact hk h
  | cons o os ih =>
    unfold State.loadImage
    refine h.access fun h => ?_
    extract_lets
    split
    exact ih (h.loadBytes.snd ‹_›)

theorem State.MemOk.enqueue (h : s.MemOk) {d : SReg} {qva key : Nat} {desc image : List Byte} : (s.enqueue d qva key desc image).MemOk := by
  unfold State.enqueue
  extract_lets
  refine h.access fun h => ?_
  extract_lets s1
  have h1 : s1.MemOk := h.settleAt.acquire
  clear_value s1
  split
  · exact h1.sgResult
  · refine State.MemOk.releaseThen h1 fun h => ?_
    exact State.MemOk.sgResult (State.homeStore_wf _ _ _ _ (State.homeStore_wf _ _ _ _ (State.homeStore_wf _ _ _ _ h)))

theorem State.MemOk.execSyncEnq (h : s.MemOk) {d : SReg} {q p : AReg} : Outcome.Ok (execSyncEnq d q p s) :=
  h.run (fun h => h.uniform (fun h => h.descReach (fun h => by
    split
    · exact h.sgResult
    · split
      · exact h.sgResult
      · split
        · exact h.trapHere
        · exact h.loadImage (fun h => by
    split
    · exact h.sgResult
    · exact h.enqueue))))

theorem State.MemOk.descStore (h : s.MemOk) {va key : Nat} {fs : List (Nat × Nat × Nat)} : (s.descStore va key fs).MemOk := by
  unfold State.descStore
  dsimp only
  exact h.foldl fun h => State.homeStore_wf _ _ _ _ h

theorem State.MemOk.qctl (h : s.MemOk) {i : Instr} {d : SReg} {a : AReg} {act : State → Nat → List Byte → Option Queue → Nat × State}
    {late : State → Option Queue → State} (hact : ∀ {t a b c}, t.MemOk → (act t a b c).2.MemOk)
    (hlate : ∀ {t a}, t.MemOk → (late t a).MemOk) : Outcome.Ok (qctl i d a act late s) :=
  h.run fun h => h.uniform fun h => h.releaseThen fun h => h.descReach fun h => by
    dsimp only
    split
    · split
      · exact hlate h
      · exact h
    · split
      · exact hlate (hact h)
      · exact hact h

theorem State.MemOk.execSyncQctlCreate (h : s.MemOk) {d : SReg} {q : AReg} : Outcome.Ok (execSyncQctlCreate d q s) := by
  unfold Machine.execSyncQctlCreate
  dsimp only
  exact h.qctl (fun h => by
    split
    · exact h
    · split
      · exact h
      · split
        · exact h
        · exact h.newId.descStore) id

theorem State.MemOk.execSyncQctlStop (h : s.MemOk) {d : SReg} {q : AReg} : Outcome.Ok (execSyncQctlStop d q s) :=
  h.qctl (fun h => by
    split
    · exact h
    · split
      · exact h
      · exact h.descStore.updQueue) id

theorem State.MemOk.leaveBehind (h : s.MemOk) {q : Nat} : (s.leaveBehind q).MemOk :=
  h

theorem State.MemOk.execSyncQctlResume (h : s.MemOk) {d : SReg} {q : AReg} {a : SReg} : Outcome.Ok (execSyncQctlResume d q a s) :=
  h.qctl (fun h => by
    dsimp only
    split
    · exact h
    · split
      · exact h
      · split
        · exact h
        · exact h.descStore.updQueue.leaveBehind) id

theorem State.MemOk.execSyncQctlDestroy (h : s.MemOk) {d : SReg} {q : AReg} : Outcome.Ok (execSyncQctlDestroy d q s) :=
  h.qctl (fun h => by
    split <;> exact h) (fun h => by
    split
    · split
      · exact h
      · exact h.destroyQueue
    · exact h)

/-! ### Pre-emption (Machine/Preempt) -/

theorem State.MemOk.beginSave (h : s.MemOk) {q : Nat} : (s.beginSave q).MemOk :=
  h.updQueue.foldl fun h => h.foldl fun h => h.updWalkCore

theorem State.MemOk.rerun (h : s.MemOk) {t : Team} : (s.rerun t).MemOk := by
  unfold State.rerun
  dsimp only
  exact h.same.endTeam.newId

theorem State.MemOk.fates (h : s.MemOk) {ts : List Team} : (s.fates ts).1.MemOk := by
  unfold State.fates
  have h1 {l : List Nat} : (l.foldl State.flushTeam s).MemOk := h.foldl fun h => h.flushTeam
  exact foldl_keeps (P := fun a : State × List (Nat × Nat × Bool) => a.1.MemOk) (fun _ _ h => h.rerun) _
    (h1.foldl fun h => h.updTeam)

theorem State.MemOk.saveCore (h : s.MemOk) {q : Queue} {tids : List (Nat × Nat × Bool)} {core : Nat} : (s.saveCore q tids core).MemOk := by
  unfold State.saveCore
  dsimp only
  split
  · exact (h.saveImage.foldl fun h => h.updTeam).freeWalkCore
  · exact h.saveImage.foldl fun h => h.updTeam

theorem State.MemOk.completeSave (h : s.MemOk) {q : Queue} : (s.completeSave q).MemOk := by
  unfold State.completeSave
  dsimp only
  exact ((h.fates.foldl fun h => h.saveCore).answerOps).updQueue

theorem State.MemOk.putC (h : s.MemOk) {core slot : Nat} {raw : List (Byte × Bool)} : (s.putC core slot raw).MemOk :=
  State.poke_wf _ (State.clearKeys_wf _ _ h)

end
end Sys2Proof.Machine
end

section
/-!
O59, part 6 of 8: pre-emption, privileged words and events.
-/
namespace Sys2Proof.Machine
open Sys2Proof
-- Elaborated one at a time: as tasks of their own, hundreds of short proofs want more threads than the memory limit leaves room for.
set_option Elab.async false
section
variable {s : State}

/-! ### Pre-emption (Machine/Preempt) -/

theorem State.MemOk.restoreWalk (h : s.MemOk) {x : WalkCore} {raw : List (Byte × Bool)} {core : Nat} : (s.restoreWalk x raw core).MemOk := by
  unfold State.restoreWalk
  dsimp only
  split
  · exact h
  · split
    · exact ((((h.foldl fun h => h.putC).updCore).unbindWindows).updWalk).updBundle
    · exact (((h.foldl fun h => h.putC).unbindWindows).updWalk).updBundle

theorem State.MemOk.loadTeams (h : s.MemOk) {raw : List Byte} {tids : List Nat} {off : Nat} : (s.loadTeams raw tids off).1.MemOk := by
  induction tids generalizing s off with
  | nil => exact h
  | cons tid tids ih =>
    unfold State.loadTeams
    split
    · exact ih h
    · exact ih (State.MemOk.updTeam h)

theorem State.MemOk.restoreImage (h : s.MemOk) {im : Image} {core : Nat} {ps : List (Nat × Nat × Nat × Nat)} : (s.restoreImage im core ps).MemOk := by
  unfold State.restoreImage
  dsimp only
  split
  · exact h
  · split
    · exact (h.loadTeams.foldl fun h => h.placeTeam).restoreWalk
    · exact h.loadTeams.foldl fun h => h.placeTeam

theorem State.MemOk.resident (h : s.MemOk) {q : Queue} : (s.resident q).MemOk :=
  h

theorem State.MemOk.discardLive (h : s.MemOk) {q : Nat} : (s.discardLive q).MemOk :=
  h.foldl fun h => h.discardBundle

theorem State.MemOk.restoreQueue (h : s.MemOk) {q : Queue} : (s.restoreQueue q).2.MemOk := by
  unfold State.restoreQueue
  dsimp only
  split
  · exact h
  · split
    · exact ((((h.foldl fun h => h.restoreImage).foldl fun h => h.imageFailed).foldl fun h => h.dropImage).resident).foldl fun h => h.engineFill
    · exact (((((h.foldl fun h => h.restoreImage).foldl fun h => h.imageFailed).foldl fun h => h.dropImage).discardLive).resident).foldl fun h =>
        h.engineFill

theorem State.MemOk.execPreemptSaveComplete (h : s.MemOk) {q : Nat} : Outcome.Ok (execPreemptSaveComplete q s) := by
  unfold Machine.execPreemptSaveComplete
  dsimp only
  change State.MemOk _
  split
  · exact h
  · split
    · split
      · exact h.completeSave
      · split
        · exact h.completeSave
        · exact h.completeSave.restoreQueue.answerOps.updQueue
    · exact h

theorem State.MemOk.execDrainLimitExpiry (h : s.MemOk) {q : Nat} : Outcome.Ok (execDrainLimitExpiry q s) := by
  unfold Machine.execDrainLimitExpiry
  change State.MemOk _
  split
  · exact h
  · split
    · split
      · exact h.updQueue
      · exact h
    · exact h

theorem State.MemOk.execQueueAutoResume (h : s.MemOk) {q : Nat} : Outcome.Ok (execQueueAutoResume q s) := by
  unfold Machine.execQueueAutoResume
  change State.MemOk _
  split
  · exact h
  · split
    · exact h
    · split
      · exact h.restoreQueue
      · exact h

theorem State.MemOk.execPlacementPressurePreempt (h : s.MemOk) {q : Nat} : Outcome.Ok (execPlacementPressurePreempt q s) := by
  unfold Machine.execPlacementPressurePreempt
  change State.MemOk _
  split
  · exact h
  · split
    · exact h
    · split
      · exact h
      · split
        · exact h
        · exact h.beginSave.updQueue.updBundle

theorem State.MemOk.preempt (h : s.MemOk) {i : Instr} {d : SReg} {a : AReg} {act : State → Queue → Nat → State} (hact : ∀
    {t a b}, t.MemOk → (act t a b).MemOk) : Outcome.Ok (preempt i d a act s) := by
  unfold Machine.preempt
  dsimp only
  exact h.run (fun h => by
    split
    · exact h.issueOp.answerOps
    · exact hact h.issueOp)

theorem State.MemOk.execPrivPreemptSave (h : s.MemOk) {d : SReg} {q : AReg} : Outcome.Ok (execPrivPreemptSave d q s) :=
  h.preempt (fun h => by
    dsimp only
    split
    · exact h.answerOps
    · exact h.beginSave.updQueue)

theorem State.MemOk.execPrivPreemptRsm (h : s.MemOk) {d : SReg} {q : AReg} : Outcome.Ok (execPrivPreemptRsm d q s) := by
  unfold Machine.execPrivPreemptRsm
  dsimp only
  exact h.preempt (fun h => by
    split
    · exact h.updQueue
    · split
      · exact h.answerOps
      · exact h.restoreQueue.answerOps)

/-! ### Control registers and privileged words (Machine/System) -/

theorem State.MemOk.execCregCrd (h : s.MemOk) {d : SReg} {n : BitVec 16} : Outcome.Ok (execCregCrd d n s) := by
  unfold Machine.execCregCrd
  dsimp only
  exact h.run (fun h => by
    split
    · exact h.issueOp
    · split
      · exact h.draw.putS
      · exact h.putS)

theorem State.MemOk.resumeCore (h : s.MemOk) {c : Nat} : (s.resumeCore c).MemOk := by
  unfold State.resumeCore
  split
  · exact h
  · exact h.updCore.updWalkCore.engineFill

theorem State.MemOk.writeDbgctl (h : s.MemOk) {c : Nat} {x : W64} : (s.writeDbgctl c x).MemOk := by
  unfold State.writeDbgctl
  dsimp only
  split
  · exact h
  · split
    · exact h.updCore.haltCore
    · split
      · exact h.updCore.resumeCore
      · exact h.updCore

theorem State.MemOk.writeDevice (h : s.MemOk) {n : Nat} {x : W64} : (s.writeDevice n x).MemOk := by
  unfold State.writeDevice
  dsimp only
  split
  · exact h
  · exact h
  · exact h.same.flushPrq
  · exact h.same.flushPrq
  · exact h.same.flushPrq
  · exact h
  · exact h
  · exact h
  · exact State.flushLog_wf h.same
  · exact State.flushLog_wf h.same
  · exact State.flushLog_wf h.same
  · exact h
  · exact h

theorem State.MemOk.writeReg (h : s.MemOk) {n : Nat} {x : W64} : (s.writeReg n x).MemOk := by
  unfold State.writeReg
  split
  · exact h.setMe
  · exact h.setMe
  · exact h.updCore
  · exact h.writeDbgctl
  · exact h.writeDevice

theorem State.MemOk.retryPinned (h : s.MemOk) : s.retryPinned.MemOk :=
  h.setMe.writeBackAll

theorem State.MemOk.dropPinned (h : s.MemOk) : s.dropPinned.MemOk :=
  h.same.setMe

theorem State.MemOk.tret (h : s.MemOk) {i : Instr} {act : State → State} (hact : ∀ {t}, t.MemOk → (act t).MemOk) : Outcome.Ok (tret i act s) :=
  h.run (fun h => by
    dsimp only
    split
    · exact h.kill
    · split
      · exact (hact h).updTeam
      · exact hact h)

theorem State.MemOk.execPrivTretRetry (h : s.MemOk) : Outcome.Ok (execPrivTretRetry s) :=
  h.tret (fun h => by
    dsimp only
    split
    · split
      · exact h.setMe.retryPinned
      · exact h.setMe
    · split
      · exact h.setMe.retryPinned.setMe
      · exact h.setMe.setMe)

theorem State.MemOk.execPrivTretSkip (h : s.MemOk) : Outcome.Ok (execPrivTretSkip s) :=
  h.tret (fun h => by
    dsimp only
    split
    · exact h.dropPinned.setMe
    · exact h.setMe)

theorem State.MemOk.execPrivPgcow (h : s.MemOk) {d : SReg} : Outcome.Ok (execPrivPgcow d s) := by
  unfold Machine.execPrivPgcow
  dsimp only
  exact h.run (fun h => by
    split
    · exact h.cowBreak.sgResult
    · exact h.sgResult)

theorem State.MemOk.execPrivPgref (h : s.MemOk) {d : SReg} {a : AReg} : Outcome.Ok (execPrivPgref d a s) := by
  unfold Machine.execPrivPgref
  dsimp only
  exact h.run (fun h => by
    split
    · exact h.sgResult
    · exact (State.homeAtomic_wf _ _ _ _ _ _ h).sgResult)

theorem State.MemOk.execPrivHalt (h : s.MemOk) : Outcome.Ok (execPrivHalt s) :=
  h.run (fun h => by
    dsimp only
    split
    · exact h.goto.haltCore
    · exact h.goto)

theorem State.MemOk.readPoison (h : s.MemOk) {ctx gen a n : Nat} : (s.readPoison ctx gen a n).MemOk := by
  unfold State.readPoison
  split
  · exact State.poisonReport_wf _ _ _ _ h
  · exact h

theorem State.MemOk.seal (h : s.MemOk) {ctx gen a n : Nat} : (s.seal ctx gen a n).MemOk := by
  unfold State.seal
  dsimp only
  exact State.homeStore_wf _ _ _ _ h.readPoison.draw

theorem State.MemOk.execPrivEseal (h : s.MemOk) {d : SReg} {a : AReg} {b : SReg} : Outcome.Ok (execPrivEseal d a b s) :=
  h.run (fun h => by
    dsimp only
    split
    · exact h.settleAt.seal.sgResult
    · exact h.trapHere)

theorem State.MemOk.execDebugHaltQuiet (h : s.MemOk) {core : Nat} : Outcome.Ok (execDebugHaltQuiet core s) := by
  unfold Machine.execDebugHaltQuiet
  change State.MemOk _
  split
  · exact h.updCore
  · exact h

theorem State.MemOk.hostWrite (h : s.MemOk) {n core : Nat} {x : W64} : (s.hostWrite n core x).MemOk := by
  unfold State.hostWrite
  split
  · exact h
  · split
    · exact h.writeDbgctl
    · exact h.writeDevice

theorem State.MemOk.execRingBaseWrite (h : s.MemOk) {n : BitVec 16} {x : W64} : Outcome.Ok (execRingBaseWrite n x s) := by
  unfold Machine.execRingBaseWrite
  change State.MemOk _
  split
  · exact h.hostWrite
  · exact h

/-! ### Events of teams, host and remote requests (Machine/Events) -/

theorem State.MemOk.execTrapEntry (h : s.MemOk) {tid : Nat} : Outcome.Ok (execTrapEntry tid s) := by
  unfold Machine.execTrapEntry
  change State.MemOk _
  split
  · exact h
  · split
    · split
      · exact h.updTeam.raise
      · exact h
    · exact h

theorem State.MemOk.execRegather (h : s.MemOk) {tid : Nat} : Outcome.Ok (execRegather tid s) := by
  unfold Machine.execRegather
  change State.MemOk _
  split
  · split
    · exact h.updTeam
    · exact h
  · exact h

theorem State.MemOk.execTeamAged (h : s.MemOk) {tid : Nat} : Outcome.Ok (execTeamAged tid s) := by
  unfold Machine.execTeamAged
  dsimp only
  change State.MemOk _
  split
  · split
    · exact h.updTeam
    · exact h
  · exact h

theorem State.MemOk.execL1Writeback (h : s.MemOk) {core sector : Nat} : Outcome.Ok (execL1Writeback core sector s) := by
  unfold Machine.execL1Writeback
  change State.MemOk _
  split
  · split
    · exact h
    · exact h.writeBack
  · exact h

theorem State.MemOk.updParks (h : s.MemOk) {test : Team → Bool} {f : Park → Park} : (s.updParks test f).MemOk :=
  h.same.foldl fun h => h.refreshImage

theorem State.MemOk.answerEngines (h : s.MemOk) {uid : Nat} {ok : Bool} : (s.answerEngines uid ok).MemOk :=
  h.same.foldl fun h => h.foldl fun h => h.updWalkCore

theorem State.MemOk.dropMerge (h : s.MemOk) {e : Merge} : (s.dropMerge e).MemOk :=
  h.same.updParks

theorem State.MemOk.dropPage (h : s.MemOk) {die ctx gen page : Nat} : (s.dropPage die ctx gen page).MemOk :=
  h

theorem State.MemOk.answer (h : s.MemOk) {e : Merge} {ok : Bool} : (s.answer e ok).MemOk := by
  unfold State.answer
  dsimp only
  split
  · exact h.dropPage.updParks.dropMerge.answerEngines
  · exact h.updParks.dropMerge.answerEngines

theorem State.MemOk.lateAnswer (h : s.MemOk) {ctx : Nat} : (s.lateAnswer ctx).MemOk :=
  h.updCtx

theorem State.MemOk.execPageAnswer (h : s.MemOk) : Outcome.Ok (execPageAnswer s) := by
  unfold Machine.execPageAnswer
  dsimp only
  change State.MemOk _
  split
  · exact h
  · split
    · exact h.same.lateAnswer
    · split
      · exact h.same.lateAnswer
      · split
        · exact h.same.dropMerge.lateAnswer
        · exact h.same.answer

theorem State.MemOk.arrive (h : s.MemOk) {p : Fin 33} {pa : Nat} {down k : State → State} (hdown : ∀ {t}, t.MemOk → (down t).MemOk) (hk : ∀
    {t}, t.MemOk → (k t).MemOk) : (s.arrive p pa down k).MemOk := by
  unfold State.arrive
  split
  · exact hdown (State.report_wf _ _ _ _ _ _ _ h)
  · exact hk h
  · exact h

theorem State.MemOk.hostAnswer (h : s.MemOk) {bs : List Byte} : (s.hostAnswer bs).MemOk :=
  h

theorem State.MemOk.execHostStore (h : s.MemOk) {pa : Nat} {bytes : List Byte} : Outcome.Ok (execHostStore pa bytes s) := by
  unfold Machine.execHostStore
  dsimp only
  change State.MemOk _
  split
  · exact h.arrive id fun h => State.homeStore_wf _ _ _ _ h
  · exact h

theorem State.MemOk.execHostLoad (h : s.MemOk) {pa n : Nat} : Outcome.Ok (execHostLoad pa n s) := by
  unfold Machine.execHostLoad
  dsimp only
  change State.MemOk _
  split
  · exact h.arrive (fun h => h.hostAnswer) (fun h => h.readPoison.hostAnswer)
  · exact h

theorem State.MemOk.remoteAnswer (h : s.MemOk) {ok : Bool} {bs : List Byte} : (s.remoteAnswer ok bs).MemOk :=
  h

theorem State.MemOk.remoteServe (h : s.MemOk) {pa : Nat} {k : RemoteKind} : (s.remoteServe pa k).MemOk := by
  unfold State.remoteServe
  dsimp only
  split
  · exact h.readPoison.remoteAnswer
  · exact (State.homeStore_wf _ _ _ _ h).remoteAnswer
  · exact (State.homeAtomic_wf _ _ _ _ _ _ h).remoteAnswer

theorem State.MemOk.execRemoteRequest (h : s.MemOk) {dev pa : Nat} {k : RemoteKind} : Outcome.Ok (execRemoteRequest dev pa k s) := by
  unfold Machine.execRemoteRequest
  change State.MemOk _
  split
  · exact h.remoteAnswer
  · exact h.arrive (fun h => h.remoteAnswer) (fun h => by
    split
    · exact h.remoteServe
    · exact h.remoteAnswer)

theorem State.MemOk.execFrameExport (h : s.MemOk) {frame dev : Nat} : Outcome.Ok (execFrameExport frame dev s) := by
  unfold Machine.execFrameExport
  split <;> exact h

end
end Sys2Proof.Machine
end

section
/-!
O59, part 7 of 8: energy, time, errors and reset.
-/
namespace Sys2Proof.Machine
open Sys2Proof
-- Elaborated one at a time: as tasks of their own, hundreds of short proofs want more threads than the memory limit leaves room for.
set_option Elab.async false
section
variable {s : State}

/-! ### Energy and power (Machine/Energy) -/

theorem State.MemOk.charge (h : s.MemOk) {part unit x : Nat} {line : Option (Nat × Nat)} : (s.charge part unit x line).MemOk := by
  unfold State.charge
  dsimp only
  split <;> exact h

theorem State.MemOk.splitParts (h : s.MemOk) {unit e : Nat} {parts : List (Nat × Nat)} : (s.splitParts unit e parts).MemOk := by
  unfold State.splitParts
  dsimp only
  exact (h.foldl fun h => h.charge).charge

theorem State.MemOk.splitCtxs (h : s.MemOk) {part unit e whole : Nat} {uses : List ((Nat × Nat) × Nat)} :
    (s.splitCtxs part unit e whole uses).MemOk := by
  unfold State.splitCtxs
  dsimp only
  exact (h.foldl fun h => h.charge).charge

theorem State.MemOk.chargeReading (h : s.MemOk) {r : Reading} : (s.chargeReading r).MemOk := by
  unfold State.chargeReading
  dsimp only
  split
  · exact h
  · split
    · split
      · exact h.same.splitCtxs
      · exact h.same.charge
    · split
      · exact h.same.splitCtxs
      · exact h.same.charge
    · exact h.same.splitParts.splitParts
    · exact h.same.splitParts.splitParts
    · exact h.same.splitParts

theorem State.MemOk.markHeld (h : s.MemOk) : s.markHeld.MemOk :=
  h

theorem State.MemOk.execEnergyTick (h : s.MemOk) {rs : List Reading} : Outcome.Ok (execEnergyTick rs s) := by
  unfold Machine.execEnergyTick
  dsimp only
  change State.MemOk _
  split
  · exact h
  · exact h.markHeld.foldl fun h => h.chargeReading

theorem State.MemOk.updChain (h : s.MemOk) {part : Nat} {f : Chain → Chain} : (s.updChain part f).MemOk :=
  h

theorem State.MemOk.closeChain (h : s.MemOk) {t1 part : Nat} : (s.closeChain t1 part).MemOk := by
  unfold State.closeChain
  split
  · exact h
  · extract_lets
    split
    · split
      · exact h
      · exact h.updChain
    · split
      · exact h
      · exact h

theorem State.MemOk.execSealedIntervalClose (h : s.MemOk) : Outcome.Ok (execSealedIntervalClose s) := by
  unfold Machine.execSealedIntervalClose
  change State.MemOk _
  extract_lets _ s1
  split
  · exact h
  · have h1 : s1.MemOk := h.flushCE.foldl fun h => h.closeChain
    clear_value s1
    exact State.flushLog_wf h1

theorem State.MemOk.execFwReadPublicKey (h : s.MemOk) : Outcome.Ok (execFwReadPublicKey s) := by
  unfold Machine.execFwReadPublicKey
  dsimp only
  split <;> exact h

theorem State.MemOk.execFwSupplyLastRecord (h : s.MemOk) {part : Nat} {bytes : List Byte} : Outcome.Ok (execFwSupplyLastRecord part bytes s) := by
  unfold Machine.execFwSupplyLastRecord
  change State.MemOk _
  split
  · exact h.updChain
  · exact h

theorem State.MemOk.setClocks (h : s.MemOk) {f : Nat → Clock → Clock} : (s.setClocks f).MemOk := by
  unfold State.setClocks
  exact h

theorem State.MemOk.execPowerBudgetTick (h : s.MemOk) {d : PowerDemand} : Outcome.Ok (execPowerBudgetTick d s) := by
  unfold Machine.execPowerBudgetTick
  change State.MemOk _
  split
  · exact h
  · extract_lets _ _ _ _ _ s1
    have h1 : s1.MemOk := h.setClocks
    clear_value s1
    exact h1.same

/-! ### The time port (Machine/Time) -/

theorem State.MemOk.dropFrameAt (h : s.MemOk) : s.dropFrameAt.MemOk :=
  h

theorem State.MemOk.ptp (h : s.MemOk) {t : PtpTransport} {domain : BitVec 8} {k : State → State} (hk : ∀ {t}, t.MemOk → (k t).MemOk) :
    (s.ptp t domain k).MemOk := by
  unfold State.ptp
  split
  · exact h.dropFrameAt
  · split
    · exact hk h
    · exact h

theorem State.MemOk.execPtpFrameDrop (h : s.MemOk) {isPtp : Bool} {t : PtpTransport} : Outcome.Ok (execPtpFrameDrop isPtp t s) := by
  unfold Machine.execPtpFrameDrop
  change State.MemOk _
  split
  · exact h
  · exact h.dropFrameAt

theorem State.MemOk.execFwSetPtpAddress (h : s.MemOk) {v4 : BitVec 32} {v6 : BitVec 128} : Outcome.Ok (execFwSetPtpAddress v4 v6 s) := by
  unfold Machine.execFwSetPtpAddress
  dsimp only
  split <;> exact h

theorem State.MemOk.execPtpAnnounceReceive (h : s.MemOk) {src prio1 : Nat} {quality : ClockQuality} {prio2 : Nat} {t : PtpTransport}
    {domain : BitVec 8} : Outcome.Ok (execPtpAnnounceReceive src prio1 quality prio2 t domain s) := by
  unfold Machine.execPtpAnnounceReceive
  change State.MemOk _
  refine h.ptp fun h => ?_
  extract_lets
  split <;> exact h

theorem State.MemOk.execPtpDelayRespReceive (h : s.MemOk) {src : Nat} {t : PtpTransport} {domain : BitVec 8} {delay : ℤ} :
    Outcome.Ok (execPtpDelayRespReceive src t domain delay s) :=
  h.ptp (fun h => by
    dsimp only
    split <;> exact h)

theorem State.MemOk.markUnsync (h : s.MemOk) : s.markUnsync.MemOk := by
  unfold State.markUnsync
  dsimp only
  split <;> exact h

theorem State.MemOk.execPtpSyncReceive (h : s.MemOk) {src : Nat} {t : PtpTransport} {domain : BitVec 8} {logInterval : ℤ}
    {times : SyncTimes} : Outcome.Ok (execPtpSyncReceive src t domain logInterval times s) := by
  unfold Machine.execPtpSyncReceive
  dsimp only
  exact h.ptp (fun h => by
    split
    · exact h
    · split
      · exact h
      · exact h.same.markUnsync)

theorem State.MemOk.execPtpSyncTimeout (h : s.MemOk) : Outcome.Ok (execPtpSyncTimeout s) := by
  unfold Machine.execPtpSyncTimeout
  dsimp only
  change State.MemOk _
  split
  · exact h.same.markUnsync
  · exact h

theorem State.MemOk.execPpsEdge (h : s.MemOk) : Outcome.Ok (execPpsEdge s) := by
  unfold Machine.execPpsEdge
  dsimp only
  split <;> exact h

/-! ### Hardware errors and links (Machine/Errors) -/

theorem State.MemOk.refetch (h : s.MemOk) {core addr : Nat} : (s.refetch core addr).MemOk :=
  h

theorem State.MemOk.rewalk (h : s.MemOk) {cluster addr : Nat} : (s.rewalk cluster addr).MemOk :=
  h

theorem State.MemOk.execCorrectableError (h : s.MemOk) {unit index addr : Nat} : Outcome.Ok (execCorrectableError unit index addr s) := by
  unfold Machine.execCorrectableError
  change State.MemOk _
  split
  · exact State.reportCE_wf _ _ _ h.refetch
  · split
    · exact State.reportCE_wf _ _ _ h.rewalk
    · exact State.reportCE_wf _ _ _ h

theorem State.MemOk.execUncorrectableError (h : s.MemOk) {unit index addr : Nat} {reg : Option RegPlace} :
    Outcome.Ok (execUncorrectableError unit index addr reg s) := by
  unfold Machine.execUncorrectableError
  change State.MemOk _
  split
  · exact State.report_wf _ _ _ _ _ _ _ h.updTeam
  · split
    · split
      · exact State.report_wf _ _ _ _ _ _ _ h.dropDirty.dropClean.addPoison
      · exact State.report_wf _ _ _ _ _ _ _ h.addPoison
    · split
      · exact State.reportCE_wf _ _ _ h.dropClean
      · exact State.report_wf _ _ _ _ _ _ _ h.addPoison

theorem State.MemOk.updLink (h : s.MemOk) {p : Nat} {f : Link → Link} : (s.updLink p f).MemOk := by
  unfold State.updLink
  split <;> exact h

theorem State.MemOk.linkRetry (h : s.MemOk) : s.linkRetry.MemOk :=
  State.flushLog_wf h.retrySignals.flushPrq

theorem State.MemOk.execLinkRetrainEnd (h : s.MemOk) {port : Nat} {ok : Bool} : Outcome.Ok (execLinkRetrainEnd port ok s) := by
  unfold Machine.execLinkRetrainEnd
  dsimp only
  change State.MemOk _
  split
  · split
    · exact h.updLink
    · split
      · exact (State.report_wf _ _ _ _ _ _ _ h.updLink).linkRetry
      · exact h.updLink.linkRetry
  · exact h

theorem State.MemOk.execLinkCompressorSwitch (h : s.MemOk) {port fill : Nat} : Outcome.Ok (execLinkCompressorSwitch port fill s) := by
  unfold Machine.execLinkCompressorSwitch
  change State.MemOk _
  split
  · exact h.updLink
  · exact h

/-! ### Reset and firmware requests (Machine/Reset) -/

theorem State.MemOk.cold (h : s.MemOk) : s.cold.MemOk :=
  Memory.wf_filter _ h

theorem State.MemOk.execPowerGood (h : s.MemOk) {trains : Bool} : Outcome.Ok (execPowerGood trains s) := by
  unfold Machine.execPowerGood
  dsimp only
  change State.MemOk _
  split
  · exact h.cold.updLink
  · exact h.cold

theorem State.MemOk.startAgents (h : s.MemOk) : s.startAgents.MemOk :=
  h

theorem State.MemOk.trainPorts (h : s.MemOk) {ok : BitVec 32} : (s.trainPorts ok).MemOk :=
  h.foldl fun h => h.updLink

theorem State.MemOk.failUnit (h : s.MemOk) {u : Nat × Nat} : (s.failUnit u).MemOk :=
  State.report_wf _ _ _ _ _ _ _ h.same

theorem State.MemOk.startMeters (h : s.MemOk) {boot : W128} : (s.startMeters boot).MemOk :=
  h

theorem State.MemOk.execFirmwareImageVerify (h : s.MemOk) {digest sig : Nat} {ports : BitVec 32} {failing : List (Nat × Nat)} {boot : BitVec 128} :
    Outcome.Ok (execFirmwareImageVerify digest sig ports failing boot s) := by
  unfold Machine.execFirmwareImageVerify
  change State.MemOk _
  split
  · exact h
  · split
    · exact h
    · extract_lets s1
      have h1 : s1.MemOk := h.trainPorts.foldl fun h => h.failUnit
      clear_value s1
      refine State.MemOk.startAgents (State.MemOk.startMeters ?_)
      exact Memory.wf_filter _ h1

theorem State.MemOk.execWarmReset (h : s.MemOk) : Outcome.Ok (execWarmReset s) := by
  unfold Machine.execWarmReset
  change State.MemOk _
  split
  · exact h
  · split
    rename_i e
    have h0 := h.markHeld.draw.snd e
    extract_lets s1 _ _ _ _ s2
    have h1 : s1.MemOk := State.flushLog_wf (State.MemOk.flushCE (h0.foldl fun h => h.writeBackOld))
    clear_value s1
    have h2 : s2.MemOk := Memory.wf_filter _ h1
    clear_value s2
    exact h2.updLink.trainPorts.startAgents

theorem State.MemOk.execFwContextCreate (h : s.MemOk) {ctx root part ffl fflen pool poolLen : Nat} :
    Outcome.Ok (execFwContextCreate ctx root part ffl fflen pool poolLen s) := by
  unfold Machine.execFwContextCreate
  change State.MemOk _
  extract_lets
  split
  · exact h
  · exact h

theorem State.MemOk.answerSaves (h : s.MemOk) {ctx gen : Nat} : (s.answerSaves ctx gen).MemOk :=
  h.foldl fun h => h.answerOps.answerOps

theorem State.MemOk.dropContext (h : s.MemOk) {ctx gen : Nat} : (s.dropContext ctx gen).MemOk := by
  unfold State.dropContext
  extract_lets _ _ _ _ _ _ s1
  have h1 : s1.MemOk := h.foldl fun h => h.updCore
  clear_value s1
  exact h1

theorem State.MemOk.execFwContextKill (h : s.MemOk) {ctx : Nat} : Outcome.Ok (execFwContextKill ctx s) := by
  unfold Machine.execFwContextKill
  change State.MemOk _
  split
  · exact h
  · split
    · exact h
    · exact h.answerSaves.dropContext.updCtx

theorem State.MemOk.execFwPartitionAssign (h : s.MemOk) {cluster : Nat} {part : Option (Fin 32)} :
    Outcome.Ok (execFwPartitionAssign cluster part s) := by
  unfold Machine.execFwPartitionAssign
  change State.MemOk _
  split
  · split
    · exact h
    · exact State.MemOk.markHeld h.markHeld.same
  · exact h

/-! ### The drain (Machine/Due) -/

theorem State.MemOk.drainAll (h : s.MemOk) : Outcome.Ok (drainAll s) :=
  h.writeBackAll

/-! ### Conversions (Machine/FloatOps) -/

theorem State.MemOk.convert (h : s.MemOk) {i : Instr} {d a : VReg} {g : Guard} {sel : Rnd} {f : W32 → W32 → W32 → W32} :
    Outcome.Ok (convert i d a g sel f s) := by
  unfold Machine.convert
  dsimp only
  exact h.run fun h => h.setMe.advance

/-! ### The transform pipe (Machine/Haar) -/

theorem State.MemOk.transform (h : s.MemOk) {i : Instr} {results : Team → List (VReg × List W32 × BitVec 4)} {after : Team → Team} :
    Outcome.Ok (transform i results after s) :=
  h.run (fun h => by
    dsimp only
    split
    · exact h.advance
    · exact h.pipeSend.setMe.advance)

theorem State.MemOk.execDomnHbia (h : s.MemOk) {d a : VReg} {b : SReg} : Outcome.Ok (execDomnHbia d a b s) := by
  unfold Machine.execDomnHbia
  dsimp only
  exact h.run fun h => h.putV

/-! ### Scalar words (Machine/Scalar) -/

theorem State.MemOk.scalar2 (h : s.MemOk) {i : Instr} {d a b : SReg} {f : W64 → W64 → W64} : Outcome.Ok (scalar2 i d a b f s) :=
  h.run fun h => h.putS

theorem State.MemOk.scalar1 (h : s.MemOk) {i : Instr} {d a : SReg} {f : W64 → W64} : Outcome.Ok (scalar1 i d a f s) :=
  h.run fun h => h.putS

end
end Sys2Proof.Machine
end

section
/-!
O59, part 8 of 8: due events, the dispatch and a step.
-/
namespace Sys2Proof.Machine
open Sys2Proof
-- Elaborated one at a time: as tasks of their own, hundreds of short proofs want more threads than the memory limit leaves room for.
set_option Elab.async false

/-! ### The events that are due -/

/-- The events of a list keep memory canonical, and none is refused. -/
def KeepAll (fs : List Due) : Prop := ∀ f ∈ fs, ∀ t : State, t.MemOk → Outcome.Ok (f t)

section
variable {α : Type} {xs : List α} {fs gs : List Due} {c : Prop} [Decidable c]

theorem KeepAll.nil : KeepAll [] := by simp [KeepAll]

theorem KeepAll.cons {f : Due} (hf : ∀ {t : State}, t.MemOk → Outcome.Ok (f t)) (h : KeepAll fs) : KeepAll (f :: fs) :=
  List.forall_mem_cons.2 ⟨fun _ ht => hf ht, h⟩

theorem KeepAll.one {f : Due} (hf : ∀ {t : State}, t.MemOk → Outcome.Ok (f t)) : KeepAll [f] := .cons hf .nil

theorem KeepAll.append (h : KeepAll fs) (h' : KeepAll gs) : KeepAll (fs ++ gs) := List.forall_mem_append.2 ⟨h, h'⟩

theorem KeepAll.when (h : KeepAll fs) : KeepAll (if c then fs else []) := by
  split
  · exact h
  · exact .nil

theorem KeepAll.flatMap {f : α → List Due} (h : ∀ x, KeepAll (f x)) : KeepAll (xs.flatMap f) := fun g hg =>
  have ⟨x, _, hx⟩ := List.mem_flatMap.1 hg
  h x g hx

theorem KeepAll.map {f : α → Due} (h : ∀ x, ∀ {t : State}, t.MemOk → Outcome.Ok (f x t)) : KeepAll (xs.map f) :=
  List.forall_mem_map.2 fun x _ _ => h x

theorem KeepAll.filterMap {f : α → Option Due} (h : ∀ x, ∀ g, f x = some g → ∀ t : State, t.MemOk → Outcome.Ok (g t)) :
    KeepAll (xs.filterMap f) := fun g hg =>
  have ⟨x, _, hx⟩ := List.mem_filterMap.1 hg
  h x g hx

end

section
variable {s : State}

theorem State.dueTeams_keep : KeepAll s.dueTeams := by
  unfold State.dueTeams
  refine .flatMap fun t => .append (.append (.when (.one fun h => h.execTrapEntry)) (.when (.one fun h => h.releaseSlot))) ?_
  refine .filterMap fun o g hg t h => ?_
  split at hg
  · cases hg
  · split at hg <;> cases hg <;> exact h.performed

theorem State.dueEngines_keep : KeepAll s.dueEngines := by
  unfold State.dueEngines
  refine .append (.append (.append ?_ ?_) ?_) ?_
  · refine .filterMap fun c g hg t h => ?_
    split at hg <;> cases hg
    exact h.execTransformPipeReply
  · refine .filterMap fun w g hg t h => ?_
    split at hg <;> cases hg
    exact h.execSignalWaitSatisfied
  · exact .flatMap fun c => .cons (fun h => h.execCopyStart) (.map fun j _ h => h.execCopySectorPerformed)
  · refine .flatMap fun r => .append (.one fun h => ?_) (.when (.one fun h => h.execRingUnbindComplete))
    split
    · exact h.execRingDrainChunk
    · exact h.execRingFillChunk

theorem WalkCore.turns_keep (c : Nat) (w : WalkCore) : KeepAll (w.turns c) := by
  unfold WalkCore.turns
  refine .append (.append (.append (.append (.when (.one fun h => h.execKstepBoundary)) ?_) ?_) ?_) ?_
  · exact .flatMap fun i => .cons (fun h => h.execSplitkArrival) (.one fun h => h.execStreamDrainComplete)
  · exact .map fun i _ h => h.execStreamFillComplete
  · exact .map fun i _ h => h.execStreamFillComplete
  · exact .cons (fun h => h.execUpcallDelivery) (.cons (fun h => h.execUpcallDelivery) (.cons (fun h => h.execUpcallDelivery)
      (.one fun h => h.execKstepBegin)))

theorem State.dueWalks_keep : KeepAll s.dueWalks := by
  unfold State.dueWalks
  refine .flatMap fun c => ?_
  split
  · exact .nil
  · exact WalkCore.turns_keep c _

theorem State.dueAgents_keep : KeepAll s.dueAgents := by
  unfold State.dueAgents
  refine .append (.append (.append (.flatMap fun x => .append (.append (.append ?_ ?_) ?_) ?_) ?_) ?_) ?_
  · exact .cons (fun h => h.execSignalPacketPerform) (.cons (fun h => h.execWaitSignalsDispatch)
      (.cons (fun h => h.execPlacementRetry) (.one fun h => h.execPacketDispatch)))
  · exact .when (.cons (fun h => h.execPreemptSaveComplete) (.one fun h => h.execDrainLimitExpiry))
  · exact .when (.one fun h => h.execQueueAutoResume)
  · exact .one fun h => h.execPlacementPressurePreempt
  · refine .filterMap fun b g hg t h => ?_
    split at hg <;> cases hg
    exact h.execBundleStart
  · exact .map fun t _ h => h.execEvictedTeamRestore
  · exact .flatMap fun x => .map fun c _ h => h.execTicketClaim

theorem State.dueClocks_keep : KeepAll s.dueClocks := by
  unfold State.dueClocks
  refine .append (.append (.append (.append (.append (.map fun g _ h => h.execGroupDeadline) ?_) ?_) ?_) ?_) ?_
  · refine .filterMap fun c g hg t h => ?_
    split at hg <;> cases hg
    exact h.execWalkStallReport
  · exact .when (.one fun h => h.execQueueStallCheck)
  · exact .when (.one fun h => h.execPageAnswer)
  · exact .cons (fun h => h.execSealedIntervalClose) (.one fun h => h.execPpsEdge)
  · refine .filterMap fun c g hg t h => ?_
    split at hg <;> cases hg
    exact h.execDebugHaltQuiet

theorem State.due_keep : KeepAll s.due :=
  .append (.append (.append (.append (.append (.when (.one fun h => h.drainAll)) dueTeams_keep) dueEngines_keep) dueWalks_keep)
    dueAgents_keep) dueClocks_keep

theorem State.MemOk.firstDue (h : s.MemOk) {fs : List Due} (hfs : KeepAll fs) {t : State} (e : firstDue s fs = some t) : t.MemOk := by
  induction fs with
  | nil => cases e
  | cons f fs ih =>
    have ⟨hf, hrest⟩ := List.forall_mem_cons.1 hfs
    have hs := hf s h
    unfold Machine.firstDue at e
    split at e
    · rename_i hn
      rw [hn] at hs
      split at e
      · exact ih hrest e
      · cases e
        exact hs
    · exact ih hrest e

/-! ### A step -/

theorem State.MemOk.go (h : s.MemOk) : s.go.1.MemOk := by
  unfold State.go
  split <;> exact h.nextWord.fst ‹_›

theorem State.MemOk.turn (h : s.MemOk) : s.turn.1.MemOk := by
  unfold State.turn
  -- the kernel is not to evaluate the events that are due
  generalize hdue : Machine.firstDue s s.due = r
  generalize s.agenda = turns
  split
  · exact h.go
  · cases turns with
    | nil =>
      cases r with
      | some s1 => exact h.firstDue State.due_keep hdue
      | none =>
        dsimp only
        split
        · exact h.select.go
        · exact h.tick
    | cons x rest =>
      have hrest : State.MemOk { s with agenda := rest } := h
      cases x with
      | event dt i =>
        dsimp only
        split
        · exact h
        · exact hrest.pass
      | issue core sched =>
        dsimp only
        split
        · exact hrest.select.go
        · exact hrest
      | pick tid =>
        dsimp only
        split
        · split
          · exact hrest.select.go
          · exact hrest
        · exact hrest

/-- Every word and event keeps memory canonical, and none is refused. -/
theorem State.MemOk.exec (h : s.MemOk) (i : Instr) : Outcome.Ok (exec i s) := by
  cases i with dsimp only [Machine.exec]
  | miscNop | wait => exact h.run fun h => h.advance
  | miscYield | plogEmw | domnDtag | tbndBind | tbndUnbind | hctlHtaint => exact h.run fun h => h.setMe.advance
  | miscTrap => exact h.run fun h => h.trapHere
  | sopAdd | sopSub | sopMul | sopMulh | sopMulhn | sopDiv | sopDivn | sopRem | sopAnd | sopOr | sopXor | sopAndn | sopShl
  | sopShr | sopSar | sopMin | sopMax | sopMinn | sopMaxn | sopSlt | sopSltn | sopSeq =>
    exact h.scalar2
  | sopPopc | sopClz | sopCtz | sopiAddi | sopiAndi | sopiOri | sopiXori | sshiShli | sshiShri | sshiSari | sshiSlti | sinsInsert =>
    exact h.scalar1
  | aopAadd | aopAset | aopAmov => exact h.run fun h => h.putA
  | aopAget | plogPmovs | plogPbal | plogEmr | domnDget | tbndQuery | hctlWstat => exact h.run fun h => h.putS
  | cregCwr => exact h.run fun h => h.writeReg.advance
  | variIadd | variIsub | variImul | variImulh | vlogAnd | vlogOr | vlogXor | vlogAndn | vsftShl | vsftShr | vsftSar | vsftRol
  | vmnxImin | vmnxImax | vmnxNmin | vmnxNmax | fmul | fmin | fmax =>
    exact h.vector2
  | vcmpEq | vcmpLt | vcmpLe | vcmpLtn | fceq | fclt | fcle | fcun => exact h.compare2
  | vadi | funaExp2 | funaLog2 | funaRcp | funaRsqrt | funaSqrt | funaTanh | funaSigm | funaGelu | funaAbs | funaNeg | funaFloor
  | funaCeil | funaRint | funaFrac | vmovMov =>
    exact h.vector1
  | vimmSx | vimmHi | fadd | fsub | fma | vsel | vmovBcast | vmovLaneid | vxlnShfl | vxlnRedadd | vxlnRedmax | vxlnScan | domnHscl =>
    exact h.run fun h => h.putV
  | fcvtConvert | fcvtI32 | fcvtWi32 => exact h.convert
  | plogPand | plogPor | plogPxor => exact h.predicate2
  | xfrmHfwd | xfrmHinv | xfrmHthr | xfrmHpack | xfrmHunpk | xfrmXpose | xfrmMxq | xfrmMxdq | xfrmI4dq => exact h.transform
  | vatmAddI | vatmAddF | vatmMinI | vatmMaxI | vatmMaxF | vatmAnd | vatmOr | vatmXor | vatmXchg | vatmCas => exact h.vectorAtomic
  | satmAdd | satmSub | satmAnd | satmOr | satmXor | satmMin | satmMax | satmMinn | satmMaxn | satmXchg | satmCas =>
    exact h.scalarAtomic
  | fenceAcq | fenceRel | fenceAr | fenceSc => exact h.run fun h => h.fence
  | xcpyIn | xcpyOut | xcpyMcin => exact h.run fun h => h.xcpy
  | ringRunbind => exact h.run fun h => h.updRing.issueOp
  | sgrpInfo => exact h.groupAccess fun h => h.groupDone
  | brsBeqz | brsBnez | brsBltz | brsBgez => exact h.scalarBranch
  | jmpJmp | jmpJmpr | jmpRet => exact h.run fun h => h.goto
  | jmpCall => exact h.run fun h => h.setMe.goto
  | privTretKill => exact h.tret fun h => h.kill
  | privTlbinv => exact h.run fun h => h.shootdown.advance
  | loadComplete | storePerformed | atomicPerformed | sgOperationPerformed => exact h.performed
  | teamSlotRelease => exact h.releaseSlot
  | dbgctlHaltreq => exact h.haltCore
  | dbgctlResume => exact h.resumeCore
  | linkCrcError => exact h.updLink
  | pwrlimWrite | prqheadWrite | prawrWrite | logheadWrite | registerWrite => exact h.hostWrite
  | powerLoss => exact h.cold
  | miscExit => exact h.execMiscExit
  | miscBrk => exact h.execMiscBrk
  | cregCrd => exact h.execCregCrd
  | vmovRdlane => exact h.execVmovRdlane
  | vmovWrlane => exact h.execVmovWrlane
  | vxlnBcl => exact h.execVxlnBcl
  | domnHbia => exact h.execDomnHbia
  | vld => exact h.execVld
  | vst => exact h.execVst
  | sld => exact h.execSld
  | sst => exact h.execSst
  | tsl => exact h.execTsl
  | tss => exact h.execTss
  | ringRbind => exact h.execRingRbind
  | ringSpub => exact h.execRingSpub
  | ringSrel => exact h.execRingSrel
  | ringSwait => exact h.execRingSwait
  | tbarTbinit => exact h.execTbarTbinit
  | tbarTbarr => exact h.execTbarTbarr
  | tbarTbwait => exact h.execTbarTbwait
  | tbarTbtest => exact h.execTbarTbtest
  | sigSigadd => exact h.execSigSigadd
  | sigSigwait => exact h.execSigSigwait
  | sigSigrd => exact h.execSigSigrd
  | sigWatch => exact h.execSigWatch
  | sgrpFork => exact h.execSgrpFork
  | sgrpArr => exact h.execSgrpArr
  | sgrpCan => exact h.execSgrpCan
  | sgrpWait => exact h.execSgrpWait
  | sgrpFree => exact h.execSgrpFree
  | hctlHret => exact h.execHctlHret
  | hctlWpos => exact h.execHctlWpos
  | brv => exact h.execBrv
  | rcv => exact h.execRcv
  | join => exact h.execJoin
  | syncGbar => exact h.execSyncGbar
  | syncEnq => exact h.execSyncEnq
  | syncQctlCreate => exact h.execSyncQctlCreate
  | syncQctlStop => exact h.execSyncQctlStop
  | syncQctlResume => exact h.execSyncQctlResume
  | syncQctlDestroy => exact h.execSyncQctlDestroy
  | privTretRetry => exact h.execPrivTretRetry
  | privTretSkip => exact h.execPrivTretSkip
  | privPgcow => exact h.execPrivPgcow
  | privPgref => exact h.execPrivPgref
  | privEseal => exact h.execPrivEseal
  | privPreemptSave => exact h.execPrivPreemptSave
  | privPreemptRsm => exact h.execPrivPreemptRsm
  | privHalt => exact h.execPrivHalt
  | trapEntry => exact h.execTrapEntry
  | transformPipeReply => exact h.execTransformPipeReply
  | regather => exact h.execRegather
  | teamAged => exact h.execTeamAged
  | l1Writeback => exact h.execL1Writeback
  | signalWaitSatisfied => exact h.execSignalWaitSatisfied
  | evictedTeamRestore => exact h.execEvictedTeamRestore
  | copyStart => exact h.execCopyStart
  | copySectorPerformed => exact h.execCopySectorPerformed
  | ringFillChunk => exact h.execRingFillChunk
  | ringDrainChunk => exact h.execRingDrainChunk
  | ringUnbindComplete => exact h.execRingUnbindComplete
  | pageAnswer => exact h.execPageAnswer
  | hostStore => exact h.execHostStore
  | hostLoad => exact h.execHostLoad
  | remoteRequest => exact h.execRemoteRequest
  | ticketClaim => exact h.execTicketClaim
  | packetDispatch => exact h.execPacketDispatch
  | placementRetry => exact h.execPlacementRetry
  | placementPressurePreempt => exact h.execPlacementPressurePreempt
  | waitSignalsDispatch => exact h.execWaitSignalsDispatch
  | signalPacketPerform => exact h.execSignalPacketPerform
  | bundleStart => exact h.execBundleStart
  | queueStallCheck => exact h.execQueueStallCheck
  | kstepBegin => exact h.execKstepBegin
  | kstepBoundary => exact h.execKstepBoundary
  | splitkArrival => exact h.execSplitkArrival
  | upcallDelivery => exact h.execUpcallDelivery
  | streamFillComplete => exact h.execStreamFillComplete
  | streamDrainComplete => exact h.execStreamDrainComplete
  | walkStallReport => exact h.execWalkStallReport
  | groupDeadline => exact h.execGroupDeadline
  | preemptSaveComplete => exact h.execPreemptSaveComplete
  | drainLimitExpiry => exact h.execDrainLimitExpiry
  | queueAutoResume => exact h.execQueueAutoResume
  | debugHaltQuiet => exact h.execDebugHaltQuiet
  | energyTick => exact h.execEnergyTick
  | sealedIntervalClose => exact h.execSealedIntervalClose
  | powerBudgetTick => exact h.execPowerBudgetTick
  | ptpSyncReceive => exact h.execPtpSyncReceive
  | ptpFrameDrop => exact h.execPtpFrameDrop
  | ptpSyncTimeout => exact h.execPtpSyncTimeout
  | ppsEdge => exact h.execPpsEdge
  | correctableError => exact h.execCorrectableError
  | uncorrectableError => exact h.execUncorrectableError
  | linkRetrainEnd => exact h.execLinkRetrainEnd
  | ringBaseWrite => exact h.execRingBaseWrite
  | powerGood => exact h.execPowerGood
  | firmwareImageVerify => exact h.execFirmwareImageVerify
  | warmReset => exact h.execWarmReset
  | fwSetPtpAddress => exact h.execFwSetPtpAddress
  | fwReadPublicKey => exact h.execFwReadPublicKey
  | fwSupplyLastRecord => exact h.execFwSupplyLastRecord
  | fwContextKill => exact h.execFwContextKill
  | fwPartitionAssign => exact h.execFwPartitionAssign
  | fwContextCreate => exact h.execFwContextCreate
  | frameExport => exact h.execFrameExport
  | ptpAnnounceReceive => exact h.execPtpAnnounceReceive
  | ptpDelayRespReceive => exact h.execPtpDelayRespReceive
  | linkCompressorSwitch => exact h.execLinkCompressorSwitch

theorem State.MemOk.step (h : s.MemOk) : Outcome.Ok (step s) := by
  unfold Machine.step
  split
  · exact State.MemOk.exec (h.turn.fst ‹_›) _
  · exact h.turn.fst ‹_›
  · trivial

end
end Sys2Proof.Machine

namespace Sys2Proof.Claim
open Sys2Proof Sys2Proof.Machine

/-- Settles O59: every function of the model that changes memory stores a cell by `Memory.write` or keeps a part of the cells, so each of them
keeps the canonical form; no arm of the dispatch answers a refusal. -/
theorem stepsKeepMemoryCanonical : Obligations.StepsKeepMemoryCanonical := by
  unfold Obligations.StepsKeepMemoryCanonical
  intro s hs
  have h := State.MemOk.step (s := s) hs
  refine ⟨fun t e => ?_, fun r e => ?_⟩
  · rw [e] at h
    exact h
  · rw [e] at h
    exact h

end Sys2Proof.Claim
end

section
/-!
O26: bytes and numbers, the sector of an access in the L1 of its team, team-uniform accesses performed at once.
-/
namespace Sys2Proof.Machine
open Sys2Proof Claim

/-! ### Bytes and numbers (spec/00 R4) -/

theorem length_leBytes (n x : Nat) : (leBytes n x).length = n := by
  induction n generalizing x with
  | zero => rfl
  | succ n ih => simp [leBytes, ih]

theorem leNat_leBytes (n x : Nat) : leNat (leBytes n x) = x % 256 ^ n := by
  induction n generalizing x with
  | zero => simp [leBytes, leNat, Nat.mod_one]
  | succ n ih =>
    rw [leBytes, leNat, ih, BitVec.toNat_ofNat, (Nat.pow_succ' : 256 ^ (n + 1) = _)]
    exact Nat.mod_mul.symm

theorem length_homeBytes (s : State) (a n : Nat) : (s.homeBytes a n).length = n := by
  induction n generalizing a with
  | zero => rfl
  | succ n ih => simp [State.homeBytes, ih]

theorem length_overlay (base : Nat) (bs : List Byte) (new : List (Nat × Byte)) : (overlay base bs new).length = bs.length := by
  induction new generalizing bs with
  | nil => rfl
  | cons x new ih => exact (ih _).trans (List.length_set ..)

theorem overlay_append (base : Nat) (bs : List Byte) (xs ys : List (Nat × Byte)) :
    overlay base bs (xs ++ ys) = overlay base (overlay base bs xs) ys := List.foldl_append ..

/-- Bytes laid at their own place are read back from there. -/
theorem overlay_keyed {base k : Nat} (hk : base ≤ k) (ys bs : List Byte) (hn : k - base + ys.length ≤ bs.length) :
    overlay base bs (keyed k ys) = bs.take (k - base) ++ ys ++ bs.drop (k - base + ys.length) := by
  induction ys generalizing k bs with
  | nil => simp [keyed, overlay]
  | cons y ys ih =>
    have hlen : k - base < bs.length := by simp at hn; omega
    have hsub : k + 1 - base = k - base + 1 := by omega
    have hstep := ih (Nat.le_succ_of_le hk) (bs.set (k - base) y) (by simp at hn ⊢; omega)
    rw [hsub] at hstep
    refine Eq.trans hstep ?_
    rw [List.take_succ_eq_append_getElem (by simpa using hlen)]
    simp [List.take_set_of_le, List.drop_set, Nat.add_assoc, Nat.add_comm 1]

/-! ### The sector of an access in the team's own L1 -/

/-- An access of a team at a key: the core holds the sector dirty for no other team, no other sector of the line in its cluster is dirty under
another tag, and a clean copy of the sector is whole. -/
structure OwnSector (s : State) (u : Team) (key : Nat) (va : W80) : Prop where
  owner : ∀ d ∈ s.dirty, d.core = u.core → d.key = sectorOf key → d.tid = u.id.tid
  tags : ∀ d ∈ s.dirty, d.core / 8 = u.core / 8 → d.key / 128 = key / 128 →
    d.pinned = true ∨ (d.ctx = u.id.ctx ∧ d.gen = u.id.gen ∧ d.va.toNat / 128 = va.toNat / 128)
  whole : ∀ c ∈ s.clean, c.core = u.core → c.key = sectorOf key → c.bytes.length = 32

section
variable {s : State} {u : Team} {key : Nat} {va : W80}

theorem ownSector_of_undisturbed (h : Undisturbed s key va) : OwnSector s s.me key va where
  owner d hd hcore hkey := (h.mine d hd hcore hkey).1
  tags := h.tags
  whole c hc hcore hkey := by rw [h.fresh c hc hcore hkey, length_homeBytes]

theorem State.dirtyAt_eq_some {core : Nat} {d : Dirty} (h : s.dirtyAt core key = some d) :
    d ∈ s.dirty ∧ d.core = core ∧ d.key = sectorOf key := by
  have hp := List.find?_some h
  simp only [Bool.and_eq_true, beq_iff_eq] at hp
  exact ⟨List.mem_of_find?_eq_some h, hp⟩

/-- The sector's state is in the core's dirty sectors and clean copies alone. -/
theorem OwnSector.congr (h : OwnSector s u key va) {t : State} {w : Team} (hd : t.dirty = s.dirty) (hc : t.clean = s.clean)
    (hcore : w.core = u.core) (hid : w.id = u.id) : OwnSector t w key va := by
  obtain ⟨howner, htags, hwhole⟩ := h
  constructor <;> simp only [hd, hc, hcore, hid] <;> assumption

/-- A sector of no other team is not written back first. -/
theorem OwnSector.touch (h : OwnSector s u key va) : s.touch u.core u.id.tid key = s := by
  unfold State.touch
  split
  · rename_i d hd
    obtain ⟨hmem, hcore, hkey⟩ := State.dirtyAt_eq_some hd
    exact if_pos (.inl (h.owner d hmem hcore hkey))
  · rfl

/-- With no dirty sector of the line under another tag, only clean copies go. -/
theorem OwnSector.retag (h : OwnSector s u key va) :
    ∃ p, s.retag u.core key u.id.ctx u.id.gen va = { s with clean := s.clean.filter p } := by
  have hnone : (s.dirty.filter fun d => d.core / 8 == u.core / 8 && d.key / 128 == key / 128 && !d.pinned &&
      !(d.ctx == u.id.ctx && d.gen == u.id.gen && d.va.toNat / 128 == va.toNat / 128)) = [] := by
    refine List.filter_eq_nil_iff.2 fun d hd => ?_
    have := h.tags d hd
    simp only [Bool.and_eq_true, beq_iff_eq, Bool.not_eq_true', not_and]
    intro ⟨⟨hcore, hline⟩, hpin⟩
    rcases this hcore hline with hp | ⟨hc, hg, hv⟩
    · simp [hp] at hpin
    · simp [hc, hg, hv]
  unfold State.retag
  simp only [hnone, State.writeBackAll]
  exact ⟨_, rfl⟩

/-- The core holds the sector of a key dirty for the team, with these bytes last. -/
def HoldsLast (s : State) (u : Team) (key : Nat) (new : List (Nat × Byte)) : Prop :=
  ∃ d old, s.dirtyAt u.core key = some d ∧ d.tid = u.id.tid ∧ d.bytes = old ++ new

theorem HoldsLast.congr {new : List (Nat × Byte)} (h : HoldsLast s u key new) {t : State} {w : Team} (hd : t.dirty = s.dirty) (hcore : w.core = u.core)
    (hid : w.id = u.id) : HoldsLast t w key new := by
  unfold HoldsLast State.dirtyAt at h ⊢
  rwa [hd, hcore, hid]

/-- Bytes merged into the dirty sector of a core. -/
def Dirty.merged (core sec : Nat) (new : List (Nat × Byte)) (x : Dirty) : Dirty :=
  if x.core = core ∧ x.key = sec then { x with bytes := mergeBytes x.bytes new } else x

/-- A sector merged into keeps its place, its team and its tag. -/
theorem Dirty.merged_eq (core sec : Nat) (new : List (Nat × Byte)) (x : Dirty) :
    x.merged core sec new = { x with bytes := (x.merged core sec new).bytes } := by
  unfold Dirty.merged
  split <;> rfl

theorem State.dirtyAt_merged {core : Nat} {d : Dirty} (h : s.dirtyAt core key = some d) (new : List (Nat × Byte)) :
    ({ s with dirty := s.dirty.map (Dirty.merged core (sectorOf key) new) } : State).dirtyAt core key =
      some { d with bytes := mergeBytes d.bytes new } := by
  obtain ⟨-, hcore, hkey⟩ := State.dirtyAt_eq_some h
  have hsame : ((fun d : Dirty => d.core == core && d.key == sectorOf key) ∘ Dirty.merged core (sectorOf key) new) =
      fun d => d.core == core && d.key == sectorOf key := by
    funext x
    rw [Function.comp_apply, x.merged_eq]
  have hd : d.merged core (sectorOf key) new = { d with bytes := mergeBytes d.bytes new } := if_pos ⟨hcore, hkey⟩
  unfold State.dirtyAt at h ⊢
  rw [List.find?_map, hsame, h, Option.map_some, hd]

/-- A store into the team's own L1 changes the dirty sectors and the clean copies alone, and leaves the core holding its bytes. -/
theorem OwnSector.storeBytes (h : OwnSector s u key va) (hva : key % 32 = va.toNat % 32) (new : List (Nat × Byte)) :
    ∃ clean dirty, s.storeBytes u.core u.id.tid u.id.ctx u.id.gen va key 0 new = { s with clean := clean, dirty := dirty } ∧
      OwnSector { s with clean := clean, dirty := dirty } u key va ∧ HoldsLast { s with clean := clean, dirty := dirty } u key new := by
  obtain ⟨p, hp⟩ := h.retag
  have hwhole : ∀ c ∈ s.clean.filter p, c.core = u.core → c.key = sectorOf key → c.bytes.length = 32 := fun c hc =>
    h.whole c (List.mem_filter.1 hc).1
  have hat : ({ s with clean := s.clean.filter p } : State).dirtyAt u.core key = s.dirtyAt u.core key := rfl
  unfold State.storeBytes
  simp only [h.touch, hp, hat, OfNat.zero_ne_ofNat, if_false, if_true]
  cases hd : s.dirtyAt u.core key with
  | none =>
    refine ⟨_, _, rfl, ⟨?_, ?_, hwhole⟩, _, [], List.find?_cons_of_pos (by simp), rfl, rfl⟩
    · simpa using h.owner
    · refine List.forall_mem_cons.2 ⟨fun _ _ => .inr ⟨rfl, rfl, ?_⟩, h.tags⟩
      have := va.isLt
      simp only [BitVec.toNat_ofNat]
      omega
  | some d =>
    obtain ⟨hmem, hcore, hkey⟩ := State.dirtyAt_eq_some hd
    have hown := h.owner d hmem hcore hkey
    simp only [hown, if_true]
    refine ⟨_, s.dirty.map (Dirty.merged u.core (sectorOf key) new), rfl, ⟨?_, ?_, hwhole⟩, _, _, State.dirtyAt_merged hd new, hown, rfl⟩
    · refine List.forall_mem_map.2 fun x hx => ?_
      rw [x.merged_eq]
      exact h.owner x hx
    · refine List.forall_mem_map.2 fun x hx => ?_
      rw [x.merged_eq]
      exact h.tags x hx

/-- The bytes that a sector is filled from are a whole sector. -/
theorem OwnSector.length_fillSector (h : OwnSector s u key va) (ctx gen : Nat) (v : W80) :
    (s.fillSector u.core ctx gen v (sectorOf key)).1.length = 32 := by
  unfold State.fillSector
  dsimp only
  split
  · rename_i c hc
    have hp := List.find?_some hc
    simp only [Bool.and_eq_true, beq_iff_eq] at hp
    have hwhole := h.whole c (List.mem_of_find?_eq_some hc) hp.1 hp.2
    split
    · exact length_homeBytes ..
    · split
      · exact hwhole
      · exact length_homeBytes ..
  · exact length_homeBytes ..

/-- A load reads the bytes that the team's core holds dirty last, whatever the rest of the sector comes from. -/
theorem OwnSector.loadBytes (h : OwnSector s u key va) {ys : List Byte} (hh : HoldsLast s u key (keyed key ys)) (hn : key % 32 + ys.length ≤ 32) :
    (s.loadBytes u.core u.id.tid u.id.ctx u.id.gen va key 0 ys.length).1 = ys := by
  obtain ⟨p, hp⟩ := h.retag
  obtain ⟨d, old, hd, htid, hbytes⟩ := hh
  have hkey : key - sectorOf key = key % 32 := by unfold sectorOf; omega
  have hle : sectorOf key ≤ key := by unfold sectorOf; omega
  have h1 : OwnSector { s with clean := s.clean.filter p } u key va :=
    ⟨h.owner, h.tags, fun c hc => h.whole c (List.mem_filter.1 hc).1⟩
  have hd1 : ({ s with clean := s.clean.filter p } : State).dirtyAt u.core key = some d := hd
  unfold State.loadBytes State.loadSector
  simp only [h.touch, hp, hd1, htid, if_true, OfNat.zero_ne_ofNat, if_false]
  have hlen := h1.length_fillSector u.id.ctx u.id.gen (BitVec.ofNat 80 (va.toNat - key % 32))
  generalize State.fillSector _ _ _ _ _ _ = f at hlen ⊢
  obtain ⟨bs, s2⟩ := f
  have hlen2 : (overlay (sectorOf key) bs old).length = 32 := (length_overlay ..).trans hlen
  dsimp only
  rw [hbytes, overlay_append, overlay_keyed hle _ _ (by omega), hkey, List.append_assoc,
    List.drop_left' (by rw [List.length_take]; omega), List.take_left]

end

/-! ### A team-uniform access performed at once -/

/-- The scopes that a statement names are those that the access has. -/
theorem widened_eq (loc : Nat) (o : Option Scope) : widened loc o = o.map (·.widen loc) := by
  cases o with
  | none => rfl
  | some sc =>
    match loc with
    | 0 | 1 | _ + 3 => rfl
    | 2 => cases sc <;> rfl

section
variable {s s1 : State} {i : Instr} {va : W80} {n key loc : Nat}

/-- An access that translates changes the cached translations and the count of free values alone. -/
theorem State.teamReach_kept {u : Team} {k : Access} {r : Trans} (h : s.teamReach u k va n = (r, s1)) : FetchKept s s1 := by
  have := s.teamReach_fetchKept u k va n
  rwa [h] at this

theorem FetchKept.l1 {t : State} (h : FetchKept s t) : t.dirty = s.dirty ∧ t.clean = s.clean ∧ t.me = s.me ∧ t.nextId = s.nextId := by
  obtain ⟨_, _, _, _, rfl⟩ := h
  exact ⟨rfl, rfl, rfl, rfl⟩

theorem FetchKept.stalled {t : State} (h : FetchKept s t) (u : Team) (xs : List LaneAt) : t.newId.2.stalled u xs = s.stalled u xs := by
  obtain ⟨_, _, _, _, rfl⟩ := h
  rfl

/-- The operation that an access leaves when it is performed at once. -/
def opDone (id : Nat) (cls : OpClass) (d : Done) (ps : List SReg) (loc : Nat) : Op :=
  ⟨id, cls, true, false, d.writes, [], ps, [destOf loc], none, none, none⟩

theorem State.settleFences_of_nil (h : s.me.flow.fences = []) : s.settleFences s.me.id.tid = s := by simp [State.settleFences, h]

/-- An access with nothing to release that can be made is performed after its address translates; its effect takes the state as the translation
leaves it. -/
theorem State.uniformAcc_now (h : CanAccess s i va n key loc) (hrel : i.relScope = none) {k : Access}
    (hr : s.teamReach s.me k va n = (.ok key loc, s1)) (cls : OpClass) (ps : List SReg) (eff : Effect)
    (hw : (eff s.me [⟨0, va, key, loc⟩] s.nextId s1.newId.2).waits = false) :
    s.uniformAcc i cls k va n ps eff =
      ((((eff s.me [⟨0, va, key, loc⟩] s.nextId s1.newId.2).report s.me).setMe
        (·.addOp (opDone s.nextId cls (eff s.me [⟨0, va, key, loc⟩] s.nextId s1.newId.2) ps loc))).advance) := by
  have hkept := State.teamReach_kept hr
  obtain ⟨-, -, hme, hid⟩ := hkept.l1
  have hfree : ¬ (s.me.orderHeld i (i.acqScope.map (·.widen loc)) none s.nextId [⟨0, va, key, loc⟩] = true ∨
      s.stalled s.me [⟨0, va, key, loc⟩] = true) := by
    have := h.free
    rwa [HeldBack, acqAt, relAt, widened_eq, widened_eq, hrel] at this
  have hsettle : s1.settleFences s1.me.id.tid = s1 := State.settleFences_of_nil (by rw [hme, h.unfenced])
  rw [not_or, Bool.not_eq_true, Bool.not_eq_true] at hfree
  rw [State.uniformAcc, State.uniform_go _ _ _ _ h.unparked h.aligned, State.access_ok _ hr, State.accessAt, hrel, Option.map_none, State.relThen,
    State.issueAcc_now _ _ _ _ _ _ _ _ _ hsettle (by rw [hme, hid]; exact hfree.1) (by rw [hme, hkept.stalled]; exact hfree.2)]
  dsimp only
  rw [hme, hid, hw]
  rfl

end

theorem exec_sst (d : SReg) (a : AReg) (r : Ordering3) (z : SSize) (i : BitVec 9) (s : State) :
    exec (.sst d a r z i) s = run (.sst d a r z i) s fun s =>
      s.uniformAcc (.sst d a r z i) .st .store (s.me.scalarAddr a i z.bytes) z.bytes [] (sstEffect (.sst d a r z i) d z.bytes) := rfl

theorem exec_sld (d : SReg) (a : AReg) (r : Ordering3) (z : SSize) (i : BitVec 9) (s : State) :
    exec (.sld d a r z i) s = run (.sld d a r z i) s fun s =>
      s.uniformAcc (.sld d a r z i) .ld .load (s.me.scalarAddr a i z.bytes) z.bytes [d] (sldEffect (.sld d a r z i) d z.bytes) := rfl

/-- A scalar plain store is what its bytes in the L1 make of the state. -/
theorem exec_sst_plain {s s1 : State} {d : SReg} {a : AReg} {z : SSize} {i : BitVec 9} {key : Nat}
    (hp : Passes s (.sst d a .plain z i)) (h : CanAccess s (.sst d a .plain z i) (s.me.scalarAddr a i z.bytes) z.bytes key 0)
    (hr : s.teamReach s.me .store (s.me.scalarAddr a i z.bytes) z.bytes = (.ok key 0, s1)) :
    exec (.sst d a .plain z i) s = .next (((s1.newId.2.storeBytes s.me.core s.me.id.tid s.me.id.ctx s.me.id.gen (s.me.scalarAddr a i z.bytes) key 0
      (keyed key (leBytes z.bytes (s.me.s d).toNat))).setMe (·.addOp (opDone s.nextId .st (.start s) [] 0))).advance) := by
  rw [exec_sst, run_of_vReads_nil _ hp fun _ => rfl, State.uniformAcc_now h rfl hr .st [] (sstEffect (.sst d a .plain z i) d z.bytes) rfl]
  rfl

/-- A scalar plain load leaves an operation with the number that the team reads. -/
theorem exec_sld_plain {s s1 u : State} {d : SReg} {a : AReg} {z : SSize} {i : BitVec 9} {key : Nat}
    (hp : Passes s (.sld d a .plain z i)) (h : CanAccess s (.sld d a .plain z i) (s.me.scalarAddr a i z.bytes) z.bytes key 0)
    (hr : s.teamReach s.me .load (s.me.scalarAddr a i z.bytes) z.bytes = (.ok key 0, s1)) (hu : exec (.sld d a .plain z i) s = .next u) :
    ∃ o ∈ u.me.flow.ops, o.id = s.nextId ∧ o.cls = .ld ∧ o.ready = true ∧
      o.writes = [.s d (BitVec.ofNat 64 (leNat (s1.newId.2.loadBytes s.me.core s.me.id.tid s.me.id.ctx s.me.id.gen
        (s.me.scalarAddr a i z.bytes) key 0 z.bytes).1))] := by
  rw [exec_sld, run_of_vReads_nil _ hp fun _ => rfl, State.uniformAcc_now h rfl hr .ld [d] (sldEffect (.sld d a .plain z i) d z.bytes) rfl,
    Host.Outcome.next.injEq] at hu
  subst hu
  refine ⟨opDone s.nextId .ld (sldEffect (.sld d a .plain z i) d z.bytes s.me [⟨0, s.me.scalarAddr a i z.bytes, key, 0⟩] s.nextId s1.newId.2)
    [d] 0, ?_, rfl, rfl, rfl, rfl⟩
  rw [State.advance_eq]
  dsimp only
  rw [Team.advance_flow]
  exact List.mem_append_right _ (List.mem_singleton_self _)

end Sys2Proof.Machine

namespace Sys2Proof.Claim
open Sys2Proof Sys2Proof.Machine

/-- Settles O26: the store leaves the team's core holding its bytes dirty, and a load lays the dirty bytes of its team over whatever the sector
is filled from. -/
theorem storeThenLoadReadsTheStore : Obligations.StoreThenLoadReadsTheStore := by
  unfold Obligations.StoreThenLoadReadsTheStore
  intro s s1 t t1 u d e a z i key hps hcs hrs hkey hva hun hst hpl hcl hrl hld
  obtain ⟨hdirty, hclean, hme, -⟩ := (State.teamReach_kept hrs).l1
  obtain ⟨clean, dirty, hstore, hown, hholds⟩ :=
    ((ownSector_of_undisturbed hun).congr (t := s1.newId.2) hdirty hclean rfl rfl).storeBytes hva
      (keyed key (leBytes z.bytes (s.me.s d).toNat))
  rw [exec_sst_plain hps hcs hrs, hstore, Host.Outcome.next.injEq] at hst
  have hteam : t.me = (s.me.addOp (opDone s.nextId .st (.start s) [] 0)).advance := by rw [← hst, ← hme]; rfl
  have hcore : t.me.core = s.me.core := by simp [hteam, Team.core, Team.addOp]
  have hid : t.me.id = s.me.id := by simp [hteam, Team.addOp]
  have haddr : t.me.scalarAddr a i z.bytes = s.me.scalarAddr a i z.bytes := by simp [hteam, Team.scalarAddr, Team.addOp, Team.a]
  obtain ⟨hdirty1, hclean1, -, -⟩ := (State.teamReach_kept hrl).l1
  have hdirtyT : t.dirty = dirty := by rw [← hst]; rfl
  have hcleanT : t.clean = clean := by rw [← hst]; rfl
  have hown1 : OwnSector t1.newId.2 t.me key (t.me.scalarAddr a i z.bytes) := by
    rw [haddr]
    exact hown.congr (hdirty1.trans hdirtyT) (hclean1.trans hcleanT) hcore hid
  have hholds1 : HoldsLast t1.newId.2 t.me key (keyed key (leBytes z.bytes (s.me.s d).toNat)) :=
    hholds.congr (hdirty1.trans hdirtyT) hcore hid
  have hread := hown1.loadBytes hholds1 (by rw [length_leBytes]; cases z <;> simp only [SSize.bytes] at hkey ⊢ <;> omega)
  obtain ⟨o, hmem, ho⟩ := exec_sld_plain hpl hcl hrl hld
  rw [length_leBytes] at hread
  rw [hread, leNat_leBytes] at ho
  rw [Nat.pow_mul]
  exact ⟨o, hmem, ho⟩

end Sys2Proof.Claim
end

section
/-!
O32: a fence ends by changing every record with the number of its team.
-/
namespace Sys2Proof.Machine
open Sys2Proof

/-- A team placed on a core, with nothing under way. -/
def fenceTeam : Team := { Team.absent with place := .on 0 0 0 }

/-- A second record under the number of that team, with an acquire fence that waits for nothing. -/
def fenceTwin : Team := fenceTeam.updFlow fun f => { f with fences := [⟨[], .team, 0, false, true⟩] }

/-- A state that holds both: nothing in the statement asks that team numbers differ. -/
def twinned : State := { State.reset with me := fenceTeam, teams := [fenceTwin] }

theorem check_twinned : twinned.check (.fenceAcq .team) = none := by decide

theorem exec_fenceAcq (o : Scope) (s : State) :
    exec (.fenceAcq o) s = run (.fenceAcq o) s fun s => s.fence o fun n => [acqPart o n] := rfl

/-- A fence noted by the team in issue. -/
def State.noteFence (s : State) (f : FenceHold) : State := s.setMe fun t => t.updFlow fun x => { x with fences := x.fences ++ [f] }

theorem State.acqBy_teams (s : State) (u : Team) (sc : Option Scope) : (s.acqBy u sc).teams = s.teams := by
  unfold State.acqBy
  split
  · rfl
  · split <;> rfl

/-- An acquire fence of a team with nothing outstanding ends at once, with the fences that head the records under the team's number. -/
theorem State.fence_acq_teams (s : State) (o : Scope) (hf : s.me.flow.fences = []) (hops : s.me.flow.ops = []) :
    (s.fence o fun n => [acqPart o n]).teams =
      s.teams.map fun t =>
        if t.id.tid = s.me.id.tid then t.updFlow fun x => { x with fences := x.fences.dropWhile fun f => f.over t.flow.ops } else t := by
  have hfence : (s.fence o fun n => [acqPart o n]) =
      ((s.noteFence (acqPart o s.nextId)).settleFences (s.noteFence (acqPart o s.nextId)).me.id.tid).advance := rfl
  have hnoted : (s.noteFence (acqPart o s.nextId)).me.flow.fences = [acqPart o s.nextId] := congrArg (· ++ _) hf
  have hnops : (s.noteFence (acqPart o s.nextId)).me.flow.ops = [] := hops
  rw [hfence, State.advance_eq, State.settleFences, State.team?_me]
  simp only [hnoted, hnops, List.cons_ne_nil, if_false]
  simp only [State.updTeam, acqPart, List.takeWhile, FenceHold.over, List.filter_nil, List.all_nil, List.any_cons, List.any_nil,
    Bool.false_and, Bool.or_false, List.foldl_cons, List.foldl_nil, Bool.false_eq_true, if_false, State.acqBy_teams]
  rfl

/-- The fence of the team in issue ends that of the other record. -/
theorem exec_fenceAcq_twinned : ∃ t, exec (.fenceAcq .team) twinned = .next t ∧ t.teams.map (·.flow.fences) = [[]] := by
  refine ⟨_, (exec_fenceAcq .team twinned).trans (run_of_vReads_nil _ check_twinned fun _ => rfl), ?_⟩
  rw [State.fence_acq_teams _ _ rfl rfl]
  rfl

end Sys2Proof.Machine

namespace Sys2Proof.Claim
open Sys2Proof Sys2Proof.Machine

/-- Refutes O32: an acquire fence that is over when it issues is dropped from every record that has the number of its team, so where a second
record has that number and a fence of its own, the word changes that record too, where the statement has it change its own team and the core's
clean copies alone. -/
theorem not_fencesAndWaitsOrderTheTeam : ¬ Obligations.FencesAndWaitsOrderTheTeam := by
  unfold Obligations.FencesAndWaitsOrderTheTeam
  intro h
  obtain ⟨⟨hacq, -⟩, -⟩ := h
  obtain ⟨t, ht, hw, -⟩ := (hacq twinned .team check_twinned rfl).1 rfl fun x hx => absurd hx List.not_mem_nil
  obtain ⟨u, hu, hfences⟩ := exec_fenceAcq_twinned
  rw [ht, Host.Outcome.next.injEq] at hu
  subst hu
  have hteams : t.teams = [fenceTwin] := congrArg State.teams hw.others
  rw [hteams] at hfences
  exact absurd hfences (by decide)

end Sys2Proof.Claim
end

section
/-!
O50: requests of the host and of remote devices: what a link lets through, bytes stored and read at home, remote atomics.
-/
namespace Sys2Proof.Machine
open Sys2Proof Claim

/-! ### Bytes stored and read at home (spec/08 R143) -/

theorem keyed_getElem? (a : Nat) (bs : List Byte) (i : Nat) : (keyed a bs)[i]? = bs[i]?.map fun b => (a + i, b) := by
  induction bs generalizing a i with
  | nil => simp [keyed]
  | cons b bs ih =>
    cases i with
    | zero => simp [keyed]
    | succ i => simp [keyed, ih, Nat.add_assoc, Nat.add_comm 1]

theorem map_fst_keyed (a : Nat) (bs : List Byte) : (keyed a bs).map (·.1) = List.range' a bs.length := by
  induction bs generalizing a with
  | nil => rfl
  | cons b bs ih => simp [keyed, ih, List.range'_succ]

theorem key_of_mem_keyed {a : Nat} {bs : List Byte} {x : Nat × Byte} (h : x ∈ keyed a bs) : a ≤ x.1 ∧ x.1 < a + bs.length := by
  have hx : x.1 ∈ (keyed a bs).map (·.1) := List.mem_map_of_mem h
  rw [map_fst_keyed, List.mem_range'_1] at hx
  exact hx

/-- Bytes performed at consecutive keys are stored there. -/
theorem Performed.storedAt {s t : State} {key : Nat} {bs : List Byte} (h : Performed s t (keyed key bs)) (hw : Memory.wf s.mem = true) :
    StoredAt s t key bs := by
  obtain ⟨_, rfl⟩ := h
  refine ⟨fun i hi => readCell_writePairs_mem hw _ (by rw [map_fst_keyed]; exact List.nodup_range') ?_, fun a ha => ?_⟩
  · refine List.mem_of_getElem? (i := i) ?_
    rw [keyed_getElem?, List.getElem?_eq_getElem hi, List.getD_eq_getElem _ _ hi]
    rfl
  · exact readCell_writePairs_other hw _ a fun c hc hca => ha (hca ▸ key_of_mem_keyed hc)

theorem not_poisoned_of_sound {s : State} {key : Nat} {bs : List Byte} (h : Sound s key bs.length) :
    ∀ x ∈ keyed key bs, s.poisoned x.1 = false := by
  intro x hx
  obtain ⟨hlo, hhi⟩ := key_of_mem_keyed hx
  have := h (x.1 - key) (by omega)
  rwa [Nat.add_sub_cancel' hlo] at this

theorem homeBytes_of_sound {s : State} {a n : Nat} (h : Sound s a n) : s.homeBytes a n = (List.range n).map fun i => s.homeByte (a + i) := by
  induction n generalizing a with
  | zero => rfl
  | succ n ih =>
    have h0 := h 0 (Nat.succ_pos n)
    have hrest : Sound s (a + 1) n := fun b hb => by
      have := h (b + 1) (by omega)
      rwa [Nat.add_assoc, Nat.add_comm 1]
    rw [Nat.add_zero] at h0
    rw [State.homeBytes, h0, ih hrest, List.range_succ_eq_map, List.map_cons, List.map_map]
    simp [Function.comp_def, Nat.add_assoc, Nat.add_comm 1]

theorem readPoison_of_clear {s : State} {a n : Nat} (h : ∀ p ∈ s.poison, p + 32 ≤ a ∨ a + n ≤ p) (ctx gen : Nat) :
    s.readPoison ctx gen a n = s := by
  have hnone : (s.poison.find? fun p => decide (p < a + n) && decide (a < p + 32)) = none := by
    refine List.find?_eq_none.2 fun p hp => ?_
    have := h p hp
    simp only [Bool.and_eq_true, decide_eq_true_eq]
    omega
  rw [State.readPoison, hnone]

/-! ### A request over a link (spec/22 R324) -/

section
variable {s : State} {p : Fin 33} (pa : Nat) (down k : State → State)

theorem State.arrive_up (h : s.links[p].state = 1) : s.arrive p pa down k = k s := by
  rw [State.arrive, h]
  rfl

theorem State.arrive_retrains (h : 1 < s.links[p].state) : s.arrive p pa down k = s := by
  unfold State.arrive
  split
  · omega
  · omega
  · rfl

/-- The report of a request over a link that is DOWN. -/
def State.linkReport (s : State) (p : Fin 33) (pa : Nat) : State :=
  s.report 3 (if p = 32 then 5 else 4) (if p = 32 then 0 else p.val) 0xFFFFFFFF 0 0 pa

theorem State.arrive_down (h : s.links[p].state = 0) : s.arrive p pa down k = down (s.linkReport p pa) := by
  rw [State.arrive, h]
  rfl

/-- What the report leaves: memory where there is no log ring, and what the host and remote devices have been answered. -/
theorem State.linkReport_keeps (s : State) (p : Fin 33) (pa : Nat) :
    (s.linkReport p pa).outside = s.outside ∧ (s.io.logbase = 0 → (s.linkReport p pa).mem = s.mem) := by
  refine ⟨?_, fun h => ?_⟩
  · obtain ⟨_, _, _, _, _, he⟩ := s.report_homeWork 3 (if p = 32 then 5 else 4) (if p = 32 then 0 else p.val) 0xFFFFFFFF 0 0 pa
    rw [State.linkReport, he]
  · obtain ⟨_, he, -⟩ := State.report_of_logbase_zero 3 (if p = 32 then 5 else 4) (if p = 32 then 0 else p.val) 0xFFFFFFFF 0 0 pa h
    rw [State.linkReport, he]

theorem State.linkReport_held (s t : State) (p : Fin 33) (pa : Nat) (ht : t.io = (s.linkReport p pa).io) :
    ReportHeld s t 3 (if p = 32 then 5 else 4) (if p = 32 then 0 else p.val) pa := fun hl hr =>
  ⟨_, ht ▸ State.report_held 3 _ _ 0xFFFFFFFF 0 0 pa hl hr, rfl, rfl, rfl, rfl⟩

end

/-! ### Remote atomics (spec/10 R178, R181) -/

theorem leBytes_congr {n x y : Nat} (h : x % 2 ^ (8 * n) = y % 2 ^ (8 * n)) : leBytes n x = leBytes n y := by
  rw [Nat.pow_mul] at h
  change x % 256 ^ n = y % 256 ^ n at h
  induction n generalizing x y with
  | zero => rfl
  | succ n ih =>
    rw [Nat.pow_succ', Nat.mod_mul, Nat.mod_mul] at h
    have hlow : x % 256 = y % 256 := by omega
    have hhigh : x / 256 % 256 ^ n = y / 256 % 256 ^ n := by omega
    rw [leBytes, leBytes, ih hhigh]
    congr 1
    exact BitVec.eq_of_toNat_eq (by simpa using hlow)

theorem readCells_lt {m : List Host.Cell} (h : Memory.wf m = true) (a n : Nat) : readCells m a n < 256 ^ n := by
  induction n generalizing a with
  | zero =>
    rw [readCells_congr h (m' := []) rfl a 0 fun b h1 h2 => absurd h2 (by omega)]
    exact Nat.one_pos
  | succ n ih =>
    have := ih (a + 1)
    have hb := (readCell m a).isLt
    rw [readCells_succ h, Nat.pow_succ']
    omega

/-- The bytes of a remote atomic. -/
theorem remoteBytes_atomic (op : RemoteOp) (w : AtWidth) (x y : W64) : remoteBytes (.atomic op w x y) = atomicBytes op w := by
  cases op <;> cases w <;> rfl

/-- Signed numbers compare as their patterns with the sign bit turned. -/
theorem signedOf_le_iff {w x y : Nat} (hw : 0 < w) (hx : x < 2 ^ w) (hy : y < 2 ^ w) :
    signedOf w x ≤ signedOf w y ↔ (x + 2 ^ (w - 1)) % 2 ^ w ≤ (y + 2 ^ (w - 1)) % 2 ^ w := by
  obtain ⟨v, rfl⟩ : ∃ v, w = v + 1 := ⟨w - 1, by omega⟩
  have hturn (z : Nat) (hz : z < 2 ^ (v + 1)) :
      (z + 2 ^ v) % 2 ^ (v + 1) = if 2 ^ v ≤ z then z - 2 ^ v else z + 2 ^ v := by
    rw [Nat.pow_succ] at hz ⊢
    split
    · rw [Nat.mod_eq_sub_mod (by omega), Nat.mod_eq_of_lt (by omega)]
      omega
    · exact Nat.mod_eq_of_lt (by omega)
  simp only [signedOf, Nat.add_sub_cancel, Nat.mod_eq_of_lt hx, Nat.mod_eq_of_lt hy, hturn x hx, hturn y hy]
  have hpow : (2 : Int) ^ (v + 1) = ((2 ^ v * 2 : Nat) : Int) := by push_cast; ring
  rw [hpow]
  rw [Nat.pow_succ] at hx hy
  split <;> split <;> omega

/-- The new value of a remote atomic is that of the rule. -/
theorem remoteNew_mod {op : RemoteOp} {w : AtWidth} {n x old : Nat} (y : Nat) (hn : n = atomicBytes op w) (hx : x < 2 ^ (8 * n))
    (hold : old < 2 ^ (8 * n)) :
    remoteNew op (8 * n) x y old % 2 ^ (8 * n) = remoteRule op (8 * n) x old y % 2 ^ (8 * n) := by
  have hpos : 0 < n := by rw [hn]; cases op <;> cases w <;> decide
  cases op with
  | add => rw [remoteNew, remoteRule, Nat.mod_mod]
  | sub =>
    rw [remoteNew, remoteRule, Nat.mod_mod]
    congr 1
    omega
  | addF =>
    subst hn
    simp only [atomicBytes] at hx hold ⊢
    simp only [remoteNew, remoteRule, sumRule, addF32, Fmt.add, BitVec.toNat_ofNat]
    rw [Nat.mod_eq_of_lt (by omega : old < 2 ^ 32), Nat.mod_eq_of_lt (by omega : x < 2 ^ 32)]
    omega
  | maxF =>
    subst hn
    simp only [atomicBytes] at hx hold ⊢
    simp only [remoteNew, remoteRule, maxF32, minmax_eq_minmaxRule, BitVec.toNat_ofNat]
    rw [Nat.mod_eq_of_lt (by omega : old < 2 ^ 32), Nat.mod_eq_of_lt (by omega : x < 2 ^ 32)]
    omega
  | min | max | and | or | xor | xchg | cas => rfl
  | minn | maxn => simp only [remoteNew, remoteRule, signedOf_le_iff (by omega : 0 < 8 * n) hold hx]

/-! ### The events (spec/08 R156, R157; spec/18 R287) -/

section
variable {s : State} (hb : s.boot = .up)
include hb

theorem exec_hostStore_up (pa : Nat) (bs : List Byte) :
    exec (.hostStore pa bs) s = .next (s.arrive 32 pa id fun s =>
      let s1 := s.homeStore 0xFFFFFFFF 0 pa ((keyed pa bs).filter fun x => s.isDevice x.1)
      { s1 with outside := { s1.outside with acked := s1.outside.acked + 1 } }) :=
  congrArg Host.Outcome.next (if_pos hb)

theorem exec_hostLoad_up {pa n : Nat} (hd : s.deviceRange pa n = true) :
    exec (.hostLoad pa n) s = .next (s.arrive 32 pa (·.hostAnswer (List.replicate n 0xFF)) fun s =>
      (s.readPoison 0xFFFFFFFF 0 pa n).hostAnswer ((s.readPoison 0xFFFFFFFF 0 pa n).homeBytes pa n)) :=
  congrArg Host.Outcome.next (if_pos ⟨hb, hd⟩)

/-- The port of a device among the links. -/
def portLink (dev : Nat) : Fin 33 := (Config.portOf dev).castLE (by decide)

theorem exec_remoteRequest_up (dev pa : Nat) (k : RemoteKind) :
    exec (.remoteRequest dev pa k) s = .next (s.arrive (portLink dev) pa (·.remoteAnswer true (remotePoison k)) fun s =>
      if s.exported dev pa (remoteBytes k) then s.remoteServe pa k else s.remoteAnswer false []) :=
  congrArg Host.Outcome.next (if_neg (not_not.2 hb))

theorem exec_remoteRequest_served {dev pa : Nat} {k : RemoteKind} (hl : portState s dev = 1) (he : s.exported dev pa (remoteBytes k) = true) :
    exec (.remoteRequest dev pa k) s = .next (s.remoteServe pa k) := by
  rw [exec_remoteRequest_up hb, State.arrive_up (p := portLink dev) _ _ _ hl, if_pos he]

theorem exec_remoteRequest_refused {dev pa : Nat} {k : RemoteKind} (hl : portState s dev = 1) (he : s.exported dev pa (remoteBytes k) = false) :
    exec (.remoteRequest dev pa k) s = .next (s.remoteAnswer false []) := by
  rw [exec_remoteRequest_up hb, State.arrive_up (p := portLink dev) _ _ _ hl, he]
  rfl

end

theorem portLink_ne (dev : Nat) : portLink dev ≠ 32 := fun h => by
  have hv := congrArg Fin.val h
  have := (Config.portOf dev).isLt
  simp [portLink] at hv
  omega

end Sys2Proof.Machine

namespace Sys2Proof.Claim
open Sys2Proof Sys2Proof.Machine

/-- A host store of device memory that nothing has poisoned. -/
theorem hostStore_stores {s : State} {pa : Nat} {bs : List Byte} (hb : s.boot = .up) (hl : s.links[32].state = 1)
    (hd : ∀ a, pa ≤ a → a < pa + bs.length → s.isDevice a = true) (hs : Sound s pa bs.length) (hw : Memory.wf s.mem = true) :
    ∃ t, exec (.hostStore pa bs) s = .next t ∧ StoredAt s t pa bs ∧ t.outside.acked = s.outside.acked + 1 ∧ t.me = s.me ∧
      t.teams = s.teams := by
  have hall : ((keyed pa bs).filter fun x => s.isDevice x.1) = keyed pa bs := List.filter_eq_self.2 fun x hx => by
    obtain ⟨hlo, hhi⟩ := key_of_mem_keyed hx
    exact hd x.1 hlo hhi
  have hp := State.homeStore_of_sound (not_poisoned_of_sound hs) 0xFFFFFFFF 0 pa
  refine ⟨_, (exec_hostStore_up hb pa bs).trans (by rw [State.arrive_up (p := 32) _ _ _ hl]), ?_⟩
  dsimp only
  rw [hall]
  obtain ⟨hread, hrest⟩ := hp.storedAt hw
  refine ⟨⟨hread, hrest⟩, ?_⟩
  obtain ⟨_, he⟩ := hp
  rw [he]
  exact ⟨rfl, rfl, rfl⟩

/-- A remote atomic on bytes that nothing has poisoned. -/
theorem remoteServe_atomic {s : State} {pa n : Nat} {op : RemoteOp} {w : AtWidth} (x y : W64) (hn : n = atomicBytes op w) (hs : Sound s pa n)
    (hw : Memory.wf s.mem = true) :
    (s.remoteServe pa (.atomic op w x y)).outside.remoteOk = true ∧
      (s.remoteServe pa (.atomic op w x y)).outside.remoteData = leBytes n (s.homeNat pa n) ∧
      StoredAt s (s.remoteServe pa (.atomic op w x y)) pa
        (leBytes n (remoteRule op (8 * n) (x.toNat % 2 ^ (8 * n)) (s.homeNat pa n) (y.toNat % 2 ^ (8 * n)))) := by
  have hpos : 0 < n := by rw [hn]; cases op <;> cases w <;> decide
  have hp : s.poisoned pa = false := hs 0 hpos
  have hold : s.homeNat pa n < 2 ^ (8 * n) := Nat.pow_mul 2 8 n ▸ readCells_lt hw pa n
  have hnew := remoteNew_mod (x := x.toNat % 2 ^ (8 * n)) (y.toNat % 2 ^ (8 * n)) hn (Nat.mod_lt _ (Nat.two_pow_pos _)) hold
  have hbytes := leBytes_congr ((Nat.mod_mod _ _).trans hnew)
  simp only [State.remoteServe, remoteBytes_atomic, ← hn, State.homeAtomic, hp, Bool.false_eq_true, if_false]
  rw [hbytes]
  have hstored (bs : List (Nat × Byte)) : Performed s (s.perform bs) bs := ⟨_, rfl⟩
  exact ⟨rfl, rfl, (hstored _).storedAt hw⟩

/-- Settles O50: a request comes to what its link lets through (`State.arrive`), and then stores or reads its bytes at home. -/
theorem hostAndRemoteRequestsAtHome : Obligations.HostAndRemoteRequestsAtHome := by
  unfold Obligations.HostAndRemoteRequestsAtHome
  refine ⟨fun s pa n dev bs hb => ⟨congrArg Host.Outcome.next (if_neg hb), congrArg Host.Outcome.next (if_neg fun h => hb h.1),
      congrArg Host.Outcome.next (if_neg fun h => hb h.1)⟩,
    fun s pa bs hb hl hd _ hs hw => hostStore_stores hb hl hd hs hw, fun s pa n bs hb hl => ⟨?_, ?_⟩, fun s pa n bs hb hl => ⟨?_, fun hd => ?_⟩,
    fun s pa n hb hl hd hs hp => ?_, fun s dev pa k h => ?_, fun s dev pa k hb => ⟨fun hl => ?_, fun hl => ?_⟩,
    fun s dev pa n hb hl he hs hp => ?_, fun s dev pa bs hb hl he hs hw => ?_, fun s dev pa n op w x y hb hl hn he hs hw => ?_,
    fun s pa dev hb => ?_⟩
  · rw [exec_hostStore_up hb, State.arrive_retrains (p := 32) _ _ _ hl]
  · cases hd : s.deviceRange pa n with
    | false => exact congrArg Host.Outcome.next (if_neg fun h => Bool.false_ne_true (hd.symm.trans h.2))
    | true => rw [exec_hostLoad_up hb hd, State.arrive_retrains (p := 32) _ _ _ hl]
  · obtain ⟨hout, hmem⟩ := State.linkReport_keeps s 32 pa
    refine ⟨s.linkReport 32 pa, ?_, State.linkReport_held s _ 32 pa rfl, hout, hmem⟩
    rw [exec_hostStore_up hb, State.arrive_down (p := 32) _ _ _ hl]
    rfl
  · obtain ⟨-, hmem⟩ := State.linkReport_keeps s 32 pa
    exact ⟨(s.linkReport 32 pa).hostAnswer (List.replicate n 0xFF),
      (exec_hostLoad_up hb hd).trans (by rw [State.arrive_down (p := 32) _ _ _ hl]), State.linkReport_held s _ 32 pa rfl, rfl, hmem⟩
  · refine ⟨s.hostAnswer (s.homeBytes pa n), ?_, homeBytes_of_sound hs, rfl⟩
    rw [exec_hostLoad_up hb hd, State.arrive_up (p := 32) _ _ _ hl, readPoison_of_clear hp]
  · refine ⟨s.remoteAnswer false [], ?_, rfl, rfl⟩
    by_cases hb : s.boot = .up
    · obtain ⟨hl, he⟩ := h.resolve_left (not_not.2 hb)
      exact exec_remoteRequest_refused hb hl he
    · exact congrArg Host.Outcome.next (if_pos hb)
  · rw [exec_remoteRequest_up hb, State.arrive_retrains (p := portLink dev) _ _ _ hl]
  · obtain ⟨-, hmem⟩ := State.linkReport_keeps s (portLink dev) pa
    have hheld := State.linkReport_held s ((s.linkReport (portLink dev) pa).remoteAnswer true (remotePoison k)) (portLink dev) pa rfl
    rw [if_neg (portLink_ne dev), if_neg (portLink_ne dev)] at hheld
    refine ⟨(s.linkReport (portLink dev) pa).remoteAnswer true (remotePoison k), ?_, hheld, ?_, hmem⟩
    · rw [exec_remoteRequest_up hb, State.arrive_down (p := portLink dev) _ _ _ hl]
    · cases k with
      | load n => rfl
      | store bs => rfl
      | atomic op w x y => exact congrArg (List.replicate · 0xFF) (remoteBytes_atomic op w x y)
  · refine ⟨_, exec_remoteRequest_served hb hl he, rfl, homeBytes_of_sound hs, ?_⟩
    rw [State.remoteServe, readPoison_of_clear hp]
    rfl
  · exact ⟨_, exec_remoteRequest_served hb hl he, rfl, (State.homeStore_of_sound (not_poisoned_of_sound hs) 0xFFFFFFFF 0 pa).storedAt hw⟩
  · refine ⟨_, exec_remoteRequest_served hb hl ?_, remoteServe_atomic x y hn hs hw⟩
    rwa [remoteBytes_atomic, ← hn]
  · by_cases hc : s.exports.contains (pa / 4096, dev) = true
    · refine ⟨s, congrArg Host.Outcome.next (if_neg fun h => h.2 hc), rfl, fun f d => ⟨.inl, fun h => h.elim id ?_⟩⟩
      rintro ⟨rfl, rfl⟩
      exact List.contains_iff_mem.1 hc
    · refine ⟨{ s with exports := (pa / 4096, dev) :: s.exports }, congrArg Host.Outcome.next (if_pos ⟨hb, hc⟩), rfl, fun f d => ?_⟩
      rw [List.mem_cons, Prod.mk.injEq, or_comm]

end Sys2Proof.Claim
end

section
/-!
O36: after the release of `tbar.tbarr` its arrival takes a later number, and meets an operation that its first number did not.
-/
namespace Sys2Proof.Machine
open Sys2Proof

/-- An acquiring load still to be performed, under the number that the next operation takes. -/
def earlyOp : Op := ⟨1, .ld, false, false, [], [], [], [.device], some .clu, none, none⟩

/-- A team on core 0 with that load, in a bundle. -/
def earlyTeam : Team :=
  { Team.absent with
    id := { Team.absent.id with bundle := some 0 }
    place := .on 0 0 0
    flow := { Flow.start with ops := [earlyOp] } }

/-- The bundle, with 16 bytes of the cluster store of cluster 0. -/
def earlyBundle : Bundle := ⟨0, 0, 0, 0, 0, 0, [], 0, false, 0, 0, 0, 0, [(0, 0, 16)], 0, false, [], [], []⟩

/-- A state with that team and one dirty sector of it for a release to write back: nothing in the statement asks that the numbers of operations lie
below the next one. -/
def earlyState : State :=
  { State.reset with
    me := earlyTeam
    bundles := [earlyBundle]
    dirty := [⟨0, 0, 0, none, noCtx, 0, 0, [], false⟩] }

/-- What the release leaves. -/
def earlyReleased : State := { earlyState with dirty := [] }

theorem exec_tbarTbarr (a : SReg) (o : Scope) (s : State) :
    exec (.tbarTbarr a o) s = run (.tbarTbarr a o) s fun s => s.barAccess (.tbarTbarr a o) .sg a [] tbarrEffect := rfl

theorem check_earlyState : earlyState.check (.tbarTbarr 0 .clu) = none := by decide

theorem release_earlyState : earlyState.release earlyState.me.id.tid .clu = (earlyReleased, true) := by rfl

theorem earlyState_free : ¬ Claim.HeldBack earlyState earlyState.me (.tbarTbarr 0 .clu) 3 [⟨0, 0, cstoreKey 0 0, 3⟩] := by
  unfold Claim.HeldBack
  decide

/-- The release writes the sector back and takes number 1 for it, so that the arrival takes number 2 and the load of number 1, which was not before
it, now holds it back. -/
theorem exec_tbarTbarr_earlyState : ∃ t, exec (.tbarTbarr 0 .clu) earlyState = .next t ∧ t.nextId = 3 ∧
    t.me.flow.ops.map (fun o => (o.id, o.cls, o.ready)) = [(1, .ld, false), (1, .st, true), (2, .sg, false)] :=
  ⟨_, (exec_tbarTbarr 0 .clu earlyState).trans (run_of_vReads_nil _ check_earlyState fun _ => rfl), rfl, rfl⟩

end Sys2Proof.Machine

namespace Sys2Proof.Claim
open Sys2Proof Sys2Proof.Machine

/-- Refutes O36: the statement asks that nothing holds the arrival of `tbar.tbarr` back under the next number of an operation, but a release that
writes sectors back takes that number first. Where an acquiring load that is still to be performed has that very number, the arrival is before it
with the first number and behind it with the second, so its operation is outstanding, where the statement has it performed. -/
theorem not_barrierWordsUpdateTheBarrier : ¬ Obligations.BarrierWordsUpdateTheBarrier := by
  unfold Obligations.BarrierWordsUpdateTheBarrier
  intro h
  obtain ⟨-, hbarr, -⟩ := h
  have hbar : BarrierAt earlyState (earlyState.me.s 0).toNat (cstoreKey 0 0) := by
    unfold BarrierAt Sound
    decide
  obtain ⟨t, ht, -, -, -, -, ⟨x, hx, hid, -, hready, -⟩, -⟩ := hbarr earlyState earlyReleased 0 .clu (cstoreKey 0 0) check_earlyState hbar
    ⟨rfl, earlyState_free, rfl⟩ release_earlyState hbar.2.2 rfl
  obtain ⟨u, hu, hnext, hops⟩ := exec_tbarTbarr_earlyState
  rw [ht, Host.Outcome.next.injEq] at hu
  subst hu
  have hmem : (x.id, x.cls, x.ready) ∈ [(1, .ld, false), (1, .st, true), (2, .sg, false)] := hops ▸ List.mem_map_of_mem hx
  rw [hready, show x.id = 2 by omega] at hmem
  simp at hmem

end Sys2Proof.Claim
end

section
/-!
PROOFS. Shared laws of barriers and copies (spec/09 R163 to R168): numbers written at home and read back, what write-backs and fences leave unchanged,
the fields of a barrier after an update.
-/
namespace Sys2Proof.Machine
open Sys2Proof

/-! ### Numbers at home (spec/00 R4) -/

/-- Bytes written at consecutive keys are read back as their number. -/
theorem readCells_writePairs_keyed {m : List Host.Cell} (h : Memory.wf m = true) (a : Nat) (bs : List Byte) :
    readCells (writePairs m (keyed a bs)) a bs.length = leNat bs := by
  induction bs generalizing m a with
  | nil => exact readCells_congr h (m' := []) rfl a 0 fun b h1 h2 => absurd h2 (by omega)
  | cons b bs ih =>
    have hw := Memory.wf_writeCell a b h
    have hb : readCell (writePairs (writeCell m a b) (keyed (a + 1) bs)) a = b := by
      rw [readCell_writePairs_other hw _ a fun c hc => by have := key_of_mem_keyed hc; omega, readCell_writeCell h, if_pos rfl]
    rw [keyed, writePairs, List.length_cons, readCells_succ (Memory.wf_writePairs _ hw), hb, ih hw, leNat]

/-- A number performed at a key is read back there. -/
theorem State.homeNat_perform {s : State} (hw : Memory.wf s.mem = true) (a n x : Nat) (hx : x < 256 ^ n) :
    (s.perform (keyed a (leBytes n x))).homeNat a n = x := by
  have := readCells_writePairs_keyed hw a (leBytes n x)
  rwa [length_leBytes, leNat_leBytes, Nat.mod_eq_of_lt hx] at this

/-- A byte that no write names stays. -/
theorem State.homeByte_perform {s : State} (hw : Memory.wf s.mem = true) {bs : List (Nat × Byte)} {k : Nat} (hk : ∀ c ∈ bs, c.1 ≠ k) :
    (s.perform bs).homeByte k = s.homeByte k := readCell_writePairs_other hw bs k hk

/-! ### What stores at home, write-backs and fences leave unchanged (spec/08 R152, R155) -/

theorem State.storeSector_homeWork (s : State) (ctx gen va : Nat) (bs : List (Nat × Byte)) : HomeWork s (s.storeSector ctx gen va bs) := by
  unfold State.storeSector
  split
  · exact .refl s
  · split
    · exact s.poisonReport_homeWork ..
    · split
      · split
        · exact ⟨_, _, _, _, _, rfl⟩
        · exact s.poisonReport_homeWork ..
      · exact s.perform_homeWork _

theorem State.homeStore_homeWork (s : State) (ctx gen va : Nat) (bs : List (Nat × Byte)) : HomeWork s (s.homeStore ctx gen va bs) := by
  unfold State.homeStore
  split
  · exact .refl s
  · exact foldl_keeps (P := HomeWork s) (fun t _ ht => ht.trans (t.storeSector_homeWork ..)) _ (.refl s)

theorem State.flushPrqN_keeps (n : Nat) (s : State) :
    HomeWork s (s.flushPrqN n) ∧ (s.flushPrqN n).io.held = s.io.held ∧ (s.flushPrqN n).io.logbase = s.io.logbase := by
  induction n generalizing s with
  | zero => exact ⟨.refl s, rfl, rfl⟩
  | succ n ih =>
    unfold State.flushPrqN
    split
    · exact ⟨.refl s, rfl, rfl⟩
    · dsimp only
      split
      · obtain ⟨hw, hh, hl⟩ := ih _
        exact ⟨HomeWork.trans ⟨_, _, _, _, _, rfl⟩ hw, hh, hl⟩
      · exact ⟨.refl s, rfl, rfl⟩

/-- Beside the sectors of the L1s and their teams, the cached translations and work at home, everything is as it was. -/
def WriteBackWork (s t : State) : Prop :=
  ∃ me teams dirty clean tlb dtlb icache fresh, HomeWork
    { s with me := me, teams := teams, dirty := dirty, clean := clean, tlb := tlb, dtlb := dtlb, icache := icache, fresh := fresh } t

theorem WriteBackWork.refl (s : State) : WriteBackWork s s := ⟨_, _, _, _, _, _, _, _, .refl s⟩

theorem WriteBackWork.trans {s t u : State} (h : WriteBackWork s t) (h' : WriteBackWork t u) : WriteBackWork s u := by
  obtain ⟨_, _, _, _, _, _, _, _, _, _, _, _, _, rfl⟩ := h
  obtain ⟨_, _, _, _, _, _, _, _, _, _, _, _, _, rfl⟩ := h'
  exact ⟨_, _, _, _, _, _, _, _, _, _, _, _, _, rfl⟩

theorem FetchKept.writeBackWork {s t : State} (h : FetchKept s t) : WriteBackWork s t := by
  obtain ⟨_, _, _, _, rfl⟩ := h
  exact ⟨_, _, _, _, _, _, _, _, .refl _⟩

theorem State.writeBackOld_work (s : State) (d : Dirty) : WriteBackWork s (s.writeBackOld d) :=
  ⟨_, _, _, _, _, _, _, _, State.homeStore_homeWork _ _ _ _ _⟩

theorem State.lose_work (s : State) (d : Dirty) : WriteBackWork s (s.lose d) := ⟨_, _, _, _, _, _, _, _, s.lose_homeWork d⟩

theorem State.pin_work (s : State) (d : Dirty) (byRel : Bool) : WriteBackWork s (s.pin d byRel) := ⟨_, _, _, _, _, _, _, _, .refl _⟩

theorem State.writeBack_work (s : State) (d : Dirty) (byRel : Bool) : WriteBackWork s (s.writeBack d byRel).1 := by
  unfold State.writeBack
  split
  · exact s.writeBackOld_work d
  · have hk := s.translate_fetchKept (d.core / 8) d.ctx d.gen .store d.va.toNat
    split
    · next h =>
      rw [h] at hk
      exact hk.writeBackWork.trans ⟨_, _, _, _, _, _, _, _, State.homeStore_homeWork _ _ _ _ _⟩
    · next h =>
      rw [h] at hk
      dsimp only
      split
      · exact hk.writeBackWork.trans (State.pin_work _ _ _)
      · exact hk.writeBackWork.trans (State.lose_work _ _)

theorem State.writeBackAll_work (ds : List Dirty) (s : State) (byRel : Bool) : WriteBackWork s (s.writeBackAll byRel ds).1 := by
  induction ds generalizing s with
  | nil => exact .refl s
  | cons d ds ih => exact (s.writeBack_work d byRel).trans (ih _)

/-- Fences that are over change the teams, and by their acquires and releases the clean copies and what snapshots may miss. -/
theorem State.settleFences_eq (s : State) (tid : Nat) :
    ∃ me teams clean edits, s.settleFences tid = { s with me := me, teams := teams, clean := clean, edits := edits } := by
  unfold State.settleFences
  split
  · exact ⟨_, _, _, _, rfl⟩
  · split
    · exact ⟨_, _, _, _, rfl⟩
    · next t _ _ =>
      dsimp only
      have hfold (u : State) (fs : List FenceHold) : ∃ clean edits,
          fs.foldl (fun s f => s.acqBy t (if f.acq then some f.scope else none)) u = { u with clean := clean, edits := edits } := by
        refine foldl_keeps (P := fun v => ∃ clean edits, v = ({ u with clean := clean, edits := edits } : State)) ?_ fs ⟨_, _, rfl⟩
        rintro v f ⟨_, _, rfl⟩
        unfold State.acqBy
        split
        · exact ⟨_, _, rfl⟩
        · split <;> exact ⟨_, _, rfl⟩
      split
      · obtain ⟨_, _, he⟩ := hfold (s.fencedEdits tid) (t.flow.fences.takeWhile fun f => f.over t.flow.ops)
        rw [he]
        exact ⟨_, _, _, _, rfl⟩
      · obtain ⟨_, _, he⟩ := hfold s (t.flow.fences.takeWhile fun f => f.over t.flow.ops)
        rw [he]
        exact ⟨_, _, _, _, rfl⟩

/-! ### The fields of a barrier (spec/09 R166) -/

theorem barFields_lt (b : Nat) : barPhase b < 2 ^ 4 ∧ barArrivals b < 2 ^ 20 ∧ barSectors b < 2 ^ 32 ∧ barStatus b < 2 ^ 3 ∧ barReload b < 2 ^ 20 :=
  ⟨Nat.mod_lt _ (by decide), Nat.mod_lt _ (by decide), Nat.mod_lt _ (by decide), Nat.mod_lt _ (by decide), Nat.mod_lt _ (by decide)⟩

/-- A barrier that its fields make. -/
structure BarIs (b p a n st r : Nat) : Prop where
  phase    : barPhase b = p
  arrivals : barArrivals b = a
  sectors  : barSectors b = n
  status   : barStatus b = st
  reload   : barReload b = r
  small    : b < 256 ^ 16

theorem barMake_is {p a n st r : Nat} (hp : p < 2 ^ 4) (ha : a < 2 ^ 20) (hn : n < 2 ^ 32) (hst : st < 2 ^ 3) (hr : r < 2 ^ 20) :
    BarIs (barMake p a n st r) p a n st r := by
  constructor <;> simp only [barPhase, barArrivals, barSectors, barStatus, barReload, barMake] <;> omega

/-- One sector counted off leaves the fields of the rule. -/
theorem barOff_rule (stuck : Bool) {st : Nat} (hst : st < 2 ^ 3) (b : Nat) :
    (barPhase (barOff stuck st b), barArrivals (barOff stuck st b), barSectors (barOff stuck st b), barStatus (barOff stuck st b)) =
      Claim.offRule stuck st b ∧ barOff stuck st b < 256 ^ 16 := by
  obtain ⟨hp, ha, hn, hs, hr⟩ := barFields_lt b
  have hor := Nat.or_lt_two_pow hs hst
  obtain ⟨h1, h2, h3, h4, h5, h6⟩ := barMake_is hp ha (Nat.lt_of_le_of_lt (Nat.sub_le _ 1) hn) hor hr
  have hnext := barMake_is (p := (barPhase b + 1) % 16) (Nat.mod_lt _ (by decide)) hr (Nat.two_pow_pos 32) hor hr
  unfold barOff barNext Claim.offRule
  rw [h1, h2, h3, h4, h5]
  by_cases hc : barArrivals b = 0 ∧ barSectors b - 1 = 0 ∧ ¬ stuck = true
  · rw [if_pos hc, if_pos ⟨hc.1, Nat.sub_eq_zero_iff_le.1 hc.2.1, Bool.not_eq_true _ ▸ hc.2.2⟩]
    obtain ⟨g1, g2, g3, g4, -, g6⟩ := hnext
    exact ⟨by rw [g1, g2, g3, g4], g6⟩
  · rw [if_neg hc, if_neg fun h => hc ⟨h.1, Nat.sub_eq_zero_iff_le.2 h.2.1, by rw [h.2.2]; decide⟩]
    exact ⟨by rw [h1, h2, h3, h4], h6⟩

/-- Sectors added leave the other counts. -/
theorem barAdd_rule (n b : Nat) : barPhase (barAdd n b) = barPhase b ∧ barArrivals (barAdd n b) = barArrivals b ∧
    barSectors (barAdd n b) = min (2 ^ 32 - 1) (barSectors b + n) ∧ barAdd n b < 256 ^ 16 := by
  obtain ⟨hp, ha, hn, hs, hr⟩ := barFields_lt b
  unfold barAdd barMark
  split
  · next h =>
    obtain ⟨h1, h2, h3, h4, h5, -⟩ := barMake_is hp ha (by decide : 2 ^ 32 - 1 < 2 ^ 32) hs hr
    obtain ⟨g1, g2, g3, -, -, g6⟩ := barMake_is hp ha (by decide : 2 ^ 32 - 1 < 2 ^ 32) (Nat.or_lt_two_pow hs (by decide : barError < 2 ^ 3)) hr
    rw [h1, h2, h3, h4, h5]
    exact ⟨g1, g2, g3.trans (by omega), g6⟩
  · next h =>
    obtain ⟨h1, h2, h3, -, -, h6⟩ := barMake_is hp ha (Nat.not_le.1 h) hs hr
    exact ⟨h1, h2, h3.trans (by omega), h6⟩

/-! ### Barriers updated at home (spec/09 R167) -/

/-- A release of waiters leaves the team in issue where it waits for none. -/
theorem State.barRelease_me {s : State} (h : s.me.flow.hold = .none) (key : Nat) : (s.barRelease key).me = s.me := by
  simp only [State.barRelease, h]

@[simp] theorem State.barRelease_homeNat (s : State) (key a n : Nat) : (s.barRelease key).homeNat a n = s.homeNat a n := rfl
@[simp] theorem State.barRelease_homeByte (s : State) (key a : Nat) : (s.barRelease key).homeByte a = s.homeByte a := rfl

/-- Waiters aside, a barrier updated is bytes performed. -/
theorem State.barUpdate_of_sound {s : State} {key : Nat} (hp : s.poisoned key = false) (ctx gen : Nat) (f : Nat → Nat) :
    s.barUpdate ctx gen key f = (s.perform (keyed key (leBytes 16 (f (s.homeNat key 16))))).barRelease key := by
  simp only [State.barUpdate, State.homeAtomic, hp, Bool.false_eq_true, if_false]

/-- A barrier updated holds its new value, and no byte outside it changes. -/
theorem State.barUpdate_reads {s : State} {key : Nat} {f : Nat → Nat} (hp : s.poisoned key = false) (hw : Memory.wf s.mem = true)
    (hf : f (s.homeNat key 16) < 256 ^ 16) (ctx gen : Nat) :
    (s.barUpdate ctx gen key f).homeNat key 16 = f (s.homeNat key 16) ∧
      ∀ k, k < key ∨ key + 16 ≤ k → (s.barUpdate ctx gen key f).homeByte k = s.homeByte k := by
  rw [State.barUpdate_of_sound hp, State.barRelease_homeNat]
  refine ⟨State.homeNat_perform hw key 16 _ hf, fun k hk => ?_⟩
  rw [State.barRelease_homeByte]
  refine State.homeByte_perform hw fun c hc => ?_
  have := key_of_mem_keyed hc
  rw [length_leBytes] at this
  omega

end Sys2Proof.Machine
end

section
/-!
O54: hardware errors and links: what a report and a retry over a link leave unchanged, a register that an error meets, a link changed.
-/
namespace Sys2Proof.Machine
open Sys2Proof Claim

/-! ### What a report leaves unchanged (spec/22 R327) -/

/-- Beside memory, what the waits have seen of it, and the rings of the host, everything is as it was. -/
def LogWork (s t : State) : Prop := ∃ mem waits io, t = { s with mem := mem, waits := waits, io := io }

theorem LogWork.refl (s : State) : LogWork s s := ⟨_, _, _, rfl⟩

theorem LogWork.trans {s t u : State} (h : LogWork s t) (h' : LogWork t u) : LogWork s u := by
  obtain ⟨_, _, _, rfl⟩ := h
  obtain ⟨_, _, _, rfl⟩ := h'
  exact ⟨_, _, _, rfl⟩

theorem State.logWrite_logWork {s t : State} {bs : List Byte} (h : s.logWrite bs = some t) : LogWork s t := by
  unfold State.logWrite at h
  split at h
  · cases h
  · cases h
    exact ⟨_, _, _, rfl⟩

theorem State.flushLogN_logWork (n : Nat) (s : State) : LogWork s (s.flushLogN n) := by
  induction n generalizing s with
  | zero => exact .refl s
  | succ n ih =>
    unfold State.flushLogN
    split
    · split
      · next h => exact (State.logWrite_logWork h).trans (LogWork.trans ⟨_, _, _, rfl⟩ (ih _))
      · exact .refl s
    · exact .refl s

theorem State.post_logWork (s : State) (r : Report) : LogWork s (s.post r) := by
  unfold State.post
  split
  · exact LogWork.trans ⟨_, _, _, rfl⟩ (State.flushLogN_logWork _ _)
  · exact ⟨_, _, _, rfl⟩

theorem State.report_logWork (s : State) (kind unit index ctx gen detail addr : Nat) :
    LogWork s (s.report kind unit index ctx gen detail addr) := s.post_logWork _

theorem State.reportCE_logWork (s : State) (unit index addr : Nat) : LogWork s (s.reportCE unit index addr) := by
  unfold State.reportCE
  dsimp only
  split
  · split
    · exact ⟨_, _, _, rfl⟩
    · exact LogWork.trans ⟨_, _, _, rfl⟩ (State.post_logWork _ _)
  · exact LogWork.trans ⟨_, _, _, rfl⟩ (State.post_logWork _ _)

/-- A report of a state with the held records and the log ring of another is held last there. -/
theorem State.report_reportHeld {s u : State} (hh : u.io.held = s.io.held) (hl : u.io.logbase = s.io.logbase) (kind unit index ctx gen detail addr : Nat) :
    ReportHeld s (u.report kind unit index ctx gen detail addr) kind unit index addr := fun h0 hr =>
  ⟨_, by rw [State.report_held _ _ _ _ _ _ _ (hl.trans h0) (by rwa [Rings.heldReports, hh]), hh], rfl, rfl, rfl, rfl⟩

/-! ### Correctable reports (spec/22 R327) -/

/-- The first correctable event of a unit is a report. -/
theorem State.reportCE_first {s : State} {unit index : Nat} (h : ∀ x ∈ s.io.lastCE, x.1 ≠ (unit, index)) (addr : Nat) :
    ∃ l, s.reportCE unit index addr = ({ s with io := { s.io with lastCE := l } } : State).report 1 unit index 0xFFFFFFFF 0 0 addr := by
  have hf : s.io.lastCE.find? (·.1 == (unit, index)) = none := List.find?_eq_none.2 fun x hx => by simpa using h x hx
  unfold State.reportCE
  dsimp only
  rw [hf]
  exact ⟨_, rfl⟩

theorem State.reportCE_first_held {s : State} {unit index : Nat} (h : ∀ x ∈ s.io.lastCE, x.1 ≠ (unit, index)) (addr : Nat) :
    ReportHeld s (s.reportCE unit index addr) 1 unit index addr := by
  obtain ⟨l, hl⟩ := State.reportCE_first h addr
  rw [hl]
  exact State.report_reportHeld (by rfl) (by rfl) _ _ _ _ _ _ _

theorem State.reportCE_first_mem {s : State} {unit index : Nat} (h : ∀ x ∈ s.io.lastCE, x.1 ≠ (unit, index)) (addr : Nat)
    (hl : s.io.logbase = 0) : (s.reportCE unit index addr).mem = s.mem := by
  obtain ⟨l, he⟩ := State.reportCE_first h addr
  obtain ⟨_, hr, -⟩ := State.report_of_logbase_zero (s := { s with io := { s.io with lastCE := l } }) 1 unit index 0xFFFFFFFF 0 0 addr hl
  rw [he, hr]

/-- A later one within the second joins the report that waits. -/
theorem State.reportCE_again {s : State} {unit index : Nat} {w : Option Report}
    (h : s.io.lastCE.find? (·.1 == (unit, index)) = some ((unit, index), s.timeB / 1000000000, w)) (addr : Nat) :
    s.reportCE unit index addr = { s with io := { s.io with
      lastCE := ((unit, index), s.timeB / 1000000000, some ((s.mkReport 1 unit index 0xFFFFFFFF 0 0 addr).more w)) ::
        s.io.lastCE.filter (·.1 != (unit, index)) } } := by
  unfold State.reportCE
  dsimp only
  rw [h]
  exact if_pos rfl

/-! ### What a correctable error fetches or walks again (spec/22 R324) -/

/-- A core's copy of a place, or the cached translations to it, dropped where the unit has them. -/
def State.corrected (s : State) (unit index addr : Nat) : State :=
  if unit = 0 then s.refetch index addr else if unit = 1 then s.rewalk index addr else s

theorem State.corrected_eq (s : State) (unit index addr : Nat) :
    ∃ clean icache tlb dtlb, s.corrected unit index addr = { s with clean := clean, icache := icache, tlb := tlb, dtlb := dtlb } := by
  unfold State.corrected
  split
  · exact ⟨_, _, _, _, rfl⟩
  · split <;> exact ⟨_, _, _, _, rfl⟩

theorem exec_correctableError_eq (unit index addr : Nat) (s : State) :
    exec (.correctableError unit index addr) s = .next ((s.corrected unit index addr).reportCE unit index addr) := rfl

/-! ### Uncorrectable errors (spec/22 R325, R326) -/

/-- The report of an uncorrectable error. -/
def State.reportUE (s : State) (unit index addr : Nat) : State := s.report 2 unit index 0xFFFFFFFF 0 0 addr

theorem exec_uncorrectableError_reg (unit index addr : Nat) (r : RegPlace) (s : State) :
    exec (.uncorrectableError unit index addr (some r)) s = .next ((s.updTeam (regTeam r) (·.burn r)).reportUE unit index addr) := rfl

theorem exec_uncorrectableError_sector {unit index addr : Nat} {s : State}
    (h : unit ≠ 0 ∨ s.dirtyAt index addr = none ∧ ∀ c ∈ s.clean, c.core = index → c.key ≠ addr / 32 * 32) :
    exec (.uncorrectableError unit index addr none) s = .next ((s.addPoison [addr]).reportUE unit index addr) := by
  refine congrArg Host.Outcome.next ?_
  cases hd : s.dirtyAt index addr with
  | some d => exact if_neg (h.resolve_right fun hr => by simp [hd] at hr)
  | none =>
    refine if_neg fun ⟨hu, hc⟩ => ?_
    obtain ⟨c, hmem, hck⟩ := List.any_eq_true.1 hc
    rw [Bool.and_eq_true, beq_iff_eq, beq_iff_eq] at hck
    exact (h.resolve_left (not_not.2 hu)).2 c hmem hck.1 hck.2

theorem exec_uncorrectableError_dirty {index addr : Nat} {s : State} {d : Dirty} (h : s.dirtyAt index addr = some d) :
    exec (.uncorrectableError 0 index addr none) s =
      .next ((((s.dropDirty d).dropClean index addr).addPoison [addr]).reportUE 0 index addr) := by
  refine congrArg Host.Outcome.next ?_
  dsimp only
  rw [h]
  rfl

theorem exec_uncorrectableError_clean {index addr : Nat} {s : State} (hd : s.dirtyAt index addr = none)
    (hc : ∃ c ∈ s.clean, c.core = index ∧ c.key = addr / 32 * 32) :
    exec (.uncorrectableError 0 index addr none) s = .next ((s.dropClean index addr).reportCE 0 index addr) := by
  refine congrArg Host.Outcome.next ?_
  dsimp only
  rw [hd]
  obtain ⟨c, hmem, hcore, hkey⟩ := hc
  exact if_pos ⟨rfl, List.any_eq_true.2 ⟨c, hmem, by simp [hcore, hkey, sectorOf]⟩⟩

/-- A team after a report is found where it was. -/
theorem LogWork.team? {s t : State} (h : LogWork s t) (tid : Nat) : t.team? tid = s.team? tid := by
  obtain ⟨_, _, _, rfl⟩ := h
  rfl

@[simp] theorem Team.burn_id (t : Team) (r : RegPlace) : (t.burn r).id = t.id := by
  cases r with
  | v tid r lane => simp only [Team.burn]; split <;> rfl
  | s tid r => rfl

/-- The team of a register that an error meets. -/
theorem State.team?_burn {s : State} {r : RegPlace} {u : Team} (h : s.team? (regTeam r) = some u) (unit index addr : Nat) :
    ((s.updTeam (regTeam r) (·.burn r)).reportUE unit index addr).team? (regTeam r) = some (u.burn r) := by
  rw [State.reportUE, (State.report_logWork ..).team?]
  exact State.team?_updTeam_same (fun t => t.burn_id r) h

/-- One sector made poison: it reads so, and the sectors elsewhere read as they did. -/
theorem State.poisoned_addPoison (s : State) (addr k : Nat) : (s.addPoison [addr]).poisoned k = (decide (k / 32 = addr / 32) || s.poisoned k) := by
  have hsec : sectorOf k = sectorOf addr ↔ k / 32 = addr / 32 := by unfold sectorOf; omega
  have hl : (s.addPoison [addr]).linkDown k = s.linkDown k := rfl
  have hp : (s.addPoison [addr]).poison.contains (sectorOf k) = (decide (k / 32 = addr / 32) || s.poison.contains (sectorOf k)) := by
    have hdec : decide (k / 32 = addr / 32) = (sectorOf k == sectorOf addr) := by rw [Bool.eq_iff_iff]; simp [hsec]
    simp only [State.addPoison, List.map_cons, List.map_nil, List.foldl_cons, List.foldl_nil, hdec]
    split
    · next hc =>
      cases hk : (sectorOf k == sectorOf addr) with
      | false => rw [Bool.false_or]
      | true => rw [beq_iff_eq.1 hk, hc, Bool.true_or]
    · rw [List.contains_cons]
  rw [State.poisoned, hl, hp, Bool.or_assoc, ← State.poisoned]

theorem LogWork.poisoned {s t : State} (h : LogWork s t) (k : Nat) : t.poisoned k = s.poisoned k := by
  obtain ⟨_, _, _, rfl⟩ := h
  rfl

/-! ### Links (spec/09 R173; spec/22 R324) -/

/-- A link's record changed changes that link alone. -/
theorem State.updLink_changed (s : State) (p : Nat) (f : Link → Link) : LinkChanged s (s.updLink p f) p f := by
  refine ⟨?_, fun q hq => ?_⟩
  · obtain ⟨l, hl⟩ := s.updLink_eq p f
    rw [hl]
  · unfold State.updLink
    split
    · next hp =>
      simp only [Vector.getElem_set, eq_comm (a := p)]
      split
      · next h => subst h; rfl
      · rfl
    · exact (if_neg (by omega : q ≠ p)).symm

theorem exec_linkCrcError_eq (p : Nat) (again : Bool) (s : State) : exec (.linkCrcError p again) s = .next (s.updLink p (·.crcError again)) := rfl

theorem Link.crcError_eq (l : Link) (again : Bool) : l.crcError again =
    if l.state ≠ 1 then l else if again = false then { l with retries := 1 }
    else if l.retries < 8 then { l with retries := l.retries + 1 } else { l with state := 2, retries := 0 } := by
  cases again <;> rfl

theorem exec_linkCompressorSwitch_eq {p : Nat} (fill : Nat) (s : State) (hp : p < 32) : exec (.linkCompressorSwitch p fill) s =
    .next (s.updLink p fun l => { l with comp := if 75 < fill then true else if fill < 75 then false else l.comp }) :=
  congrArg Host.Outcome.next (if_pos hp)

/-! ### The end of a retrain -/

section
variable {s : State} {p : Nat} (h : p < 33)

/-- The link's record as the end of a retrain leaves it. -/
def State.retrained (s : State) (p : Nat) (ok : Bool) : State := s.updLink p (·.retrained ok)

include h

theorem exec_linkRetrainEnd_eq (ok : Bool) : exec (.linkRetrainEnd p ok) s =
    .next (if s.links[p].state ≠ 2 ∨ (s.links[p].retrained ok).state = 2 then s.retrained p ok
      else if (s.links[p].retrained ok).state = 0 then
        ((s.retrained p ok).report 3 (if p = 32 then 5 else 4) (if p = 32 then 0 else p) 0xFFFFFFFF 0 0 0).linkRetry
      else (s.retrained p ok).linkRetry) := by
  have hl : s.updLink p (fun _ => s.links[p].retrained ok) = s.retrained p ok := by
    simp only [State.retrained, State.updLink, dif_pos h]
  refine congrArg Host.Outcome.next ((dif_pos h).trans ?_)
  dsimp only
  rw [hl]

theorem State.retrained_getElem (ok : Bool) : (s.retrained p ok).links[p] = s.links[p].retrained ok := by
  simp [State.retrained, State.updLink, h]

theorem State.retrained_of_up (ok : Bool) (hs : s.links[p].state ≠ 2) : s.retrained p ok = s := by
  simp [State.retrained, State.updLink, h, Link.retrained, hs]

end

/-! ### What waited for a link tried again -/

theorem State.flushPrq_of_heldReq_nil {s : State} (h : s.io.heldReq = []) : s.flushPrq = s := by
  rw [State.flushPrq, h]
  rfl

theorem State.retrySignals_of_sigq_nil {s : State} (h : s.sigq = []) : s.retrySignals = s := by
  rw [State.retrySignals, h, List.foldl_nil, ← h]

theorem State.retrySignals_homeWork (s : State) : HomeWork s s.retrySignals :=
  foldl_keeps (P := HomeWork s) (fun _ _ ht => ht.trans (State.signalAdd_homeWork ..)) s.sigq ⟨_, _, _, _, _, rfl⟩

theorem State.linkRetry_homeWork (s : State) : HomeWork s s.linkRetry :=
  (s.retrySignals_homeWork.trans (State.flushPrqN_keeps _ _).1).trans (State.flushLogN_homeWork _ _)

/-- With no signal operation waiting and no log ring the held records stay. -/
theorem State.linkRetry_held {s : State} (hs : s.sigq = []) (hl : s.io.logbase = 0) : s.linkRetry.io.held = s.io.held := by
  obtain ⟨-, hheld, hbase⟩ := State.flushPrqN_keeps s.io.heldReq.length s
  rw [State.linkRetry, State.retrySignals_of_sigq_nil hs, State.flushLog_of_logbase_zero (by exact hbase.trans hl)]
  exact hheld

/-- With no record held a retry makes the signal operations alone. -/
theorem State.linkRetry_of_held_nil {s : State} (hr : s.retrySignals.io.heldReq = []) (hh : s.retrySignals.io.held = []) :
    s.linkRetry = s.retrySignals := by
  rw [State.linkRetry, State.flushPrq_of_heldReq_nil hr, State.flushLog_of_held_nil hh]

/-! ### A signal operation made at home (spec/01 R23) -/

/-- An agent's access depends on the links alone by those that are DOWN. -/
theorem State.agentKey_of_linkDown {s : State} {l : Vector Link 33} (h : ∀ a, ({ s with links := l } : State).linkDown a = s.linkDown a)
    (ctx gen : Nat) (k : Access) (va : W80) : ({ s with links := l } : State).agentKey ctx gen k va = s.agentKey ctx gen k va := by
  have hp (a : Nat) : ({ s with links := l } : State).poisoned a = s.poisoned a := by simp only [State.poisoned, h]
  have hb (a n : Nat) : ({ s with links := l } : State).homeBytes a n = s.homeBytes a n := by
    induction n generalizing a with
    | zero => rfl
    | succ n ih => rw [State.homeBytes, hp, ih, State.homeBytes, State.homeByte]; rfl
  have he : ({ s with links := l } : State).entry = s.entry := funext fun pa => by
    simp only [State.entry, State.readNat, h, hb, State.homeNat]
  have hw (root a : Nat) : ({ s with links := l } : State).walkTables root a = s.walkTables root a := by rw [State.walkTables, he, State.walkTables]
  unfold State.agentKey
  simp only [hw]
  rfl

/-- A signal operation whose link no longer waits is made at home. -/
theorem State.signalAdd_of_key {s : State} {ctx gen key : Nat} {va : W80} (hk : s.agentKey ctx gen .atomic va = some key)
    (hl : s.linkWaits key = false) (hp : s.poisoned key = false) (x : W64) :
    s.signalAdd ctx gen va x false = s.perform (keyed key (leBytes 8 (BitVec.ofNat 64 (s.homeNat key 8) + x).toNat)) := by
  unfold State.signalAdd State.homeAtomic
  simp only [hk, hl, hp, Bool.false_eq_true, if_false]

/-- A link that comes up from a retrain was not DOWN and is not. -/
theorem State.retrained_linkDown {s : State} {p : Nat} (h : p < 33) (hs : s.links[p].state = 2) (a : Nat) :
    (s.retrained p true).linkDown a = s.linkDown a := by
  obtain ⟨-, hother⟩ := s.updLink_changed p (·.retrained true)
  have hp : (s.retrained p true).links[p].state = 1 := by rw [State.retrained_getElem h, Link.retrained, if_neg (not_not.2 hs)]; rfl
  unfold State.linkDown
  cases linkOf a with
  | none => rfl
  | some q =>
    by_cases hq : q.val = p
    · subst hq
      simp only [Fin.getElem_fin, hp, hs]
      rfl
    · have hl : (s.retrained p true).links[q.val] = s.links[q.val] := (hother q q.isLt).trans (if_neg hq)
      simp only [Fin.getElem_fin, hl]

/-- A signal operation that waited for a link is made once the link is up. -/
theorem State.linkRetry_makes_signal {s : State} {p key : Nat} {o : SigOp} (h : p < 33) (hs : s.links[p].state = 2) (hr : s.io.heldReq = [])
    (hh : s.io.held = []) (hq : s.sigq = [o]) (hm : o.mark = false) (hk : s.agentKey o.ctx o.gen .atomic o.va = some key)
    (hl : linkOf key = some ⟨p, h⟩) (hp : s.poisoned key = false) :
    (s.retrained p true).linkRetry = ({ s.retrained p true with sigq := [] } : State).perform
      (keyed key (leBytes 8 (BitVec.ofNat 64 (s.homeNat key 8) + o.x).toNat)) := by
  have hdown := State.retrained_linkDown h hs
  obtain ⟨l, he⟩ := s.updLink_eq p (·.retrained true)
  rw [State.retrained, he] at hdown ⊢
  have hup : l[p].state = 1 := by
    have := State.retrained_getElem (s := s) h true
    rw [State.retrained, he] at this
    rw [this, Link.retrained, if_neg (not_not.2 hs)]
    rfl
  have hsame : SameReach { s with links := l } { s with links := l, sigq := [] } := ⟨rfl, rfl, rfl, rfl, rfl, rfl, rfl, rfl⟩
  have hkey : ({ s with links := l, sigq := [] } : State).agentKey o.ctx o.gen .atomic o.va = some key := by
    rw [hsame.agentKey, State.agentKey_of_linkDown hdown, hk]
  have hwaits : ({ s with links := l, sigq := [] } : State).linkWaits key = false := by simp [State.linkWaits, hl, hup]
  have hsound : ({ s with links := l, sigq := [] } : State).poisoned key = false := by
    rw [hsame.poisoned, State.poisoned, hdown]
    exact hp
  have hretry : ({ s with links := l } : State).retrySignals = ({ s with links := l, sigq := [] } : State).perform
      (keyed key (leBytes 8 (BitVec.ofNat 64 (s.homeNat key 8) + o.x).toNat)) := by
    simp only [State.retrySignals, hq, List.foldl_cons, List.foldl_nil, hm]
    exact State.signalAdd_of_key hkey hwaits hsound o.x
  rw [State.linkRetry_of_held_nil (by rw [hretry]; exact hr) (by rw [hretry]; exact hh), hretry]

end Sys2Proof.Machine

namespace Sys2Proof.Claim
open Sys2Proof Sys2Proof.Machine

theorem LinkChanged.congr {s t : State} {p : Nat} {f g : Link → Link} (h : LinkChanged s t p f) (hfg : ∀ l, f l = g l) : LinkChanged s t p g :=
  (funext hfg : f = g) ▸ h

/-- A report is held by what the rings of the host were. -/
theorem ReportHeld.of_io {s u t : State} {kind unit index addr : Nat} (h : ReportHeld u t kind unit index addr) (hio : u.io = s.io) :
    ReportHeld s t kind unit index addr := by
  rwa [ReportHeld, hio] at h

theorem reportUE_held {s u : State} (hio : u.io = s.io) (unit index addr : Nat) : ReportHeld s (u.reportUE unit index addr) 2 unit index addr :=
  ReportHeld.of_io (State.report_reportHeld rfl rfl _ _ _ _ _ _ _) hio

theorem correctableError_reports {s : State} {unit index : Nat} (addr : Nat) (h : ∀ x ∈ s.io.lastCE, x.1 ≠ (unit, index)) :
    ∃ t, exec (.correctableError unit index addr) s = .next t ∧ ReportHeld s t 1 unit index addr ∧ t.me = s.me ∧ t.teams = s.teams ∧
      t.dirty = s.dirty ∧ t.poison = s.poison ∧ (s.io.logbase = 0 → t.mem = s.mem) := by
  obtain ⟨_, _, _, _, he⟩ := s.corrected_eq unit index addr
  have hio : (s.corrected unit index addr).io = s.io := by rw [he]
  have hfirst : ∀ x ∈ (s.corrected unit index addr).io.lastCE, x.1 ≠ (unit, index) := hio ▸ h
  refine ⟨_, exec_correctableError_eq unit index addr s, (State.reportCE_first_held hfirst addr).of_io hio, ?_⟩
  have hmem := State.reportCE_first_mem hfirst addr
  obtain ⟨_, _, _, hw⟩ := (s.corrected unit index addr).reportCE_logWork unit index addr
  rw [hio] at hmem
  refine ⟨?_, ?_, ?_, ?_, fun hl => (hmem hl).trans ?_⟩
  · rw [hw, he]
  · rw [hw, he]
  · rw [hw, he]
  · rw [hw, he]
  · rw [he]

theorem correctableError_again {s : State} {unit index : Nat} {w : Option Report} (addr : Nat)
    (h : s.io.lastCE.find? (·.1 == (unit, index)) = some ((unit, index), s.timeB / 1000000000, w)) :
    ∃ t r, exec (.correctableError unit index addr) s = .next t ∧ t.io.held = s.io.held ∧ t.mem = s.mem ∧
      t.io.lastCE.find? (·.1 == (unit, index)) = some ((unit, index), s.timeB / 1000000000, some r) ∧
      r.count = w.elim 1 (·.count + 1) := by
  obtain ⟨_, _, _, _, he⟩ := s.corrected_eq unit index addr
  refine ⟨_, ((s.corrected unit index addr).mkReport 1 unit index 0xFFFFFFFF 0 0 addr).more w, exec_correctableError_eq unit index addr s, ?_⟩
  rw [State.reportCE_again (w := w) (by rw [he]; exact h)]
  refine ⟨by rw [he], by rw [he], ?_, by cases w <;> rfl⟩
  rw [he]
  exact List.find?_cons_of_pos (by simp)

theorem uncorrectableError_scalar {s : State} {tid r : Nat} {u : Team} (unit index addr : Nat) (h : s.team? tid = some u) :
    ∃ t v, exec (.uncorrectableError unit index addr (some (.s tid r))) s = .next t ∧ t.team? tid = some v ∧
      v.s (Fin.ofNat 64 r) = BitVec.allOnes 64 ∧ (∀ q, q ≠ Fin.ofNat 64 r → v.s q = u.s q) ∧ v.regs.v = u.regs.v ∧ v.ctl = u.ctl ∧
      ReportHeld s t 2 unit index addr :=
  ⟨_, _, exec_uncorrectableError_reg .., State.team?_burn (r := .s tid r) h unit index addr, u.setS_s_self .., fun _ hq => u.setS_s_ne _ hq.symm, rfl, rfl,
    reportUE_held (by rfl) _ _ _⟩

theorem uncorrectableError_lane {s : State} {tid r n : Nat} {u : Team} (unit index addr : Nat) (h : s.team? tid = some u) (hn : n < u.width)
    (hl : n < (u.v (Fin.ofNat 64 r)).length) :
    ∃ t v, exec (.uncorrectableError unit index addr (some (.v tid r n))) s = .next t ∧ t.team? tid = some v ∧
      lane v (Fin.ofNat 64 r) n = BitVec.allOnes 32 ∧ (∀ q l, q ≠ Fin.ofNat 64 r ∨ l ≠ n → lane v q l = lane u q l) ∧
      v.regs.s = u.regs.s ∧ v.ctl = u.ctl ∧ ReportHeld s t 2 unit index addr := by
  have hb : u.burn (.v tid r n) = u.setV (Fin.ofNat 64 r) ((u.v (Fin.ofNat 64 r)).set n (BitVec.allOnes 32)) := if_pos hn
  refine ⟨_, _, exec_uncorrectableError_reg .., State.team?_burn (r := .v tid r n) h unit index addr, ?_, fun q l hq => ?_, by rw [hb]; rfl, by rw [hb]; rfl,
    reportUE_held (by rfl) _ _ _⟩
  · rw [hb, lane, Team.setV_v_self, lane_set, if_pos ⟨rfl, hl⟩]
  · rw [hb]
    by_cases hqr : q = Fin.ofNat 64 r
    · subst hqr
      rw [lane, Team.setV_v_self, lane_set, if_neg fun hk => hq.resolve_left (fun hne => hne rfl) hk.1.symm]
    · rw [lane, Team.setV_v_ne _ _ (Ne.symm hqr), lane]

theorem uncorrectableError_clean {s : State} {index addr : Nat} (hd : s.dirtyAt index addr = none)
    (hc : ∃ c ∈ s.clean, c.core = index ∧ c.key = addr / 32 * 32) :
    ∃ t, exec (.uncorrectableError 0 index addr none) s = .next t ∧ t.poison = s.poison ∧
      (∀ c ∈ t.clean, c.core = index → c.key ≠ addr / 32 * 32) ∧
      ((∀ x ∈ s.io.lastCE, x.1 ≠ (0, index)) → ReportHeld s t 1 0 index addr) := by
  refine ⟨_, exec_uncorrectableError_clean hd hc, ?_, ?_, fun h => (State.reportCE_first_held (s := s.dropClean index addr) h addr).of_io rfl⟩
  · obtain ⟨_, _, _, hw⟩ := (s.dropClean index addr).reportCE_logWork 0 index addr
    rw [hw]
    rfl
  · obtain ⟨_, _, _, hw⟩ := (s.dropClean index addr).reportCE_logWork 0 index addr
    rw [hw]
    intro c hmem hcore hkey
    have := (List.mem_filter.1 hmem).2
    simp [hcore, hkey, sectorOf] at this

theorem uncorrectableError_sector {s : State} {unit index addr : Nat}
    (h : unit ≠ 0 ∨ s.dirtyAt index addr = none ∧ ∀ c ∈ s.clean, c.core = index → c.key ≠ addr / 32 * 32) :
    ∃ t, exec (.uncorrectableError unit index addr none) s = .next t ∧ t.poisoned addr = true ∧ ReportHeld s t 2 unit index addr ∧ t.me = s.me ∧
      t.teams = s.teams ∧ ∀ k, k / 32 ≠ addr / 32 → s.poisoned k = t.poisoned k := by
  have hw := (s.addPoison [addr]).report_logWork 2 unit index 0xFFFFFFFF 0 0 addr
  refine ⟨_, exec_uncorrectableError_sector h, ?_, reportUE_held (by rfl) _ _ _, ?_, ?_, fun k hk => ?_⟩
  · rw [State.reportUE, hw.poisoned, State.poisoned_addPoison]
    simp
  · obtain ⟨_, _, _, he⟩ := hw
    rw [State.reportUE, he]
    rfl
  · obtain ⟨_, _, _, he⟩ := hw
    rw [State.reportUE, he]
    rfl
  · rw [State.reportUE, hw.poisoned, State.poisoned_addPoison, decide_eq_false hk, Bool.false_or]

theorem uncorrectableError_dirty {s : State} {index addr : Nat} {d : Dirty} (h : s.dirtyAt index addr = some d) :
    ∃ t, exec (.uncorrectableError 0 index addr none) s = .next t ∧ t.dirtyAt index addr = none ∧ t.poisoned addr = true ∧
      ReportHeld s t 2 0 index addr := by
  have hw := (((s.dropDirty d).dropClean index addr).addPoison [addr]).report_logWork 2 0 index 0xFFFFFFFF 0 0 addr
  refine ⟨_, exec_uncorrectableError_dirty h, ?_, ?_, reportUE_held (by rfl) _ _ _⟩
  · obtain ⟨_, _, _, he⟩ := hw
    rw [State.reportUE, he]
    exact State.dirtyAt_dropDirty h
  · rw [State.reportUE, hw.poisoned, State.poisoned_addPoison]
    simp

section
variable {s : State} {p : Nat} (h : p < 33) (hs : s.links[p].state = 2)
include hs

theorem linkRetrainEnd_again (hr : s.links[p].retrains < 2) :
    ∃ t, exec (.linkRetrainEnd p false) s = .next t ∧ LinkChanged s t p fun l => { l with retrains := l.retrains + 1 } := by
  have hl : s.links[p].retrained false = { s.links[p] with retrains := s.links[p].retrains + 1 } := by
    simp [Link.retrained, hs, hr]
  refine ⟨s.retrained p false, ?_, (s.updLink_changed p _).1, fun q hq => ?_⟩
  · rw [exec_linkRetrainEnd_eq h, if_pos (.inr (by rw [hl]; exact hs))]
  · refine ((s.updLink_changed p _).2 q hq).trans ?_
    split
    · next he => subst he; exact hl
    · rfl

theorem retrained_up : s.links[p].retrained true = { s.links[p] with state := 1, retries := 0, retrains := 0 } := by
  simp [Link.retrained, hs]

theorem exec_linkRetrainEnd_up : exec (.linkRetrainEnd p true) s = .next (s.retrained p true).linkRetry := by
  rw [exec_linkRetrainEnd_eq h, retrained_up h hs, if_neg (by simp [hs]), if_neg (by simp)]

theorem linkRetrainEnd_up (hr : s.io.heldReq = []) (hh : s.io.held = []) (hq : s.sigq = []) :
    ∃ t, exec (.linkRetrainEnd p true) s = .next t ∧ LinkChanged s t p fun l => { l with state := 1, retries := 0, retrains := 0 } := by
  have hretry : (s.retrained p true).linkRetry = s.retrained p true := by
    obtain ⟨l, he⟩ := s.updLink_eq p (·.retrained true)
    have hsig : (s.retrained p true).retrySignals = s.retrained p true := State.retrySignals_of_sigq_nil (by rw [State.retrained, he]; exact hq)
    rw [State.linkRetry_of_held_nil, hsig]
    · rw [hsig, State.retrained, he]
      exact hr
    · rw [hsig, State.retrained, he]
      exact hh
  refine ⟨s.retrained p true, (exec_linkRetrainEnd_up h hs).trans (congrArg _ hretry), (s.updLink_changed p _).1, fun q hq => ?_⟩
  refine ((s.updLink_changed p _).2 q hq).trans ?_
  split
  · next he => subst he; exact retrained_up h hs
  · rfl

theorem linkRetrainEnd_signal {o : SigOp} {key : Nat} (hr : s.io.heldReq = []) (hh : s.io.held = []) (hq : s.sigq = [o]) (hm : o.mark = false)
    (hk : s.agentKey o.ctx o.gen .atomic o.va = some key) (hl : linkOf key = some ⟨p, h⟩) (hp : Sound s key 8) (hw : Memory.wf s.mem = true) :
    ∃ t, exec (.linkRetrainEnd p true) s = .next t ∧ t.links[p].state = 1 ∧ t.sigq = [] ∧
      t.homeNat key 8 = (s.homeNat key 8 + o.x.toNat) % 2 ^ 64 := by
  refine ⟨_, exec_linkRetrainEnd_up h hs, ?_⟩
  rw [State.linkRetry_makes_signal h hs hr hh hq hm hk hl (hp 0 (by decide))]
  obtain ⟨l, he⟩ := s.updLink_eq p (·.retrained true)
  have hmem : (s.retrained p true).mem = s.mem := by rw [State.retrained, he]
  refine ⟨?_, rfl, ?_⟩
  · change (s.retrained p true).links[p].state = 1
    rw [State.retrained_getElem h, retrained_up h hs]
  · rw [State.homeNat_perform (by exact hmem ▸ hw) key 8 _ (BitVec.isLt _)]
    simp

theorem linkRetrainEnd_down (hr : 2 ≤ s.links[p].retrains) :
    ∃ t, exec (.linkRetrainEnd p false) s = .next t ∧ t.links[p].state = 0 ∧
      (s.sigq = [] → ReportHeld s t 3 (if p = 32 then 5 else 4) (if p = 32 then 0 else p) 0) ∧ t.me = s.me := by
  have hl : s.links[p].retrained false = { s.links[p] with state := 0, retrains := 3 } := by
    simp [Link.retrained, hs, Nat.not_lt.2 hr]
  refine ⟨_, (exec_linkRetrainEnd_eq h false).trans (by rw [hl, if_neg (by simp [hs]), if_pos rfl]), ?_⟩
  have hlink := State.retrained_getElem (s := s) h false
  rw [hl] at hlink
  obtain ⟨l, he⟩ := s.updLink_eq p (·.retrained false)
  rw [State.retrained, he] at hlink ⊢
  have hlog := ({ s with links := l } : State).report_logWork 3 (if p = 32 then 5 else 4) (if p = 32 then 0 else p) 0xFFFFFFFF 0 0 0
  have hheld := State.report_reportHeld (s := s) (u := { s with links := l }) rfl rfl 3 (if p = 32 then 5 else 4) (if p = 32 then 0 else p) 0xFFFFFFFF 0 0 0
  have hbase := fun hb => State.report_of_logbase_zero (s := { s with links := l }) 3 (if p = 32 then 5 else 4) (if p = 32 then 0 else p)
    0xFFFFFFFF 0 0 0 hb
  generalize State.report _ _ _ _ _ _ _ _ = u at hlog hheld hbase ⊢
  obtain ⟨_, _, _, _, _, hretry⟩ := u.linkRetry_homeWork
  obtain ⟨_, _, _, hu⟩ := hlog
  refine ⟨by rw [hretry, hu]; exact congrArg Link.state hlink, fun hq hb hroom => ?_, by rw [hretry, hu]⟩
  obtain ⟨_, hio, hb'⟩ := hbase hb
  rw [State.linkRetry_held (by rw [hu]; exact hq) (by rw [hio]; exact hb')]
  exact hheld hb hroom

end

/-- Settles O54: each event is one change of the state with a report after it (`LogWork`), or a change of one link (`LinkChanged`) with what waited for
it tried again (`State.linkRetry`). -/
theorem errorsPoisonAndLinksRetrain : Obligations.ErrorsPoisonAndLinksRetrain := by
  unfold Obligations.ErrorsPoisonAndLinksRetrain
  refine ⟨fun s _ _ addr h => correctableError_reports addr h, fun s _ _ addr w h => ?_,
    fun s unit index addr _ _ u h => uncorrectableError_scalar unit index addr h,
    fun s unit index addr _ _ _ u h hn hl => uncorrectableError_lane unit index addr h hn hl, fun s _ _ hd hc => uncorrectableError_clean hd hc,
    fun s _ _ _ h => uncorrectableError_sector h, fun s _ _ _ h => uncorrectableError_dirty h,
    fun s p again => ⟨_, exec_linkCrcError_eq p again s, (s.updLink_changed p _).congr fun l => l.crcError_eq again⟩,
    fun s p ok h => ⟨fun hs => ?_, ?_, ?_, ?_⟩,
    fun s p fill hp => ⟨_, exec_linkCompressorSwitch_eq fill s hp, (s.updLink_changed p _).congr fun l => ?_⟩⟩
  · obtain ⟨t, r, ht, hheld, hmem, hlast, hcount⟩ := correctableError_again addr h
    refine ⟨t, r, ht, hheld, hmem, hlast, hcount.trans ?_⟩
    cases w <;> rfl
  · rw [exec_linkRetrainEnd_eq h, if_pos (.inl hs), State.retrained_of_up h ok hs]
  · rintro hs rfl hr
    exact linkRetrainEnd_again h hs hr
  · rintro hs rfl hr hh
    exact ⟨linkRetrainEnd_up h hs hr hh, fun o key hq hm hk hl hp hw => linkRetrainEnd_signal h hs hr hh hq hm hk hl hp hw⟩
  · rintro hs rfl hr
    exact linkRetrainEnd_down h hs hr
  · split_ifs <;> rfl

end Sys2Proof.Claim
end

section
/-!
O38: the start of a copy and its destination sectors: what a copy's record keeps while its slices are read, and one sector performed and counted off.
-/
namespace Sys2Proof.Machine
open Sys2Proof

/-! ### What leaves the copies (spec/09 R163, R168, R346) -/

theorem WriteBackWork.copies {s t : State} (h : WriteBackWork s t) : t.copies = s.copies := by
  obtain ⟨_, _, _, _, _, _, _, _, _, _, _, _, _, rfl⟩ := h
  rfl

theorem HomeWork.copies {s t : State} (h : HomeWork s t) : t.copies = s.copies := by
  obtain ⟨_, _, _, _, _, rfl⟩ := h
  rfl

theorem State.reach_copies (s : State) (ctx gen : Nat) (bundle : Option Nat) (cluster : Nat) (k : Access) (va : W80) (n : Nat) :
    (s.reach ctx gen bundle cluster k va n).2.copies = s.copies := by
  unfold State.reach
  split
  · split
    · rfl
    · split <;> rfl
  · exact (s.translate_fetchKept ..).writeBackWork.copies

theorem State.merge_copies (s : State) (die ctx gen page : Nat) (k : Access) (cause : Nat) (engine : Bool) :
    (s.merge die ctx gen page k cause engine).2.copies = s.copies := by
  unfold State.merge
  split
  · rfl
  · split
    · rfl
    · exact (State.flushPrqN_keeps _ _).1.copies

theorem State.engineReach_copies (s : State) (c : Client) (e : EngWait) (k : Access) (va n : Nat) :
    (s.engineReach c e k va n).2.1.copies = s.copies := by
  unfold State.engineReach
  dsimp only
  split
  · rfl
  · split
    · rfl
    · have h := s.reach_copies c.ctx c.gen c.bundle c.cluster k (BitVec.ofNat 80 va) n
      generalize s.reach c.ctx c.gen c.bundle c.cluster k (BitVec.ofNat 80 va) n = x at h ⊢
      obtain ⟨r, s1⟩ := x
      cases r with
      | ok key loc => exact h
      | fault cls detail => exact h
      | host cause =>
        have hm := s1.merge_copies (dieOf c.cluster) c.ctx c.gen (va / 2 ^ 12) k cause true
        dsimp only
        generalize s1.merge (dieOf c.cluster) c.ctx c.gen (va / 2 ^ 12) k cause true = y at hm ⊢
        obtain ⟨uid, s2⟩ := y
        cases uid <;> exact hm.trans h

theorem State.fetchSec_copies (c : Client) (x : Memo × State × EngWait) (sec : Nat) : (State.fetchSec c x sec).2.1.copies = x.2.1.copies := by
  obtain ⟨m, s, e⟩ := x
  unfold State.fetchSec
  dsimp only
  split
  · rfl
  · have h := s.engineReach_copies c e .load (sec * 32) 1
    generalize s.engineReach c e .load (sec * 32) 1 = y at h ⊢
    obtain ⟨r, s1, e1⟩ := y
    cases r <;> exact h

theorem State.fetchSecs_copies (s : State) (c : Client) (e : EngWait) (m : Memo) (secs : List Nat) :
    (s.fetchSecs c e m secs).2.1.copies = s.copies :=
  foldl_keeps (P := fun x : Memo × State × EngWait => x.2.1.copies = s.copies) (fun x _ h => (State.fetchSec_copies c x _).trans h) secs rfl

theorem State.fetchImage_copies (s : State) (c : Client) (e : EngWait) (m : Memo) (t : Tlr) (rows : List Nat) :
    (s.fetchImage c e m t rows).2.1.copies = s.copies := by
  unfold State.fetchImage
  split
  · exact s.fetchSecs_copies ..
  · exact (State.fetchSecs_copies ..).trans (s.fetchSecs_copies ..)

theorem State.barUpdate_copies (s : State) (ctx gen key : Nat) (f : Nat → Nat) : (s.barUpdate ctx gen key f).copies = s.copies :=
  (s.homeAtomic_homeWork ctx gen (keyVa key) key 16 f).copies

theorem State.refreshImage_copies (s : State) (tid : Nat) : (s.refreshImage tid).copies = s.copies := by
  unfold State.refreshImage
  split
  · split
    · rfl
    · dsimp only
      split
      · rfl
      · split
        · rfl
        · dsimp only
          exact (s.homeStore_homeWork _ _ _ _).copies
  · rfl

theorem State.finishOp_copies (s : State) (tid op : Nat) : (s.finishOp tid op).copies = s.copies := by
  obtain ⟨_, _, _, _, he⟩ := (s.updTeam tid (·.complete op)).settleFences_eq tid
  rw [State.finishOp, State.refreshImage_copies, he]
  rfl

/-- With no image saved an operation that finishes leaves memory. -/
theorem State.finishOp_of_images_nil {s : State} (h : s.images = []) (tid op : Nat) :
    (s.finishOp tid op).mem = s.mem ∧ (s.finishOp tid op).images = [] := by
  have hsettle : ((s.updTeam tid (·.complete op)).settleFences tid).mem = s.mem ∧ ((s.updTeam tid (·.complete op)).settleFences tid).images = [] := by
    obtain ⟨_, _, _, _, he⟩ := (s.updTeam tid (·.complete op)).settleFences_eq tid
    rw [he]
    exact ⟨rfl, h⟩
  unfold State.finishOp
  generalize (s.updTeam tid (·.complete op)).settleFences tid = u at hsettle ⊢
  have hnone : u.refreshImage tid = u := by
    unfold State.refreshImage
    rw [hsettle.2]
    split
    · next hi => cases hi
    · rfl
  rw [hnone]
  exact hsettle

/-! ### A copy by its number -/

/-- The copy of a number. -/
def State.copy? (s : State) (id : Nat) : Option Copy := s.copies.find? (·.id == id)

theorem State.copy?_of_copies {s t : State} (h : t.copies = s.copies) (id : Nat) : t.copy? id = s.copy? id := by
  rw [State.copy?, h, State.copy?]

theorem State.copy?_id {s : State} {id : Nat} {c : Copy} (h : s.copy? id = some c) : c.id = id := by
  simpa using List.find?_some h

/-- A copy changed, its number kept. -/
theorem State.copy?_updCopy (s : State) (id n : Nat) {f : Copy → Copy} (hf : ∀ c, c.id = n → (f c).id = n) :
    (s.updCopy n f).copy? id = (s.copy? id).map fun c => if c.id = n then f c else c := by
  have hid : ((fun c : Copy => c.id == id) ∘ fun c => if c.id = n then f c else c) = fun c => c.id == id := by
    funext c
    by_cases h : c.id = n
    · simp [h, hf c h]
    · simp [h]
  rw [State.copy?, State.updCopy, List.find?_map, hid, ← State.copy?]

/-- The copy of a number changed. -/
theorem State.copy?_updCopy_self (s : State) (id : Nat) {f : Copy → Copy} (hf : ∀ c, c.id = id → (f c).id = id) :
    (s.updCopy id f).copy? id = (s.copy? id).map f := by
  rw [s.copy?_updCopy id id hf]
  cases h : s.copy? id with
  | none => rfl
  | some c => simp [State.copy?_id h]

/-- A copy of this number, if there is one, has started. -/
def State.Started (s : State) (id : Nat) : Prop := ∀ c, s.copy? id = some c → c.started = true

section
variable {s : State} {id : Nat}

theorem State.Started.of_copies (h : s.Started id) {t : State} (ht : t.copies = s.copies) : t.Started id := by
  rwa [State.Started, State.copy?_of_copies ht]

/-- A change of copies that keeps their numbers and their start. -/
theorem State.Started.updCopy (h : s.Started id) {n : Nat} {f : Copy → Copy} (hid : ∀ c, (f c).id = c.id) (hs : ∀ c, (f c).started = c.started) :
    (s.updCopy n f).Started id := by
  intro d hd
  rw [s.copy?_updCopy id n fun c hc => (hid c).trans hc] at hd
  obtain ⟨c, hc, rfl⟩ := Option.map_eq_some_iff.1 hd
  split
  · exact (hs c).trans (h c hc)
  · exact h c hc

theorem State.Started.pipeTiles (h : s.Started id) (core copy : Nat) (tiles : List Nat) : (s.pipeTiles core copy tiles).Started id :=
  h.of_copies rfl

theorem State.Started.marked (h : s.Started id) (wrong : Bool) (ctx gen key : Nat) (f : Nat → Nat) :
    (if wrong then s.barUpdate ctx gen key f else s).Started id := by
  split
  · exact h.of_copies (s.barUpdate_copies ..)
  · exact h

theorem State.Started.readIn (h : s.Started id) (c : Copy) (sl : CopySlice) (t : Tlr) (rows : List Nat) : (s.readIn c sl t rows).Started id := by
  have h1 := h.of_copies (s.fetchImage_copies c.client c.eng sl.src t rows)
  unfold State.readIn
  generalize s.fetchImage c.client c.eng sl.src t rows = x at h1 ⊢
  obtain ⟨m, s1, e1⟩ := x
  dsimp only at h1 ⊢
  split
  · exact (h1.updCopy (by exact fun _ => rfl) (by exact fun _ => rfl)).pipeTiles _ _ _
  · exact h1.updCopy (by exact fun _ => rfl) (by exact fun _ => rfl)

theorem State.Started.readSlice (h : s.Started id) (n idx : Nat) : (s.readSlice n idx).Started id := by
  unfold State.readSlice
  split
  · exact h
  · split
    · exact h
    · dsimp only
      split
      · exact h.updCopy (fun _ => rfl) fun _ => rfl
      · split
        · exact h.updCopy (fun _ => rfl) fun _ => rfl
        · exact h.readIn _ _ _ _

end

/-- A copy that a change starts. -/
theorem State.started_updCopy {s : State} {id : Nat} {f : Copy → Copy} (hid : ∀ c, c.id = id → (f c).id = id) (hs : ∀ c, (f c).started = true) :
    (s.updCopy id f).Started id := by
  intro d hd
  rw [s.copy?_updCopy_self id hid] at hd
  obtain ⟨c, _, rfl⟩ := Option.map_eq_some_iff.1 hd
  exact hs c

/-! ### A slice checked (spec/09 R168, R171) -/

/-- A copy with a slice retired. -/
def Copy.retire (c : Copy) (idx : Nat) : Copy :=
  { c with slices := c.slices.map fun y => if y.idx = idx then { y with retired := true } else y }

/-- A state after an operation of a slice has finished and the slice has been retired. -/
def State.retireSlice (s : State) (id idx : Nat) (sl : CopySlice) : State := (s.finishOp sl.tid sl.op).updCopy id (·.retire idx)

theorem State.retireSlice_copy? (s : State) (id idx : Nat) (sl : CopySlice) :
    (s.retireSlice id idx sl).copy? id = (s.copy? id).map (·.retire idx) := by
  rw [State.retireSlice, State.copy?_updCopy_self _ id (by exact fun _ h => h), State.copy?_of_copies (s.finishOp_copies _ _)]

/-- A copy taken off the list. -/
def State.offCopies (s : State) (id : Nat) (c : Copy) : State := { s.dropRange c with copies := (s.dropRange c).copies.filter (·.id != id) }

theorem State.retireSlice_mem (s : State) (id idx : Nat) (sl : CopySlice) : (s.retireSlice id idx sl).mem = (s.finishOp sl.tid sl.op).mem := rfl
theorem State.offCopies_mem (s : State) (id : Nat) (c : Copy) : (s.offCopies id c).mem = s.mem := rfl

/-- The checks of a slice: nothing to do; the slice retires; the copy retires with it, a failure reported. -/
theorem State.sliceCheck_cases (s : State) (id idx : Nat) :
    s.sliceCheck id idx = s ∨ ∃ sl u, s.retireSlice id idx sl = u ∧ (s.sliceCheck id idx = u ∨
      ∃ c, s.copy? id = some c ∧ ((c.fail = none ∧ s.sliceCheck id idx = u.offCopies id (c.retire idx)) ∨
        ∃ tile addr, c.fail = some tile ∧ s.sliceCheck id idx = (u.offCopies id (c.retire idx)).report 5 1 c.cluster c.ctx c.gen tile addr)) := by
  unfold State.sliceCheck
  split
  · exact .inl rfl
  · next c hc =>
    split
    · exact .inl rfl
    · next sl _ =>
      split
      · exact .inl rfl
      · have h1 := s.retireSlice_copy? id idx sl
        rw [show s.copy? id = some c from hc] at h1
        dsimp only
        generalize hu : (s.finishOp sl.tid sl.op).updCopy id _ = u
        rw [show s.retireSlice id idx sl = u from hu] at h1
        refine .inr ⟨sl, u, hu, ?_⟩
        split
        · exact .inl rfl
        · next c1 hc1 =>
          obtain rfl : c.retire idx = c1 := Option.some.inj (h1.symm.trans hc1)
          split
          · split
            · next tile hf => exact .inr ⟨c, hc, .inr ⟨tile, _, hf, rfl⟩⟩
            · next hf => exact .inr ⟨c, hc, .inl ⟨hf, rfl⟩⟩
          · exact .inl rfl

theorem State.offCopies_copy? (s : State) (id : Nat) (c : Copy) : (s.offCopies id c).copy? id = none :=
  List.find?_eq_none.2 fun x hx => by simpa using (List.mem_filter.1 hx).2

/-- What remains of a copy whose slice is checked is the copy with slices retired. -/
theorem State.sliceCheck_copy? {s : State} {id idx : Nat} {d : Copy} (h : (s.sliceCheck id idx).copy? id = some d) :
    ∃ c, s.copy? id = some c ∧ d = { c with slices := d.slices } := by
  obtain he | ⟨sl, u, rfl, he | ⟨c, -, ⟨-, he⟩ | ⟨tile, addr, -, he⟩⟩⟩ := s.sliceCheck_cases id idx
  · exact ⟨d, he ▸ h, rfl⟩
  · rw [he, State.retireSlice_copy?] at h
    obtain ⟨c, hc, rfl⟩ := Option.map_eq_some_iff.1 h
    exact ⟨c, hc, rfl⟩
  · rw [he, State.offCopies_copy?] at h
    cases h
  · rw [he, State.copy?_of_copies (State.report_homeWork ..).copies, State.offCopies_copy?] at h
    cases h

/-- With no image saved and nothing failed, a check of a slice leaves memory. -/
theorem State.sliceCheck_mem {s : State} {id : Nat} (hi : s.images = []) (hf : ∀ c, s.copy? id = some c → c.fail = none) (idx : Nat) :
    (s.sliceCheck id idx).mem = s.mem := by
  obtain he | ⟨sl, u, rfl, he | ⟨c, hc, ⟨-, he⟩ | ⟨tile, addr, htile, -⟩⟩⟩ := s.sliceCheck_cases id idx
  · rw [he]
  · rw [he, State.retireSlice_mem, (State.finishOp_of_images_nil hi _ _).1]
  · rw [he, State.offCopies_mem, State.retireSlice_mem, (State.finishOp_of_images_nil hi _ _).1]
  · rw [hf c hc] at htile
    cases htile

theorem State.Started.sliceCheck {s : State} {id : Nat} (h : s.Started id) (idx : Nat) : (s.sliceCheck id idx).Started id := by
  intro d hd
  obtain ⟨c, hc, hdc⟩ := State.sliceCheck_copy? hd
  rw [hdc]
  exact h c hc

/-! ### The start of a copy (spec/09 R163) -/

/-- A copy that is missing a slice, is blocked or has a halted core does not start. -/
theorem exec_copyStart_waits {s : State} {c : Copy} (hc : s.copy? c.id = some c)
    (h : c.slices.length < c.n ∨ (c.started = false ∧ s.copyBlocked c = true) ∨ c.cores.any s.halted = true) :
    exec (.copyStart c.id) s = .next s := by
  have hg : c.slices.length < c.n ∨ (¬ c.started ∧ s.copyBlocked c) ∨ c.cores.any s.halted := by simpa using h
  rw [State.copy?] at hc
  show execCopyStart c.id s = _
  simp only [execCopyStart, hc, if_pos hg]

/-- A copy with all its slices that nothing blocks has started, or has retired. -/
theorem exec_copyStart_starts {s : State} {c : Copy} (hc : s.copy? c.id = some c) (hn : c.n ≤ c.slices.length)
    (hb : c.started = true ∨ s.copyBlocked c = false) (hh : c.cores.any s.halted = false) :
    ∃ t, exec (.copyStart c.id) s = .next t ∧ t.Started c.id := by
  have hg : ¬ (c.slices.length < c.n ∨ (¬ c.started ∧ s.copyBlocked c) ∨ c.cores.any s.halted) := by
    rw [hh]
    rcases hb with hb | hb <;> simp [hb, hn]
  have hc' := hc
  rw [State.copy?] at hc
  refine ⟨_, (show execCopyStart c.id s = _ by simp only [execCopyStart, hc, if_neg hg]; rfl), ?_⟩
  refine foldl_keeps (P := fun t : State => t.Started c.id) (fun t i ht => ht.sliceCheck i) _ ?_
  refine foldl_keeps (P := fun t : State => t.Started c.id) (fun t i ht => ht.readSlice c.id i) _ ?_
  split
  · next hst =>
    intro d hd
    obtain rfl := Option.some.inj (hc'.symm.trans hd)
    exact hst
  · exact (State.started_updCopy (by exact fun _ h => h) (by exact fun _ => rfl)).marked _ _ _ _ _

/-! ### One sector performed (spec/09 R167) -/

/-- A sector of a copy in that is not piped is stored at home and counted off. -/
theorem exec_copySectorPerformed_near {s : State} {c : Copy} {k : Nat} {j : Job} {bs : List (Nat × Byte)} (hc : s.copy? c.id = some c)
    (hj : c.jobs[k]? = some j) (hp : j.piped = false) (hk : j.kind = .near bs) (hform : c.form = 0) :
    exec (.copySectorPerformed c.id k) s =
      .next (((s.updCopy c.id fun _ => c).homeStore c.ctx c.gen (keyVa (bs.headD (0, 0)).1) bs).countOff c k j.slice 0 none) := by
  rw [State.copy?] at hc
  show execCopySectorPerformed c.id k s = _
  simp [execCopySectorPerformed, hc, hj, hp, hk, State.reachTarget, State.settle, hform]

/-- A sector of a copy in counted off: the barrier is updated, the sector leaves the copy, and the slice is checked. -/
theorem State.countOff_near {s : State} {c : Copy} (hform : c.form = 0) (k slice : Nat) :
    s.countOff c k slice 0 none = ((s.barUpdate c.ctx c.gen c.bar (barOff (s.barStuck c.bar) 0)).updCopy c.id
      fun x => { x with jobs := x.jobs.eraseIdx k }).sliceCheck c.id slice := by
  simp [State.countOff, hform]

/-- After it the barrier's fields are those of the rule, no other byte has changed, and the sector is no longer to be performed. -/
theorem State.countOff_near_reads {s : State} {c : Copy} (hform : c.form = 0) (hfail : c.fail = none) (hc : s.copy? c.id = some c)
    (hi : s.images = []) (hp : s.poisoned c.bar = false) (hw : Memory.wf s.mem = true) (k slice : Nat) :
    (barPhase ((s.countOff c k slice 0 none).homeNat c.bar 16), barArrivals ((s.countOff c k slice 0 none).homeNat c.bar 16),
      barSectors ((s.countOff c k slice 0 none).homeNat c.bar 16), barStatus ((s.countOff c k slice 0 none).homeNat c.bar 16)) =
        Claim.offRule (s.barStuck c.bar) 0 (s.homeNat c.bar 16) ∧
      (∀ a, a < c.bar ∨ c.bar + 16 ≤ a → (s.countOff c k slice 0 none).homeByte a = s.homeByte a) ∧
      ∀ d, (s.countOff c k slice 0 none).copy? c.id = some d → d.jobs = c.jobs.eraseIdx k := by
  obtain ⟨hrule, hsmall⟩ := barOff_rule (s.barStuck c.bar) (by decide : 0 < 2 ^ 3) (s.homeNat c.bar 16)
  obtain ⟨hnat, hbyte⟩ := State.barUpdate_reads hp hw hsmall c.ctx c.gen
  have himages : (s.barUpdate c.ctx c.gen c.bar (barOff (s.barStuck c.bar) 0)).images = [] := by
    rw [State.barUpdate_of_sound hp]
    exact hi
  have hcopy := s.barUpdate_copies c.ctx c.gen c.bar (barOff (s.barStuck c.bar) 0)
  rw [State.countOff_near hform]
  generalize s.barUpdate c.ctx c.gen c.bar (barOff (s.barStuck c.bar) 0) = u at hnat hbyte himages hcopy ⊢
  have hjobs : (u.updCopy c.id fun x => { x with jobs := x.jobs.eraseIdx k }).copy? c.id = some { c with jobs := c.jobs.eraseIdx k } := by
    rw [State.copy?_updCopy_self _ _ (by exact fun _ h => h), State.copy?_of_copies hcopy, hc]
    rfl
  have hmem : ((u.updCopy c.id fun x => { x with jobs := x.jobs.eraseIdx k }).sliceCheck c.id slice).mem = u.mem :=
    State.sliceCheck_mem (by exact himages) (fun d hd => by rw [hjobs] at hd; rw [← Option.some.inj hd]; exact hfail) slice
  refine ⟨?_, fun a ha => ?_, fun d hd => ?_⟩
  · rw [State.homeNat, hmem, ← State.homeNat, hnat]
    exact hrule
  · rw [State.homeByte, hmem]
    exact hbyte a ha
  · obtain ⟨c', hc', hd'⟩ := State.sliceCheck_copy? hd
    rw [hjobs] at hc'
    rw [hd', ← Option.some.inj hc']

end Sys2Proof.Machine

namespace Sys2Proof.Claim
open Sys2Proof Sys2Proof.Machine

/-- Settles O38: a start leaves copies started through its write-backs, reads and checks; a sector performed is bytes at home, then the barrier counted
off beside them. -/
theorem copySectorsCountOff : Obligations.CopySectorsCountOff := by
  refine ⟨fun s c hc => ⟨exec_copyStart_waits hc, exec_copyStart_starts hc⟩, ?_⟩
  intro s c k j bs hc hj hp hk hform hfail _ hnd hi hbar hpoison hlink hblink hw
  have hsound (x : Nat) (hx : s.linkDown x = none) : s.poisoned x = false := by
    simp [State.poisoned, hpoison, hx]
  have hperf : Performed (s.updCopy c.id fun _ => c) ((s.updCopy c.id fun _ => c).homeStore c.ctx c.gen (keyVa (bs.headD (0, 0)).1) bs) bs :=
    State.homeStore_of_sound (s := s.updCopy c.id fun _ => c) (fun x hx => hsound x.1 (hlink x hx)) _ _ _
  refine ⟨_, exec_copySectorPerformed_near hc hj hp hk hform, ?_⟩
  obtain ⟨waits, he⟩ := hperf
  rw [he]
  have hbyte (a : Nat) (ha : ∀ x ∈ bs, x.1 ≠ a) : readCell (writePairs s.mem bs) a = readCell s.mem a := readCell_writePairs_other hw bs a ha
  have hnat : readCells (writePairs s.mem bs) c.bar 16 = readCells s.mem c.bar 16 :=
    readCells_congr (Memory.wf_writePairs bs hw) hw _ _ fun a h1 h2 => hbyte a fun x hx hxa => by
      have := hbar x hx
      omega
  have hcopy : ({ s.updCopy c.id fun _ => c with mem := writePairs s.mem bs, waits := waits } : State).copy? c.id = some c := by
    rw [State.copy?_of_copies (s := s.updCopy c.id fun _ => c) (by rfl), State.copy?_updCopy_self _ _ (by exact fun _ _ => rfl),
      show s.copy? c.id = some c from hc]
    rfl
  obtain ⟨hfields, hother, hjobs⟩ := State.countOff_near_reads hform hfail hcopy hi (hsound c.bar hblink) (Memory.wf_writePairs bs hw) k j.slice
  refine ⟨fun x hx => ?_, fun a ha hab => ?_, hfields.trans (congrArg _ hnat), hjobs⟩
  · exact (hother x.1 (hbar x hx)).trans (readCell_writePairs_mem hw bs hnd hx)
  · exact (hother a hab).trans (hbyte a ha)

end Sys2Proof.Claim
end

section
/-!
O37: a slice of a copy issued: the record as the team sees it, the dirty sectors of its range, its operation, its place in its copy, its barrier; and the
gate of a group that holds the word.
-/
namespace Sys2Proof.Machine
open Sys2Proof

/-! ### Dirty sectors written back (spec/09 R168) -/

theorem FetchKept.dirty {s t : State} (h : FetchKept s t) : t.dirty = s.dirty := by
  obtain ⟨_, _, _, _, rfl⟩ := h
  rfl

theorem HomeWork.dirty {s t : State} (h : HomeWork s t) : t.dirty = s.dirty := by
  obtain ⟨_, _, _, _, _, rfl⟩ := h
  rfl

/-- A write-back removes its sector or pins it, and makes no sector dirty. -/
theorem State.writeBack_dirty {s : State} {d x : Dirty} {byRel : Bool} (hx : x ∈ (s.writeBack d byRel).1.dirty) (hp : x.pinned = false) :
    x ∈ s.dirty ∧ ¬ (x.core = d.core ∧ x.key = d.key) := by
  have hdrop {u : State} (hu : u.dirty = s.dirty) (h : x ∈ (u.dropDirty d).dirty) : x ∈ s.dirty ∧ ¬ (x.core = d.core ∧ x.key = d.key) := by
    obtain ⟨hmem, hne⟩ := List.mem_filter.1 h
    exact ⟨hu ▸ hmem, not_and_or.2 (by simpa using hne)⟩
  unfold State.writeBack at hx
  split at hx
  · rw [State.writeBackOld, (State.homeStore_homeWork ..).dirty] at hx
    exact hdrop rfl hx
  · have hk := s.translate_fetchKept (d.core / 8) d.ctx d.gen .store d.va.toNat
    split at hx
    · next s1 he =>
      rw [he] at hk
      rw [(State.homeStore_homeWork ..).dirty] at hx
      exact hdrop hk.dirty hx
    · next s1 _ he =>
      rw [he] at hk
      dsimp only at hx
      split at hx
      · obtain ⟨y, hy, hyx⟩ := List.mem_map.1 (show x ∈ s1.dirty.map _ from hx)
        split at hyx
        · rw [← hyx] at hp
          cases hp
        · next hne =>
          rw [← hyx]
          exact ⟨hk.dirty ▸ hy, hne⟩
      · rw [(s1.lose_homeWork d).dirty] at hx
        exact hdrop hk.dirty hx

/-- What write-backs leave dirty without a pin was dirty before, in none of their places. -/
theorem State.writeBackAll_dirty {ds : List Dirty} {s : State} {x : Dirty} {byRel : Bool} (hx : x ∈ (s.writeBackAll byRel ds).1.dirty)
    (hp : x.pinned = false) : x ∈ s.dirty ∧ x ∉ ds := by
  induction ds generalizing s with
  | nil => exact ⟨hx, List.not_mem_nil⟩
  | cons d ds ih =>
    obtain ⟨h1, hds⟩ := ih (show x ∈ ((s.writeBack d byRel).1.writeBackAll byRel ds).1.dirty from hx)
    obtain ⟨h0, hd⟩ := State.writeBack_dirty h1 hp
    exact ⟨h0, fun h => (List.mem_cons.1 h).elim (fun e => hd ⟨congrArg Dirty.core e, congrArg Dirty.key e⟩) hds⟩

/-- After a range is written back each dirty sector of it is pinned. -/
theorem State.flushRange_dirty {s : State} {cluster ctx : Nat} {range : List Nat} {x : Dirty} (hx : x ∈ (s.flushRange cluster ctx range).dirty)
    (hcl : x.core / 8 = cluster) (hctx : x.ctx = ctx) (hr : range.contains (x.va.toNat / 32) = true) : x.pinned = true := by
  by_contra hp
  rw [Bool.not_eq_true] at hp
  obtain ⟨hs, hnot⟩ := State.writeBackAll_dirty (show x ∈ (s.writeBackAll false _).1.dirty from hx) hp
  exact hnot (List.mem_filter.2 ⟨hs, by rw [hcl, hctx, hp, hr]; simp⟩)

theorem State.flushRange_work (s : State) (cluster ctx : Nat) (range : List Nat) : WriteBackWork s (s.flushRange cluster ctx range) :=
  (State.writeBackAll_work _ s false).trans ⟨_, _, _, _, _, _, _, _, .refl _⟩

theorem WriteBackWork.nextId {s t : State} (h : WriteBackWork s t) : t.nextId = s.nextId := by
  obtain ⟨_, _, _, _, _, _, _, _, _, _, _, _, _, rfl⟩ := h
  rfl

/-! ### Sectors added to a barrier (spec/09 R167) -/

theorem State.barUpdate_me {s : State} (h : s.me.flow.hold = .none) (ctx gen key : Nat) (f : Nat → Nat) : (s.barUpdate ctx gen key f).me = s.me := by
  have hk : (s.homeAtomic ctx gen (keyVa key) key 16 f).2.me = s.me := by
    obtain ⟨_, _, _, _, _, he⟩ := s.homeAtomic_homeWork ctx gen (keyVa key) key 16 f
    rw [he]
  rw [State.barUpdate, State.barRelease_me (by rw [hk]; exact h), hk]

/-- Sectors added are an update of the barrier, beside what holds its phase. -/
theorem State.barAddSectors_eq (s : State) (ctx gen key n : Nat) :
    ∃ stuck, s.barAddSectors ctx gen key n = ({ s with stuck := stuck } : State).barUpdate ctx gen key (barAdd n) := by
  unfold State.barAddSectors
  split
  · exact ⟨_, rfl⟩
  · exact ⟨s.stuck, rfl⟩

/-! ### The layout record as it is seen (spec/09 R164) -/

/-- A sector as the team in issue may see it: as it stands, or as it was before a store that the team has not yet to see. -/
def State.SeenSector (s : State) (key : Nat) (bs : List Byte) : Prop :=
  bs = s.homeBytes key 32 ∨ ∃ e ∈ s.edits, e.key = key ∧ e.unseen s.me = true ∧ bs = e.old

/-- A sector of a snapshot is one that the team may see; a choice among them draws one free value. -/
theorem State.snapSector_seen (s : State) (key : Nat) :
    (∃ f, (s.snapSector key).2 = { s with fresh := f }) ∧ s.SeenSector key (s.snapSector key).1 := by
  have hold : ∀ bs ∈ ((s.edits.filter (·.key == key)).takeWhile (Edit.unseen s.me)).map (·.old), s.SeenSector key bs := by
    intro bs hbs
    obtain ⟨e, he, rfl⟩ := List.mem_map.1 hbs
    obtain ⟨hmem, hkey⟩ := List.mem_filter.1 ((List.takeWhile_subset _) he)
    exact .inr ⟨e, hmem, by simpa using hkey, List.mem_takeWhile_imp he, rfl⟩
  unfold State.snapSector
  dsimp only
  generalize ((s.edits.filter (·.key == key)).takeWhile (Edit.unseen s.me)).map (·.old) = olds at hold ⊢
  split
  · exact ⟨⟨_, rfl⟩, .inl rfl⟩
  · refine ⟨⟨_, rfl⟩, ?_⟩
    have hlt : s.draw.1 % (olds.length + 1) < (s.homeBytes key 32 :: olds).length := Nat.mod_lt _ (Nat.succ_pos _)
    dsimp only
    rw [List.getD_eq_getElem _ _ hlt]
    exact (List.mem_cons.1 (List.getElem_mem hlt)).elim .inl (hold _)

/-- The sectors of a snapshot in turn. -/
theorem State.snapSectors_seen (keys : List Nat) (s : State) :
    (∃ f, (s.snapSectors keys).2 = { s with fresh := f }) ∧
      ∃ secs : List (List Byte), (s.snapSectors keys).1 = secs.flatten ∧ List.Forall₂ s.SeenSector keys secs := by
  induction keys generalizing s with
  | nil => exact ⟨⟨_, rfl⟩, [], rfl, .nil⟩
  | cons key keys ih =>
    obtain ⟨⟨f, hf⟩, hsec⟩ := s.snapSector_seen key
    obtain ⟨⟨g, hg⟩, secs, hbs, hall⟩ := ih (s.snapSector key).2
    refine ⟨⟨g, hg.trans (by rw [hf])⟩, (s.snapSector key).1 :: secs, congrArg _ hbs, .cons hsec ?_⟩
    rw [hf] at hall
    exact hall

/-- Blocks of one length are found in turn. -/
theorem take_drop_flatten {α : Type} {n : Nat} {bs : List (List α)} (h : ∀ b ∈ bs, b.length = n) {j : Nat} (hj : j < bs.length) :
    (bs.flatten.drop (n * j)).take n = bs[j] := by
  induction bs generalizing j with
  | nil => exact absurd hj (Nat.not_lt_zero _)
  | cons b bs ih =>
    have hb : b.length = n := h b (by simp)
    cases j with
    | zero => simp [← hb]
    | succ j =>
      rw [List.flatten_cons, Nat.mul_succ, Nat.add_comm, ← List.drop_drop, ← hb, List.drop_left, List.getElem_cons_succ, hb]
      exact ih (fun c hc => h c (List.mem_cons_of_mem _ hc)) _

/-- A snapshot of a sound record is a record as the team may see it. -/
theorem State.snapshot_seen {s : State} {key : Nat} (hs : Claim.Sound s key 128) (he : ∀ e ∈ s.edits, e.old.length = 32) (off : Nat) :
    (∃ f, (s.snapshot off key).2 = { s with fresh := f }) ∧ Claim.SeenRecord s key (s.snapshot off key).1 := by
  obtain ⟨hf, secs, hbs, hall⟩ := s.snapSectors_seen ((List.range 4).map fun i => key + 32 * i)
  have hsound : ((List.range 4).map fun i => key + 32 * i).find? s.poisoned = none := by
    refine List.find?_eq_none.2 fun k hk => ?_
    obtain ⟨i, hi, rfl⟩ := List.mem_map.1 hk
    rw [hs (32 * i) (by have := List.mem_range.1 hi; omega)]
    exact Bool.false_ne_true
  have hsnap : s.snapshot off key = s.snapSectors ((List.range 4).map fun i => key + 32 * i) := by
    simp only [State.snapshot, hsound]
  have hlen : secs.length = 4 := by simpa using hall.length_eq.symm
  have hsec (j : Nat) (hj : j < secs.length) : s.SeenSector (key + 32 * j) secs[j] := by
    have := (List.forall₂_iff_get.1 hall).2 j (by simpa using hlen ▸ hj) hj
    simpa only [List.get_eq_getElem, List.getElem_map, List.getElem_range] using this
  have hblock : ∀ b ∈ secs, b.length = 32 := by
    intro b hb
    obtain ⟨j, hj, rfl⟩ := List.mem_iff_getElem.1 hb
    obtain hk | ⟨e, hmem, -, -, hold⟩ := hsec j hj
    · rw [hk, length_homeBytes]
    · rw [hold, he e hmem]
  rw [hsnap, hbs]
  refine ⟨hf, ?_, fun j hj => ?_⟩
  · rw [List.length_flatten, List.map_congr_left hblock]
    simp [hlen]
  · rw [take_drop_flatten hblock (hlen ▸ hj)]
    obtain hk | ⟨e, hmem, hkey, hun, hold⟩ := hsec j (hlen ▸ hj)
    · exact .inl hk
    · refine .inr ⟨e, hmem, hkey, fun ht => ?_, fun ht => ?_, hold⟩ <;> simpa [Edit.unseen, ht] using hun

/-! ### The copy that a slice joins (spec/09 R163, spec/10 R192) -/

/-- What `joinCopy` finds is a copy of the form, record, barrier, count and cluster. -/
theorem State.joinCopy_some {s : State} {form tlr bar n : Nat} {c : Copy} (h : s.joinCopy form tlr bar n = some c) :
    c ∈ s.copies ∧ c.form = form ∧ c.tlr = tlr ∧ c.bar = bar ∧ c.n = n ∧ c.cluster = s.me.cluster := by
  have hp := List.find?_some h
  simp only [Bool.and_eq_true, beq_iff_eq, decide_eq_true_eq] at hp
  obtain ⟨⟨⟨⟨⟨⟨⟨⟨⟨hform, htlr⟩, hbar⟩, hn⟩, -⟩, hcl⟩, -⟩, -⟩, -⟩, -⟩ := hp
  exact ⟨List.mem_of_find?_eq_some h, hform, htlr, hbar, hn, hcl⟩

/-- A slice of a copy of the form, record, barrier, count and cluster. -/
def State.HasSlice (s : State) (form tlr bar n cluster : Nat) (sl : CopySlice) : Prop :=
  ∃ c ∈ s.copies, c.form = form ∧ c.tlr = tlr ∧ c.bar = bar ∧ c.n = n ∧ c.cluster = cluster ∧ sl ∈ c.slices

/-- The slice that a word of the team in issue makes, of the record as it sees it. -/
def State.newSlice (s : State) (form n i mask : Nat) (x : W128) (snap : List Byte) : CopySlice :=
  let t := parseTlr snap
  let rows := rowsFrom (sliceRows t i n).1 (sliceRows t i n).2
  ⟨i, s.me.id.tid, s.nextId, s.me.core, x, snap, s.me.h (Fin.ofNat 4 t.thr), s.sliceSectors form s.me.core s.me.id.bundle mask t x rows,
    s.sliceRange form s.me.core s.me.id.bundle t x rows, [], [], false, false⟩

/-- The state once the range of a slice is written back, its operation is issued and its sectors are added to the barrier. -/
def State.sliceCounted (s : State) (bar : Nat) (dests : List Dest) (sl : CopySlice) : State :=
  ((s.flushRange s.me.cluster s.me.id.ctx sl.range).issueOp .cp false [] [] dests none).2.barAddSectors s.me.id.ctx s.me.id.gen bar sl.sectors

theorem State.sliceCounted_copies (s : State) (bar : Nat) (dests : List Dest) (sl : CopySlice) : (s.sliceCounted bar dests sl).copies = s.copies := by
  obtain ⟨_, he⟩ := ((s.flushRange s.me.cluster s.me.id.ctx sl.range).issueOp .cp false [] [] dests none).2.barAddSectors_eq s.me.id.ctx s.me.id.gen
    bar sl.sectors
  rw [State.sliceCounted, he, State.barUpdate_copies, State.issueOp_state]
  exact (s.flushRange_work ..).copies

/-- A slice issued: beside the copies and the next identifier the state is the one above, and the slice stands in its copy. -/
theorem State.issueSlice_slice (s : State) (form bar n i mask rec_ tlr : Nat) (x : W128) (snap : List Byte) :
    ∃ dests copies next, s.issueSlice form bar n i mask rec_ tlr x snap =
        { s.sliceCounted bar dests (s.newSlice form n i mask x snap) with copies := copies, nextId := next } ∧
      (s.issueSlice form bar n i mask rec_ tlr x snap).HasSlice form tlr bar n s.me.cluster (s.newSlice form n i mask x snap) := by
  have hid := (s.flushRange_work s.me.cluster s.me.id.ctx (s.newSlice form n i mask x snap).range).nextId
  unfold State.newSlice at *
  unfold State.issueSlice
  dsimp only at hid ⊢
  rw [State.issueOp_id, hid]
  split
  · next c hc =>
    obtain ⟨hmem, hform, htlr, hbar, hn, hcl⟩ := State.joinCopy_some hc
    refine ⟨_, _, _, rfl, _, List.mem_map.2 ⟨c, ?_, if_pos rfl⟩, hform, htlr, hbar, hn, hcl, List.mem_append_right _ (List.mem_singleton_self _)⟩
    exact (s.sliceCounted_copies bar _ (s.newSlice form n i mask x snap)) ▸ hmem
  · exact ⟨_, _, _, rfl, _, List.mem_append_right _ (List.mem_singleton_self _), rfl, rfl, rfl, rfl, rfl, List.mem_singleton_self _⟩

/-! ### An operation issued with no pending register (spec/09 R160, R161) -/

/-- A word that issues an operation whose results go to no register and goes on changes its operations and its position. -/
theorem Team.issues_addOp (t : Team) (id : Nat) (cls : OpClass) (ready : Bool) (ws : List RegWrite) (dests : List Dest) (acq : Option Scope) :
    Claim.Issues t (t.addOp ⟨id, cls, ready, false, ws, [], [], dests, acq, none, none⟩).advance id cls ready ws [] where
  op := ⟨dests, acq, by rw [Team.advance_flow]; rfl⟩
  regs := by
    rw [Team.advance_regs]
    simp [Team.addOp, bitsOf]
  pend := fun r => by
    rw [Team.advance_regs]
    simp [Team.addOp, bitsOf]
  pos := Team.advance_pos _
  ctl := Team.advance_ctl _
  flow := by
    have hops : (t.addOp ⟨id, cls, ready, false, ws, [], [], dests, acq, none, none⟩).advance.flow.ops =
        t.flow.ops ++ [⟨id, cls, ready, false, ws, [], [], dests, acq, none, none⟩] := by
      rw [Team.advance_flow]
      rfl
    rw [hops]
    exact Team.advance_flow _
  self := ⟨Team.advance_id _, Team.advance_place _, Team.advance_sch _⟩

/-- A slice counted: the team has issued its operation, the barrier has its sectors, and no byte outside the barrier changes. -/
theorem State.sliceCounted_reads {s u : State} {bar : Nat} {sl : CopySlice} (hu : u = s.flushRange s.me.cluster s.me.id.ctx sl.range)
    (hme : u.me = s.me) (hhold : s.me.flow.hold = .none) (hs : Claim.Sound u bar 16) (hw : Memory.wf u.mem = true) (dests : List Dest) :
    Claim.Issues s.me (s.sliceCounted bar dests sl).me s.nextId .cp false [] [] ∧
      (s.sliceCounted bar dests sl).homeNat bar 16 = barAdd sl.sectors (u.homeNat bar 16) ∧
      ∀ k, k < bar ∨ bar + 16 ≤ k → (s.sliceCounted bar dests sl).homeByte k = u.homeByte k := by
  have hid : u.nextId = s.nextId := hu ▸ (s.flushRange_work ..).nextId
  obtain ⟨stuck, he⟩ := (u.issueOp .cp false [] [] dests none).2.barAddSectors_eq s.me.id.ctx s.me.id.gen bar sl.sectors
  rw [State.sliceCounted, ← hu, he, State.issueOp_state, hid, hme]
  have hissues := s.me.issues_addOp s.nextId .cp false [] dests none
  have hhold' : (s.me.addOp ⟨s.nextId, .cp, false, false, [], [], [], dests, none, none, none⟩).advance.flow.hold = .none := by
    rw [hissues.flow]
    exact hhold
  refine ⟨?_, ?_⟩
  · rw [State.barUpdate_me (by exact hhold')]
    exact hissues
  · have hsound : u.poisoned bar = false := hs 0 (by decide)
    obtain ⟨-, -, -, hsmall⟩ := barAdd_rule sl.sectors (u.homeNat bar 16)
    exact State.barUpdate_reads (by exact hsound) (by exact hw) (by exact hsmall) _ _

/-! ### The copy words (spec/10 R191, R192) -/

theorem copyForm_some {i : Instr} {form : Nat} {r : TReg} {a : SReg} (h : Claim.copyForm i = some (form, r, a)) :
    (form = 0 ∧ i = .xcpyIn r a) ∨ (form = 1 ∧ i = .xcpyOut r a) ∨ (form = 2 ∧ i = .xcpyMcin r a) := by
  unfold Claim.copyForm at h
  split at h <;> simp only [Option.some.injEq, Prod.mk.injEq, reduceCtorEq] at h
  all_goals
    obtain ⟨rfl, rfl, rfl⟩ := h
    simp

/-- A copy word that passes its checks has its arguments in place. -/
theorem State.xcpyOk_of_passes {s : State} {i : Instr} {form : Nat} {r : TReg} {a : SReg} (h : Claim.copyForm i = some (form, r, a))
    (hp : Claim.Passes s i) : s.xcpyOk form r a = true := by
  obtain ⟨-, -, -, hok, -⟩ := (s.check_none_iff i).1 hp
  obtain ⟨rfl, rfl⟩ | ⟨rfl, rfl⟩ | ⟨rfl, rfl⟩ := copyForm_some h <;> exact hok

/-- The s registers of its arguments exist. -/
theorem State.le_of_xcpyOk {s : State} {form : Nat} {r : TReg} {a : SReg} (h : s.xcpyOk form r a = true) :
    a.val + (if form = 2 then 2 else 1) ≤ 63 := by
  simp only [State.xcpyOk, Bool.and_eq_true, decide_eq_true_eq] at h
  obtain ⟨⟨⟨⟨⟨⟨hle, -⟩, -⟩, -⟩, -⟩, -⟩, -⟩ := h
  exact hle

theorem copyForm_reads_no_v {i : Instr} {form : Nat} {r : TReg} {a : SReg} (h : Claim.copyForm i = some (form, r, a)) (v : VReg) :
    i.reads.contains (.v v.val) = false := by
  have hreads (n : Nat) : (Reg.t r.val :: sRange a n).contains (.v v.val) = false := by simp [sRange]
  obtain ⟨-, rfl⟩ | ⟨-, rfl⟩ | ⟨-, rfl⟩ := copyForm_some h
  · exact hreads 2
  · exact hreads 2
  · exact hreads 3

theorem exec_of_copyForm {s : State} {i : Instr} {form : Nat} {r : TReg} {a : SReg} (h : Claim.copyForm i = some (form, r, a))
    (hp : Claim.Passes s i) : exec i s = .next (s.xcpy form r a) := by
  obtain ⟨rfl, rfl⟩ | ⟨rfl, rfl⟩ | ⟨rfl, rfl⟩ := copyForm_some h
  · exact run_of_vReads_nil (fun s => s.xcpy 0 r a) hp (copyForm_reads_no_v h)
  · exact run_of_vReads_nil (fun s => s.xcpy 1 r a) hp (copyForm_reads_no_v h)
  · exact run_of_vReads_nil (fun s => s.xcpy 2 r a) hp (copyForm_reads_no_v h)

theorem Team.sNat_of_le (t : Team) {n : Nat} (h : n ≤ 63) : t.sNat n = (t.s (Fin.ofNat 64 n)).toNat := by
  have hn : n < 64 := by omega
  simp [Team.sNat, Team.s, hn, Nat.mod_eq_of_lt hn]

/-- An access to the allocation that is aligned goes to its key. -/
theorem State.local_of_key {s : State} {off n align key : Nat} (ha : off % align = 0)
    (hk : s.cstoreAt s.me.id.bundle s.me.cluster off n = some key) (k : Nat → State) : s.local off n align k = k key := by
  simp [State.local, ha, hk]

/-- A copy word with its places in the allocation, a good record and a new index issues its slice, of the record as it sees it. -/
theorem State.xcpy_issues {s : State} {form : Nat} {r : TReg} {a : SReg} {tlr off idx n tkey key f : Nat} {snap : List Byte}
    (hargs : Claim.copyArgs s.me a = (tlr, off, idx, n)) (hok : s.xcpyOk form r a = true) (htlr : tlr % 128 = 0)
    (htkey : s.cstoreAt s.me.id.bundle s.me.cluster tlr 128 = some tkey) (hbar : Claim.BarrierAt s off key)
    (hrec : form = 2 → ∃ rkey, (s.me.s (Fin.ofNat 64 (a.val + 2))).toNat / 2 ^ 32 % 8 = 0 ∧
      s.cstoreAt s.me.id.bundle s.me.cluster ((s.me.s (Fin.ofNat 64 (a.val + 2))).toNat / 2 ^ 32) 8 = some rkey)
    (hsnap : s.snapshot tlr tkey = (snap, { s with fresh := f })) (hgood : tlrBad snap = false)
    (hjoin : ∀ c, s.joinCopy form tlr key n = some c → c.slices.any (·.idx == idx) = false) :
    ∃ rkey, s.xcpy form r a =
      State.issueSlice { s with fresh := f } form key n idx (s.me.sNat (a.val + 2) % 2 ^ 8) rkey tlr (s.me.t r) snap := by
  have hle := State.le_of_xcpyOk hok
  have h0 : s.me.sNat a.val = (s.me.s a).toNat := by
    rw [Team.sNat_of_le _ (by omega)]
    simp
  have h1 : s.me.sNat (a.val + 1) = (s.me.s (Fin.ofNat 64 (a.val + 1))).toNat := Team.sNat_of_le _ (by split at hle <;> omega)
  obtain ⟨halign, hkey, -⟩ := hbar
  simp only [Claim.copyArgs, ← h0, ← h1, Prod.mk.injEq] at hargs
  obtain ⟨rfl, rfl, rfl, rfl⟩ := hargs
  have hrkey : ∃ rkey, ∀ k : Nat → State, (if form = 2 then s.local (s.me.sNat (a.val + 2) / 2 ^ 32) 8 8 k else k 0) = k rkey := by
    by_cases h2 : form = 2
    · obtain ⟨rkey, h8, hr⟩ := hrec h2
      rw [if_pos h2] at hle
      rw [← Team.sNat_of_le _ hle] at h8 hr
      exact ⟨rkey, fun k => by rw [if_pos h2, State.local_of_key h8 hr]⟩
    · exact ⟨0, fun k => if_neg h2⟩
  obtain ⟨rkey, hrkey⟩ := hrkey
  refine ⟨rkey, ?_⟩
  unfold State.xcpy
  dsimp only
  rw [State.local_of_key htlr htkey, State.local_of_key halign hkey, hrkey, hsnap]
  dsimp only
  rw [hgood, if_neg Bool.false_ne_true]
  split
  · next c hc => rw [hjoin c hc, if_neg Bool.false_ne_true]
  · rfl

end Sys2Proof.Machine

namespace Sys2Proof.Claim
open Sys2Proof Sys2Proof.Machine

/-! ### The slice of a copy word (spec/09 R168, R192) -/

/-- The mask counts for a multicast alone. -/
theorem sliceSectors_mask (s : State) {form : Nat} (h : form ≠ 2) (core : Nat) (bundle : Option Nat) (m m' : Nat) (t : Tlr) (x : W128)
    (rows : List Nat) : s.sliceSectors form core bundle m t x rows = s.sliceSectors form core bundle m' t x rows := by
  unfold State.sliceSectors
  split
  · rfl
  · exact absurd rfl h
  · rfl

/-- The slice that the word makes has the sectors and the range of its shape. -/
theorem newSlice_shape {s : State} {i : Instr} {form : Nat} {r : TReg} {a : SReg} (hform : copyForm i = some (form, r, a))
    (hok : s.xcpyOk form r a = true) (snap : List Byte) (idx n f : Nat) :
    ((State.newSlice { s with fresh := f } form n idx (s.me.sNat (a.val + 2) % 2 ^ 8) (s.me.t r) snap).sectors,
      (State.newSlice { s with fresh := f } form n idx (s.me.sNat (a.val + 2) % 2 ^ 8) (s.me.t r) snap).range) = sliceShape s i snap idx n := by
  have hmask : s.sliceSectors form s.me.core s.me.id.bundle (s.me.sNat (a.val + 2) % 2 ^ 8) =
      s.sliceSectors form s.me.core s.me.id.bundle ((s.me.s (Fin.ofNat 64 (a.val + 2))).toNat % 2 ^ 8) := by
    by_cases h2 : form = 2
    · have hle := State.le_of_xcpyOk hok
      rw [if_pos h2] at hle
      rw [Team.sNat_of_le _ hle]
    · funext t x rows
      exact sliceSectors_mask s h2 ..
  simp only [sliceShape, hform]
  rw [← hmask]
  rfl

/-! ### What holds a copy word back (spec/09 R152, R168; log 27) -/

/-- A fetched group with a word that is held is not chosen. -/
theorem choosable_of_wordHeld {s : State} {u : Team} {i : Instr} (hi : i ∈ u.groupInstrs) (hf : u.flow.fetched = true) (hr : u.resumes = false)
    (hheld : s.wordHeld u i = true) : s.choosable u = false := by
  have hgate : s.gateOpen u = false := by
    rw [State.gateOpen, List.any_eq_true.2 ⟨i, hi, hheld⟩, Bool.not_true, Bool.and_false]
  simp [State.choosable, hf, hr, hgate]

/-- A copy word is held by a full scoreboard, a fence or an acquire. -/
theorem wordHeld_of_copyForm {i : Instr} (h : (copyForm i).isSome = true) {s : State} {u : Team}
    (hheld : 64 ≤ s.boardUsed u.cluster ∨ u.fencesOn s.nextId ≠ [] ∨ ∃ o ∈ u.flow.ops, o.id < s.nextId ∧ o.acq.isSome = true ∧ o.ready = false) :
    s.wordHeld u i = true := by
  have hgate : (u.acquiring s.nextId || u.fencesOn s.nextId != [] || decide (64 ≤ s.boardUsed u.cluster)) = true := by
    obtain hboard | hfence | ⟨o, ho, hid, hacq, hready⟩ := hheld
    · simp [hboard]
    · simp [hfence]
    · have hany : (u.flow.ops.any fun o => decide (o.id < s.nextId) && o.acq.isSome && !o.ready) = true :=
        List.any_eq_true.2 ⟨o, ho, by simp [hid, hacq, hready]⟩
      simp [Team.acquiring, hany]
  obtain ⟨⟨form, r, a⟩, hf⟩ := Option.isSome_iff_exists.1 h
  obtain ⟨-, rfl⟩ | ⟨-, rfl⟩ | ⟨-, rfl⟩ := copyForm_some hf <;> exact hgate

/-- Settles O37: the record is seen, the range written back, the operation issued, the barrier counted and the slice put in its copy; the gate of a group
is closed while one of its words is held. -/
theorem copyWordsIssueTheirSlice : Obligations.CopyWordsIssueTheirSlice := by
  refine ⟨?_, fun s u i hform hi hf hr hheld => choosable_of_wordHeld hi hf hr (wordHeld_of_copyForm hform hheld)⟩
  intro s i form r a tlr off idx n tkey key hform hargs hp htlr htkey hbar hrec hhold hsound hedits hjoin hflushed
  obtain ⟨⟨f, hf⟩, hseen⟩ := State.snapshot_seen hsound hedits tlr
  have hsnap : s.snapshot tlr tkey = ((s.snapshot tlr tkey).1, { s with fresh := f }) := by rw [← hf]
  generalize (s.snapshot tlr tkey).1 = snap at hseen hsnap
  have hok := State.xcpyOk_of_passes hform hp
  obtain ⟨hgood, hme, hbsound, hwf⟩ := hflushed snap f hseen
  obtain ⟨rkey, hx⟩ := State.xcpy_issues hargs hok htlr htkey hbar hrec hsnap hgood hjoin
  obtain ⟨dests, copies, next, heq, c, hc, hcform, hctlr, hcbar, hcn, hccl, hsl⟩ :=
    State.issueSlice_slice { s with fresh := f } form key n idx (s.me.sNat (a.val + 2) % 2 ^ 8) rkey tlr (s.me.t r) snap
  have hshape := newSlice_shape hform hok snap idx n f
  obtain ⟨hsectors, hrange⟩ := Prod.mk.inj hshape
  have hu : sliceFlushed s i snap idx n f = State.flushRange { s with fresh := f } s.me.cluster s.me.id.ctx
      (State.newSlice { s with fresh := f } form n idx (s.me.sNat (a.val + 2) % 2 ^ 8) (s.me.t r) snap).range := by
    rw [hrange]
    rfl
  obtain ⟨hissues, hnat, hbyte⟩ := State.sliceCounted_reads hu hme hhold hbsound hwf dests
  obtain ⟨hphase, harr, hsec, -⟩ := barAdd_rule (sliceShape s i snap idx n).1 ((sliceFlushed s i snap idx n f).homeNat key 16)
  rw [hsectors] at hnat
  refine ⟨_, snap, f, _, (exec_of_copyForm hform hp).trans (congrArg _ hx), hseen, rfl, fun d hd hcl hctx hr => ?_, ?_,
    ⟨c, hc, hcform, hctlr, hcbar, hcn, hccl, _, hsl, ?_⟩, ?_⟩
  · exact State.flushRange_dirty (by exact hd) hcl hctx hr
  · rw [heq]
    exact hissues
  · exact ⟨rfl, rfl, rfl, rfl, rfl, rfl, hsectors, hrange, rfl, rfl⟩
  · rw [heq]
    exact ⟨(congrArg barSectors hnat).trans hsec, (congrArg barArrivals hnat).trans harr, (congrArg barPhase hnat).trans hphase, hbyte⟩

end Sys2Proof.Claim
end

section
/-!
O39: the number that the release of a slot operation takes.
-/
namespace Sys2Proof.Machine
open Sys2Proof

/-- A drain ring of the bundle with one empty slot. -/
def earlyRing : Ring := newRing earlyTeam 0 0 [] 0 1 32 0 true

/-- The state of an early load, with a ring bound in its cluster. -/
def earlyRingState : State := { earlyState with rings := [earlyRing] }

theorem exec_ringSpub (a : SReg) (k : Fin 64) (s : State) :
    exec (.ringSpub a k) s = run (.ringSpub a k) s fun s => s.slotOp (.ringSpub a k) (spubEffect a k.val) := rfl

theorem check_earlyRingState : earlyRingState.check (.ringSpub 0 0) = none := by decide

theorem release_earlyRingState :
    earlyRingState.release earlyRingState.me.id.tid .clu = ({ earlyReleased with rings := [earlyRing] }, true) := by rfl

theorem earlyRingState_free : ¬ Claim.HeldBack earlyRingState earlyRingState.me (.ringSpub 0 0) 0 [] := by
  unfold Claim.HeldBack
  decide

theorem exec_ringSpub_earlyRingState : ∃ t, exec (.ringSpub 0 0) earlyRingState = .next t ∧ t.nextId = 3 ∧
    t.me.flow.ops.map (fun o => (o.id, o.cls, o.ready)) = [(1, .ld, false), (1, .st, true), (2, .sg, false)] :=
  ⟨_, (exec_ringSpub 0 0 earlyRingState).trans (run_of_vReads_nil _ check_earlyRingState fun _ => rfl), rfl, rfl⟩

end Sys2Proof.Machine

namespace Sys2Proof.Claim
open Sys2Proof Sys2Proof.Machine

/-- Refutes O39: the statement asks that nothing holds `ring.spub` back under the next number of an operation, but its release at cluster scope takes
that number first where it writes a sector back. Where an acquiring load that is still to be performed has that very number, the slot operation is
before it with the first number and behind it with the second, so it is outstanding, where the statement has it performed. -/
theorem not_ringWordsAndChunks : ¬ Obligations.RingWordsAndChunks := by
  unfold Obligations.RingWordsAndChunks
  intro h
  obtain ⟨⟨-, -, hslot, -⟩, -⟩ := h
  obtain ⟨t, -, ht, -, -, ⟨o, ho, hid, -, hready, -⟩, -⟩ := hslot earlyRingState { earlyReleased with rings := [earlyRing] } (.ringSpub 0 0) 0 0 earlyRing
    ⟨.empty, 0, 0, false, [], [], [], none⟩ rfl rfl rfl release_earlyRingState check_earlyRingState (.inl rfl) earlyRingState_free
    fun w hw => absurd hw List.not_mem_nil
  obtain ⟨u, hu, hnext, hops⟩ := exec_ringSpub_earlyRingState
  rw [ht, Host.Outcome.next.injEq] at hu
  subst hu
  have hmem : (o.id, o.cls, o.ready) ∈ [(1, .ld, false), (1, .st, true), (2, .sg, false)] := hops ▸ List.mem_map_of_mem ho
  rw [hready, show o.id = 2 by omega] at hmem
  simp at hmem

end Sys2Proof.Claim
end

section
/-!
PROOFS. Shared laws of the memory words (spec/10 R176): a team-uniform access that is made, and one that is held back.
-/
namespace Sys2Proof.Machine
open Sys2Proof Claim

/-! ### The state that an access is made in -/

/-- An address has translated, and a release with nothing to write back is over. -/
def Reached (s t : State) : Prop :=
  ∃ tlb dtlb icache fresh edits, t = { s with tlb := tlb, dtlb := dtlb, icache := icache, fresh := fresh, edits := edits }

/-- Then the number of an operation has been taken. -/
def Issuing (s t : State) : Prop := ∃ u, Reached s u ∧ t = { u with nextId := u.nextId + 1 }

theorem FetchKept.reached {s t : State} (h : FetchKept s t) (edits : List Edit) : Reached s { t with edits := edits } := by
  obtain ⟨_, _, _, _, rfl⟩ := h
  exact ⟨_, _, _, _, _, rfl⟩

/-- A release with nothing to write back marks what snapshots may miss, at most. -/
theorem State.relThen_of_nothing {s : State} {rel : Option Scope} (h : ∀ sc, rel = some sc → 2 ≤ sc.code → s.dirtyOf s.me.id.tid = [])
    (k : State → State) : ∃ edits, s.relThen rel k = k { s with edits := edits } := by
  cases rel with
  | none => exact ⟨s.edits, rfl⟩
  | some sc =>
    have hd : s.relDirty s.me.id.tid sc = [] := by
      unfold State.relDirty
      split
      · next hsc => exact h sc rfl hsc
      · rfl
    by_cases ht : sc = .team
    · subst ht
      exact ⟨s.edits, State.releaseThen_ok k hd (s.release_team _)⟩
    · refine ⟨s.edits.map fun e => if e.tid = s.me.id.tid then { e with released := true } else e, State.releaseThen_ok k hd ?_⟩
      rw [State.release, hd, if_neg ht]
      rfl

section
variable {s s1 : State} {i : Instr} {va : W80} {n key loc : Nat} {k : Access}

/-- What a releasing word has left to write back is the same once its address has translated. -/
theorem NothingToRelease.reached (h : NothingToRelease s i loc) (hk : FetchKept s s1) :
    ∀ sc, relAt i loc = some sc → 2 ≤ sc.code → s1.dirtyOf s1.me.id.tid = [] := by
  obtain ⟨_, _, _, _, rfl⟩ := hk
  exact h

/-- An aligned access whose address translates, with nothing to release, is issued at its location. -/
theorem State.uniformAcc_reaches (hp : s.me.flow.park = none) (ha : va.toNat % n = 0) (hr : s.teamReach s.me k va n = (.ok key loc, s1))
    (hrel : NothingToRelease s i loc) (cls : OpClass) (ps : List SReg) (eff : Effect) :
    ∃ t, Reached s t ∧ s.uniformAcc i cls k va n ps eff =
      (t.issueAcc i cls (acqAt i loc) (relAt i loc) [⟨0, va, key, loc⟩] [] [] ps eff).advance := by
  have hk := State.teamReach_kept hr
  obtain ⟨edits, he⟩ := State.relThen_of_nothing (NothingToRelease.reached hrel hk)
    fun s => (s.issueAcc i cls (acqAt i loc) (relAt i loc) [⟨0, va, key, loc⟩] [] [] ps eff).advance
  refine ⟨_, hk.reached edits, ?_⟩
  rw [State.uniformAcc, State.uniform_go _ _ _ _ hp ha, State.access_ok _ hr, State.accessAt, ← widened_eq, ← widened_eq]
  exact he

theorem Reached.settled {t : State} (h : Reached s t) (hf : s.me.flow.fences = []) : t.settleFences t.me.id.tid = t := by
  obtain ⟨_, _, _, _, _, rfl⟩ := h
  exact State.settleFences_of_nil hf

theorem Reached.me {t : State} (h : Reached s t) : t.me = s.me := by
  obtain ⟨_, _, _, _, _, rfl⟩ := h
  rfl

theorem Reached.nextId {t : State} (h : Reached s t) : t.nextId = s.nextId := by
  obtain ⟨_, _, _, _, _, rfl⟩ := h
  rfl

theorem Reached.stalled {t : State} (h : Reached s t) (u : Team) (xs : List LaneAt) : t.newId.2.stalled u xs = s.stalled u xs := by
  obtain ⟨_, _, _, _, _, rfl⟩ := h
  rfl

/-- An access that can be made is performed at once: its effect takes the team as it issued and the state as the access reached it. -/
theorem State.uniformAcc_performed (h : CanAccess s i va n key loc) (hr : s.teamReach s.me k va n = (.ok key loc, s1))
    (hrel : NothingToRelease s i loc) (cls : OpClass) (ps : List SReg) (eff : Effect) :
    ∃ t d, Issuing s t ∧ d = eff s.me [⟨0, va, key, loc⟩] s.nextId t ∧ s.uniformAcc i cls k va n ps eff =
      ((d.report s.me).setMe (·.addOp ⟨s.nextId, cls, !d.waits, false, d.writes, [], ps, [destOf loc],
        if d.waits then acqAt i loc else none, none, none⟩)).advance := by
  obtain ⟨hpark, hfence, halign, hfree⟩ := h
  obtain ⟨t, ht, he⟩ := State.uniformAcc_reaches hpark halign hr hrel cls ps eff
  rw [HeldBack, not_or, Bool.not_eq_true, Bool.not_eq_true] at hfree
  refine ⟨t.newId.2, _, ⟨t, ht, rfl⟩, rfl, ?_⟩
  rw [he, State.issueAcc_now _ _ _ _ _ _ _ _ _ (ht.settled hfence) (by rw [ht.me, ht.nextId]; exact hfree.1) (by rw [ht.me, ht.stalled]; exact hfree.2),
    ht.me, ht.nextId]
  rfl

/-- An access that something holds back is recorded with the registers as its word read them. -/
theorem State.uniformAcc_held (hp : s.me.flow.park = none) (hf : s.me.flow.fences = []) (ha : va.toNat % n = 0)
    (hr : s.teamReach s.me k va n = (.ok key loc, s1)) (hrel : NothingToRelease s i loc) (hh : HeldBack s s.me i loc [⟨0, va, key, loc⟩])
    (cls : OpClass) (ps : List SReg) (eff : Effect) :
    ∃ t, Issuing s t ∧ s.uniformAcc i cls k va n ps eff =
      (t.setMe (·.addOp ⟨s.nextId, cls, false, false, [], [], ps, [destOf loc], acqAt i loc, relAt i loc,
        some ⟨i, s.me.regs, [⟨0, va, key, loc⟩]⟩⟩)).advance := by
  obtain ⟨t, ht, he⟩ := State.uniformAcc_reaches hp ha hr hrel cls ps eff
  refine ⟨t.newId.2, ⟨t, ht, rfl⟩, ?_⟩
  rw [he, State.issueAcc_held _ _ _ _ _ _ _ _ _ (ht.settled hf) (by rw [ht.me, ht.nextId, ht.stalled]; exact hh), ht.me, ht.nextId]
  rfl

end

/-! ### What an operation issued leaves of its team (spec/09 R160, R161) -/

/-- A word that issues an operation and goes on changes its operations, its pending s registers and its position. -/
theorem Team.issues_addOp_pending (t : Team) (id : Nat) (cls : OpClass) (ready : Bool) (ws : List RegWrite) (ps : List SReg) (dests : List Dest)
    (acq : Option Scope) :
    Claim.Issues t (t.addOp ⟨id, cls, ready, false, ws, [], ps, dests, acq, none, none⟩).advance id cls ready ws ps where
  op := ⟨dests, acq, by rw [Team.advance_flow]; rfl⟩
  regs := by
    rw [Team.advance_regs]
    simp [Team.addOp, bitsOf]
  pend := fun r => by
    rw [Team.advance_regs]
    exact (BitVec.getLsbD_or ..).trans (by rw [getLsbD_bitsOf])
  pos := Team.advance_pos _
  ctl := Team.advance_ctl _
  flow := by
    have hops : (t.addOp ⟨id, cls, ready, false, ws, [], ps, dests, acq, none, none⟩).advance.flow.ops =
        t.flow.ops ++ [⟨id, cls, ready, false, ws, [], ps, dests, acq, none, none⟩] := by
      rw [Team.advance_flow]
      rfl
    rw [hops]
    exact Team.advance_flow _
  self := ⟨Team.advance_id _, Team.advance_place _, Team.advance_sch _⟩

/-- An access that can be made, meets no poison and leaves its team leaves an operation with the results of its effect, and the state that its
effect leaves. -/
theorem State.uniformAcc_issues {s s1 : State} {i : Instr} {va : W80} {n key loc : Nat} {k : Access} (h : CanAccess s i va n key loc)
    (hr : s.teamReach s.me k va n = (.ok key loc, s1)) (hrel : NothingToRelease s i loc) (cls : OpClass) (ps : List SReg) (eff : Effect) :
    ∃ t, Issuing s t ∧ ∀ d, eff s.me [⟨0, va, key, loc⟩] s.nextId t = d → d.poison = none → d.s.me = s.me →
      ∃ me, s.uniformAcc i cls k va n ps eff = { d.s with me := me } ∧ Claim.Issues s.me me s.nextId cls (!d.waits) d.writes ps := by
  obtain ⟨t, d, ht, hd, he⟩ := State.uniformAcc_performed h hr hrel cls ps eff
  refine ⟨t, ht, ?_⟩
  rintro _ rfl hpoison hme
  rw [← hd] at hpoison hme ⊢
  have hreport : d.report s.me = d.s := by rw [Done.report, hpoison]
  refine ⟨_, he.trans ?_, s.me.issues_addOp_pending s.nextId cls (!d.waits) d.writes ps [destOf loc] (if d.waits then acqAt i loc else none)⟩
  rw [hreport, State.advance_eq, State.setMe, hme]

theorem Issuing.keeps {s t : State} (h : Issuing s t) :
    t.me = s.me ∧ t.mem = s.mem ∧ t.dirty = s.dirty ∧ t.clean = s.clean ∧ t.teams = s.teams ∧ t.poison = s.poison ∧ t.links = s.links := by
  obtain ⟨_, ⟨_, _, _, _, _, rfl⟩, rfl⟩ := h
  exact ⟨rfl, rfl, rfl, rfl, rfl, rfl, rfl⟩

end Sys2Proof.Machine
end

section
/-!
PROOFS. Shared laws of the memory words (spec/08 R143 to R149): the bytes of a sector as a core holds them, read by a load and changed by a store.
-/
namespace Sys2Proof.Machine
open Sys2Proof Claim

/-! ### The last byte at a key of a list of writes -/

/-- The byte that a list of writes, made in order, leaves at a key that it names. -/
def lastAt (bs : List (Nat × Byte)) (k : Nat) : Option Byte := (bs.reverse.find? (·.1 == k)).map (·.2)

theorem lastAt_append (xs ys : List (Nat × Byte)) (k : Nat) : lastAt (xs ++ ys) k = (lastAt ys k).or (lastAt xs k) := by
  simp only [lastAt, List.reverse_append, List.find?_append]
  cases ys.reverse.find? (·.1 == k) <;> rfl

theorem lastAt_cons (c : Nat × Byte) (bs : List (Nat × Byte)) (k : Nat) :
    lastAt (c :: bs) k = (lastAt bs k).or (if c.1 = k then some c.2 else none) := by
  rw [← List.singleton_append, lastAt_append]
  congr 1
  by_cases h : c.1 = k <;> simp [lastAt, h]

theorem lastAt_eq_none {bs : List (Nat × Byte)} {k : Nat} (h : ∀ x ∈ bs, x.1 ≠ k) : lastAt bs k = none := by
  simpa [lastAt] using h

theorem lastAt_keyed (a : Nat) (bs : List Byte) (k : Nat) :
    lastAt (keyed a bs) k = if a ≤ k then bs[k - a]? else none := by
  induction bs generalizing a with
  | nil => simp [keyed, lastAt]
  | cons b bs ih =>
    rw [keyed, lastAt_cons, ih]
    rcases lt_trichotomy a k with h | rfl | h
    · rw [if_pos (Nat.succ_le_of_lt h), if_neg h.ne, if_pos h.le, Option.or_none, show k - a = k - (a + 1) + 1 by omega, List.getElem?_cons_succ]
    · simp
    · rw [if_neg (by omega), if_neg (by omega), if_neg (by omega)]
      rfl

theorem lastAt_filter (p : Nat × Byte → Bool) {bs : List (Nat × Byte)} {k : Nat} (h : ∀ x : Nat × Byte, x.1 = k → p x = true) :
    lastAt (bs.filter p) k = lastAt bs k := by
  rw [lastAt, lastAt, ← List.filter_reverse, List.find?_filter]
  congr 2
  funext x
  by_cases hx : x.1 = k
  · simp [hx, h x hx]
  · simp [hx]

/-- Bytes merged leave what the new ones, laid over the old ones, leave. -/
theorem lastAt_mergeBytes (old new : List (Nat × Byte)) (k : Nat) : lastAt (mergeBytes old new) k = (lastAt new k).or (lastAt old k) := by
  rw [mergeBytes, lastAt_append]
  cases hn : lastAt new k with
  | some b => rfl
  | none =>
    rw [Option.none_or, Option.none_or]
    refine lastAt_filter _ fun x hx => ?_
    have hnone : ∀ a b, (a, b) ∈ new → a ≠ k := by simpa [lastAt] using hn
    simpa [hx] using hnone

/-- Bytes performed are read back where they are the last at their key. -/
theorem readCell_writePairs {m : List Host.Cell} (h : Memory.wf m = true) (bs : List (Nat × Byte)) (k : Nat) :
    readCell (writePairs m bs) k = (lastAt bs k).getD (readCell m k) := by
  induction bs generalizing m with
  | nil => rfl
  | cons c bs ih =>
    rw [writePairs, ih (Memory.wf_writeCell _ _ h), lastAt_cons, readCell_writeCell h]
    cases lastAt bs k with
    | some b => rfl
    | none =>
      by_cases hc : k = c.1
      · simp [hc]
      · simp [hc, Ne.symm hc]

/-- Bytes laid over a sector. -/
theorem getElem?_overlay {base : Nat} {new : List (Nat × Byte)} (h : ∀ x ∈ new, base ≤ x.1) (bs : List Byte) {i : Nat} (hi : i < bs.length) :
    (overlay base bs new)[i]? = some ((lastAt new (base + i)).getD bs[i]) := by
  induction new generalizing bs with
  | nil => simp [overlay, lastAt, hi]
  | cons c new ih =>
    have hc := h c List.mem_cons_self
    have hstep := ih (fun x hx => h x (List.mem_cons_of_mem c hx)) (bs.set (c.1 - base) c.2) (by simpa using hi)
    refine hstep.trans ?_
    rw [lastAt_cons, List.getElem_set]
    cases lastAt new (base + i) with
    | some b => rfl
    | none =>
      by_cases he : c.1 = base + i
      · simp [he]
      · simp [he, show ¬ c.1 - base = i by omega]

/-! ### Sectors -/

theorem sectorOf_add {a i : Nat} (h : a % 32 + i < 32) : sectorOf (a + i) = sectorOf a := by unfold sectorOf; omega

theorem sectorOf_le (a : Nat) : sectorOf a ≤ a := by unfold sectorOf; omega

theorem sectorOf_sectorOf (a : Nat) : sectorOf (sectorOf a) = sectorOf a := by unfold sectorOf; omega

/-- The link of a key is that of its sector. -/
theorem linkOf_congr {a b : Nat} (h : sectorOf a = sectorOf b) : linkOf a = linkOf b := by
  unfold sectorOf at h
  have h1 : (a < 2 ^ 64 ∨ 2 ^ 66 ≤ a) ↔ (b < 2 ^ 64 ∨ 2 ^ 66 ≤ b) := by omega
  have h2 : a < 2 ^ 65 ↔ b < 2 ^ 65 := by omega
  have h3 : (a - 2 ^ 65) / 2 ^ 52 = (b - 2 ^ 65) / 2 ^ 52 := by omega
  simp only [linkOf, h1, h2, h3]

theorem State.poisoned_congr (s : State) {a b : Nat} (h : sectorOf a = sectorOf b) : s.poisoned a = s.poisoned b := by
  simp only [State.poisoned, State.linkDown, h, linkOf_congr h]

theorem State.poisoned_eq {s t : State} (hp : t.poison = s.poison) (hl : t.links = s.links) (a : Nat) : t.poisoned a = s.poisoned a := by
  unfold State.poisoned State.linkDown
  rw [hp, hl]

/-- A key that is not poisoned lies in a sound sector. -/
theorem sound_of_not_poisoned {s : State} {key : Nat} (h : s.poisoned key = false) {n : Nat} (hn : key % 32 + n ≤ 32) : Sound s key n :=
  fun b hb => (s.poisoned_congr (sectorOf_add (by omega))).trans h

theorem sound_sector {s : State} {key : Nat} (h : s.poisoned key = false) : Sound s (sectorOf key) 32 :=
  sound_of_not_poisoned ((s.poisoned_congr (sectorOf_sectorOf key)).trans h) (by unfold sectorOf; omega)

/-! ### A sector as a core holds it -/

theorem coreByte_eq (s : State) (core k : Nat) :
    coreByte s core k = ((s.dirtyAt core k).bind fun d => lastAt d.bytes k).getD (s.homeByte k) := by
  unfold coreByte lastAt
  cases s.dirtyAt core k with
  | none => rfl
  | some d =>
    dsimp only [Option.bind_some]
    cases d.bytes.reverse.find? (·.1 == k) <;> rfl

theorem State.dirtyAt_congr (s : State) (core : Nat) {a b : Nat} (h : sectorOf a = sectorOf b) : s.dirtyAt core a = s.dirtyAt core b := by
  simp only [State.dirtyAt, h]

/-- The bytes from a key on, as a core holds them. -/
def coreBytes (s : State) (core key n : Nat) : List Byte := (List.range n).map fun i => coreByte s core (key + i)

theorem coreNat_eq (s : State) (core key n : Nat) : coreNat s core key n = leNat (coreBytes s core key n) := rfl

theorem coreBytes_congr {s t : State} {core key n : Nat} (hd : t.dirty = s.dirty) (hm : t.mem = s.mem) :
    coreBytes t core key n = coreBytes s core key n := by
  unfold coreBytes coreByte State.dirtyAt State.homeByte
  rw [hd, hm]

/-- Some bytes of a sector. -/
theorem coreBytes_sector (s : State) (core : Nat) {key n : Nat} (h : key % 32 + n ≤ 32) :
    ((coreBytes s core (sectorOf key) 32).drop (key % 32)).take n = coreBytes s core key n := by
  have hkey : sectorOf key + key % 32 = key := by unfold sectorOf; omega
  refine List.ext_getElem (by simp [coreBytes]; omega) fun i h1 h2 => ?_
  simp only [coreBytes, List.getElem_take, List.getElem_drop, List.getElem_map, List.getElem_range, ← Nat.add_assoc, hkey]

end Sys2Proof.Machine

namespace Sys2Proof.Claim
open Sys2Proof Sys2Proof.Machine

section
variable {s : State} {key loc : Nat} {va : W80}

/-- A sector's bytes with its dirty ones laid over those at home. -/
theorem Undisturbed.overlay_dirty (h : Undisturbed s key va) {d : Dirty} (hd : s.dirtyAt s.me.core key = some d) :
    overlay (sectorOf key) (s.homeBytes (sectorOf key) 32) d.bytes = coreBytes s s.me.core (sectorOf key) 32 := by
  obtain ⟨hmem, hcore, hkey⟩ := State.dirtyAt_eq_some hd
  obtain ⟨-, hin⟩ := h.mine d hmem hcore hkey
  refine List.ext_getElem? fun i => ?_
  by_cases hi : i < 32
  · have hlow : ∀ x ∈ d.bytes, sectorOf key ≤ x.1 := fun x hx => hin x hx ▸ sectorOf_le x.1
    have hat : s.dirtyAt s.me.core (sectorOf key + i) = some d := by
      rw [← hd]
      exact s.dirtyAt_congr _ (by unfold sectorOf; omega)
    rw [getElem?_overlay hlow _ (by rwa [length_homeBytes])]
    simp [homeBytes_of_sound (sound_sector h.sound), coreBytes, hi, coreByte_eq, hat]
  · rw [List.getElem?_eq_none (by rw [length_overlay, length_homeBytes]; omega), List.getElem?_eq_none (by simp [coreBytes]; omega)]

theorem Undisturbed.homeBytes_clean (h : Undisturbed s key va) (hd : s.dirtyAt s.me.core key = none) :
    s.homeBytes (sectorOf key) 32 = coreBytes s s.me.core (sectorOf key) 32 := by
  rw [homeBytes_of_sound (sound_sector h.sound), coreBytes]
  refine List.map_congr_left fun i hi => ?_
  have hat : s.dirtyAt s.me.core (sectorOf key + i) = none := by
    rw [← hd]
    exact s.dirtyAt_congr _ (by have := List.mem_range.1 hi; unfold sectorOf; omega)
  rw [coreByte_eq, hat]
  rfl

/-- Clean copies that are left, or taken from memory as it is. -/
def CleanFrom (s : State) (clean : List Clean) : Prop := ∀ c ∈ clean, c ∈ s.clean ∨ c.bytes = s.homeBytes c.key 32

/-- What a load leaves: beside clean copies that are left, or taken from memory as it is, and what snapshots may miss, everything is as it was. -/
def LoadWork (s t : State) : Prop := ∃ clean edits, CleanFrom s clean ∧ t = { s with clean := clean, edits := edits }

theorem CleanFrom.filter (p : Clean → Bool) : CleanFrom s (s.clean.filter p) := fun _ hc => .inl (List.mem_filter.1 hc).1

theorem LoadWork.refl (s : State) : LoadWork s s := ⟨_, _, fun _ hc => .inl hc, rfl⟩

theorem homeBytes_eq {s t : State} (hm : t.mem = s.mem) (hp : t.poison = s.poison) (hl : t.links = s.links) (a n : Nat) :
    t.homeBytes a n = s.homeBytes a n := by
  induction n generalizing a with
  | zero => rfl
  | succ n ih => rw [State.homeBytes, State.homeBytes, ih, State.poisoned_eq hp hl, State.homeByte, State.homeByte, hm]

theorem LoadWork.trans {s t u : State} (h : LoadWork s t) (h' : LoadWork t u) : LoadWork s u := by
  obtain ⟨c1, _, hc1, rfl⟩ := h
  obtain ⟨c2, e2, hc2, rfl⟩ := h'
  refine ⟨c2, e2, fun c hc => ?_, rfl⟩
  rcases hc2 c hc with hm | hb
  · exact hc1 c hm
  · exact .inr (hb.trans (homeBytes_eq rfl rfl rfl _ _))

theorem LoadWork.dropClean (s : State) (core key : Nat) : LoadWork s (s.dropClean core key) := ⟨_, _, .filter _, rfl⟩

theorem LoadWork.acqBy (s : State) (u : Team) (sc : Option Scope) : LoadWork s (s.acqBy u sc) := by
  unfold State.acqBy
  split
  · exact .refl s
  · split
    · exact ⟨_, _, .filter _, rfl⟩
    · exact .refl s

theorem LoadWork.keeps {s t : State} (h : LoadWork s t) :
    t.me = s.me ∧ t.mem = s.mem ∧ t.dirty = s.dirty ∧ t.teams = s.teams ∧ t.poison = s.poison ∧ t.links = s.links ∧ CleanFrom s t.clean := by
  obtain ⟨_, _, hc, rfl⟩ := h
  exact ⟨rfl, rfl, rfl, rfl, rfl, rfl, hc⟩

/-- A sector is filled from memory as it is. -/
theorem State.fillSector_of_fresh {core : Nat} {sec : Nat} (h : ∀ c ∈ s.clean, c.core = core → c.key = sec → c.bytes = s.homeBytes sec 32)
    (ctx gen : Nat) (v : W80) : ∃ t, LoadWork s t ∧ s.fillSector core ctx gen v sec = (s.homeBytes sec 32, t) := by
  unfold State.fillSector
  dsimp only
  split
  · next c hc =>
    have hp := List.find?_some hc
    simp only [Bool.and_eq_true, beq_iff_eq] at hp
    rw [if_pos (h c (List.mem_of_find?_eq_some hc) hp.1 hp.2)]
    exact ⟨s, .refl s, rfl⟩
  · refine ⟨_, ⟨_, _, ?_, rfl⟩, rfl⟩
    intro c hc
    rcases List.mem_cons.1 hc with rfl | hc
    · exact .inr rfl
    · exact .inl hc

/-- A load of the team reads the sector as its core holds it. -/
theorem Undisturbed.loadSector (h : Undisturbed s key va) (h3 : loc = 3 → s.dirtyAt s.me.core key = none) :
    ∃ t, LoadWork s t ∧ s.loadSector s.me.core s.me.id.tid s.me.id.ctx s.me.id.gen va key loc =
      (coreBytes s s.me.core (sectorOf key) 32, t) := by
  obtain ⟨p, hp⟩ := (ownSector_of_undisturbed h).retag
  unfold State.loadSector
  by_cases hloc : loc = 3
  · rw [if_pos hloc, h.homeBytes_clean (h3 hloc)]
    exact ⟨s, .refl s, rfl⟩
  · have hkept : LoadWork s { s with clean := s.clean.filter p } := ⟨_, _, .filter p, rfl⟩
    obtain ⟨-, hmem, hdirty, -, hpoison, hlinks, -⟩ := hkept.keeps
    rw [if_neg hloc, (ownSector_of_undisturbed h).touch, hp]
    have hfresh : ∀ c ∈ ({ s with clean := s.clean.filter p } : State).clean, c.core = s.me.core → c.key = sectorOf key →
        c.bytes = s.homeBytes (sectorOf key) 32 := fun c hc => h.fresh c (List.mem_filter.1 hc).1
    generalize ({ s with clean := s.clean.filter p } : State) = u at hkept hmem hdirty hpoison hlinks hfresh ⊢
    have hhome := homeBytes_eq hmem hpoison hlinks (sectorOf key) 32
    obtain ⟨t, ht, hfill⟩ := State.fillSector_of_fresh (s := u) (fun c hc hcore hkey => (hfresh c hc hcore hkey).trans hhome.symm) s.me.id.ctx
      s.me.id.gen (BitVec.ofNat 80 (va.toNat - key % 32))
    have hat : u.dirtyAt s.me.core key = s.dirtyAt s.me.core key := by rw [State.dirtyAt, hdirty, State.dirtyAt]
    refine ⟨t, hkept.trans ht, ?_⟩
    simp only [hat, hfill, hhome]
    cases hd : s.dirtyAt s.me.core key with
    | none => rw [h.homeBytes_clean hd]
    | some d =>
      obtain ⟨hmem, hcore, hkey⟩ := State.dirtyAt_eq_some hd
      simp only [(h.mine d hmem hcore hkey).1, if_true, h.overlay_dirty hd]

/-- What disturbs an access is in the core's dirty sectors, the clean copies of its sector and the poison alone. -/
theorem Undisturbed.congr (h : Undisturbed s key va) {t : State} (hd : t.dirty = s.dirty) (hm : t.mem = s.mem) (hp : t.poison = s.poison)
    (hl : t.links = s.links) (hc : CleanFrom s t.clean) (hcore : t.me.core = s.me.core) (hid : t.me.id = s.me.id) : Undisturbed t key va := by
  constructor
  · rw [hd, hcore, hid]
    exact h.mine
  · rw [hd, hcore, hid]
    exact h.tags
  · intro c hc' hcc hck
    rw [homeBytes_eq hm hp hl]
    rw [hcore] at hcc
    rcases hc c hc' with hmem | heq
    · exact h.fresh c hmem hcc hck
    · rw [heq, hck]
  · exact (State.poisoned_eq hp hl key).trans h.sound

theorem Undisturbed.of_loadWork (h : Undisturbed s key va) {t : State} (ht : LoadWork s t) : Undisturbed t key va := by
  obtain ⟨hme, hmem, hdirty, -, hpoison, hlinks, hclean⟩ := ht.keeps
  exact h.congr hdirty hmem hpoison hlinks hclean (by rw [hme]) (by rw [hme])

end

end Sys2Proof.Claim
end

section
/-!
O24 and O25: scalar loads and stores (spec/10 R180).
-/
namespace Sys2Proof.Machine
open Sys2Proof Claim

theorem SSize.key_fits {z : SSize} {key : Nat} (h : key % z.bytes = 0) : key % 32 + z.bytes ≤ 32 := by
  cases z <;> simp only [SSize.bytes] at h ⊢ <;> omega

/-- A load that nothing disturbs answers the number at its key, as the core holds it. -/
theorem sldEffect_undisturbed {s : State} {x : LaneAt} {n : Nat} (h : Undisturbed s x.key x.va)
    (h3 : x.loc = 3 → s.dirtyAt s.me.core x.key = none) (hn : x.key % 32 + n ≤ 32) (i : Instr) (d : SReg) {u : Team} (hcore : u.core = s.me.core)
    (hid : u.id = s.me.id) (op : Nat) :
    ∃ t, LoadWork s t ∧ sldEffect i d n u [x] op s = ⟨t, [.s d (BitVec.ofNat 64 (coreNat s s.me.core x.key n))], none, false⟩ := by
  obtain ⟨t1, h1, he1⟩ : ∃ t1, LoadWork s t1 ∧
      (if atHome (i.acqScope.map (·.widen x.loc)) then s.dropClean s.me.core x.key else s) = t1 := by
    split
    · exact ⟨_, .dropClean .., rfl⟩
    · exact ⟨s, .refl s, rfl⟩
  obtain ⟨hme, hmem, hdirty, -⟩ := h1.keeps
  obtain ⟨t2, h2, he2⟩ := Undisturbed.loadSector (h.of_loadWork h1) (by rw [State.dirtyAt, hdirty, hme]; exact h3)
  rw [hme, coreBytes_congr hdirty hmem] at he2
  have hseen : Done.seen ⟨s, [], none, false⟩ x = ⟨s, [], none, false⟩ := by simp [Done.seen, h.sound]
  refine ⟨_, (h1.trans h2).trans (.acqBy t2 u (i.acqScope.map (·.widen x.loc))), ?_⟩
  simp only [sldEffect, List.foldl_cons, List.foldl_nil, Done.start, hseen, hcore, hid, he1, State.loadBytes, he2, List.nil_append,
    coreBytes_sector _ _ hn, coreNat_eq]

end Sys2Proof.Machine

namespace Sys2Proof.Claim
open Sys2Proof Sys2Proof.Machine

/-- Settles O24: the load is performed as it issues, and reads the sector as its core holds it. -/
theorem scalarLoadIssuesItsValue : Obligations.ScalarLoadIssuesItsValue := by
  unfold Obligations.ScalarLoadIssuesItsValue
  intro s s1 d a r z i key loc hp hc hr hkey h3 hu
  have hrel : NothingToRelease s (.sld d a r z i) loc := fun sc h => by simp [relAt, widened, Instr.relScope] at h
  obtain ⟨t, ht, hissues⟩ := State.uniformAcc_issues hc hr hrel .ld [d] (sldEffect (.sld d a r z i) d z.bytes)
  obtain ⟨hme, hmem, hdirty, hclean, hteams, hpoison, hlinks⟩ := ht.keeps
  obtain ⟨u, hwork, heff⟩ := sldEffect_undisturbed (s := t) (x := ⟨0, _, key, loc⟩)
    (hu.congr hdirty hmem hpoison hlinks (fun c hc => .inl (hclean ▸ hc)) (by rw [hme]) (by rw [hme]))
    (by rw [State.dirtyAt, hdirty, hme]; exact h3) (SSize.key_fits hkey) (.sld d a r z i) d (u := s.me) (by rw [hme]) (by rw [hme]) s.nextId
  obtain ⟨hume, humem, hudirty, huteams, -⟩ := hwork.keeps
  obtain ⟨me, he, hi⟩ := hissues _ heff rfl (hume.trans hme)
  rw [hme, coreNat_eq, coreBytes_congr hdirty hmem] at hi
  exact ⟨_, (exec_sld d a r z i s).trans ((run_of_vReads_nil _ hp fun _ => rfl).trans (congrArg _ he)), hi, humem.trans hmem,
    hudirty.trans hdirty, huteams.trans hteams⟩

end Sys2Proof.Claim

namespace Sys2Proof.Machine
open Sys2Proof Claim

/-! ### Bytes stored into the L1 of the team's core (spec/08 R143) -/

theorem State.dirtyAt_mapMerged (s : State) (core sec k : Nat) (new : List (Nat × Byte)) :
    ({ s with dirty := s.dirty.map (Dirty.merged core sec new) } : State).dirtyAt core k = (s.dirtyAt core k).map (Dirty.merged core sec new) := by
  have hsame : ((fun d : Dirty => d.core == core && d.key == sectorOf k) ∘ Dirty.merged core sec new) =
      fun d => d.core == core && d.key == sectorOf k := by
    funext x
    rw [Function.comp_apply, x.merged_eq]
  rw [State.dirtyAt, List.find?_map, hsame]
  rfl

section
variable {s : State} {u : Team} {key : Nat} {va : W80} {new : List (Nat × Byte)}

/-- Bytes merged into a dirty sector are laid over what the core holds. -/
theorem coreByte_mapMerged {d : Dirty} (hd : s.dirtyAt u.core key = some d) (hin : ∀ x ∈ new, sectorOf x.1 = sectorOf key) (k : Nat) :
    coreByte { s with dirty := s.dirty.map (Dirty.merged u.core (sectorOf key) new) } u.core k = (lastAt new k).getD (coreByte s u.core k) := by
  rw [coreByte_eq, coreByte_eq, State.dirtyAt_mapMerged]
  by_cases hk : sectorOf k = sectorOf key
  · obtain ⟨-, hcore, hkey⟩ := State.dirtyAt_eq_some hd
    have hm : d.merged u.core (sectorOf key) new = { d with bytes := mergeBytes d.bytes new } := if_pos ⟨hcore, hkey⟩
    rw [s.dirtyAt_congr _ hk, hd, Option.map_some, Option.bind_some, Option.bind_some, hm, lastAt_mergeBytes]
    cases lastAt new k <;> rfl
  · have hnone : lastAt new k = none := lastAt_eq_none fun x hx he => hk (he ▸ hin x hx)
    rw [hnone, Option.getD_none]
    cases ho : s.dirtyAt u.core k with
    | none => rfl
    | some e =>
      obtain ⟨-, -, hekey⟩ := State.dirtyAt_eq_some ho
      have hm : e.merged u.core (sectorOf key) new = e := if_neg fun h => hk (hekey.symm.trans h.2)
      rw [Option.map_some, hm]
      rfl

/-- Bytes of a sector that is not dirty yet are laid over what the core holds. -/
theorem coreByte_consDirty (hd : s.dirtyAt u.core key = none) (hin : ∀ x ∈ new, sectorOf x.1 = sectorOf key) {e : Dirty} (hcore : e.core = u.core)
    (hkey : e.key = sectorOf key) (hbytes : e.bytes = new) (k : Nat) :
    coreByte { s with dirty := e :: s.dirty } u.core k = (lastAt new k).getD (coreByte s u.core k) := by
  rw [coreByte_eq, coreByte_eq]
  by_cases hk : sectorOf k = sectorOf key
  · have hat : ({ s with dirty := e :: s.dirty } : State).dirtyAt u.core k = some e := List.find?_cons_of_pos (by simp [hcore, hkey, hk])
    rw [hat, s.dirtyAt_congr _ hk, hd, Option.bind_some, hbytes]
    rfl
  · have hat : ({ s with dirty := e :: s.dirty } : State).dirtyAt u.core k = s.dirtyAt u.core k :=
      List.find?_cons_of_neg (by simp [hcore, hkey, Ne.symm hk])
    have hnone : lastAt new k = none := lastAt_eq_none fun x hx he => hk (he ▸ hin x hx)
    rw [hat, hnone]
    rfl

/-- Bytes stored into the L1 of a core: beside its sectors everything is as it was, and they are laid over what the core holds. -/
structure StoredNear (core : Nat) (s t : State) (bs : List (Nat × Byte)) : Prop where
  work  : ∃ clean dirty, t = { s with clean := clean, dirty := dirty }
  reads : ∀ k, coreByte t core k = (lastAt bs k).getD (coreByte s core k)

/-- A store into the team's own L1 disturbs no access to another line, or under the same tag. -/
theorem OwnSector.storeBytes_near (h : OwnSector s u key va) (hin : ∀ x ∈ new, sectorOf x.1 = sectorOf key) :
    StoredNear u.core s (s.storeBytes u.core u.id.tid u.id.ctx u.id.gen va key 0 new) new ∧
      (key % 32 = va.toNat % 32 → ∀ key' va', OwnSector s u key' va' → (key / 128 = key' / 128 → va.toNat / 128 = va'.toNat / 128) →
        OwnSector (s.storeBytes u.core u.id.tid u.id.ctx u.id.gen va key 0 new) u key' va') := by
  obtain ⟨p, hp⟩ := h.retag
  have hat : ({ s with clean := s.clean.filter p } : State).dirtyAt u.core key = s.dirtyAt u.core key := rfl
  have hwhole {key' : Nat} {va' : W80} (h' : OwnSector s u key' va') :
      ∀ c ∈ s.clean.filter p, c.core = u.core → c.key = sectorOf key' → c.bytes.length = 32 := fun c hc => h'.whole c (List.mem_filter.1 hc).1
  unfold State.storeBytes
  simp only [h.touch, hp, hat, OfNat.zero_ne_ofNat, if_false, if_true]
  cases hd : s.dirtyAt u.core key with
  | none =>
    refine ⟨⟨⟨_, _, rfl⟩, coreByte_consDirty (s := { s with clean := s.clean.filter p }) hd hin rfl rfl rfl⟩, fun hva key' va' h' hline => ?_⟩
    refine ⟨List.forall_mem_cons.2 ⟨fun _ _ => rfl, h'.owner⟩, List.forall_mem_cons.2 ⟨fun _ hk => .inr ⟨rfl, rfl, ?_⟩, h'.tags⟩, hwhole h'⟩
    have hsame : key / 128 = key' / 128 := by
      unfold sectorOf at hk
      dsimp only at hk
      omega
    have := hline hsame
    have hlt := va.isLt
    simp only [BitVec.toNat_ofNat]
    omega
  | some d =>
    obtain ⟨hmem, hcore, hkey⟩ := State.dirtyAt_eq_some hd
    simp only [h.owner d hmem hcore hkey, if_true]
    refine ⟨⟨⟨_, s.dirty.map (Dirty.merged u.core (sectorOf key) new), rfl⟩, coreByte_mapMerged (s := { s with clean := s.clean.filter p }) hd hin⟩,
      fun hva key' va' h' hline => ⟨?_, ?_, hwhole h'⟩⟩
    · refine List.forall_mem_map.2 fun x hx => ?_
      split <;> exact h'.owner x hx
    · refine List.forall_mem_map.2 fun x hx => ?_
      split <;> exact h'.tags x hx

/-- Bytes stored at home: beside memory, what the waits have seen of it, clean copies and what snapshots may miss, everything is as it was. -/
def StoredHome (s t : State) (bs : List (Nat × Byte)) : Prop :=
  ∃ clean edits waits, t = { s with mem := writePairs s.mem bs, waits := waits, clean := clean, edits := edits }

theorem StoredHome.keeps {s t : State} {bs : List (Nat × Byte)} (h : StoredHome s t bs) :
    t.me = s.me ∧ t.mem = writePairs s.mem bs ∧ t.dirty = s.dirty ∧ t.teams = s.teams ∧ t.poison = s.poison ∧ t.links = s.links := by
  obtain ⟨_, _, _, rfl⟩ := h
  exact ⟨rfl, rfl, rfl, rfl, rfl, rfl⟩

theorem State.homeStore_storedHome (hs : ∀ x ∈ new, s.poisoned x.1 = false) (ctx gen v : Nat) (clean : List Clean) (edits : List Edit) :
    StoredHome s (State.homeStore { s with clean := clean, edits := edits } ctx gen v new) new := by
  obtain ⟨waits, h⟩ := State.homeStore_of_sound (s := { s with clean := clean, edits := edits }) hs ctx gen v
  exact ⟨_, _, waits, h⟩

/-- A store to another space than device memory is performed at home. -/
theorem State.storeBytes_home {loc : Nat} (hloc : loc ≠ 0) (hs : ∀ x ∈ new, s.poisoned x.1 = false) (core tid ctx gen : Nat) (v : W80) :
    StoredHome s (s.storeBytes core tid ctx gen v key loc new) new := by
  unfold State.storeBytes
  by_cases h3 : loc = 3
  · rw [if_pos h3]
    exact State.homeStore_storedHome hs ctx gen v.toNat s.clean _
  · rw [if_neg h3, if_neg hloc]
    exact State.homeStore_storedHome hs ctx gen v.toNat _ s.edits

end

/-! ### The store of a word (spec/10 R180) -/

theorem lastAt_word (key n x k : Nat) :
    lastAt (keyed key (leBytes n x)) k = if key ≤ k ∧ k < key + n then some (BitVec.ofNat 8 (x / 256 ^ (k - key))) else none := by
  have hget (i : Nat) : (leBytes n x)[i]? = if i < n then some (BitVec.ofNat 8 (x / 256 ^ i)) else none := by
    induction n generalizing x i with
    | zero => simp [leBytes]
    | succ n ih =>
      cases i with
      | zero => simp [leBytes]
      | succ i => rw [leBytes, List.getElem?_cons_succ, ih, Nat.div_div_eq_div_mul, ← Nat.pow_succ']; simp
  rw [lastAt_keyed, hget]
  by_cases hlo : key ≤ k
  · rw [if_pos hlo]
    exact if_congr (by omega) rfl rfl
  · rw [if_neg hlo, if_neg fun h => hlo h.1]

/-- The bytes of a word lie in one sector. -/
theorem sector_of_mem_word {key n x : Nat} (hn : key % 32 + n ≤ 32) : ∀ c ∈ keyed key (leBytes n x), sectorOf c.1 = sectorOf key := by
  intro c hc
  obtain ⟨hlo, hhi⟩ := key_of_mem_keyed hc
  rw [length_leBytes] at hhi
  unfold sectorOf
  omega

section
variable {s : State} {x : LaneAt} {n : Nat}

/-- A plain store to device memory, and one ordered below cluster scope, goes into the L1. -/
theorem sstEffect_near (h : OwnSector s s.me x.key x.va) (hn : x.key % 32 + n ≤ 32) {i : Instr} (ho : atHome (i.relScope.map (·.widen x.loc)) = false)
    (hloc : x.loc = 0) (d : SReg) (op : Nat) :
    ∃ t, StoredNear s.me.core s t (keyed x.key (leBytes n (s.me.s d).toNat)) ∧ sstEffect i d n s.me [x] op s = ⟨t, [], none, false⟩ := by
  refine ⟨_, (h.storeBytes_near (sector_of_mem_word hn)).1, ?_⟩
  rw [hloc] at ho
  simp only [sstEffect, List.foldl_cons, List.foldl_nil, hloc, ho, Bool.false_eq_true, false_and, if_false, Done.start]

/-- A store ordered at cluster scope or wider, and one to another space, is performed at home. -/
theorem sstEffect_home (h : OwnSector s s.me x.key x.va) (hp : s.poisoned x.key = false) (hn : x.key % 32 + n ≤ 32) {i : Instr}
    (ho : atHome (i.relScope.map (·.widen x.loc)) = true ∨ x.loc ≠ 0) (d : SReg) (op : Nat) :
    ∃ t, StoredHome s t (keyed x.key (leBytes n (s.me.s d).toNat)) ∧ sstEffect i d n s.me [x] op s = ⟨t, [], none, false⟩ := by
  obtain ⟨p, hretag⟩ := h.retag
  have hs : ∀ c ∈ keyed x.key (leBytes n (s.me.s d).toNat), s.poisoned c.1 = false :=
    not_poisoned_of_sound (by rw [length_leBytes]; exact sound_of_not_poisoned hp hn)
  by_cases hhome : atHome (i.relScope.map (·.widen x.loc)) = true ∧ x.loc ≠ 3
  · refine ⟨_, State.homeStore_storedHome hs s.me.id.ctx s.me.id.gen x.va.toNat
      ((s.clean.filter p).filter fun c => !(c.core == s.me.core && c.key == sectorOf x.key)) s.edits, ?_⟩
    simp only [sstEffect, List.foldl_cons, List.foldl_nil, if_pos hhome, Done.start, h.touch, hretag]
    rfl
  · have hloc : x.loc ≠ 0 := by
      rcases ho with ho | ho
      · have h3 : x.loc = 3 := by simpa [ho] using hhome
        rw [h3]
        decide
      · exact ho
    refine ⟨_, State.storeBytes_home (key := x.key) hloc hs s.me.core s.me.id.tid s.me.id.ctx s.me.id.gen x.va, ?_⟩
    simp only [sstEffect, List.foldl_cons, List.foldl_nil, if_neg hhome, Done.start]

end

/-- A byte after a store at home. -/
theorem StoredHome.homeByte {s t : State} {bs : List (Nat × Byte)} (h : StoredHome s t bs) (hw : Memory.wf s.mem = true) (k : Nat) :
    t.homeByte k = (lastAt bs k).getD (s.homeByte k) := by
  obtain ⟨-, hmem, -⟩ := h.keeps
  rw [State.homeByte, hmem, readCell_writePairs hw, State.homeByte]

/-- A core that holds none of the bytes stored at home dirty sees them. -/
theorem StoredHome.coreByte {s t : State} {bs : List (Nat × Byte)} (h : StoredHome s t bs) (hw : Memory.wf s.mem = true) {core : Nat}
    (hd : ∀ x ∈ bs, s.dirtyAt core x.1 = none) (k : Nat) : coreByte t core k = (lastAt bs k).getD (coreByte s core k) := by
  obtain ⟨-, -, hdirty, -⟩ := h.keeps
  have hat : t.dirtyAt core k = s.dirtyAt core k := by rw [State.dirtyAt, hdirty, State.dirtyAt]
  rw [coreByte_eq, coreByte_eq, hat, h.homeByte hw]
  cases hl : lastAt bs k with
  | none => rfl
  | some b =>
    obtain ⟨x, hx, -⟩ := Option.map_eq_some_iff.1 hl
    have hk : x.1 = k := by simpa using List.find?_some hx
    rw [← hk, hd x (List.mem_reverse.1 (List.mem_of_find?_eq_some hx))]
    rfl

end Sys2Proof.Machine

namespace Sys2Proof.Claim
open Sys2Proof Sys2Proof.Machine

/-- Settles O25: the store is performed as it issues, into the L1 or at home as its order and its location say, and lays its bytes over what the core
holds. -/
theorem scalarStoreStoresItsBytes : Obligations.ScalarStoreStoresItsBytes := by
  unfold Obligations.ScalarStoreStoresItsBytes
  intro s s1 d a r z i key loc far hp hc hrel hr hkey hlink hu hw hfar hclean
  obtain ⟨t, ht, hissues⟩ := State.uniformAcc_issues hc hr hrel .st [] (sstEffect (.sst d a r z i) d z.bytes)
  obtain ⟨hme, hmem, hdirty, hcl, hteams, hpoison, hlinks⟩ := ht.keeps
  have hfits := SSize.key_fits hkey
  have hown : OwnSector t t.me key (s.me.scalarAddr a i z.bytes) := (ownSector_of_undisturbed hu).congr hdirty hcl (by rw [hme]) (by rw [hme])
  have hexec := (exec_sst d a r z i s).trans (run_of_vReads_nil _ hp fun _ => rfl)
  have hcore (k : Nat) : coreByte t s.me.core k = coreByte s s.me.core k := by
    rw [coreByte_eq, coreByte_eq, State.dirtyAt, hdirty, State.homeByte, hmem]
    rfl
  have hlast (k : Nat) (b : Byte) : (lastAt (keyed key (leBytes z.bytes (s.me.s d).toNat)) k).getD b =
      if key ≤ k ∧ k < key + z.bytes then BitVec.ofNat 8 ((s.me.s d).toNat / 256 ^ (k - key)) else b := by
    rw [lastAt_word]
    split <;> rfl
  cases far with
  | false =>
    obtain ⟨hplain, hloc⟩ : atHome (relAt (.sst d a r z i) loc) = false ∧ loc = 0 := by simpa using hfar.symm
    rw [relAt, widened_eq] at hplain
    obtain ⟨u, hnear, heff⟩ := sstEffect_near (x := ⟨0, _, key, loc⟩) hown hfits hplain hloc d s.nextId
    rw [hme] at heff hnear
    obtain ⟨⟨_, _, rfl⟩, hreads⟩ := hnear
    obtain ⟨me, he, hi⟩ := hissues _ heff rfl hme
    refine ⟨_, hexec.trans (congrArg _ he), hi, fun k => ?_, fun k _ => congrArg (readCell · k) hmem, fun _ => hmem, (nomatch ·)⟩
    rw [← hlast, ← hcore]
    exact hreads k
  | true =>
    have ho : atHome ((Instr.sst d a r z i).relScope.map (·.widen loc)) = true ∨ loc ≠ 0 := by
      rw [← widened_eq]
      simpa [relAt] using hfar.symm
    have hpt : t.poisoned key = false := (State.poisoned_eq hpoison hlinks key).trans hu.sound
    obtain ⟨u, hhome, heff⟩ := sstEffect_home (x := ⟨0, _, key, loc⟩) hown hpt hfits ho d s.nextId
    rw [hme] at heff hhome
    obtain ⟨hume, humem, hudirty, -⟩ := hhome.keeps
    obtain ⟨me, he, hi⟩ := hissues _ heff rfl (hume.trans hme)
    have hwt : Memory.wf t.mem = true := by rw [hmem]; exact hw
    have hdt : ∀ x ∈ keyed key (leBytes z.bytes (s.me.s d).toNat), t.dirtyAt s.me.core x.1 = none := fun x hx => by
      rw [t.dirtyAt_congr _ (sector_of_mem_word hfits x hx), State.dirtyAt, hdirty]
      exact hclean rfl
    have hbyte (k : Nat) : u.homeByte k = _ := (hhome.homeByte hwt k).trans (hlast k _)
    refine ⟨_, hexec.trans (congrArg _ he), hi, fun k => ?_, fun k hk => ?_, (nomatch ·), fun _ => ⟨hudirty.trans hdirty, fun k hlo hhi => ?_⟩⟩
    · rw [← hlast, ← hcore]
      exact hhome.coreByte hwt hdt k
    · refine (hbyte k).trans ((if_neg (by omega)).trans ?_)
      rw [State.homeByte, hmem, State.homeByte]
    · exact (hbyte k).trans (if_pos ⟨hlo, hhi⟩)

end Sys2Proof.Claim
end

section
/-!
O27: atomics of a team at home (spec/08 R150), and the scalar atomics (spec/10 R181).
-/
namespace Sys2Proof.Machine
open Sys2Proof Claim

/-! ### Numbers stored at home -/

/-- A byte of the number that some bytes make. -/
theorem readCells_byte {m : List Host.Cell} (h : Memory.wf m = true) (a : Nat) {n i : Nat} (hi : i < n) :
    BitVec.ofNat 8 (readCells m a n / 256 ^ i) = readCell m (a + i) := by
  induction n generalizing a i with
  | zero => omega
  | succ n ih =>
    have hb := (readCell m a).isLt
    rw [readCells_succ h]
    cases i with
    | zero =>
      show BitVec.ofNat 8 (_ / 1) = readCell m a
      apply BitVec.eq_of_toNat_eq
      rw [BitVec.toNat_ofNat]
      omega
    | succ i =>
      rw [Nat.pow_succ', ← Nat.div_div_eq_div_mul, show ((readCell m a).toNat + 256 * readCells m (a + 1) n) / 256 = readCells m (a + 1) n by omega,
        ih (a + 1) (by omega), Nat.add_assoc, Nat.add_comm 1]

section
variable {s t u : State} {key n x : Nat}

theorem StoredHome.wf {bs : List (Nat × Byte)} (h : StoredHome s t bs) (hw : Memory.wf s.mem = true) : Memory.wf t.mem = true := by
  obtain ⟨-, hmem, -⟩ := h.keeps
  rw [hmem]
  exact Memory.wf_writePairs _ hw

theorem StoredHome.append {xs ys : List (Nat × Byte)} (h : StoredHome s t xs) (h' : StoredHome t u ys) : StoredHome s u (xs ++ ys) := by
  obtain ⟨_, _, _, rfl⟩ := h
  obtain ⟨c, e, w, rfl⟩ := h'
  exact ⟨c, e, w, by rw [writePairs_append]⟩

/-- What a load leaves of memory is as it was. -/
theorem StoredHome.loadWork {bs : List (Nat × Byte)} (h : StoredHome s t bs) (h' : LoadWork t u) : StoredHome s u bs := by
  obtain ⟨_, _, w, rfl⟩ := h
  obtain ⟨c, e, -, rfl⟩ := h'
  exact ⟨c, e, w, rfl⟩

section
variable (h : StoredHome s t (keyed key (leBytes n x))) (hw : Memory.wf s.mem = true)
include h hw

/-- A number stored at home is read back. -/
theorem StoredHome.homeNat_self (hx : x < 256 ^ n) : t.homeNat key n = x := by
  obtain ⟨-, hmem, -⟩ := h.keeps
  rw [State.homeNat, hmem]
  exact State.homeNat_perform hw key n x hx

/-- Bytes outside a number stored at home stay. -/
theorem StoredHome.homeByte_outside {k : Nat} (hk : k < key ∨ key + n ≤ k) : t.homeByte k = s.homeByte k := by
  rw [h.homeByte hw, lastAt_word, if_neg (by omega)]
  rfl

/-- A number apart from one stored at home stays. -/
theorem StoredHome.homeNat_apart {a m : Nat} (ha : a + m ≤ key ∨ key + n ≤ a) : t.homeNat a m = s.homeNat a m :=
  readCells_congr (h.wf hw) hw a m fun _ _ _ => h.homeByte_outside hw (by omega)

end

/-- A number stored back where it was read changes no byte. -/
theorem StoredHome.homeByte_back (h : StoredHome s t (keyed key (leBytes n (s.homeNat key n)))) (hw : Memory.wf s.mem = true) (k : Nat) :
    t.homeByte k = s.homeByte k := by
  by_cases hk : key ≤ k ∧ k < key + n
  · rw [h.homeByte hw, lastAt_word, if_pos hk, State.homeNat, readCells_byte hw key (by omega), Nat.add_sub_cancel' hk.1]
    rfl
  · exact h.homeByte_outside hw (by omega)

/-! ### Atomics of a team (spec/08 R150) -/

/-- An atomic of a team whose core holds the sector not dirty, at a key that is not poisoned, is made at home. -/
theorem State.atomicAt_home {core : Nat} (hd : s.dirtyAt core key = none) (hp : s.poisoned key = false) (tid ctx gen : Nat) (va : W80) (loc n : Nat)
    (f : Nat → Nat) : ∃ t, StoredHome s t (keyed key (leBytes n (f (s.homeNat key n)))) ∧
      s.atomicAt core tid ctx gen va key loc n f = (s.homeNat key n, t) := by
  have hhome (c : List Clean) : ∃ t, StoredHome s t (keyed key (leBytes n (f (s.homeNat key n)))) ∧
      State.homeAtomic { s with clean := c } ctx gen va.toNat key n f = (s.homeNat key n, t) := by
    refine ⟨_, ⟨c, s.edits, s.waits.map (Wait.look (writePairs s.mem (keyed key (leBytes n (f (s.homeNat key n)))))), rfl⟩, ?_⟩
    exact (if_neg (Bool.eq_false_iff.mp ((State.poisoned_eq rfl rfl key).trans hp))).trans rfl
  unfold State.atomicAt
  split
  · exact hhome s.clean
  · rw [hd]
    exact hhome _

end

/-! ### The scalar atomics (spec/10 R181) -/

theorem exec_of_satm {i : Instr} {d b : SReg} {a : AReg} {r : Ordering3} {w : AtWidth} (h : satmOperands i = some (d, a, b, r, w)) {s : State}
    (hp : Passes s i) : exec i s = .next (s.uniformAcc i .at_ .atomic (s.me.a a) w.bytes [d] (satmEffect i d b w.bytes)) := by
  cases i with
  | satmAdd | satmSub | satmAnd | satmOr | satmXor | satmMin | satmMax | satmMinn | satmMaxn | satmXchg | satmCas =>
    cases h
    exact run_of_vReads_nil (fun s => s.uniformAcc _ .at_ .atomic (s.me.a a) w.bytes [d] (satmEffect _ d b w.bytes)) hp fun _ => rfl
  | _ => cases h

/-- The new value of a scalar atomic is that of its rule. -/
theorem satmNew_mod {i : Instr} {d b : SReg} {a : AReg} {r : Ordering3} {w : AtWidth} (h : satmOperands i = some (d, a, b, r, w))
    {f : Nat → Nat → Nat → Nat → Nat} (hf : satmRule i = some f) (u : Team) {x old : Nat} (hx : x < 2 ^ (8 * w.bytes))
    (hold : old < 2 ^ (8 * w.bytes)) :
    satmNew u (8 * w.bytes) x old i % 2 ^ (8 * w.bytes) = f (8 * w.bytes) x old ((u.s d).toNat % 2 ^ (8 * w.bytes)) := by
  have hpos : 0 < 8 * w.bytes := by cases w <;> decide
  have hite (p : Prop) [Decidable p] {y z : Nat} (hy : y < 2 ^ (8 * w.bytes)) (hz : z < 2 ^ (8 * w.bytes)) :
      (if p then y else z) % 2 ^ (8 * w.bytes) = if p then y else z := by
    split
    · exact Nat.mod_eq_of_lt hy
    · exact Nat.mod_eq_of_lt hz
  cases i with
  | satmAdd =>
    cases hf
    rfl
  | satmSub =>
    cases h
    cases hf
    rw [satmNew]
    congr 1
    omega
  | satmAnd =>
    cases h
    cases hf
    exact Nat.mod_eq_of_lt (Nat.and_lt_two_pow old hx)
  | satmOr =>
    cases h
    cases hf
    exact Nat.mod_eq_of_lt (Nat.or_lt_two_pow hold hx)
  | satmXor =>
    cases h
    cases hf
    exact Nat.mod_eq_of_lt (Nat.xor_lt_two_pow hold hx)
  | satmMin =>
    cases h
    cases hf
    exact Nat.mod_eq_of_lt (by simp only [satmNew]; omega)
  | satmMax =>
    cases h
    cases hf
    exact Nat.mod_eq_of_lt (by simp only [satmNew]; omega)
  | satmMinn =>
    cases h
    cases hf
    simp only [satmNew, signedOf_le_iff hpos hold hx]
    exact hite _ hold hx
  | satmMaxn =>
    cases h
    cases hf
    simp only [satmNew, signedOf_le_iff hpos hold hx]
    exact hite _ hx hold
  | satmXchg =>
    cases h
    cases hf
    exact Nat.mod_eq_of_lt hx
  | satmCas =>
    cases h
    cases hf
    exact hite _ hx hold
  | _ => cases h

end Sys2Proof.Machine

namespace Sys2Proof.Claim
open Sys2Proof Sys2Proof.Machine

/-- Settles O27: the atomic is made at home as it issues, with the new value of its form. -/
theorem scalarAtomicsStoreTheRule : Obligations.ScalarAtomicsStoreTheRule := by
  unfold Obligations.ScalarAtomicsStoreTheRule
  intro s s1 i d a b r w f key loc hops hf hp hc hrel hr hpoison hd hw
  obtain ⟨t, ht, hissues⟩ := State.uniformAcc_issues hc hr hrel .at_ [d] (satmEffect i d b w.bytes)
  obtain ⟨hme, hmem, hdirty, -, hteams, hpois, hlinks⟩ := ht.keeps
  have hwt : Memory.wf t.mem = true := by rw [hmem]; exact hw
  have hnat : t.homeNat key w.bytes = s.homeNat key w.bytes := by rw [State.homeNat, hmem, State.homeNat]
  have hpow : 2 ^ (8 * w.bytes) = 256 ^ w.bytes := Nat.pow_mul 2 8 w.bytes
  have hrule := satmNew_mod hops hf s.me (x := (s.me.s b).toNat % 2 ^ (8 * w.bytes)) (Nat.mod_lt _ (Nat.two_pow_pos _))
    (hpow ▸ readCells_lt hw key w.bytes)
  obtain ⟨u, hu, hat⟩ := State.atomicAt_home (s := t) (core := s.me.core) (key := key) (by rw [State.dirtyAt, hdirty]; exact hd)
    ((State.poisoned_eq hpois hlinks key).trans hpoison) s.me.id.tid s.me.id.ctx s.me.id.gen (s.me.a a) loc w.bytes
    fun old => satmNew s.me (8 * w.bytes) ((s.me.s b).toNat % 2 ^ (8 * w.bytes)) old i % 2 ^ (8 * w.bytes)
  have hv := hu.loadWork (.acqBy u s.me (i.acqScope.map (·.widen loc)))
  rw [hnat] at hat hv
  obtain ⟨hvme, -, hvdirty, hvteams, -⟩ := hv.keeps
  have heff : satmEffect i d b w.bytes s.me [⟨0, s.me.a a, key, loc⟩] s.nextId t =
      ⟨u.acqBy s.me (i.acqScope.map (·.widen loc)), [.s d (BitVec.ofNat 64 (s.homeNat key w.bytes))], none, false⟩ := by
    simp only [satmEffect, List.foldl_cons, List.foldl_nil, Done.start, hat, List.nil_append]
  obtain ⟨me, he, hi⟩ := hissues _ heff rfl (hvme.trans hme)
  refine ⟨_, (exec_of_satm hops hp).trans (congrArg _ he), hi, ?_, fun k hk => ?_, hvdirty.trans hdirty, hvteams.trans hteams⟩
  · exact (hv.homeNat_self hwt (by rw [← hpow]; exact Nat.mod_lt _ (Nat.two_pow_pos _))).trans hrule
  · refine (hv.homeByte_outside hwt hk).trans ?_
    rw [State.homeByte, hmem, State.homeByte]

end Sys2Proof.Claim
end

section
/-!
O40: the signal words and the end of a registered wait (spec/10 R179, R198).
-/
namespace Sys2Proof.Machine
open Sys2Proof Claim

/-! ### The numbers of the waits stay -/

/-- The same waits, by their numbers. -/
def SameWaits (s t : State) : Prop := t.waits.map (·.id) = s.waits.map (·.id)

theorem SameWaits.refl (s : State) : SameWaits s s := rfl

theorem SameWaits.trans {s t u : State} (h : SameWaits s t) (h' : SameWaits t u) : SameWaits s u := Eq.trans h' h

theorem SameWaits.of_waits {s t : State} (h : t.waits = s.waits) : SameWaits s t := congrArg _ h

theorem SameWaits.withImages {s t : State} (h : SameWaits s t) (images : List Image) : SameWaits s { t with images := images } := h

theorem Wait.look_id (m : List Host.Cell) (w : Wait) : (w.look m).id = w.id := by
  unfold Wait.look
  split <;> rfl

theorem State.perform_sameWaits (s : State) (bs : List (Nat × Byte)) : SameWaits s (s.perform bs) := by
  rw [SameWaits, State.perform_waits, List.map_map]
  exact List.map_congr_left fun w _ => w.look_id _

theorem State.logWrite_sameWaits {s t : State} {bs : List Byte} (h : s.logWrite bs = some t) : SameWaits s t := by
  unfold State.logWrite at h
  split at h
  · cases h
  · obtain rfl := Option.some.inj h
    exact s.perform_sameWaits _

theorem State.flushLogN_sameWaits (n : Nat) (s : State) : SameWaits s (s.flushLogN n) := by
  induction n generalizing s with
  | zero => exact .refl s
  | succ n ih =>
    unfold State.flushLogN
    split
    · split
      · next s1 h => exact (State.logWrite_sameWaits h).trans (SameWaits.trans (SameWaits.refl s1) (ih _))
      · exact .refl s
    · exact .refl s

theorem State.report_sameWaits (s : State) (kind unit index ctx gen detail addr : Nat) :
    SameWaits s (s.report kind unit index ctx gen detail addr) := by
  unfold State.report State.post
  split
  · exact State.flushLogN_sameWaits _ _
  · exact .refl s

theorem State.poisonReport_sameWaits (s : State) (ctx gen va a : Nat) : SameWaits s (s.poisonReport ctx gen va a) := by
  unfold State.poisonReport
  split <;> exact s.report_sameWaits ..

theorem State.storeSector_sameWaits (s : State) (ctx gen va : Nat) (bs : List (Nat × Byte)) : SameWaits s (s.storeSector ctx gen va bs) := by
  unfold State.storeSector
  split
  · exact .refl s
  · split
    · exact s.poisonReport_sameWaits ..
    · split
      · split
        · exact State.perform_sameWaits _ _
        · exact s.poisonReport_sameWaits ..
      · exact s.perform_sameWaits _

theorem State.homeStore_sameWaits (s : State) (ctx gen va : Nat) (bs : List (Nat × Byte)) : SameWaits s (s.homeStore ctx gen va bs) := by
  unfold State.homeStore
  split
  · exact .refl s
  · exact foldl_keeps (P := SameWaits s) (fun t _ ht => ht.trans (t.storeSector_sameWaits ..)) _ (.refl s)

/-! ### What the end of an operation leaves beside its team -/

theorem HomeWork.me {s t : State} (h : HomeWork s t) : t.me = s.me := by
  obtain ⟨_, _, _, _, _, rfl⟩ := h
  rfl

theorem HomeWork.clean {s t : State} (h : HomeWork s t) : t.clean = s.clean := by
  obtain ⟨_, _, _, _, _, rfl⟩ := h
  rfl

/-- The saved image of a team follows it: the team in issue, the clean copies and the numbers of the waits stay. -/
theorem State.refreshImage_keeps (s : State) (tid : Nat) :
    (s.refreshImage tid).me = s.me ∧ (s.refreshImage tid).clean = s.clean ∧ SameWaits s (s.refreshImage tid) := by
  unfold State.refreshImage
  split
  · split
    · exact ⟨rfl, rfl, rfl⟩
    · dsimp only
      split
      · exact ⟨rfl, rfl, rfl⟩
      · split
        · exact ⟨rfl, rfl, rfl⟩
        · dsimp only
          exact ⟨(s.homeStore_homeWork _ _ _ _).me, (s.homeStore_homeWork _ _ _ _).clean, (s.homeStore_sameWaits _ _ _ _).withImages _⟩
  · exact ⟨rfl, rfl, rfl⟩

/-- The image of a team that is placed is left alone. -/
theorem State.refreshImage_of_placed {s : State} (h : s.me.placed = true) : s.refreshImage s.me.id.tid = s := by
  unfold State.refreshImage
  rw [State.team?_me]
  split
  · next t _ hsome _ =>
    obtain rfl := Option.some.inj hsome
    split
    · rfl
    · simp [h]
  · rfl

theorem State.acqBy_clean_subset (s : State) (u : Team) (sc : Option Scope) : ∀ c ∈ (s.acqBy u sc).clean, c ∈ s.clean := by
  unfold State.acqBy
  split
  · exact fun _ h => h
  · split
    · exact fun _ h => (List.mem_filter.1 h).1
    · exact fun _ h => h

/-- Fences that are over leave the team in issue but for its fences, memory and the waits, and bring no clean copy. -/
theorem State.settleFences_keeps (s : State) (tid : Nat) :
    (∃ fences, (s.settleFences tid).me = { s.me with flow := { s.me.flow with fences := fences } }) ∧ (s.settleFences tid).mem = s.mem ∧
      (s.settleFences tid).waits = s.waits ∧ ∀ c ∈ (s.settleFences tid).clean, c ∈ s.clean := by
  obtain ⟨_, _, _, _, he⟩ := s.settleFences_eq tid
  refine ⟨?_, by rw [he], by rw [he], ?_⟩
  · unfold State.settleFences
    split
    · exact ⟨_, rfl⟩
    · split
      · exact ⟨_, rfl⟩
      · next t _ _ =>
        dsimp only
        have hme (u : State) (fs : List FenceHold) (hu : u.me = s.me) :
            (fs.foldl (fun s f => s.acqBy t (if f.acq then some f.scope else none)) u).me = s.me :=
          foldl_keeps (P := fun v : State => v.me = s.me) (fun v f hv => (LoadWork.acqBy v t _).keeps.1.trans hv) fs hu
        rw [State.updTeam_me, hme]
        · split
          · exact ⟨_, rfl⟩
          · exact ⟨_, rfl⟩
        · split <;> rfl
  · unfold State.settleFences
    split
    · exact fun _ h => h
    · split
      · exact fun _ h => h
      · next t _ _ =>
        dsimp only
        rw [State.updTeam_clean]
        refine foldl_keeps (P := fun v : State => ∀ c ∈ v.clean, c ∈ s.clean) (fun v f hv c hc => hv c (v.acqBy_clean_subset _ _ c hc)) _ ?_
        split <;> exact fun _ h => h

/-- The end of an operation of the team in issue: its registers and operations are those of the team with it complete, the waits keep their numbers,
and no clean copy comes; memory stays if the team is placed. -/
theorem State.finishOp_me (s : State) (op : Nat) :
    (s.finishOp s.me.id.tid op).me.regs = (s.me.complete op).regs ∧ (s.finishOp s.me.id.tid op).me.flow.ops = (s.me.complete op).flow.ops ∧
      SameWaits s (s.finishOp s.me.id.tid op) ∧ (∀ c ∈ (s.finishOp s.me.id.tid op).clean, c ∈ s.clean) ∧
      (s.me.placed = true → (s.finishOp s.me.id.tid op).mem = s.mem) := by
  obtain ⟨hid, hplace, -, -, -⟩ := s.me.complete_keeps op
  obtain ⟨⟨fences, hme⟩, hmem, hwaits, hclean⟩ := (s.updTeam s.me.id.tid (·.complete op)).settleFences_keeps s.me.id.tid
  rw [State.updTeam_me, if_pos rfl] at hme
  unfold State.finishOp
  generalize (s.updTeam s.me.id.tid (·.complete op)).settleFences s.me.id.tid = u at hme hmem hwaits hclean ⊢
  obtain ⟨hume, huclean, huwaits⟩ := u.refreshImage_keeps s.me.id.tid
  refine ⟨by rw [hume, hme], by rw [hume, hme], SameWaits.trans (t := u) (.of_waits hwaits) huwaits, fun c hc => hclean c (huclean ▸ hc), fun hp => ?_⟩
  have htid : s.me.id.tid = u.me.id.tid := by rw [hme, ← hid]
  have hplaced : u.me.placed = true := by rw [hme, ← hp, Team.placed, Team.placed, ← hplace]
  rw [htid, State.refreshImage_of_placed hplaced, hmem]
  rfl

/-! ### A registered wait ends (spec/10 R198) -/

/-- The operation of a number, fixed with its results. -/
def fixed (ws : List RegWrite) (o : Op) : Op := { o with ready := true, writes := ws, held := none }

theorem find?_of_nodup {os : List Op} {o : Op} (ho : o ∈ os) (hn : (os.map (·.id)).Nodup) : os.find? (·.id == o.id) = some o := by
  obtain ⟨p, hp⟩ := Option.isSome_iff_exists.1 ((List.find?_isSome (p := (·.id == o.id))).2 ⟨o, ho, beq_self_eq_true o.id⟩)
  rw [hp, List.inj_on_of_nodup_map hn (List.mem_of_find?_eq_some hp) ho (by simpa using List.find?_some hp)]

theorem Team.fixOp_find {t : Team} {o : Op} (ho : t.flow.ops.find? (·.id == o.id) = some o) (ws : List RegWrite) :
    (t.fixOp o.id ws).flow.ops.find? (·.id == o.id) = some (fixed ws o) := by
  show (t.flow.ops.map fun x => if x.id = o.id then fixed ws x else x).find? (·.id == o.id) = _
  have hid : ((fun p : Op => p.id == o.id) ∘ fun x => if x.id = o.id then fixed ws x else x) = fun p => p.id == o.id := by
    funext x
    by_cases hx : x.id = o.id <;> simp [hx, fixed]
  rw [List.find?_map, hid, ho]
  simp

theorem Team.waitOver_keeps (t : Team) (cyc : Nat) :
    (t.waitOver cyc).regs = t.regs ∧ (t.waitOver cyc).flow = t.flow ∧ (t.waitOver cyc).id = t.id ∧ (t.waitOver cyc).place = t.place := by
  unfold Team.waitOver
  split <;> exact ⟨rfl, rfl, rfl, rfl⟩

/-- An operation whose result has been fixed to one scalar writes it as it completes. -/
theorem Team.complete_of_fixed {t : Team} {o : Op} {n : Nat} {d : SReg} {x : W64} (ho : t.flow.ops.find? (·.id == n) = some (fixed [.s d x] o))
    (hd : o.done = false) : (t.complete n).s d = x ∧ (∀ q : SReg, q ≠ d → (t.complete n).s q = t.s q) ∧ (t.complete n).regs.v = t.regs.v ∧
      ∀ p ∈ (t.complete n).flow.ops, p.id = n → p.done = true := by
  rw [Team.complete_eq ho hd]
  refine ⟨t.setS_s_self d x, fun q hq => t.setS_s_ne x (Ne.symm hq), rfl, fun p hp hid => ?_⟩
  obtain ⟨y, -, rfl⟩ := List.mem_map.1 (mem_of_mem_retired hp)
  rw [marked_id] at hid
  rw [marked, if_pos hid]

/-- The acquire of a wait that has ended, at its team's core, if the team is placed. -/
def State.waitRead (s : State) (tid key : Nat) (sc : Option Scope) : State :=
  match s.team? tid with
  | some t => if t.placed then (s.dropClean t.core key).acqBy t sc else s
  | none => s

theorem State.waitRead_eq (s : State) (tid key : Nat) (sc : Option Scope) :
    ∃ clean edits, s.waitRead tid key sc = { s with clean := clean, edits := edits } := by
  unfold State.waitRead
  split
  · split
    · obtain ⟨_, _, -, he⟩ := (LoadWork.dropClean s _ key).trans (LoadWork.acqBy _ _ sc)
      exact ⟨_, _, he⟩
    · exact ⟨_, _, rfl⟩
  · exact ⟨_, _, rfl⟩

/-- The core of a placed team keeps no clean copy of the word that its wait has read. -/
theorem State.waitRead_clean {s : State} (h : s.me.placed = true) (key : Nat) (sc : Option Scope) :
    ∀ c ∈ (s.waitRead s.me.id.tid key sc).clean, ¬ (c.core = s.me.core ∧ c.key = sectorOf key) := by
  intro c hc hck
  rw [State.waitRead, State.team?_me] at hc
  simp only [h, if_true] at hc
  have hdrop := (List.mem_filter.1 (State.acqBy_clean_subset _ _ _ c hc)).2
  simp [hck] at hdrop

theorem exec_signalWaitSatisfied {s : State} {w : Wait} {x : W64} (hw : s.waits.find? (·.id == w.id) = some w) (hx : w.hit = some x) :
    exec (.signalWaitSatisfied w.id) s = .next ((((({ s with waits := s.waits.filter (·.id != w.id) } : State).waitRead w.tid w.key w.scope).updTeam
      w.tid fun t => (t.fixOp w.op [.s w.dest x]).waitOver s.cyc).finishOp w.tid w.op)) := by
  show execSignalWaitSatisfied w.id s = _
  simp only [execSignalWaitSatisfied, hw, hx]
  rfl

/-- The bytes at home are those that the word has issued on. -/
theorem Issuing.home {s t : State} {key : Nat} (ht : Issuing s t) : (∀ n, t.homeNat key n = s.homeNat key n) ∧ ∀ k, t.homeByte k = s.homeByte k := by
  obtain ⟨-, hmem, -⟩ := ht.keeps
  exact ⟨fun n => by rw [State.homeNat, hmem, State.homeNat], fun k => by rw [State.homeByte, hmem, State.homeByte]⟩

end Sys2Proof.Machine

namespace Sys2Proof.Claim
open Sys2Proof Sys2Proof.Machine

/-- A wait that has met its condition ends. -/
theorem signalWaitSatisfied_completes (s : State) (w : Wait) (x : W64) (o : Op) (hw : s.waits.find? (·.id == w.id) = some w) (hx : w.hit = some x)
    (ht : w.tid = s.me.id.tid) (ho : o ∈ s.me.flow.ops) (hid : o.id = w.op) (hd : o.done = false) (hn : (s.me.flow.ops.map (·.id)).Nodup) :
    ∃ t, exec (.signalWaitSatisfied w.id) s = .next t ∧ t.me.s w.dest = x ∧ (∀ v ∈ t.waits, v.id ≠ w.id) ∧
      (∀ q : SReg, q ≠ w.dest → t.me.s q = s.me.s q) ∧ t.me.regs.v = s.me.regs.v ∧ (s.me.placed = true → t.mem = s.mem) ∧
      (s.me.placed = true → ∀ c ∈ t.clean, ¬ (c.core = s.me.core ∧ c.key = sectorOf w.key)) ∧
      (∀ p ∈ t.me.flow.ops, p.id = w.op → p.done = true) := by
  refine ⟨_, exec_signalWaitSatisfied hw hx, ?_⟩
  have hread := ({ s with waits := s.waits.filter (·.id != w.id) } : State).waitRead_eq w.tid w.key w.scope
  have hclean (hp : s.me.placed = true) := State.waitRead_clean (s := { s with waits := s.waits.filter (·.id != w.id) }) hp w.key w.scope
  rw [show ({ s with waits := s.waits.filter (·.id != w.id) } : State).me.id.tid = w.tid from ht.symm] at hclean
  generalize ({ s with waits := s.waits.filter (·.id != w.id) } : State).waitRead w.tid w.key w.scope = u at hread hclean ⊢
  obtain ⟨hume, humem, huwaits⟩ : u.me = s.me ∧ u.mem = s.mem ∧ u.waits = s.waits.filter (·.id != w.id) := by
    obtain ⟨_, _, rfl⟩ := hread
    exact ⟨rfl, rfl, rfl⟩
  obtain ⟨hregs, hflow, htid, hplace⟩ := (s.me.fixOp w.op [.s w.dest x]).waitOver_keeps s.cyc
  have hvme : (u.updTeam w.tid fun t => (t.fixOp w.op [.s w.dest x]).waitOver s.cyc).me = (s.me.fixOp w.op [.s w.dest x]).waitOver s.cyc := by
    rw [State.updTeam_me, hume, if_pos ht.symm]
  have hfin := (u.updTeam w.tid fun t => (t.fixOp w.op [.s w.dest x]).waitOver s.cyc).finishOp_me w.op
  rw [hvme, htid, show (s.me.fixOp w.op [.s w.dest x]).id.tid = w.tid from ht.symm] at hfin
  generalize (u.updTeam w.tid fun t => (t.fixOp w.op [.s w.dest x]).waitOver s.cyc).finishOp w.tid w.op = t at hfin ⊢
  obtain ⟨htregs, htops, htwaits, htclean, htmem⟩ := hfin
  have hfind : ((s.me.fixOp w.op [.s w.dest x]).waitOver s.cyc).flow.ops.find? (·.id == w.op) = some (fixed [.s w.dest x] o) := by
    rw [hflow, ← hid]
    exact Team.fixOp_find (find?_of_nodup ho hn) _
  obtain ⟨hs, hsother, hv, hdone⟩ := Team.complete_of_fixed hfind hd
  have hsreg (q : SReg) : t.me.s q = (((s.me.fixOp w.op [.s w.dest x]).waitOver s.cyc).complete w.op).s q := by rw [Team.s, htregs, Team.s]
  have hplaced (hp : s.me.placed = true) : ((s.me.fixOp w.op [.s w.dest x]).waitOver s.cyc).placed = true := by
    rw [Team.placed, hplace]
    exact hp
  refine ⟨(hsreg _).trans hs, fun v hv => ?_, fun q hq => ?_, ?_, fun hp => (htmem (hplaced hp)).trans humem, fun hp c hc => hclean hp c (htclean c hc), ?_⟩
  · have hmem : v.id ∈ t.waits.map (·.id) := List.mem_map_of_mem hv
    rw [htwaits, State.updTeam_waits, huwaits] at hmem
    obtain ⟨y, hy, hyid⟩ := List.mem_map.1 hmem
    rw [← hyid]
    simpa using (List.mem_filter.1 hy).2
  · rw [hsreg, hsother q hq, Team.s, hregs]
    rfl
  · rw [htregs, hv, hregs]
    rfl
  · rw [htops]
    exact hdone

section
variable {s s1 : State} {i : Instr} {d b : SReg} {a : AReg} {r : Ordering3} {key loc : Nat}

/-- The atomic of a signal word, made at home from the state that the word has issued in. -/
theorem signal_atomicAt {t : State} (ht : Issuing s t) (hs : Sound s key 8) (hd : s.dirtyAt s.me.core key = none) (f : Nat → Nat) :
    ∃ u, StoredHome t u (keyed key (leBytes 8 (f (t.homeNat key 8)))) ∧
      t.atomicAt s.me.core s.me.id.tid s.me.id.ctx s.me.id.gen (s.me.a a) key loc 8 f = (t.homeNat key 8, u) := by
  obtain ⟨-, -, hdirty, -, -, hpois, hlinks⟩ := ht.keeps
  exact State.atomicAt_home (by rw [State.dirtyAt, hdirty]; exact hd) ((State.poisoned_eq hpois hlinks key).trans (hs 0 (by decide))) _ _ _ _ _ _ f

section
variable (hc : CanAccess s i (s.me.a a) 8 key loc) (hrel : NothingToRelease s i loc)
  (hr : s.teamReach s.me .atomic (s.me.a a) 8 = (.ok key loc, s1)) (hs : Sound s key 8) (hd : s.dirtyAt s.me.core key = none)
  (hw : Memory.wf s.mem = true) (hp : Passes s i)
include hc hrel hr hs hd hw hp

theorem sigadd_takesEffect (hi : i = .sigSigadd d a b r) : ∃ t, exec i s = .next t ∧
    Answers s t s.nextId d (BitVec.ofNat 64 (s.homeNat key 8)) ∧
    t.homeNat key 8 = (s.homeNat key 8 + (s.me.s b).toNat) % 2 ^ 64 ∧
    (∀ k, k < key ∨ key + 8 ≤ k → t.homeByte k = s.homeByte k) ∧ t.dirty = s.dirty ∧ t.teams = s.teams := by
  subst hi
  obtain ⟨t, ht, hissues⟩ := State.uniformAcc_issues hc hr hrel .sg [d] (sigaddEffect d b)
  obtain ⟨hme, hmem, hdirty, -, hteams, -⟩ := ht.keeps
  obtain ⟨hnat, hbyte⟩ := ht.home (key := key)
  have hwt : Memory.wf t.mem = true := by rw [hmem]; exact hw
  obtain ⟨u, hu, hat⟩ := signal_atomicAt (a := a) (loc := loc) ht hs hd fun old => (old + (s.me.s b).toNat) % 2 ^ 64
  obtain ⟨hume, -, hudirty, huteams, -⟩ := hu.keeps
  have heff : sigaddEffect d b s.me [⟨0, s.me.a a, key, loc⟩] s.nextId t = ⟨u, [.s d (BitVec.ofNat 64 (t.homeNat key 8))], none, false⟩ := by
    simp only [sigaddEffect, List.foldl_cons, List.foldl_nil, Done.start, hat, List.nil_append]
  obtain ⟨me, he, his⟩ := hissues _ heff rfl (hume.trans hme)
  rw [hnat] at his hu
  have hexec : exec (.sigSigadd d a b r) s = .next (s.uniformAcc (.sigSigadd d a b r) .sg .atomic (s.me.a a) 8 [d] (sigaddEffect d b)) :=
    run_of_vReads_nil (fun s => s.uniformAcc (.sigSigadd d a b r) .sg .atomic (s.me.a a) 8 [d] (sigaddEffect d b)) hp fun _ => rfl
  exact ⟨_, hexec.trans (congrArg _ he), his, hu.homeNat_self hwt (Nat.mod_lt _ (by decide)),
    fun k hk => (hu.homeByte_outside hwt hk).trans (hbyte k), hudirty.trans hdirty, huteams.trans hteams⟩

theorem sigrd_takesEffect (hi : i = .sigSigrd d a r) : ∃ t, exec i s = .next t ∧
    Answers s t s.nextId d (BitVec.ofNat 64 (s.homeNat key 8)) ∧ (∀ k, t.homeByte k = s.homeByte k) ∧ t.dirty = s.dirty := by
  subst hi
  obtain ⟨t, ht, hissues⟩ := State.uniformAcc_issues hc hr hrel .sg [d] (sigrdEffect (.sigSigrd d a r) d)
  obtain ⟨hme, hmem, hdirty, -⟩ := ht.keeps
  obtain ⟨hnat, hbyte⟩ := ht.home (key := key)
  have hwt : Memory.wf t.mem = true := by rw [hmem]; exact hw
  obtain ⟨u, hu, hat⟩ := signal_atomicAt (a := a) (loc := loc) ht hs hd fun old => old
  have hv := hu.loadWork (.acqBy u s.me ((Instr.sigSigrd d a r).acqScope.map (·.widen loc)))
  obtain ⟨hvme, -, hvdirty, -⟩ := hv.keeps
  have heff : sigrdEffect (.sigSigrd d a r) d s.me [⟨0, s.me.a a, key, loc⟩] s.nextId t =
      ⟨u.acqBy s.me ((Instr.sigSigrd d a r).acqScope.map (·.widen loc)), [.s d (BitVec.ofNat 64 (t.homeNat key 8))], none, false⟩ := by
    simp only [sigrdEffect, List.foldl_cons, List.foldl_nil, Done.start, hat, List.nil_append]
  obtain ⟨me, he, his⟩ := hissues _ heff rfl (hvme.trans hme)
  rw [hnat] at his
  have hexec : exec (.sigSigrd d a r) s =
      .next (s.uniformAcc (.sigSigrd d a r) .sg .atomic (s.me.a a) 8 [d] (sigrdEffect (.sigSigrd d a r) d)) :=
    run_of_vReads_nil (fun s => s.uniformAcc (.sigSigrd d a r) .sg .atomic (s.me.a a) 8 [d] (sigrdEffect (.sigSigrd d a r) d)) hp fun _ => rfl
  exact ⟨_, hexec.trans (congrArg _ he), his, fun k => (hv.homeByte_back hwt k).trans (hbyte k), hvdirty.trans hdirty⟩

theorem wait_registers {kind : Nat} (hi : i = .sigSigwait d a b r ∧ kind = 0 ∨ i = .sigWatch d a b r ∧ kind = 1) :
    ∃ t w, exec i s = .next t ∧ Issues s.me t.me s.nextId .sg false [] [d] ∧ (∀ k, t.homeByte k = s.homeByte k) ∧
      w ∈ t.waits ∧ w.kind = kind ∧ w.tid = s.me.id.tid ∧ w.op = s.nextId ∧ w.dest = d ∧ w.key = key ∧ w.arg = s.me.s b ∧
      w.hit = (let x := BitVec.ofNat 64 (s.homeNat key 8)
        if (if kind = 0 then decide (x.toInt ≤ (s.me.s b).toInt) else decide (x ≠ s.me.s b)) then some x else none) := by
  obtain ⟨t, ht, hissues⟩ := State.uniformAcc_issues hc hr hrel .sg [d] (waitEffect i kind d b)
  obtain ⟨hme, hmem, -, -, -, hpois, hlinks⟩ := ht.keeps
  obtain ⟨hnat, hbyte⟩ := ht.home (key := key)
  have hwt : Memory.wf t.mem = true := by rw [hmem]; exact hw
  obtain ⟨u, hu, hat⟩ := signal_atomicAt (a := a) (loc := loc) ht hs hd fun old => old
  obtain ⟨hume, -, -, -, hupois, hulinks⟩ := hu.keeps
  have hsound : u.poisoned key = false :=
    (State.poisoned_eq (hupois.trans hpois) (hulinks.trans hlinks) key).trans (hs 0 (by decide))
  have hunat : readCells u.mem key 8 = s.homeNat key 8 :=
    (hu.homeNat_self hwt (readCells_lt hwt key 8)).trans (hnat 8)
  have heff : waitEffect i kind d b s.me [⟨0, s.me.a a, key, loc⟩] s.nextId t =
      ⟨u.register kind s.me.id.tid s.nextId d key (s.me.s b) (i.acqScope.map (·.widen loc)), [], none, true⟩ := by
    simp only [waitEffect, List.foldl_cons, List.foldl_nil, Done.start, hat]
  obtain ⟨me, he, his⟩ := hissues _ heff rfl (hume.trans hme)
  have hexec : exec i s = .next (s.uniformAcc i .sg .atomic (s.me.a a) 8 [d] (waitEffect i kind d b)) := by
    rcases hi with ⟨rfl, rfl⟩ | ⟨rfl, rfl⟩
    · exact run_of_vReads_nil (fun s => s.uniformAcc (.sigSigwait d a b r) .sg .atomic (s.me.a a) 8 [d] (waitEffect (.sigSigwait d a b r) 0 d b))
        hp fun _ => rfl
    · exact run_of_vReads_nil (fun s => s.uniformAcc (.sigWatch d a b r) .sg .atomic (s.me.a a) 8 [d] (waitEffect (.sigWatch d a b r) 1 d b))
        hp fun _ => rfl
  refine ⟨_, Wait.look u.mem ⟨u.nextId, kind, s.me.id.tid, s.nextId, d, key, s.me.s b, i.acqScope.map (·.widen loc), none⟩,
    hexec.trans (congrArg _ he), his, fun k => (hu.homeByte_back hwt k).trans (hbyte k), ?_, rfl, rfl, rfl, rfl, rfl, rfl, ?_⟩
  · refine List.mem_append_right _ (List.mem_singleton.2 ?_)
    rw [hsound]
    rfl
  · rcases hi with ⟨-, rfl⟩ | ⟨-, rfl⟩
    · simp only [Wait.look, Wait.sees, hunat, if_true, decide_eq_true_eq]
    · simp only [Wait.look, Wait.sees, hunat, Nat.one_ne_zero, if_false, decide_eq_true_eq]

end

end

/-- Settles O40: a signal word makes its atomic at home as it issues, and its wait looks at once; the end of a wait writes its value. -/
theorem signalWordsComplete : Obligations.SignalWordsComplete := by
  unfold Obligations.SignalWordsComplete
  refine ⟨fun s s1 i d a b r key loc hc hrel hr hs hd hw hp => ⟨?_, ?_, fun kind => ?_⟩, signalWaitSatisfied_completes⟩
  · exact sigadd_takesEffect hc hrel hr hs hd hw hp
  · exact sigrd_takesEffect hc hrel hr hs hd hw hp
  · exact wait_registers hc hrel hr hs hd hw hp

end Sys2Proof.Claim
end

section
/-!
PROOFS. Shared laws of the vector accesses (spec/10 R176, R177): what their lanes come to, and an access made at once in every lane.
-/
namespace Sys2Proof.Machine
open Sys2Proof Claim

/-! ### Tags of the registers that an access loads (spec/06 R100) -/

section
variable (t : Team) (rs : List VReg) (x : BitVec 4)

/-- Tags set leave everything else. -/
theorem Team.setTags_eq : t.setTags rs x = { t with regs := { t.regs with tag := (t.setTags rs x).regs.tag } } := by
  unfold Team.setTags
  induction rs generalizing t with
  | nil => rfl
  | cons r rs ih => rw [List.foldl_cons, ih]; rfl

@[simp] theorem Team.setTags_id : (t.setTags rs x).id = t.id := by rw [Team.setTags_eq]
@[simp] theorem Team.setTags_core : (t.setTags rs x).core = t.core := by rw [Team.setTags_eq]; rfl
@[simp] theorem Team.setTags_flow : (t.setTags rs x).flow = t.flow := by rw [Team.setTags_eq]
@[simp] theorem Team.setTags_ctl : (t.setTags rs x).ctl = t.ctl := by rw [Team.setTags_eq]
@[simp] theorem Team.setTags_v (r : VReg) : (t.setTags rs x).v r = t.v r := by rw [Team.setTags_eq]; rfl

theorem Team.setTags_tag {r : VReg} (h : r ∈ rs) : (t.setTags rs x).tag r = x := by
  have hkeeps (qs : List VReg) (u : Team) (hu : u.tag r = x) : (u.setTags qs x).tag r = x :=
    foldl_keeps (P := fun u : Team => u.tag r = x) (fun u q hu => by
      by_cases hq : q = r
      · rw [hq, Team.setTag_tag_self]
      · rw [Team.setTag_tag_ne _ _ hq, hu]) qs hu
  induction rs generalizing t with
  | nil => exact absurd h List.not_mem_nil
  | cons q qs ih =>
    rcases List.mem_cons.1 h with rfl | hr
    · exact hkeeps qs _ (t.setTag_tag_self r x)
    · exact ih (t.setTag q x) hr

end

/-! ### An access issued at its lanes (spec/09 R160, R161) -/

/-- What a word that issues an operation with results for v registers, all fixed, leaves of its team. -/
structure IssuesLanes (u t : Team) (id : Nat) (cls : OpClass) (ws : List RegWrite) (rs : List VReg) (tag : BitVec 4) : Prop where
  op   : ∃ p ∈ t.flow.ops, p.id = id ∧ p.cls = cls ∧ p.ready = true ∧ p.done = false ∧ p.pv = rs ∧ p.ps = [] ∧ p.writes = ws
  regs : t.regs = { u.regs with tag := t.regs.tag, pendV := t.regs.pendV }
  pend : ∀ r : VReg, t.regs.pendV.getLsbD r.val = (u.regs.pendV.getLsbD r.val || rs.contains r)
  tags : ∀ r ∈ rs, t.tag r = tag
  kept : rs = [] → t.regs = u.regs
  pos  : (t.ctl.pc, t.ctl.word) = nextPos u
  ctl  : CtlKept u t
  self : SelfKept u t

theorem Team.issuesLanes_addOp (u : Team) (id : Nat) (cls : OpClass) (ws : List RegWrite) (rs : List VReg) (tag : BitVec 4) (dests : List Dest) :
    IssuesLanes u ((u.setTags rs tag).addOp ⟨id, cls, true, false, ws, rs, [], dests, none, none, none⟩).advance id cls ws rs tag := by
  have htags := u.setTags_eq rs tag
  have htag (r : VReg) (hr : r ∈ rs) := u.setTags_tag rs tag hr
  have hnil : rs = [] → u.setTags rs tag = u := fun h => by rw [h]; rfl
  generalize u.setTags rs tag = t at htags htag hnil ⊢
  obtain ⟨g, rfl⟩ : ∃ g, t = { u with regs := { u.regs with tag := g } } := ⟨_, htags⟩
  refine ⟨⟨⟨id, cls, true, false, ws, rs, [], dests, none, none, none⟩, ?_, rfl, rfl, rfl, rfl, rfl, rfl, rfl⟩, ?_, fun r => ?_,
    fun r hr => ?_, fun h => ?_, Team.advance_pos _, Team.advance_ctl _, ?_⟩
  · rw [Team.advance_flow]
    exact List.mem_append_right _ (List.mem_singleton_self _)
  · rw [Team.advance_regs]
    simp [Team.addOp, bitsOf]
  · rw [Team.advance_regs]
    exact (BitVec.getLsbD_or ..).trans (by rw [getLsbD_bitsOf])
  · rw [Team.advance_tag]
    exact htag r hr
  · rw [Team.advance_regs]
    have hg := congrArg (·.regs) (hnil h)
    rw [h]
    simpa [Team.addOp, bitsOf] using hg
  · exact ⟨Team.advance_id _, Team.advance_place _, Team.advance_sch _⟩

theorem Team.orderHeld_congr {t u : Team} (h : t.flow = u.flow) (i : Instr) (acq rel : Option Scope) (id : Nat) (xs : List LaneAt) :
    t.orderHeld i acq rel id xs = u.orderHeld i acq rel id xs := by
  simp only [Team.orderHeld, Team.acquiring, Team.fencesOn, h]

/-- An access issued at its lanes, with nothing to hold it back, whose effect meets no poison and leaves its team. -/
theorem State.issueLanes {s : State} {i : Instr} {lanes : List LaneAt} (hf : s.me.flow.fences = [])
    (ho : s.me.orderHeld i none none s.nextId lanes = false) (hs : s.stalled s.me lanes = false) (cls : OpClass) (rs : List VReg)
    (tag : BitVec 4) (eff : Effect) : ∃ t, t = { s with me := s.me.setTags rs tag, nextId := s.nextId + 1 } ∧
      ∀ d, eff (s.me.setTags rs tag) lanes s.nextId t = d → d.poison = none → d.waits = false → d.s.me = s.me.setTags rs tag →
        ∃ me, ((s.setMe (·.setTags rs tag)).issueAcc i cls none none lanes [] rs [] eff).advance = { d.s with me := me } ∧
          IssuesLanes s.me me s.nextId cls d.writes rs tag := by
  refine ⟨_, rfl, ?_⟩
  intro d hd hpoison hwaits hme
  have hset : (s.setMe (·.setTags rs tag)).settleFences (s.setMe (·.setTags rs tag)).me.id.tid = s.setMe (·.setTags rs tag) :=
    State.settleFences_of_nil (by rw [State.setMe_me, Team.setTags_flow, hf])
  have hheld : (s.setMe (·.setTags rs tag)).me.orderHeld i none none (s.setMe (·.setTags rs tag)).nextId lanes = false :=
    (Team.orderHeld_congr (s.me.setTags_flow rs tag) ..).trans ho
  have hstall : (s.setMe (·.setTags rs tag)).newId.2.stalled (s.setMe (·.setTags rs tag)).me lanes = false := by
    refine Eq.trans ?_ hs
    rw [State.setMe_me, State.stalled, State.stalled, Team.setTags_id, show (s.me.setTags rs tag).cluster = s.me.cluster by rw [Team.setTags_eq]; rfl]
    rfl
  have hissue := State.issueAcc_now i cls none none lanes [] rs [] eff hset hheld hstall
  have hnew : eff (s.setMe (·.setTags rs tag)).me lanes (s.setMe (·.setTags rs tag)).nextId (s.setMe (·.setTags rs tag)).newId.2 = d := hd
  have hreport : d.report (s.setMe (·.setTags rs tag)).me = d.s := by rw [Done.report, hpoison]
  dsimp only at hissue
  rw [hnew, hreport, hwaits, List.nil_append] at hissue
  refine ⟨_, ?_, s.me.issuesLanes_addOp s.nextId cls d.writes rs tag (lanes.map fun x => destOf x.loc).dedup⟩
  rw [hissue, State.advance_eq, State.setMe, hme]
  rfl

/-! ### What the lanes come to (spec/22 R317) -/

section
variable {k : Access} {n : Nat} {ea : Nat → W80}

theorem laneFates_ok {s s1 : State} {l key loc : Nat} (ls : List Nat) (h : s.teamReach s.me k (ea l) n = (.ok key loc, s1)) :
    laneFates k n ea s (l :: ls) = { laneFates k n ea s1 ls with oks := ⟨l, ea l, key, loc⟩ :: (laneFates k n ea s1 ls).oks } := by
  simp only [laneFates, h]

theorem laneFates_fault {s s1 : State} {l c d : Nat} (ls : List Nat) (h : s.teamReach s.me k (ea l) n = (.fault c d, s1)) :
    laneFates k n ea s (l :: ls) =
      { laneFates k n ea s1 ls with faults := (l, ⟨c, d, ea l, false, 0⟩) :: (laneFates k n ea s1 ls).faults } := by
  simp only [laneFates, h]

/-- The state after the host has been asked for a lane's page. -/
def State.askHost (s : State) (k : Access) (va : W80) (cause : Nat) : Option Nat × State :=
  s.merge (dieOf s.me.cluster) s.me.id.ctx s.me.id.gen (va.toNat / 2 ^ 12) k cause false

theorem laneFates_host {s s1 : State} {l c : Nat} (ls : List Nat) (h : s.teamReach s.me k (ea l) n = (.host c, s1)) :
    laneFates k n ea s (l :: ls) = { laneFates k n ea (s1.askHost k (ea l) c).2 ls with
      waits := (l, ea l, (s1.askHost k (ea l) c).1) :: (laneFates k n ea (s1.askHost k (ea l) c).2 ls).waits } := by
  obtain ⟨-, -, hme, -⟩ := (State.teamReach_kept h).l1
  simp only [laneFates, h, State.askHost, hme]

/-- The lanes of an access in order come to their fates. -/
theorem foldl_laneStep (ls : List Nat) (a : LaneAcc) : ls.foldl (laneStep k n ea) a =
    ⟨(laneFates k n ea a.s ls).s, a.waits ++ (laneFates k n ea a.s ls).waits, a.faults ++ (laneFates k n ea a.s ls).faults,
      a.lanes ++ (laneFates k n ea a.s ls).oks⟩ := by
  induction ls generalizing a with
  | nil => simp [laneFates]
  | cons l ls ih =>
    rw [List.foldl_cons, ih]
    cases h : a.s.teamReach a.s.me k (ea l) n with
    | mk r s1 =>
      obtain ⟨-, -, hme, -⟩ := (State.teamReach_kept h).l1
      cases r with
      | ok key loc => simp [laneStep, h, laneFates_ok ls h]
      | host c => simp [laneStep, h, laneFates_host ls h, State.askHost, hme]
      | fault c d => simp [laneStep, h, laneFates_fault ls h]

/-- While no lane must be served by the host, the lanes change cached translations alone. -/
theorem laneFates_kept {s : State} {ls : List Nat} (h : (laneFates k n ea s ls).waits = []) : FetchKept s (laneFates k n ea s ls).s := by
  induction ls generalizing s with
  | nil => exact .refl s
  | cons l ls ih =>
    cases hr : s.teamReach s.me k (ea l) n with
    | mk r s1 =>
      have hk := State.teamReach_kept hr
      cases r with
      | ok key loc =>
        rw [laneFates_ok ls hr] at h ⊢
        exact hk.trans (ih h)
      | host c =>
        rw [laneFates_host ls hr] at h
        cases h
      | fault c d =>
        rw [laneFates_fault ls hr] at h ⊢
        exact hk.trans (ih h)

/-- The lanes that translate, in the order of the access, at their addresses. -/
theorem laneFates_oks (s : State) (ls : List Nat) :
    ((laneFates k n ea s ls).oks.map (·.lane)).Sublist ls ∧ ∀ x ∈ (laneFates k n ea s ls).oks, x.va = ea x.lane := by
  induction ls generalizing s with
  | nil => exact ⟨.slnil, fun x hx => absurd hx List.not_mem_nil⟩
  | cons l ls ih =>
    cases hr : s.teamReach s.me k (ea l) n with
    | mk r s1 =>
      cases r with
      | ok key loc =>
        rw [laneFates_ok ls hr]
        obtain ⟨hsub, hva⟩ := ih s1
        exact ⟨hsub.cons_cons l, List.forall_mem_cons.2 ⟨rfl, hva⟩⟩
      | host c =>
        rw [laneFates_host ls hr]
        obtain ⟨hsub, hva⟩ := ih (s1.askHost k (ea l) c).2
        exact ⟨hsub.cons l, hva⟩
      | fault c d =>
        rw [laneFates_fault ls hr]
        obtain ⟨hsub, hva⟩ := ih s1
        exact ⟨hsub.cons l, hva⟩

end

/-! ### Lane addresses (spec/10 R177) -/

theorem laneAddr_eq (u : Team) (a : AReg) (o : VReg) (scale : Nat) : u.laneAddr a o scale = laneAddress u a o scale := by
  funext l
  have hsext : ((u.v o).getD l 0).signExtend 80 = BitVec.ofInt 80 (lane u o l).toInt := rfl
  have hnat (m : Nat) : BitVec.ofNat 80 m = BitVec.ofInt 80 m := (BitVec.ofInt_natCast ..).symm
  rw [Team.laneAddr, laneAddress, hsext, hnat scale, ← BitVec.ofInt_mul, BitVec.ofInt_add, BitVec.ofInt_natCast, BitVec.ofNat_toNat, BitVec.setWidth_eq]

/-- The lanes of a mask are distinct lanes of the team, in ascending order. -/
theorem lanesIn_sorted (u : Team) (m : Mask) : (lanesIn u m).Pairwise (· < ·) ∧ ∀ l ∈ lanesIn u m, l < u.width :=
  ⟨(List.pairwise_lt_range).filter _, fun _ hl => List.mem_range.1 (List.mem_filter.1 hl).1⟩

end Sys2Proof.Machine

namespace Sys2Proof.Claim
open Sys2Proof Sys2Proof.Machine

/-! ### An access made at once in every lane (spec/10 R176) -/

section
variable {s : State} {u : Team} {v : VecAcc} {f : Fates}

theorem Tries.vectorAccess (h : Tries s u v f) {i : Instr} (hg : i.guard? = some v.g) (cls : OpClass) (rs : List VReg) (tag : BitVec 4) (eff : Effect) :
    State.vectorAccess { s with me := u } i cls v.k v.n (laneAddress u v.a v.o v.sc) rs tag eff =
      (⟨f.s, f.waits, f.faults, f.oks⟩ : LaneAcc).finish i cls [] [] rs tag eff := by
  obtain ⟨hpark, -, hsome, haligned, rfl⟩ := h
  have hlanes : lanesOf (u.effOf i) u.width = lanesIn u (u.eff v.g) := by rw [Team.effOf, hg]; rfl
  unfold State.vectorAccess
  dsimp only
  rw [hpark, hlanes]
  dsimp only
  have hfind : (lanesIn u (u.eff v.g)).find? (fun l => (laneAddress u v.a v.o v.sc l).toNat % v.n != 0) = none :=
    List.find?_eq_none.2 fun l hl => by simp [haligned l hl]
  split
  · next he => exact absurd he hsome
  · rw [hfind, foldl_laneStep]
    rfl

/-- Distinct lanes of the team, in ascending order. -/
theorem Tries.lanes (h : Tries s u v f) : (f.oks.map (·.lane)).Pairwise (· < ·) ∧ ∀ x ∈ f.oks, x.lane < u.width := by
  obtain ⟨-, -, -, -, rfl⟩ := h
  obtain ⟨hsorted, hwidth⟩ := lanesIn_sorted u (u.eff v.g)
  obtain ⟨hsub, -⟩ := laneFates_oks (k := v.k) (n := v.n) (ea := laneAddress u v.a v.o v.sc) { s with me := u } (lanesIn u (u.eff v.g))
  exact ⟨hsorted.sublist hsub, fun x hx => hwidth _ (hsub.subset (List.mem_map_of_mem hx))⟩

/-- An access that is made at once in every lane, whose effect meets no poison and leaves its team: its operation has the results of its effect. -/
theorem AllLanes.issues {i : Instr} (h : AllLanes s u i v f) (hg : i.guard? = some v.g) (ha : i.acqScope = none) (hr : i.relScope = none)
    (cls : OpClass) (rs : List VReg) (tag : BitVec 4) (eff : Effect) :
    ∃ t, Issuing { s with me := u.setTags rs tag } t ∧
      ∀ d, eff (u.setTags rs tag) f.oks s.nextId t = d → d.poison = none → d.waits = false → d.s.me = u.setTags rs tag →
        ∃ me, State.vectorAccess { s with me := u } i cls v.k v.n (laneAddress u v.a v.o v.sc) rs tag eff = { d.s with me := me } ∧
          IssuesLanes u me s.nextId cls d.writes rs tag := by
  obtain ⟨-, htries, hwaits, hfaults, hfree⟩ := h
  have hkept : FetchKept { s with me := u } f.s := by
    have hfates := htries.fates
    subst hfates
    exact laneFates_kept hwaits
  obtain ⟨-, -, hme, hid⟩ := hkept.l1
  dsimp only at hme hid
  rw [HeldBack, acqAt, relAt, ha, hr, hid, not_or, Bool.not_eq_true, Bool.not_eq_true] at hfree
  obtain ⟨t, ht, hissues⟩ := State.issueLanes (s := f.s) (i := i) (lanes := f.oks) (by rw [hme, htries.unfenced])
    (by rw [hme, hid]; exact hfree.1) (by rw [hme]; exact hfree.2) cls rs tag eff
  rw [hme, hid] at ht hissues
  refine ⟨t, ⟨{ f.s with me := u.setTags rs tag }, ?_, ht.trans (by rw [hid])⟩, fun d hd hpoison hw hdme => ?_⟩
  · obtain ⟨_, _, _, _, he⟩ := hkept
    rw [he]
    exact ⟨_, _, _, _, _, rfl⟩
  · obtain ⟨me, he, hi⟩ := hissues d hd hpoison hw hdme
    refine ⟨me, (htries.vectorAccess hg cls rs tag eff).trans (Eq.trans ?_ he), hi⟩
    simp only [LaneAcc.finish, hwaits, hfaults, firstFault, ne_eq, not_true, if_false, List.nil_append]

end

end Sys2Proof.Claim
end

section
/-!
O31: the vector atomics (spec/10 R178).
-/
namespace Sys2Proof.Machine
open Sys2Proof Claim

/-- The new word of a vector atomic is that of its rule. -/
theorem vatmNew_eq {i : Instr} {d : VReg} {a : AReg} {o : VReg} {g : Guard} (hops : vatmOperands i = some (d, a, o, g))
    {h : W32 → W32 → W32 → W32} (hrule : vatmRule i = some h) (u : Team) (l : Nat) (x old : W32) :
    vatmNew u l x old i = h x (lane u (Fin.ofNat 64 (d.val + 1)) l) old := by
  cases i with
  | vatmAddI => cases hrule; exact (ofNat_add_eq ..).symm
  | vatmMinI => cases hrule; exact (ofInt_min_eq ..).symm
  | vatmMaxI => cases hrule; exact (ofInt_max_eq ..).symm
  | vatmMaxF => cases hrule; exact congrArg (BitVec.ofNat 32) (minmax_eq_minmaxRule ..)
  | vatmCas => cases hops; cases hrule; rfl
  | vatmAddF | vatmAnd | vatmOr | vatmXor | vatmXchg => cases hrule; rfl
  | _ => cases hrule

/-- A vector atomic is a vector access of the team that its reconstructions leave. -/
theorem exec_of_vatm {i : Instr} {d : VReg} {a : AReg} {o : VReg} {g : Guard} (hops : vatmOperands i = some (d, a, o, g)) {s : State}
    (hp : Passes s i) : exec i s =
      .next (State.vectorAccess { s with me := ready s i } i .at_ .atomic 4 (laneAddress (ready s i) a o 1) [d] 0 (vatmEffect i d)) := by
  have hexec : exec i s = vectorAtomic i d a o s := by
    cases i with
    | vatmAddI | vatmAddF | vatmMinI | vatmMaxI | vatmMaxF | vatmAnd | vatmOr | vatmXor | vatmXchg | vatmCas =>
      cases hops
      rfl
    | _ => cases hops
  rw [hexec, ← laneAddr_eq]
  exact run_of_check_none (fun s => s.vectorAccess i .at_ .atomic 4 (s.me.laneAddr a o 1) [d] 0 (vatmEffect i d)) hp

/-- What a vector atomic is as a vector word. -/
theorem vecAcc_of_vatm {i : Instr} {d : VReg} {a : AReg} {o : VReg} {g : Guard} (hops : vatmOperands i = some (d, a, o, g)) :
    vecAcc i = some ⟨.atomic, 4, a, o, g, 1, [d]⟩ ∧ i.guard? = some g ∧ i.acqScope = none ∧ i.relScope = none := by
  cases i with
  | vatmAddI | vatmAddF | vatmMinI | vatmMaxI | vatmMaxF | vatmAnd | vatmOr | vatmXor | vatmXchg | vatmCas =>
    cases hops
    exact ⟨rfl, rfl, rfl, rfl⟩
  | _ => cases hops

/-- What atomics of a team leave: bytes stored at home, each in a word that they name. -/
def AtWords (xs : List LaneAt) (bs : List (Nat × Byte)) : Prop := ∀ c ∈ bs, ∃ x ∈ xs, x.key ≤ c.1 ∧ c.1 < x.key + 4

/-- The words at keys that are multiples of 4. -/
def HoldsWords (s : State) (w : Nat → W32) : Prop := ∀ k, k % 4 = 0 → BitVec.ofNat 32 (s.homeNat k 4) = w k

/-- The words after an atomic at one of them. -/
theorem StoredHome.holdsWords {s t : State} {key : Nat} {y : W32} {w : Nat → W32} (h : StoredHome s t (keyed key (leBytes 4 y.toNat)))
    (hw : Memory.wf s.mem = true) (hk : key % 4 = 0) (hs : HoldsWords s w) : HoldsWords t fun k => if k = key then y else w k := by
  intro k hk'
  dsimp only
  by_cases he : k = key
  · rw [if_pos he, he, h.homeNat_self hw y.isLt, BitVec.ofNat_toNat, BitVec.setWidth_eq]
  · rw [if_neg he, h.homeNat_apart hw (by omega)]
    exact hs k hk'

/-- The atomics of the lanes in order, each made at home on the word that those before it have left. -/
theorem foldl_atLane {i : Instr} {d : VReg} {u : Team} {g : Nat → W32 → W32}
    (hg : ∀ l old, vatmNew u l (lane u d l) old i = g l old) (xs : List LaneAt) (a : Done) (w : Nat → W32) (hw : Memory.wf a.s.mem = true)
    (hx : ∀ x ∈ xs, x.key % 4 = 0 ∧ a.s.poisoned x.key = false ∧ a.s.dirtyAt u.core x.key = none) (hs : HoldsWords a.s w) :
    ∃ t bs, StoredHome a.s t bs ∧ AtWords xs bs ∧ HoldsWords t (atomicsInOrder g xs w).2 ∧
      xs.foldl (atLane i d u) a =
        { a with s := t, writes := a.writes ++ (xs.zip (atomicsInOrder g xs w).1).map fun (x, old) => .v d x.lane old } := by
  induction xs generalizing a w with
  | nil => exact ⟨a.s, [], ⟨_, _, _, rfl⟩, fun c hc => absurd hc List.not_mem_nil, hs, by simp [atomicsInOrder]⟩
  | cons x xs ih =>
    obtain ⟨hk, hp, hd⟩ := hx x List.mem_cons_self
    obtain ⟨t, ht, hat⟩ := State.atomicAt_home hd hp u.id.tid u.id.ctx u.id.gen x.va x.loc 4 fun old => (g x.lane (BitVec.ofNat 32 old)).toNat
    obtain ⟨-, -, hdirty, -, hpoison, hlinks⟩ := ht.keeps
    have hold := hs x.key hk
    have hstep : atLane i d u a x = { a with s := t, writes := a.writes ++ [.v d x.lane (w x.key)] } := by
      have hnew : (fun old => (vatmNew u x.lane ((u.v d).getD x.lane 0) (BitVec.ofNat 32 old) i).toNat) =
          fun old => (g x.lane (BitVec.ofNat 32 old)).toNat := funext fun old => congrArg _ (hg x.lane _)
      simp only [atLane, hnew, hat, hold]
    have hwords := ht.holdsWords hw hk hs
    rw [hold] at hwords
    have hfun : (fun k => if k = x.key then g x.lane (w x.key) else w k) = fun k => if k = x.key then g x.lane (w k) else w k := by
      funext k
      split
      · next he => rw [he]
      · rfl
    rw [hfun] at hwords
    obtain ⟨t', bs, ht', hbs, hwords', he⟩ := ih (atLane i d u a x) (fun k => if k = x.key then g x.lane (w k) else w k)
      (by rw [hstep]; exact ht.wf hw) (fun y hy => by
        obtain ⟨hyk, hyp, hyd⟩ := hx y (List.mem_cons_of_mem x hy)
        rw [hstep, State.poisoned_eq hpoison hlinks, State.dirtyAt, hdirty]
        exact ⟨hyk, hyp, hyd⟩) (by rw [hstep]; exact hwords)
    rw [hstep] at ht'
    refine ⟨t', _, ht.append ht', fun c hc => ?_, hwords', ?_⟩
    · rcases List.mem_append.1 hc with hc | hc
      · obtain ⟨hlo, hhi⟩ := key_of_mem_keyed hc
        rw [length_leBytes] at hhi
        exact ⟨x, List.mem_cons_self, hlo, hhi⟩
      · obtain ⟨y, hy, hlo, hhi⟩ := hbs c hc
        exact ⟨y, List.mem_cons_of_mem x hy, hlo, hhi⟩
    · rw [List.foldl_cons, he, hstep]
      simp [atomicsInOrder]

end Sys2Proof.Machine

namespace Sys2Proof.Claim
open Sys2Proof Sys2Proof.Machine

/-- Settles O31: the atomics are made at home as they issue, lane by lane, each on the word that the lanes below it have left. -/
theorem vectorAtomicsStoreTheRule : Obligations.VectorAtomicsStoreTheRule := by
  unfold Obligations.VectorAtomicsStoreTheRule
  rintro s i d a o g h u v f olds w hops hrule hp rfl hall hx hwf horder
  obtain ⟨hvec, hguard, hacq, hrel⟩ := vecAcc_of_vatm hops
  obtain rfl : v = ⟨.atomic, 4, a, o, g, 1, [d]⟩ := Option.some.inj (hall.word.symm.trans hvec)
  obtain ⟨t, ht, hissues⟩ := hall.issues hguard hacq hrel .at_ [d] 0 (vatmEffect i d)
  obtain ⟨hme, hmem, hdirty, -, -, hpoison, hlinks⟩ := ht.keeps
  dsimp only at hme hmem hdirty hpoison hlinks
  have hlane (r : VReg) (l : Nat) : lane ((ready s i).setTags [d] 0) r l = lane (ready s i) r l := by rw [lane, Team.setTags_v, lane]
  have hg (l : Nat) (old : W32) : vatmNew ((ready s i).setTags [d] 0) l (lane ((ready s i).setTags [d] 0) d l) old i =
      h (lane (ready s i) d l) (lane (ready s i) (Fin.ofNat 64 (d.val + 1)) l) old := by
    rw [vatmNew_eq hops hrule, hlane, hlane]
  have hnat (k : Nat) : t.homeNat k 4 = s.homeNat k 4 := by rw [State.homeNat, hmem, State.homeNat]
  obtain ⟨t', bs, ht', hbs, hwords, heff⟩ := foldl_atLane hg f.oks (.start t) (fun k => BitVec.ofNat 32 (s.homeNat k 4))
    (by rw [Done.start, hmem]; exact hwf)
    (fun x hm => by
      obtain ⟨hk, hpois, hd⟩ := hx x hm
      rw [Done.start, State.poisoned_eq hpoison hlinks, State.dirtyAt, hdirty, Team.setTags_core]
      exact ⟨hk, hpois, hd⟩)
    (fun k _ => by rw [Done.start, hnat])
  rw [horder] at hwords heff
  obtain ⟨hme', -, hdirty', -⟩ := ht'.keeps
  obtain ⟨me, he, hi⟩ := hissues _ heff rfl rfl (hme'.trans hme)
  obtain ⟨⟨p, hop, hid, hcls, hready, -, hpv, -, hwrites⟩, hregs, hpend, htags, -, hpos, hctl, hself⟩ := hi
  have hwt : Memory.wf t.mem = true := by rw [hmem]; exact hwf
  refine ⟨_, (exec_of_vatm hops hp).trans (congrArg _ he), ⟨p, hop, hid, hcls, hready, hpv, hwrites⟩, fun x hm => ?_, fun k hk => ?_,
    hdirty'.trans hdirty, htags d List.mem_cons_self, ?_, by rw [hregs], by rw [hregs], hpos, hctl, hself⟩
  · have hword := congrArg BitVec.toNat (hwords x.key (hx x hm).1)
    have hlt : t'.homeNat x.key 4 < 2 ^ 32 := readCells_lt (ht'.wf hwt) x.key 4
    rw [BitVec.toNat_ofNat, Nat.mod_eq_of_lt hlt] at hword
    exact hword
  · refine (ht'.homeByte hwt k).trans ?_
    rw [lastAt_eq_none fun c hc hck => ?_, Option.getD_none, State.homeByte, State.homeByte]
    · exact congrArg (readCell · k) hmem
    · obtain ⟨x, hm, hlo, hhi⟩ := hbs c hc
      have := hk x hm
      omega
  · rw [hpend]
    simp

end Sys2Proof.Claim
end

section
/-!
O29: the vector load (spec/10 R177).
-/
namespace Sys2Proof.Machine
open Sys2Proof Claim

/-! ### The passes of an access (spec/12 R203) -/

theorem filter_lt_append_filter_eq {α : Type} (f : α → Nat) (m : Nat) {xs : List α} (h : (xs.map f).Pairwise (· ≤ ·)) :
    (xs.filter fun x => decide (f x < m)) ++ xs.filter (fun x => f x == m) = xs.filter fun x => decide (f x < m + 1) := by
  induction xs with
  | nil => rfl
  | cons x xs ih =>
    obtain ⟨hx, hxs⟩ := List.pairwise_cons.1 h
    have hle : ∀ y ∈ xs, f x ≤ f y := fun y hy => hx _ (List.mem_map_of_mem hy)
    simp only [Nat.lt_succ_iff] at ih ⊢
    rcases lt_trichotomy (f x) m with hlt | heq | hgt
    · rw [List.filter_cons_of_pos (by simpa using hlt), List.filter_cons_of_neg (by simpa using hlt.ne),
        List.filter_cons_of_pos (by simpa using hlt.le), List.cons_append, ih hxs]
    · have hnone : xs.filter (fun y => decide (f y < m)) = [] := List.filter_eq_nil_iff.2 fun y hy => by simpa [heq] using hle y hy
      rw [List.filter_cons_of_neg (by simp [heq]), List.filter_cons_of_pos (by simpa using heq), List.filter_cons_of_pos (by simp [heq]), ← ih hxs,
        hnone]
      rfl
    · rw [List.filter_cons_of_neg (by simpa using hgt.le), List.filter_cons_of_neg (by simpa using hgt.ne'),
        List.filter_cons_of_neg (by simpa using hgt), ih hxs]

/-- The passes hold every lane of the team once, in order. -/
theorem passes_flatten {xs : List LaneAt} {m : Nat} (h : (xs.map (·.lane)).Pairwise (· < ·)) (hm : ∀ x ∈ xs, x.lane < 32 * m) :
    (passes xs m).flatten = xs := by
  have hsorted : (xs.map fun x => x.lane / 32).Pairwise (· ≤ ·) := by
    rw [List.pairwise_map] at h ⊢
    exact h.imp fun hlt => Nat.div_le_div_right hlt.le
  have hpasses (n : Nat) : (passes xs n).flatten = xs.filter fun x => decide (x.lane / 32 < n) := by
    induction n with
    | zero => simp [passes]
    | succ n ih =>
      have hlast : passes xs (n + 1) = passes xs n ++ [xs.filter fun x => x.lane / 32 == n] := by simp [passes, List.range_succ]
      rw [hlast, List.flatten_append, ih, List.flatten_singleton, filter_lt_append_filter_eq (fun x : LaneAt => x.lane / 32) n hsorted]
  rw [hpasses, List.filter_eq_self]
  exact fun x hx => by simpa using Nat.div_lt_of_lt_mul (hm x hx)

theorem mem_of_mem_passes {xs p : List LaneAt} {m : Nat} (hp : p ∈ passes xs m) : ∀ x ∈ p, x ∈ xs := by
  obtain ⟨w, -, rfl⟩ := List.mem_map.1 hp
  exact fun x hx => (List.mem_filter.1 hx).1

/-! ### The lanes of a load (spec/08 R149) -/

theorem LdSize.key_fits {z : LdSize} {key : Nat} (h : key % z.bytes = 0) : key % 32 + z.bytes ≤ 32 := by
  cases z <;> simp only [LdSize.bytes] at h ⊢ <;> omega

theorem ldWords_eq (z : LdSize) (bs : List Byte) : ldWords z bs = loadWords z (leNat bs) := by cases z <;> rfl

/-- The results of one lane of a load. -/
def loadedLane (s : State) (core : Nat) (d : VReg) (z : LdSize) (x : LaneAt) : List RegWrite :=
  laneWrites d x.lane (loadWords z (coreNat s core x.key z.bytes))

/-- A lane of a load that nothing disturbs. -/
structure Loads (s : State) (n : Nat) (x : LaneAt) : Prop where
  fits  : x.key % 32 + n ≤ 32
  clean : x.loc = 3 → s.dirtyAt s.me.core x.key = none
  free  : Undisturbed s x.key x.va

/-- The lanes of a pass performed so far: their results, and the sectors that they have read, as the core holds them. -/
structure LoadedSo (s : State) (a : Done) (seen : List (Nat × List Byte)) : Prop where
  work   : LoadWork s a.s
  seen   : ∀ y ∈ seen, y.2 = coreBytes s s.me.core y.1 32
  poison : a.poison = none

theorem ldLane_loads {s : State} {u : Team} (hcore : u.core = s.me.core) (hid : u.id = s.me.id) {d : VReg} {z : LdSize} {x : LaneAt}
    (hx : Loads s z.bytes x) {a : Done} {seen : List (Nat × List Byte)} (ha : LoadedSo s a seen) :
    LoadedSo s (ldLane u d z (a, seen) x).1 (ldLane u d z (a, seen) x).2 ∧
      (ldLane u d z (a, seen) x).1.writes = a.writes ++ loadedLane s s.me.core d z x ∧ (ldLane u d z (a, seen) x).1.waits = a.waits := by
  obtain ⟨hfits, hclean, hfree⟩ := hx
  obtain ⟨hwork, hseen, hpoison⟩ := ha
  obtain ⟨hme, hmem, hdirty, -, hpois, hlinks, -⟩ := hwork.keeps
  have hsame : a.seen x = a := by
    have : a.s.poisoned x.key = false := (State.poisoned_eq hpois hlinks x.key).trans hfree.sound
    simp [Done.seen, this]
  have hwords : laneWrites d x.lane (ldWords z (((coreBytes s s.me.core (sectorOf x.key) 32).drop (x.key % 32)).take z.bytes)) =
      loadedLane s s.me.core d z x := by
    rw [coreBytes_sector _ _ hfits, ldWords_eq, ← coreNat_eq, loadedLane]
  unfold ldLane
  dsimp only
  rw [hsame]
  split
  · next sec bs hfind =>
    have hbs := hseen _ (List.mem_of_find?_eq_some hfind)
    have hsec : sec = sectorOf x.key := by simpa using List.find?_some hfind
    dsimp only at hbs
    rw [hbs, hsec]
    exact ⟨⟨hwork, hseen, hpoison⟩, congrArg (a.writes ++ ·) hwords, rfl⟩
  · obtain ⟨t, ht, hload⟩ := Undisturbed.loadSector (loc := x.loc) (hfree.of_loadWork hwork) (by rw [State.dirtyAt, hdirty, hme]; exact hclean)
    rw [hme, coreBytes_congr hdirty hmem] at hload
    rw [hcore, hid, hload]
    exact ⟨⟨hwork.trans ht, List.forall_mem_cons.2 ⟨rfl, hseen⟩, hpoison⟩, congrArg (a.writes ++ ·) hwords, rfl⟩

theorem foldl_ldLane {s : State} {u : Team} (hcore : u.core = s.me.core) (hid : u.id = s.me.id) {d : VReg} {z : LdSize} (xs : List LaneAt)
    (hx : ∀ x ∈ xs, Loads s z.bytes x) {a : Done} {seen : List (Nat × List Byte)} (ha : LoadedSo s a seen) :
    LoadedSo s (xs.foldl (ldLane u d z) (a, seen)).1 (xs.foldl (ldLane u d z) (a, seen)).2 ∧
      (xs.foldl (ldLane u d z) (a, seen)).1.writes = a.writes ++ xs.flatMap (loadedLane s s.me.core d z) ∧
      (xs.foldl (ldLane u d z) (a, seen)).1.waits = a.waits := by
  induction xs generalizing a seen with
  | nil => exact ⟨ha, by simp, rfl⟩
  | cons x xs ih =>
    obtain ⟨h1, hw1, hs1⟩ := ldLane_loads hcore hid (d := d) (hx x List.mem_cons_self) ha
    obtain ⟨h2, hw2, hs2⟩ := ih (fun y hy => hx y (List.mem_cons_of_mem x hy)) h1
    exact ⟨h2, by rw [List.foldl_cons, hw2, hw1, List.flatMap_cons, List.append_assoc], hs2.trans hs1⟩

/-- A load that nothing disturbs answers, lane by lane, the words at its keys as the core holds them. -/
theorem vldEffect_loads {s : State} {u : Team} (hcore : u.core = s.me.core) (hid : u.id = s.me.id) {d : VReg} {z : LdSize} {xs : List LaneAt}
    (hx : ∀ x ∈ xs, Loads s z.bytes x) (hsorted : (xs.map (·.lane)).Pairwise (· < ·)) (hwidth : ∀ x ∈ xs, x.lane < u.width) (op : Nat) :
    ∃ t, LoadWork s t ∧ vldEffect d z u xs op s = ⟨t, xs.flatMap (loadedLane s s.me.core d z), none, false⟩ := by
  have hfold (ps : List (List LaneAt)) (hps : ∀ p ∈ ps, ∀ x ∈ p, x ∈ xs) (a : Done) (ha : LoadedSo s a []) :
      LoadedSo s (ps.foldl (fun a p => (p.foldl (ldLane u d z) (a, [])).1) a) [] ∧
        (ps.foldl (fun a p => (p.foldl (ldLane u d z) (a, [])).1) a).writes = a.writes ++ ps.flatten.flatMap (loadedLane s s.me.core d z) ∧
        (ps.foldl (fun a p => (p.foldl (ldLane u d z) (a, [])).1) a).waits = a.waits := by
    induction ps generalizing a with
    | nil => exact ⟨ha, by simp, rfl⟩
    | cons p ps ih =>
      obtain ⟨⟨hwork, -, hpoison⟩, hw1, hs1⟩ := foldl_ldLane hcore hid (d := d) p (fun x hm => hx x (hps p List.mem_cons_self x hm)) ha
      obtain ⟨h2, hw2, hs2⟩ := ih (fun q hq => hps q (List.mem_cons_of_mem p hq)) _ ⟨hwork, fun y hy => absurd hy List.not_mem_nil, hpoison⟩
      refine ⟨h2, ?_, hs2.trans hs1⟩
      rw [List.foldl_cons, hw2, hw1, List.flatten_cons, List.flatMap_append, List.append_assoc]
  obtain ⟨⟨hwork, -, hpoison⟩, hwrites, hwaits⟩ := hfold (passes xs u.id.m) (fun p => mem_of_mem_passes) (.start s)
    ⟨.refl s, fun y hy => absurd hy List.not_mem_nil, rfl⟩
  rw [passes_flatten hsorted hwidth] at hwrites
  refine ⟨_, hwork, ?_⟩
  show (passes xs u.id.m).foldl (fun a p => (p.foldl (ldLane u d z) (a, [])).1) (.start s) = _
  generalize (passes xs u.id.m).foldl (fun a p => (p.foldl (ldLane u d z) (a, [])).1) (.start s) = r at hpoison hwrites hwaits ⊢
  obtain ⟨_, _, _, _⟩ := r
  dsimp only at hpoison hwrites hwaits ⊢
  rw [hpoison, hwrites, hwaits]
  rfl

theorem exec_vld {s : State} {d : VReg} {a : AReg} {o : VReg} {g : Guard} {sc : Bool} {z : LdSize} (hp : Passes s (.vld d a o g sc z)) :
    exec (.vld d a o g sc z) s = .next (State.vectorAccess { s with me := ready s (.vld d a o g sc z) } (.vld d a o g sc z) .ld .load z.bytes
      (laneAddress (ready s (.vld d a o g sc z)) a o (if sc then z.bytes else 1)) (regsFrom d z.regs) 0 (vldEffect d z)) := by
  rw [← laneAddr_eq]
  exact run_of_check_none (fun s => s.vectorAccess (.vld d a o g sc z) .ld .load z.bytes (s.me.laneAddr a o (scaleOf sc z.bytes))
    (regsFrom d z.regs) 0 (vldEffect d z)) hp

end Sys2Proof.Machine

namespace Sys2Proof.Claim
open Sys2Proof Sys2Proof.Machine

/-- Settles O29: the load is performed as it issues; each pass reads each sector once, as the core holds it. -/
theorem vectorLoadIssuesItsLanes : Obligations.VectorLoadIssuesItsLanes := by
  unfold Obligations.VectorLoadIssuesItsLanes
  rintro s d a o g sc z u v f hp rfl hall hx
  obtain rfl : v = ⟨.load, z.bytes, a, o, g, if sc then z.bytes else 1, regsFrom d z.regs⟩ := (Option.some.inj hall.word).symm
  obtain ⟨t, ht, hissues⟩ := hall.issues rfl rfl rfl .ld (regsFrom d z.regs) 0 (vldEffect d z)
  obtain ⟨hme, hmem, hdirty, hclean, -, hpoison, hlinks⟩ := ht.keeps
  dsimp only at hme hmem hdirty hclean hpoison hlinks
  obtain ⟨hsorted, hwidth⟩ := hall.tries.lanes
  generalize hi : Instr.vld d a o g sc z = i at hp hall hx hissues hme hwidth ⊢
  have hcore : t.me.core = (ready s i).core := by rw [hme, Team.setTags_core]
  have hid : t.me.id = (ready s i).id := by rw [hme, Team.setTags_id]
  obtain ⟨t', hwork, heff⟩ := vldEffect_loads (s := t) (u := (ready s i).setTags (regsFrom d z.regs) 0) (d := d) (z := z) (xs := f.oks)
    (by rw [hme]) (by rw [hme])
    (fun x hm => by
      obtain ⟨hkey, h3, hfree⟩ := hx x hm
      exact ⟨LdSize.key_fits hkey, by rw [hcore, State.dirtyAt, hdirty]; exact h3,
        hfree.congr hdirty hmem hpoison hlinks (fun c hc => .inl (hclean ▸ hc)) hcore hid⟩)
    hsorted (fun x hm => by rw [Team.width, Team.setTags_id]; exact hwidth x hm) s.nextId
  obtain ⟨hme', hmem', hdirty', -⟩ := hwork.keeps
  obtain ⟨me, he, ⟨p, hop, hpid, hcls, hready, hdone, hpv, hps, hwrites⟩, hregs, hpend, htags, -, hpos, hctl, hself⟩ :=
    hissues _ heff rfl rfl (hme'.trans hme)
  subst hi
  refine ⟨_, (exec_vld hp).trans (congrArg _ he), ⟨p, hop, hpid, hcls, hready, hdone, hpv, hps, hwrites.trans ?_⟩, fun r hr => ⟨?_, htags r hr⟩,
    by rw [hregs], by rw [hregs], by rw [hregs], hpos, hctl, hself, hmem'.trans hmem, hdirty'.trans hdirty⟩
  · refine List.flatMap_congr fun x _ => ?_
    rw [loadedLane, hcore, coreNat_eq, coreBytes_congr hdirty hmem]
    rfl
  · rw [hpend]
    simp [hr]

end Sys2Proof.Claim
end

section
/-!
O30: the vector store (spec/10 R177).
-/
namespace Sys2Proof.Machine
open Sys2Proof Claim

/-! ### The sector accesses of a pass (spec/08 R149) -/

/-- Sector accesses of which no two go to one sector. -/
def SectorsApart (gs : List (LaneAt × List (Nat × Byte))) : Prop := gs.Pairwise fun g h => sectorOf g.1.key ≠ sectorOf h.1.key

/-- Every byte of some sector accesses has a property, which the sector of its access may enter. -/
def EachByte (P : Nat → Nat × Byte → Prop) (gs : List (LaneAt × List (Nat × Byte))) : Prop := ∀ g ∈ gs, ∀ c ∈ g.2, P (sectorOf g.1.key) c

section
variable {x : LaneAt} {bs : List (Nat × Byte)}

/-- The lanes of the accesses with some bytes gathered in. -/
theorem mem_gather {gs : List (LaneAt × List (Nat × Byte))} : ∀ g ∈ gather x bs gs, g.1 = x ∨ ∃ h ∈ gs, g.1 = h.1 := by
  induction gs with
  | nil => exact fun g hg => .inl (by rw [List.mem_singleton.1 hg])
  | cons h gs ih =>
    intro g hg
    unfold gather at hg
    split at hg
    · rcases List.mem_cons.1 hg with rfl | hg
      · exact .inr ⟨h, List.mem_cons_self, rfl⟩
      · exact .inr ⟨g, List.mem_cons_of_mem h hg, rfl⟩
    · rcases List.mem_cons.1 hg with rfl | hg
      · exact .inr ⟨_, List.mem_cons_self, rfl⟩
      · exact (ih g hg).imp_right fun ⟨y, hy, he⟩ => ⟨y, List.mem_cons_of_mem h hy, he⟩

theorem EachByte.gather {P : Nat → Nat × Byte → Prop} (hx : ∀ c ∈ bs, P (sectorOf x.key) c) {gs : List (LaneAt × List (Nat × Byte))}
    (h : EachByte P gs) : EachByte P (gather x bs gs) := by
  induction gs with
  | nil => exact fun g hg => by rw [List.mem_singleton.1 hg]; exact hx
  | cons y gs ih =>
    obtain ⟨hy, hrest⟩ := List.forall_mem_cons.1 h
    unfold Machine.gather
    split
    · next he =>
      refine List.forall_mem_cons.2 ⟨fun c hc => ?_, hrest⟩
      rcases List.mem_append.1 hc with hc | hc
      · exact hy c (List.mem_filter.1 hc).1
      · exact he ▸ hx c hc
    · exact List.forall_mem_cons.2 ⟨hy, ih hrest⟩

theorem SectorsApart.gather {gs : List (LaneAt × List (Nat × Byte))} (h : SectorsApart gs) : SectorsApart (gather x bs gs) := by
  induction gs with
  | nil => exact List.pairwise_singleton ..
  | cons y gs ih =>
    obtain ⟨hne, hpair⟩ := List.pairwise_cons.1 h
    unfold Machine.gather
    split
    · exact List.pairwise_cons.2 ⟨hne, hpair⟩
    · next he =>
      refine List.pairwise_cons.2 ⟨fun g hg => ?_, ih hpair⟩
      rcases mem_gather g hg with hgx | ⟨z, hz, hgz⟩
      · rw [hgx]
        exact he
      · rw [hgz]
        exact hne z hz

/-- Bytes gathered into the accesses of their sectors are laid over what these leave at a key that the lanes of one sector alone cover. -/
theorem lastAt_gather {k sec : Nat} (hx : ∀ c ∈ bs, c.1 = k → sectorOf x.key = sec) {gs : List (LaneAt × List (Nat × Byte))}
    (hgs : EachByte (fun a c => c.1 = k → a = sec) gs) (h : SectorsApart gs) :
    lastAt ((gather x bs gs).flatMap (·.2)) k = (lastAt bs k).or (lastAt (gs.flatMap (·.2)) k) := by
  induction gs with
  | nil => simp [gather, lastAt]
  | cons y gs ih =>
    obtain ⟨-, hrest⟩ := List.forall_mem_cons.1 hgs
    obtain ⟨hne, hpair⟩ := List.pairwise_cons.1 h
    unfold Machine.gather
    split
    · next he =>
      simp only [List.flatMap_cons, lastAt_append, lastAt_mergeBytes]
      cases hb : lastAt bs k with
      | none => rfl
      | some b =>
        obtain ⟨c, hc, -⟩ := Option.map_eq_some_iff.1 hb
        have hsec := hx c (List.mem_reverse.1 (List.mem_of_find?_eq_some hc)) (by simpa using List.find?_some hc)
        have hnone : lastAt (gs.flatMap (·.2)) k = none := lastAt_eq_none fun c hc hck => by
          obtain ⟨g, hg, hcg⟩ := List.mem_flatMap.1 hc
          exact hne g hg (he.trans (hsec.trans (hrest g hg c hcg hck).symm))
        rw [hnone]
        rfl
    · simp only [List.flatMap_cons, lastAt_append, ih hrest hpair, Option.or_assoc]

end

/-- The bytes of a lane. -/
def laneBytes (f : LaneAt → List Byte) (x : LaneAt) : List (Nat × Byte) := keyed x.key (f x)

/-- The sector accesses that some lanes are gathered into. -/
structure Gathered (f : LaneAt → List Byte) (p : List LaneAt) (gs : List (LaneAt × List (Nat × Byte))) : Prop where
  lanes : ∀ g ∈ gs, g.1 ∈ p
  each  : ∀ P : Nat → Nat × Byte → Prop, (∀ x ∈ p, ∀ c ∈ laneBytes f x, P (sectorOf x.key) c) → EachByte P gs
  last  : ∀ k sec, (∀ x ∈ p, ∀ c ∈ laneBytes f x, c.1 = k → sectorOf x.key = sec) →
    lastAt (gs.flatMap (·.2)) k = lastAt (p.flatMap (laneBytes f)) k

/-- The sector accesses of a pass leave what its lanes, in order, leave at a key that the lanes of one sector alone cover. -/
theorem gatherPass_gathered (f : LaneAt → List Byte) (p : List LaneAt) : Gathered f p (gatherPass f p) := by
  suffices h : SectorsApart (gatherPass f p) ∧ Gathered f p (gatherPass f p) from h.2
  induction p using List.reverseRecOn with
  | nil => exact ⟨List.Pairwise.nil, fun g hg => absurd hg List.not_mem_nil, fun P _ g hg => absurd hg List.not_mem_nil, fun k sec _ => rfl⟩
  | append_singleton p x ih =>
    obtain ⟨hapart, hlanes, heach, hlast⟩ := ih
    have hpass : gatherPass f (p ++ [x]) = gather x (laneBytes f x) (gatherPass f p) := by
      rw [gatherPass, List.foldl_append]
      rfl
    have hleft {y : LaneAt} (hy : y ∈ p) : y ∈ p ++ [x] := List.mem_append_left _ hy
    have hright : x ∈ p ++ [x] := List.mem_append_right _ (List.mem_singleton_self x)
    rw [hpass]
    refine ⟨hapart.gather, fun g hg => ?_, fun P hP => EachByte.gather (hP x hright) (heach P fun y hy => hP y (hleft hy)), fun k sec hk => ?_⟩
    · rcases mem_gather g hg with he | ⟨y, hy, he⟩
      · exact he ▸ hright
      · exact he ▸ hleft (hlanes y hy)
    · rw [lastAt_gather (hk x hright) (heach _ fun y hy => hk y (hleft hy)) hapart, hlast k sec fun y hy => hk y (hleft hy), List.flatMap_append,
        List.flatMap_singleton, lastAt_append]

/-- The sector accesses of several passes. -/
theorem gatherPasses_gathered (f : LaneAt → List Byte) (ps : List (List LaneAt)) : Gathered f ps.flatten (ps.flatMap (gatherPass f)) := by
  induction ps with
  | nil => exact ⟨fun g hg => absurd hg List.not_mem_nil, fun P _ g hg => absurd hg List.not_mem_nil, fun k sec _ => rfl⟩
  | cons p ps ih =>
    obtain ⟨hlanes, heach, hlast⟩ := gatherPass_gathered f p
    obtain ⟨hlanes', heach', hlast'⟩ := ih
    rw [List.flatMap_cons, List.flatten_cons]
    refine ⟨fun g hg => ?_, fun P hP g hg => ?_, fun k sec hk => ?_⟩
    · exact List.mem_append.2 ((List.mem_append.1 hg).imp (hlanes g) (hlanes' g))
    · rcases List.mem_append.1 hg with hg | hg
      · exact heach P (fun x hx => hP x (List.mem_append_left _ hx)) g hg
      · exact heach' P (fun x hx => hP x (List.mem_append_right _ hx)) g hg
    · rw [List.flatMap_append, List.flatMap_append, lastAt_append, lastAt_append, hlast k sec fun x hx => hk x (List.mem_append_left _ hx),
        hlast' k sec fun x hx => hk x (List.mem_append_right _ hx)]

/-! ### Stores of the lanes of a team (spec/08 R146, R148) -/

/-- Bytes stored in the L1 of a core where they are near, or at home where they are far. -/
structure StoredAs (core : Nat) (near far : Prop) (s t : State) (bs : List (Nat × Byte)) : Prop where
  work : ∃ mem waits clean edits dirty, t = { s with mem := mem, waits := waits, clean := clean, edits := edits, dirty := dirty }
  near : near → t.mem = s.mem ∧ ∀ k, coreByte t core k = (lastAt bs k).getD (coreByte s core k)
  far  : far → t.dirty = s.dirty ∧ t.mem = writePairs s.mem bs

section
variable {core : Nat} {near far : Prop} {s t v : State} {xs ys : List (Nat × Byte)}

theorem StoredAs.nil (core : Nat) (near far : Prop) (s : State) : StoredAs core near far s s [] :=
  ⟨⟨_, _, _, _, _, rfl⟩, fun _ => ⟨rfl, fun _ => rfl⟩, fun _ => ⟨rfl, rfl⟩⟩

theorem StoredAs.append (h : StoredAs core near far s t xs) (h' : StoredAs core near far t v ys) : StoredAs core near far s v (xs ++ ys) := by
  obtain ⟨hwork, hnear, hfar⟩ := h
  obtain ⟨hwork', hnear', hfar'⟩ := h'
  refine ⟨?_, fun hn => ?_, fun hf => ?_⟩
  · obtain ⟨_, _, _, _, _, rfl⟩ := hwork
    obtain ⟨_, _, _, _, _, rfl⟩ := hwork'
    exact ⟨_, _, _, _, _, rfl⟩
  · obtain ⟨hm, hb⟩ := hnear hn
    obtain ⟨hm', hb'⟩ := hnear' hn
    refine ⟨hm'.trans hm, fun k => ?_⟩
    rw [hb', hb, lastAt_append]
    cases lastAt ys k <;> rfl
  · obtain ⟨hd, hm⟩ := hfar hf
    obtain ⟨hd', hm'⟩ := hfar' hf
    exact ⟨hd'.trans hd, by rw [hm', hm, writePairs_append]⟩

theorem StoredAs.imp {near' far' : Prop} (h : StoredAs core near far s t xs) (hn : near' → near) (hf : far' → far) :
    StoredAs core near' far' s t xs := ⟨h.work, fun h' => h.near (hn h'), fun h' => h.far (hf h')⟩

theorem StoredAs.keeps (h : StoredAs core near far s t xs) : t.me = s.me ∧ t.poison = s.poison ∧ t.links = s.links := by
  obtain ⟨_, _, _, _, _, rfl⟩ := h.work
  exact ⟨rfl, rfl, rfl⟩

end

/-- A sector that is the team's own stays so while clean copies go. -/
theorem OwnSector.of_clean_subset {s t : State} {u : Team} {key : Nat} {va : W80} (h : OwnSector s u key va) (hd : t.dirty = s.dirty)
    (hc : ∀ c ∈ t.clean, c ∈ s.clean) : OwnSector t u key va :=
  ⟨hd ▸ h.owner, hd ▸ h.tags, fun c hm => h.whole c (hc c hm)⟩

/-- A lane of a store that nothing disturbs. -/
structure Stores (s : State) (u : Team) (x : LaneAt) : Prop where
  own   : OwnSector s u x.key x.va
  sound : s.poisoned x.key = false

/-- One sector access of a store; the lanes of other accesses under the same tag are left undisturbed. -/
theorem State.storeBytes_stores {s : State} {u : Team} {x : LaneAt} (h : Stores s u x) (hva : x.key % 32 = x.va.toNat % 32)
    {new : List (Nat × Byte)} (hin : ∀ c ∈ new, sectorOf c.1 = sectorOf x.key) :
    StoredAs u.core (x.loc = 0) (x.loc ≠ 0) s (s.storeBytes u.core u.id.tid u.id.ctx u.id.gen x.va x.key x.loc new) new ∧
      ∀ y, Stores s u y → (x.key / 128 = y.key / 128 → x.va.toNat / 128 = y.va.toNat / 128) →
        Stores (s.storeBytes u.core u.id.tid u.id.ctx u.id.gen x.va x.key x.loc new) u y := by
  obtain ⟨hown, hsound⟩ := h
  by_cases hloc : x.loc = 0
  · obtain ⟨⟨hwork, hreads⟩, hkept⟩ := hown.storeBytes_near hin
    rw [hloc]
    refine ⟨⟨?_, fun _ => ⟨?_, hreads⟩, fun h => absurd rfl h⟩, fun y hy hline => ⟨hkept hva y.key y.va hy.own hline, ?_⟩⟩
    · obtain ⟨_, _, he⟩ := hwork
      exact ⟨_, _, _, _, _, he⟩
    · obtain ⟨_, _, he⟩ := hwork
      rw [he]
    · obtain ⟨_, _, he⟩ := hwork
      refine Eq.trans (State.poisoned_eq ?_ ?_ y.key) hy.sound
      · rw [he]
      · rw [he]
  · have hstored := State.storeBytes_home (key := x.key) hloc (fun c hc => (s.poisoned_congr (hin c hc)).trans hsound) u.core u.id.tid u.id.ctx u.id.gen x.va
    have hclean : ∀ c ∈ (s.storeBytes u.core u.id.tid u.id.ctx u.id.gen x.va x.key x.loc new).clean, c ∈ s.clean := by
      unfold State.storeBytes
      rw [if_neg hloc]
      split
      · rw [(State.homeStore_homeWork ..).clean]
        exact fun _ hc => hc
      · rw [(State.homeStore_homeWork ..).clean]
        exact fun _ hc => (List.mem_filter.1 hc).1
    obtain ⟨-, hmem, hdirty, -, hpoison, hlinks⟩ := hstored.keeps
    refine ⟨⟨?_, fun h => absurd h hloc, fun _ => ⟨hdirty, hmem⟩⟩,
      fun y hy _ => ⟨hy.own.of_clean_subset hdirty hclean, (State.poisoned_eq hpoison hlinks y.key).trans hy.sound⟩⟩
    obtain ⟨_, _, _, he⟩ := hstored
    exact ⟨_, _, _, _, _, he⟩

/-- The sector accesses of a store in order. -/
theorem foldl_storeBytes {u : Team} (gs : List (LaneAt × List (Nat × Byte))) (s : State) (hs : ∀ g ∈ gs, Stores s u g.1)
    (hva : ∀ g ∈ gs, g.1.key % 32 = g.1.va.toNat % 32) (hin : ∀ g ∈ gs, ∀ c ∈ g.2, sectorOf c.1 = sectorOf g.1.key)
    (hline : ∀ g ∈ gs, ∀ h ∈ gs, g.1.key / 128 = h.1.key / 128 → g.1.va.toNat / 128 = h.1.va.toNat / 128) :
    StoredAs u.core (∀ g ∈ gs, g.1.loc = 0) (∀ g ∈ gs, g.1.loc ≠ 0) s
      (gs.foldl (fun s (x, bs) => s.storeBytes u.core u.id.tid u.id.ctx u.id.gen x.va x.key x.loc bs) s) (gs.flatMap (·.2)) := by
  induction gs generalizing s with
  | nil => exact .nil ..
  | cons g gs ih =>
    obtain ⟨hstored, hkept⟩ := State.storeBytes_stores (hs g List.mem_cons_self) (hva g List.mem_cons_self) (hin g List.mem_cons_self)
    have hrest := ih _ (fun h hm => hkept h.1 (hs h (List.mem_cons_of_mem g hm)) (hline g List.mem_cons_self h (List.mem_cons_of_mem g hm)))
      (fun h hm => hva h (List.mem_cons_of_mem g hm)) (fun h hm => hin h (List.mem_cons_of_mem g hm))
      fun h hm h' hm' => hline h (List.mem_cons_of_mem g hm) h' (List.mem_cons_of_mem g hm')
    exact (hstored.imp (fun h => h g List.mem_cons_self) fun h => h g List.mem_cons_self).append
      (hrest.imp (fun h y hy => h y (List.mem_cons_of_mem g hy)) fun h y hy => h y (List.mem_cons_of_mem g hy))

theorem foldl_flatMap {α β γ : Type} (f : α → List β) (g : γ → β → γ) (ps : List α) (s : γ) :
    (ps.flatMap f).foldl g s = ps.foldl (fun s p => (f p).foldl g s) s := by
  induction ps generalizing s with
  | nil => rfl
  | cons p ps ih => rw [List.flatMap_cons, List.foldl_append, ih, List.foldl_cons]

/-- A store whose lanes nothing disturbs lays the bytes of its lanes, in order, over what is there. -/
theorem storeEffect_stores {s : State} {u : Team} {f : Team → LaneAt → List Byte} {xs : List LaneAt} (hx : ∀ x ∈ xs, Stores s u x)
    (hva : ∀ x ∈ xs, x.key % 32 = x.va.toNat % 32) (hfits : ∀ x ∈ xs, ∀ c ∈ laneBytes (f u) x, sectorOf c.1 = sectorOf x.key)
    (hline : ∀ x ∈ xs, ∀ y ∈ xs, x.key / 128 = y.key / 128 → x.va.toNat / 128 = y.va.toNat / 128)
    (hsorted : (xs.map (·.lane)).Pairwise (· < ·)) (hwidth : ∀ x ∈ xs, x.lane < u.width) (op : Nat) :
    ∃ t bs, StoredAs u.core (∀ x ∈ xs, x.loc = 0) (∀ x ∈ xs, x.loc ≠ 0) s t bs ∧
      (∀ k, lastAt bs k = lastAt (xs.flatMap (laneBytes (f u))) k) ∧ storeEffect f u xs op s = ⟨t, [], none, false⟩ := by
  obtain ⟨hlanes, heach, hlast⟩ := gatherPasses_gathered (f u) (passes xs u.id.m)
  rw [passes_flatten hsorted hwidth] at hlanes heach hlast
  have hstored := foldl_storeBytes (u := u) ((passes xs u.id.m).flatMap (gatherPass (f u))) s (fun g hg => hx g.1 (hlanes g hg))
    (fun g hg => hva g.1 (hlanes g hg)) (heach (fun sec c => sectorOf c.1 = sec) hfits) fun g hg h hh => hline g.1 (hlanes g hg) h.1 (hlanes h hh)
  rw [foldl_flatMap] at hstored
  exact ⟨_, _, hstored.imp (fun h g hg => h g.1 (hlanes g hg)) fun h g hg => h g.1 (hlanes g hg),
    fun k => hlast k (sectorOf k) fun x hm c hc hck => hck ▸ (hfits x hm c hc).symm, rfl⟩

/-! ### The words of a lane (spec/10 R177) -/

theorem StSize.key_fits {z : StSize} {key : Nat} (h : key % z.bytes = 0) : key % 32 + z.bytes ≤ 32 := by
  cases z <;> simp only [StSize.bytes] at h ⊢ <;> omega

/-- A byte of the number that words make, lowest first. -/
theorem byte_of_words (ws : List W32) {i : Nat} (hi : i < 4 * ws.length) :
    BitVec.ofNat 8 (ws.foldr (fun w x => w.toNat + 2 ^ 32 * x) 0 / 256 ^ i) = BitVec.ofNat 8 ((ws.getD (i / 4) 0).toNat / 256 ^ (i % 4)) := by
  induction ws generalizing i with
  | nil => exact absurd hi (Nat.not_lt_zero i)
  | cons w ws ih =>
    rw [List.foldr_cons]
    generalize hx : ws.foldr (fun w x => w.toNat + 2 ^ 32 * x) 0 = x at ih ⊢
    have hw := w.isLt
    apply BitVec.eq_of_toNat_eq
    rcases Nat.lt_or_ge i 4 with hlow | hhigh
    · rw [Nat.div_eq_of_lt hlow, Nat.mod_eq_of_lt hlow, BitVec.toNat_ofNat, BitVec.toNat_ofNat, List.getD_cons_zero]
      interval_cases i <;> omega
    · obtain ⟨j, rfl⟩ := Nat.exists_eq_add_of_le' hhigh
      have hdrop : (w.toNat + 2 ^ 32 * x) / 256 ^ (j + 4) = x / 256 ^ j := by
        rw [Nat.add_comm j 4, Nat.pow_add, ← Nat.div_div_eq_div_mul]
        congr 1
        omega
      rw [hdrop, ih (by rw [List.length_cons] at hi; omega), show (j + 4) / 4 = j / 4 + 1 by omega, show (j + 4) % 4 = j % 4 by omega,
        List.getD_cons_succ]

/-- A byte that a lane of a store covers is that of its consecutive words. -/
theorem lastAt_stBytes (u : Team) (d : VReg) (z : StSize) (x : LaneAt) (k : Nat) :
    lastAt (keyed x.key (stBytes u d z x.lane)) k = if x.key ≤ k ∧ k < x.key + z.bytes then some (storedByte u d x k) else none := by
  rw [stBytes, lastAt_word]
  split
  · next h =>
    have hregs : z.bytes ≤ 4 * z.regs := by cases z <;> decide
    have hwords : (regsFrom d z.regs).foldr (fun r x' => ((u.v r).getD x.lane 0).toNat + 2 ^ 32 * x') 0 =
        ((regsFrom d z.regs).map fun r => lane u r x.lane).foldr (fun w x' => w.toNat + 2 ^ 32 * x') 0 := by
      rw [List.foldr_map]
      rfl
    have hlen : ((regsFrom d z.regs).map fun r => lane u r x.lane).length = z.regs := by simp [regsFrom]
    have hword : ((regsFrom d z.regs).map fun r => lane u r x.lane).getD ((k - x.key) / 4) 0 =
        lane u (Fin.ofNat 64 (d.val + (k - x.key) / 4)) x.lane := by
      rw [List.getD_eq_getElem _ _ (by rw [hlen]; omega)]
      simp [regsFrom]
    rw [hwords, byte_of_words _ (by rw [hlen]; omega), hword, storedByte]
  · rfl

/-- The lane that stores a byte last. -/
theorem lastAt_lanes (u : Team) (d : VReg) (z : StSize) (xs : List LaneAt) (k : Nat) :
    lastAt (xs.flatMap (laneBytes fun x => stBytes u d z x.lane)) k = (lastLane z.bytes xs k).map fun x => storedByte u d x k := by
  induction xs using List.reverseRecOn with
  | nil => rfl
  | append_singleton xs x ih =>
    rw [List.flatMap_append, lastAt_append, ih, List.flatMap_singleton, laneBytes, lastAt_stBytes]
    unfold lastLane
    rw [List.reverse_append, List.reverse_singleton, List.singleton_append, List.find?_cons]
    by_cases h : x.key ≤ k ∧ k < x.key + z.bytes <;> simp [h]

theorem exec_vst {s : State} {d : VReg} {a : AReg} {o : VReg} {g : Guard} {sc : Bool} {z : StSize} (hp : Passes s (.vst d a o g sc z)) :
    exec (.vst d a o g sc z) s = .next (State.vectorAccess { s with me := ready s (.vst d a o g sc z) } (.vst d a o g sc z) .st .store z.bytes
      (laneAddress (ready s (.vst d a o g sc z)) a o (if sc then z.bytes else 1)) [] 0 (vstEffect d z)) := by
  rw [← laneAddr_eq]
  exact run_of_check_none (fun s => s.vectorAccess (.vst d a o g sc z) .st .store z.bytes (s.me.laneAddr a o (scaleOf sc z.bytes))
    [] 0 (vstEffect d z)) hp

end Sys2Proof.Machine

namespace Sys2Proof.Claim
open Sys2Proof Sys2Proof.Machine

/-- Settles O30: the store is performed as it issues; its sector accesses leave, at each byte, what the highest lane that covers it stores. -/
theorem vectorStoreStoresItsLanes : Obligations.VectorStoreStoresItsLanes := by
  unfold Obligations.VectorStoreStoresItsLanes
  rintro s d a o g sc z u v f hp rfl hall hx hline hw
  obtain rfl : v = ⟨.store, z.bytes, a, o, g, if sc then z.bytes else 1, []⟩ := (Option.some.inj hall.word).symm
  obtain ⟨t, ht, hissues⟩ := hall.issues rfl rfl rfl .st [] 0 (vstEffect d z)
  obtain ⟨hme, hmem, hdirty, hclean, -, hpoison, hlinks⟩ := ht.keeps
  dsimp only at hme hmem hdirty hclean hpoison hlinks
  obtain ⟨hsorted, hwidth⟩ := hall.tries.lanes
  obtain ⟨t', bs, ⟨hwork, hnear, hfar⟩, hlast, heff⟩ := storeEffect_stores (s := t) (u := ready s (.vst d a o g sc z))
    (f := fun u x => stBytes u d z x.lane) (xs := f.oks)
    (fun x hm => ⟨(ownSector_of_undisturbed (hx x hm).2.2).congr hdirty hclean rfl rfl, (State.poisoned_eq hpoison hlinks x.key).trans (hx x hm).2.2.sound⟩)
    (fun x hm => (hx x hm).2.1) (fun x hm => sector_of_mem_word (StSize.key_fits (hx x hm).1)) hline hsorted hwidth s.nextId
  have hme' : t'.me = t.me := by
    obtain ⟨_, _, _, _, _, rfl⟩ := hwork
    rfl
  obtain ⟨me, he, ⟨p, hop, hid, hcls, hready, hdone, -, -, hwrites⟩, -, -, -, hkept, hpos, hctl, hself⟩ := hissues _ heff rfl rfl (hme'.trans hme)
  have hbyte (k : Nat) (b : Byte) : (lastAt bs k).getD b =
      match lastLane z.bytes f.oks k with | some x => storedByte (ready s (.vst d a o g sc z)) d x k | none => b := by
    rw [hlast, lastAt_lanes]
    cases lastLane z.bytes f.oks k <;> rfl
  refine ⟨_, (exec_vst hp).trans (congrArg _ he), ⟨p, hop, hid, hcls, hready, hdone, hwrites⟩, fun h => ?_, fun h => ?_,
    (RegsKept.refl _ []).of_regs (hkept rfl), hpos, hctl, hself⟩
  · obtain ⟨hm, hb⟩ := hnear h
    refine ⟨hm.trans hmem, fun k => (hb k).trans ((hbyte k _).trans ?_)⟩
    cases lastLane z.bytes f.oks k with
    | some x => rfl
    | none =>
      show coreByte t (ready s (.vst d a o g sc z)).core k = coreByte s (ready s (.vst d a o g sc z)).core k
      rw [coreByte_eq, coreByte_eq, State.dirtyAt, hdirty, State.homeByte, hmem]
      rfl
  · obtain ⟨hd, hm⟩ := hfar h
    rw [hmem] at hm
    exact ⟨hd.trans hdirty, fun k => (congrArg (readCell · k) hm).trans ((readCell_writePairs hw bs k).trans (hbyte k _))⟩

end Sys2Proof.Claim
end

section
/-!
O35: tile registers and tile slices (spec/10 R184 to R187).
-/
namespace Sys2Proof.Machine
open Sys2Proof Claim

/-! ### The lanes of a slice (spec/10 R186) -/

/-- The fields of a tile register as numbers. -/
theorem tFields_eq (x : W128) : tSpace x = winSpace x ∧ tRows x = winRows x ∧ tCols x = winCols x ∧ tPitch x = winPitch x ∧ tBase x = winBase x := by
  simp [tSpace, tRows, tCols, tPitch, tBase, winSpace, winRows, winCols, winPitch, winBase, BitVec.extractLsb'_toNat, Nat.shiftRight_eq_div_pow]

/-- A lane of a slice at its cell. -/
def cellLane (s : State) (u : Team) (c : Nat × Nat) : LaneAt := ⟨c.1, s.slotVa u c.2, c.2, 3⟩

/-- The lanes that a slice accesses are those of its cells. -/
theorem State.sliceLanes_eq (s : State) (u : Team) (x : W128) (col : Bool) (i : Nat) (m : Mask) :
    State.sliceLanes { s with me := u } x col i m = (sliceCells s u x col i m).map (cellLane s u) := by
  obtain ⟨hspace, hrows, hcols, hpitch, hbase⟩ := tFields_eq x
  rw [State.sliceLanes, sliceCells, List.map_filterMap]
  refine List.filterMap_congr fun l _ => ?_
  have hbind (p : Prop) [Decidable p] (w : Nat) (f : Nat → Option Nat) : (if p then some w else none).bind f = if p then f w else none := by
    split <;> rfl
  have hcell : (sliceWord x col i l).bind (State.wordKey { s with me := u } (tSpace x)) = sliceCell s u x col i l := by
    rw [sliceWord, hspace, hrows, hcols, hpitch, hbase]
    exact hbind _ _ _
  rw [← hcell]
  cases sliceWord x col i l with
  | none => rfl
  | some w =>
    dsimp only [Option.bind_some]
    cases State.wordKey { s with me := u } (tSpace x) w with
    | none => rfl
    | some k => rfl

/-- A slice's lanes lie in ascending order in the team. -/
theorem sliceCells_sorted (s : State) (u : Team) (x : W128) (col : Bool) (i : Nat) (m : Mask) :
    ((sliceCells s u x col i m).map (·.1)).Pairwise (· < ·) ∧ ∀ c ∈ sliceCells s u x col i m, c.1 < u.width := by
  obtain ⟨hsorted, hwidth⟩ := lanesIn_sorted u m
  have hlane : ∀ l : Nat, ∀ c ∈ (sliceCell s u x col i l).map fun k => (l, k), c.1 = l := by
    intro l c hc
    obtain ⟨k, -, rfl⟩ := Option.map_eq_some_iff.1 hc
    rfl
  refine ⟨List.pairwise_map.2 (List.pairwise_filterMap.2 (hsorted.imp fun {a b} hab c hc c' hc' => ?_)), fun c hc => ?_⟩
  · rw [hlane a c hc, hlane b c' hc']
    exact hab
  · obtain ⟨l, hl, hc⟩ := List.mem_filterMap.1 hc
    rw [hlane l c hc]
    exact hwidth l hl

/-- Where a slice's lanes lie for the checks of an access, their virtual addresses do not matter. -/
theorem heldBack_cells {s : State} {u : Team} {i : Instr} {cells : List (Nat × Nat)} (ha : i.acqScope = none) (hr : i.relScope = none)
    (h : ¬ HeldBack s u i 3 (cells.map fun x => ⟨x.1, 0, x.2, 3⟩)) :
    u.orderHeld i none none s.nextId (cells.map (cellLane s u)) = false ∧ s.stalled u (cells.map (cellLane s u)) = false := by
  rw [HeldBack, acqAt, relAt, ha, hr, not_or, Bool.not_eq_true, Bool.not_eq_true] at h
  obtain ⟨hord, hstall⟩ := h
  refine ⟨Eq.trans ?_ hord, Eq.trans ?_ hstall⟩
  · simp only [Team.orderHeld, meets, List.any_map, Function.comp_def, cellLane]
    rfl
  · simp only [State.stalled, State.recorded, boardSector, List.any_map, Function.comp_def, cellLane, if_true]

/-- A slice that can be made is issued at its cells. -/
theorem State.slice_eq {s : State} {u : Team} {i : Instr} {r : TReg} {g : Guard} {cells : List (Nat × Nat)} (hg : i.guard? = some g)
    (h : CanSlice s u i r (u.eff g) cells) (cls : OpClass) (col : Bool) (n : Nat) (hc : cells = sliceCells s u (u.t r) col n (u.eff g))
    (rs : List VReg) (tag : BitVec 4) (eff : Effect) : State.slice { s with me := u } i cls r col n rs tag eff =
      ((State.setMe { s with me := u } (·.setTags rs tag)).issueAcc i cls none none (cells.map (cellLane s u)) [] rs [] eff).advance := by
  have heff : u.effOf i = u.eff g := by rw [Team.effOf, hg]
  unfold State.slice
  dsimp only
  rw [heff, State.sliceLanes_eq, ← hc, if_neg (show lanesOf (u.eff g) u.width ≠ [] from h.lanes), if_neg (not_not.2 h.window)]

/-! ### Slices read (spec/10 R187) -/

/-- A word of sound bytes as the machine reads it. -/
theorem homeWord_eq {s : State} {key n : Nat} (h : Sound s key n) : leNat (s.homeBytes key n) = homeWord s key n := by
  rw [homeBytes_of_sound h, homeWord]

theorem tslEffect_reads {s : State} {u : Team} {cells : List (Nat × Nat)} (hs : ∀ c ∈ cells, Sound s c.2 4) {f : Nat × Nat → LaneAt}
    (hf : ∀ c, (f c).lane = c.1 ∧ (f c).key = c.2) (d : VReg) (op : Nat) :
    tslEffect d u (cells.map f) op s = ⟨s, cells.map fun x => .v d x.1 (BitVec.ofNat 32 (homeWord s x.2 4)), none, false⟩ := by
  have hfold (ws : List RegWrite) : (cells.map f).foldl
      (fun a x => { a.seen x with writes := a.writes ++ [.v d x.lane (BitVec.ofNat 32 (leNat (a.s.homeBytes x.key 4)))] })
      (⟨s, ws, none, false⟩ : Done) = ⟨s, ws ++ cells.map fun x => .v d x.1 (BitVec.ofNat 32 (homeWord s x.2 4)), none, false⟩ := by
    induction cells generalizing ws with
    | nil => simp
    | cons c cells ih =>
      obtain ⟨hc, hrest⟩ := List.forall_mem_cons.1 hs
      obtain ⟨hlane, hkey⟩ := hf c
      have hsame : Done.seen ⟨s, ws, none, false⟩ (f c) = ⟨s, ws, none, false⟩ := by
        simp [Done.seen, hkey, show s.poisoned c.2 = false from hc 0 (by decide)]
      simp only [List.map_cons, List.foldl_cons, hsame, hlane, hkey, homeWord_eq hc, ih hrest, List.append_assoc, List.singleton_append]
  exact hfold []

/-! ### Slices written (spec/10 R187) -/

theorem foldl_storeBytes_home {u : Team} (gs : List (LaneAt × List (Nat × Byte))) (s : State) (hloc : ∀ g ∈ gs, g.1.loc ≠ 0)
    (hs : ∀ g ∈ gs, ∀ c ∈ g.2, s.poisoned c.1 = false) :
    StoredHome s (gs.foldl (fun s (x, bs) => s.storeBytes u.core u.id.tid u.id.ctx u.id.gen x.va x.key x.loc bs) s) (gs.flatMap (·.2)) := by
  induction gs generalizing s with
  | nil => exact ⟨_, _, _, rfl⟩
  | cons g gs ih =>
    obtain ⟨hg, hrest⟩ := List.forall_mem_cons.1 hs
    have hstored := State.storeBytes_home (key := g.1.key) (hloc g List.mem_cons_self) hg u.core u.id.tid u.id.ctx u.id.gen g.1.va
    obtain ⟨-, -, -, -, hpoison, hlinks⟩ := hstored.keeps
    exact hstored.append (ih _ (fun h hm => hloc h (List.mem_cons_of_mem g hm)) fun h hm c hc =>
      (State.poisoned_eq hpoison hlinks c.1).trans (hrest h hm c hc))

/-- A store to other spaces than device memory whose bytes are sound lays the bytes of its lanes, in order, over what is there, wherever the lanes
of one sector alone cover them. -/
theorem storeEffect_home {s : State} {u : Team} {f : Team → LaneAt → List Byte} {xs : List LaneAt} (hloc : ∀ x ∈ xs, x.loc ≠ 0)
    (hs : ∀ x ∈ xs, ∀ c ∈ laneBytes (f u) x, s.poisoned c.1 = false) (hsorted : (xs.map (·.lane)).Pairwise (· < ·))
    (hwidth : ∀ x ∈ xs, x.lane < u.width) (op : Nat) :
    ∃ t bs, StoredHome s t bs ∧ (∀ c ∈ bs, ∃ x ∈ xs, c ∈ laneBytes (f u) x) ∧
      (∀ k sec, (∀ x ∈ xs, ∀ c ∈ laneBytes (f u) x, c.1 = k → sectorOf x.key = sec) → lastAt bs k = lastAt (xs.flatMap (laneBytes (f u))) k) ∧
      storeEffect f u xs op s = ⟨t, [], none, false⟩ := by
  obtain ⟨hlanes, heach, hlast⟩ := gatherPasses_gathered (f u) (passes xs u.id.m)
  rw [passes_flatten hsorted hwidth] at hlanes heach hlast
  have hstored := foldl_storeBytes_home (u := u) ((passes xs u.id.m).flatMap (gatherPass (f u))) s (fun g hg => hloc g.1 (hlanes g hg))
    (heach (fun _ c => s.poisoned c.1 = false) hs)
  rw [foldl_flatMap] at hstored
  refine ⟨_, _, hstored, fun c hc => ?_, hlast, rfl⟩
  obtain ⟨g, hg, hcg⟩ := List.mem_flatMap.1 hc
  exact heach (fun _ c => ∃ x ∈ xs, c ∈ laneBytes (f u) x) (fun x hx c hc => ⟨x, hx, hc⟩) g hg c hcg

/-- Where the last of the lanes that cover a key is known, its byte is the one that is left. -/
theorem lastAt_of_last {f : LaneAt → List Byte} {xs : List LaneAt} (hsorted : (xs.map (·.lane)).Pairwise (· < ·)) {x : LaneAt} (hx : x ∈ xs)
    {k : Nat} (h : ∀ y ∈ xs, x.lane < y.lane → ∀ c ∈ laneBytes f y, c.1 ≠ k) {b : Byte} (hb : lastAt (laneBytes f x) k = some b) :
    lastAt (xs.flatMap (laneBytes f)) k = some b := by
  obtain ⟨pre, post, rfl⟩ := List.append_of_mem hx
  have hpost : lastAt (post.flatMap (laneBytes f)) k = none := lastAt_eq_none fun c hc => by
    obtain ⟨y, hy, hcy⟩ := List.mem_flatMap.1 hc
    have hlt : x.lane < y.lane := by
      rw [List.pairwise_map, List.pairwise_append, List.pairwise_cons] at hsorted
      exact hsorted.2.1.1 y hy
    exact h y (List.mem_append_right _ (List.mem_cons_of_mem x hy)) hlt c hcy
  rw [List.flatMap_append, List.flatMap_cons, lastAt_append, lastAt_append, hpost, hb]
  rfl

/-- Four bytes of a word are read back as the word. -/
theorem homeWord_of_bytes {s : State} {key : Nat} {w : W32} (h : ∀ i < 4, s.homeByte (key + i) = BitVec.ofNat 8 (w.toNat / 256 ^ i)) :
    homeWord s key 4 = w.toNat := by
  have hw := w.isLt
  have h0 := h 0 (by decide)
  have h1 := h 1 (by decide)
  have h2 := h 2 (by decide)
  have h3 := h 3 (by decide)
  simp only [homeWord, List.range_succ, List.range_zero, List.nil_append, List.map_cons, List.map_nil, List.cons_append, leNat, h0, h1,
    h2, h3, BitVec.toNat_ofNat]
  omega

theorem State.setMe_congr (s : State) {f g : Team → Team} (h : f s.me = g s.me) : s.setMe f = s.setMe g := by rw [State.setMe, State.setMe, h]

end Sys2Proof.Machine

namespace Sys2Proof.Claim
open Sys2Proof Sys2Proof.Machine

/-! ### Tile registers bound (spec/10 R185) -/

theorem RegsKept.setT (u : Team) (d : TReg) (x : W128) : RegsKept u (u.setT d x) [.t d.val] :=
  { RegsKept.refl u [.t d.val] with
    onT := fun r hr => u.setT_t_ne x fun e => hr (by simp [e]) }

theorem writesOnly_putT (s : State) (d : TReg) (x : W128) :
    ((s.setMe (·.setT d x)).advance.me.t d = x) ∧ WritesOnly s (s.setMe (·.setT d x)).advance s.me [.t d.val] :=
  ⟨by rw [State.advance_eq]; exact (Team.advance_t _ d).trans (Team.setT_t_self ..), writesOnly_advance s (RegsKept.setT s.me d x) rfl⟩

theorem tbndBind_binds (s : State) (d : TReg) (a : SReg) (hp : Passes s (.tbndBind d a)) : ∃ t, exec (.tbndBind d a) s = .next t ∧
    t.me.t d = BitVec.ofNat 128 ((s.me.s a).toNat + (s.me.s (Fin.ofNat 64 (a.val + 1))).toNat * 2 ^ 64) ∧ WritesOnly s t s.me [.t d.val] := by
  obtain ⟨-, -, -, hop, -⟩ := (s.check_none_iff _).1 hp
  have ha : a.val ≠ 63 := by
    have hbind : s.operandOk (.tbndBind d a) = (a != 63 && s.bindOk (BitVec.ofNat 128 (s.me.sNat (a.val + 1) * 2 ^ 64 + s.me.sNat a.val))) := rfl
    rw [hbind, Bool.and_eq_true, bne_iff_ne] at hop
    exact fun h => hop.1 (Fin.ext h)
  have hlt := a.isLt
  obtain ⟨ht, hw⟩ := writesOnly_putT s d (BitVec.ofNat 128 (s.me.sNat (a.val + 1) * 2 ^ 64 + s.me.sNat a.val))
  have hreads (r : VReg) : (Instr.tbndBind d a).reads.contains (.v r.val) = false := by
    show (sRange a 2).contains (.v r.val) = false
    simp [sRange]
  have hset : (s.setMe fun u => u.setT d (BitVec.ofNat 128 (u.sNat (a.val + 1) * 2 ^ 64 + u.sNat a.val))) =
      s.setMe (·.setT d (BitVec.ofNat 128 (s.me.sNat (a.val + 1) * 2 ^ 64 + s.me.sNat a.val))) := s.setMe_congr rfl
  have hexec := run_of_vReads_nil (fun s => (s.setMe fun u => u.setT d (BitVec.ofNat 128 (u.sNat (a.val + 1) * 2 ^ 64 + u.sNat a.val))).advance)
    hp hreads
  rw [hset] at hexec
  refine ⟨_, hexec, ht.trans ?_, hw⟩
  rw [Team.sNat_of_le _ (by omega), Team.sNat_of_le _ (by omega), Nat.add_comm, show Fin.ofNat 64 a.val = a from Fin.ext (Nat.mod_eq_of_lt hlt)]

theorem tbndUnbind_unbinds (s : State) (d : TReg) (hp : Passes s (.tbndUnbind d)) : ∃ t, exec (.tbndUnbind d) s = .next t ∧
    (t.me.t d).toNat = (s.me.t d).toNat / 16 * 16 ∧ WritesOnly s t s.me [.t d.val] := by
  obtain ⟨ht, hw⟩ := writesOnly_putT s d (s.me.t d &&& ~~~0xF#128)
  refine ⟨_, run_of_vReads_nil (fun s => (s.setMe fun u => u.setT d (u.t d &&& ~~~0xF#128)).advance) hp fun _ => rfl, ?_, hw⟩
  have hand : s.me.t d &&& ~~~0xF#128 = (s.me.t d >>> 4) <<< 4 := by
    refine BitVec.eq_of_getLsbD_eq fun j hj => ?_
    have hlow : (0xF#128).getLsbD j = decide (j < 4) := by
      rw [BitVec.getLsbD_ofNat]
      show (decide (j < 128) && Nat.testBit (2 ^ 4 - 1) j) = _
      rw [Nat.testBit_two_pow_sub_one]
      simp [hj]
    rw [BitVec.getLsbD_and, BitVec.getLsbD_not, hlow, BitVec.getLsbD_shiftLeft, BitVec.getLsbD_ushiftRight]
    by_cases h4 : j < 4
    · simp [h4]
    · simp [h4, hj, Nat.add_sub_cancel' (Nat.not_lt.1 h4)]
  refine (congrArg BitVec.toNat (ht.trans hand)).trans ?_
  have hx := (s.me.t d).isLt
  rw [BitVec.toNat_shiftLeft, BitVec.toNat_ushiftRight, Nat.shiftLeft_eq, Nat.shiftRight_eq_div_pow]
  omega

theorem tbndQuery_queries (s : State) (d : SReg) (r : TReg) (h : Bool) (hp : Passes s (.tbndQuery d r h)) :
    ∃ t, exec (.tbndQuery d r h) s = .next t ∧ t.me.s d = BitVec.ofNat 64 ((s.me.t r).toNat / (if h then 2 ^ 64 else 1)) ∧
      WritesOnly s t s.me [.s d.val] := by
  refine ⟨_, run_of_vReads_nil (fun s => s.putS d ((s.me.t r).extractLsb' (if h then 64 else 0) 64)) hp fun _ => rfl, (s.putS_s d _).trans ?_,
    writesOnly_putS s s.me d _⟩
  apply BitVec.eq_of_toNat_eq
  cases h <;> simp [BitVec.extractLsb'_toNat, Nat.shiftRight_eq_div_pow]

/-! ### Slices (spec/10 R186, R187) -/

section
variable {s : State} {d : VReg} {r : TReg} {col : Bool} {i : BitVec 9} {g : Guard} {cells : List (Nat × Nat)}

theorem tsl_loads (hp : Passes s (.tsl d r col i g)) {u : Team} (hu : u = ready s (.tsl d r col i g))
    (hc : cells = sliceCells s u (u.t r) col i.toNat (u.eff g)) (h : CanSlice s u (.tsl d r col i g) r (u.eff g) cells) :
    ∃ t, exec (.tsl d r col i g) s = .next t ∧
      (∃ p ∈ t.me.flow.ops, p.id = s.nextId ∧ p.cls = .ld ∧ p.ready = true ∧ p.done = false ∧ p.pv = [d] ∧
        p.writes = cells.map fun x => .v d x.1 (BitVec.ofNat 32 (homeWord s x.2 4))) ∧
      t.me.regs.pendV.getLsbD d.val = true ∧ t.me.tag d = BitVec.ofNat 4 (State.windowTag { s with me := u } (u.t r)) ∧
      t.me.regs.v = u.regs.v ∧ t.me.regs.s = u.regs.s ∧ (t.me.ctl.pc, t.me.ctl.word) = nextPos u ∧ CtlKept u t.me ∧
      SelfKept u t.me ∧ t.mem = s.mem ∧ t.dirty = s.dirty := by
  obtain ⟨hord, hstall⟩ := heldBack_cells rfl rfl h.free
  obtain ⟨t, ht, hissues⟩ := State.issueLanes (s := { s with me := u }) h.unfenced hord hstall .ld [d]
    (BitVec.ofNat 4 (State.windowTag { s with me := u } (u.t r))) (tslEffect d)
  have hsame : t.me = u.setTags [d] (BitVec.ofNat 4 (State.windowTag { s with me := u } (u.t r))) ∧ t.mem = s.mem ∧ t.dirty = s.dirty ∧
      t.poison = s.poison ∧ t.links = s.links := by
    subst ht
    exact ⟨rfl, rfl, rfl, rfl, rfl⟩
  obtain ⟨hme, hmem, hdirty, hpoison, hlinks⟩ := hsame
  have heff := tslEffect_reads (s := t) (u := u.setTags [d] (BitVec.ofNat 4 (State.windowTag { s with me := u } (u.t r)))) (cells := cells)
    (fun c hm b hb => (State.poisoned_eq hpoison hlinks _).trans (h.sound c hm b hb)) (f := cellLane s u) (fun _ => ⟨rfl, rfl⟩) d s.nextId
  obtain ⟨me, he, ⟨p, hop, hid, hcls, hready, hdone, hpv, -, hwrites⟩, hregs, hpend, htags, -, hpos, hctl, hself⟩ := hissues _ heff rfl rfl hme
  have hexec : exec (.tsl d r col i g) s = .next (State.slice { s with me := u } (.tsl d r col i g) .ld r col i.toNat [d]
      (BitVec.ofNat 4 (State.windowTag { s with me := u } (u.t r))) (tslEffect d)) := by
    rw [hu]
    exact run_of_check_none (fun s => s.slice (.tsl d r col i g) .ld r col i.toNat [d] (BitVec.ofNat 4 (s.windowTag (s.me.t r))) (tslEffect d)) hp
  refine ⟨_, hexec.trans (congrArg _ ((State.slice_eq rfl h .ld col i.toNat hc _ _ _).trans he)),
    ⟨p, hop, hid, hcls, hready, hdone, hpv, hwrites.trans ?_⟩, ?_, htags d List.mem_cons_self, by rw [hregs], by rw [hregs], hpos, hctl, hself,
    hmem, hdirty⟩
  · refine List.map_congr_left fun c _ => ?_
    simp only [homeWord, State.homeByte, hmem]
  · rw [hpend]
    simp

theorem tss_stores (hp : Passes s (.tss d r col i g)) {u : Team} (hu : u = ready s (.tss d r col i g))
    (hc : cells = sliceCells s u (u.t r) col i.toNat (u.eff g)) (h : CanSlice s u (.tss d r col i g) r (u.eff g) cells)
    (hw : Memory.wf s.mem = true) :
    ∃ t, exec (.tss d r col i g) s = .next t ∧
      (∀ x ∈ cells, (∀ y ∈ cells, y.2 = x.2 → y.1 ≤ x.1) → (∀ y ∈ cells, y.2 = x.2 ∨ y.2 + 4 ≤ x.2 ∨ x.2 + 4 ≤ y.2) →
        homeWord t x.2 4 = (lane u d x.1).toNat) ∧
      (∀ k, (∀ x ∈ cells, k < x.2 ∨ x.2 + 4 ≤ k) → t.homeByte k = s.homeByte k) ∧ t.dirty = s.dirty ∧ t.teams = s.teams ∧
      RegsKept u t.me [] ∧ (t.me.ctl.pc, t.me.ctl.word) = nextPos u ∧ CtlKept u t.me ∧ SelfKept u t.me := by
  obtain ⟨hord, hstall⟩ := heldBack_cells rfl rfl h.free
  obtain ⟨t, ht, hissues⟩ := State.issueLanes (s := { s with me := u }) h.unfenced hord hstall .st [] 0 (tssEffect d)
  have hsame : t.me = u ∧ t.mem = s.mem ∧ t.dirty = s.dirty ∧ t.teams = s.teams ∧ t.poison = s.poison ∧ t.links = s.links := by
    subst ht
    exact ⟨rfl, rfl, rfl, rfl, rfl, rfl⟩
  obtain ⟨hme, hmem, hdirty, hteams, hpoison, hlinks⟩ := hsame
  obtain ⟨hsorted, hwidth⟩ := sliceCells_sorted s u (u.t r) col i.toNat (u.eff g)
  rw [← hc] at hsorted hwidth
  have hbytes {x : LaneAt} (hx : x ∈ cells.map (cellLane s u)) {c : Nat × Byte} (hcx : c ∈ laneBytes (fun x => leBytes 4 ((u.v d).getD x.lane 0).toNat) x) :
      x.key ≤ c.1 ∧ c.1 < x.key + 4 := by
    have := key_of_mem_keyed hcx
    rwa [length_leBytes] at this
  have hlanes : ((cells.map (cellLane s u)).map (·.lane)).Pairwise (· < ·) := by
    rw [List.map_map]
    exact hsorted
  obtain ⟨t', bs, ht', hin, hlast, heff⟩ := storeEffect_home (s := t) (u := u) (f := fun t x => leBytes 4 ((t.v d).getD x.lane 0).toNat)
    (xs := cells.map (cellLane s u)) (fun x hx => by
      obtain ⟨c, -, rfl⟩ := List.mem_map.1 hx
      exact Nat.succ_ne_zero 2)
    (fun x hx c hcx => by
      obtain ⟨hlo, hhi⟩ := hbytes hx hcx
      obtain ⟨y, hy, rfl⟩ := List.mem_map.1 hx
      have hsound := h.sound y hy (c.1 - y.2) (by simp only [cellLane] at hlo hhi; omega)
      rw [show y.2 + (c.1 - y.2) = c.1 from Nat.add_sub_cancel' hlo] at hsound
      exact (State.poisoned_eq hpoison hlinks c.1).trans hsound)
    hlanes (fun x hx => by
      obtain ⟨c, hm, rfl⟩ := List.mem_map.1 hx
      exact hwidth c hm) s.nextId
  obtain ⟨hme', -, hdirty', hteams', -⟩ := ht'.keeps
  obtain ⟨me, he, -, -, -, -, hkept, hpos, hctl, hself⟩ := hissues _ heff rfl rfl (hme'.trans hme)
  have hexec : exec (.tss d r col i g) s = .next (State.slice { s with me := u } (.tss d r col i g) .st r col i.toNat [] 0 (tssEffect d)) := by
    rw [hu]
    exact run_of_check_none (fun s => s.slice (.tss d r col i g) .st r col i.toNat [] 0 (tssEffect d)) hp
  have hwt : Memory.wf t.mem = true := by rw [hmem]; exact hw
  refine ⟨_, hexec.trans (congrArg _ ((State.slice_eq rfl h .st col i.toNat hc _ _ _).trans he)), fun x hx hhigh hover => ?_, fun k hk => ?_,
    hdirty'.trans hdirty, hteams'.trans hteams, (RegsKept.refl _ []).of_regs (hkept rfl), hpos, hctl, hself⟩
  · refine homeWord_of_bytes (s := t') fun j hj => ?_
    have hsame {y : LaneAt} (hy : y ∈ cells.map (cellLane s u)) {c : Nat × Byte}
        (hcy : c ∈ laneBytes (fun x => leBytes 4 ((u.v d).getD x.lane 0).toNat) y) (hck : c.1 = x.2 + j) : y.key = x.2 ∧ y.lane ≤ x.1 := by
      obtain ⟨hlo, hhi⟩ := hbytes hy hcy
      obtain ⟨z, hz, rfl⟩ := List.mem_map.1 hy
      have hkey : z.2 = x.2 := by
        rcases hover z hz with he | he | he
        · exact he
        · simp only [cellLane] at hlo hhi; omega
        · simp only [cellLane] at hlo hhi; omega
      exact ⟨hkey, hhigh z hz hkey⟩
    have hword : lastAt (laneBytes (fun x => leBytes 4 ((u.v d).getD x.lane 0).toNat) (cellLane s u x)) (x.2 + j) =
        some (BitVec.ofNat 8 ((lane u d x.1).toNat / 256 ^ j)) := by
      refine (lastAt_word x.2 4 _ (x.2 + j)).trans ((if_pos ⟨by omega, by omega⟩).trans ?_)
      rw [Nat.add_sub_cancel_left]
      rfl
    rw [ht'.homeByte hwt, hlast (x.2 + j) (sectorOf x.2) fun y hy c hcy hck => by rw [(hsame hy hcy hck).1],
      lastAt_of_last hlanes (List.mem_map_of_mem hx) (fun y hy hlt c hcy hck => absurd (hsame hy hcy hck).2 (Nat.not_le.2 hlt)) hword]
    rfl
  · refine (ht'.homeByte hwt k).trans ?_
    rw [lastAt_eq_none fun c hcb hck => ?_, Option.getD_none, State.homeByte, hmem, State.homeByte]
    obtain ⟨y, hy, hcy⟩ := hin c hcb
    obtain ⟨hlo, hhi⟩ := hbytes hy hcy
    obtain ⟨z, hz, rfl⟩ := List.mem_map.1 hy
    have := hk z hz
    simp only [cellLane] at hlo hhi
    omega

end

/-- Settles O35: a tile register is written at once; a slice is performed as it issues, its lanes at the cells that the formula of R186 names. -/
theorem tileWordsBindAndMove : Obligations.TileWordsBindAndMove := by
  unfold Obligations.TileWordsBindAndMove
  refine ⟨⟨tbndBind_binds, tbndUnbind_unbinds, tbndQuery_queries⟩, fun s d r col i g u cells hp hu hc h => tsl_loads hp hu hc h,
    fun s d r col i g u cells hp hu hc h hw => tss_stores hp hu hc h hw⟩

end Sys2Proof.Claim
end

section
/-!
O28, first part: team-uniform accesses that are misaligned, fault, park or are held back (spec/10 R176).
-/
namespace Sys2Proof.Machine
open Sys2Proof Claim

/-! ### The words of team-uniform accesses -/

/-- A word of SLD, SST, SATM or SIG is a team-uniform access at its address. -/
theorem exec_of_uniformKind {s : State} {i : Instr} {va : W80} {n : Nat} {cls : OpClass} {k : Access} {ps : List SReg}
    (ha : uniformAddr s.me i = some (va, n)) (hk : uniformKind i = some (cls, k, ps)) (hp : Passes s i) :
    ∃ eff, exec i s = .next (s.uniformAcc i cls k va n ps eff) := by
  cases i with
  | sld d a r z i =>
    cases ha
    cases hk
    exact ⟨_, (exec_sld d a r z i s).trans (run_of_vReads_nil _ hp fun _ => rfl)⟩
  | sst d a r z i =>
    cases ha
    cases hk
    exact ⟨_, (exec_sst d a r z i s).trans (run_of_vReads_nil _ hp fun _ => rfl)⟩
  | sigSigadd d a b r =>
    cases ha
    cases hk
    exact ⟨_, run_of_vReads_nil (fun s => s.uniformAcc (.sigSigadd d a b r) .sg .atomic (s.me.a a) 8 [d] (sigaddEffect d b)) hp fun _ => rfl⟩
  | sigSigrd d a r =>
    cases ha
    cases hk
    exact ⟨_, run_of_vReads_nil (fun s => s.uniformAcc (.sigSigrd d a r) .sg .atomic (s.me.a a) 8 [d] (sigrdEffect (.sigSigrd d a r) d)) hp fun _ => rfl⟩
  | sigSigwait d a b r =>
    cases ha
    cases hk
    exact ⟨_, run_of_vReads_nil (fun s => s.uniformAcc (.sigSigwait d a b r) .sg .atomic (s.me.a a) 8 [d] (waitEffect (.sigSigwait d a b r) 0 d b))
      hp fun _ => rfl⟩
  | sigWatch d a b r =>
    cases ha
    cases hk
    exact ⟨_, run_of_vReads_nil (fun s => s.uniformAcc (.sigWatch d a b r) .sg .atomic (s.me.a a) 8 [d] (waitEffect (.sigWatch d a b r) 1 d b))
      hp fun _ => rfl⟩
  | satmAdd d a b r w | satmSub d a b r w | satmAnd d a b r w | satmOr d a b r w | satmXor d a b r w | satmMin d a b r w | satmMax d a b r w
  | satmMinn d a b r w | satmMaxn d a b r w | satmXchg d a b r w | satmCas d a b r w =>
    cases ha
    cases hk
    exact ⟨_, exec_of_satm (d := d) (a := a) (b := b) (r := r) (w := w) rfl hp⟩
  | _ => cases hk

/-- A word of SGRP with a lane in its execute mask is a team-uniform access. -/
theorem groupAccess_uniform {s : State} {i : Instr} (hp : Passes s i) (hv : ∀ r : VReg, i.reads.contains (.v r.val) = false) (he : s.me.em ≠ 0)
    (d : SReg) (a : AReg) (r : Ordering3) (n : Nat) (act : State → Nat → State) :
    ∃ go, groupAccess i d a r n act s = .next (s.uniform (s.me.a a) n go) := by
  exact ⟨_, (run_of_vReads_nil _ hp hv).trans (congrArg Host.Outcome.next (if_neg he))⟩

/-- The operands of a word of SGRP: its destination, its address register, its order, the bytes of its record. -/
def groupOperands : Instr → Option (SReg × AReg × Ordering3 × Nat)
  | .sgrpFork d a r => some (d, a, r, 512)
  | .sgrpArr d a _ r => some (d, a, r, 128)
  | .sgrpCan d a r => some (d, a, r, 128)
  | .sgrpWait d a r => some (d, a, r, 512)
  | .sgrpFree d a r => some (d, a, r, 128)
  | .sgrpInfo d a r => some (d, a, r, 512)
  | _ => none

/-- What a word of SGRP is: its address where its execute mask has a lane, and no v register that it reads. -/
theorem uniformAddr_of_group {u : Team} {i : Instr} {d : SReg} {a : AReg} {r : Ordering3} {n : Nat} (h : groupOperands i = some (d, a, r, n)) :
    (uniformAddr u i = if u.em = 0 then none else some (u.a a, n)) ∧ ∀ r : VReg, i.reads.contains (.v r.val) = false := by
  cases i with
  | sgrpFork | sgrpArr | sgrpCan | sgrpWait | sgrpFree | sgrpInfo =>
    cases h
    exact ⟨rfl, fun _ => rfl⟩
  | _ => cases h

theorem exec_of_group {s : State} {i : Instr} {d : SReg} {a : AReg} {r : Ordering3} {n : Nat} (h : groupOperands i = some (d, a, r, n)) :
    ∃ act, exec i s = groupAccess i d a r n act s := by
  cases i with
  | sgrpFork =>
    cases h
    show ∃ act, execSgrpFork _ _ _ s = groupAccess _ _ _ _ _ act s
    unfold execSgrpFork
    exact ⟨_, rfl⟩
  | sgrpArr =>
    cases h
    show ∃ act, execSgrpArr _ _ _ _ s = groupAccess _ _ _ _ _ act s
    unfold execSgrpArr
    exact ⟨_, rfl⟩
  | sgrpCan =>
    cases h
    show ∃ act, execSgrpCan _ _ _ s = groupAccess _ _ _ _ _ act s
    unfold execSgrpCan
    exact ⟨_, rfl⟩
  | sgrpWait =>
    cases h
    show ∃ act, execSgrpWait _ _ _ s = groupAccess _ _ _ _ _ act s
    unfold execSgrpWait
    exact ⟨_, rfl⟩
  | sgrpFree =>
    cases h
    show ∃ act, execSgrpFree _ _ _ s = groupAccess _ _ _ _ _ act s
    unfold execSgrpFree
    exact ⟨_, rfl⟩
  | sgrpInfo =>
    cases h
    show ∃ act, execSgrpInfo _ _ _ s = groupAccess _ _ _ _ _ act s
    unfold execSgrpInfo
    exact ⟨_, rfl⟩
  | _ => cases h

/-- A team-uniform access is a word of SLD, SST, SATM or SIG, or one of SGRP. -/
theorem uniform_cases {u : Team} {i : Instr} {x : W80 × Nat} (h : uniformAddr u i = some x) :
    (uniformKind i).isSome = true ∨ (groupOperands i).isSome = true := by
  cases i with
  | sgrpFork | sgrpArr | sgrpCan | sgrpWait | sgrpFree | sgrpInfo => exact .inr rfl
  | sld | sst | sigSigadd | sigSigrd | sigSigwait | sigWatch | satmAdd | satmSub | satmAnd | satmOr | satmXor | satmMin | satmMax | satmMinn | satmMaxn
  | satmXchg | satmCas => exact .inl rfl
  | _ => cases h

theorem exec_of_uniformAddr {s : State} {i : Instr} {va : W80} {n : Nat} (ha : uniformAddr s.me i = some (va, n)) (hp : Passes s i) :
    ∃ go, exec i s = .next (s.uniform va n go) := by
  rcases uniform_cases ha with hk | hg
  · obtain ⟨⟨cls, k, ps⟩, hk⟩ := Option.isSome_iff_exists.1 hk
    obtain ⟨eff, h⟩ := exec_of_uniformKind ha hk hp
    exact ⟨_, h⟩
  · obtain ⟨⟨d, a, r, m⟩, hg⟩ := Option.isSome_iff_exists.1 hg
    obtain ⟨haddr, hv⟩ := uniformAddr_of_group (u := s.me) hg
    obtain ⟨act, hact⟩ := exec_of_group (s := s) hg
    obtain ⟨he, hsome⟩ := Option.ite_none_left_eq_some.1 (haddr.symm.trans ha)
    cases hsome
    rw [hact]
    exact groupAccess_uniform hp hv he d a r n act

/-- A request to the host leaves the team in issue and the dirty sectors. -/
theorem State.merge_keeps (s : State) (die ctx gen page : Nat) (k : Access) (cause : Nat) (engine : Bool) :
    (s.merge die ctx gen page k cause engine).2.me = s.me ∧ (s.merge die ctx gen page k cause engine).2.dirty = s.dirty := by
  unfold State.merge
  split
  · exact ⟨rfl, rfl⟩
  · split
    · exact ⟨rfl, rfl⟩
    · obtain ⟨⟨_, _, _, _, _, he⟩, -⟩ := State.flushPrqN_keeps _ _
      dsimp only
      refine ⟨(congrArg (·.me) he).trans ?_, (congrArg (·.dirty) he).trans ?_⟩ <;> rfl

/-! ### Accesses that waited (spec/10 R176) -/

theorem State.writeBackOld_me (s : State) (d : Dirty) : (s.writeBackOld d).me = s.me := by
  unfold State.writeBackOld
  exact (State.homeStore_homeWork ..).me

theorem State.sendHome_me (s : State) (t : Team) (lanes : List LaneAt) : (s.sendHome t lanes).me = s.me :=
  foldl_keeps (P := fun u : State => u.me = s.me) (fun u d h => (u.writeBackOld_me d).trans h) _ rfl

section
variable {s : State} {op : Nat} {o : Op} {h : HeldAcc} (ho : s.me.flow.ops.find? (·.id == op) = some o) (hh : o.held = some h)
  (hf : s.me.flow.fences = [])
include ho hh hf

/-- An access that is still held back is left as it is. -/
theorem State.performHeld_held (hb : s.me.orderHeld h.instr o.acq o.rel op h.lanes = true ∨ s.stalled s.me h.lanes = true) :
    s.performHeld s.me.id.tid op = s := by
  unfold State.performHeld
  simp only [State.settleFences_of_nil hf, State.team?_me, ho, hh]
  exact if_pos (.inr hb)

/-- The operation of an access that has been performed, with its results. -/
def withResults (d : Done) (x : Op) : Op :=
  { x with ready := !d.waits, writes := x.writes ++ d.writes, acq := (if d.waits then x.acq else none), rel := none, held := none }

/-- An access of a placed team that nothing holds back any more is performed, and then sent home. -/
theorem State.performHeld_performed (hp : s.me.placed = true) (hord : s.me.orderHeld h.instr o.acq o.rel op h.lanes = false)
    (hstall : s.stalled s.me h.lanes = false) {d : Done} (hd : effectOf h.instr { s.me with regs := h.regs } h.lanes op s = d) :
    s.performHeld s.me.id.tid op = ((State.updTeam ((d.report { s.me with regs := h.regs }).sendHome { s.me with regs := h.regs } h.lanes) s.me.id.tid
      fun t => t.updFlow fun f => { f with ops := f.ops.map fun x => if x.id = op then withResults d x else x }).afterWait
        { s.me with regs := h.regs } h.instr).settleFences s.me.id.tid := by
  subst hd
  unfold State.performHeld
  simp only [State.settleFences_of_nil hf, State.team?_me, ho, hh]
  exact if_neg (by simp [hp, hord, hstall])

end

/-- The first operation of a number, after every operation of that number has been changed. -/
theorem find?_map_same {os : List Op} {op : Nat} {o : Op} {g : Op → Op} (hg : ∀ x, (g x).id = x.id) (h : os.find? (·.id == op) = some o) :
    (os.map fun x => if x.id = op then g x else x).find? (·.id == op) = some (g o) := by
  have hid : ((fun p : Op => p.id == op) ∘ fun x => if x.id = op then g x else x) = fun p => p.id == op := by
    funext x
    by_cases hx : x.id = op <;> simp [hx, hg]
  rw [List.find?_map, hid, h, Option.map_some, if_pos (by simpa using List.find?_some h)]

end Sys2Proof.Machine

namespace Sys2Proof.Claim
open Sys2Proof Sys2Proof.Machine

/-! ### Team-uniform accesses that are not made -/

theorem uniform_misaligned_traps (s : State) (i : Instr) (va : W80) (n : Nat) (ha : uniformAddr s.me i = some (va, n)) (hp : Passes s i)
    (hpark : s.me.flow.park = none) (hmis : va.toNat % n ≠ 0) : exec i s = .next (s.trapHere ⟨6, n, va, false, 0⟩) := by
  obtain ⟨go, h⟩ := exec_of_uniformAddr ha hp
  rw [h, State.uniform_misaligned s va n go hpark hmis]

section
variable {s s1 : State} {i : Instr} {va : W80} {n : Nat} {cls : OpClass} {k : Access} {ps : List SReg} (ha : uniformAddr s.me i = some (va, n))
  (hk : uniformKind i = some (cls, k, ps)) (hp : Passes s i) (hpark : s.me.flow.park = none) (halign : va.toNat % n = 0)
include ha hk hp hpark halign

theorem uniform_fault_traps (c e : Nat) (hr : s.teamReach s.me k va n = (.fault c e, s1)) : exec i s = .next (s1.trapHere ⟨c, e, va, false, 0⟩) := by
  obtain ⟨eff, h⟩ := exec_of_uniformKind ha hk hp
  rw [h, State.uniformAcc, State.uniform_go _ _ _ _ hpark halign, State.access_fault _ hr]

theorem uniform_host_parks (c : Nat) (hr : s.teamReach s.me k va n = (.host c, s1)) : ∃ t, exec i s = .next t ∧ t.me.regs = s.me.regs ∧
    t.me.ctl = s.me.ctl ∧ t.me.flow.ops = s.me.flow.ops ∧ t.dirty = s.dirty ∧
    ∃ p, t.me.flow.park = some p ∧ p.uniform = true ∧ p.waits.map (fun x => (x.1, x.2.1)) = [(0, va)] ∧ p.faults = [] := by
  obtain ⟨eff, h⟩ := exec_of_uniformKind ha hk hp
  rw [h, State.uniformAcc, State.uniform_go _ _ _ _ hpark halign, State.access_host _ hr]
  obtain ⟨hdirty, -, hme, -⟩ := (State.teamReach_kept hr).l1
  have hmerge := s1.merge_keeps (dieOf s1.me.cluster) s1.me.id.ctx s1.me.id.gen (va.toNat / 2 ^ 12) k c false
  refine ⟨_, rfl, ?_⟩
  unfold State.parkUniform
  dsimp only
  generalize s1.merge (dieOf s1.me.cluster) s1.me.id.ctx s1.me.id.gen (va.toNat / 2 ^ 12) k c false = m at hmerge ⊢
  obtain ⟨hmme, hmdirty⟩ := hmerge
  rw [State.setMe_me, hmme, hme]
  exact ⟨rfl, rfl, rfl, hmdirty.trans hdirty, _, rfl, rfl, rfl, rfl⟩

theorem uniform_held_issues (key loc : Nat) (hr : s.teamReach s.me k va n = (.ok key loc, s1)) (hf : s.me.flow.fences = [])
    (hrel : NothingToRelease s i loc) (hh : HeldBack s s.me i loc [⟨0, va, key, loc⟩]) :
    ∃ t dests, exec i s = .next t ∧
      t.me.flow.ops = s.me.flow.ops ++ [⟨s.nextId, cls, false, false, [], [], ps, dests, acqAt i loc, relAt i loc,
        some ⟨i, s.me.regs, [⟨0, va, key, loc⟩]⟩⟩] ∧
      t.mem = s.mem ∧ t.dirty = s.dirty ∧ t.clean = s.clean ∧ t.waits = s.waits ∧ t.me.regs.s = s.me.regs.s ∧
      (t.me.ctl.pc, t.me.ctl.word) = nextPos s.me ∧ CtlKept s.me t.me ∧ SelfKept s.me t.me := by
  obtain ⟨eff, h⟩ := exec_of_uniformKind ha hk hp
  obtain ⟨t, ht, he⟩ := State.uniformAcc_held hpark hf halign hr hrel hh cls ps eff
  obtain ⟨hme, hmem, hdirty, hclean, -⟩ := ht.keeps
  have hwaits : t.waits = s.waits := by
    obtain ⟨_, ⟨_, _, _, _, _, rfl⟩, rfl⟩ := ht
    rfl
  refine ⟨_, [destOf loc], h.trans (congrArg _ he), ?_, hmem, hdirty, hclean, hwaits, ?_, ?_, ?_, ?_⟩ <;> rw [State.advance_eq, State.setMe_me, hme]
  · rw [Team.advance_flow]
    rfl
  · rw [Team.advance_regs]
    rfl
  · exact Team.advance_pos _
  · exact Team.advance_ctl (s.me.addOp _)
  · exact ⟨Team.advance_id _, Team.advance_place _, Team.advance_sch _⟩

end

/-! ### Events of accesses that waited -/

theorem held_event_does_nothing (s : State) (op : Nat) (o : Op) (h : HeldAcc) (e : Instr) (ho : s.me.flow.ops.find? (·.id == op) = some o)
    (hh : o.held = some h) (hr : o.ready = false) (hf : s.me.flow.fences = [])
    (hb : s.me.orderHeld h.instr o.acq o.rel op h.lanes = true ∨ s.stalled s.me h.lanes = true)
    (he : e = .loadComplete s.me.id.tid op ∨ e = .storePerformed s.me.id.tid op ∨ e = .atomicPerformed s.me.id.tid op ∨
      e = .sgOperationPerformed s.me.id.tid op) : exec e s = .next s := by
  have hsame (cls : OpClass) : s.performed cls s.me.id.tid op = s := by
    simp only [State.performed, State.team?_me, ho, hh, Option.isSome_some, State.performHeld_held ho hh hf hb, Option.bind_some, hr,
      Bool.false_eq_true, if_false, ite_self]
  rcases he with rfl | rfl | rfl | rfl
  · exact congrArg Host.Outcome.next (hsame .ld)
  · exact congrArg Host.Outcome.next (hsame .st)
  · exact congrArg Host.Outcome.next (hsame .at_)
  · exact congrArg Host.Outcome.next (hsame .sg)

theorem held_load_completes (s : State) (op : Nat) (o : Op) (q : Regs) (d : SReg) (a : AReg) (r : Ordering3) (z : SSize) (i : BitVec 9) (x : LaneAt)
    (ho : s.me.flow.ops.find? (·.id == op) = some o) (hh : o.held = some ⟨.sld d a r z i, q, [x]⟩) (_ : o.ready = false)
    (hdone : o.done = false) (hcls : o.cls = .ld) (hwrites : o.writes = []) (hplaced : s.me.placed = true) (hf : s.me.flow.fences = [])
    (hord : s.me.orderHeld (.sld d a r z i) o.acq o.rel op [x] = false) (hstall : s.stalled s.me [x] = false) (hkey : x.key % z.bytes = 0)
    (h3 : x.loc = 3 → s.dirtyAt s.me.core x.key = none) (hu : Undisturbed s x.key x.va) :
    ∃ t, exec (.loadComplete s.me.id.tid op) s = .next t ∧ t.me.s d = BitVec.ofNat 64 (coreNat s s.me.core x.key z.bytes) := by
  obtain ⟨t1, hwork, heff⟩ := sldEffect_undisturbed hu h3 (SSize.key_fits hkey) (.sld d a r z i) d (u := { s.me with regs := q }) rfl rfl op
  generalize BitVec.ofNat 64 (coreNat s s.me.core x.key z.bytes) = y at heff ⊢
  obtain ⟨hme1, -⟩ := hwork.keeps
  have hsend := (t1.sendHome_me { s.me with regs := q } [x]).trans hme1
  have hperf : s.performHeld s.me.id.tid op = (State.updTeam (t1.sendHome { s.me with regs := q } [x]) s.me.id.tid fun t => t.updFlow fun f => { f with
      ops := f.ops.map fun p => if p.id = op then withResults ⟨t1, [.s d y], none, false⟩ p else p }).settleFences s.me.id.tid :=
    State.performHeld_performed ho hh hf hplaced hord hstall heff
  generalize ht2 : State.updTeam (t1.sendHome { s.me with regs := q } [x]) s.me.id.tid _ = t2 at hperf
  have hme2 : t2.me = s.me.updFlow fun f => { f with
      ops := f.ops.map fun p => if p.id = op then withResults ⟨t1, [.s d y], none, false⟩ p else p } := by
    rw [← ht2, State.updTeam_me, hsend, if_pos rfl]
  have htid : t2.me.id.tid = s.me.id.tid := by rw [hme2]; rfl
  have hsettle : t2.settleFences s.me.id.tid = t2 := htid ▸ State.settleFences_of_nil (by rw [hme2]; exact hf)
  have hfind : t2.me.flow.ops.find? (·.id == op) =
      some (fixed [.s d y] { o with acq := none, rel := none }) := by
    rw [hme2]
    refine (find?_map_same (g := withResults ⟨t1, [.s d y], none, false⟩) (fun _ => rfl) ho).trans (congrArg some ?_)
    rw [withResults, hwrites]
    rfl
  have hexec : exec (.loadComplete s.me.id.tid op) s = .next (t2.finishOp s.me.id.tid op) := by
    have hteam : t2.team? s.me.id.tid = some t2.me := htid ▸ t2.team?_me
    show Host.Outcome.next (s.performed .ld s.me.id.tid op) = _
    rw [hsettle] at hperf
    simp only [State.performed, State.team?_me, ho, hh, hcls, hdone, ne_eq, not_true, Bool.false_eq_true, or_self, if_false, Option.isSome_some, if_true,
      hperf, hteam, Option.bind_some, hfind, fixed]
  have hfin := t2.finishOp_me op
  rw [htid] at hfin
  obtain ⟨hregs, -⟩ := hfin
  obtain ⟨hs, -⟩ := Team.complete_of_fixed hfind hdone
  refine ⟨_, hexec, ?_⟩
  rw [Team.s, hregs]
  exact hs

end Sys2Proof.Claim
end

section
/-!
O28, second part: vector accesses with an empty mask, with misaligned lanes, with lanes that the host must serve or that fault (spec/10 R176, R177;
spec/22 R317).
-/
namespace Sys2Proof.Machine
open Sys2Proof Claim

/-! ### Accesses leave their team's registers, control state and operations -/

/-- The registers, the control state and the operations of the team in issue are as they were. -/
structure TeamKept (s t : State) : Prop where
  regs : t.me.regs = s.me.regs
  ctl  : t.me.ctl = s.me.ctl
  ops  : t.me.flow.ops = s.me.flow.ops

theorem TeamKept.of_me {s t : State} (h : t.me = s.me) : TeamKept s t := ⟨by rw [h], by rw [h], by rw [h]⟩

theorem TeamKept.refl (s : State) : TeamKept s s := ⟨rfl, rfl, rfl⟩

theorem TeamKept.trans {s t u : State} (h : TeamKept s t) (h' : TeamKept t u) : TeamKept s u :=
  ⟨h'.regs.trans h.regs, h'.ctl.trans h.ctl, h'.ops.trans h.ops⟩

theorem LossWork.me {s t : State} (h : LossWork s t) : t.me = s.me := by
  obtain ⟨_, h⟩ := h
  exact h.me

theorem FetchKept.me {s t : State} (h : FetchKept s t) : t.me = s.me := h.l1.2.2.1

theorem State.pin_teamKept (s : State) (d : Dirty) (byRel : Bool) : TeamKept s (s.pin d byRel) := by
  unfold State.pin
  dsimp only
  constructor
  all_goals
    rw [State.updTeam_me]
    split <;> rfl

theorem State.writeBack_teamKept (s : State) (d : Dirty) (byRel : Bool) : TeamKept s (s.writeBack d byRel).1 := by
  unfold State.writeBack
  split
  · exact .of_me (s.writeBackOld_me d)
  · have hk := s.translate_fetchKept (d.core / 8) d.ctx d.gen .store d.va.toNat
    split
    · next h =>
      rw [h] at hk
      exact .of_me ((State.homeStore_homeWork ..).me.trans hk.me)
    · next h =>
      rw [h] at hk
      dsimp only
      split
      · exact (TeamKept.of_me hk.me).trans (State.pin_teamKept _ _ _)
      · exact .of_me ((State.lose_lossWork _ d).me.trans hk.me)

theorem State.writeBackAll_teamKept (ds : List Dirty) (s : State) (byRel : Bool) : TeamKept s (s.writeBackAll byRel ds).1 := by
  induction ds generalizing s with
  | nil => exact .refl s
  | cons d ds ih => exact (s.writeBack_teamKept d byRel).trans (ih _)

theorem State.touch_teamKept (s : State) (core tid key : Nat) : TeamKept s (s.touch core tid key) := by
  unfold State.touch
  split
  · split
    · exact .refl s
    · exact s.writeBack_teamKept _ _
  · exact .refl s

theorem State.retag_teamKept (s : State) (core key ctx gen : Nat) (va : W80) : TeamKept s (s.retag core key ctx gen va) := by
  unfold State.retag
  exact (s.writeBackAll_teamKept _ false).trans (.of_me rfl)

theorem State.fillSector_me (s : State) (core ctx gen : Nat) (va : W80) (sec : Nat) : (s.fillSector core ctx gen va sec).2.me = s.me := by
  unfold State.fillSector
  dsimp only
  split
  · split
    · rfl
    · split <;> rfl
  · rfl

theorem State.loadSector_teamKept (s : State) (core tid ctx gen : Nat) (va : W80) (key loc : Nat) :
    TeamKept s (s.loadSector core tid ctx gen va key loc).2 := by
  unfold State.loadSector
  dsimp only
  split
  · exact .refl s
  · have hprep := (s.touch_teamKept core tid key).trans (State.retag_teamKept _ core key ctx gen va)
    split
    · split
      · exact hprep.trans (.of_me (State.fillSector_me ..))
      · exact hprep
    · exact hprep.trans (.of_me (State.fillSector_me ..))

theorem State.storeBytes_teamKept (s : State) (core tid ctx gen : Nat) (va : W80) (key loc : Nat) (new : List (Nat × Byte)) :
    TeamKept s (s.storeBytes core tid ctx gen va key loc new) := by
  unfold State.storeBytes
  split
  · exact .of_me (State.homeStore_homeWork ..).me
  · split
    · have hprep := (s.touch_teamKept core tid key).trans (State.retag_teamKept _ core key ctx gen va)
      dsimp only
      split
      · split
        · exact hprep.trans (.of_me rfl)
        · exact hprep.trans (.of_me (State.homeStore_homeWork ..).me)
      · exact hprep.trans (.of_me rfl)
    · exact .of_me (State.homeStore_homeWork ..).me

theorem HomeWork.teamKept {s t : State} (h : HomeWork s t) : TeamKept s t := .of_me h.me

theorem State.atomicAt_teamKept (s : State) (core tid ctx gen : Nat) (va : W80) (key loc n : Nat) (f : Nat → Nat) :
    TeamKept s (s.atomicAt core tid ctx gen va key loc n f).2 := by
  unfold State.atomicAt
  split
  · exact (State.homeAtomic_homeWork ..).teamKept
  · dsimp only
    refine TeamKept.trans ?_ (State.homeAtomic_homeWork ..).teamKept
    split
    · split
      · exact .of_me rfl
      · exact (s.writeBack_teamKept _ _).trans (.of_me rfl)
    · exact .of_me rfl

/-- An effect leaves the registers, the control state and the operations of the team in issue. -/
def Effect.TeamKept (eff : Effect) : Prop := ∀ u xs op s, Machine.TeamKept s (eff u xs op s).s

theorem vldEffect_teamKept (d : VReg) (z : LdSize) : (vldEffect d z).TeamKept := by
  intro u xs op s
  have hlane (p : List LaneAt) (a : Done × List (Nat × List Byte)) (ha : TeamKept s a.1.s) : TeamKept s (p.foldl (ldLane u d z) a).1.s := by
    refine foldl_keeps (P := fun a : Done × List (Nat × List Byte) => TeamKept s a.1.s) (fun a x ha => ?_) p ha
    have hseen : (a.1.seen x).s = a.1.s := rfl
    unfold ldLane
    dsimp only
    split
    · exact ha
    · exact ha.trans (hseen ▸ State.loadSector_teamKept ..)
  exact foldl_keeps (P := fun a : Done => TeamKept s a.s) (fun a p ha => hlane p (a, []) ha) (passes xs u.id.m) (.refl s)

theorem vstEffect_teamKept (d : VReg) (z : StSize) : (vstEffect d z).TeamKept := fun u xs _ s =>
  foldl_keeps (P := TeamKept s) (fun _ _ ht => foldl_keeps (P := TeamKept s) (fun _ _ ht => ht.trans (State.storeBytes_teamKept ..)) _ ht)
    (passes xs u.id.m) (.refl s)

theorem vatmEffect_teamKept (i : Instr) (d : VReg) : (vatmEffect i d).TeamKept := fun _ xs _ s =>
  foldl_keeps (P := fun a : Done => TeamKept s a.s) (fun _ _ ha => ha.trans (State.atomicAt_teamKept ..)) xs (.refl s)

theorem Done.report_teamKept {s : State} {d : Done} (h : TeamKept s d.s) (u : Team) : TeamKept s (d.report u) := by
  unfold Done.report
  split
  · exact h.trans (State.poisonReport_homeWork ..).teamKept
  · exact h

/-! ### The vector words (spec/10 R177, R178) -/

/-- VLD, VST and VATM are vector accesses of the team that their reconstructions leave, with an effect that leaves the team. -/
theorem exec_of_vecAcc {s : State} {i : Instr} {v : VecAcc} (h : vecAcc i = some v) (hp : Passes s i) :
    ∃ cls eff, exec i s = .next (State.vectorAccess { s with me := ready s i } i cls v.k v.n (laneAddress (ready s i) v.a v.o v.sc) v.ds 0 eff) ∧
      i.guard? = some v.g ∧ i.acqScope = none ∧ i.relScope = none ∧ Effect.TeamKept eff ∧
      ∀ d a o g sc z, i = .vld d a o g sc z → eff = vldEffect d z := by
  by_cases hatm : (vatmOperands i).isSome = true
  · obtain ⟨⟨d, a, o, g⟩, hops⟩ := Option.isSome_iff_exists.1 hatm
    obtain ⟨hvec, hguard, hacq, hrel⟩ := vecAcc_of_vatm hops
    obtain rfl := Option.some.inj (h.symm.trans hvec)
    refine ⟨_, _, exec_of_vatm hops hp, hguard, hacq, hrel, vatmEffect_teamKept i d, ?_⟩
    rintro d a o g sc z rfl
    cases hops
  · cases i with
    | vld d a o g sc z =>
      cases h
      refine ⟨_, _, exec_vld hp, rfl, rfl, rfl, vldEffect_teamKept d z, ?_⟩
      rintro d a o g sc z ⟨⟩
      rfl
    | vst d a o g sc z =>
      cases h
      refine ⟨_, _, exec_vst hp, rfl, rfl, rfl, vstEffect_teamKept d z, ?_⟩
      rintro d a o g sc z ⟨⟩
    | vatmAddI | vatmAddF | vatmMinI | vatmMaxI | vatmMaxF | vatmAnd | vatmOr | vatmXor | vatmXchg | vatmCas => exact absurd rfl hatm
    | _ => cases h

/-! ### The lanes that fault (spec/22 R317) -/

/-- The faulting lane that comes first is the lowest. -/
theorem firstFault_lowest {xs : List (Nat × FaultInfo)} (h : xs ≠ []) : ∃ y, firstFault xs = some y ∧ y ∈ xs ∧ ∀ z ∈ xs, y.1 ≤ z.1 := by
  induction xs with
  | nil => exact absurd rfl h
  | cons x xs ih =>
    unfold firstFault
    by_cases hxs : xs = []
    · subst hxs
      exact ⟨x, rfl, List.mem_cons_self, fun z hz => by rw [List.mem_singleton.1 hz]⟩
    · obtain ⟨y, hy, hmem, hlow⟩ := ih hxs
      rw [hy]
      dsimp only
      by_cases hlt : y.1 < x.1
      · exact ⟨y, if_pos hlt, List.mem_cons_of_mem x hmem, List.forall_mem_cons.2 ⟨hlt.le, hlow⟩⟩
      · exact ⟨x, if_neg hlt, List.mem_cons_self, List.forall_mem_cons.2 ⟨le_rfl, fun z hz => (Nat.not_lt.1 hlt).trans (hlow z hz)⟩⟩

theorem getLsbD_maskOf (ls : List Nat) {k : Nat} (hk : k < 1024) : (maskOf ls).getLsbD k = ls.any (· == k) := by
  have hfold (m : Mask) : (ls.foldl (fun m l => m ||| (1#1024 <<< l)) m).getLsbD k = (m.getLsbD k || ls.any (· == k)) := by
    induction ls generalizing m with
    | nil => simp
    | cons l ls ih =>
      have hbit : (1#1024 <<< l).getLsbD k = (l == k) := by
        rw [BitVec.getLsbD_shiftLeft, BitVec.getLsbD_one]
        rcases lt_trichotomy k l with hlt | rfl | hgt
        · simp [hlt, hlt.ne']
        · simp [hk]
        · have : k - l ≠ 0 := by omega
          simp [this, hgt.ne, Nat.not_lt.2 hgt.le]
      rw [List.foldl_cons, ih, BitVec.getLsbD_or, hbit, List.any_cons, Bool.or_assoc]
  rw [maskOf, hfold]
  simp

/-! ### The end of a try (spec/22 R317) -/

section
variable {s : State} {i : Instr} {lanes : List LaneAt} {ws : List RegWrite} {eff : Effect} (hf : s.me.flow.fences = [])
include hf

theorem State.tryLanes_held (h : s.me.orderHeld i none none s.nextId lanes = true ∨ s.stalled s.me lanes = true) :
    s.tryLanes i lanes ws eff = (s, lanes, ws) := by
  unfold State.tryLanes
  simp only [State.settleFences_of_nil hf]
  exact if_pos h

theorem State.tryLanes_now (h : ¬ (s.me.orderHeld i none none s.nextId lanes = true ∨ s.stalled s.me lanes = true)) :
    s.tryLanes i lanes ws eff = ((eff s.me lanes s.nextId s).report s.me, [], ws ++ (eff s.me lanes s.nextId s).writes) := by
  unfold State.tryLanes
  simp only [State.settleFences_of_nil hf]
  exact if_neg h

/-- A try leaves the registers, the control state and the operations of its team. -/
theorem State.tryLanes_teamKept (he : eff.TeamKept) : TeamKept s (s.tryLanes i lanes ws eff).1 := by
  by_cases h : s.me.orderHeld i none none s.nextId lanes = true ∨ s.stalled s.me lanes = true
  · rw [State.tryLanes_held hf h]
    exact .refl s
  · rw [State.tryLanes_now hf h]
    exact Done.report_teamKept (he _ _ _ _) _

end

/-- An access issued leaves the control state of its team. -/
theorem State.issueAcc_ctl {s : State} (hf : s.me.flow.fences = []) (i : Instr) (cls : OpClass) (acq rel : Option Scope) (lanes : List LaneAt)
    (ws : List RegWrite) (pv : List VReg) (ps : List SReg) {eff : Effect} (he : eff.TeamKept) :
    (s.issueAcc i cls acq rel lanes ws pv ps eff).me.ctl = s.me.ctl := by
  have hset := State.settleFences_of_nil hf
  by_cases h : s.me.orderHeld i acq rel s.nextId lanes = true ∨ s.newId.2.stalled s.me lanes = true
  · rw [State.issueAcc_held i cls acq rel lanes ws pv ps eff hset h]
    rfl
  · obtain ⟨ho, hs⟩ := not_or.1 h
    rw [State.issueAcc_now i cls acq rel lanes ws pv ps eff hset (Bool.eq_false_iff.2 ho) (Bool.eq_false_iff.2 hs)]
    exact (Done.report_teamKept (he _ _ _ _) _).ctl

/-- The lanes of an access come to their fates without their team. -/
theorem laneFates_me (k : Access) (n : Nat) (ea : Nat → W80) (s : State) (ls : List Nat) : (laneFates k n ea s ls).s.me = s.me := by
  induction ls generalizing s with
  | nil => rfl
  | cons l ls ih =>
    cases hr : s.teamReach s.me k (ea l) n with
    | mk r s1 =>
      have hme := (State.teamReach_kept hr).me
      cases r with
      | ok key loc =>
        rw [laneFates_ok ls hr]
        exact (ih s1).trans hme
      | host c =>
        rw [laneFates_host ls hr]
        exact (ih _).trans ((s1.merge_keeps ..).1.trans hme)
      | fault c d =>
        rw [laneFates_fault ls hr]
        exact (ih s1).trans hme

theorem State.vectorAccess_misaligned {s : State} {i : Instr} {k : Access} {n : Nat} {ea : Nat → W80} {l : Nat} (hp : s.me.flow.park = none)
    (h : (lanesOf (s.me.effOf i) s.me.width).find? (fun l => (ea l).toNat % n != 0) = some l) (cls : OpClass) (rs : List VReg) (tag : BitVec 4)
    (eff : Effect) : s.vectorAccess i cls k n ea rs tag eff = s.trapHere ⟨6, n, ea l, false, 0⟩ := by
  unfold State.vectorAccess
  rw [hp]
  dsimp only
  split
  · next he =>
    rw [he] at h
    cases h
  · rw [h]

/-! ### The results of a load are in distinct places -/

theorem map_resultPlace_laneWrites (d : VReg) (l : Nat) (ws : List W32) :
    (laneWrites d l ws).map resultPlace = (List.range ws.length).map fun j => (.v (Fin.ofNat 64 (d.val + j)).val, l) := by
  rw [laneWrites, List.map_map, List.range_eq_range', ← List.zipIdx_map_snd 0 ws, List.map_map]
  rfl

theorem length_loadWords (z : LdSize) (x : Nat) : (loadWords z x).length ≤ 4 := by cases z <;> simp [loadWords]

/-- The words of a lane go to distinct registers. -/
theorem loadedLane_nodup (s : State) (core : Nat) (d : VReg) (z : LdSize) (x : LaneAt) : ((loadedLane s core d z x).map resultPlace).Nodup := by
  rw [loadedLane, map_resultPlace_laneWrites]
  refine List.nodup_range.map_on fun j hj k hk h => ?_
  have h4 := length_loadWords z (coreNat s core x.key z.bytes)
  rw [List.mem_range] at hj hk
  simp only [Prod.mk.injEq, Reg.v.injEq, Fin.val_ofNat, and_true] at h
  omega

theorem loadedLane_lane {s : State} {core : Nat} {d : VReg} {z : LdSize} {x : LaneAt} {p : Reg × Nat}
    (h : p ∈ (loadedLane s core d z x).map resultPlace) : p.2 = x.lane := by
  rw [loadedLane, map_resultPlace_laneWrites] at h
  obtain ⟨j, -, rfl⟩ := List.mem_map.1 h
  rfl

/-- The results of a load of distinct lanes are in distinct places. -/
theorem loadedLanes_nodup (s : State) (core : Nat) (d : VReg) (z : LdSize) {xs : List LaneAt} (h : (xs.map (·.lane)).Pairwise (· < ·)) :
    ((xs.flatMap (loadedLane s core d z)).map resultPlace).Nodup := by
  rw [List.map_flatMap, List.nodup_flatMap]
  refine ⟨fun x _ => loadedLane_nodup s core d z x, (List.pairwise_map.1 h).imp fun hlt p hp hq => ?_⟩
  exact hlt.ne ((loadedLane_lane hp).symm.trans (loadedLane_lane hq))

theorem mem_laneWrites {d : VReg} {l j : Nat} {ws : List W32} {w : W32} (h : ws[j]? = some w) :
    .v (Fin.ofNat 64 (d.val + j)) l w ∈ laneWrites d l ws :=
  List.mem_map.2 ⟨(w, j), List.mem_zipIdx_iff_getElem?.2 h, rfl⟩

end Sys2Proof.Machine

namespace Sys2Proof.Claim
open Sys2Proof Sys2Proof.Machine

/-! ### Empty masks (spec/06 R102) -/

theorem slice_empty {s : State} {i : Instr} (h : s.me.effOf i = 0) (cls : OpClass) (t : TReg) (r : Bool) (n : Nat) (rs : List VReg)
    (tag : BitVec 4) (eff : Effect) : s.slice i cls t r n rs tag eff = s.advance :=
  if_pos (by rw [h, lanesOf_zero])

theorem vecAcc_empty {s : State} {i : Instr} {v : VecAcc} (hv : vecAcc i = some v) (h : s.me.effOf i = 0) (hpark : s.me.flow.park = none)
    (hp : Passes s i) : exec i s = .next s.advance := by
  obtain ⟨cls, eff, hexec, -⟩ := exec_of_vecAcc hv hp
  have hready : ready s i = s.me := Team.prepare_of_eff_empty h
  rw [hexec, hready, State.vectorAccess_empty _ _ _ _ _ _ _ _ _ hpark (by rw [h, lanesOf_zero])]

/-- A vector access with an empty effective mask changes nothing. -/
theorem empty_mask_does_nothing (s : State) (i : Instr) (g : Guard) (hg : i.guard? = some g) (h0 : s.me.em &&& s.me.guardMask g = 0)
    (hpark : s.me.flow.park = none)
    (hi : (∃ d a o sc z, i = .vld d a o g sc z) ∨ (∃ d a o sc z, i = .vst d a o g sc z) ∨ (vatmOperands i).isSome = true ∨
       (∃ d t r j, i = .tsl d t r j g) ∨ (∃ d t r j, i = .tss d t r j g)) (hp : Passes s i) :
    ∃ t, exec i s = .next t ∧ WritesOnly s t s.me [] := by
  have heff : s.me.effOf i = 0 := by
    rw [Team.effOf, hg]
    exact h0
  have hprep := Team.prepare_of_eff_empty heff
  refine ⟨s.advance, ?_, writesOnly_advance_nothing s⟩
  rcases hi with ⟨d, a, o, sc, z, rfl⟩ | ⟨d, a, o, sc, z, rfl⟩ | hatm | ⟨d, t, r, j, rfl⟩ | ⟨d, t, r, j, rfl⟩
  · exact vecAcc_empty rfl heff hpark hp
  · exact vecAcc_empty rfl heff hpark hp
  · obtain ⟨⟨d, a, o, g'⟩, hops⟩ := Option.isSome_iff_exists.1 hatm
    obtain ⟨hvec, -⟩ := vecAcc_of_vatm hops
    exact vecAcc_empty hvec heff hpark hp
  · refine (run_of_prepare_eq _ hp hprep : execTsl d t r j g s = _).trans (congrArg _ ?_)
    exact slice_empty heff ..
  · refine (run_of_prepare_eq _ hp hprep : execTss d t r j g s = _).trans (congrArg _ ?_)
    exact slice_empty heff ..

/-! ### Vector accesses with lanes that are not made (spec/10 R176, spec/22 R317) -/

theorem misaligned_lane_traps (s : State) (i : Instr) (v : VecAcc) (u : Team) (l : Nat) (hv : vecAcc i = some v) (hp : Passes s i)
    (hu : u = ready s i) (hpark : u.flow.park = none)
    (hl : (lanesIn u (u.eff v.g)).find? (fun l => decide ((laneAddress u v.a v.o v.sc l).toNat % v.n ≠ 0)) = some l) :
    exec i s = .next (State.trapHere { s with me := u } ⟨6, v.n, laneAddress u v.a v.o v.sc l, false, 0⟩) := by
  obtain ⟨cls, eff, hexec, hg, -⟩ := exec_of_vecAcc hv hp
  rw [hexec, ← hu]
  refine congrArg _ (State.vectorAccess_misaligned hpark ?_ cls v.ds 0 eff)
  rw [Team.effOf, hg, ← hl]
  refine congrArg (List.find? · _) (funext fun l => ?_)
  exact (decide_not ..).symm

section
variable {s : State} {i : Instr} {v : VecAcc} {u : Team} {f : Fates}

theorem Tries.me (h : Tries s u v f) : f.s.me = u := by
  obtain ⟨-, -, -, -, rfl⟩ := h
  exact laneFates_me ..

/-- While a lane waits for the host, the team is parked at its word, with the faults of other lanes. -/
theorem waiting_lane_parks (hv : vecAcc i = some v) (hp : Passes s i) (hu : u = ready s i) (h : Tries s u v f) (hw : f.waits ≠ []) :
    ∃ t, exec i s = .next t ∧ t.me.regs = u.regs ∧ t.me.ctl = u.ctl ∧ t.me.flow.ops = u.flow.ops ∧
      ∃ p, t.me.flow.park = some p ∧ p.waits = f.waits ∧ p.faults = f.faults ∧ p.replay = 0 ∧ p.uniform = false := by
  obtain ⟨cls, eff, hexec, hg, -, -, hkept, -⟩ := exec_of_vecAcc hv hp
  have hme := h.me
  obtain ⟨hregs, hctl, hops⟩ := State.tryLanes_teamKept (s := f.s) (i := i) (lanes := f.oks) (ws := []) (by rw [hme, h.unfenced]) hkept
  rw [hme] at hregs hctl hops
  rw [hexec, ← hu, h.vectorAccess hg]
  refine ⟨_, rfl, ?_⟩
  rw [LaneAcc.finish, if_pos hw]
  exact ⟨hregs, hctl, hops, _, rfl, rfl, rfl, rfl, rfl⟩

/-- The state in which the faulting lanes of an access trap, from what the try of the other lanes has left. -/
def afterTry (i : Instr) (cls : OpClass) (rs : List VReg) (tag : BitVec 4) (eff : Effect) (r : State × List LaneAt × List RegWrite) : State :=
  if r.2.1 = [] then r.1.setMe fun t => (r.2.2.foldl Team.apply t).setTags rs tag
  else (r.1.setMe (·.setTags rs tag)).issueAcc i cls none none r.2.1 r.2.2 rs [] eff

/-- With faulting lanes only, the trap is that of the lowest, and its mask holds all of them. -/
theorem finish_faults {a : LaneAcc} (hw : a.waits = []) (hfl : a.faults ≠ []) (cls : OpClass) (rs : List VReg) (tag : BitVec 4) (eff : Effect) :
    ∃ l x, (l, x) ∈ a.faults ∧ (∀ y ∈ a.faults, l ≤ y.1) ∧ a.finish i cls [] [] rs tag eff =
      (afterTry i cls rs tag eff (a.s.tryLanes i a.lanes [] eff)).trapLanes x (maskOf (a.faults.map (·.1))) := by
  obtain ⟨⟨l, x⟩, hfirst, hmem, hlow⟩ := firstFault_lowest hfl
  refine ⟨l, x, hmem, hlow, ?_⟩
  rw [LaneAcc.finish, if_neg (not_not.2 hw), hfirst, afterTry]
  dsimp only [List.nil_append]
  split <;> rfl

/-- The team traps with its control state as it was. -/
theorem afterTry_ctl {s : State} (hf : s.me.flow.fences = []) {lanes : List LaneAt} {cls : OpClass} {rs : List VReg} {tag : BitVec 4}
    {eff : Effect} (he : eff.TeamKept) : (afterTry i cls rs tag eff (s.tryLanes i lanes [] eff)).me.ctl = s.me.ctl := by
  by_cases h : s.me.orderHeld i none none s.nextId lanes = true ∨ s.stalled s.me lanes = true
  · rw [State.tryLanes_held hf h, afterTry]
    split
    · rw [State.setMe_me, Team.setTags_ctl]
      rfl
    · rw [State.issueAcc_ctl (by rw [State.setMe_me, Team.setTags_flow, hf]) _ _ _ _ _ _ _ _ he, State.setMe_me, Team.setTags_ctl]
  · have hkept := Done.report_teamKept (he s.me lanes s.nextId s) s.me
    rw [State.tryLanes_now hf h, afterTry, if_pos rfl, State.setMe_me, Team.setTags_ctl, Team.foldl_apply_eq]
    exact hkept.ctl

/-- What the other lanes have done where nothing holds them back: their results are written. -/
theorem afterTry_now {s : State} (hf : s.me.flow.fences = []) {lanes : List LaneAt}
    (h : ¬ (s.me.orderHeld i none none s.nextId lanes = true ∨ s.stalled s.me lanes = true)) (cls : OpClass) (rs : List VReg) (tag : BitVec 4)
    (eff : Effect) : (afterTry i cls rs tag eff (s.tryLanes i lanes [] eff)).me =
      ((eff s.me lanes s.nextId s).writes.foldl Team.apply ((eff s.me lanes s.nextId s).report s.me).me).setTags rs tag := by
  rw [State.tryLanes_now hf h, afterTry, if_pos rfl]
  rfl

/-- The lanes of a load that translate have their values when the others trap. -/
theorem loaded_values (h : Tries s u v f) (hw : f.waits = []) {d : VReg} {z : LdSize}
    (hx : ∀ x ∈ f.oks, x.key % z.bytes = 0 ∧ (x.loc = 3 → s.dirtyAt u.core x.key = none) ∧ Undisturbed { s with me := u } x.key x.va)
    {rs : List VReg} {tag : BitVec 4} (op : Nat) : ∀ x ∈ f.oks, ∀ (j : Nat) (w : W32), (loadWords z (coreNat s u.core x.key z.bytes))[j]? = some w →
      HasLane u x.lane →
      lane (((vldEffect d z u f.oks op f.s).writes.foldl Team.apply ((vldEffect d z u f.oks op f.s).report u).me).setTags rs tag)
        (Fin.ofNat 64 (d.val + j)) x.lane = w := by
  obtain ⟨hsorted, hwidth⟩ := h.lanes
  have hme := h.me
  have hkept : FetchKept { s with me := u } f.s := by
    have hfates := h.fates
    subst hfates
    exact laneFates_kept hw
  obtain ⟨hdirty, hmem, hclean, hpoison, hlinks⟩ : f.s.dirty = s.dirty ∧ f.s.mem = s.mem ∧ f.s.clean = s.clean ∧
      f.s.poison = s.poison ∧ f.s.links = s.links := by
    obtain ⟨_, _, _, _, he⟩ := hkept
    rw [he]
    exact ⟨rfl, rfl, rfl, rfl, rfl⟩
  have hloads : ∀ x ∈ f.oks, Loads f.s z.bytes x := fun x hm => by
    obtain ⟨hkey, h3, hfree⟩ := hx x hm
    exact ⟨LdSize.key_fits hkey, by rw [hme, State.dirtyAt, hdirty]; exact h3,
      hfree.congr hdirty hmem hpoison hlinks (fun c hc => .inl (hclean ▸ hc)) (by rw [hme]) (by rw [hme])⟩
  obtain ⟨t, hwork, heff⟩ := vldEffect_loads (u := u) (by rw [hme]) (by rw [hme]) (d := d) hloads hsorted hwidth op
  obtain ⟨htme, -⟩ := hwork.keeps
  intro x hm j w hj hlane
  rw [heff, lane, Team.setTags_v]
  have hmemw : .v (Fin.ofNat 64 (d.val + j)) x.lane w ∈ f.oks.flatMap (loadedLane f.s f.s.me.core d z) := by
    refine List.mem_flatMap.2 ⟨x, hm, mem_laneWrites ?_⟩
    rw [hme, coreNat_eq, coreBytes_congr hdirty hmem]
    exact hj
  refine Team.foldl_apply_named (loadedLanes_nodup f.s f.s.me.core d z hsorted) _ _ hmemw ?_
  rw [Team.foldl_apply_length]
  show x.lane < (t.me.v _).length
  rw [htme, hme]
  exact hlane.2 _

/-- With faulting lanes only, the trap of the lowest is taken on all of them, after the other lanes. -/
theorem faulting_lanes_trap (hv : vecAcc i = some v) (hp : Passes s i) (hu : u = ready s i) (h : Tries s u v f) (hw : f.waits = [])
    (hfl : f.faults ≠ []) : ∃ (t : State) (l : Nat) (x : FaultInfo) (m : Mask), exec i s = .next (t.trapLanes x m) ∧
        (l, x) ∈ f.faults ∧ (∀ y ∈ f.faults, l ≤ y.1) ∧ (∀ k, k < 1024 → m.getLsbD k = f.faults.any (·.1 == k)) ∧ t.me.ctl = u.ctl ∧
        (¬ HeldBack f.s u i 0 f.oks → t.me.flow.ops = u.flow.ops) ∧
        (∀ d a o g sc z, i = .vld d a o g sc z → ¬ HeldBack f.s u i 0 f.oks →
          (∀ x ∈ f.oks, x.key % z.bytes = 0 ∧ (x.loc = 3 → s.dirtyAt u.core x.key = none) ∧ Undisturbed { s with me := u } x.key x.va) →
          ∀ x ∈ f.oks, ∀ (j : Nat) (w : W32), (loadWords z (coreNat s u.core x.key z.bytes))[j]? = some w → HasLane u x.lane →
            lane t.me (Fin.ofNat 64 (d.val + j)) x.lane = w) := by
  obtain ⟨cls, eff, hexec, hg, hacq, hrel, hkept, hvld⟩ := exec_of_vecAcc hv hp
  have hme := h.me
  have hfence : f.s.me.flow.fences = [] := by rw [hme, h.unfenced]
  obtain ⟨l, x, hmem, hlow, hfinish⟩ := finish_faults (i := i) (a := ⟨f.s, f.waits, f.faults, f.oks⟩) hw hfl cls v.ds 0 eff
  have hnow : ¬ HeldBack f.s u i 0 f.oks → (afterTry i cls v.ds 0 eff (f.s.tryLanes i f.oks [] eff)).me =
      ((eff u f.oks f.s.nextId f.s).writes.foldl Team.apply ((eff u f.oks f.s.nextId f.s).report u).me).setTags v.ds 0 := fun hfree => by
    rw [HeldBack, acqAt, relAt, hacq, hrel] at hfree
    rw [afterTry_now hfence (by rw [hme]; exact hfree), hme]
  have hctl : (afterTry i cls v.ds 0 eff (f.s.tryLanes i f.oks [] eff)).me.ctl = u.ctl := by rw [afterTry_ctl hfence hkept, hme]
  refine ⟨_, l, x, maskOf (f.faults.map (·.1)), ?_, hmem, hlow, fun k hk => ?_, hctl, fun hfree => ?_, ?_⟩
  · rw [hexec, ← hu, h.vectorAccess hg, hfinish]
  · rw [getLsbD_maskOf _ hk, List.any_map]
    rfl
  · have hops := (Done.report_teamKept (hkept u f.oks f.s.nextId f.s) u).ops
    rw [hme] at hops
    rw [hnow hfree, Team.setTags_flow, Team.foldl_apply_eq]
    exact hops
  · rintro d a o g sc z hi hfree hx y hy j w hj hlane
    rw [hnow hfree, hvld d a o g sc z hi]
    exact loaded_values h hw hx _ y hy j w hj hlane

end

/-- Settles O28: a uniform access that is not made traps, parks or waits as an operation; a vector access goes by the fates of its lanes. -/
theorem heldOrEmptyAccessesDoNothing : Obligations.HeldOrEmptyAccessesDoNothing := by
  unfold Obligations.HeldOrEmptyAccessesDoNothing
  refine ⟨⟨uniform_misaligned_traps, fun s s1 i va n cls k ps ha hk hp hpark halign => ⟨?_, ?_, ?_⟩, held_event_does_nothing, held_load_completes⟩,
    empty_mask_does_nothing, misaligned_lane_traps, fun s i v u f hv hp hu h => ⟨waiting_lane_parks hv hp hu h, faulting_lanes_trap hv hp hu h⟩⟩
  · exact uniform_fault_traps ha hk hp hpark halign
  · exact uniform_host_parks ha hk hp hpark halign
  · exact uniform_held_issues ha hk hp hpark halign

end Sys2Proof.Claim
end
